-- ==== Sys2Proof/Word.lean ====
section
/-! DEFINITION. The word types of the model and their plainest arithmetic (R11, R12, R15). -/
namespace Sys2Proof

/-- One byte of memory (R15: registers and descriptors are little-endian). -/
abbrev Byte := BitVec 8
/-- A register word. -/
abbrev Word := BitVec 32
/-- An engine register (R272): 64 bits. -/
abbrev DWord := BitVec 64
/-- A bench number (R9: 16 benches, 0 to 15). -/
abbrev BenchId := Fin 16
/-- One of the two PCIe ports (R24). -/
abbrev HostPort := Fin 2

end Sys2Proof
end

