-- ==== Sys2Proof/Syntax.lean ====
section
/-! DEFINITION. The commands as data. -/
namespace Sys2Proof

/-- Who makes an access: the Foreman, a FULL session at the debug port, an ENGINE session there, engine thread `8 c + t`, or
a host function. -/
inductive Agent where
  | foreman | full | engineDbg | thread (i : Nat) | host (key : Nat)
deriving DecidableEq, Repr

/-- The capabilities of R331, and those that it names as not supported. -/
inductive PciCap where
  | express | power | msi | msix | aer | sriov | ari | pasid | acs | serial | linkFeature | phys16 | phys32 | phys64 | margining
  | ats | pri | tph | ltr | ptm | resizableBar | doe
deriving DecidableEq, Repr

/-- The fields of a function's configuration space that a rule of spec/ reads or sets (R329, R331, R347, R348, R515). -/
inductive CfgField where
  | vendorId | deviceId | revision | classCode | interruptPin | totalVfs | tableSize
  | subsystemId | has (c : PciCap) | mpsSupported | tagsSupported | timeoutSupported | relaxedOrdering | noSnoop | idoRequest | idoCompletion
  | errorReporting | msiCapable | msiCount | pasidWidth | vfBar0 | vfBar2 | vfBar4 | firstVfOffset | vfStride | pageSizes | pageSize
  | nextFunction | acsSupported | acsControl | serialNumber | linkFeature | pmSupport | aerMask | aerFatal | headerLog (w : Fin 4)
  | busMaster | msixEnable | functionMask | msiEnable | msiAddr | msiData | msiMask | pasidEnable | tag10 | tag14
  | maxPayload | maxReadRequest | completionTimeout | powerState | pmeEnable | pmeStatus | vfEnable | numVfs
  | bar0 | bar2 | bar4 | flr | retrainLink | aerStatus
deriving DecidableEq, Repr


/-- The port types of R58, as an auto-negotiation page offers them (R60). -/
inductive Tech where
  | g400 | g200 | g100 | g50 | g25 | g10
deriving DecidableEq, Repr

/-- Whose face a port belongs to: a bench's, or the hub's side port, a smaller face of the same design (R85), whose one port is port 0. -/
inductive Face where
  | bench (n : BenchId) | side
deriving DecidableEq, Repr

/-- The bench whose face it is. -/
def Face.bench? : Face → Option BenchId
  | .bench n => some n
  | .side => none

/-- Whose transmitter a frame enters (R71, R85): a bench's, which takes the frame that its scheduler selected, or the side port's, with
the frame that the Foreman hands it. -/
inductive TxFace where
  | bench (n : BenchId) | side (bytes : List Byte)
deriving DecidableEq, Repr

/-- The bench whose transmitter it is. -/
def TxFace.bench? : TxFace → Option BenchId
  | .bench n => some n
  | .side _ => none

/-- What goes wrong on a link, below its TLPs (R32, R350): a flit that fails its check, the replay timer, the fourth replay in a row, and
the two protocol errors. -/
inductive LinkFault where
  | badFlit | replayTimeout | replayRollover | dataLinkProtocol | flowControlProtocol
deriving DecidableEq, Repr

/-- A link of a port and what goes wrong on it. -/
structure LinkErr where
  link : Fin 2
  what : LinkFault
deriving DecidableEq, Repr

/-- How a frame reached the side port (R65): whole, with a PCS error code in it, or cut short because the link left UP. -/
inductive RxEnd where
  | whole | badCode | aborted
deriving DecidableEq, Repr

/-- The commands: one constructor per row of spec/opcode_table.json, in the table's order. An operand `n` is a bench, `p` a port, `c` a core or a
flash channel, `t` a thread, `d` a die, `key` a function (`fnKey`), `m` a mailbox, `v` a value written, `ecc` the ECC errors that the accesses of
the command meet (bench offset, uncorrectable), `data` what the command's read of host memory brings. -/
inductive Instr where
  | /-- BENCH_CTL_START (R44). -/ benchCtlStart (n : BenchId) (v : Word)
  | /-- BENCH_CTL_STOP (R47). -/ benchCtlStop (n : BenchId) (v : Word)
  | /-- BENCH_RAILS_RAMPED (R46). -/ benchRailsRamped (n : BenchId)
  | /-- BENCH_PLLS_LOCKED (R46). -/ benchPllsLocked (n : BenchId) (ok : Bool)
  | /-- CROSSING_TRAINED (R39). -/ crossingTrained (n : BenchId) (k : Nat) (ok : Bool)
  | /-- BENCH_CLEAR_DONE (R46). -/ benchClearDone (n : BenchId)
  | /-- BENCH_RUNNING (R46). -/ benchRunning (n : BenchId)
  | /-- DRAIN_LIMIT_EXPIRED (R47). -/ drainLimitExpired (n : BenchId)
  | /-- DRAIN_COMPLETE (R47). -/ drainComplete (n : BenchId)
  | /-- PLL_UNLOCK (R42). -/ pllUnlock (n : Option BenchId)
  | /-- SUPPLY_FAIL (R44). -/ supplyFail (n : BenchId)
  | /-- BENCH_SWITCH_TURN (R544). -/ benchSwitchTurn
  | /-- HOST_WINDOW_START (R31). -/ hostWindowStart (p : HostPort) (k : Fin 2) (n : BenchId)
  | /-- FLIT_REPLAY (R32). -/ flitReplay (p : HostPort) (k : LinkErr)
  | /-- REG_WRITE (R13). -/ regWrite (ag : Agent) (a : Nat) (v : Word) (ecc : List (Nat × Bool))
  | /-- PORT_ENABLE (R61). -/ portEnable (n : BenchId) (p : Nat) (v : Word)
  | /-- PORT_DISABLE (R61). -/ portDisable (n : BenchId) (p : Nat) (v : Word)
  | /-- LANE_RESET (R61). -/ laneReset (n : BenchId) (p : Nat) (v : Word)
  | /-- DISABLE_FRAME_END (R61). -/ disableFrameEnd (n : BenchId) (p : Nat)
  | /-- SIGNAL_PRESENT (R61). -/ signalPresent (n : Face) (p : Nat)
  | /-- SIGNAL_LOSS (R61). -/ signalLoss (n : Face) (p : Nat)
  | /-- LOCK_LOSS (R61). -/ lockLoss (n : Face) (p : Nat)
  | /-- ATTEMPT_SUCCEEDS (R61). -/ attemptSucceeds (n : Face) (p : Nat)
  | /-- ATTEMPT_FAILS (R62). -/ attemptFails (n : Face) (p : Nat)
  | /-- RX_FRAME_START (R66). -/ rxFrameStart (n : BenchId) (p : Nat) (bytes : List Byte) (phase : Nat)
  | /-- RX_HEADER_PRESENT (R95). -/ rxHeaderPresent (n : BenchId) (p : Nat)
  | /-- RX_END_STATUS (R67). -/ rxEndStatus (n : BenchId) (p : Nat) (codeErr fcsBad : Bool) (fecCorr fecUncorr : Nat)
  | /-- STATION_COMMIT (R69). -/ stationCommit (n : BenchId) (e : Nat) (v : Word)
  | /-- PAUSE_FRAME_RX (R75). -/ pauseFrameRx (n : BenchId) (p quanta : Nat)
  | /-- PFC_FRAME_RX (R75). -/ pfcFrameRx (n : BenchId) (p vec : Nat) (times : List Nat)
  | /-- PAUSE_TIMER_EXPIRED (R75). -/ pauseTimerExpired (n : Face) (p : Nat) (cls : Option Nat)
  | /-- TX_FRAME (R71). -/ txFrame (n : TxFace) (p phase : Nat) (ecc : List (Nat × Bool))
  | /-- TX_UNDERRUN (R72). -/ txUnderrun (n : BenchId) (p sent : Nat)
  | /-- PAUSE_REQUEST_CHANGE (R76). -/ pauseRequestChange (n : Face) (p : Nat)
  | /-- PAUSE_REPEAT_TIMER (R76). -/ pauseRepeatTimer (n : Face) (p : Nat)
  | /-- PAUSE_MODE_CHANGE (R76). -/ pauseModeChange (n : Face) (p : Nat)
  | /-- TIME_SNAP (R78). -/ timeSnap (n : BenchId)
  | /-- TIME_LOAD (R78). -/ timeLoad (n : BenchId)
  | /-- TIME_ADJUST (R78). -/ timeAdjust (n : BenchId)
  | /-- TIME_INCR_WRITE (R77). -/ timeIncrWrite (n : BenchId) (frac : Bool) (v : Word)
  | /-- FREQ_COUNT_DONE (R78). -/ freqCountDone (n : BenchId) (count : Nat)
  | /-- PPS_IN_EDGE (R78). -/ ppsInEdge (n : BenchId)
  | /-- PPS_OUT_RISE (R79). -/ ppsOutRise (n : BenchId)
  | /-- PPS_OUT_FALL (R79). -/ ppsOutFall (n : BenchId)
  | /-- CAL_COMPLETE (R81). -/ calComplete (n : BenchId) (p : Nat)
  | /-- TX_TS_READ (R574). -/ txTsRead (n : BenchId) (p w : Nat)
  | /-- PPS_IN_TS_READ (R574). -/ ppsInTsRead (n : BenchId) (w : Nat)
  | /-- FREQ_CNT_READ (R574). -/ freqCntRead (n : BenchId)
  | /-- SIDE_FRAME_RX (R85). -/ sideFrameRx (bytes : List Byte) (how : RxEnd) (fcsBad : Bool)
  | /-- WAKE_MATCH (R86). -/ wakeMatch (frame : List Byte)
  | /-- FIRST_CUT_ADMIT (R96). -/ firstCutAdmit (n : BenchId) (p : Nat) (ecc : List (Nat × Bool))
  | /-- SECOND_CUT_ADMIT (R98). -/ secondCutAdmit (n : BenchId) (ecc : List (Nat × Bool))
  | /-- HOST_ENTRY_ADMIT (R99). -/ hostEntryAdmit (n : BenchId) (ecc : List (Nat × Bool))
  | /-- GRAPH_ARM (R112). -/ graphArm (n : BenchId) (v : Word)
  | /-- NODE_COMMIT (R115). -/ nodeCommit (n : BenchId) (i : Nat)
  | /-- START_NODE_WRITE (R113). -/ startNodeWrite (n : BenchId) (g : Nat) (v : Word)
  | /-- EXC_CLASS_WRITE (R113). -/ excClassWrite (n : BenchId) (g : Nat) (v : Word)
  | /-- RECIPE_WRITE (R123). -/ recipeWrite (n : BenchId) (w : Nat) (v : Word)
  | /-- HIT_BITMAP_READ (R135). -/ hitBitmapRead (n : BenchId) (off size : Nat)
  | /-- TABLE_LOOKUP (R136). -/ tableLookup (n : BenchId) (ecc : List (Nat × Bool))
  | /-- TABLE_READ (R136). -/ tableRead (n : BenchId) (ecc : List (Nat × Bool))
  | /-- TABLE_INSERT (R137). -/ tableInsert (n : BenchId) (ecc : List (Nat × Bool))
  | /-- TABLE_UPDATE (R139). -/ tableUpdate (n : BenchId) (ecc : List (Nat × Bool))
  | /-- TABLE_DELETE (R136). -/ tableDelete (n : BenchId) (ecc : List (Nat × Bool))
  | /-- TABLE_MOVE (R138). -/ tableMove (n : BenchId) (ecc : List (Nat × Bool))
  | /-- TABLE_CLEAR (R136). -/ tableClear (n : BenchId)
  | /-- TABLE_OP_DONE (R156). -/ tableOpDone (n : BenchId)
  | /-- SWEEP_START (R142). -/ sweepStart (n : BenchId) (v : Word)
  | /-- SWEEP_STEP (R143). -/ sweepStep (n : BenchId) (ecc : List (Nat × Bool))
  | /-- SWEEP_RESUME (R144). -/ sweepResume (n : BenchId) (v : Word)
  | /-- LEARN_RECORD_READY (R148). -/ learnRecordReady (n : BenchId)
  | /-- LEARN_POP (R150). -/ learnPop (n : BenchId)
  | /-- GEN_CTL_SWAP (R180). -/ genCtlSwap (n : BenchId)
  | /-- TEMPLATE_COMMIT (R176). -/ templateCommit (n : BenchId) (i : Nat)
  | /-- CIPHER_BODY_STEP (R188). -/ cipherBodyStep (n : BenchId) (enc : Bool)
  | /-- CIPHER_VERDICT (R190). -/ cipherVerdict (n : BenchId) (enc mismatch : Bool)
  | /-- CIPHER_RESTART (R205). -/ cipherRestart (n : BenchId)
  | /-- CIPHER_SELFTEST_DONE (R205). -/ cipherSelftestDone (n : BenchId) (ok : Bool)
  | /-- SA_COMMIT (R195). -/ saCommit (n : BenchId) (i : Nat)
  | /-- SA_KEY_ZEROISED (R203). -/ saKeyZeroised (n : BenchId) (i : Nat)
  | /-- SIDE_ENQUEUE (R213). -/ sideEnqueue (n : BenchId) (ecc : List (Nat × Bool))
  | /-- SCHED_DECISION (R227). -/ schedDecision (n : BenchId) (p lead : Nat)
  | /-- METER_REFRESH (R219). -/ meterRefresh (n : BenchId) (ecc : List (Nat × Bool))
  | /-- MTR_COMMIT (R220). -/ mtrCommit (n : BenchId) (m : Nat)
  | /-- QCTX_COMMIT (R223). -/ qctxCommit (n : BenchId) (q : Nat)
  | /-- QCTX_CLEAR_HWM (R223). -/ qctxClearHwm (n : BenchId) (q : Nat)
  | /-- GATE_COMMIT (R232). -/ gateCommit (n : BenchId) (p : Nat)
  | /-- GATE_CANCEL (R232). -/ gateCancel (n : BenchId) (p : Nat)
  | /-- GATE_TAKEOVER (R232). -/ gateTakeover (n : BenchId) (p : Nat)
  | /-- GATE_ENTRY_ADVANCE (R229). -/ gateEntryAdvance (n : BenchId) (p : Nat)
  | /-- HOST_DELIVERY_TAKE (R216). -/ hostDeliveryTake (n : BenchId)
  | /-- HOPPER_ENABLE (R247). -/ hopperEnable (n : BenchId) (v : Word)
  | /-- HOPPER_READY (R247). -/ hopperReady (n : BenchId)
  | /-- HOP_ALLOC_LENGTH (R250). -/ hopAllocLength (n : BenchId) (pkt : Bool)
  | /-- HOP_ALLOC_POOL (R250). -/ hopAllocPool (n : BenchId) (pool : Nat)
  | /-- HOP_SHARE (R255). -/ hopShare (n : BenchId) (ecc : List (Nat × Bool))
  | /-- HOP_RELEASE (R256). -/ hopRelease (n : BenchId) (ecc : List (Nat × Bool))
  | /-- HOP_FREE (R256). -/ hopFree (n : BenchId) (ecc : List (Nat × Bool))
  | /-- HOP_GIVE (R254). -/ hopGive (n : BenchId) (ecc : List (Nat × Bool))
  | /-- ALU (R280). -/ alu (n : BenchId) (c t : Nat) (ecc : List (Nat × Bool))
  | /-- ADDI (R279). -/ addi (n : BenchId) (c t : Nat) (ecc : List (Nat × Bool))
  | /-- ANDI (R279). -/ andi (n : BenchId) (c t : Nat) (ecc : List (Nat × Bool))
  | /-- ORI (R279). -/ ori (n : BenchId) (c t : Nat) (ecc : List (Nat × Bool))
  | /-- XORI (R279). -/ xori (n : BenchId) (c t : Nat) (ecc : List (Nat × Bool))
  | /-- SLTI (R279). -/ slti (n : BenchId) (c t : Nat) (ecc : List (Nat × Bool))
  | /-- SLTIU (R279). -/ sltiu (n : BenchId) (c t : Nat) (ecc : List (Nat × Bool))
  | /-- SHI (R279). -/ shi (n : BenchId) (c t : Nat) (ecc : List (Nat × Bool))
  | /-- MOVW (R281). -/ movw (n : BenchId) (c t : Nat) (ecc : List (Nat × Bool))
  | /-- EXT (R279). -/ ext (n : BenchId) (c t : Nat) (ecc : List (Nat × Bool))
  | /-- EXTS (R279). -/ exts (n : BenchId) (c t : Nat) (ecc : List (Nat × Bool))
  | /-- INS (R279). -/ ins (n : BenchId) (c t : Nat) (ecc : List (Nat × Bool))
  | /-- LDL (R275). -/ ldl (n : BenchId) (c t : Nat) (ecc : List (Nat × Bool))
  | /-- STL (R275). -/ stl (n : BenchId) (c t : Nat) (ecc : List (Nat × Bool))
  | /-- LDB (R273). -/ ldb (n : BenchId) (c t : Nat) (ecc : List (Nat × Bool))
  | /-- STB (R273). -/ stb (n : BenchId) (c t : Nat) (ecc : List (Nat × Bool))
  | /-- LDD (R276). -/ ldd (n : BenchId) (c t : Nat) (ecc : List (Nat × Bool))
  | /-- STD (R276). -/ std (n : BenchId) (c t : Nat) (ecc : List (Nat × Bool))
  | /-- LDDL (R277). -/ lddl (n : BenchId) (c t : Nat) (ecc : List (Nat × Bool))
  | /-- STDL (R277). -/ stdl (n : BenchId) (c t : Nat) (ecc : List (Nat × Bool))
  | /-- AADD (R282). -/ aadd (n : BenchId) (c t : Nat) (ecc : List (Nat × Bool))
  | /-- ACAS (R282). -/ acas (n : BenchId) (c t : Nat) (ecc : List (Nat × Bool))
  | /-- BEQ (R279). -/ beq (n : BenchId) (c t : Nat) (ecc : List (Nat × Bool))
  | /-- BNE (R279). -/ bne (n : BenchId) (c t : Nat) (ecc : List (Nat × Bool))
  | /-- BLT (R279). -/ blt (n : BenchId) (c t : Nat) (ecc : List (Nat × Bool))
  | /-- BGE (R279). -/ bge (n : BenchId) (c t : Nat) (ecc : List (Nat × Bool))
  | /-- BLTU (R279). -/ bltu (n : BenchId) (c t : Nat) (ecc : List (Nat × Bool))
  | /-- BGEU (R279). -/ bgeu (n : BenchId) (c t : Nat) (ecc : List (Nat × Bool))
  | /-- JAL (R279). -/ jal (n : BenchId) (c t : Nat) (ecc : List (Nat × Bool))
  | /-- JALR (R279). -/ jalr (n : BenchId) (c t : Nat) (ecc : List (Nat × Bool))
  | /-- CHRD (R302). -/ chrd (n : BenchId) (c t : Nat) (ecc : List (Nat × Bool))
  | /-- CHWR (R301). -/ chwr (n : BenchId) (c t : Nat) (ecc : List (Nat × Bool))
  | /-- FORK (R297). -/ fork (n : BenchId) (c t : Nat) (ecc : List (Nat × Bool))
  | /-- JOIN (R299). -/ join (n : BenchId) (c t : Nat) (ecc : List (Nat × Bool))
  | /-- WACQ (R307). -/ wacq (n : BenchId) (c t : Nat) (ecc : List (Nat × Bool))
  | /-- WREL (R308). -/ wrel (n : BenchId) (c t : Nat) (ecc : List (Nat × Bool))
  | /-- TOP (R283). -/ top (n : BenchId) (c t : Nat) (ecc : List (Nat × Bool))
  | /-- HOP (R284). -/ hop (n : BenchId) (c t : Nat) (ecc : List (Nat × Bool))
  | /-- HSUB (R285). -/ hsub (n : BenchId) (c t : Nat) (ecc : List (Nat × Bool))
  | /-- WAITC (R277). -/ waitc (n : BenchId) (c t : Nat) (ecc : List (Nat × Bool))
  | /-- MFS (R272). -/ mfs (n : BenchId) (c t : Nat) (ecc : List (Nat × Bool))
  | /-- NOTICE (R311). -/ notice (n : BenchId) (c t : Nat) (ecc : List (Nat × Bool))
  | /-- TRAP (R286). -/ trap (n : BenchId) (c t : Nat) (ecc : List (Nat × Bool))
  | /-- HALT (R296). -/ halt (n : BenchId) (c t : Nat) (ecc : List (Nat × Bool))
  | /-- ILLEGAL_INSTRUCTION (R279). -/ illegalInstruction (n : BenchId) (c t : Nat) (ecc : List (Nat × Bool))
  | /-- DRAM_LOAD_RETURN (R276). -/ dramLoadReturn (n : BenchId)
  | /-- TICKET_COMPLETE (R277). -/ ticketComplete (n : BenchId)
  | /-- CORE_START (R288). -/ coreStart (n : BenchId) (c : Nat)
  | /-- CORE_STOP (R289). -/ coreStop (n : BenchId) (c : Nat)
  | /-- CORE_STOP_WALK (R289). -/ coreStopWalk (n : BenchId) (c : Nat)
  | /-- THREAD_TERMINATE (R296). -/ threadTerminate (n : BenchId) (c t : Nat)
  | /-- THREAD_RESUME (R296). -/ threadResume (n : BenchId) (c t : Nat)
  | /-- CHAN_CFG_WRITE (R303). -/ chanCfgWrite (n : BenchId) (k : Nat) (v : Word)
  | /-- INBOX_DELIVER (R304). -/ inboxDeliver (n : BenchId) (c : Nat)
  | /-- STALL_WATCH (R313). -/ stallWatch (n : BenchId)
  | /-- DBG_STOP (R317). -/ dbgStop (n : BenchId) (session : Bool) (c mask : Nat)
  | /-- DBG_RESUME (R318). -/ dbgResume (n : BenchId) (session : Bool) (c mask : Nat)
  | /-- DBG_STEP (R318). -/ dbgStep (n : BenchId) (session : Bool) (c mask : Nat)
  | /-- LINK_TRAINING_START (R542). -/ linkTrainingStart (p : HostPort)
  | /-- LINK_L0 (R325). -/ linkL0 (p : HostPort) (k : Fin 2) (flit : Bool) (rate width ph nph pd npd : Nat)
  | /-- LINK_RECOVERY (R327). -/ linkRecovery (p : HostPort) (k : Fin 2) (back : Option (Nat × Nat))
  | /-- LINK_LOSS (R349). -/ linkLoss (p : HostPort) (k : Fin 2)
  | /-- CONFIG_READ (R542). -/ configRead (key : Nat) (x : CfgField)
  | /-- CONFIG_WRITE (R328). -/ configWrite (key : Nat) (x : CfgField) (v : Nat)
  | /-- BME_CLEAR (R347). -/ bmeClear (key : Nat)
  | /-- BME_SET (R347). -/ bmeSet (key : Nat)
  | /-- FLR_START (R348). -/ flrStart (key : Nat)
  | /-- FLR_DONE (R348). -/ flrDone (key : Nat)
  | /-- HOST_MEM_READ (R339). -/ hostMemRead (key bar off size : Nat) (full : Bool) (buf : Nat) (ecc : List (Nat × Bool))
  | /-- HOST_MEM_WRITE (R339). -/ hostMemWrite (key bar off : Nat) (l : List Byte) (poisoned full : Bool) (buf : Nat) (ecc : List (Nat × Bool))
  | /-- HOST_COMPLETION (R345). -/ hostCompletion (n : BenchId) (key tag : Nat) (data : List Byte) (status : Nat) (ep : Bool)
  | /-- READ_TIMEOUT (R343). -/ readTimeout (n : BenchId) (key tag : Nat)
  | /-- TAG_QUARANTINE_END (R344). -/ tagQuarantineEnd (n : BenchId) (key tag : Nat)
  | /-- WIN_COMMIT (R338). -/ winCommit (p : HostPort) (idx : Nat) (vf : Bool)
  | /-- VECTOR_UNMASK (R341). -/ vectorUnmask (key vec : Nat)
  | /-- CFG_READY_SET (R543). -/ cfgReadySet (p : HostPort)
  | /-- READY_FORCED (R543). -/ readyForced (p : HostPort)
  | /-- PF_D3HOT (R515). -/ pfD3hot (key : Nat)
  | /-- PF_D0 (R515). -/ pfD0 (key : Nat)
  | /-- PME_TURN_OFF (R517). -/ pmeTurnOff (p : HostPort) (k : Fin 2) (done aux : Bool)
  | /-- PERST_ASSERT (R548). -/ perstAssert (p : HostPort)
  | /-- PERST_RELEASE (R542). -/ perstRelease (p : HostPort)
  | /-- DOORBELL_WRITE (R372). -/ doorbellWrite (key off size v : Nat) (pasid : Option Nat) (full : Bool)
  | /-- RING_FETCH (R377). -/ ringFetch (n : BenchId)
  | /-- DESC_ARRIVE (R371). -/ descArrive (n : BenchId) (r : Nat)
  | /-- DESC_REFETCH (R371). -/ descRefetch (n : BenchId) (r : Nat)
  | /-- COMPLETION_WRITE (R378). -/ completionWrite (n : BenchId)
  | /-- CQ_INT_TIMER (R379). -/ cqIntTimer (n : BenchId) (q : Nat)
  | /-- CLAIM_DRAINED (R364). -/ claimDrained (n : BenchId) (i : Nat)
  | /-- QUIESCE_LIMIT_EXPIRED (R365). -/ quiesceLimitExpired (n : BenchId) (i : Nat)
  | /-- CLAIM_RESET_DONE (R365). -/ claimResetDone (n : BenchId) (i : Nat)
  | /-- HAUL_SUBMIT (R405). -/ haulSubmit (n : BenchId)
  | /-- HAUL_COMMAND_START (R398). -/ haulCommandStart (n : BenchId) (c : Nat) (ecc : List (Nat × Bool))
  | /-- HAUL_READ_REQUEST (R392). -/ haulReadRequest (n : BenchId) (c : Nat) (ecc : List (Nat × Bool))
  | /-- HAUL_WRITE_CHUNK (R392). -/ haulWriteChunk (n : BenchId) (c : Nat) (ecc : List (Nat × Bool))
  | /-- HAUL_COMMAND_DONE (R404). -/ haulCommandDone (n : BenchId) (c : Nat)
  | /-- COLLECTOR_EXIT (R462). -/ collectorExit (n : BenchId)
  | /-- FLASH_IDENTIFY_DONE (R409). -/ flashIdentifyDone (n : BenchId) (c page planes blocks pages : Nat) (dies : List (Nat × Bool))
  | /-- FLASH_TRAIN (R409). -/ flashTrain (n : BenchId) (c : Nat)
  | /-- FLASH_TRAIN_DONE (R409). -/ flashTrainDone (n : BenchId) (c : Nat) (ok : Bool)
  | /-- FLASH_DB (R410). -/ flashDb (n : BenchId) (c : Nat) (v : Word)
  | /-- FLASH_RING_RESET (R410). -/ flashRingReset (n : BenchId) (c : Nat)
  | /-- FLASH_ENTRY_REREAD (R410). -/ flashEntryReread (n : BenchId) (c : Nat)
  | /-- FLASH_OP_FETCH (R413). -/ flashOpFetch (n : BenchId) (c : Nat)
  | /-- FLASH_READ (R412). -/ flashRead (n : BenchId) (c d : Nat)
  | /-- FLASH_PROGRAM (R412). -/ flashProgram (n : BenchId) (c d : Nat) (ecc : List (Nat × Bool))
  | /-- FLASH_ERASE (R412). -/ flashErase (n : BenchId) (c d : Nat)
  | /-- FLASH_READ_RAW (R412). -/ flashReadRaw (n : BenchId) (c d : Nat)
  | /-- FLASH_GET_FEATURE (R412). -/ flashGetFeature (n : BenchId) (c d : Nat)
  | /-- FLASH_SET_FEATURE (R412). -/ flashSetFeature (n : BenchId) (c d : Nat)
  | /-- FLASH_READ_ID (R412). -/ flashReadId (n : BenchId) (c d : Nat)
  | /-- FLASH_READ_PARAM (R412). -/ flashReadParam (n : BenchId) (c d : Nat)
  | /-- FLASH_RETIRE (R412). -/ flashRetire (n : BenchId) (c d : Nat)
  | /-- FLASH_RESET_LUN (R412). -/ flashResetLun (n : BenchId) (c d : Nat)
  | /-- DIE_READY (R414). -/ dieReady (n : BenchId) (c d : Nat) (pass : Bool) (data : List Byte) (ecc : List (Nat × Bool))
  | /-- CODEWORD_DECODED (R415). -/ codewordDecoded (n : BenchId) (c d cw : Nat) (ok : Bool) (bits : Nat) (l : List Byte) (ecc : List (Nat × Bool))
  | /-- DIE_OP_TIMEOUT (R416). -/ dieOpTimeout (n : BenchId) (c d : Nat)
  | /-- FLASH_DONE_MSG (R414). -/ flashDoneMsg (n : BenchId) (c d : Nat)
  | /-- XTS_ENABLE (R418). -/ xtsEnable (n : BenchId) (ns : Nat)
  | /-- XTS_DISABLE (R418). -/ xtsDisable (n : BenchId) (ns : Nat)
  | /-- XTS_SLOT_ZEROISED (R418). -/ xtsSlotZeroised (n : BenchId) (ns : Nat)
  | /-- NVME_REG_ACCESS (R419). -/ nvmeRegAccess (n : BenchId) (k off : Nat) (v : Option Word)
  | /-- NVME_CC_WRITE (R420). -/ nvmeCcWrite (n : BenchId) (k : Nat) (v : Word)
  | /-- NVME_SQ_DOORBELL (R419). -/ nvmeSqDoorbell (n : BenchId) (k y : Nat) (v : Word)
  | /-- NVME_CQ_DOORBELL (R419). -/ nvmeCqDoorbell (n : BenchId) (k y : Nat) (v : Word)
  | /-- NVME_SQ_FETCH (R420). -/ nvmeSqFetch (n : BenchId)
  | /-- NVME_CPL_COMMIT (R421). -/ nvmeCplCommit (n : BenchId) (core t : Nat) (v : Word)
  | /-- PWRFAIL_FALL (R426). -/ pwrfailFall
  | /-- FLUSH_DONE (R426). -/ flushDone (n : BenchId) (ecc : List (Nat × Bool))
  | /-- FLUSH_WINDOW_END (R426). -/ flushWindowEnd
  | /-- PWRFAIL_RISE (R569). -/ pwrfailRise
  | /-- DRAM_GO (R435). -/ dramGo (n : BenchId)
  | /-- DRAM_TRAIN_DONE (R436). -/ dramTrainDone (n : BenchId) (ok : Bool)
  | /-- DRAM_FILL_DONE (R437). -/ dramFillDone (n : BenchId)
  | /-- DRAM_REQUEST_ISSUE (R438). -/ dramRequestIssue (n : BenchId) (ecc : List (Nat × Bool))
  | /-- DRAM_READ_COMPLETE (R443). -/ dramReadComplete (n : BenchId) (ecc : List (Nat × Bool))
  | /-- DRAM_REFRESH (R440). -/ dramRefresh (n : BenchId) (hot : Bool)
  | /-- DRAM_SR_ENTRY (R441). -/ dramSrEntry (n : BenchId)
  | /-- DRAM_ALERT (R444). -/ dramAlert (n : BenchId) (x : Nat) (again : Bool)
  | /-- DRAM_RETIRE (R446). -/ dramRetire (n : BenchId) (slot : Nat)
  | /-- DRAM_MIG_STEP (R447). -/ dramMigStep (n : BenchId) (ecc : List (Nat × Bool))
  | /-- MBX_IN_PUSH (R477). -/ mbxInPush (m : Nat) (v : Word)
  | /-- MBX_OUT_POP (R475). -/ mbxOutPop (m : Nat)
  | /-- MBX_ACK_READ (R478). -/ mbxAckRead (m : Nat)
  | /-- DB_TO_FM_WRITE (R479). -/ dbToFmWrite (m : Nat) (v : Word)
  | /-- DB_TO_HOST_RAISE (R479). -/ dbToHostRaise (m : Nat) (v : Word)
  | /-- ADMIN_SQ_DOORBELL (R484). -/ adminSqDoorbell (m : Nat) (v : DWord)
  | /-- ADMIN_CQ_DOORBELL (R484). -/ adminCqDoorbell (m : Nat) (v : DWord)
  | /-- MBX_GO (R483). -/ mbxGo (m : Nat)
  | /-- ADMIN_COMMAND (R484). -/ adminCommand (m : Nat) (again : Bool)
  | /-- IDENTIFY (R489). -/ identify (m : Nat)
  | /-- NOTICE_GET (R490). -/ noticeGet (m : Nat)
  | /-- ADMIN_CREATE (R484). -/ adminCreate (m : Nat)
  | /-- ADMIN_DESTROY (R486). -/ adminDestroy (m : Nat)
  | /-- MANAGER_SET (R486). -/ managerSet (m : Nat)
  | /-- EVENT_ROUTE (R529). -/ eventRoute (m : Nat)
  | /-- TALLY_READ (R534). -/ tallyRead (m : Nat)
  | /-- BENCH_START (R486). -/ benchStart (m : Nat) (late : Bool)
  | /-- BENCH_STOP (R486). -/ benchStop (m : Nat) (late : Bool)
  | /-- BENCH_STATUS (R489). -/ benchStatus (m : Nat)
  | /-- GRAPH_LOAD (R116). -/ graphLoad (m : Nat) (late : Bool)
  | /-- RULE_WRITE (R486). -/ ruleWrite (m : Nat) (late : Bool)
  | /-- GEN_SWAP (R180). -/ genSwap (m : Nat)
  | /-- TABLE_OP (R136). -/ tableOp (m : Nat) (_ : Unit) (late : Bool)
  | /-- LEARN_POLICY (R491). -/ learnPolicy (m : Nat)
  | /-- LEARN_POLICY_APPLY (R491). -/ learnPolicyApply (n : BenchId) (ecc : List (Nat × Bool))
  | /-- TABLE_SWEEP (R142). -/ tableSweep (m : Nat)
  | /-- PORT_SET (R486). -/ portSet (m : Nat)
  | /-- TM_WRITE (R486). -/ tmWrite (m : Nat) (late : Bool)
  | /-- GATE_LOAD (R232). -/ gateLoad (m : Nat) (late : Bool)
  | /-- TIME_CMD (R78). -/ timeCmd (m : Nat)
  | /-- KEY_LOAD (R506). -/ keyLoad (m : Nat) (late : Bool)
  | /-- SA_WRITE (R195). -/ saWrite (m : Nat) (late : Bool)
  | /-- DEBUG_OPEN (R511). -/ debugOpen (m : Nat) (late : Bool)
  | /-- DEBUG_CLOSE (R512). -/ debugClose (m : Nat)
  | /-- ATTEST (R501). -/ attest (m : Nat)
  | /-- ENGINE_LOAD (R292). -/ engineLoad (m : Nat) (_ : Unit) (late : Bool)
  | /-- ENGINE_CTL (R288). -/ engineCtl (m : Nat)
  | /-- CLAIM_CREATE (R362). -/ claimCreate (m : Nat)
  | /-- CLAIM_QUIESCE (R364). -/ claimQuiesce (m : Nat) (late : Bool)
  | /-- CLAIM_RESUME (R363). -/ claimResume (m : Nat)
  | /-- CLAIM_RESET (R365). -/ claimReset (m : Nat) (late : Bool)
  | /-- CLAIM_REMOVE (R362). -/ claimRemove (m : Nat)
  | /-- CLAIM_SET_SHARE (R360). -/ claimSetShare (m : Nat)
  | /-- WINDOW_SET (R338). -/ windowSet (m : Nat)
  | /-- RING_CREATE (R362). -/ ringCreate (m : Nat)
  | /-- RING_START (R383). -/ ringStart (m : Nat)
  | /-- RING_STOP (R383). -/ ringStop (m : Nat)
  | /-- RING_DESTROY (R383). -/ ringDestroy (m : Nat)
  | /-- RING_SET_STEP (R72). -/ ringSetStep (m : Nat)
  | /-- NVME_GRANT (R419). -/ nvmeGrant (m : Nat)
  | /-- NVME_REMOVE (R486). -/ nvmeRemove (m : Nat)
  | /-- NS_CREATE (R486). -/ nsCreate (m : Nat)
  | /-- NS_DELETE (R486). -/ nsDelete (m : Nat)
  | /-- KEY_ARCHIVE_RESTORE (R508). -/ keyArchiveRestore (n : BenchId)
  | /-- FUSE_PROG_CMD (R495). -/ fuseProgCmd (port : Bool) (k flips : Nat)
  | /-- LC_SECURE (R496). -/ lcSecure (port : Bool)
  | /-- LC_RETURN (R496). -/ lcReturn (port : Bool)
  | /-- LC_SCRAP (R496). -/ lcScrap (port : Bool)
  | /-- DBG_CMD_OPEN (R511). -/ dbgCmdOpen (port : Bool)
  | /-- DBG_CMD_CLOSE (R512). -/ dbgCmdClose (port : Bool) (k : Nat)
  | /-- DBG_ACC (R514). -/ dbgAcc (port : Bool) (v : Word) (ecc : List (Nat × Bool))
  | /-- SVN_ADVANCE (R500). -/ svnAdvance
  | /-- SEAL_ENCRYPT (R503). -/ sealEncrypt (src : Bool)
  | /-- SEAL_DECRYPT (R503). -/ sealDecrypt (src : Bool)
  | /-- SEAL_UNWRAP (R505). -/ sealUnwrap
  | /-- SEAL_RESULT (R503). -/ sealResult
  | /-- LEAK_TICK (R526). -/ leakTick (n : Option BenchId) (k : Nat)
  | /-- TALLY_SNAPSHOT (R534). -/ tallySnapshot (ag : Agent) (n : Option BenchId) (id w1 : Word)
  | /-- POR_ASSERT (R538). -/ porAssert (aux : Bool)
  | /-- POR_RELEASE (R541). -/ porRelease (split0 split1 locked : Bool) (failed : List (Fin 6))
  | /-- BOOT_SLOT_CHECK (R498). -/ bootSlotCheck (a b : Option (List Byte))
  | /-- HUB_FAULT_RESET (R546). -/ hubFaultReset (cause : Nat)
  | /-- FOREMAN_RESET (R549). -/ foremanReset (a b : Option (List Byte))
  | /-- FM_WDOG_KICK (R550). -/ fmWdogKick (v : Word)
  | /-- FM_WDOG_EXPIRE (R550). -/ fmWdogExpire (a b : Option (List Byte))
  | /-- THERMAL_SENSOR_READ (R571). -/ thermalSensorRead (temps : List (BitVec 12))
  | /-- AN_PAGE_RECEIVED (R60). -/ anPageReceived (n : Face) (p : Nat) (offered : List Tech)
  | /-- RC_REGISTER_READ (R13). -/ rcRegisterRead (ag : Agent) (a : Nat) (wide : Bool)
  | /-- HUB_PLL_LOCK_RETRY (R541). -/ hubPllLockRetry (locked : Bool) (failed : List (Fin 6))
deriving DecidableEq, Repr

end Sys2Proof
end

