-- ==== Sys2Proof/Decode.lean ====
section
/-! DEFINITION. The words of the opcode table: no row of spec/opcode_table.json has a field of bits, so no word spells a command. -/
namespace Sys2Proof

/-- The command that a word of the table's bits spells: none for every word. [DESIGN CHOICE, log 3, safe] -/
def decodeTableWord (_nbits _w : Nat) : Option Instr := none

end Sys2Proof
end

