-- ==== Sys2Proof/Config.lean ====
section
/-! DEFINITION. What the spec leaves open or names from an outside standard: free values and uninterpreted functions, each
an opaque constant that nothing in Lean can evaluate, so that a statement about one holds for every value. -/
namespace Sys2Proof.Config

/-- The free value: the n-th value the spec leaves open in a run. A meaning takes it at the state's own counter and
advances the counter. -/
opaque freeValue : Nat → BitVec 64

/-- Byte `i` of the AES-GCM key stream under a key slot and a nonce (R186, R196, R199: the algorithm is an outside
standard, which the spec names and does not define). -/
opaque gcmStream : List Byte → List Byte → Nat → Byte

/-- The 16-byte AES-GCM tag: key slot, nonce, additional data, ciphertext (R196, R199). -/
opaque gcmTag : List Byte → List Byte → List Byte → List Byte → BitVec 128

/-- One 16-byte block of AES-XTS-256: encrypt?, key slot, tweak, block number, block (R207). -/
opaque xtsBlock : Bool → List Byte → Nat → Nat → BitVec 128 → BitVec 128

/-- What the stored check bytes of a DRAM line decode to: 0 clean, 1 correctable, 2 uncorrectable, 3 the value POISON
(R443, R445: the code itself is not stated). Arguments: the line's 64 bytes, its 16 check bytes. -/
opaque dramDecode : List Byte → List Byte → Fin 4

/-- SHA-256 (R497, R498, R510: FIPS 180-4, an outside standard). -/
opaque sha256 : List Byte → BitVec 256

/-- ECDSA P-256 verification: public key (x then y), signature (r then s), hash (R498, R510: FIPS 186-5). -/
opaque ecdsaOk : List Byte → List Byte → BitVec 256 → Bool

/-- One AES-256 block: encrypt?, key, block (R502, R503: FIPS 197). -/
opaque aes256 : Bool → BitVec 256 → BitVec 128 → BitVec 128

/-- RFC 3394 unwrapping under a key: the recovered value A and the plaintext (R504, R505). -/
opaque keyUnwrap : BitVec 256 → List Byte → BitVec 64 × List Byte

/-- DEVICE_SEAL, derived from DEVICE_SECRET and the lifecycle state (R502: the derivation is not stated). -/
opaque deviceSeal : Nat → Nat → BitVec 256

/-- The alias public key and ALIAS_ENDORSE, from DEVICE_SECRET and MEASUREMENT (R499: the derivation is the boot ROM's own). -/
opaque aliasKey : Nat → Nat → BitVec 512
opaque aliasEndorse : Nat → Nat → BitVec 512

/-- A signature by the alias key over a hash (R501). -/
opaque aliasSign : Nat → Nat → BitVec 256 → BitVec 512

/-- Messages that channel 5 of a bench holds: the spec does not give its depth (R414). [DESIGN CHOICE, log 68, unsafe] -/
opaque flashDoneDepth : Nat
/-- Subsystem ID and Subsystem Vendor ID of a function, which Ryuner sets (R329: the values are not stated). [PRESUMED, log 21, unsafe] -/
opaque subsystemId : Nat → BitVec 32

/-- A byte of the boot ROM (R34: its contents are not stated). [DESIGN CHOICE, log 76, unsafe] -/
opaque bootRom : Nat → Byte

end Sys2Proof.Config
end

