-- ==== Sys2Proof/Machine/Registers.lean ====
section
/-! DEFINITION. The register map: for every register block of a bench and of the hub, its registers with their
offsets, strides and fields (access code and reset value), as the register tables of spec/ give them; the reset
word of any offset; and a name for every field. -/
namespace Sys2Proof.Machine

/-- The name of a register field: the offset of its register, its lowest bit and its width. -/
structure Fld where
  off : Nat
  lo : Nat
  w : Nat
deriving DecidableEq, Repr

/-- The access codes of R13. -/
inductive Access where
  | ro | rw | wo | w1c | rc | ws
deriving DecidableEq, Repr

/-- One field of a register: lowest bit, width, access code and reset value (R12, R13). -/
structure FieldDesc where
  lo : Nat
  w : Nat
  acc : Access
  rst : Nat
deriving DecidableEq, Repr

/-- One register or register array: first offset in its block, outer stride and count, inner stride and count,
fields. A register that stands alone has counts 1. -/
structure RegDesc where
  off : Nat
  s1 : Nat
  n1 : Nat
  s2 : Nat
  n2 : Nat
  fields : List FieldDesc
deriving DecidableEq, Repr

/-- Does the row cover this offset of its block? -/
def RegDesc.covers (r : RegDesc) (o : Nat) : Bool :=
  let d := o - r.off
  r.off ≤ o && d / r.s1 < r.n1 && (d % r.s1) % r.s2 == 0 && (d % r.s1) / r.s2 < r.n2

/-- The mask of a row's fields of one access code. -/
def RegDesc.mask (r : RegDesc) (a : Access) : Nat :=
  r.fields.foldl (fun m f => if f.acc = a then m + (2 ^ f.w - 1) * 2 ^ f.lo else m) 0

/-- The word a register of the row holds at reset. -/
def RegDesc.resetWord (r : RegDesc) : Nat :=
  r.fields.foldl (fun m f => m + f.rst * 2 ^ f.lo) 0

/-- The registers of block `bench` (spec files 00, 01). -/
def regs_bench : List RegDesc := [
  ⟨0x0, 0x4, 1, 0x4, 1, [⟨0, 32, .ro, 0⟩]⟩, -- LIVENESS R16
  ⟨0x100, 0x4, 12, 0x4, 1, [⟨0, 8, .ro, 0⟩, ⟨8, 2, .ro, 0⟩, ⟨16, 1, .ro, 0⟩]⟩  -- XING_LAT_k R56
  ]

/-- The registers of block `face` (spec files 00, 02). -/
def regs_face : List RegDesc := [
  ⟨0x0, 0x4, 1, 0x4, 1, [⟨0, 32, .ro, 0⟩]⟩, -- LIVENESS R16
  ⟨0x100, 0x80, 4, 0x80, 1, [⟨0, 1, .rw, 0⟩, ⟨1, 2, .rw, 0⟩, ⟨3, 1, .rw, 0⟩, ⟨4, 1, .rw, 1⟩, ⟨5, 1, .wo, 0⟩, ⟨8, 8, .rw, 0x1E⟩]⟩, -- PORT_CTL_p R90
  ⟨0x104, 0x80, 4, 0x80, 1, [⟨0, 3, .ro, 0⟩, ⟨3, 1, .ro, 0⟩, ⟨4, 1, .ro, 0⟩, ⟨5, 1, .ro, 0⟩, ⟨6, 1, .ro, 0⟩, ⟨8, 8, .ro, 0⟩, ⟨16, 1, .w1c, 0⟩, ⟨17, 1, .w1c, 0⟩]⟩, -- PORT_STATUS_p R91
  ⟨0x108, 0x80, 4, 0x80, 1, [⟨0, 14, .rw, 0x5F2⟩]⟩, -- MAX_FRAME_p R89
  ⟨0x10C, 0x80, 4, 0x80, 1, [⟨0, 2, .rw, 0⟩, ⟨8, 8, .rw, 0xFF⟩, ⟨16, 16, .rw, 0xFFFF⟩]⟩, -- PAUSE_CTL_p R92
  ⟨0x110, 0x80, 4, 0x80, 1, [⟨0, 32, .rw, 0⟩]⟩, -- PORT_SA_LO_p R89
  ⟨0x114, 0x80, 4, 0x80, 1, [⟨0, 16, .rw, 0⟩]⟩, -- PORT_SA_HI_p R89
  ⟨0x118, 0x80, 4, 0x80, 1, [⟨0, 1, .rw, 0⟩, ⟨8, 8, .rw, 0⟩]⟩, -- XOFF_p R89
  ⟨0x11C, 0x80, 4, 0x80, 1, [⟨0, 1, .rw, 0⟩, ⟨1, 1, .rw, 0⟩, ⟨8, 1, .ro, 0⟩, ⟨9, 1, .ro, 0⟩]⟩, -- MODULE_CTL_p R94
  ⟨0x120, 0x80, 4, 0x4, 3, [⟨0, 32, .rc, 0⟩]⟩, -- TX_TS_p R574
  ⟨0x12C, 0x80, 4, 0x80, 1, [⟨0, 16, .rc, 0⟩]⟩, -- TX_TS_TAG_p R574
  ⟨0x400, 0x40, 4, 0x40, 1, [⟨0, 1, .rw, 0⟩, ⟨1, 1, .rw, 0⟩, ⟨2, 2, .rw, 0⟩]⟩, -- LANE_CTL_l R93
  ⟨0x404, 0x40, 4, 0x40, 1, [⟨0, 1, .ro, 0⟩, ⟨1, 1, .ro, 0⟩, ⟨2, 1, .ro, 0⟩]⟩, -- LANE_STATUS_l R89
  ⟨0x408, 0x40, 4, 0x40, 1, [⟨0, 6, .rw, 0⟩, ⟨8, 6, .rw, 0⟩, ⟨16, 6, .rw, 0⟩]⟩, -- TX_EQ_l R89
  ⟨0x40C, 0x40, 4, 0x40, 1, [⟨0, 16, .rw, 0⟩, ⟨16, 16, .rw, 0⟩]⟩, -- BOARD_DELAY_l R89
  ⟨0x800, 0x10, 32, 0x10, 1, [⟨0, 32, .ws, 0⟩]⟩, -- STATION_ADDR_LO_e R69
  ⟨0x804, 0x10, 32, 0x10, 1, [⟨0, 16, .ws, 0⟩]⟩, -- STATION_ADDR_HI_e R69
  ⟨0x808, 0x10, 32, 0x10, 1, [⟨0, 1, .rw, 0⟩, ⟨4, 4, .rw, 0⟩]⟩, -- STATION_CTL_e R69
  ⟨0xC00, 0x4, 1, 0x4, 1, [⟨0, 2, .wo, 0⟩]⟩, -- TIME_CMD R78
  ⟨0xC04, 0x4, 1, 0x4, 1, [⟨0, 4, .rw, 0⟩]⟩, -- TIME_INCR_NS R77
  ⟨0xC08, 0x4, 1, 0x4, 1, [⟨0, 32, .rw, 0xCCCCCCCD⟩]⟩, -- TIME_INCR_FRAC R77
  ⟨0xC10, 0x4, 3, 0x4, 1, [⟨0, 32, .rw, 0⟩]⟩, -- TIME_SET R78
  ⟨0xC20, 0x4, 3, 0x4, 1, [⟨0, 32, .ro, 0⟩]⟩, -- TIME_SNAP R78
  ⟨0xC30, 0x4, 1, 0x4, 1, [⟨0, 32, .rw, 0⟩]⟩, -- TIME_ADJ R78
  ⟨0xC40, 0x4, 3, 0x4, 1, [⟨0, 32, .rc, 0⟩]⟩, -- PPS_IN_TS R574
  ⟨0xC50, 0x4, 1, 0x4, 1, [⟨0, 32, .rc, 0⟩]⟩, -- FREQ_CNT R574
  ⟨0xC60, 0x4, 1, 0x4, 1, [⟨0, 32, .rw, 0⟩]⟩, -- PPS_OFFSET R79
  ⟨0xC64, 0x4, 1, 0x4, 1, [⟨0, 20, .rw, 0x186A0⟩]⟩  -- PPS_WIDTH R79
  ]

/-- The registers of block `graph` (spec files 00, 03). -/
def regs_graph : List RegDesc := [
  ⟨0x0, 0x4, 1, 0x4, 1, [⟨0, 32, .ro, 0⟩]⟩, -- LIVENESS R16
  ⟨0x10, 0x4, 1, 0x4, 1, [⟨0, 1, .rw, 0⟩, ⟨1, 1, .ro, 0⟩]⟩, -- GRAPH_CTL R118
  ⟨0x20, 0x4, 2, 0x4, 1, [⟨0, 8, .rw, 0⟩]⟩, -- START_NODE_g R113
  ⟨0x30, 0x4, 2, 0x4, 1, [⟨0, 8, .rw, 0⟩, ⟨8, 8, .rw, 0⟩, ⟨16, 8, .rw, 0⟩]⟩, -- EXC_CLASS_g R119
  ⟨0x100, 0x4, 16, 0x4, 1, [⟨0, 32, .rw, 0⟩]⟩, -- NODE_STAGE_w R115
  ⟨0x140, 0x4, 1, 0x4, 1, [⟨0, 8, .wo, 0⟩]⟩, -- NODE_COMMIT R115
  ⟨0x144, 0x4, 1, 0x4, 1, [⟨0, 1, .rc, 0⟩, ⟨1, 3, .rc, 0⟩, ⟨8, 8, .rc, 0⟩, ⟨16, 16, .rc, 0⟩]⟩, -- NODE_COMMIT_STATUS R120
  ⟨0x200, 0x4, 1, 0x4, 1, [⟨0, 4, .ro, 0⟩, ⟨8, 4, .w1c, 0⟩]⟩, -- HOST_ENTRY R117
  ⟨0x300, 0x4, 1, 0x4, 1, [⟨0, 1, .rw, 0⟩, ⟨1, 1, .w1c, 0⟩, ⟨2, 2, .rw, 0⟩, ⟨4, 1, .rw, 0⟩, ⟨8, 8, .rw, 0⟩]⟩, -- FV_CAPTURE_CTL R121
  ⟨0x340, 0x4, 24, 0x4, 1, [⟨0, 32, .ro, 0⟩]⟩  -- FV_CAPTURE_DATA_w R117
  ]

/-- The registers of block `match` (spec files 00, 04). -/
def regs_match : List RegDesc := [
  ⟨0x0, 0x4, 1, 0x4, 1, [⟨0, 32, .ro, 0⟩]⟩, -- LIVENESS R16
  ⟨0x10, 0x4, 1, 0x4, 1, [⟨0, 32, .rw, 0x5EED0000⟩]⟩, -- SEED_0 R154
  ⟨0x14, 0x4, 1, 0x4, 1, [⟨0, 32, .rw, 0x5EED0001⟩]⟩, -- SEED_1 R154
  ⟨0x20, 0x4, 1, 0x4, 1, [⟨0, 1, .wo, 0⟩, ⟨1, 1, .wo, 0⟩, ⟨2, 1, .rw, 0⟩]⟩, -- SWEEP_CTL R157
  ⟨0x24, 0x4, 1, 0x4, 1, [⟨0, 2, .ro, 0⟩, ⟨2, 1, .ro, 0⟩, ⟨3, 1, .ro, 0⟩, ⟨4, 1, .w1c, 0⟩, ⟨5, 13, .ro, 0⟩, ⟨18, 2, .ro, 0⟩]⟩, -- SWEEP_STATUS R157
  ⟨0x28, 0x4, 1, 0x4, 1, [⟨0, 32, .rw, 0⟩]⟩, -- SEED_NEXT R154
  ⟨0x30, 0x4, 1, 0x4, 1, [⟨0, 20, .rw, 0x3E8⟩, ⟨20, 1, .rw, 0⟩]⟩, -- LEARN_CTL R158
  ⟨0x34, 0x4, 1, 0x4, 1, [⟨0, 9, .ro, 0⟩, ⟨16, 9, .w1c, 0⟩]⟩, -- LEARN_STATUS R154
  ⟨0x38, 0x4, 1, 0x4, 1, [⟨0, 1, .wo, 0⟩]⟩, -- LEARN_POP R150
  ⟨0x3C, 0x4, 1, 0x4, 1, [⟨0, 1, .rc, 0⟩, ⟨16, 16, .rc, 0⟩]⟩, -- LEARN_REC_STATUS R150
  ⟨0x40, 0x4, 1, 0x4, 1, [⟨0, 16, .ro, 0⟩]⟩, -- ECC_LOG R154
  ⟨0x48, 0x4, 2, 0x4, 1, [⟨0, 16, .ro, 0⟩]⟩, -- OCCUPANCY_b R154
  ⟨0x100, 0x8, 16, 0x8, 1, [⟨0, 17, .rw, 0x10000⟩]⟩, -- TABLE_CFG_t R154
  ⟨0x104, 0x8, 16, 0x8, 1, [⟨0, 17, .ro, 0⟩]⟩, -- TABLE_COUNT_t R154
  ⟨0x200, 0x4, 16, 0x4, 1, [⟨0, 32, .rw, 0⟩]⟩, -- OP_ENTRY_w R154
  ⟨0x240, 0x4, 3, 0x4, 1, [⟨0, 32, .rw, 0⟩]⟩, -- OP_EXPECT_w R154
  ⟨0x250, 0x4, 1, 0x4, 1, [⟨0, 3, .wo, 0⟩, ⟨16, 16, .wo, 0⟩]⟩, -- OP_CMD R155
  ⟨0x254, 0x4, 1, 0x4, 1, [⟨0, 1, .rc, 0⟩, ⟨1, 4, .rc, 0⟩, ⟨8, 16, .rc, 0⟩, ⟨24, 8, .rc, 0⟩]⟩, -- OP_STATUS R156
  ⟨0x258, 0x4, 1, 0x4, 1, [⟨0, 16, .rw, 0⟩]⟩, -- OP_DST R154
  ⟨0x260, 0x4, 16, 0x4, 1, [⟨0, 32, .ro, 0⟩]⟩, -- OP_RESULT_w R154
  ⟨0x300, 0x4, 20, 0x4, 1, [⟨0, 32, .ro, 0⟩]⟩, -- LEARN_REC_w R154
  ⟨0x4000, 0x4, 4096, 0x4, 1, [⟨0, 32, .rw, 0⟩]⟩  -- RECIPE_w R123
  ]

/-- The registers of block `action` (spec files 00, 05). -/
def regs_action : List RegDesc := [
  ⟨0x0, 0x4, 1, 0x4, 1, [⟨0, 32, .ro, 0⟩]⟩, -- LIVENESS R16
  ⟨0x10, 0x4, 1, 0x4, 1, [⟨0, 1, .wo, 0⟩]⟩, -- GEN_CTL R181
  ⟨0x14, 0x4, 1, 0x4, 1, [⟨0, 1, .ro, 0⟩, ⟨1, 1, .ro, 1⟩, ⟨2, 1, .w1c, 0⟩]⟩, -- GEN_STATUS R182
  ⟨0x18, 0x4, 2, 0x4, 1, [⟨0, 12, .ro, 0⟩]⟩, -- INFLIGHT_g R181
  ⟨0x24, 0x4, 7, 0x4, 1, [⟨0, 1, .rw, 0⟩, ⟨1, 1, .rw, 0⟩, ⟨2, 14, .rw, 0⟩, ⟨16, 14, .rw, 0⟩]⟩, -- MIRROR_k R183
  ⟨0x100, 0x4, 32, 0x4, 1, [⟨0, 32, .rw, 0⟩]⟩, -- TPL_STAGE_w R181
  ⟨0x180, 0x4, 1, 0x4, 1, [⟨0, 10, .wo, 0⟩]⟩, -- TPL_COMMIT R181
  ⟨0x184, 0x4, 1, 0x4, 1, [⟨0, 1, .rc, 0⟩, ⟨1, 3, .rc, 0⟩, ⟨4, 10, .rc, 0⟩, ⟨16, 16, .rc, 0⟩]⟩  -- TPL_COMMIT_STATUS R184
  ]

/-- The registers of block `cipher` (spec files 00, 06). -/
def regs_cipher : List RegDesc := [
  ⟨0x0, 0x4, 1, 0x4, 1, [⟨0, 32, .ro, 0⟩]⟩, -- LIVENESS R16
  ⟨0x10, 0x4, 1, 0x4, 1, [⟨0, 1, .wo, 0⟩]⟩, -- CIPHER_CTL R208
  ⟨0x14, 0x4, 1, 0x4, 1, [⟨0, 1, .ro, 0⟩, ⟨1, 1, .w1c, 0⟩, ⟨2, 1, .w1c, 0⟩, ⟨3, 1, .w1c, 0⟩]⟩, -- CIPHER_STATUS R209
  ⟨0x20, 0x4, 2, 0x4, 1, [⟨0, 9, .ro, 0⟩, ⟨16, 9, .w1c, 0⟩]⟩, -- CIPHER_QUEUE_d R208
  ⟨0x30, 0x4, 1, 0x4, 1, [⟨0, 14, .rc, 0⟩, ⟨14, 1, .rc, 0⟩, ⟨15, 1, .rc, 0⟩]⟩, -- SA_NOTICE R208
  ⟨0x34, 0x4, 1, 0x4, 1, [⟨0, 14, .ro, 0⟩]⟩, -- ECC_SA R208
  ⟨0x100, 0x4, 16, 0x4, 1, [⟨0, 32, .rw, 0⟩]⟩, -- SA_STAGE_w R208
  ⟨0x140, 0x4, 1, 0x4, 1, [⟨0, 14, .wo, 0⟩]⟩, -- SA_COMMIT R208
  ⟨0x144, 0x4, 1, 0x4, 1, [⟨0, 1, .rc, 0⟩, ⟨1, 2, .rc, 0⟩, ⟨16, 16, .rc, 0⟩]⟩  -- SA_COMMIT_STATUS R209
  ]

/-- The registers of block `tm` (spec files 00, 07). -/
def regs_tm : List RegDesc := [
  ⟨0x0, 0x4, 1, 0x4, 1, [⟨0, 32, .ro, 0⟩]⟩, -- LIVENESS R16
  ⟨0x10, 0x4, 8, 0x4, 1, [⟨0, 32, .rw, 0⟩]⟩, -- MTR_STAGE_w R239
  ⟨0x30, 0x4, 1, 0x4, 1, [⟨0, 15, .wo, 0⟩]⟩, -- MTR_COMMIT R239
  ⟨0x34, 0x4, 1, 0x4, 1, [⟨0, 1, .rc, 0⟩, ⟨1, 2, .rc, 0⟩, ⟨16, 16, .rc, 0⟩]⟩, -- MTR_COMMIT_STATUS R242
  ⟨0x40, 0x4, 8, 0x4, 1, [⟨0, 32, .rw, 0⟩]⟩, -- QCTX_STAGE_w R239
  ⟨0x60, 0x4, 1, 0x4, 1, [⟨0, 13, .wo, 0⟩, ⟨16, 1, .wo, 0⟩]⟩, -- QCTX_COMMIT R239
  ⟨0x64, 0x4, 1, 0x4, 1, [⟨0, 1, .rc, 0⟩, ⟨1, 2, .rc, 0⟩, ⟨16, 16, .rc, 0⟩]⟩, -- QCTX_COMMIT_STATUS R242
  ⟨0x70, 0x4, 1, 0x4, 1, [⟨0, 11, .ro, 0⟩, ⟨16, 11, .w1c, 0⟩]⟩, -- HOST_QUEUE R239
  ⟨0x74, 0x4, 1, 0x4, 1, [⟨0, 7, .ro, 0⟩, ⟨16, 7, .w1c, 0⟩]⟩, -- SIDE_QUEUE R239
  ⟨0x78, 0x4, 1, 0x4, 1, [⟨0, 15, .ro, 0⟩, ⟨15, 1, .ro, 0⟩]⟩, -- TM_ECC_LOG R239
  ⟨0x100, 0x100, 4, 0x4, 8, [⟨0, 16, .rw, 1⟩, ⟨16, 1, .rw, 0⟩, ⟨17, 1, .rw, 0⟩]⟩, -- CLASS_CFG_p_c R240
  ⟨0x120, 0x100, 4, 0x8, 8, [⟨0, 32, .rw, 0⟩]⟩, -- CLASS_SHAPE_RATE_p_c R239
  ⟨0x124, 0x100, 4, 0x8, 8, [⟨0, 24, .rw, 0⟩, ⟨31, 1, .rw, 0⟩]⟩, -- CLASS_SHAPE_BURST_p_c R240
  ⟨0x160, 0x100, 4, 0x100, 1, [⟨0, 32, .rw, 0⟩]⟩, -- PORT_SHAPE_RATE_p R239
  ⟨0x164, 0x100, 4, 0x100, 1, [⟨0, 24, .rw, 0⟩, ⟨31, 1, .rw, 0⟩]⟩, -- PORT_SHAPE_BURST_p R240
  ⟨0x168, 0x100, 4, 0x100, 1, [⟨0, 8, .rw, 0x14⟩]⟩, -- PORT_OVERHEAD_p R239
  ⟨0x170, 0x100, 4, 0x4, 9, [⟨0, 16, .rw, 0⟩, ⟨16, 16, .rw, 0⟩]⟩, -- FC_THRESH_p_k R239
  ⟨0x1A0, 0x100, 4, 0x100, 1, [⟨0, 1, .wo, 0⟩, ⟨1, 1, .wo, 0⟩]⟩, -- GATE_CTL_p R239
  ⟨0x1A4, 0x100, 4, 0x100, 1, [⟨0, 1, .ro, 0⟩, ⟨1, 1, .ro, 0⟩, ⟨2, 1, .w1c, 0⟩, ⟨3, 1, .w1c, 0⟩, ⟨4, 1, .w1c, 0⟩, ⟨16, 11, .ro, 0⟩]⟩, -- GATE_STATUS_p R241
  ⟨0x1A8, 0x100, 4, 0x4, 3, [⟨0, 32, .rw, 0⟩]⟩, -- GATE_START_p R239
  ⟨0x1B4, 0x100, 4, 0x100, 1, [⟨0, 11, .rw, 0⟩]⟩, -- GATE_SHADOW_LEN_p R239
  ⟨0x1B8, 0x100, 4, 0x100, 1, [⟨0, 1, .rc, 0⟩, ⟨1, 2, .rc, 0⟩, ⟨16, 16, .rc, 0⟩]⟩, -- GATE_COMMIT_STATUS_p R242
  ⟨0x1C0, 0x100, 4, 0x4, 8, [⟨0, 25, .ro, 0⟩]⟩, -- CLASS_OCC_p_c R239
  ⟨0x1E0, 0x100, 4, 0x100, 1, [⟨0, 25, .ro, 0⟩]⟩, -- PORT_OCC_p R239
  ⟨0x1E4, 0x100, 4, 0x100, 1, [⟨0, 25, .w1c, 0⟩]⟩  -- PORT_HWM_p R239
  ]

/-- The registers of block `hopper` (spec files 00, 08). -/
def regs_hopper : List RegDesc := [
  ⟨0x0, 0x4, 1, 0x4, 1, [⟨0, 32, .ro, 0⟩]⟩, -- LIVENESS R16
  ⟨0x10, 0x4, 1, 0x4, 1, [⟨0, 1, .rw, 0⟩, ⟨1, 1, .ro, 0⟩, ⟨2, 1, .rw, 0⟩, ⟨3, 1, .rw, 0⟩]⟩, -- HOPPER_CTL R265
  ⟨0x20, 0x4, 4, 0x4, 1, [⟨0, 17, .rw, 0⟩]⟩, -- POOL_COUNT_k R264
  ⟨0x30, 0x4, 4, 0x4, 1, [⟨0, 17, .rw, 0⟩]⟩, -- POOL_RESERVE_k R264
  ⟨0x40, 0x4, 4, 0x4, 1, [⟨0, 17, .rw, 0⟩]⟩, -- POOL_LOW_k R264
  ⟨0x50, 0x4, 5, 0x4, 1, [⟨0, 17, .ro, 0⟩, ⟨17, 15, .w1c, 0⟩]⟩, -- POOL_FREE_k R266
  ⟨0x68, 0x4, 1, 0x4, 1, [⟨0, 21, .rw, 0⟩]⟩, -- DPOOL_BASE R264
  ⟨0x6C, 0x4, 1, 0x4, 1, [⟨0, 17, .rw, 0⟩]⟩, -- DPOOL_COUNT R264
  ⟨0x70, 0x4, 1, 0x4, 1, [⟨0, 3, .wo, 0⟩, ⟨3, 1, .wo, 0⟩, ⟨4, 3, .wo, 0⟩]⟩, -- HOP_CMD R266
  ⟨0x74, 0x4, 1, 0x4, 1, [⟨0, 32, .rw, 0⟩]⟩, -- HOP_ARG R264
  ⟨0x78, 0x4, 1, 0x4, 1, [⟨0, 17, .rw, 0⟩]⟩, -- HOP_ARG2 R264
  ⟨0x7C, 0x4, 1, 0x4, 1, [⟨0, 1, .rc, 0⟩, ⟨1, 3, .rc, 0⟩, ⟨16, 16, .rc, 0⟩]⟩, -- HOP_STATUS R266
  ⟨0x90, 0x4, 2, 0x4, 1, [⟨0, 32, .rc, 0⟩]⟩, -- REFUSAL_LOG R267
  ⟨0xA0, 0x4, 1, 0x4, 1, [⟨0, 32, .ro, 0⟩]⟩  -- PKTBUF_ECC_LOG R264
  ]

/-- The registers of block `engine` (spec files 00, 09, 10). -/
def regs_engine : List RegDesc := [
  ⟨0x0, 0x4, 1, 0x4, 1, [⟨0, 32, .ro, 0⟩]⟩, -- LIVENESS R16
  ⟨0x10, 0x10, 8, 0x10, 1, [⟨0, 1, .wo, 0⟩, ⟨1, 1, .wo, 0⟩]⟩, -- CORE_CTL_c R294
  ⟨0x14, 0x10, 8, 0x10, 1, [⟨0, 2, .ro, 0⟩, ⟨8, 8, .ro, 0⟩, ⟨16, 8, .ro, 0⟩]⟩, -- CORE_STATUS_c R294
  ⟨0x18, 0x10, 8, 0x10, 1, [⟨0, 17, .rw, 0⟩]⟩, -- CORE_ENTRY_c R294
  ⟨0x100, 0x4, 1, 0x4, 1, [⟨0, 24, .ro, 0⟩, ⟨24, 2, .ro, 0⟩, ⟨26, 3, .ro, 0⟩, ⟨29, 3, .ro, 0⟩]⟩, -- ENGINE_ECC_LOG R294
  ⟨0x1000, 0x20, 8, 0x4, 8, [⟨0, 2, .ro, 0⟩, ⟨2, 1, .ro, 0⟩, ⟨3, 4, .ro, 0⟩, ⟨7, 1, .ro, 0⟩, ⟨8, 8, .ro, 0⟩, ⟨16, 3, .ro, 0⟩, ⟨19, 1, .ro, 0⟩]⟩, -- THREAD_STATUS_c_t R321
  ⟨0x1100, 0x20, 8, 0x4, 8, [⟨0, 17, .ro, 0⟩]⟩, -- THREAD_PC_c_t R320
  ⟨0x1200, 0x20, 8, 0x4, 8, [⟨0, 1, .wo, 0⟩, ⟨1, 1, .wo, 0⟩]⟩, -- THREAD_CTL_c_t R321
  ⟨0x1480, 0x8, 240, 0x8, 1, [⟨0, 9, .rw, 0⟩, ⟨16, 10, .rw, 0⟩]⟩, -- CHAN_CFG_k R321
  ⟨0x1404, 0x8, 256, 0x8, 1, [⟨0, 13, .ro, 0⟩, ⟨16, 13, .w1c, 0⟩]⟩, -- CHAN_STATUS_k R321
  ⟨0x1C00, 0x4, 1, 0x4, 1, [⟨0, 1, .ro, 0⟩, ⟨1, 1, .w1c, 0⟩, ⟨16, 13, .ro, 0⟩]⟩, -- STALL_STATUS R322
  ⟨0x1C10, 0x4, 1, 0x4, 1, [⟨0, 7, .ro, 0⟩, ⟨16, 7, .w1c, 0⟩]⟩, -- NOTICE_STATUS R320
  ⟨0x1C20, 0x4, 8, 0x4, 1, [⟨0, 6, .ro, 0⟩, ⟨16, 6, .w1c, 0⟩]⟩, -- INBOX_STATUS_c R320
  ⟨0x1D00, 0x10, 8, 0x10, 1, [⟨0, 32, .wo, 0⟩]⟩, -- CORE_MBX_DATA_c R314
  ⟨0x1D08, 0x10, 8, 0x10, 1, [⟨0, 5, .ro, 0⟩]⟩, -- CORE_MBX_LEVEL_c R320
  ⟨0x1E00, 0x10, 8, 0x10, 1, [⟨0, 8, .wo, 0⟩, ⟨8, 8, .wo, 0⟩, ⟨16, 8, .wo, 0⟩]⟩, -- DBG_CTL_c R322
  ⟨0x1E04, 0x10, 8, 0x10, 1, [⟨0, 8, .ro, 0⟩]⟩, -- DBG_STATUS_c R320
  ⟨0x1F00, 0x4, 1, 0x4, 1, [⟨0, 3, .rw, 0⟩, ⟨4, 3, .rw, 0⟩]⟩, -- DBG_SEL R320
  ⟨0x1F04, 0x4, 1, 0x4, 1, [⟨0, 17, .rw, 0⟩]⟩, -- DBG_PC R319
  ⟨0x1F10, 0x8, 32, 0x4, 2, [⟨0, 32, .rw, 0⟩]⟩  -- DBG_REG_r R319
  ]

/-- The registers of block `ring` (spec files 00, 12). -/
def regs_ring : List RegDesc := [
  ⟨0x0, 0x4, 1, 0x4, 1, [⟨0, 32, .ro, 0⟩]⟩, -- LIVENESS R16
  ⟨0x10, 0x4, 1, 0x4, 1, [⟨0, 14, .rc, 0⟩, ⟨14, 4, .rc, 0⟩, ⟨18, 1, .rc, 0⟩, ⟨24, 8, .rc, 0⟩]⟩, -- RING_FAULT R387
  ⟨0x14, 0x4, 1, 0x4, 1, [⟨0, 14, .ro, 0⟩, ⟨16, 1, .ro, 0⟩]⟩, -- BACKPRESSURE R387
  ⟨0x18, 0x4, 1, 0x4, 1, [⟨0, 15, .ro, 0⟩, ⟨16, 15, .w1c, 0⟩]⟩  -- RX_CACHE R386
  ]

/-- The registers of block `haul` (spec files 00, 13). -/
def regs_haul : List RegDesc := [
  ⟨0x0, 0x4, 1, 0x4, 1, [⟨0, 32, .ro, 0⟩]⟩, -- LIVENESS R16
  ⟨0x90, 0x10, 56, 0x10, 1, [⟨0, 1, .rw, 0⟩, ⟨1, 3, .rw, 0⟩]⟩, -- HAUL_CH_CFG_c R406
  ⟨0x14, 0x10, 2, 0x10, 1, [⟨0, 11, .rw, 0x80⟩, ⟨16, 11, .rw, 0x80⟩]⟩, -- HAUL_CH_STAGE_0_1 R406
  ⟨0x34, 0x10, 62, 0x10, 1, [⟨0, 11, .rw, 0⟩, ⟨16, 11, .rw, 0x80⟩]⟩, -- HAUL_CH_STAGE_c R406
  ⟨0x18, 0x10, 64, 0x10, 1, [⟨0, 5, .ro, 0⟩, ⟨8, 5, .w1c, 0⟩, ⟨16, 11, .ro, 0⟩]⟩, -- HAUL_CH_STATUS_c R406
  ⟨0x500, 0x4, 10, 0x4, 1, [⟨0, 32, .rw, 0⟩]⟩, -- HAUL_CMD_w R405
  ⟨0x540, 0x4, 1, 0x4, 1, [⟨0, 1, .wo, 0⟩]⟩, -- HAUL_SUBMIT R405
  ⟨0x544, 0x4, 1, 0x4, 1, [⟨0, 1, .rc, 0⟩, ⟨1, 8, .rc, 0⟩, ⟨16, 16, .rc, 0⟩]⟩, -- HAUL_STATUS R406
  ⟨0x548, 0x4, 1, 0x4, 1, [⟨0, 32, .ro, 0⟩]⟩, -- HAUL_COUNT R405
  ⟨0x560, 0x4, 6, 0x4, 1, [⟨0, 32, .ro, 0⟩]⟩, -- HAUL_RESULT_w R405
  ⟨0x580, 0x4, 1, 0x4, 1, [⟨0, 11, .ro, 0x400⟩, ⟨16, 11, .w1c, 0x400⟩]⟩, -- STAGE_STATUS R405
  ⟨0x584, 0x4, 1, 0x4, 1, [⟨0, 10, .ro, 0⟩]⟩  -- HAUL_ECC_LOG R405
  ]

/-- The registers of block `storage` (spec files 00, 14). -/
def regs_storage : List RegDesc := [
  ⟨0x0, 0x4, 1, 0x4, 1, [⟨0, 32, .ro, 0⟩]⟩, -- LIVENESS R16
  ⟨0x10, 0x40, 2, 0x40, 1, [⟨0, 3, .rw, 4⟩, ⟨3, 2, .rw, 3⟩, ⟨5, 4, .rw, 0⟩, ⟨9, 16, .rw, 0x7D0⟩, ⟨25, 1, .wo, 0⟩]⟩, -- FLASH_CTL_c R429
  ⟨0x14, 0x40, 2, 0x40, 1, [⟨0, 3, .ro, 0⟩, ⟨3, 5, .ro, 0⟩, ⟨8, 1, .w1c, 0⟩, ⟨9, 1, .w1c, 0⟩]⟩, -- FLASH_STATUS_c R429
  ⟨0x18, 0x40, 2, 0x40, 1, [⟨6, 15, .rw, 0⟩, ⟨21, 3, .rw, 0⟩]⟩, -- FLASH_RING_c R428
  ⟨0x1C, 0x40, 2, 0x40, 1, [⟨0, 32, .wo, 0⟩]⟩, -- FLASH_DB_c R428
  ⟨0x20, 0x40, 2, 0x40, 1, [⟨0, 8, .ro, 0⟩, ⟨8, 1, .ro, 1⟩, ⟨16, 1, .wo, 0⟩]⟩, -- FLASH_RING_STATUS_c R428
  ⟨0x24, 0x40, 2, 0x40, 1, [⟨0, 4, .ro, 0⟩, ⟨4, 3, .ro, 0⟩, ⟨7, 16, .ro, 0⟩]⟩, -- GEOMETRY_c R428
  ⟨0x28, 0x40, 2, 0x40, 1, [⟨0, 16, .ro, 0⟩]⟩, -- GEOMETRY2_c R428
  ⟨0x100, 0x40, 2, 0x4, 16, [⟨0, 2, .ro, 0⟩]⟩, -- DIE_INFO_c_d R428
  ⟨0x200, 0x80, 2, 0x8, 16, [⟨0, 8, .rw, 0⟩]⟩, -- LADDER_c_s R428
  ⟨0x204, 0x80, 2, 0x8, 16, [⟨0, 32, .rw, 0⟩]⟩, -- LADDER_P_c_s R428
  ⟨0x400, 0x10, 64, 0x10, 1, [⟨0, 1, .rw, 0⟩, ⟨1, 1, .ro, 0⟩, ⟨2, 1, .ro, 0⟩]⟩, -- XTS_NS_n R428
  ⟨0x408, 0x10, 64, 0x4, 2, [⟨0, 32, .rw, 0⟩]⟩, -- TWEAK_HI_n R428
  ⟨0x800, 0x4, 1, 0x4, 1, [⟨0, 1, .rw, 0⟩, ⟨1, 13, .rw, 0⟩]⟩, -- FLUSH_CTL R429
  ⟨0x804, 0x4, 1, 0x4, 1, [⟨0, 25, .rw, 0⟩]⟩, -- FLUSH_TABLE_BASE R428
  ⟨0x808, 0x4, 1, 0x4, 1, [⟨0, 1, .ro, 0⟩, ⟨1, 1, .w1c, 0⟩, ⟨2, 1, .w1c, 0⟩]⟩, -- FLUSH_STATUS R429
  ⟨0x80C, 0x4, 1, 0x4, 1, [⟨0, 13, .ro, 0⟩, ⟨16, 13, .ro, 0⟩]⟩, -- FLUSH_COUNT R428
  ⟨0x900, 0x4, 64, 0x4, 1, [⟨0, 8, .rw, 0⟩, ⟨8, 1, .rw, 0⟩, ⟨9, 1, .rw, 0⟩, ⟨10, 1, .rw, 0⟩, ⟨11, 2, .rw, 0⟩]⟩, -- NVME_CTRL_k R430
  ⟨0x1000, 0x100, 8, 0x10, 8, [⟨0, 32, .wo, 0⟩]⟩, -- NVME_CPL_c_t R421
  ⟨0x1004, 0x100, 8, 0x10, 8, [⟨0, 32, .wo, 0⟩]⟩, -- NVME_CPL1_c_t R421
  ⟨0x1008, 0x100, 8, 0x10, 8, [⟨0, 32, .wo, 0⟩]⟩, -- NVME_CPL2_c_t R421
  ⟨0x100C, 0x100, 8, 0x10, 8, [⟨0, 32, .wo, 0⟩]⟩, -- NVME_CPL3_c_t R421
  ⟨0x2000, 0x4, 2, 0x4, 1, [⟨0, 32, .rc, 0⟩]⟩  -- MEDIA_LOG R430
  ]

/-- The registers of block `dram` (spec files 15). -/
def regs_dram : List RegDesc := [
  ⟨0x0, 0x4, 1, 0x4, 1, [⟨0, 32, .ro, 0⟩]⟩, -- LIVENESS R448
  ⟨0x10, 0x4, 1, 0x4, 1, [⟨0, 3, .rw, 4⟩, ⟨3, 2, .rw, 0⟩, ⟨5, 1, .rw, 0⟩, ⟨6, 2, .rw, 0⟩, ⟨8, 1, .rw, 0⟩, ⟨9, 2, .rw, 0⟩, ⟨11, 1, .rw, 1⟩]⟩, -- DRAM_CFG R448
  ⟨0x14, 0x4, 1, 0x4, 1, [⟨0, 1, .wo, 0⟩, ⟨1, 1, .wo, 0⟩, ⟨2, 2, .wo, 0⟩]⟩, -- DRAM_CTL R448
  ⟨0x18, 0x4, 1, 0x4, 1, [⟨0, 3, .ro, 0⟩, ⟨3, 1, .ro, 0⟩, ⟨4, 1, .w1c, 0⟩, ⟨5, 1, .ro, 0⟩, ⟨6, 2, .ro, 0⟩, ⟨8, 1, .ro, 0⟩, ⟨9, 4, .ro, 0⟩, ⟨13, 4, .ro, 0⟩, ⟨17, 1, .ro, 0⟩]⟩, -- DRAM_STATUS R448
  ⟨0x1C, 0x4, 1, 0x4, 1, [⟨0, 8, .rw, 0xE4⟩]⟩, -- RANK_MAP R448
  ⟨0x20, 0x4, 5, 0x4, 1, [⟨0, 17, .rw, 0⟩]⟩, -- XOR_MASK_k R448
  ⟨0x40, 0x4, 1, 0x4, 1, [⟨0, 16, .rw, 0⟩]⟩, -- SR_IDLE R448
  ⟨0x44, 0x4, 1, 0x4, 1, [⟨0, 8, .ro, 0⟩, ⟨8, 8, .ro, 0⟩, ⟨16, 16, .ro, 0⟩]⟩, -- DRAM_LAT R448
  ⟨0x48, 0x4, 1, 0x4, 1, [⟨0, 29, .ro, 0⟩]⟩, -- MIG_LINE R448
  ⟨0x4C, 0x4, 1, 0x4, 1, [⟨0, 16, .rw, 0x10⟩]⟩, -- MIG_INTERVAL R448
  ⟨0x50, 0x4, 1, 0x4, 1, [⟨0, 7, .ro, 0⟩, ⟨8, 7, .w1c, 0⟩, ⟨16, 16, .w1c, 0⟩]⟩, -- DRAM_QUEUE R448
  ⟨0x60, 0x4, 1, 0x4, 1, [⟨0, 1, .rw, 0⟩]⟩, -- ECC_TEST R448
  ⟨0x64, 0x4, 4, 0x4, 1, [⟨0, 32, .rw, 0⟩]⟩, -- ECC_TEST_CHECK_w R448
  ⟨0x80, 0x4, 2, 0x4, 1, [⟨0, 32, .rc, 0⟩]⟩  -- DRAM_ERR_LOG R448
  ]

/-- The registers of block `err` (spec files 00, 19). -/
def regs_err : List RegDesc := [
  ⟨0x0, 0x4, 1, 0x4, 1, [⟨0, 32, .ro, 0⟩]⟩, -- LIVENESS R16
  ⟨0x10, 0x4, 11, 0x4, 1, [⟨0, 8, .rw, 0x10⟩, ⟨8, 5, .rw, 0x18⟩, ⟨16, 8, .ro, 0⟩, ⟨24, 1, .w1c, 0⟩]⟩, -- CE_CFG_k R536
  ⟨0x40, 0x4, 1, 0x4, 1, [⟨0, 4, .ro, 0⟩]⟩, -- CE_LOG R535
  ⟨0x100, 0x10, 10, 0x10, 1, [⟨0, 32, .wo, 0⟩]⟩, -- TALLY_SEL_r R535
  ⟨0x104, 0x10, 10, 0x10, 1, [⟨0, 1, .ro, 0⟩, ⟨1, 1, .ro, 0⟩]⟩, -- TALLY_SNAP_STATUS_r R536
  ⟨0x108, 0x10, 10, 0x4, 2, [⟨0, 32, .ro, 0⟩]⟩  -- TALLY_SNAP_r R535
  ]

/-- The registers of block `pcr` (spec files 00, 01, 20, 21). -/
def regs_pcr : List RegDesc := [
  ⟨0x0, 0x4, 1, 0x4, 1, [⟨0, 32, .ro, 0⟩]⟩, -- LIVENESS R16
  ⟨0x10, 0x4, 1, 0x4, 1, [⟨0, 1, .rw, 0⟩, ⟨1, 1, .rw, 0⟩]⟩, -- HUB_CLK_SRC R55
  ⟨0x20, 0x4, 1, 0x4, 1, [⟨0, 1, .w1c, 1⟩, ⟨1, 1, .w1c, 0⟩, ⟨2, 1, .w1c, 0⟩, ⟨3, 2, .w1c, 0⟩, ⟨5, 2, .w1c, 0⟩, ⟨7, 1, .ro, 0⟩, ⟨8, 4, .ro, 0⟩]⟩, -- RESET_CAUSE R553
  ⟨0x24, 0x4, 1, 0x4, 1, [⟨0, 1, .ro, 0⟩, ⟨1, 1, .ro, 0⟩]⟩, -- STRAP_STATUS R552
  ⟨0x28, 0x4, 1, 0x4, 1, [⟨0, 2, .rw, 0⟩]⟩, -- CFG_READY R553
  ⟨0x30, 0x4, 1, 0x4, 1, [⟨0, 16, .rw, 0x3E8⟩, ⟨16, 1, .rw, 0⟩, ⟨17, 1, .wo, 0⟩]⟩, -- FM_WDOG R553
  ⟨0x40, 0x4, 8, 0x4, 1, [⟨0, 32, .ro, 0⟩]⟩, -- BOOT_MEAS_w R552
  ⟨0x60, 0x4, 1, 0x4, 1, [⟨0, 8, .rw, 0x64⟩]⟩, -- THERM_CTL R572
  ⟨0x64, 0x4, 1, 0x4, 1, [⟨0, 1, .w1c, 0⟩, ⟨1, 1, .ro, 0⟩, ⟨2, 5, .ro, 0⟩]⟩, -- THERM_STATUS R572
  ⟨0x80, 0x4, 17, 0x4, 1, [⟨0, 12, .ro, 0⟩, ⟨16, 1, .ro, 0⟩]⟩, -- TEMP_s R572
  ⟨0x100, 0x20, 16, 0x20, 1, [⟨0, 1, .wo, 0⟩, ⟨1, 1, .wo, 0⟩, ⟨2, 1, .rw, 0⟩, ⟨4, 3, .rw, 0⟩, ⟨8, 2, .rw, 0⟩, ⟨10, 1, .rw, 0⟩, ⟨11, 1, .rw, 0⟩, ⟨12, 1, .rw, 1⟩, ⟨13, 1, .rw, 0⟩]⟩, -- BENCH_CTL_n R52
  ⟨0x104, 0x20, 16, 0x20, 1, [⟨0, 3, .ro, 0⟩, ⟨3, 1, .ro, 0⟩, ⟨4, 3, .ro, 0⟩, ⟨8, 2, .ro, 0⟩, ⟨16, 1, .w1c, 0⟩, ⟨17, 1, .w1c, 0⟩, ⟨18, 1, .w1c, 0⟩, ⟨19, 1, .w1c, 0⟩]⟩, -- BENCH_STATUS_n R53
  ⟨0x108, 0x20, 16, 0x20, 1, [⟨0, 24, .rw, 0x3E8⟩]⟩, -- BENCH_DRAIN_LIMIT_n R54
  ⟨0x300, 0x4, 6, 0x4, 1, [⟨0, 8, .ro, 0⟩, ⟨8, 2, .ro, 0⟩, ⟨16, 1, .ro, 0⟩]⟩  -- XING_LAT_HUB_k R56
  ]

/-- The registers of block `arb` (spec files 00). -/
def regs_arb : List RegDesc := [
  ⟨0x0, 0x4, 1, 0x4, 1, [⟨0, 32, .ro, 0⟩]⟩  -- LIVENESS R16
  ]

/-- The registers of block `irq` (spec files 00, 19). -/
def regs_irq : List RegDesc := [
  ⟨0x0, 0x4, 1, 0x4, 1, [⟨0, 32, .ro, 0⟩]⟩, -- LIVENESS R16
  ⟨0x100, 0x4, 22, 0x4, 1, [⟨0, 32, .w1c, 0⟩]⟩, -- FM_STATUS_w R535
  ⟨0x200, 0x4, 22, 0x4, 1, [⟨0, 32, .rw, 0⟩]⟩, -- FM_MASK_w R535
  ⟨0x300, 0x4, 22, 0x4, 1, [⟨0, 32, .w1c, 0⟩]⟩, -- HOST_STATUS_w R535
  ⟨0x1000, 0x4, 704, 0x4, 1, [⟨0, 1, .rw, 0⟩, ⟨1, 1, .rw, 0⟩, ⟨2, 1, .rw, 0⟩, ⟨3, 11, .rw, 0⟩, ⟨14, 11, .rw, 0⟩]⟩, -- EVT_ROUTE_e R536
  ⟨0x2000, 0x4, 4, 0x4, 1, [⟨0, 8, .rw, 0x10⟩, ⟨8, 5, .rw, 0x18⟩, ⟨16, 8, .ro, 0⟩, ⟨24, 1, .w1c, 0⟩]⟩, -- HUB_CE_CFG_k R536
  ⟨0x2010, 0x4, 1, 0x4, 1, [⟨0, 2, .ro, 0⟩]⟩, -- HUB_CE_LOG R535
  ⟨0x2100, 0x20, 2, 0x20, 1, [⟨0, 32, .wo, 0⟩]⟩, -- TALLY_SEL_r R535
  ⟨0x2104, 0x20, 2, 0x20, 1, [⟨0, 1, .ro, 0⟩, ⟨1, 1, .ro, 0⟩]⟩, -- TALLY_SNAP_STATUS_r R536
  ⟨0x2108, 0x20, 2, 0x4, 2, [⟨0, 32, .ro, 0⟩]⟩  -- TALLY_SNAP_r R535
  ]

/-- The registers of block `ep` (spec files 00, 11). -/
def regs_ep : List RegDesc := [
  ⟨0x0, 0x4, 1, 0x4, 1, [⟨0, 32, .ro, 0⟩]⟩, -- LIVENESS R16
  ⟨0x10, 0x20, 2, 0x20, 1, [⟨0, 2, .ro, 0⟩, ⟨2, 2, .ro, 0⟩, ⟨4, 2, .ro, 0⟩, ⟨16, 1, .w1c, 0⟩, ⟨17, 1, .w1c, 0⟩, ⟨18, 1, .w1c, 0⟩, ⟨19, 1, .ro, 0⟩]⟩, -- LINK_STATUS_k R353
  ⟨0x100, 0x4, 32, 0x4, 1, [⟨0, 7, .ro, 0⟩, ⟨8, 5, .ro, 0⟩, ⟨16, 7, .w1c, 0⟩, ⟨24, 5, .w1c, 0⟩]⟩, -- BENCH_INQ_k_n R352
  ⟨0x200, 0x10, 8, 0x10, 1, [⟨0, 1, .rw, 0⟩, ⟨1, 4, .rw, 0⟩, ⟨5, 2, .rw, 0⟩, ⟨16, 12, .rw, 0⟩]⟩, -- FN_CFG_f R354
  ⟨0x204, 0x10, 8, 0x10, 1, [⟨0, 12, .rw, 1⟩, ⟨16, 12, .rw, 0⟩]⟩, -- FN_VEC_f R354
  ⟨0x400, 0x4, 2048, 0x4, 1, [⟨0, 4, .rw, 0⟩]⟩, -- VF_CFG_v R352
  ⟨0x3000, 0x4, 1, 0x4, 1, [⟨0, 11, .wo, 0⟩, ⟨11, 1, .wo, 0⟩]⟩, -- WIN_COMMIT R352
  ⟨0x3004, 0x4, 1, 0x4, 1, [⟨0, 1, .rc, 0⟩, ⟨1, 2, .rc, 0⟩, ⟨16, 16, .rc, 0⟩]⟩, -- WIN_COMMIT_STATUS R355
  ⟨0x3010, 0x4, 1, 0x4, 1, [⟨0, 11, .rc, 0⟩, ⟨11, 1, .rc, 0⟩, ⟨12, 1, .rc, 0⟩, ⟨13, 3, .rc, 0⟩, ⟨16, 1, .rc, 0⟩, ⟨24, 8, .rc, 0⟩]⟩, -- FN_EVENT R355
  ⟨0x10000, 0x4, 16384, 0x4, 1, [⟨0, 32, .ws, 0⟩]⟩, -- WIN_CTL_PF R352
  ⟨0x20000, 0x4, 4096, 0x4, 1, [⟨0, 32, .ws, 0⟩]⟩, -- WIN_CTL_VF R352
  ⟨0x24000, 0x4, 512, 0x4, 1, [⟨0, 32, .ws, 0⟩]⟩, -- WIN_DB_PF R352
  ⟨0x30000, 0x4, 16384, 0x4, 1, [⟨0, 32, .ws, 0⟩]⟩  -- WIN_DB_VF R352
  ]

/-- The registers of block `seal` (spec files 18). -/
def regs_seal : List RegDesc := [
  ⟨0x0, 0x4, 1, 0x4, 1, [⟨0, 32, .ro, 0⟩]⟩, -- LIVENESS R521
  ⟨0x10, 0x4, 1, 0x4, 1, [⟨0, 2, .rw, 0⟩, ⟨2, 1, .rw, 0⟩, ⟨3, 1, .wo, 0⟩]⟩, -- SEAL_CTL R522
  ⟨0x14, 0x4, 1, 0x4, 1, [⟨0, 1, .rw, 0⟩, ⟨1, 1, .rw, 0⟩]⟩, -- SEAL_LOCK R521
  ⟨0x18, 0x4, 1, 0x4, 1, [⟨0, 4, .rw, 0⟩, ⟨4, 1, .rw, 0⟩, ⟨5, 14, .rw, 0⟩]⟩, -- SEAL_TARGET R521
  ⟨0x1C, 0x4, 1, 0x4, 1, [⟨0, 1, .rc, 0⟩, ⟨1, 3, .rc, 0⟩, ⟨4, 1, .ro, 0⟩, ⟨16, 16, .rc, 0⟩]⟩, -- SEAL_STATUS R522
  ⟨0x20, 0x4, 8, 0x4, 1, [⟨0, 32, .wo, 0⟩]⟩, -- SEAL_KEY_w R521
  ⟨0x40, 0x4, 4, 0x4, 1, [⟨0, 32, .wo, 0⟩]⟩, -- SEAL_IN_w R521
  ⟨0x50, 0x4, 4, 0x4, 1, [⟨0, 32, .rc, 0⟩]⟩, -- SEAL_OUT_w R503
  ⟨0x80, 0x4, 20, 0x4, 1, [⟨0, 32, .wo, 0⟩]⟩, -- UNWRAP_BLOB_w R521
  ⟨0x100, 0x4, 1, 0x4, 1, [⟨0, 2, .ro, 0⟩, ⟨2, 1, .ro, 0⟩, ⟨3, 1, .ro, 0⟩, ⟨4, 7, .ro, 0⟩, ⟨11, 4, .ro, 0⟩]⟩, -- LC_STATUS R522
  ⟨0x104, 0x4, 1, 0x4, 1, [⟨0, 1, .wo, 0⟩, ⟨1, 1, .wo, 0⟩]⟩, -- BOOT_CTL R521
  ⟨0x108, 0x4, 1, 0x4, 1, [⟨0, 3, .ro, 0⟩, ⟨4, 3, .ro, 0⟩, ⟨8, 1, .ro, 0⟩]⟩, -- BOOT_STATUS R521
  ⟨0x110, 0x4, 1, 0x4, 1, [⟨0, 4, .rw, 0⟩]⟩, -- FUSE_READ_SEL R521
  ⟨0x120, 0x4, 8, 0x4, 1, [⟨0, 32, .ro, 0⟩]⟩  -- FUSE_READ_w R521
  ]

/-- The registers of block `side` (spec files 00, 02). -/
def regs_side : List RegDesc := [
  ⟨0x0, 0x4, 1, 0x4, 1, [⟨0, 32, .ro, 0⟩]⟩, -- LIVENESS R16
  ⟨0x100, 0x4, 1, 0x4, 1, [⟨0, 1, .rw, 0⟩, ⟨1, 2, .rw, 0⟩, ⟨3, 1, .rw, 0⟩, ⟨4, 1, .rw, 1⟩, ⟨5, 1, .wo, 0⟩, ⟨8, 8, .rw, 0x1E⟩]⟩, -- PORT_CTL_0 R89
  ⟨0x104, 0x4, 1, 0x4, 1, [⟨0, 3, .ro, 0⟩, ⟨3, 1, .ro, 0⟩, ⟨4, 1, .ro, 0⟩, ⟨5, 1, .ro, 0⟩, ⟨6, 1, .ro, 0⟩, ⟨8, 8, .ro, 0⟩, ⟨16, 1, .w1c, 0⟩, ⟨17, 1, .w1c, 0⟩]⟩, -- PORT_STATUS_0 R89
  ⟨0x108, 0x4, 1, 0x4, 1, [⟨0, 14, .rw, 0x5F2⟩]⟩, -- MAX_FRAME_0 R85
  ⟨0x10C, 0x4, 1, 0x4, 1, [⟨0, 2, .rw, 0⟩, ⟨8, 8, .rw, 0xFF⟩, ⟨16, 16, .rw, 0xFFFF⟩]⟩, -- PAUSE_CTL_0 R89
  ⟨0x110, 0x4, 1, 0x4, 1, [⟨0, 32, .rw, 0⟩]⟩, -- PORT_SA_LO_0 R89
  ⟨0x114, 0x4, 1, 0x4, 1, [⟨0, 16, .rw, 0⟩]⟩, -- PORT_SA_HI_0 R89
  ⟨0x118, 0x4, 1, 0x4, 1, [⟨0, 1, .rw, 0⟩, ⟨8, 8, .rw, 0⟩]⟩, -- XOFF_0 R89
  ⟨0x11C, 0x4, 1, 0x4, 1, [⟨0, 1, .rw, 0⟩, ⟨1, 1, .rw, 0⟩, ⟨8, 1, .ro, 0⟩, ⟨9, 1, .ro, 0⟩]⟩, -- MODULE_CTL_0 R89
  ⟨0x120, 0x4, 3, 0x4, 1, [⟨0, 32, .rc, 0⟩]⟩, -- TX_TS_0 R89
  ⟨0x12C, 0x4, 1, 0x4, 1, [⟨0, 16, .rc, 0⟩]⟩, -- TX_TS_TAG_0 R89
  ⟨0x400, 0x4, 1, 0x4, 1, [⟨0, 1, .rw, 0⟩, ⟨1, 1, .rw, 0⟩, ⟨2, 2, .rw, 0⟩]⟩, -- LANE_CTL_0 R89
  ⟨0x404, 0x4, 1, 0x4, 1, [⟨0, 1, .ro, 0⟩, ⟨1, 1, .ro, 0⟩, ⟨2, 1, .ro, 0⟩]⟩, -- LANE_STATUS_0 R89
  ⟨0x408, 0x4, 1, 0x4, 1, [⟨0, 6, .rw, 0⟩, ⟨8, 6, .rw, 0⟩, ⟨16, 6, .rw, 0⟩]⟩, -- TX_EQ_0 R89
  ⟨0x40C, 0x4, 1, 0x4, 1, [⟨0, 16, .rw, 0⟩, ⟨16, 16, .rw, 0⟩]⟩, -- BOARD_DELAY_0 R89
  ⟨0x800, 0x10, 4, 0x10, 1, [⟨0, 32, .ws, 0⟩]⟩, -- STATION_ADDR_LO_e R85
  ⟨0x804, 0x10, 4, 0x10, 1, [⟨0, 16, .ws, 0⟩]⟩, -- STATION_ADDR_HI_e R85
  ⟨0x808, 0x10, 4, 0x10, 1, [⟨0, 1, .rw, 0⟩, ⟨4, 4, .rw, 0⟩]⟩, -- STATION_CTL_e R85
  ⟨0xF00, 0x4, 1, 0x4, 1, [⟨0, 4, .ro, 0⟩, ⟨8, 1, .ro, 0⟩]⟩, -- WAKE_STATUS R86
  ⟨0x1000, 0x100, 8, 0x4, 32, [⟨0, 32, .rw, 0⟩]⟩, -- WAKE_PATTERN_k_w R86
  ⟨0x1080, 0x100, 8, 0x4, 4, [⟨0, 32, .rw, 0⟩]⟩  -- WAKE_MASK_k_w R86
  ]

/-- The registers of block `dbg` (spec files 18). -/
def regs_dbg : List RegDesc := [
  ⟨0x0, 0x4, 1, 0x4, 1, [⟨0, 32, .ro, 0⟩]⟩, -- LIVENESS R521
  ⟨0x10, 0x4, 1, 0x4, 1, [⟨0, 1, .ro, 0⟩, ⟨16, 16, .ro, 0⟩]⟩, -- DBG_SESSION R521
  ⟨0x14, 0x4, 1, 0x4, 1, [⟨0, 32, .ro, 0⟩]⟩, -- DEBUG_SEQ R521
  ⟨0x20, 0x4, 40, 0x4, 1, [⟨0, 32, .wo, 0⟩]⟩, -- DBG_TOKEN_w R521
  ⟨0xC0, 0x4, 1, 0x4, 1, [⟨0, 3, .wo, 0⟩, ⟨4, 4, .wo, 0⟩]⟩, -- DBG_CMD R522
  ⟨0xC4, 0x4, 1, 0x4, 1, [⟨0, 1, .rc, 0⟩, ⟨1, 3, .rc, 0⟩, ⟨16, 16, .rc, 0⟩]⟩, -- DBG_CMD_STATUS R522
  ⟨0x100, 0x4, 8, 0x4, 1, [⟨0, 32, .wo, 0⟩]⟩, -- FUSE_PROG_DATA_w R521
  ⟨0x120, 0x4, 1, 0x4, 1, [⟨0, 4, .wo, 0⟩]⟩, -- FUSE_PROG_CMD R521
  ⟨0x124, 0x4, 1, 0x4, 1, [⟨0, 1, .rc, 0⟩, ⟨1, 2, .rc, 0⟩]⟩, -- FUSE_PROG_STATUS R521
  ⟨0x200, 0x4, 2, 0x4, 1, [⟨0, 32, .rw, 0⟩]⟩, -- DBG_ADDR R521
  ⟨0x208, 0x4, 2, 0x4, 1, [⟨0, 32, .rw, 0⟩]⟩, -- DBG_DATA R521
  ⟨0x210, 0x4, 1, 0x4, 1, [⟨0, 1, .wo, 0⟩, ⟨1, 1, .wo, 0⟩, ⟨2, 2, .wo, 0⟩]⟩, -- DBG_ACC R521
  ⟨0x214, 0x4, 1, 0x4, 1, [⟨0, 1, .rc, 0⟩, ⟨1, 1, .rc, 0⟩]⟩  -- DBG_ACC_STATUS R521
  ]

/-- The register table of the bench block at block number `o / 0x10000` (R36 and the owning chapters). -/
def benchBlock (k : Nat) : List RegDesc :=
  match k with
  | 0 => regs_bench
  | 1 => regs_face
  | 2 => regs_graph
  | 3 => regs_match
  | 4 => regs_action
  | 5 => regs_cipher
  | 6 => regs_tm
  | 7 => regs_hopper
  | 8 => regs_engine
  | 9 => regs_ring
  | 10 => regs_haul
  | 11 => regs_storage
  | 12 => regs_dram
  | 13 => regs_err
  | _ => []

/-- The register table of a hub block at block number `o / 0x10000` (R35). A block whose registers reach above
64 KiB is named by its first number; `hubBlockBase` finds it. -/
def hubBlock (k : Nat) : List RegDesc :=
  match k with
  | 0x1 => regs_pcr
  | 0x2 => regs_arb
  | 0x20 => regs_irq
  | 0x30 => regs_ep
  | 0x40 => regs_ep
  | 0x50 => regs_seal
  | 0x60 => regs_side
  | 0x70 => regs_dbg
  | _ => []

/-- The number of the hub block an offset lies in: blocks of the pcr and the arbiter are 64 KiB wide, the others take
the 1 MiB that R35 leaves between their bases. -/
def hubBlockBase (o : Nat) : Nat :=
  if o < 0x100000 then o / 0x10000 else o / 0x100000 * 0x10

/-- The row of the bench register map that covers a bench offset. -/
def benchReg? (o : Nat) : Option RegDesc :=
  (benchBlock (o / 0x10000)).find? (fun r => r.covers (o % 0x10000))

/-- The row of the hub register map that covers a hub offset. -/
def hubReg? (o : Nat) : Option RegDesc :=
  (hubBlock (hubBlockBase o)).find? (fun r => r.covers (o - hubBlockBase o * 0x10000))

/-- What a bench register that nothing has written reads as: its reset word; 0 where the map has no register. -/
def benchRegReset (o : Nat) : Word :=
  match benchReg? o with
  | some r => BitVec.ofNat 32 r.resetWord
  | none => 0#32

/-- What a hub register that nothing has written reads as. -/
def hubRegReset (o : Nat) : Word :=
  match hubReg? o with
  | some r => BitVec.ofNat 32 r.resetWord
  | none => 0#32

/-! The names below are the registers (their offsets) and the register fields, each as its block, register and field
name in spec/; index arguments follow the subscripts of the register's name. -/
namespace R

def bench_XING_LAT (i : Nat) : Nat := 0x100 + 0x4 * i
def bench_XING_LAT_LAT (i : Nat) : Fld := ⟨bench_XING_LAT i, 0, 8⟩
def bench_XING_LAT_XSTATE (i : Nat) : Fld := ⟨bench_XING_LAT i, 8, 2⟩
def bench_XING_LAT_UNLOCKED (i : Nat) : Fld := ⟨bench_XING_LAT i, 16, 1⟩
def face_PORT_CTL (i : Nat) : Nat := 0x10100 + 0x80 * i
def face_PORT_CTL_ENABLE (i : Nat) : Fld := ⟨face_PORT_CTL i, 0, 1⟩
def face_PORT_CTL_IFACE (i : Nat) : Fld := ⟨face_PORT_CTL i, 1, 2⟩
def face_PORT_CTL_FEC_EN (i : Nat) : Fld := ⟨face_PORT_CTL i, 3, 1⟩
def face_PORT_CTL_AN_EN (i : Nat) : Fld := ⟨face_PORT_CTL i, 4, 1⟩
def face_PORT_CTL_LANE_RESET (i : Nat) : Fld := ⟨face_PORT_CTL i, 5, 1⟩
def face_PORT_CTL_TRAIN_LIMIT (i : Nat) : Fld := ⟨face_PORT_CTL i, 8, 8⟩
def face_PORT_STATUS (i : Nat) : Nat := 0x10104 + 0x80 * i
def face_PORT_STATUS_STATE (i : Nat) : Fld := ⟨face_PORT_STATUS i, 0, 3⟩
def face_PORT_STATUS_CAL (i : Nat) : Fld := ⟨face_PORT_STATUS i, 3, 1⟩
def face_PORT_STATUS_LOCAL_FAULT (i : Nat) : Fld := ⟨face_PORT_STATUS i, 4, 1⟩
def face_PORT_STATUS_REMOTE_FAULT (i : Nat) : Fld := ⟨face_PORT_STATUS i, 5, 1⟩
def face_PORT_STATUS_PAUSED (i : Nat) : Fld := ⟨face_PORT_STATUS i, 6, 1⟩
def face_PORT_STATUS_PFC_PAUSED (i : Nat) : Fld := ⟨face_PORT_STATUS i, 8, 8⟩
def face_PORT_STATUS_LINK_CHANGED (i : Nat) : Fld := ⟨face_PORT_STATUS i, 16, 1⟩
def face_PORT_STATUS_TRAIN_FAILED (i : Nat) : Fld := ⟨face_PORT_STATUS i, 17, 1⟩
def face_MAX_FRAME (i : Nat) : Nat := 0x10108 + 0x80 * i
def face_MAX_FRAME_BYTES (i : Nat) : Fld := ⟨face_MAX_FRAME i, 0, 14⟩
def face_PAUSE_CTL (i : Nat) : Nat := 0x1010C + 0x80 * i
def face_PAUSE_CTL_MODE (i : Nat) : Fld := ⟨face_PAUSE_CTL i, 0, 2⟩
def face_PAUSE_CTL_PFC_CLASS_EN (i : Nat) : Fld := ⟨face_PAUSE_CTL i, 8, 8⟩
def face_PAUSE_CTL_QUANTA (i : Nat) : Fld := ⟨face_PAUSE_CTL i, 16, 16⟩
def face_PORT_SA_LO (i : Nat) : Nat := 0x10110 + 0x80 * i
def face_PORT_SA_HI (i : Nat) : Nat := 0x10114 + 0x80 * i
def face_PORT_SA_HI_SA_HI (i : Nat) : Fld := ⟨face_PORT_SA_HI i, 0, 16⟩
def face_XOFF (i : Nat) : Nat := 0x10118 + 0x80 * i
def face_XOFF_LINK_XOFF (i : Nat) : Fld := ⟨face_XOFF i, 0, 1⟩
def face_XOFF_CLASS_XOFF (i : Nat) : Fld := ⟨face_XOFF i, 8, 8⟩
def face_MODULE_CTL (i : Nat) : Nat := 0x1011C + 0x80 * i
def face_MODULE_CTL_RELEASE (i : Nat) : Fld := ⟨face_MODULE_CTL i, 0, 1⟩
def face_MODULE_CTL_RUN (i : Nat) : Fld := ⟨face_MODULE_CTL i, 1, 1⟩
def face_MODULE_CTL_PRESENT (i : Nat) : Fld := ⟨face_MODULE_CTL i, 8, 1⟩
def face_MODULE_CTL_INT (i : Nat) : Fld := ⟨face_MODULE_CTL i, 9, 1⟩
def face_TX_TS (i : Nat) (j : Nat) : Nat := 0x10120 + 0x80 * i + 0x4 * j
def face_TX_TS_TAG (i : Nat) : Nat := 0x1012C + 0x80 * i
def face_TX_TS_TAG_TAG (i : Nat) : Fld := ⟨face_TX_TS_TAG i, 0, 16⟩
def face_LANE_CTL (i : Nat) : Nat := 0x10400 + 0x40 * i
def face_LANE_CTL_TX_INVERT (i : Nat) : Fld := ⟨face_LANE_CTL i, 0, 1⟩
def face_LANE_CTL_RX_INVERT (i : Nat) : Fld := ⟨face_LANE_CTL i, 1, 1⟩
def face_LANE_CTL_LOOPBACK (i : Nat) : Fld := ⟨face_LANE_CTL i, 2, 2⟩
def face_LANE_STATUS (i : Nat) : Nat := 0x10404 + 0x40 * i
def face_LANE_STATUS_SIGNAL (i : Nat) : Fld := ⟨face_LANE_STATUS i, 0, 1⟩
def face_LANE_STATUS_LOCKED (i : Nat) : Fld := ⟨face_LANE_STATUS i, 1, 1⟩
def face_LANE_STATUS_FAILED (i : Nat) : Fld := ⟨face_LANE_STATUS i, 2, 1⟩
def face_TX_EQ (i : Nat) : Nat := 0x10408 + 0x40 * i
def face_TX_EQ_PRE (i : Nat) : Fld := ⟨face_TX_EQ i, 0, 6⟩
def face_TX_EQ_MAIN (i : Nat) : Fld := ⟨face_TX_EQ i, 8, 6⟩
def face_TX_EQ_POST (i : Nat) : Fld := ⟨face_TX_EQ i, 16, 6⟩
def face_BOARD_DELAY (i : Nat) : Nat := 0x1040C + 0x40 * i
def face_BOARD_DELAY_RX_PS (i : Nat) : Fld := ⟨face_BOARD_DELAY i, 0, 16⟩
def face_BOARD_DELAY_TX_PS (i : Nat) : Fld := ⟨face_BOARD_DELAY i, 16, 16⟩
def face_STATION_ADDR_LO (i : Nat) : Nat := 0x10800 + 0x10 * i
def face_STATION_ADDR_HI (i : Nat) : Nat := 0x10804 + 0x10 * i
def face_STATION_ADDR_HI_ADDR_HI (i : Nat) : Fld := ⟨face_STATION_ADDR_HI i, 0, 16⟩
def face_STATION_CTL (i : Nat) : Nat := 0x10808 + 0x10 * i
def face_STATION_CTL_VALID (i : Nat) : Fld := ⟨face_STATION_CTL i, 0, 1⟩
def face_STATION_CTL_PORT_MASK (i : Nat) : Fld := ⟨face_STATION_CTL i, 4, 4⟩
def face_TIME_CMD : Nat := 0x10C00
def face_TIME_CMD_OP : Fld := ⟨face_TIME_CMD, 0, 2⟩
def face_TIME_INCR_NS : Nat := 0x10C04
def face_TIME_INCR_NS_NS : Fld := ⟨face_TIME_INCR_NS, 0, 4⟩
def face_TIME_INCR_FRAC : Nat := 0x10C08
def face_TIME_SET (i : Nat) : Nat := 0x10C10 + 0x4 * i
def face_TIME_SNAP (i : Nat) : Nat := 0x10C20 + 0x4 * i
def face_TIME_ADJ : Nat := 0x10C30
def face_PPS_IN_TS (i : Nat) : Nat := 0x10C40 + 0x4 * i
def face_FREQ_CNT : Nat := 0x10C50
def face_PPS_OFFSET : Nat := 0x10C60
def face_PPS_WIDTH : Nat := 0x10C64
def face_PPS_WIDTH_US : Fld := ⟨face_PPS_WIDTH, 0, 20⟩
def graph_GRAPH_CTL : Nat := 0x20010
def graph_GRAPH_CTL_ARMED : Fld := ⟨graph_GRAPH_CTL, 0, 1⟩
def graph_GRAPH_CTL_GEN_ACTIVE : Fld := ⟨graph_GRAPH_CTL, 1, 1⟩
def graph_START_NODE (i : Nat) : Nat := 0x20020 + 0x4 * i
def graph_START_NODE_NODE (i : Nat) : Fld := ⟨graph_START_NODE i, 0, 8⟩
def graph_EXC_CLASS (i : Nat) : Nat := 0x20030 + 0x4 * i
def graph_EXC_CLASS_TRUNC_CLASS (i : Nat) : Fld := ⟨graph_EXC_CLASS i, 0, 8⟩
def graph_EXC_CLASS_WINDOW_CLASS (i : Nat) : Fld := ⟨graph_EXC_CLASS i, 8, 8⟩
def graph_EXC_CLASS_HOP_CLASS (i : Nat) : Fld := ⟨graph_EXC_CLASS i, 16, 8⟩
def graph_NODE_STAGE (i : Nat) : Nat := 0x20100 + 0x4 * i
def graph_NODE_COMMIT : Nat := 0x20140
def graph_NODE_COMMIT_INDEX : Fld := ⟨graph_NODE_COMMIT, 0, 8⟩
def graph_NODE_COMMIT_STATUS : Nat := 0x20144
def graph_NODE_COMMIT_STATUS_VALID : Fld := ⟨graph_NODE_COMMIT_STATUS, 0, 1⟩
def graph_NODE_COMMIT_STATUS_RESULT : Fld := ⟨graph_NODE_COMMIT_STATUS, 1, 3⟩
def graph_NODE_COMMIT_STATUS_INDEX : Fld := ⟨graph_NODE_COMMIT_STATUS, 8, 8⟩
def graph_NODE_COMMIT_STATUS_SEQ : Fld := ⟨graph_NODE_COMMIT_STATUS, 16, 16⟩
def graph_HOST_ENTRY : Nat := 0x20200
def graph_HOST_ENTRY_OCCUPANCY : Fld := ⟨graph_HOST_ENTRY, 0, 4⟩
def graph_HOST_ENTRY_HWM : Fld := ⟨graph_HOST_ENTRY, 8, 4⟩
def graph_FV_CAPTURE_CTL : Nat := 0x20300
def graph_FV_CAPTURE_CTL_ARM : Fld := ⟨graph_FV_CAPTURE_CTL, 0, 1⟩
def graph_FV_CAPTURE_CTL_DONE : Fld := ⟨graph_FV_CAPTURE_CTL, 1, 1⟩
def graph_FV_CAPTURE_CTL_CUT_SEL : Fld := ⟨graph_FV_CAPTURE_CTL, 2, 2⟩
def graph_FV_CAPTURE_CTL_CLASS_EN : Fld := ⟨graph_FV_CAPTURE_CTL, 4, 1⟩
def graph_FV_CAPTURE_CTL_CLASS_MATCH : Fld := ⟨graph_FV_CAPTURE_CTL, 8, 8⟩
def graph_FV_CAPTURE_DATA (i : Nat) : Nat := 0x20340 + 0x4 * i
def match_SEED_0 : Nat := 0x30010
def match_SEED_1 : Nat := 0x30014
def match_SWEEP_CTL : Nat := 0x30020
def match_SWEEP_CTL_START : Fld := ⟨match_SWEEP_CTL, 0, 1⟩
def match_SWEEP_CTL_RESUME : Fld := ⟨match_SWEEP_CTL, 1, 1⟩
def match_SWEEP_CTL_BANK : Fld := ⟨match_SWEEP_CTL, 2, 1⟩
def match_SWEEP_STATUS : Nat := 0x30024
def match_SWEEP_STATUS_STATE : Fld := ⟨match_SWEEP_STATUS, 0, 2⟩
def match_SWEEP_STATUS_BANK : Fld := ⟨match_SWEEP_STATUS, 2, 1⟩
def match_SWEEP_STATUS_CAUSE : Fld := ⟨match_SWEEP_STATUS, 3, 1⟩
def match_SWEEP_STATUS_DONE : Fld := ⟨match_SWEEP_STATUS, 4, 1⟩
def match_SWEEP_STATUS_BUCKET : Fld := ⟨match_SWEEP_STATUS, 5, 13⟩
def match_SWEEP_STATUS_SLOT : Fld := ⟨match_SWEEP_STATUS, 18, 2⟩
def match_SEED_NEXT : Nat := 0x30028
def match_LEARN_CTL : Nat := 0x30030
def match_LEARN_CTL_HOLDOFF_US : Fld := ⟨match_LEARN_CTL, 0, 20⟩
def match_LEARN_CTL_DEST : Fld := ⟨match_LEARN_CTL, 20, 1⟩
def match_LEARN_STATUS : Nat := 0x30034
def match_LEARN_STATUS_OCCUPANCY : Fld := ⟨match_LEARN_STATUS, 0, 9⟩
def match_LEARN_STATUS_HWM : Fld := ⟨match_LEARN_STATUS, 16, 9⟩
def match_LEARN_POP : Nat := 0x30038
def match_LEARN_POP_POP : Fld := ⟨match_LEARN_POP, 0, 1⟩
def match_LEARN_REC_STATUS : Nat := 0x3003C
def match_LEARN_REC_STATUS_VALID : Fld := ⟨match_LEARN_REC_STATUS, 0, 1⟩
def match_LEARN_REC_STATUS_SEQ : Fld := ⟨match_LEARN_REC_STATUS, 16, 16⟩
def match_ECC_LOG : Nat := 0x30040
def match_ECC_LOG_SLOT : Fld := ⟨match_ECC_LOG, 0, 16⟩
def match_OCCUPANCY (i : Nat) : Nat := 0x30048 + 0x4 * i
def match_OCCUPANCY_SLOTS (i : Nat) : Fld := ⟨match_OCCUPANCY i, 0, 16⟩
def match_TABLE_CFG (i : Nat) : Nat := 0x30100 + 0x8 * i
def match_TABLE_CFG_LIMIT (i : Nat) : Fld := ⟨match_TABLE_CFG i, 0, 17⟩
def match_TABLE_COUNT (i : Nat) : Nat := 0x30104 + 0x8 * i
def match_TABLE_COUNT_COUNT (i : Nat) : Fld := ⟨match_TABLE_COUNT i, 0, 17⟩
def match_OP_ENTRY (i : Nat) : Nat := 0x30200 + 0x4 * i
def match_OP_EXPECT (i : Nat) : Nat := 0x30240 + 0x4 * i
def match_OP_CMD : Nat := 0x30250
def match_OP_CMD_OP : Fld := ⟨match_OP_CMD, 0, 3⟩
def match_OP_CMD_SLOT : Fld := ⟨match_OP_CMD, 16, 16⟩
def match_OP_STATUS : Nat := 0x30254
def match_OP_STATUS_VALID : Fld := ⟨match_OP_STATUS, 0, 1⟩
def match_OP_STATUS_RESULT : Fld := ⟨match_OP_STATUS, 1, 4⟩
def match_OP_STATUS_SLOT : Fld := ⟨match_OP_STATUS, 8, 16⟩
def match_OP_STATUS_SEQ : Fld := ⟨match_OP_STATUS, 24, 8⟩
def match_OP_DST : Nat := 0x30258
def match_OP_DST_SLOT : Fld := ⟨match_OP_DST, 0, 16⟩
def match_OP_RESULT (i : Nat) : Nat := 0x30260 + 0x4 * i
def match_LEARN_REC (i : Nat) : Nat := 0x30300 + 0x4 * i
def match_RECIPE (i : Nat) : Nat := 0x34000 + 0x4 * i
def action_GEN_CTL : Nat := 0x40010
def action_GEN_CTL_SWAP : Fld := ⟨action_GEN_CTL, 0, 1⟩
def action_GEN_STATUS : Nat := 0x40014
def action_GEN_STATUS_GEN_ACTIVE : Fld := ⟨action_GEN_STATUS, 0, 1⟩
def action_GEN_STATUS_OLD_GEN_IDLE : Fld := ⟨action_GEN_STATUS, 1, 1⟩
def action_GEN_STATUS_IDLE_REACHED : Fld := ⟨action_GEN_STATUS, 2, 1⟩
def action_INFLIGHT (i : Nat) : Nat := 0x40018 + 0x4 * i
def action_INFLIGHT_COUNT (i : Nat) : Fld := ⟨action_INFLIGHT i, 0, 12⟩
def action_MIRROR (i : Nat) : Nat := 0x40024 + 0x4 * i
def action_MIRROR_VALID (i : Nat) : Fld := ⟨action_MIRROR i, 0, 1⟩
def action_MIRROR_TO_HOST (i : Nat) : Fld := ⟨action_MIRROR i, 1, 1⟩
def action_MIRROR_DEST (i : Nat) : Fld := ⟨action_MIRROR i, 2, 14⟩
def action_MIRROR_TRUNC (i : Nat) : Fld := ⟨action_MIRROR i, 16, 14⟩
def action_TPL_STAGE (i : Nat) : Nat := 0x40100 + 0x4 * i
def action_TPL_COMMIT : Nat := 0x40180
def action_TPL_COMMIT_INDEX : Fld := ⟨action_TPL_COMMIT, 0, 10⟩
def action_TPL_COMMIT_STATUS : Nat := 0x40184
def action_TPL_COMMIT_STATUS_VALID : Fld := ⟨action_TPL_COMMIT_STATUS, 0, 1⟩
def action_TPL_COMMIT_STATUS_RESULT : Fld := ⟨action_TPL_COMMIT_STATUS, 1, 3⟩
def action_TPL_COMMIT_STATUS_INDEX : Fld := ⟨action_TPL_COMMIT_STATUS, 4, 10⟩
def action_TPL_COMMIT_STATUS_SEQ : Fld := ⟨action_TPL_COMMIT_STATUS, 16, 16⟩
def cipher_CIPHER_CTL : Nat := 0x50010
def cipher_CIPHER_CTL_RESTART : Fld := ⟨cipher_CIPHER_CTL, 0, 1⟩
def cipher_CIPHER_STATUS : Nat := 0x50014
def cipher_CIPHER_STATUS_HALTED : Fld := ⟨cipher_CIPHER_STATUS, 0, 1⟩
def cipher_CIPHER_STATUS_MISMATCH : Fld := ⟨cipher_CIPHER_STATUS, 1, 1⟩
def cipher_CIPHER_STATUS_SELFTEST_FAIL : Fld := ⟨cipher_CIPHER_STATUS, 2, 1⟩
def cipher_CIPHER_STATUS_KEYS_CLEARED : Fld := ⟨cipher_CIPHER_STATUS, 3, 1⟩
def cipher_CIPHER_QUEUE (i : Nat) : Nat := 0x50020 + 0x4 * i
def cipher_CIPHER_QUEUE_OCCUPANCY (i : Nat) : Fld := ⟨cipher_CIPHER_QUEUE i, 0, 9⟩
def cipher_CIPHER_QUEUE_HWM (i : Nat) : Fld := ⟨cipher_CIPHER_QUEUE i, 16, 9⟩
def cipher_SA_NOTICE : Nat := 0x50030
def cipher_SA_NOTICE_INDEX : Fld := ⟨cipher_SA_NOTICE, 0, 14⟩
def cipher_SA_NOTICE_KIND : Fld := ⟨cipher_SA_NOTICE, 14, 1⟩
def cipher_SA_NOTICE_VALID : Fld := ⟨cipher_SA_NOTICE, 15, 1⟩
def cipher_ECC_SA : Nat := 0x50034
def cipher_ECC_SA_ENTRY : Fld := ⟨cipher_ECC_SA, 0, 14⟩
def cipher_SA_STAGE (i : Nat) : Nat := 0x50100 + 0x4 * i
def cipher_SA_COMMIT : Nat := 0x50140
def cipher_SA_COMMIT_INDEX : Fld := ⟨cipher_SA_COMMIT, 0, 14⟩
def cipher_SA_COMMIT_STATUS : Nat := 0x50144
def cipher_SA_COMMIT_STATUS_VALID : Fld := ⟨cipher_SA_COMMIT_STATUS, 0, 1⟩
def cipher_SA_COMMIT_STATUS_RESULT : Fld := ⟨cipher_SA_COMMIT_STATUS, 1, 2⟩
def cipher_SA_COMMIT_STATUS_SEQ : Fld := ⟨cipher_SA_COMMIT_STATUS, 16, 16⟩
def tm_MTR_STAGE (i : Nat) : Nat := 0x60010 + 0x4 * i
def tm_MTR_COMMIT : Nat := 0x60030
def tm_MTR_COMMIT_INDEX : Fld := ⟨tm_MTR_COMMIT, 0, 15⟩
def tm_MTR_COMMIT_STATUS : Nat := 0x60034
def tm_MTR_COMMIT_STATUS_VALID : Fld := ⟨tm_MTR_COMMIT_STATUS, 0, 1⟩
def tm_MTR_COMMIT_STATUS_RESULT : Fld := ⟨tm_MTR_COMMIT_STATUS, 1, 2⟩
def tm_MTR_COMMIT_STATUS_SEQ : Fld := ⟨tm_MTR_COMMIT_STATUS, 16, 16⟩
def tm_QCTX_STAGE (i : Nat) : Nat := 0x60040 + 0x4 * i
def tm_QCTX_COMMIT : Nat := 0x60060
def tm_QCTX_COMMIT_INDEX : Fld := ⟨tm_QCTX_COMMIT, 0, 13⟩
def tm_QCTX_COMMIT_CLEAR_HWM : Fld := ⟨tm_QCTX_COMMIT, 16, 1⟩
def tm_QCTX_COMMIT_STATUS : Nat := 0x60064
def tm_QCTX_COMMIT_STATUS_VALID : Fld := ⟨tm_QCTX_COMMIT_STATUS, 0, 1⟩
def tm_QCTX_COMMIT_STATUS_RESULT : Fld := ⟨tm_QCTX_COMMIT_STATUS, 1, 2⟩
def tm_QCTX_COMMIT_STATUS_SEQ : Fld := ⟨tm_QCTX_COMMIT_STATUS, 16, 16⟩
def tm_HOST_QUEUE : Nat := 0x60070
def tm_HOST_QUEUE_OCCUPANCY : Fld := ⟨tm_HOST_QUEUE, 0, 11⟩
def tm_HOST_QUEUE_HWM : Fld := ⟨tm_HOST_QUEUE, 16, 11⟩
def tm_SIDE_QUEUE : Nat := 0x60074
def tm_SIDE_QUEUE_OCCUPANCY : Fld := ⟨tm_SIDE_QUEUE, 0, 7⟩
def tm_SIDE_QUEUE_HWM : Fld := ⟨tm_SIDE_QUEUE, 16, 7⟩
def tm_TM_ECC_LOG : Nat := 0x60078
def tm_TM_ECC_LOG_INDEX : Fld := ⟨tm_TM_ECC_LOG, 0, 15⟩
def tm_TM_ECC_LOG_KIND : Fld := ⟨tm_TM_ECC_LOG, 15, 1⟩
def tm_CLASS_CFG (i : Nat) (j : Nat) : Nat := 0x60100 + 0x100 * i + 0x4 * j
def tm_CLASS_CFG_WEIGHT (i : Nat) (j : Nat) : Fld := ⟨tm_CLASS_CFG i j, 0, 16⟩
def tm_CLASS_CFG_STRICT (i : Nat) (j : Nat) : Fld := ⟨tm_CLASS_CFG i j, 16, 1⟩
def tm_CLASS_CFG_GATED (i : Nat) (j : Nat) : Fld := ⟨tm_CLASS_CFG i j, 17, 1⟩
def tm_CLASS_SHAPE_RATE (i : Nat) (j : Nat) : Nat := 0x60120 + 0x100 * i + 0x8 * j
def tm_CLASS_SHAPE_BURST (i : Nat) (j : Nat) : Nat := 0x60124 + 0x100 * i + 0x8 * j
def tm_CLASS_SHAPE_BURST_BURST (i : Nat) (j : Nat) : Fld := ⟨tm_CLASS_SHAPE_BURST i j, 0, 24⟩
def tm_CLASS_SHAPE_BURST_EN (i : Nat) (j : Nat) : Fld := ⟨tm_CLASS_SHAPE_BURST i j, 31, 1⟩
def tm_PORT_SHAPE_RATE (i : Nat) : Nat := 0x60160 + 0x100 * i
def tm_PORT_SHAPE_BURST (i : Nat) : Nat := 0x60164 + 0x100 * i
def tm_PORT_SHAPE_BURST_BURST (i : Nat) : Fld := ⟨tm_PORT_SHAPE_BURST i, 0, 24⟩
def tm_PORT_SHAPE_BURST_EN (i : Nat) : Fld := ⟨tm_PORT_SHAPE_BURST i, 31, 1⟩
def tm_PORT_OVERHEAD (i : Nat) : Nat := 0x60168 + 0x100 * i
def tm_PORT_OVERHEAD_BYTES (i : Nat) : Fld := ⟨tm_PORT_OVERHEAD i, 0, 8⟩
def tm_FC_THRESH (i : Nat) (j : Nat) : Nat := 0x60170 + 0x100 * i + 0x4 * j
def tm_FC_THRESH_XOFF (i : Nat) (j : Nat) : Fld := ⟨tm_FC_THRESH i j, 0, 16⟩
def tm_FC_THRESH_XON (i : Nat) (j : Nat) : Fld := ⟨tm_FC_THRESH i j, 16, 16⟩
def tm_GATE_CTL (i : Nat) : Nat := 0x601A0 + 0x100 * i
def tm_GATE_CTL_COMMIT (i : Nat) : Fld := ⟨tm_GATE_CTL i, 0, 1⟩
def tm_GATE_CTL_CANCEL (i : Nat) : Fld := ⟨tm_GATE_CTL i, 1, 1⟩
def tm_GATE_STATUS (i : Nat) : Nat := 0x601A4 + 0x100 * i
def tm_GATE_STATUS_ACTIVE (i : Nat) : Fld := ⟨tm_GATE_STATUS i, 0, 1⟩
def tm_GATE_STATUS_PENDING (i : Nat) : Fld := ⟨tm_GATE_STATUS i, 1, 1⟩
def tm_GATE_STATUS_TOOK_OVER (i : Nat) : Fld := ⟨tm_GATE_STATUS i, 2, 1⟩
def tm_GATE_STATUS_START_PAST (i : Nat) : Fld := ⟨tm_GATE_STATUS i, 3, 1⟩
def tm_GATE_STATUS_TIME_STEP (i : Nat) : Fld := ⟨tm_GATE_STATUS i, 4, 1⟩
def tm_GATE_STATUS_ACTIVE_LEN (i : Nat) : Fld := ⟨tm_GATE_STATUS i, 16, 11⟩
def tm_GATE_START (i : Nat) (j : Nat) : Nat := 0x601A8 + 0x100 * i + 0x4 * j
def tm_GATE_SHADOW_LEN (i : Nat) : Nat := 0x601B4 + 0x100 * i
def tm_GATE_SHADOW_LEN_LEN (i : Nat) : Fld := ⟨tm_GATE_SHADOW_LEN i, 0, 11⟩
def tm_GATE_COMMIT_STATUS (i : Nat) : Nat := 0x601B8 + 0x100 * i
def tm_GATE_COMMIT_STATUS_VALID (i : Nat) : Fld := ⟨tm_GATE_COMMIT_STATUS i, 0, 1⟩
def tm_GATE_COMMIT_STATUS_RESULT (i : Nat) : Fld := ⟨tm_GATE_COMMIT_STATUS i, 1, 2⟩
def tm_GATE_COMMIT_STATUS_SEQ (i : Nat) : Fld := ⟨tm_GATE_COMMIT_STATUS i, 16, 16⟩
def tm_CLASS_OCC (i : Nat) (j : Nat) : Nat := 0x601C0 + 0x100 * i + 0x4 * j
def tm_CLASS_OCC_BYTES (i : Nat) (j : Nat) : Fld := ⟨tm_CLASS_OCC i j, 0, 25⟩
def tm_PORT_OCC (i : Nat) : Nat := 0x601E0 + 0x100 * i
def tm_PORT_OCC_BYTES (i : Nat) : Fld := ⟨tm_PORT_OCC i, 0, 25⟩
def tm_PORT_HWM (i : Nat) : Nat := 0x601E4 + 0x100 * i
def tm_PORT_HWM_BYTES (i : Nat) : Fld := ⟨tm_PORT_HWM i, 0, 25⟩
def hopper_HOPPER_CTL : Nat := 0x70010
def hopper_HOPPER_CTL_ENABLE : Fld := ⟨hopper_HOPPER_CTL, 0, 1⟩
def hopper_HOPPER_CTL_READY : Fld := ⟨hopper_HOPPER_CTL, 1, 1⟩
def hopper_HOPPER_CTL_FACE_SPILL : Fld := ⟨hopper_HOPPER_CTL, 2, 1⟩
def hopper_HOPPER_CTL_ALLOC_SPILL : Fld := ⟨hopper_HOPPER_CTL, 3, 1⟩
def hopper_POOL_COUNT (i : Nat) : Nat := 0x70020 + 0x4 * i
def hopper_POOL_COUNT_COUNT (i : Nat) : Fld := ⟨hopper_POOL_COUNT i, 0, 17⟩
def hopper_POOL_RESERVE (i : Nat) : Nat := 0x70030 + 0x4 * i
def hopper_POOL_RESERVE_RESERVE (i : Nat) : Fld := ⟨hopper_POOL_RESERVE i, 0, 17⟩
def hopper_POOL_LOW (i : Nat) : Nat := 0x70040 + 0x4 * i
def hopper_POOL_LOW_LOW (i : Nat) : Fld := ⟨hopper_POOL_LOW i, 0, 17⟩
def hopper_POOL_FREE (i : Nat) : Nat := 0x70050 + 0x4 * i
def hopper_POOL_FREE_FREE (i : Nat) : Fld := ⟨hopper_POOL_FREE i, 0, 17⟩
def hopper_POOL_FREE_LWM (i : Nat) : Fld := ⟨hopper_POOL_FREE i, 17, 15⟩
def hopper_DPOOL_BASE : Nat := 0x70068
def hopper_DPOOL_BASE_BASE : Fld := ⟨hopper_DPOOL_BASE, 0, 21⟩
def hopper_DPOOL_COUNT : Nat := 0x7006C
def hopper_DPOOL_COUNT_COUNT : Fld := ⟨hopper_DPOOL_COUNT, 0, 17⟩
def hopper_HOP_CMD : Nat := 0x70070
def hopper_HOP_CMD_OP : Fld := ⟨hopper_HOP_CMD, 0, 3⟩
def hopper_HOP_CMD_PKT : Fld := ⟨hopper_HOP_CMD, 3, 1⟩
def hopper_HOP_CMD_POOL : Fld := ⟨hopper_HOP_CMD, 4, 3⟩
def hopper_HOP_ARG : Nat := 0x70074
def hopper_HOP_ARG2 : Nat := 0x70078
def hopper_HOP_ARG2_ARG2 : Fld := ⟨hopper_HOP_ARG2, 0, 17⟩
def hopper_HOP_STATUS : Nat := 0x7007C
def hopper_HOP_STATUS_VALID : Fld := ⟨hopper_HOP_STATUS, 0, 1⟩
def hopper_HOP_STATUS_RESULT : Fld := ⟨hopper_HOP_STATUS, 1, 3⟩
def hopper_HOP_STATUS_SEQ : Fld := ⟨hopper_HOP_STATUS, 16, 16⟩
def hopper_REFUSAL_LOG (i : Nat) : Nat := 0x70090 + 0x4 * i
def hopper_PKTBUF_ECC_LOG : Nat := 0x700A0
def engine_CORE_CTL (i : Nat) : Nat := 0x80010 + 0x10 * i
def engine_CORE_CTL_START (i : Nat) : Fld := ⟨engine_CORE_CTL i, 0, 1⟩
def engine_CORE_CTL_STOP (i : Nat) : Fld := ⟨engine_CORE_CTL i, 1, 1⟩
def engine_CORE_STATUS (i : Nat) : Nat := 0x80014 + 0x10 * i
def engine_CORE_STATUS_STATE (i : Nat) : Fld := ⟨engine_CORE_STATUS i, 0, 2⟩
def engine_CORE_STATUS_ACTIVE (i : Nat) : Fld := ⟨engine_CORE_STATUS i, 8, 8⟩
def engine_CORE_STATUS_FAULTED (i : Nat) : Fld := ⟨engine_CORE_STATUS i, 16, 8⟩
def engine_CORE_ENTRY (i : Nat) : Nat := 0x80018 + 0x10 * i
def engine_CORE_ENTRY_ENTRY (i : Nat) : Fld := ⟨engine_CORE_ENTRY i, 0, 17⟩
def engine_ENGINE_ECC_LOG : Nat := 0x80100
def engine_ENGINE_ECC_LOG_WORD : Fld := ⟨engine_ENGINE_ECC_LOG, 0, 24⟩
def engine_ENGINE_ECC_LOG_MEM : Fld := ⟨engine_ENGINE_ECC_LOG, 24, 2⟩
def engine_ENGINE_ECC_LOG_CORE : Fld := ⟨engine_ENGINE_ECC_LOG, 26, 3⟩
def engine_ENGINE_ECC_LOG_THREAD : Fld := ⟨engine_ENGINE_ECC_LOG, 29, 3⟩
def engine_THREAD_STATUS (i : Nat) (j : Nat) : Nat := 0x81000 + 0x20 * i + 0x4 * j
def engine_THREAD_STATUS_STATE (i : Nat) (j : Nat) : Fld := ⟨engine_THREAD_STATUS i j, 0, 2⟩
def engine_THREAD_STATUS_DBG_STOPPED (i : Nat) (j : Nat) : Fld := ⟨engine_THREAD_STATUS i j, 2, 1⟩
def engine_THREAD_STATUS_WAIT (i : Nat) (j : Nat) : Fld := ⟨engine_THREAD_STATUS i j, 3, 4⟩
def engine_THREAD_STATUS_STALLED (i : Nat) (j : Nat) : Fld := ⟨engine_THREAD_STATUS i j, 7, 1⟩
def engine_THREAD_STATUS_OBJECT (i : Nat) (j : Nat) : Fld := ⟨engine_THREAD_STATUS i j, 8, 8⟩
def engine_THREAD_STATUS_PARENT (i : Nat) (j : Nat) : Fld := ⟨engine_THREAD_STATUS i j, 16, 3⟩
def engine_THREAD_STATUS_PARENT_VALID (i : Nat) (j : Nat) : Fld := ⟨engine_THREAD_STATUS i j, 19, 1⟩
def engine_THREAD_PC (i : Nat) (j : Nat) : Nat := 0x81100 + 0x20 * i + 0x4 * j
def engine_THREAD_PC_PC (i : Nat) (j : Nat) : Fld := ⟨engine_THREAD_PC i j, 0, 17⟩
def engine_THREAD_CTL (i : Nat) (j : Nat) : Nat := 0x81200 + 0x20 * i + 0x4 * j
def engine_THREAD_CTL_TERMINATE (i : Nat) (j : Nat) : Fld := ⟨engine_THREAD_CTL i j, 0, 1⟩
def engine_THREAD_CTL_RESUME (i : Nat) (j : Nat) : Fld := ⟨engine_THREAD_CTL i j, 1, 1⟩
def engine_CHAN_CFG (i : Nat) : Nat := 0x81480 + 0x8 * i
def engine_CHAN_CFG_BASE (i : Nat) : Fld := ⟨engine_CHAN_CFG i, 0, 9⟩
def engine_CHAN_CFG_DEPTH (i : Nat) : Fld := ⟨engine_CHAN_CFG i, 16, 10⟩
def engine_CHAN_STATUS (i : Nat) : Nat := 0x81404 + 0x8 * i
def engine_CHAN_STATUS_WORDS (i : Nat) : Fld := ⟨engine_CHAN_STATUS i, 0, 13⟩
def engine_CHAN_STATUS_HWM (i : Nat) : Fld := ⟨engine_CHAN_STATUS i, 16, 13⟩
def engine_STALL_STATUS : Nat := 0x81C00
def engine_STALL_STATUS_STALLED : Fld := ⟨engine_STALL_STATUS, 0, 1⟩
def engine_STALL_STATUS_FIRED : Fld := ⟨engine_STALL_STATUS, 1, 1⟩
def engine_STALL_STATUS_COUNT : Fld := ⟨engine_STALL_STATUS, 16, 13⟩
def engine_NOTICE_STATUS : Nat := 0x81C10
def engine_NOTICE_STATUS_OCCUPANCY : Fld := ⟨engine_NOTICE_STATUS, 0, 7⟩
def engine_NOTICE_STATUS_HWM : Fld := ⟨engine_NOTICE_STATUS, 16, 7⟩
def engine_INBOX_STATUS (i : Nat) : Nat := 0x81C20 + 0x4 * i
def engine_INBOX_STATUS_OCCUPANCY (i : Nat) : Fld := ⟨engine_INBOX_STATUS i, 0, 6⟩
def engine_INBOX_STATUS_HWM (i : Nat) : Fld := ⟨engine_INBOX_STATUS i, 16, 6⟩
def engine_CORE_MBX_DATA (i : Nat) : Nat := 0x81D00 + 0x10 * i
def engine_CORE_MBX_LEVEL (i : Nat) : Nat := 0x81D08 + 0x10 * i
def engine_CORE_MBX_LEVEL_LEVEL (i : Nat) : Fld := ⟨engine_CORE_MBX_LEVEL i, 0, 5⟩
def engine_DBG_CTL (i : Nat) : Nat := 0x81E00 + 0x10 * i
def engine_DBG_CTL_STOP (i : Nat) : Fld := ⟨engine_DBG_CTL i, 0, 8⟩
def engine_DBG_CTL_RESUME (i : Nat) : Fld := ⟨engine_DBG_CTL i, 8, 8⟩
def engine_DBG_CTL_STEP (i : Nat) : Fld := ⟨engine_DBG_CTL i, 16, 8⟩
def engine_DBG_STATUS (i : Nat) : Nat := 0x81E04 + 0x10 * i
def engine_DBG_STATUS_DBG_STOPPED (i : Nat) : Fld := ⟨engine_DBG_STATUS i, 0, 8⟩
def engine_DBG_SEL : Nat := 0x81F00
def engine_DBG_SEL_THREAD : Fld := ⟨engine_DBG_SEL, 0, 3⟩
def engine_DBG_SEL_CORE : Fld := ⟨engine_DBG_SEL, 4, 3⟩
def engine_DBG_PC : Nat := 0x81F04
def engine_DBG_PC_PC : Fld := ⟨engine_DBG_PC, 0, 17⟩
def engine_DBG_REG (i : Nat) (j : Nat) : Nat := 0x81F10 + 0x8 * i + 0x4 * j
def ring_RING_FAULT : Nat := 0x90010
def ring_RING_FAULT_RING : Fld := ⟨ring_RING_FAULT, 0, 14⟩
def ring_RING_FAULT_CAUSE : Fld := ⟨ring_RING_FAULT, 14, 4⟩
def ring_RING_FAULT_VALID : Fld := ⟨ring_RING_FAULT, 18, 1⟩
def ring_RING_FAULT_SEQ : Fld := ⟨ring_RING_FAULT, 24, 8⟩
def ring_BACKPRESSURE : Nat := 0x90014
def ring_BACKPRESSURE_CQ : Fld := ⟨ring_BACKPRESSURE, 0, 14⟩
def ring_BACKPRESSURE_ACTIVE : Fld := ⟨ring_BACKPRESSURE, 16, 1⟩
def ring_RX_CACHE : Nat := 0x90018
def ring_RX_CACHE_OCCUPANCY : Fld := ⟨ring_RX_CACHE, 0, 15⟩
def ring_RX_CACHE_HWM : Fld := ⟨ring_RX_CACHE, 16, 15⟩
def haul_HAUL_CH_CFG (i : Nat) : Nat := 0xA0090 + 0x10 * i
def haul_HAUL_CH_CFG_EN (i : Nat) : Fld := ⟨haul_HAUL_CH_CFG i, 0, 1⟩
def haul_HAUL_CH_CFG_CORE (i : Nat) : Fld := ⟨haul_HAUL_CH_CFG i, 1, 3⟩
def haul_HAUL_CH_STAGE_0_1 (i : Nat) : Nat := 0xA0014 + 0x10 * i
def haul_HAUL_CH_STAGE_0_1_RESERVE (i : Nat) : Fld := ⟨haul_HAUL_CH_STAGE_0_1 i, 0, 11⟩
def haul_HAUL_CH_STAGE_0_1_LIMIT (i : Nat) : Fld := ⟨haul_HAUL_CH_STAGE_0_1 i, 16, 11⟩
def haul_HAUL_CH_STAGE (i : Nat) : Nat := 0xA0034 + 0x10 * i
def haul_HAUL_CH_STAGE_RESERVE (i : Nat) : Fld := ⟨haul_HAUL_CH_STAGE i, 0, 11⟩
def haul_HAUL_CH_STAGE_LIMIT (i : Nat) : Fld := ⟨haul_HAUL_CH_STAGE i, 16, 11⟩
def haul_HAUL_CH_STATUS (i : Nat) : Nat := 0xA0018 + 0x10 * i
def haul_HAUL_CH_STATUS_QUEUED (i : Nat) : Fld := ⟨haul_HAUL_CH_STATUS i, 0, 5⟩
def haul_HAUL_CH_STATUS_HWM (i : Nat) : Fld := ⟨haul_HAUL_CH_STATUS i, 8, 5⟩
def haul_HAUL_CH_STATUS_CHUNKS (i : Nat) : Fld := ⟨haul_HAUL_CH_STATUS i, 16, 11⟩
def haul_HAUL_CMD (i : Nat) : Nat := 0xA0500 + 0x4 * i
def haul_HAUL_SUBMIT : Nat := 0xA0540
def haul_HAUL_SUBMIT_GO : Fld := ⟨haul_HAUL_SUBMIT, 0, 1⟩
def haul_HAUL_STATUS : Nat := 0xA0544
def haul_HAUL_STATUS_VALID : Fld := ⟨haul_HAUL_STATUS, 0, 1⟩
def haul_HAUL_STATUS_STATUS : Fld := ⟨haul_HAUL_STATUS, 1, 8⟩
def haul_HAUL_STATUS_SEQ : Fld := ⟨haul_HAUL_STATUS, 16, 16⟩
def haul_HAUL_COUNT : Nat := 0xA0548
def haul_HAUL_RESULT (i : Nat) : Nat := 0xA0560 + 0x4 * i
def haul_STAGE_STATUS : Nat := 0xA0580
def haul_STAGE_STATUS_FREE : Fld := ⟨haul_STAGE_STATUS, 0, 11⟩
def haul_STAGE_STATUS_LWM : Fld := ⟨haul_STAGE_STATUS, 16, 11⟩
def haul_HAUL_ECC_LOG : Nat := 0xA0584
def haul_HAUL_ECC_LOG_CHUNK : Fld := ⟨haul_HAUL_ECC_LOG, 0, 10⟩
def storage_FLASH_CTL (i : Nat) : Nat := 0xB0010 + 0x40 * i
def storage_FLASH_CTL_RATE (i : Nat) : Fld := ⟨storage_FLASH_CTL i, 0, 3⟩
def storage_FLASH_CTL_PARITY (i : Nat) : Fld := ⟨storage_FLASH_CTL i, 3, 2⟩
def storage_FLASH_CTL_LADDER_LEN (i : Nat) : Fld := ⟨storage_FLASH_CTL i, 5, 4⟩
def storage_FLASH_CTL_OP_TIMEOUT (i : Nat) : Fld := ⟨storage_FLASH_CTL i, 9, 16⟩
def storage_FLASH_CTL_TRAIN (i : Nat) : Fld := ⟨storage_FLASH_CTL i, 25, 1⟩
def storage_FLASH_STATUS (i : Nat) : Nat := 0xB0014 + 0x40 * i
def storage_FLASH_STATUS_STATE (i : Nat) : Fld := ⟨storage_FLASH_STATUS i, 0, 3⟩
def storage_FLASH_STATUS_DIES (i : Nat) : Fld := ⟨storage_FLASH_STATUS i, 3, 5⟩
def storage_FLASH_STATUS_RING_ERROR (i : Nat) : Fld := ⟨storage_FLASH_STATUS i, 8, 1⟩
def storage_FLASH_STATUS_TRAIN_FAIL (i : Nat) : Fld := ⟨storage_FLASH_STATUS i, 9, 1⟩
def storage_FLASH_RING (i : Nat) : Nat := 0xB0018 + 0x40 * i
def storage_FLASH_RING_BASE (i : Nat) : Fld := ⟨storage_FLASH_RING i, 6, 15⟩
def storage_FLASH_RING_S (i : Nat) : Fld := ⟨storage_FLASH_RING i, 21, 3⟩
def storage_FLASH_DB (i : Nat) : Nat := 0xB001C + 0x40 * i
def storage_FLASH_RING_STATUS (i : Nat) : Nat := 0xB0020 + 0x40 * i
def storage_FLASH_RING_STATUS_INDEX (i : Nat) : Fld := ⟨storage_FLASH_RING_STATUS i, 0, 8⟩
def storage_FLASH_RING_STATUS_LAP (i : Nat) : Fld := ⟨storage_FLASH_RING_STATUS i, 8, 1⟩
def storage_FLASH_RING_STATUS_RING_RESET (i : Nat) : Fld := ⟨storage_FLASH_RING_STATUS i, 16, 1⟩
def storage_GEOMETRY (i : Nat) : Nat := 0xB0024 + 0x40 * i
def storage_GEOMETRY_CW_PER_PAGE (i : Nat) : Fld := ⟨storage_GEOMETRY i, 0, 4⟩
def storage_GEOMETRY_PLANES (i : Nat) : Fld := ⟨storage_GEOMETRY i, 4, 3⟩
def storage_GEOMETRY_BLOCKS (i : Nat) : Fld := ⟨storage_GEOMETRY i, 7, 16⟩
def storage_GEOMETRY2 (i : Nat) : Nat := 0xB0028 + 0x40 * i
def storage_GEOMETRY2_PAGES (i : Nat) : Fld := ⟨storage_GEOMETRY2 i, 0, 16⟩
def storage_DIE_INFO (i : Nat) (j : Nat) : Nat := 0xB0100 + 0x40 * i + 0x4 * j
def storage_DIE_INFO_INFO (i : Nat) (j : Nat) : Fld := ⟨storage_DIE_INFO i j, 0, 2⟩
def storage_LADDER (i : Nat) (j : Nat) : Nat := 0xB0200 + 0x80 * i + 0x8 * j
def storage_LADDER_FEATURE (i : Nat) (j : Nat) : Fld := ⟨storage_LADDER i j, 0, 8⟩
def storage_LADDER_P (i : Nat) (j : Nat) : Nat := 0xB0204 + 0x80 * i + 0x8 * j
def storage_XTS_NS (i : Nat) : Nat := 0xB0400 + 0x10 * i
def storage_XTS_NS_EN (i : Nat) : Fld := ⟨storage_XTS_NS i, 0, 1⟩
def storage_XTS_NS_LOADED (i : Nat) : Fld := ⟨storage_XTS_NS i, 1, 1⟩
def storage_XTS_NS_DRAINING (i : Nat) : Fld := ⟨storage_XTS_NS i, 2, 1⟩
def storage_TWEAK_HI (i : Nat) (j : Nat) : Nat := 0xB0408 + 0x10 * i + 0x4 * j
def storage_FLUSH_CTL : Nat := 0xB0800
def storage_FLUSH_CTL_ARMED : Fld := ⟨storage_FLUSH_CTL, 0, 1⟩
def storage_FLUSH_CTL_FLUSH_LEN : Fld := ⟨storage_FLUSH_CTL, 1, 13⟩
def storage_FLUSH_TABLE_BASE : Nat := 0xB0804
def storage_FLUSH_TABLE_BASE_BASE : Fld := ⟨storage_FLUSH_TABLE_BASE, 0, 25⟩
def storage_FLUSH_STATUS : Nat := 0xB0808
def storage_FLUSH_STATUS_RUNNING : Fld := ⟨storage_FLUSH_STATUS, 0, 1⟩
def storage_FLUSH_STATUS_DONE : Fld := ⟨storage_FLUSH_STATUS, 1, 1⟩
def storage_FLUSH_STATUS_RECOVERED : Fld := ⟨storage_FLUSH_STATUS, 2, 1⟩
def storage_FLUSH_COUNT : Nat := 0xB080C
def storage_FLUSH_COUNT_PROGRAMMED : Fld := ⟨storage_FLUSH_COUNT, 0, 13⟩
def storage_FLUSH_COUNT_SKIPPED : Fld := ⟨storage_FLUSH_COUNT, 16, 13⟩
def storage_NVME_CTRL (i : Nat) : Nat := 0xB0900 + 0x4 * i
def storage_NVME_CTRL_CLAIM (i : Nat) : Fld := ⟨storage_NVME_CTRL i, 0, 8⟩
def storage_NVME_CTRL_VALID (i : Nat) : Fld := ⟨storage_NVME_CTRL i, 8, 1⟩
def storage_NVME_CTRL_RDY (i : Nat) : Fld := ⟨storage_NVME_CTRL i, 9, 1⟩
def storage_NVME_CTRL_CFS (i : Nat) : Fld := ⟨storage_NVME_CTRL i, 10, 1⟩
def storage_NVME_CTRL_SHST (i : Nat) : Fld := ⟨storage_NVME_CTRL i, 11, 2⟩
def storage_NVME_CPL (i : Nat) (j : Nat) : Nat := 0xB1000 + 0x100 * i + 0x10 * j
def storage_NVME_CPL1 (i : Nat) (j : Nat) : Nat := 0xB1004 + 0x100 * i + 0x10 * j
def storage_NVME_CPL2 (i : Nat) (j : Nat) : Nat := 0xB1008 + 0x100 * i + 0x10 * j
def storage_NVME_CPL3 (i : Nat) (j : Nat) : Nat := 0xB100C + 0x100 * i + 0x10 * j
def storage_MEDIA_LOG (i : Nat) : Nat := 0xB2000 + 0x4 * i
def dram_DRAM_CFG : Nat := 0xC0010
def dram_DRAM_CFG_RATE : Fld := ⟨dram_DRAM_CFG, 0, 3⟩
def dram_DRAM_CFG_DENSITY : Fld := ⟨dram_DRAM_CFG, 3, 2⟩
def dram_DRAM_CFG_WIDTH : Fld := ⟨dram_DRAM_CFG, 5, 1⟩
def dram_DRAM_CFG_RANKS : Fld := ⟨dram_DRAM_CFG, 6, 2⟩
def dram_DRAM_CFG_SPARE_EN : Fld := ⟨dram_DRAM_CFG, 8, 1⟩
def dram_DRAM_CFG_SPARE_RANK : Fld := ⟨dram_DRAM_CFG, 9, 2⟩
def dram_DRAM_CFG_FILL : Fld := ⟨dram_DRAM_CFG, 11, 1⟩
def dram_DRAM_CTL : Nat := 0xC0014
def dram_DRAM_CTL_GO : Fld := ⟨dram_DRAM_CTL, 0, 1⟩
def dram_DRAM_CTL_RETIRE : Fld := ⟨dram_DRAM_CTL, 1, 1⟩
def dram_DRAM_CTL_SLOT : Fld := ⟨dram_DRAM_CTL, 2, 2⟩
def dram_DRAM_STATUS : Nat := 0xC0018
def dram_DRAM_STATUS_STATE : Fld := ⟨dram_DRAM_STATUS, 0, 3⟩
def dram_DRAM_STATUS_RETAINED : Fld := ⟨dram_DRAM_STATUS, 3, 1⟩
def dram_DRAM_STATUS_TRAIN_FAIL : Fld := ⟨dram_DRAM_STATUS, 4, 1⟩
def dram_DRAM_STATUS_MIG_ACTIVE : Fld := ⟨dram_DRAM_STATUS, 5, 1⟩
def dram_DRAM_STATUS_MIG_SLOT : Fld := ⟨dram_DRAM_STATUS, 6, 2⟩
def dram_DRAM_STATUS_SPARE_USED : Fld := ⟨dram_DRAM_STATUS, 8, 1⟩
def dram_DRAM_STATUS_RANK_FAILED : Fld := ⟨dram_DRAM_STATUS, 9, 4⟩
def dram_DRAM_STATUS_SLOT_FAILED : Fld := ⟨dram_DRAM_STATUS, 13, 4⟩
def dram_DRAM_STATUS_HOT : Fld := ⟨dram_DRAM_STATUS, 17, 1⟩
def dram_RANK_MAP : Nat := 0xC001C
def dram_RANK_MAP_PHYS : Fld := ⟨dram_RANK_MAP, 0, 8⟩
def dram_XOR_MASK (i : Nat) : Nat := 0xC0020 + 0x4 * i
def dram_XOR_MASK_MASK (i : Nat) : Fld := ⟨dram_XOR_MASK i, 0, 17⟩
def dram_SR_IDLE : Nat := 0xC0040
def dram_SR_IDLE_US : Fld := ⟨dram_SR_IDLE, 0, 16⟩
def dram_DRAM_LAT : Nat := 0xC0044
def dram_DRAM_LAT_READ_LAT : Fld := ⟨dram_DRAM_LAT, 0, 8⟩
def dram_DRAM_LAT_WRITE_LAT : Fld := ⟨dram_DRAM_LAT, 8, 8⟩
def dram_DRAM_LAT_SR_EXIT : Fld := ⟨dram_DRAM_LAT, 16, 16⟩
def dram_MIG_LINE : Nat := 0xC0048
def dram_MIG_LINE_LINE : Fld := ⟨dram_MIG_LINE, 0, 29⟩
def dram_MIG_INTERVAL : Nat := 0xC004C
def dram_MIG_INTERVAL_CYCLES : Fld := ⟨dram_MIG_INTERVAL, 0, 16⟩
def dram_DRAM_QUEUE : Nat := 0xC0050
def dram_DRAM_QUEUE_OCCUPANCY : Fld := ⟨dram_DRAM_QUEUE, 0, 7⟩
def dram_DRAM_QUEUE_HWM : Fld := ⟨dram_DRAM_QUEUE, 8, 7⟩
def dram_DRAM_QUEUE_WAIT_HWM : Fld := ⟨dram_DRAM_QUEUE, 16, 16⟩
def dram_ECC_TEST : Nat := 0xC0060
def dram_ECC_TEST_EN : Fld := ⟨dram_ECC_TEST, 0, 1⟩
def dram_ECC_TEST_CHECK (i : Nat) : Nat := 0xC0064 + 0x4 * i
def dram_DRAM_ERR_LOG (i : Nat) : Nat := 0xC0080 + 0x4 * i
def err_CE_CFG (i : Nat) : Nat := 0xD0010 + 0x4 * i
def err_CE_CFG_CAPACITY (i : Nat) : Fld := ⟨err_CE_CFG i, 0, 8⟩
def err_CE_CFG_LEAK_SHIFT (i : Nat) : Fld := ⟨err_CE_CFG i, 8, 5⟩
def err_CE_CFG_LEVEL (i : Nat) : Fld := ⟨err_CE_CFG i, 16, 8⟩
def err_CE_CFG_OVERFLOW (i : Nat) : Fld := ⟨err_CE_CFG i, 24, 1⟩
def err_CE_LOG : Nat := 0xD0040
def err_CE_LOG_COUNTER : Fld := ⟨err_CE_LOG, 0, 4⟩
def err_TALLY_SEL (i : Nat) : Nat := 0xD0100 + 0x10 * i
def err_TALLY_SNAP_STATUS (i : Nat) : Nat := 0xD0104 + 0x10 * i
def err_TALLY_SNAP_STATUS_VALID (i : Nat) : Fld := ⟨err_TALLY_SNAP_STATUS i, 0, 1⟩
def err_TALLY_SNAP_STATUS_SATURATED (i : Nat) : Fld := ⟨err_TALLY_SNAP_STATUS i, 1, 1⟩
def err_TALLY_SNAP (i : Nat) (j : Nat) : Nat := 0xD0108 + 0x10 * i + 0x4 * j
def pcr_HUB_CLK_SRC : Nat := 0x10010
def pcr_HUB_CLK_SRC_SIDE_SRC : Fld := ⟨pcr_HUB_CLK_SRC, 0, 1⟩
def pcr_HUB_CLK_SRC_DBG_SRC : Fld := ⟨pcr_HUB_CLK_SRC, 1, 1⟩
def pcr_RESET_CAUSE : Nat := 0x10020
def pcr_RESET_CAUSE_POR : Fld := ⟨pcr_RESET_CAUSE, 0, 1⟩
def pcr_RESET_CAUSE_HUB_FAULT : Fld := ⟨pcr_RESET_CAUSE, 1, 1⟩
def pcr_RESET_CAUSE_FM_RESET : Fld := ⟨pcr_RESET_CAUSE, 2, 1⟩
def pcr_RESET_CAUSE_FUND : Fld := ⟨pcr_RESET_CAUSE, 3, 2⟩
def pcr_RESET_CAUSE_READY_FORCED : Fld := ⟨pcr_RESET_CAUSE, 5, 2⟩
def pcr_RESET_CAUSE_IMAGE_OK : Fld := ⟨pcr_RESET_CAUSE, 7, 1⟩
def pcr_RESET_CAUSE_HUB_FAULT_CAUSE : Fld := ⟨pcr_RESET_CAUSE, 8, 4⟩
def pcr_STRAP_STATUS : Nat := 0x10024
def pcr_STRAP_STATUS_PCIE_SPLIT_0 : Fld := ⟨pcr_STRAP_STATUS, 0, 1⟩
def pcr_STRAP_STATUS_PCIE_SPLIT_1 : Fld := ⟨pcr_STRAP_STATUS, 1, 1⟩
def pcr_CFG_READY : Nat := 0x10028
def pcr_CFG_READY_READY : Fld := ⟨pcr_CFG_READY, 0, 2⟩
def pcr_FM_WDOG : Nat := 0x10030
def pcr_FM_WDOG_PERIOD : Fld := ⟨pcr_FM_WDOG, 0, 16⟩
def pcr_FM_WDOG_EN : Fld := ⟨pcr_FM_WDOG, 16, 1⟩
def pcr_FM_WDOG_KICK : Fld := ⟨pcr_FM_WDOG, 17, 1⟩
def pcr_BOOT_MEAS (i : Nat) : Nat := 0x10040 + 0x4 * i
def pcr_THERM_CTL : Nat := 0x10060
def pcr_THERM_CTL_WARN_C : Fld := ⟨pcr_THERM_CTL, 0, 8⟩
def pcr_THERM_STATUS : Nat := 0x10064
def pcr_THERM_STATUS_WARN : Fld := ⟨pcr_THERM_STATUS, 0, 1⟩
def pcr_THERM_STATUS_TRIPPED : Fld := ⟨pcr_THERM_STATUS, 1, 1⟩
def pcr_THERM_STATUS_SOURCE : Fld := ⟨pcr_THERM_STATUS, 2, 5⟩
def pcr_TEMP (i : Nat) : Nat := 0x10080 + 0x4 * i
def pcr_TEMP_F (i : Nat) : Fld := ⟨pcr_TEMP i, 0, 12⟩
def pcr_TEMP_VALID (i : Nat) : Fld := ⟨pcr_TEMP i, 16, 1⟩
def pcr_BENCH_CTL (i : Nat) : Nat := 0x10100 + 0x20 * i
def pcr_BENCH_CTL_START (i : Nat) : Fld := ⟨pcr_BENCH_CTL i, 0, 1⟩
def pcr_BENCH_CTL_STOP (i : Nat) : Fld := ⟨pcr_BENCH_CTL i, 1, 1⟩
def pcr_BENCH_CTL_PROFILE (i : Nat) : Fld := ⟨pcr_BENCH_CTL i, 2, 1⟩
def pcr_BENCH_CTL_PORT_MODE (i : Nat) : Fld := ⟨pcr_BENCH_CTL i, 4, 3⟩
def pcr_BENCH_CTL_HOST_LINK (i : Nat) : Fld := ⟨pcr_BENCH_CTL i, 8, 2⟩
def pcr_BENCH_CTL_DRAM_EN (i : Nat) : Fld := ⟨pcr_BENCH_CTL i, 10, 1⟩
def pcr_BENCH_CTL_FLASH_EN (i : Nat) : Fld := ⟨pcr_BENCH_CTL i, 11, 1⟩
def pcr_BENCH_CTL_LEND_OK (i : Nat) : Fld := ⟨pcr_BENCH_CTL i, 12, 1⟩
def pcr_BENCH_CTL_DRAM_RETAIN (i : Nat) : Fld := ⟨pcr_BENCH_CTL i, 13, 1⟩
def pcr_BENCH_STATUS (i : Nat) : Nat := 0x10104 + 0x20 * i
def pcr_BENCH_STATUS_STATE (i : Nat) : Fld := ⟨pcr_BENCH_STATUS i, 0, 3⟩
def pcr_BENCH_STATUS_PROFILE (i : Nat) : Fld := ⟨pcr_BENCH_STATUS i, 3, 1⟩
def pcr_BENCH_STATUS_PORT_MODE (i : Nat) : Fld := ⟨pcr_BENCH_STATUS i, 4, 3⟩
def pcr_BENCH_STATUS_HOST_LINK (i : Nat) : Fld := ⟨pcr_BENCH_STATUS i, 8, 2⟩
def pcr_BENCH_STATUS_XING_FAIL (i : Nat) : Fld := ⟨pcr_BENCH_STATUS i, 16, 1⟩
def pcr_BENCH_STATUS_PLL_UNLOCK (i : Nat) : Fld := ⟨pcr_BENCH_STATUS i, 17, 1⟩
def pcr_BENCH_STATUS_FORCED (i : Nat) : Fld := ⟨pcr_BENCH_STATUS i, 18, 1⟩
def pcr_BENCH_STATUS_SUPPLY_FAIL (i : Nat) : Fld := ⟨pcr_BENCH_STATUS i, 19, 1⟩
def pcr_BENCH_DRAIN_LIMIT (i : Nat) : Nat := 0x10108 + 0x20 * i
def pcr_BENCH_DRAIN_LIMIT_LIMIT_US (i : Nat) : Fld := ⟨pcr_BENCH_DRAIN_LIMIT i, 0, 24⟩
def pcr_XING_LAT_HUB (i : Nat) : Nat := 0x10300 + 0x4 * i
def pcr_XING_LAT_HUB_LAT (i : Nat) : Fld := ⟨pcr_XING_LAT_HUB i, 0, 8⟩
def pcr_XING_LAT_HUB_XSTATE (i : Nat) : Fld := ⟨pcr_XING_LAT_HUB i, 8, 2⟩
def pcr_XING_LAT_HUB_UNLOCKED (i : Nat) : Fld := ⟨pcr_XING_LAT_HUB i, 16, 1⟩
def irq_FM_STATUS (i : Nat) : Nat := 0x200100 + 0x4 * i
def irq_FM_MASK (i : Nat) : Nat := 0x200200 + 0x4 * i
def irq_HOST_STATUS (i : Nat) : Nat := 0x200300 + 0x4 * i
def irq_EVT_ROUTE (i : Nat) : Nat := 0x201000 + 0x4 * i
def irq_EVT_ROUTE_HOST (i : Nat) : Fld := ⟨irq_EVT_ROUTE i, 0, 1⟩
def irq_EVT_ROUTE_PORT (i : Nat) : Fld := ⟨irq_EVT_ROUTE i, 1, 1⟩
def irq_EVT_ROUTE_VF (i : Nat) : Fld := ⟨irq_EVT_ROUTE i, 2, 1⟩
def irq_EVT_ROUTE_INDEX (i : Nat) : Fld := ⟨irq_EVT_ROUTE i, 3, 11⟩
def irq_EVT_ROUTE_VECTOR (i : Nat) : Fld := ⟨irq_EVT_ROUTE i, 14, 11⟩
def irq_HUB_CE_CFG (i : Nat) : Nat := 0x202000 + 0x4 * i
def irq_HUB_CE_CFG_CAPACITY (i : Nat) : Fld := ⟨irq_HUB_CE_CFG i, 0, 8⟩
def irq_HUB_CE_CFG_LEAK_SHIFT (i : Nat) : Fld := ⟨irq_HUB_CE_CFG i, 8, 5⟩
def irq_HUB_CE_CFG_LEVEL (i : Nat) : Fld := ⟨irq_HUB_CE_CFG i, 16, 8⟩
def irq_HUB_CE_CFG_OVERFLOW (i : Nat) : Fld := ⟨irq_HUB_CE_CFG i, 24, 1⟩
def irq_HUB_CE_LOG : Nat := 0x202010
def irq_HUB_CE_LOG_COUNTER : Fld := ⟨irq_HUB_CE_LOG, 0, 2⟩
def irq_TALLY_SEL (i : Nat) : Nat := 0x202100 + 0x20 * i
def irq_TALLY_SNAP_STATUS (i : Nat) : Nat := 0x202104 + 0x20 * i
def irq_TALLY_SNAP_STATUS_VALID (i : Nat) : Fld := ⟨irq_TALLY_SNAP_STATUS i, 0, 1⟩
def irq_TALLY_SNAP_STATUS_SATURATED (i : Nat) : Fld := ⟨irq_TALLY_SNAP_STATUS i, 1, 1⟩
def irq_TALLY_SNAP (i : Nat) (j : Nat) : Nat := 0x202108 + 0x20 * i + 0x4 * j
def ep_LINK_STATUS (port : Nat) (i : Nat) : Nat := 0x300010 + 0x100000 * port + 0x20 * i
def ep_LINK_STATUS_STATE (port : Nat) (i : Nat) : Fld := ⟨ep_LINK_STATUS port i, 0, 2⟩
def ep_LINK_STATUS_RATE (port : Nat) (i : Nat) : Fld := ⟨ep_LINK_STATUS port i, 2, 2⟩
def ep_LINK_STATUS_WIDTH (port : Nat) (i : Nat) : Fld := ⟨ep_LINK_STATUS port i, 4, 2⟩
def ep_LINK_STATUS_LINK_CHANGED (port : Nat) (i : Nat) : Fld := ⟨ep_LINK_STATUS port i, 16, 1⟩
def ep_LINK_STATUS_DEGRADED (port : Nat) (i : Nat) : Fld := ⟨ep_LINK_STATUS port i, 17, 1⟩
def ep_LINK_STATUS_NO_FLIT (port : Nat) (i : Nat) : Fld := ⟨ep_LINK_STATUS port i, 18, 1⟩
def ep_LINK_STATUS_CREDIT_SHORT (port : Nat) (i : Nat) : Fld := ⟨ep_LINK_STATUS port i, 19, 1⟩
def ep_BENCH_INQ (port : Nat) (i : Nat) : Nat := 0x300100 + 0x100000 * port + 0x4 * i
def ep_BENCH_INQ_P_OCC (port : Nat) (i : Nat) : Fld := ⟨ep_BENCH_INQ port i, 0, 7⟩
def ep_BENCH_INQ_NP_OCC (port : Nat) (i : Nat) : Fld := ⟨ep_BENCH_INQ port i, 8, 5⟩
def ep_BENCH_INQ_P_HWM (port : Nat) (i : Nat) : Fld := ⟨ep_BENCH_INQ port i, 16, 7⟩
def ep_BENCH_INQ_NP_HWM (port : Nat) (i : Nat) : Fld := ⟨ep_BENCH_INQ port i, 24, 5⟩
def ep_FN_CFG (port : Nat) (i : Nat) : Nat := 0x300200 + 0x100000 * port + 0x10 * i
def ep_FN_CFG_ENABLE (port : Nat) (i : Nat) : Fld := ⟨ep_FN_CFG port i, 0, 1⟩
def ep_FN_CFG_HOME_BENCH (port : Nat) (i : Nat) : Fld := ⟨ep_FN_CFG port i, 1, 4⟩
def ep_FN_CFG_CLASS (port : Nat) (i : Nat) : Fld := ⟨ep_FN_CFG port i, 5, 2⟩
def ep_FN_CFG_TOTAL_VFS (port : Nat) (i : Nat) : Fld := ⟨ep_FN_CFG port i, 16, 12⟩
def ep_FN_VEC (port : Nat) (i : Nat) : Nat := 0x300204 + 0x100000 * port + 0x10 * i
def ep_FN_VEC_PF_VECTORS (port : Nat) (i : Nat) : Fld := ⟨ep_FN_VEC port i, 0, 12⟩
def ep_FN_VEC_VF_VECTORS (port : Nat) (i : Nat) : Fld := ⟨ep_FN_VEC port i, 16, 12⟩
def ep_VF_CFG (port : Nat) (i : Nat) : Nat := 0x300400 + 0x100000 * port + 0x4 * i
def ep_VF_CFG_HOME_BENCH (port : Nat) (i : Nat) : Fld := ⟨ep_VF_CFG port i, 0, 4⟩
def ep_WIN_COMMIT (port : Nat) : Nat := 0x303000 + 0x100000 * port
def ep_WIN_COMMIT_INDEX (port : Nat) : Fld := ⟨ep_WIN_COMMIT port, 0, 11⟩
def ep_WIN_COMMIT_VF (port : Nat) : Fld := ⟨ep_WIN_COMMIT port, 11, 1⟩
def ep_WIN_COMMIT_STATUS (port : Nat) : Nat := 0x303004 + 0x100000 * port
def ep_WIN_COMMIT_STATUS_VALID (port : Nat) : Fld := ⟨ep_WIN_COMMIT_STATUS port, 0, 1⟩
def ep_WIN_COMMIT_STATUS_RESULT (port : Nat) : Fld := ⟨ep_WIN_COMMIT_STATUS port, 1, 2⟩
def ep_WIN_COMMIT_STATUS_SEQ (port : Nat) : Fld := ⟨ep_WIN_COMMIT_STATUS port, 16, 16⟩
def ep_FN_EVENT (port : Nat) : Nat := 0x303010 + 0x100000 * port
def ep_FN_EVENT_INDEX (port : Nat) : Fld := ⟨ep_FN_EVENT port, 0, 11⟩
def ep_FN_EVENT_VF (port : Nat) : Fld := ⟨ep_FN_EVENT port, 11, 1⟩
def ep_FN_EVENT_LINK (port : Nat) : Fld := ⟨ep_FN_EVENT port, 12, 1⟩
def ep_FN_EVENT_KIND (port : Nat) : Fld := ⟨ep_FN_EVENT port, 13, 3⟩
def ep_FN_EVENT_VALID (port : Nat) : Fld := ⟨ep_FN_EVENT port, 16, 1⟩
def ep_FN_EVENT_SEQ (port : Nat) : Fld := ⟨ep_FN_EVENT port, 24, 8⟩
def ep_WIN_CTL_PF (port : Nat) (i : Nat) : Nat := 0x310000 + 0x100000 * port + 0x4 * i
def ep_WIN_CTL_VF (port : Nat) (i : Nat) : Nat := 0x320000 + 0x100000 * port + 0x4 * i
def ep_WIN_DB_PF (port : Nat) (i : Nat) : Nat := 0x324000 + 0x100000 * port + 0x4 * i
def ep_WIN_DB_VF (port : Nat) (i : Nat) : Nat := 0x330000 + 0x100000 * port + 0x4 * i
def seal_SEAL_CTL : Nat := 0x500010
def seal_SEAL_CTL_OP : Fld := ⟨seal_SEAL_CTL, 0, 2⟩
def seal_SEAL_CTL_SRC : Fld := ⟨seal_SEAL_CTL, 2, 1⟩
def seal_SEAL_CTL_GO : Fld := ⟨seal_SEAL_CTL, 3, 1⟩
def seal_SEAL_LOCK : Nat := 0x500014
def seal_SEAL_LOCK_KEY_LOCK : Fld := ⟨seal_SEAL_LOCK, 0, 1⟩
def seal_SEAL_LOCK_DEVSEAL_LOCK : Fld := ⟨seal_SEAL_LOCK, 1, 1⟩
def seal_SEAL_TARGET : Nat := 0x500018
def seal_SEAL_TARGET_BENCH : Fld := ⟨seal_SEAL_TARGET, 0, 4⟩
def seal_SEAL_TARGET_KIND : Fld := ⟨seal_SEAL_TARGET, 4, 1⟩
def seal_SEAL_TARGET_INDEX : Fld := ⟨seal_SEAL_TARGET, 5, 14⟩
def seal_SEAL_STATUS : Nat := 0x50001C
def seal_SEAL_STATUS_VALID : Fld := ⟨seal_SEAL_STATUS, 0, 1⟩
def seal_SEAL_STATUS_RESULT : Fld := ⟨seal_SEAL_STATUS, 1, 3⟩
def seal_SEAL_STATUS_BUSY : Fld := ⟨seal_SEAL_STATUS, 4, 1⟩
def seal_SEAL_STATUS_SEQ : Fld := ⟨seal_SEAL_STATUS, 16, 16⟩
def seal_SEAL_KEY (i : Nat) : Nat := 0x500020 + 0x4 * i
def seal_SEAL_IN (i : Nat) : Nat := 0x500040 + 0x4 * i
def seal_SEAL_OUT (i : Nat) : Nat := 0x500050 + 0x4 * i
def seal_UNWRAP_BLOB (i : Nat) : Nat := 0x500080 + 0x4 * i
def seal_LC_STATUS : Nat := 0x500100
def seal_LC_STATUS_STATE : Fld := ⟨seal_LC_STATUS, 0, 2⟩
def seal_LC_STATUS_PENDING : Fld := ⟨seal_LC_STATUS, 2, 1⟩
def seal_LC_STATUS_BOOT_LOCK : Fld := ⟨seal_LC_STATUS, 3, 1⟩
def seal_LC_STATUS_SVN_MIN : Fld := ⟨seal_LC_STATUS, 4, 7⟩
def seal_LC_STATUS_FUSE_BAD : Fld := ⟨seal_LC_STATUS, 11, 4⟩
def seal_BOOT_CTL : Nat := 0x500104
def seal_BOOT_CTL_BOOT_LOCK : Fld := ⟨seal_BOOT_CTL, 0, 1⟩
def seal_BOOT_CTL_SVN_ADVANCE : Fld := ⟨seal_BOOT_CTL, 1, 1⟩
def seal_BOOT_STATUS : Nat := 0x500108
def seal_BOOT_STATUS_A_CAUSE : Fld := ⟨seal_BOOT_STATUS, 0, 3⟩
def seal_BOOT_STATUS_B_CAUSE : Fld := ⟨seal_BOOT_STATUS, 4, 3⟩
def seal_BOOT_STATUS_SLOT_B : Fld := ⟨seal_BOOT_STATUS, 8, 1⟩
def seal_FUSE_READ_SEL : Nat := 0x500110
def seal_FUSE_READ_SEL_FIELD : Fld := ⟨seal_FUSE_READ_SEL, 0, 4⟩
def seal_FUSE_READ (i : Nat) : Nat := 0x500120 + 0x4 * i
def side_PORT_CTL_0 : Nat := 0x600100
def side_PORT_CTL_0_ENABLE : Fld := ⟨side_PORT_CTL_0, 0, 1⟩
def side_PORT_CTL_0_IFACE : Fld := ⟨side_PORT_CTL_0, 1, 2⟩
def side_PORT_CTL_0_FEC_EN : Fld := ⟨side_PORT_CTL_0, 3, 1⟩
def side_PORT_CTL_0_AN_EN : Fld := ⟨side_PORT_CTL_0, 4, 1⟩
def side_PORT_CTL_0_LANE_RESET : Fld := ⟨side_PORT_CTL_0, 5, 1⟩
def side_PORT_CTL_0_TRAIN_LIMIT : Fld := ⟨side_PORT_CTL_0, 8, 8⟩
def side_PORT_STATUS_0 : Nat := 0x600104
def side_PORT_STATUS_0_STATE : Fld := ⟨side_PORT_STATUS_0, 0, 3⟩
def side_PORT_STATUS_0_CAL : Fld := ⟨side_PORT_STATUS_0, 3, 1⟩
def side_PORT_STATUS_0_LOCAL_FAULT : Fld := ⟨side_PORT_STATUS_0, 4, 1⟩
def side_PORT_STATUS_0_REMOTE_FAULT : Fld := ⟨side_PORT_STATUS_0, 5, 1⟩
def side_PORT_STATUS_0_PAUSED : Fld := ⟨side_PORT_STATUS_0, 6, 1⟩
def side_PORT_STATUS_0_PFC_PAUSED : Fld := ⟨side_PORT_STATUS_0, 8, 8⟩
def side_PORT_STATUS_0_LINK_CHANGED : Fld := ⟨side_PORT_STATUS_0, 16, 1⟩
def side_PORT_STATUS_0_TRAIN_FAILED : Fld := ⟨side_PORT_STATUS_0, 17, 1⟩
def side_MAX_FRAME_0 : Nat := 0x600108
def side_MAX_FRAME_0_BYTES : Fld := ⟨side_MAX_FRAME_0, 0, 14⟩
def side_PAUSE_CTL_0 : Nat := 0x60010C
def side_PAUSE_CTL_0_MODE : Fld := ⟨side_PAUSE_CTL_0, 0, 2⟩
def side_PAUSE_CTL_0_PFC_CLASS_EN : Fld := ⟨side_PAUSE_CTL_0, 8, 8⟩
def side_PAUSE_CTL_0_QUANTA : Fld := ⟨side_PAUSE_CTL_0, 16, 16⟩
def side_PORT_SA_LO_0 : Nat := 0x600110
def side_PORT_SA_HI_0 : Nat := 0x600114
def side_PORT_SA_HI_0_SA_HI : Fld := ⟨side_PORT_SA_HI_0, 0, 16⟩
def side_XOFF_0 : Nat := 0x600118
def side_XOFF_0_LINK_XOFF : Fld := ⟨side_XOFF_0, 0, 1⟩
def side_XOFF_0_CLASS_XOFF : Fld := ⟨side_XOFF_0, 8, 8⟩
def side_MODULE_CTL_0 : Nat := 0x60011C
def side_MODULE_CTL_0_RELEASE : Fld := ⟨side_MODULE_CTL_0, 0, 1⟩
def side_MODULE_CTL_0_RUN : Fld := ⟨side_MODULE_CTL_0, 1, 1⟩
def side_MODULE_CTL_0_PRESENT : Fld := ⟨side_MODULE_CTL_0, 8, 1⟩
def side_MODULE_CTL_0_INT : Fld := ⟨side_MODULE_CTL_0, 9, 1⟩
def side_TX_TS_0 (i : Nat) : Nat := 0x600120 + 0x4 * i
def side_TX_TS_TAG_0 : Nat := 0x60012C
def side_TX_TS_TAG_0_TAG : Fld := ⟨side_TX_TS_TAG_0, 0, 16⟩
def side_LANE_CTL_0 : Nat := 0x600400
def side_LANE_CTL_0_TX_INVERT : Fld := ⟨side_LANE_CTL_0, 0, 1⟩
def side_LANE_CTL_0_RX_INVERT : Fld := ⟨side_LANE_CTL_0, 1, 1⟩
def side_LANE_CTL_0_LOOPBACK : Fld := ⟨side_LANE_CTL_0, 2, 2⟩
def side_LANE_STATUS_0 : Nat := 0x600404
def side_LANE_STATUS_0_SIGNAL : Fld := ⟨side_LANE_STATUS_0, 0, 1⟩
def side_LANE_STATUS_0_LOCKED : Fld := ⟨side_LANE_STATUS_0, 1, 1⟩
def side_LANE_STATUS_0_FAILED : Fld := ⟨side_LANE_STATUS_0, 2, 1⟩
def side_TX_EQ_0 : Nat := 0x600408
def side_TX_EQ_0_PRE : Fld := ⟨side_TX_EQ_0, 0, 6⟩
def side_TX_EQ_0_MAIN : Fld := ⟨side_TX_EQ_0, 8, 6⟩
def side_TX_EQ_0_POST : Fld := ⟨side_TX_EQ_0, 16, 6⟩
def side_BOARD_DELAY_0 : Nat := 0x60040C
def side_BOARD_DELAY_0_RX_PS : Fld := ⟨side_BOARD_DELAY_0, 0, 16⟩
def side_BOARD_DELAY_0_TX_PS : Fld := ⟨side_BOARD_DELAY_0, 16, 16⟩
def side_STATION_ADDR_LO (i : Nat) : Nat := 0x600800 + 0x10 * i
def side_STATION_ADDR_HI (i : Nat) : Nat := 0x600804 + 0x10 * i
def side_STATION_ADDR_HI_ADDR_HI (i : Nat) : Fld := ⟨side_STATION_ADDR_HI i, 0, 16⟩
def side_STATION_CTL (i : Nat) : Nat := 0x600808 + 0x10 * i
def side_STATION_CTL_VALID (i : Nat) : Fld := ⟨side_STATION_CTL i, 0, 1⟩
def side_STATION_CTL_PORT_MASK (i : Nat) : Fld := ⟨side_STATION_CTL i, 4, 4⟩
def side_WAKE_STATUS : Nat := 0x600F00
def side_WAKE_STATUS_INDEX : Fld := ⟨side_WAKE_STATUS, 0, 4⟩
def side_WAKE_STATUS_VALID : Fld := ⟨side_WAKE_STATUS, 8, 1⟩
def side_WAKE_PATTERN (i : Nat) (j : Nat) : Nat := 0x601000 + 0x100 * i + 0x4 * j
def side_WAKE_MASK (i : Nat) (j : Nat) : Nat := 0x601080 + 0x100 * i + 0x4 * j
def dbg_DBG_SESSION : Nat := 0x700010
def dbg_DBG_SESSION_FULL : Fld := ⟨dbg_DBG_SESSION, 0, 1⟩
def dbg_DBG_SESSION_ENGINE_MASK : Fld := ⟨dbg_DBG_SESSION, 16, 16⟩
def dbg_DEBUG_SEQ : Nat := 0x700014
def dbg_DBG_TOKEN (i : Nat) : Nat := 0x700020 + 0x4 * i
def dbg_DBG_CMD : Nat := 0x7000C0
def dbg_DBG_CMD_CMD : Fld := ⟨dbg_DBG_CMD, 0, 3⟩
def dbg_DBG_CMD_BENCH : Fld := ⟨dbg_DBG_CMD, 4, 4⟩
def dbg_DBG_CMD_STATUS : Nat := 0x7000C4
def dbg_DBG_CMD_STATUS_VALID : Fld := ⟨dbg_DBG_CMD_STATUS, 0, 1⟩
def dbg_DBG_CMD_STATUS_RESULT : Fld := ⟨dbg_DBG_CMD_STATUS, 1, 3⟩
def dbg_DBG_CMD_STATUS_SEQ : Fld := ⟨dbg_DBG_CMD_STATUS, 16, 16⟩
def dbg_FUSE_PROG_DATA (i : Nat) : Nat := 0x700100 + 0x4 * i
def dbg_FUSE_PROG_CMD : Nat := 0x700120
def dbg_FUSE_PROG_CMD_FIELD : Fld := ⟨dbg_FUSE_PROG_CMD, 0, 4⟩
def dbg_FUSE_PROG_STATUS : Nat := 0x700124
def dbg_FUSE_PROG_STATUS_VALID : Fld := ⟨dbg_FUSE_PROG_STATUS, 0, 1⟩
def dbg_FUSE_PROG_STATUS_RESULT : Fld := ⟨dbg_FUSE_PROG_STATUS, 1, 2⟩
def dbg_DBG_ADDR (i : Nat) : Nat := 0x700200 + 0x4 * i
def dbg_DBG_DATA (i : Nat) : Nat := 0x700208 + 0x4 * i
def dbg_DBG_ACC : Nat := 0x700210
def dbg_DBG_ACC_READ : Fld := ⟨dbg_DBG_ACC, 0, 1⟩
def dbg_DBG_ACC_WRITE : Fld := ⟨dbg_DBG_ACC, 1, 1⟩
def dbg_DBG_ACC_SIZE : Fld := ⟨dbg_DBG_ACC, 2, 2⟩
def dbg_DBG_ACC_STATUS : Nat := 0x700214
def dbg_DBG_ACC_STATUS_VALID : Fld := ⟨dbg_DBG_ACC_STATUS, 0, 1⟩
def dbg_DBG_ACC_STATUS_ERROR : Fld := ⟨dbg_DBG_ACC_STATUS, 1, 1⟩

end R
end Sys2Proof.Machine
end

