-- ==== Sys2Proof/Machine/Sparse.lean ====
section
/-! DEFINITION. Sparse maps: a list of key and value pairs in one canonical form (keys strictly rising, no entry equal to
what an unlisted key reads as), with the one read and the one write that every memory and register file uses. -/
namespace Sys2Proof.Machine

/-- The value at key `k`; `d k` where the list has no entry for it. -/
def sparseGet {α : Type} (d : Nat → α) : List (Nat × α) → Nat → α
  | [], k => d k
  | (a, v) :: t, k => if k = a then v else sparseGet d t k

/-- Put an entry before the first greater key. -/
def sparseInsert {α : Type} (k : Nat) (v : α) : List (Nat × α) → List (Nat × α)
  | [] => [(k, v)]
  | (a, x) :: t => if k < a then (k, v) :: (a, x) :: t else (a, x) :: sparseInsert k v t

/-- Drop every entry of a key. -/
def sparseDrop {α : Type} (k : Nat) : List (Nat × α) → List (Nat × α)
  | [] => []
  | (a, x) :: t => if a = k then sparseDrop k t else (a, x) :: sparseDrop k t

/-- Put `v` at key `k`: a value equal to what an unlisted key reads as removes the entry. -/
def sparseSet {α : Type} [DecidableEq α] (d : Nat → α) (l : List (Nat × α)) (k : Nat) (v : α) : List (Nat × α) :=
  if v = d k then sparseDrop k l else sparseInsert k v (sparseDrop k l)

/-- The canonical form: keys strictly rising above `lo`, no entry equal to its default. -/
def sparseWfFrom {α : Type} [DecidableEq α] (d : Nat → α) : Option Nat → List (Nat × α) → Bool
  | _, [] => true
  | lo, (a, v) :: t =>
    (match lo with | none => true | some b => decide (b < a)) && decide (v ≠ d a) && sparseWfFrom d (some a) t

/-- The canonical form of a sparse map. -/
def sparseWf {α : Type} [DecidableEq α] (d : Nat → α) (l : List (Nat × α)) : Bool := sparseWfFrom d none l

/-- Bits `lo` to `lo + w - 1` of a number. -/
def getBits (x lo w : Nat) : Nat := x / 2 ^ lo % 2 ^ w

/-- `x` with bits `lo` to `lo + w - 1` replaced by the low `w` bits of `v`. -/
def putBits (x lo w v : Nat) : Nat :=
  x % 2 ^ lo + 2 ^ lo * (v % 2 ^ w) + 2 ^ (lo + w) * (x / 2 ^ (lo + w))

/-- Is bit `k` of a number set? -/
def bit (x k : Nat) : Bool := x / 2 ^ k % 2 = 1

/-- Two's complement reading of the low `w` bits. -/
def signed (w x : Nat) : Int :=
  let y := x % 2 ^ w
  if y < 2 ^ (w - 1) then (y : Int) else (y : Int) - (2 ^ w : Nat)

/-- The little-endian number a list of bytes spells (R15). -/
def leNat : List Byte → Nat
  | [] => 0
  | b :: t => b.toNat + 256 * leNat t

/-- The `n` little-endian bytes of a number (R15). -/
def leBytes : Nat → Nat → List Byte
  | 0, _ => []
  | n + 1, x => BitVec.ofNat 8 x :: leBytes n (x / 256)

/-- The big-endian number a list of bytes spells (R15: packet data is in network order). -/
def beNat (l : List Byte) : Nat := l.foldl (fun x b => 256 * x + b.toNat) 0

/-- The `n` big-endian bytes of a number. -/
def beBytes (n x : Nat) : List Byte := (leBytes n x).reverse

end Sys2Proof.Machine
end

