-- ==== Sys2Proof/Machine/State.lean ====
section
/-! DEFINITION. The state of the device as plain data: sixteen benches, the hub, and the queue of waiting commands. -/
namespace Sys2Proof.Machine

/-! ## A bench: power, face and packets -/

/-- The states of a bench (R44). -/
inductive BenchSt where
  | off | starting | running | draining | fault
deriving DecidableEq, Repr

/-- A bench's power domain: its state, what START fixed (R50), how far the start of R46 has come, whether the drain limit
of R47 has ended, and DRAM_RETAIN as the last STOP found it (R48). -/
structure Power where
  st : BenchSt
  profile : Nat
  portMode : Nat
  hostLink : Nat
  dramEn : Bool
  flashEn : Bool
  railsUp : Bool
  pllsUp : Bool
  cleared : Bool
  drainCut : Bool
  retain : Bool
deriving DecidableEq, Repr

/-- A timestamp record (R80). -/
structure Stamp where
  valid : Bool
  cal : Bool
  sec : Nat
  ns : Nat
  frac : Nat
  port : Nat
deriving DecidableEq, Repr

/-- An action word (R160): W0, W1 and W2. -/
structure ActionWord where
  w0 : Nat
  w1 : Nat
  w2 : Nat
deriving DecidableEq, Repr

/-- Where a packet of a bench is. -/
inductive Loc where
  | receiving            -- the face is writing it into its buffers
  | entry                -- in its port's entry register (R96)
  | hostEntry            -- in the host face's entry queue (R99)
  | loop                 -- waiting for its second cut (R98)
  | side                 -- in the side entry (R213)
  | flow (q : Nat)       -- in a flow queue (R221)
  | hostQ                -- in the host delivery queue (R216)
  | inbox (core : Nat)   -- in a core's packet inbox (R167)
  | selected (port : Nat)   -- selected by the scheduler, on its way to the face (R227)
  | sending (port : Nat)    -- in the transmitter (R71)
  | gone                    -- discarded before its end status; its buffers are back in the hopper
  | delivering              -- taken by the haul write engine (R216)
deriving DecidableEq, Repr

/-- The lengths of a pushed header that are still to be written (R172, R173): the chain bytes (R248) at which its IP and its UDP header
lie, and IHL × 4 as the template gives it. -/
structure Fixup where
  ip : Option Nat
  ip6 : Bool
  ihl : Nat
  udp : Option Nat
deriving DecidableEq, Repr

/-- One direction's work of the inline cipher on a packet (R187, R188). Chain bytes do not move once the head pass is
over, so places are chain bytes (R248). `aad` and `text` are what the tag has taken so far: the additional data and the
ciphertext. `bad` is the spoil code of a failed verdict, 0 for a good one. -/
structure CipherJob where
  enc : Bool
  sa : Nat
  seq : Nat
  ctl : Nat                 -- control and layout words of the entry as the head pass saw them (R195)
  lay : Nat
  key : List Byte           -- the AES key as the head pass saw it, 16 or 32 bytes (R202)
  base : Nat                -- chain byte of the packet's first byte at the head pass
  off : Nat                 -- chain byte of the first enciphered byte
  payload : Nat             -- chain byte of the first payload byte
  done : Nat                -- one past the last chain byte that the tag has taken
  low : Nat                 -- an edit has put other bytes before this chain byte
  aad : List Byte
  text : List Byte
  icv : Option (List Byte)  -- the received ICV, where an edit has overwritten it
  nonce : List Byte
  fix : Option Fixup        -- lengths that the verdict writes again (R197)
  steps : Nat               -- body steps run
  set : Bool                -- the verdict is set
  bad : Nat
deriving DecidableEq, Repr

/-- What the traffic manager keeps with a packet. -/
structure PktTm where
  queue : Nat
  colour : Nat             -- 0 green, 1 yellow, 2 red
  meter : Option Nat
  charged : Nat
  provisional : Bool
  tag : Nat
  cls : Nat
deriving DecidableEq, Repr

/-- What the face needs of a packet: one-step operation, positions, two-step capture (R82, R83, R169). -/
structure PktTx where
  ptpOp : Nat
  ptpOff : Nat
  csumOff : Nat
  capture : Bool
  tag : Nat
  stamp : Option Stamp     -- the egress record
deriving DecidableEq, Repr

/-- A packet that a bench holds: its buffers, its receive metadata, its field vector and its fate so far. -/
structure Pkt where
  id : Nat
  loc : Loc
  port : Nat                -- receiving port
  ring : Option Nat         -- send ring of a host-face packet
  engine : Bool             -- sent by an engine thread
  mirrorOf : Option Nat     -- the original of a mirror copy
  handle : Nat              -- head of its chain (R251)
  start : Nat               -- chain byte at which it starts (R248)
  len : Nat                 -- bytes from the start, its FCS bytes included
  fcs : Nat                 -- FCS bytes at its tail: 4, or 0 where none is kept
  rxLen : Nat
  oversize : Bool           -- truncated at MAX_FRAME (R68); it acts once the end status is known
  ended : Bool              -- its end status is known (R67)
  spoil : Nat               -- the spoil code of its end status or verdict, 0 for none
  ts : Stamp
  stHit : Bool
  stIdx : Nat
  present : Nat             -- pipeline cycle of its presentation
  admitAt : Nat             -- pipeline cycle in which its first cut was admitted (R98)
  seen : Stamp              -- the bench time of that cycle (R147)
  gen : Nat
  second : Bool             -- in or past its second cut
  wstart : Nat              -- byte of the packet at which its window starts
  wend : Nat                -- bytes readable of its second cut's window (R192)
  snode : Nat               -- start node of its second cut
  fv : List Byte            -- field vector of its last cut, 96 bytes (R110)
  carry : List Byte         -- CARRY, 6 bytes (R177)
  growth : Int              -- net growth of its edits (R174)
  act : ActionWord
  mark : Nat
  jobs : List CipherJob
  fix : List Fixup          -- FIXUP_PENDING (R173): the lengths of both cuts that are still to be written
  tm : PktTm
  tx : PktTx
  desc : Nat                -- send descriptor index, for a host-face packet
  trunc : Nat               -- bytes a mirror copy keeps; 0 keeps all
  origLen : Nat             -- ORIG_LEN: the received length of a truncated frame, at most 65,535 (R68); 0 for another
  txAt : Nat                -- cycle in which its first word entered the transmitter
deriving DecidableEq, Repr

/-- A frame as it left a port: its bytes without FCS, and whether its FCS was inverted (R63, R67, R72, R93). -/
structure TxOut where
  port : Nat
  bytes : List Byte
  badFcs : Bool
  echo : Bool               -- a received frame, FCS included, that far-end loopback retransmits (R93)
deriving DecidableEq, Repr

/-- What the face keeps for one port beside its registers. -/
structure PortSt where
  fails : Nat               -- consecutive failed training attempts (R61)
  retrain : Bool            -- the attempt in progress is a retrain from UP (R62)
  disabling : Bool          -- a DISABLE in UP waits for the frame in transmission
  rxPid : Option Nat        -- the frame being received
  txPid : Option Nat        -- the frame in transmission
  pauseQuanta : Nat         -- quanta of the link pause in force
  pfcQuanta : List (Nat × Nat)   -- quanta of each class pause in force
  reqs : Nat                -- requests now high: bit c per class, bit 8 for link pause (R76)
  adv : Nat                 -- requests last advertised with non-zero time
  mode : Nat                -- pause mode in force
  tmReqs : Nat              -- the traffic manager's requests (R236)
  tsq : List (Stamp × Nat)  -- transmit timestamp queue of 64 entries (R83)
  tsHeld : List (Option Nat)   -- words of the record taken that are still to be read (R574)
  an : Nat                  -- auto-negotiation of this stay in TRAINING (R60): 0 no page yet, 1 matched, 2 restarted for want of a match
  faults : Bool             -- the port has left UP and not come back: fault ordered sets are sent (R63)
  owed : Nat                -- pause or PFC frames that wait for the frame boundary (R76)
  fell : Nat                -- classes whose request has fallen since the last PFC frame sent (R76)
  looped : List (List Byte × Bool)   -- frames that near-end loopback brings to the receiver: bytes, inverted FCS (R93)
  loopBad : Bool            -- the looped frame being received has an inverted FCS
deriving DecidableEq, Repr

/-- The time counter and the time inputs and outputs of a bench (R77 to R79). -/
structure TimeSt where
  sec : Nat
  ns : Nat
  frac : Nat                -- units of 2^-32 ns
  pps : Option Stamp        -- capture held of the 1PPS input
  ppsHeld : List (Option Nat)
  freq : Option Nat         -- count of the frequency comparator, not yet read
  ppsOut : Bool             -- level of the 1PPS output
  ppsAt : Nat               -- cycle in which it rose
deriving DecidableEq, Repr

/-! ## Match stage -/

/-- Who issued a table operation (R136). -/
inductive OpSrc where
  | reg | thread (t : Nat)
  | nobody (core : Nat)     -- a thread of the core that has ended
deriving DecidableEq, Repr

/-- The outcome of a table operation (R156): result code, the slot it reports if it reports one (R136), returned bytes, word
0 for NO_ROOM. -/
structure OpResult where
  code : Nat
  slot : Option Nat
  bytes : List Byte
deriving DecidableEq, Repr

/-- A table operation in the queue of R136. -/
structure TableOp where
  src : OpSrc
  op : Nat
  slot : Nat
  dst : Nat
  image : List Byte
  expect : List Byte
  blk : Nat                 -- slice offset of a thread's operand block (R283)
  res : Option OpResult
deriving DecidableEq, Repr

/-- A learn record (R150) in the learn queue (R147). -/
structure LearnRec where
  pkt : Option Nat          -- the packet whose status it awaits; none once readable
  wait : Bool
  key : List Byte
  ts : Stamp
  table : Nat
  moved : Bool
  gen : Nat
  second : Bool
  source : Nat
  oldSource : Nat
  slot : Nat
  seq : Nat
deriving DecidableEq, Repr

/-- An entry of the hold-off filter (R148); times in pipeline cycles. -/
structure FilterEnt where
  key : List Byte
  table : Nat
  source : Nat
  expiry : Nat
deriving DecidableEq, Repr

/-- The match stage's queues. -/
structure MatchSt where
  opq : List TableOp
  learnq : List LearnRec
  filter : List FilterEnt
  learnSeq : Nat
deriving DecidableEq, Repr

/-! ## Cipher and traffic manager -/

/-- The cipher's state beside its registers, tables and the jobs that packets carry. -/
structure CipherSt where
  lastBad : List Nat        -- directions (0 encrypt, 1 decrypt) whose last engaged packet disagreed (R205)
  restarting : Bool
  queue : List (Bool × Nat)    -- engaged packets whose verdict is to come, in arrival order: encrypt?, packet
  notices : List (Nat × Nat)   -- SA_NOTICE queue: entry index and kind (R200)
deriving DecidableEq, Repr

/-- The gate list in force on a port, and the one that waits (R232); instants in units of 2^-32 ns of bench time. -/
structure GateSt where
  origin : Nat
  start : Nat
  old : Bool                -- the start time was in the past when the commit landed: it waits for the old list's next cycle (R233)
  atOnce : Bool             -- the same with no active list: it takes over in the next cycle
  entry : Nat               -- entry of the active list in progress
deriving DecidableEq, Repr

/-- The traffic manager's queues, tags and shapers. -/
structure TmSt where
  side : List Nat           -- side entry: packet ids (R213)
  flow : List Nat           -- packets in flow queues, in enqueue order
  hostQ : List Nat          -- host delivery queue (R216)
  vtag : List (Nat × Nat)   -- v[p][c] at 8p + c (R225)
  ftag : List (Nat × Nat)   -- F_c at 8p + c, V_p at 32 + p (R226)
  newWeight : List (Nat × Nat)   -- flow-queue weights awaiting their port's next decision (R223)
  classWeight : List (Nat × Nat) -- class weights in force, at 8p + c (R226)
  shaper : List (Nat × Int)      -- tokens at 9p + c, port shaper at 9p + 8 (R228)
  shapeCfg : List (Nat × (Nat × Nat))   -- RATE and BURST words in force, keys as `shaper`
  shapedAt : List (Nat × Nat)    -- cycle at which each shaper's tokens stood so
  gates : List (Nat × GateSt)
  refresh : Nat             -- next meter of the refresher (R219)
  lastOut : List (Nat × Nat)     -- port, pids selected before a pending commit, for GATE_OVERRUN (R232)
deriving DecidableEq, Repr

/-! ## Hopper -/

/-- The hopper's state beside its registers and records. -/
structure HopperSt where
  building : Bool           -- free lists being built (R247)
  lowFired : List Nat       -- pools whose POOL_LOW event waits to be re-armed (R261)
  log : List (Nat × Nat)    -- refusal log: handle and word 1 (R267)
  logSeq : Nat
  logHeld : Nat             -- word 1 of the record whose word 0 was read
  lost : List Nat           -- record addresses taken out of use (R263)
deriving DecidableEq, Repr

/-! ## Engines -/

/-- What a thread waits on (R321, WAIT and OBJECT). -/
inductive Wait where
  | none
  | chrd (ch : Nat) | chwr (ch : Nat) | wacq (w : Nat) | join (mask : Nat) | notice (w0 w1 : DWord)
  | dram | top | hsub | waitc (ticket : Nat)
deriving DecidableEq, Repr

/-- A ticket in use (R277): what it stands for, and its status word once complete. -/
structure Ticket where
  kind : Nat                -- 0 LDDL, 1 STDL, 2 HSUB
  addr : Nat
  slot : Nat                -- slice offset
  done : Option (Nat × Nat) -- STATUS and COUNT
  ecc : Bool
deriving DecidableEq, Repr

/-- A hardware thread (R272, R296). -/
structure Thread where
  st : Nat                  -- 0 FREE, 1 ACTIVE, 2 FAULTED
  dbg : Bool
  step : Bool               -- a STEP lets it issue one instruction (R318)
  stepped : Bool            -- that instruction is in progress
  next : Nat                -- engine cycle from which it may use a slot (R270)
  pc : Nat
  regs : List (Nat × DWord)
  wait : Wait
  since : Nat               -- engine cycle at which it blocked
  parent : Option Nat
  halted : Nat              -- children recorded HALTED
  termed : Nat              -- children recorded TERMINATED
  tickets : List (Nat × Ticket)
  staged : List DWord       -- staged channel words (R301)
  stagedCh : Nat
  reading : List (Nat × List DWord × Option Nat)   -- channel, unread words, inbox entry of each message it is reading
  destReg : Nat             -- RD of the blocked instruction
  destReg2 : Nat
deriving DecidableEq, Repr

/-- A wedge that is held (R307): its holder and its waiters, oldest first. -/
structure Wedge where
  holder : Nat
  waiters : List (Nat × Nat)   -- thread, engine cycle of its WACQ
deriving DecidableEq, Repr

/-- The engine cluster: threads 8c + t, channels, wedges, notices. -/
structure EngineSt where
  threads : List (Nat × Thread)
  chans : List (Nat × List (List DWord))   -- committed messages, oldest first
  inboxMsgs : List (Nat × Nat × List DWord)   -- delivered inbox messages: core, packet, words
  blocked : List Nat        -- blocked threads, in the order in which they blocked
  wedges : List (Nat × Option Wedge)
  notices : List (DWord × DWord)
  used : List (Nat × Nat)   -- slots in which a thread issued, not yet past: thread, engine cycle (R270)
  faultSlots : List (Nat × List (DWord × DWord))   -- pending fault notices of each thread, oldest first (R312)
  stallSlot : List DWord    -- pending STALL notices, oldest first
  doorSlot : Nat
  mbx : List (Nat × List Word)     -- core mailboxes (R315)
deriving DecidableEq, Repr

/-! ## Rings and claims -/

/-- What a device read serves (R342 to R345). -/
inductive ReadFor where
  | desc (ring : Nat)                  -- a descriptor fetch
  | table (cmd : Nat) (dst : Bool) (off : Nat)   -- a fragment table of a haul command
  | data (cmd off : Nat)               -- source bytes `off` on of a haul command
  | command (id off : Nat)             -- bytes `off` on of what a Sceune command reads (R482)
  | entry (mbx id : Nat)               -- an admin submission entry of a mailbox (R484)
deriving DecidableEq, Repr

/-- A host read outstanding, or a tag in quarantine (R33, R335, R342 to R345). -/
structure HostRead where
  fn : Nat                  -- key of its function
  pasid : Option Nat
  tag : Nat                 -- index of the tag within the bench's range
  shift : Nat               -- bits of the index in the tag's layout: 10, 6 or 4 (R335)
  use : ReadFor
  claim : Nat               -- 256 for a read of Ryuner
  addr : Nat
  len : Nat
  got : List Byte           -- bytes that have arrived
  cto : Nat                 -- its time-out in microseconds, fixed when it is sent (R342)
  retryOk : Bool
  retried : Bool
  quarantine : Bool
  dead : Bool               -- its operation has already ended (R344)
deriving DecidableEq, Repr

/-- A fetch of descriptors in flight (R371, R377). -/
structure Fetch where
  ring : Nat
  count : Nat
  size : Nat                -- bytes of a descriptor
  got : Option (List Byte)  -- its bytes, once they have arrived
  again : Bool              -- the one more fetch of R371
  waiting : Bool            -- a mismatch was found; the fetch goes out 1 µs later
deriving DecidableEq, Repr

/-- A send descriptor in flight (R375). -/
structure SendDesc where
  ring : Nat
  index : Nat
  lap : Nat
  addr : Nat
  len : Nat
  frags : Nat
  user : Nat
  capture : Bool
  tag : Nat
  cmd : Option Nat          -- the haul command that fetches its frame
  pid : Option Nat          -- the packet, once its frame is being fetched
deriving DecidableEq, Repr

/-- A receive descriptor held (R381). -/
structure RecvDesc where
  ring : Nat
  index : Nat
  addr : Nat
  len : Nat
deriving DecidableEq, Repr

/-- A completion on its way to its ring (R380): its collector slot (R462), and whether it has left the collector. -/
structure Cpl where
  slot : Nat
  cq : Nat
  words : List Nat
  out : Bool
deriving DecidableEq, Repr

/-- A claim (R358 to R363): its state (1 ACTIVE, 2 QUIESCING, 3 QUIESCED), what it is bound to, its shares. -/
structure Claim where
  st : Nat
  fn : Nat                  -- key of its function
  pasid : Option Nat
  ringBase : Nat
  ringCount : Nat
  tagLimit : Nat
  weight : Nat
  pageBase : Nat
  pages : Nat
  vfPage : Bool             -- a VF's control page maps claim page 0
  limit : Nat               -- QUIESCE_LIMIT in force, ms
  resetting : Bool          -- in a claim reset (R365)
  mustReset : List Nat      -- rings that need RESET_INDEX = 1 at their next start (R365)
deriving DecidableEq, Repr

/-- The ring units of a bench beside contexts and registers. -/
structure RingSt where
  claims : List (Nat × Claim)
  fetches : List Fetch
  sends : List SendDesc
  recvs : List RecvDesc
  cpls : List Cpl
  faults : List Nat               -- ring fault log
  faultSeq : Nat
  cqCount : List (Nat × Nat)      -- completions written since armed
  credit : List (Nat × Int)       -- deficit of each claim (R360)
  lastClaim : Nat
  lastRing : List (Nat × Nat)
  held : List Nat                 -- completion rings that hold back fetches
deriving DecidableEq, Repr

/-! ## Haul engines -/

/-- A chunk in staging: its logical offset, its bytes once they are there, the status it brings its command, and whether it
came from words with an error (R401). -/
structure Chunk where
  off : Nat
  len : Nat
  data : Option (List Byte)
  bad : Nat
deriving DecidableEq, Repr

/-- A haul command (R393): its block, its submitter and its progress. -/
structure HaulCmd where
  id : Nat
  chan : Nat
  owner : Nat               -- submitter's hopper tag (R253), also after its thread has ended
  ticket : Option (Nat × Nat)   -- thread and ticket of an HSUB
  blk : Nat                 -- slice offset of the block
  words : List Nat          -- words 0 to 9
  started : Bool
  tabs : List (Bool × Nat × List Byte)   -- table bytes awaited from the host: destination?, offset, bytes
  src : List (Nat × Nat)    -- source pieces: address and length
  dst : List (Nat × Nat)
  rd : Nat                  -- source bytes requested
  chunks : List Chunk       -- chunks in staging
  wr : Nat                  -- destination bytes written in whole chunks
  all : List Byte           -- source bytes so far, where a running check needs them
  handle : Nat
  errAddr : Nat
  eccWords : Nat
  status : Option Nat       -- the status it ends with
  ended : Bool              -- its completion is in the collector
  pid : Option Nat          -- the packet a hardware channel moves
deriving DecidableEq, Repr

/-- The haul engines: the commands in submission order, and the collector slot last drained (R462). -/
structure HaulSt where
  cmds : List HaulCmd
  nextId : Nat
  turn : Nat                -- collector slot drained last (R462)
  rdTurn : Nat              -- channel that the read engine served last (R392)
  wrTurn : Nat              -- channel that the write engine served last
deriving DecidableEq, Repr
/-! ## Storage and DRAM -/

/-- A flash operation in a die's queue (R411 to R416). -/
structure FlashOp where
  chan : Nat
  index : Nat               -- its position in the operation ring
  entry : List Byte         -- the 64-byte entry
  started : Bool            -- command cycles have begun
  busy : Bool               -- its die is busy
  step : Nat                -- ladder step of the read in progress
  good : List Nat           -- codewords corrected so far
  bad : List Nat            -- codewords that failed to decode in this step
  goodStep : Nat            -- STEP: step at which the last codeword was corrected
  bits : Nat                -- greatest bit errors corrected in one codeword
  fails : Nat               -- erase failures so far
  timeouts : Nat            -- time-outs of the die within this operation
  word2 : Nat               -- completion word 2
  haul : Nat                -- haul status of its data transfer
  count : Nat               -- bytes written to DATA
  uncorr : Nat              -- codewords not corrected
  status : Option Nat       -- STATUS, once the operation is over
deriving DecidableEq, Repr

/-- One flash channel beside its registers. -/
structure FlashChan where
  prod : Nat × Nat          -- producer position last written to FLASH_DB: index and lap
  reread : Bool             -- the next entry mismatched its PHASE and is read once more (R410)
  stopped : Bool            -- the ring stopped on an error (R410)
  page : Nat                -- bytes of a page with spare, from the parameter page (R409, R415)
  late : List Nat           -- dies whose last operation timed out (R416)
deriving DecidableEq, Repr

/-- What a flash channel has put on its bus: the operation, where, and the bytes sent with it. -/
structure FlashBus where
  chan : Nat
  die : Nat
  op : Nat                  -- OP of R412
  row : Nat                 -- row address, or the feature or ID address
  planes : Nat              -- plane mask of a PROGRAM or ERASE, else 0
  data : List Byte
deriving DecidableEq, Repr

/-- An NVMe controller's register page (R419). -/
structure NvmePage where
  cc : Nat
  aqa : Nat
  asq : Nat
  acq : Nat
deriving DecidableEq, Repr

/-- The storage units of a bench beside their registers. -/
structure StorageSt where
  chans : List (Nat × FlashChan)
  ops : List FlashOp        -- operations fetched and not yet reported, in ring order
  log : List (Nat × Nat)    -- MEDIA_LOG records
  logSeq : Nat
  logHeld : Nat             -- word 1 of the record whose word 0 was read
  pages : List (Nat × NvmePage)
  msgs : List (List DWord)  -- NVMe messages that wait for channel 4
  shed : Bool               -- PWRFAIL_N has fallen: fetching has stopped (R426)
  bus : List FlashBus       -- commands put on the flash buses, oldest first
deriving DecidableEq, Repr

/-- What a DRAM request serves (R438). -/
inductive DramUse where
  | load (thread : Nat)             -- LDD: the thread 8c + t blocks on it
  | store (thread : Nat)            -- STD, posted
  | ticketLoad (thread ticket : Nat)    -- LDDL
  | ticketStore (thread ticket : Nat)   -- STDL
  | nobody (core : Nat)             -- a thread of the core that has ended: the result is discarded
deriving DecidableEq, Repr

/-- A request at the DRAM controller, or waiting for it at its core (R276, R438, R439). -/
structure DramReq where
  use : DramUse
  write : Bool
  addr : Nat                -- DRAM view offset
  len : Nat
  data : List Byte          -- bytes to write, or the bytes a read returned
  held : Bool               -- its thread waits for a place in the core's write queue (R276)
  queued : Bool             -- in the controller's request queue of 64
  sx : Bool                 -- a load that sign-extends
  since : Nat               -- pipeline cycle at which it entered the queue
  issued : Bool
  reread : Bool             -- issued once more after an uncorrectable read (R443)
  done : Bool               -- returned or committed
  bad : Bool                -- it returned the bus error
deriving DecidableEq, Repr

/-- The DRAM subchannel of a bench beside its registers and contents. -/
structure DramSt where
  reqs : List DramReq       -- requests in order of arrival
  log : List (Nat × Nat)    -- DRAM_ERR_LOG records
  logSeq : Nat
  logHeld : Nat
  poison : List Nat         -- lines (DRAM view offset / 64) that hold the check value POISON
  checks : List (Nat × List Byte)   -- lines written in ECC test mode with their check bytes (R445)
  lost : List Nat           -- lines whose failed write left them unreadable (R444)
  retained : Bool           -- kept in self-refresh while the bench was OFF (R48, R436)
  saved : Bool              -- write DQ delays saved in the hub (R441)
  kept : List Nat           -- DRAM_CFG, RANK_MAP and XOR masks of the last GO
  refresh : Nat             -- bank index refreshed next (R440)
  moved : List (Nat × List Byte)    -- lines written since a migration moved them, with what the old rank holds (R447)
deriving DecidableEq, Repr

/-! ## The hub: endpoints and interrupts -/

/-- What a TLP of the device is (R30, R339, R341). -/
inductive TlpKind where
  | write | read | completion | interrupt | message
deriving DecidableEq, Repr

/-- A TLP that the device sends, or waits to send. `fn` is the function's key (port, PF or VF, index). -/
structure Tlp where
  kind : TlpKind
  fn : Nat
  addr : Nat
  data : List Byte
  len : Nat                 -- bytes that a read asks for
  tag : Nat
  pasid : Option Nat
  ep : Bool
  status : Nat              -- completions: 0 SC, 1 UR, 2 CA, 3 CRS
  cmd : Option Nat          -- haul command it serves
deriving DecidableEq, Repr

/-- A function's configuration space as far as a rule of spec/ reads it (R331). Keys: `fnKey`. -/
structure FnSt where
  bme : Bool
  msixEn : Bool
  fnMask : Bool
  msiEn : Bool
  pasidEn : Bool
  tag10 : Bool
  tag14 : Bool
  mps : Nat                 -- Max_Payload_Size encoding
  mrrs : Nat                -- Max_Read_Request_Size encoding
  cto : Nat                 -- Completion Timeout Value
  d3hot : Bool
  vfEnable : Bool
  numVfs : Nat
  bar0 : Nat
  bar2 : Nat
  bar4 : Nat
  pmeEn : Bool
  pmeStatus : Bool
  msiData : Nat
  msiAddr : Nat
  msiMask : Nat
  msiCount : Nat            -- 2^msiCount MSI vectors are enabled (R340)
  relaxed : Bool            -- Relaxed Ordering, No Snoop and ID-Based Ordering of requests and completions
  noSnoop : Bool
  idoReq : Bool
  idoCpl : Bool
  errRep : Nat              -- error reporting enables: correctable, non-fatal, fatal
  pageSize : Nat            -- SR-IOV System Page Size
  vfBar0 : Nat
  vfBar2 : Nat
  vfBar4 : Nat
  acs : Nat                 -- ACS Control
  flr : Bool                -- in function-level reset (R348)
  aer : List Nat            -- AER errors logged, by row of R350
  aerMask : List Nat        -- rows that are masked
  aerFatal : List Nat       -- uncorrectable rows whose severity is fatal
  header : Option (Nat × List Nat)   -- the header log: its row and its words
  pend : List (Nat × Option BenchId)   -- vectors whose pending bit is set (R341), and the bench that raised each (R30)
deriving DecidableEq, Repr

/-- An MSI-X table entry (R340). -/
structure MsixEnt where
  addr : Nat
  data : Nat
  mask : Bool
deriving DecidableEq, Repr

/-- Flow-control credits: posted headers, non-posted headers, bytes of posted data (R333). -/
structure Credits where
  ph : Nat
  nph : Nat
  pd : Nat
deriving DecidableEq, Repr

/-- A link of a host port beside its LINK_STATUS register. -/
structure LinkSt where
  training : Bool           -- the endpoint trains the link (R542)
  retrain : Bool            -- the host asked for a retrain, which may raise the rate and width again (R327)
  borrower : Nat            -- last bench that borrowed a window (R31)
  ph : Nat                  -- flow-control credits the host advertised, 0 infinite (R333): posted headers,
  nph : Nat                 -- non-posted headers,
  pd : Nat                  -- posted data in bytes,
  npd : Nat                 -- non-posted data in bytes
  spent : List (Nat × Credits)   -- credits that each bench has consumed and the host has not returned
deriving DecidableEq, Repr

/-- A record of the FN_EVENT queue (R355). -/
structure FnEvent where
  idx : Nat
  vf : Bool
  link : Nat
  kind : Nat
  seq : Nat
deriving DecidableEq, Repr


/-- When the cut graph last admitted a header, and a first cut (R96, R99): pipeline cycles. -/
structure CutSt where
  last : Option Nat
  first : Option Nat
deriving DecidableEq, Repr

/-! ## The bench as a whole -/

/-- One bench (R23). Registers, their shadows and the windows are sparse; what a key that is not listed reads as is
the reset word of the register map, and 0 for memory (R46: every SRAM and table is cleared when a bench starts). -/
structure Bench where
  power : Power
  cyc : Nat                        -- pipeline cycles since RUNNING (R96)
  regs : List (Nat × Word)         -- bench offset, register word
  shadow : List (Nat × Word)       -- shadows of WS registers (R13)
  mem : List Host.Cell             -- bench offset, byte of the windows of R36
  keys : List Host.Cell            -- key slots: GCM slot i at 48 i, XTS slot n at 1 MiB + 64 n (R202, R207)
  tal : List (Nat × Nat)           -- tallies by TALLY_ID word 0 (R531, R532)
  seqs : List (Nat × Nat)          -- commit and record counts of RC status registers
  ports : List (Nat × PortSt)
  time : TimeSt
  pkts : List Pkt
  nextPid : Nat
  out : List TxOut
  wheel : CutSt
  mt : MatchSt
  ci : CipherSt
  tm : TmSt
  hop : HopperSt
  eng : EngineSt
  rings : RingSt
  haul : HaulSt
  sto : StorageSt
  dram : DramSt
  reads : List HostRead
  tlps : List Tlp                  -- TLPs of the bench waiting for its window (R30)
  evq : List Nat                   -- events raised by the command in progress, handed to the interrupt unit when it ends
  free : Nat                       -- the model's own: free values taken (see Config.freeValue)
deriving DecidableEq, Repr

/-- Ryuner's read of the next entry of an admin queue (R484). -/
inductive EntryRead where
  | idle
  | asked (id : Nat)        -- under way
  | got (ws : List Nat)     -- its words
  | failed                  -- it failed (R343, R345)
deriving DecidableEq, Repr

/-- An admin queue pair (R384, R484). -/
structure AdminPair where
  sqBase : Nat
  cqBase : Nat
  sqSize : Nat              -- 2^sqSize entries
  cqSize : Nat
  vector : Nat
  sqHost : Nat × Nat        -- host position: index and lap
  sqDev : Nat × Nat
  cqHost : Nat × Nat
  cqDev : Nat × Nat
  entry : EntryRead
  reread : Bool             -- the next entry mismatched its PHASE once
  held : List (List Nat)    -- completions that wait for Bus Master Enable, words 0 to 3 without PHASE (R480)
deriving DecidableEq, Repr

/-- A host mailbox (R475, R476): PF mailbox 8p + f, or claim mailbox 16 + d. -/
structure Mailbox where
  live : Bool               -- a claim mailbox is LIVE while its claim exists (R474)
  fn : Nat                  -- key of the function that owns it
  pasid : Option Nat        -- PASID of its claim (R359, R482)
  inq : List Word
  outq : List Word
  collided : Bool
  busy : Bool
  ack : Option Word         -- ACK written and not yet read
  seq : Nat
  dbFm : Nat
  maskFm : Nat
  dbHost : Nat
  maskHost : Nat
  hostVec : Nat
  admin : Option AdminPair
  adminErr : Bool
  notices : List (List Nat) -- notice queue of R490, four words each
  noticeLost : Bool
deriving DecidableEq, Repr

/-- An engine port of the mailbox block (R314, R481). -/
structure EnginePort where
  toFm : List Word
  fromFm : List Word
  dbFm : Nat
  maskFm : Nat
  dbBench : Nat
  maskBench : Nat
deriving DecidableEq, Repr

/-- A Sceune command that Ryuner has accepted (R482, R488). -/
structure Sceune where
  id : Nat                  -- numbers the accepted commands
  mbx : Nat                 -- mailbox of the caller
  admin : Bool              -- it came from the admin queue
  cmdId : Nat
  opcode : Nat
  ops : List Nat            -- operand words
  asked : Nat               -- bytes of HADDR that its reads have asked for
  parts : List (Nat × List Byte)   -- what has arrived of them, by offset
  failed : Bool             -- one of its reads failed (R343, R345)
  data : List Byte          -- what it has read from host memory, once it has begun
  sqPos : Nat × Nat         -- position after its submission entry
  begun : Bool              -- its effect has begun, and a later event ends it
  dead : Bool               -- its mailbox was cleared: result and ACK are discarded (R480)
deriving DecidableEq, Repr

/-- A bench's learning policy (R491). -/
structure LearnPolicy where
  policy : Nat
  pinMs : Nat
  queues : List Nat
  inserted : Nat
  ignored : Nat
  changed : List (Nat × Stamp)   -- slot, ingress time of its entry's last learned change
deriving DecidableEq, Repr

/-- The fuses (R493). A field that has not been programmed is none. -/
structure Fuses where
  vendorId : Nat
  serial : Nat
  deviceSecret : Nat
  kysinBoot : Nat
  kysinDebug : Nat
  ownerBoot : Nat
  ownerDebug : Nat
  ownerKek : Nat
  svn : Nat                 -- count of blown bits
  secure : Bool
  ret : Bool
  scrap : Bool
deriving DecidableEq, Repr

/-- The power state of the device (R515 to R517). -/
inductive PowerState where
  | d0 | d3hot | d3cold
deriving DecidableEq, Repr

/-- The running Ryuner image (R498). -/
structure Image where
  svn : Nat
  version : Nat
  measurement : Nat
deriving DecidableEq, Repr

/-- An operation of the sealing engine (R503, R505). -/
structure SealOp where
  op : Nat
  result : Nat
  out : List Word
  key : List Byte           -- the plaintext of an unwrap that passed its checks, for the target's key port
deriving DecidableEq, Repr

/-- The side port and its wake-pattern detector (R85, R86, R518). -/
structure SideSt where
  rx : List (List Byte × Bool)   -- frames handed to the Foreman: bytes, OVERSIZE
  out : List TxOut          -- frames that left the port
  port : PortSt             -- what the face keeps for the port beside its registers
  retained : Option (Nat × Nat × Bool)   -- AUX copies: station entry 0's two words and SIDE_SRC
deriving DecidableEq, Repr

/-- The ordering code of the part (R4). -/
inductive Part where
  | fc | fe | nf
deriving DecidableEq, Repr

/-- The Foreman, Ryuner, the mailbox block, the fuses, the debug sessions, the sealing engine and the device's power. -/
structure Firmware where
  part : Part
  mbx : List (Nat × Mailbox)
  ports : List (Nat × EnginePort)
  cmds : List Sceune        -- accepted and not yet ended, in acceptance order
  cmdNo : Nat               -- number of the next command, or read of an admin entry
  managers : List Nat       -- function keys of the manager PFs
  policies : List (Nat × LearnPolicy)
  names : List (Nat × (Bool × Nat))   -- namespaces 64 n + NS: REMOTE and SIZE
  fuses : Fuses
  lc : Nat                  -- lifecycle state in force (R494)
  pendingLc : Bool
  fuseBad : Nat
  locked : Bool             -- BOOT_LOCK
  image : Option Image      -- the image Ryuner runs
  secrets : Bool            -- the SECRETS region holds the alias key
  opened : Bool             -- a session has opened since the last power-on reset
  openedFull : Bool
  sealing : Option SealOp      -- the operation whose result is not yet ready
  sealRes : List Word       -- SEAL_OUT of the last result, not yet released by a read of SEAL_STATUS
  sealOut : List (Option Word)   -- SEAL_OUT words that may still be read
  wdog : Nat                -- ticks since the last KICK of the Foreman watchdog (R550)
  side : SideSt
  power : PowerState
  por : Bool                -- held in power-on reset
  hubUp : Bool              -- hub clocks locked and crossings trained (R541)
  pwrfail : Bool            -- PWRFAIL_N is low
  wakeArmed : Bool
  wakeN : Bool              -- WAKE_N is driven low
  thermTrip : Bool          -- THERMTRIP_N is driven low
  warnArmed : Bool          -- event 642 may be raised again
  turnOff : List Nat        -- links that have received PME_Turn_Off
  perst : List Nat          -- ports whose PERST# is low
  hubSrc : Nat              -- HUB_CLK_SRC as last written, in force at the next hub reset (R55)
deriving DecidableEq, Repr




/-- The hub (R24). -/
structure Hub where
  regs : List (Nat × Word)         -- hub offset, register word
  shadow : List (Nat × Word)       -- WS shadows of the window tables (R338)
  mem : List Host.Cell             -- hub address, byte: Foreman SRAM (R34)
  tal : List (Nat × Nat)           -- hub tallies
  seqs : List (Nat × Nat)
  fns : List (Nat × FnSt)
  msix : List (Nat × MsixEnt)      -- function key * 2048 + vector
  links : List (Nat × LinkSt)      -- 2 port + link
  fnq : List (Nat × List FnEvent)  -- FN_EVENT queue of each port
  fnSeq : List (Nat × Nat)
  inq : List (Nat × List (Bool × Nat))   -- queues of host requests (R334): 17 link + bench, 16 the hub's; posted? and data bytes, oldest first
  tlps : List (Nat × Tlp)          -- TLPs of the hub: window (bench number), TLP (R332)
  wire : List (Nat × Tlp)          -- TLPs placed on the links: link, TLP
  fmInts : Nat                     -- event interrupts raised to the Foreman (R527)
  starts : List (Nat × Nat)        -- held START writes: bench, value (R544)
  switchBusy : Bool                -- less than 100 µs since the last switch closure (R544)
  cyc : Nat                        -- pipeline-cycle times since power-on reset or hub fault reset ended (R526)
  free : Nat                       -- the model's own: free values the hub has taken (see Config.freeValue)
  fw : Firmware
deriving DecidableEq, Repr



/-- The whole device without its command queue. `answer` is what the last read command returned to its requester. -/
structure Device where
  hub : Hub
  benches : Vector Bench 16
  answer : List Nat
deriving DecidableEq, Repr

/-- The machine: the device and the commands that wait, first in, first out. -/
structure State where
  pending : List Instr
  dev : Device
deriving DecidableEq, Repr

/-- Why the machine stops with a fault: never, in this model; every command the spec gives an effect has one. -/
inductive Fault where
  /-- Raised by nobody: kept so that the type has a value. Safe. -/
  | none
deriving DecidableEq, Repr

/-- Why a command is refused. -/
inductive Refusal where
  /-- Raised by `exec` for a command that has no meaning yet. Safe: the machine stops. -/
  | notModelled (mnemonic : String)
deriving DecidableEq, Repr

/-! ## The machine right after reset -/

/-- The power domain of a bench that is OFF (R44, R53). -/
def Power.off : Power :=
  { st := .off, profile := 0, portMode := 0, hostLink := 0, dramEn := false, flashEn := false, railsUp := false,
    pllsUp := false, cleared := false, drainCut := false, retain := false }

/-- A bench with nothing in it: registers and tables as a start leaves them (R46, R531), under a power state. `free` is
the model's count of free values taken. [DESIGN CHOICE, log 5, unsafe; DESIGN CHOICE, log 143, unsafe] -/
def Bench.blank (p : Power) (free : Nat) : Bench :=
  { power := p, cyc := 0, regs := [], shadow := [], mem := [], keys := [], tal := [], seqs := [], ports := [],
    time := { sec := 0, ns := 0, frac := 0, pps := none, ppsHeld := [], freq := none, ppsOut := false, ppsAt := 0 },
    pkts := [], nextPid := 0, out := [], wheel := { last := none, first := none },
    mt := { opq := [], learnq := [], filter := [], learnSeq := 0 },
    ci := { lastBad := [], restarting := false, queue := [], notices := [] },
    tm := { side := [], flow := [], hostQ := [], vtag := [], ftag := [], newWeight := [], classWeight := [], shaper := [], shapeCfg := [],
            shapedAt := [], gates := [], refresh := 0, lastOut := [] },
    hop := { building := false, lowFired := [], log := [], logSeq := 0, logHeld := 0, lost := [] },
    eng := { threads := [], chans := [], inboxMsgs := [], blocked := [], wedges := [], notices := [], used := [], faultSlots := [],
             stallSlot := [], doorSlot := 0, mbx := [] },
    rings := { claims := [], fetches := [], sends := [], recvs := [], cpls := [], faults := [], faultSeq := 0,
               cqCount := [], credit := [], lastClaim := 0, lastRing := [], held := [] },
    haul := { cmds := [], nextId := 0, turn := 0, rdTurn := 63, wrTurn := 63 },
    sto := { chans := [], ops := [], log := [], logSeq := 0, logHeld := 0, pages := [], msgs := [], shed := false,
             bus := [] },
    dram := { reqs := [], log := [], logSeq := 0, logHeld := 0, poison := [], checks := [], lost := [],
              retained := false, saved := false, kept := [], refresh := 0, moved := [] },
    reads := [], tlps := [], evq := [], free := free }

/-- The fuses as a part without any programmed field reads them (R493). The part's own values are its maker's. [DESIGN CHOICE, log 7, unsafe] -/
def Fuses.blank : Fuses :=
  { vendorId := 0, serial := 0, deviceSecret := 0, kysinBoot := 0, kysinDebug := 0, ownerBoot := 0, ownerDebug := 0,
    ownerKek := 0, svn := 0, secure := false, ret := false, scrap := false }

/-- The port registers' state of a port that nothing has touched. -/
def PortSt.idle : PortSt :=
  { fails := 0, retrain := false, disabling := false, rxPid := none, txPid := none, pauseQuanta := 0, pfcQuanta := [],
    reqs := 0, adv := 0, mode := 0, tmReqs := 0, tsq := [], tsHeld := [], an := 0, faults := false, owed := 0, fell := 0, looped := [],
    loopBad := false }

/-- The side port's detector with no pattern programmed. -/
def SideSt.blank : SideSt := { rx := [], out := [], port := PortSt.idle, retained := none }

/-- The firmware's state of a part whose fuses and ordering code are given, held in power-on reset. [DESIGN CHOICE, log 6, unsafe] -/
def Firmware.blank (part : Part) (f : Fuses) : Firmware :=
  { part := part, mbx := [], ports := [], cmds := [], cmdNo := 0, managers := [], policies := [], names := [], fuses := f, lc := 0,
    pendingLc := false, fuseBad := 0, locked := false, image := none, secrets := false,
    opened := false, openedFull := false, sealing := none, sealRes := [], sealOut := [], wdog := 0, side := SideSt.blank, power := .d0, por := true,
    hubUp := false, pwrfail := false, wakeArmed := false, wakeN := false, thermTrip := false, warnArmed := true,
    turnOff := [], perst := [0, 1], hubSrc := 0 }

/-- The hub at power-on reset: every register at its reset word, every tally 0, the memories cleared (R531, R541). -/
def Hub.blank (fw : Firmware) : Hub :=
  { regs := [], shadow := [], mem := [], tal := [], seqs := [], fns := [], msix := [], links := [], fnq := [],
    fnSeq := [], inq := [], tlps := [], wire := [], fmInts := 0, starts := [], switchBusy := false, cyc := 0, free := 0, fw := fw }

/-- The machine right after reset: the device held in power-on reset, every bench OFF (R44, R538), no command waiting. [DESIGN CHOICE, log 6, unsafe; DESIGN CHOICE, log 7, unsafe; DESIGN CHOICE, log 8, safe] -/
def State.reset : State :=
  { pending := []
    dev := { hub := Hub.blank (Firmware.blank .fc Fuses.blank)
             benches := Vector.replicate 16 (Bench.blank Power.off 0)
             answer := [] } }

end Sys2Proof.Machine
end

