-- ==== Sys2Proof/Machine/Tallies.lean ====
section
/-! DEFINITION. The tallies: the numbering of R532 and R533 (unit, index within the unit, instance), a name for every
tally, and the tally of every spoil code (R537). A bench tally's key is word 0 of its TALLY_ID without BENCH and HUB; a
hub tally's key keeps BENCH for the four tallies that R533 keeps per bench. -/
namespace Sys2Proof.Machine

/-- Word 0 of a TALLY_ID from its parts (R532). -/
def tallyKey (unit index inst : Nat) : Nat := inst % 2 ^ 14 + 2 ^ 14 * index + 2 ^ 22 * unit

/-- The instance, the index and the unit that a TALLY_ID names (R532). -/
def tallyKeyOf (id : Nat) : Nat := id % 2 ^ 27

namespace T

/-- The RSVD_WRITE tally of a unit (R533: INDEX 0). -/
def RSVD_WRITE (unit : Nat) : Nat := tallyKey unit 0 0
/-- The ADDR_MISS tally of a unit (R533: INDEX 1). -/
def ADDR_MISS (unit : Nat) : Nat := tallyKey unit 1 0

/-! Bench unit 0 (R533). -/
def CFG_REFUSED : Nat := tallyKey 0 2 0
def COMMIT_STATUS_LOST : Nat := tallyKey 0 3 0
def ISOLATION_REFUSED : Nat := tallyKey 0 4 0
def GRAPH_WRITE_REFUSED : Nat := tallyKey 0 5 0
def WHEEL_LENT : Nat := tallyKey 0 6 0
def WHEEL_BORROWED : Nat := tallyKey 0 7 0
def HOST_REQ_DROP : Nat := tallyKey 0 8 0
def RESULT_DISCARDED : Nat := tallyKey 0 9 0
def KEY_REFUSED : Nat := tallyKey 0 10 0
def CE_TOTAL (k : Nat) : Nat := tallyKey 0 11 k
def CE_OVERFLOW (k : Nat) : Nat := tallyKey 0 12 k
/-! Bench unit 1 (R533). -/
def RX_FRAMES (k : Nat) : Nat := tallyKey 1 13 k
def RX_BYTES (k : Nat) : Nat := tallyKey 1 14 k
def TX_FRAMES (k : Nat) : Nat := tallyKey 1 15 k
def TX_BYTES (k : Nat) : Nat := tallyKey 1 16 k
def RX_OVERSIZE (k : Nat) : Nat := tallyKey 1 17 k
def STATION_HIT (k : Nat) : Nat := tallyKey 1 18 k
def TX_BAD_FORWARD (k : Nat) : Nat := tallyKey 1 19 k
def FEC_CORRECTED (k : Nat) : Nat := tallyKey 1 20 k
def FEC_UNCORRECTED (k : Nat) : Nat := tallyKey 1 21 k
def PAUSE_RX (k : Nat) : Nat := tallyKey 1 22 k
def PAUSE_TX (k : Nat) : Nat := tallyKey 1 23 k
def PFC_RX (k : Nat) : Nat := tallyKey 1 24 k
def PFC_TX (k : Nat) : Nat := tallyKey 1 25 k
def PFC_IGNORED (k : Nat) : Nat := tallyKey 1 26 k
def TRAIN_RETRY (k : Nat) : Nat := tallyKey 1 27 k
def LINK_RETRAIN_OK (k : Nat) : Nat := tallyKey 1 28 k
def AN_NO_MATCH (k : Nat) : Nat := tallyKey 1 29 k
def ONESTEP_SKIPPED (k : Nat) : Nat := tallyKey 1 30 k
def TX_TS_LOST (k : Nat) : Nat := tallyKey 1 31 k
def TS_EARLY_READ (k : Nat) : Nat := tallyKey 1 32 k
def PPS_IN_OVERRUN : Nat := tallyKey 1 33 0
def TIME_EARLY_READ : Nat := tallyKey 1 34 0
/-! Bench unit 2 (R533). -/
def FIRST_CUTS : Nat := tallyKey 2 5 0
def SECOND_CUTS : Nat := tallyKey 2 6 0
def PARSE_NO_NEXT : Nat := tallyKey 2 7 0
def PARSE_TRUNC : Nat := tallyKey 2 8 0
def PARSE_WINDOW_END : Nat := tallyKey 2 9 0
def PARSE_HOP_LIMIT : Nat := tallyKey 2 10 0
def PARSE_FRAG_FIRST : Nat := tallyKey 2 11 0
def PARSE_FRAG_LATER : Nat := tallyKey 2 12 0
def HOST_ENTRY_FULL : Nat := tallyKey 2 13 0
/-! Bench unit 3 (R533). -/
def HITS (k : Nat) : Nat := tallyKey 3 5 k
def MISSES (k : Nat) : Nat := tallyKey 3 6 k
def INSERT_NO_ROOM : Nat := tallyKey 3 7 0
def TABLE_OP_REFUSED : Nat := tallyKey 3 8 0
def TABLE_OP_ECC : Nat := tallyKey 3 9 0
def TABLE_WINDOW_WRITE : Nat := tallyKey 3 10 0
def LEARN_SPOILED : Nat := tallyKey 3 11 0
def LEARN_SUPPRESSED : Nat := tallyKey 3 12 0
def LEARN_FILTER_EVICT : Nat := tallyKey 3 13 0
def LEARN_LOST : Nat := tallyKey 3 14 0
/-! Bench unit 4 (R533). -/
def SECOND_CUT_SENT : Nat := tallyKey 4 17 0
def EDITS : Nat := tallyKey 4 18 0
def FIXUP_DEFERRED : Nat := tallyKey 4 19 0
def MIRROR_COPIES (k : Nat) : Nat := tallyKey 4 20 k
def MIRROR_OFF (k : Nat) : Nat := tallyKey 4 21 k
def GEN_SWAPS : Nat := tallyKey 4 22 0
def GEN_SWAP_REFUSED : Nat := tallyKey 4 23 0
/-! Bench unit 5 (R533). -/
def ENCRYPTED : Nat := tallyKey 5 17 0
def DECRYPTED : Nat := tallyKey 5 18 0
def CIPHER_FAULT_TRANSIENT : Nat := tallyKey 5 19 0
def SA_WRITE_REFUSED : Nat := tallyKey 5 20 0
def SA_WINDOW_WRITE : Nat := tallyKey 5 21 0
def SA_NOTICE_LOST : Nat := tallyKey 5 22 0
def SA_PKTS (k : Nat) : Nat := tallyKey 5 23 k
def SA_OCTETS (k : Nat) : Nat := tallyKey 5 24 k
def SA_AUTH_FAIL (k : Nat) : Nat := tallyKey 5 25 k
def SA_REPLAY (k : Nat) : Nat := tallyKey 5 26 k
/-! Bench unit 6 (R533). -/
def GREEN : Nat := tallyKey 6 14 0
def YELLOW : Nat := tallyKey 6 15 0
def RED : Nat := tallyKey 6 16 0
def METER_REFUND : Nat := tallyKey 6 17 0
def WEIGHT_REFUSED : Nat := tallyKey 6 18 0
def TM_WRITE_REFUSED : Nat := tallyKey 6 19 0
def TM_WINDOW_WRITE : Nat := tallyKey 6 20 0
def GATE_TAKEOVER : Nat := tallyKey 6 21 0
def GATE_START_PAST : Nat := tallyKey 6 22 0
def GATE_TIME_STEP : Nat := tallyKey 6 23 0
def GATE_OVERRUN : Nat := tallyKey 6 24 0
def GATE_WRITE_REFUSED : Nat := tallyKey 6 25 0
/-! Bench unit 7 (R533). -/
def GRANTS (k : Nat) : Nat := tallyKey 7 2 k
def FREES (k : Nat) : Nat := tallyKey 7 3 k
def EMPTY_FACE (k : Nat) : Nat := tallyKey 7 4 k
def EMPTY_HAUL_W (k : Nat) : Nat := tallyKey 7 5 k
def EMPTY_HAUL_R (k : Nat) : Nat := tallyKey 7 6 k
def EMPTY_ENGINE (k : Nat) : Nat := tallyKey 7 7 k
def EMPTY_RYUNER (k : Nat) : Nat := tallyKey 7 8 k
def HOPPER_BAD_HANDLE : Nat := tallyKey 7 9 0
def HOPPER_DOUBLE_FREE : Nat := tallyKey 7 10 0
def HOPPER_FOREIGN_FREE : Nat := tallyKey 7 11 0
def HOPPER_EARLY_FREE : Nat := tallyKey 7 12 0
def HOPPER_NOT_SHARED : Nat := tallyKey 7 13 0
def HOPPER_LOG_LOST : Nat := tallyKey 7 14 0
def HOPPER_WINDOW_WRITE : Nat := tallyKey 7 15 0
def BUFFERS_LOST : Nat := tallyKey 7 16 0
/-! Bench unit 8 (R533). -/
def ISSUED (k : Nat) : Nat := tallyKey 8 2 k
def IDLE_SLOTS (k : Nat) : Nat := tallyKey 8 3 k
def FAULT (k : Nat) : Nat := tallyKey 8 4 k
def IMEM_WRITE_REFUSED : Nat := tallyKey 8 5 0
def INBOX_FLUSHED : Nat := tallyKey 8 6 0
def THREAD_CMD_IGNORED : Nat := tallyKey 8 7 0
def CHAN_PARTIAL_DISCARD : Nat := tallyKey 8 8 0
def CHAN_READ_ABANDON : Nat := tallyKey 8 9 0
def WEDGE_FORCED_RELEASE : Nat := tallyKey 8 10 0
def WEDGE_BAD_RELEASE : Nat := tallyKey 8 11 0
def STALL_WATCH : Nat := tallyKey 8 12 0
def MBOX_REFUSED : Nat := tallyKey 8 13 0
def MBOX_EMPTY_READ : Nat := tallyKey 8 14 0
def DBG_REFUSED : Nat := tallyKey 8 15 0
def FORKS (k : Nat) : Nat := tallyKey 8 16 k
def FORK_REFUSED (k : Nat) : Nat := tallyKey 8 17 k
/-! Bench unit 9 (R533). -/
def DOORBELL_MISS : Nat := tallyKey 9 14 0
def DESC_PHASE_RETRY : Nat := tallyKey 9 15 0
def RX_TRUNCATED : Nat := tallyKey 9 16 0
def CPL_DISCARDED : Nat := tallyKey 9 17 0
def CQ_STALL_CYCLES : Nat := tallyKey 9 18 0
def CLAIM_CMD_REFUSED : Nat := tallyKey 9 19 0
def RING_CMD_REFUSED : Nat := tallyKey 9 20 0
def RING_WINDOW_WRITE : Nat := tallyKey 9 21 0
def RING_FAULT_LOST : Nat := tallyKey 9 22 0
/-! Bench unit 10 (R533). -/
def HAUL_CMDS (k : Nat) : Nat := tallyKey 10 2 k
def HAUL_BYTES (k : Nat) : Nat := tallyKey 10 3 k
def STAGE_WAIT (k : Nat) : Nat := tallyKey 10 4 k
def HAUL_STATUS (k : Nat) : Nat := tallyKey 10 5 k
def HAUL_OVERLAP : Nat := tallyKey 10 6 0
def HAUL_CMD_REFUSED : Nat := tallyKey 10 7 0
/-! Bench unit 11 (R533). -/
def FLASH_OPS (k : Nat) : Nat := tallyKey 11 15 k
def FLASH_BYTES (k : Nat) : Nat := tallyKey 11 16 k
def FLASH_READ_RETRY_OK : Nat := tallyKey 11 17 0
def FLASH_ERASE_RETRY_OK : Nat := tallyKey 11 18 0
def FLASH_DIE_RETRY_OK : Nat := tallyKey 11 19 0
def FLASH_WINDOW_WRITE : Nat := tallyKey 11 20 0
def NVME_REG_IGNORED : Nat := tallyKey 11 21 0
def NVME_DB_IGNORED : Nat := tallyKey 11 22 0
def NVME_CPL_REFUSED : Nat := tallyKey 11 23 0
def MEDIA_LOG_LOST : Nat := tallyKey 11 24 0
/-! Bench unit 12 (R533). -/
def DRAM_READS : Nat := tallyKey 12 2 0
def DRAM_WRITES : Nat := tallyKey 12 3 0
def DRAM_REREAD_OK : Nat := tallyKey 12 4 0
def DRAM_ALERT_OK : Nat := tallyKey 12 5 0
def DRAM_POISON_READ : Nat := tallyKey 12 6 0
def DRAM_RMW_ECC : Nat := tallyKey 12 7 0
def DRAM_MIG_POISONED : Nat := tallyKey 12 8 0
def DRAM_WRITE_LOST : Nat := tallyKey 12 9 0
def DRAM_LOG_LOST : Nat := tallyKey 12 10 0
def DRAM_SR_ENTRIES : Nat := tallyKey 12 11 0
def DRAM_REFRESH : Nat := tallyKey 12 12 0
/-! Hub unit 0 (R533). -/
def BENCH_START_REFUSED (bench : Nat) : Nat := tallyKey 0 2 0 + 2 ^ 27 * bench
def BENCH_CMD_IGNORED (bench : Nat) : Nat := tallyKey 0 3 0 + 2 ^ 27 * bench
def PROFILE_REFUSED (bench : Nat) : Nat := tallyKey 0 4 0 + 2 ^ 27 * bench
def BENCH_OFF_ACCESS (bench : Nat) : Nat := tallyKey 0 5 0 + 2 ^ 27 * bench
def FM_WDOG_RESETS : Nat := tallyKey 0 6 0
def THERMAL_WARNS : Nat := tallyKey 0 7 0
def THERMAL_TRIPS : Nat := tallyKey 0 8 0
/-! Hub unit 1 (R533). -/
def NO_FLIT (port link : Nat) : Nat := tallyKey (1 + port) 2 link
def LINK_RECOVERY (port link : Nat) : Nat := tallyKey (1 + port) 3 link
def LINK_DEGRADED (port link : Nat) : Nat := tallyKey (1 + port) 4 link
def HOST_RETRY_OK (port link : Nat) : Nat := tallyKey (1 + port) 5 link
def CPL_TIMEOUT (port link : Nat) : Nat := tallyKey (1 + port) 6 link
def UNEXPECTED_CPL (port link : Nat) : Nat := tallyKey (1 + port) 7 link
def POISON_RX (port link : Nat) : Nat := tallyKey (1 + port) 8 link
def POISON_TX (port link : Nat) : Nat := tallyKey (1 + port) 9 link
def WINDOW_WRITE_DROP (port link : Nat) : Nat := tallyKey (1 + port) 10 link
def HUB_INQ_DROP (port link : Nat) : Nat := tallyKey (1 + port) 11 link
def MSIX_MISS (port link : Nat) : Nat := tallyKey (1 + port) 12 link
def FN_EVENT_LOST (port link : Nat) : Nat := tallyKey (1 + port) 13 link
def REPLAY (port link : Nat) : Nat := tallyKey (1 + port) 14 link
/-! Hub unit 3 (R533). -/
def MBX_COLLIDED : Nat := tallyKey 3 2 0
def MBX_EARLY_READ : Nat := tallyKey 3 3 0
def MBX_EMPTY_READ : Nat := tallyKey 3 4 0
def MBX_BAD_SIZE : Nat := tallyKey 3 5 0
def MBX_HOST_REFUSED : Nat := tallyKey 3 6 0
def MBX_FM_REFUSED : Nat := tallyKey 3 7 0
def MBX_OUT_DISCARD : Nat := tallyKey 3 8 0
def MBX_DB_UNUSED : Nat := tallyKey 3 9 0
def MBX_NOTICE_LOST : Nat := tallyKey 3 10 0
/-! Hub unit 4 (R533). -/
def EVT_COUNT (k : Nat) : Nat := tallyKey 4 2 k
def EVT_ROUTE_MISS : Nat := tallyKey 4 3 0
def EVT_FOREIGN : Nat := tallyKey 4 4 0
def HUB_CE_TOTAL (k : Nat) : Nat := tallyKey 4 5 k
def HUB_CE_OVERFLOW (k : Nat) : Nat := tallyKey 4 6 k
/-! Hub unit 5 (R533). -/
def SEAL_REFUSED : Nat := tallyKey 5 2 0
def SEAL_EARLY_READ : Nat := tallyKey 5 3 0
def UNWRAP_OK : Nat := tallyKey 5 4 0
def UNWRAP_AUTH_FAIL : Nat := tallyKey 5 5 0
def DEBUG_OPENS : Nat := tallyKey 5 6 0
def DEBUG_AUTH_FAIL : Nat := tallyKey 5 7 0
def DBG_PORT_REFUSED : Nat := tallyKey 5 8 0
def FUSE_PROG_REFUSED : Nat := tallyKey 5 9 0
def PME_SENT : Nat := tallyKey 5 10 0
def WAKE_ASSERTED : Nat := tallyKey 5 11 0
/-! CFG_REFUSED and COMMIT_STATUS_LOST of the hub: R533 numbers them for the benches only, so no TALLY_ID reaches them. -/
def HUB_CFG_REFUSED : Nat := tallyKey 31 2 0
def HUB_COMMIT_STATUS_LOST : Nat := tallyKey 31 3 0

end T

/-- The tally of a spoil code: unit and INDEX by R533 and R537; `inst` is the port for face codes and 0 elsewhere. A
code that R537 does not list has no tally. -/
def spoilTally? (code inst : Nat) : Option Nat :=
  match code with
  | 0x10 => some (tallyKey 1 2 inst)
  | 0x11 => some (tallyKey 1 3 inst)
  | 0x12 => some (tallyKey 1 4 inst)
  | 0x13 => some (tallyKey 1 5 inst)
  | 0x14 => some (tallyKey 1 6 inst)
  | 0x15 => some (tallyKey 1 7 inst)
  | 0x16 => some (tallyKey 1 8 inst)
  | 0x20 => some (tallyKey 1 9 inst)
  | 0x21 => some (tallyKey 1 10 inst)
  | 0x22 => some (tallyKey 1 11 inst)
  | 0x23 => some (tallyKey 1 12 inst)
  | 0x30 => some (tallyKey 2 2 0)
  | 0x31 => some (tallyKey 2 3 0)
  | 0x32 => some (tallyKey 2 4 0)
  | 0x33 => some (tallyKey 3 2 0)
  | 0x34 => some (tallyKey 3 3 0)
  | 0x35 => some (tallyKey 3 4 0)
  | 0x50 => some (tallyKey 4 2 0)
  | 0x51 => some (tallyKey 4 3 0)
  | 0x52 => some (tallyKey 4 4 0)
  | 0x53 => some (tallyKey 4 5 0)
  | 0x54 => some (tallyKey 4 6 0)
  | 0x55 => some (tallyKey 4 7 0)
  | 0x56 => some (tallyKey 4 8 0)
  | 0x58 => some (tallyKey 4 9 0)
  | 0x59 => some (tallyKey 4 10 0)
  | 0x5A => some (tallyKey 4 11 0)
  | 0x5B => some (tallyKey 4 12 0)
  | 0x5C => some (tallyKey 4 13 0)
  | 0x5D => some (tallyKey 4 14 0)
  | 0x5E => some (tallyKey 4 15 0)
  | 0x5F => some (tallyKey 4 16 0)
  | 0x60 => some (tallyKey 5 2 0)
  | 0x61 => some (tallyKey 5 3 0)
  | 0x62 => some (tallyKey 5 4 0)
  | 0x63 => some (tallyKey 5 5 0)
  | 0x64 => some (tallyKey 5 6 0)
  | 0x65 => some (tallyKey 5 7 0)
  | 0x66 => some (tallyKey 5 8 0)
  | 0x67 => some (tallyKey 5 9 0)
  | 0x68 => some (tallyKey 5 10 0)
  | 0x69 => some (tallyKey 5 11 0)
  | 0x6A => some (tallyKey 5 12 0)
  | 0x6B => some (tallyKey 5 13 0)
  | 0x6C => some (tallyKey 5 14 0)
  | 0x6D => some (tallyKey 5 15 0)
  | 0x6E => some (tallyKey 5 16 0)
  | 0x70 => some (tallyKey 6 2 0)
  | 0x71 => some (tallyKey 6 3 0)
  | 0x72 => some (tallyKey 6 4 0)
  | 0x73 => some (tallyKey 6 5 0)
  | 0x74 => some (tallyKey 6 6 0)
  | 0x75 => some (tallyKey 6 7 0)
  | 0x76 => some (tallyKey 6 8 0)
  | 0x77 => some (tallyKey 6 9 0)
  | 0x78 => some (tallyKey 6 10 0)
  | 0x79 => some (tallyKey 6 11 0)
  | 0x7A => some (tallyKey 6 12 0)
  | 0x7B => some (tallyKey 6 13 0)
  | 0x90 => some (tallyKey 9 2 0)
  | 0x91 => some (tallyKey 9 3 0)
  | 0x92 => some (tallyKey 9 4 0)
  | 0x93 => some (tallyKey 9 5 0)
  | 0x94 => some (tallyKey 9 6 0)
  | 0x98 => some (tallyKey 9 7 0)
  | 0x99 => some (tallyKey 9 8 0)
  | 0x9A => some (tallyKey 9 9 0)
  | 0x9B => some (tallyKey 9 10 0)
  | 0x9C => some (tallyKey 9 11 0)
  | 0x9D => some (tallyKey 9 12 0)
  | 0x9E => some (tallyKey 9 13 0)
  | 0xB0 => some (tallyKey 11 2 0)
  | 0xB1 => some (tallyKey 11 3 0)
  | 0xB2 => some (tallyKey 11 4 0)
  | 0xB3 => some (tallyKey 11 5 0)
  | 0xB4 => some (tallyKey 11 6 0)
  | 0xB5 => some (tallyKey 11 7 0)
  | 0xB6 => some (tallyKey 11 8 0)
  | 0xB7 => some (tallyKey 11 9 0)
  | 0xB8 => some (tallyKey 11 10 0)
  | 0xB9 => some (tallyKey 11 11 0)
  | 0xBA => some (tallyKey 11 12 0)
  | 0xBB => some (tallyKey 11 13 0)
  | 0xBC => some (tallyKey 11 14 0)
  | _ => none

/-- How many INDEX values a bench unit has (R533). -/
def benchUnitIndices (unit : Nat) : Nat :=
  match unit with
  | 0 => 13
  | 1 => 35
  | 2 => 14
  | 3 => 15
  | 4 => 24
  | 5 => 27
  | 6 => 26
  | 7 => 17
  | 8 => 18
  | 9 => 23
  | 10 => 8
  | 11 => 25
  | 12 => 13
  | _ => 0

/-- How many INDEX values a hub unit has (R533). -/
def hubUnitIndices (unit : Nat) : Nat :=
  match unit with
  | 0 => 9
  | 1 => 15
  | 2 => 15
  | 3 => 11
  | 4 => 7
  | 5 => 12
  | 6 => 35
  | _ => 0

/-- The tallies of a bench unit beyond INDEX 0 and 1: first INDEX, how many, first INSTANCE, how many (R532, R533). -/
def benchTallies (unit : Nat) : List (Nat × Nat × Nat × Nat) :=
  match unit with
  | 0 => [(2, 9, 0, 1), (11, 2, 0, 11)]
  | 1 => [(2, 22, 0, 4), (24, 2, 0, 32), (26, 7, 0, 4), (33, 2, 0, 1)]
  | 2 => [(2, 12, 0, 1)]
  | 3 => [(2, 3, 0, 1), (5, 2, 0, 16), (7, 8, 0, 1)]
  | 4 => [(2, 18, 0, 1), (20, 2, 1, 7), (22, 2, 0, 1)]
  | 5 => [(2, 21, 0, 1), (23, 4, 0, 16384)]
  | 6 => [(2, 24, 0, 1)]
  | 7 => [(2, 7, 0, 5), (9, 8, 0, 1)]
  | 8 => [(2, 2, 0, 8), (4, 1, 1, 14), (5, 11, 0, 1), (16, 2, 0, 8)]
  | 9 => [(2, 21, 0, 1)]
  | 10 => [(2, 3, 0, 64), (5, 1, 0, 11), (5, 1, 144, 5), (5, 1, 158, 1), (6, 2, 0, 1)]
  | 11 => [(2, 13, 0, 1), (15, 2, 0, 2), (17, 8, 0, 1)]
  | 12 => [(2, 11, 0, 1)]
  | _ => []

/-- The tallies of a hub unit beyond INDEX 0 and 1: first INDEX, how many, first INSTANCE, how many (R532, R533). -/
def hubTallies (unit : Nat) : List (Nat × Nat × Nat × Nat) :=
  match unit with
  | 0 => [(2, 7, 0, 1)]
  | 1 => [(2, 13, 0, 2)]
  | 2 => [(2, 13, 0, 2)]
  | 3 => [(2, 9, 0, 1)]
  | 4 => [(2, 1, 0, 704), (3, 2, 0, 1), (5, 2, 0, 4)]
  | 5 => [(2, 10, 0, 1)]
  | 6 => [(2, 22, 0, 1), (24, 2, 0, 8), (26, 7, 0, 1), (33, 2, 0, 1)]
  | _ => []

/-- Does a list of tallies hold an INDEX and INSTANCE? INDEX 0 and 1 are the unit's RSVD_WRITE and ADDR_MISS. -/
def tallyListed (l : List (Nat × Nat × Nat × Nat)) (index inst : Nat) : Bool :=
  l ≠ [] && (if index < 2 then decide (inst = 0)
    else l.any (fun r => r.1 ≤ index && index < r.1 + r.2.1 && r.2.2.1 ≤ inst && inst < r.2.2.1 + r.2.2.2))

/-- Does word 0 of a TALLY_ID name a bench tally (R532, R533)? -/
def benchTallyNamed (id : Nat) : Bool := tallyListed (benchTallies (id / 2 ^ 22 % 32)) (id / 2 ^ 14 % 256) (id % 2 ^ 14)
/-- Does word 0 of a TALLY_ID name a hub tally? -/
def hubTallyNamed (id : Nat) : Bool := tallyListed (hubTallies (id / 2 ^ 22 % 32)) (id / 2 ^ 14 % 256) (id % 2 ^ 14)

end Sys2Proof.Machine
end

