-- ==== Sys2Proof/Machine/Ops.lean ====
section
/-! DEFINITION. The named operations over registers, memory, tallies, events and packets of a bench and of the hub, and
the combinators from which every meaning is built: a command changes one bench, or the hub, or the device, and the
events it raised go to the interrupt unit when it ends. -/
namespace Sys2Proof.Machine

/-! ## Registers -/

/-- The word a bench register holds. -/
def Bench.reg (b : Bench) (o : Nat) : Word := sparseGet benchRegReset b.regs o
/-- Put a word into a bench register. -/
def Bench.setReg (b : Bench) (o : Nat) (v : Word) : Bench := { b with regs := sparseSet benchRegReset b.regs o v }
/-- The value of a field of a bench register. -/
def Bench.fld (b : Bench) (f : Fld) : Nat := getBits (b.reg f.off).toNat f.lo f.w
/-- Put a value into a field of a bench register. -/
def Bench.setFld (b : Bench) (f : Fld) (v : Nat) : Bench :=
  b.setReg f.off (BitVec.ofNat 32 (putBits (b.reg f.off).toNat f.lo f.w v))
/-- Is the (lowest) bit of a field set? -/
def Bench.flag (b : Bench) (f : Fld) : Bool := b.fld f ≠ 0

/-- The word a hub register holds. -/
def Hub.reg (h : Hub) (o : Nat) : Word := sparseGet hubRegReset h.regs o
/-- Put a word into a hub register. -/
def Hub.setReg (h : Hub) (o : Nat) (v : Word) : Hub := { h with regs := sparseSet hubRegReset h.regs o v }
/-- The value of a field of a hub register. -/
def Hub.fld (h : Hub) (f : Fld) : Nat := getBits (h.reg f.off).toNat f.lo f.w
/-- Put a value into a field of a hub register. -/
def Hub.setFld (h : Hub) (f : Fld) (v : Nat) : Hub :=
  h.setReg f.off (BitVec.ofNat 32 (putBits (h.reg f.off).toNat f.lo f.w v))
/-- Is the (lowest) bit of a field set? -/
def Hub.flag (h : Hub) (f : Fld) : Bool := h.fld f ≠ 0

/-! ## Reserved and read-only bits (R13, R14) -/

/-- The fields of a register row that a write can act on. -/
def RegDesc.writable (r : RegDesc) : Nat := r.mask .rw + r.mask .wo + r.mask .w1c + r.mask .ws
/-- Does a write of `v` set a reserved or read-only bit, or go to a register that has no other bit? [DEDUCED, log 70, unsafe] -/
def RegDesc.rsvdHit (r : RegDesc) (v : Nat) : Bool :=
  r.writable = 0 || Nat.land v (2 ^ 32 - 1 - r.writable) ≠ 0
/-- The tally unit of the register block at a bench offset (R533): the bench and error blocks count in unit 0. [DEDUCED, log 70, unsafe] -/
def benchUnit (o : Nat) : Nat := if o / 0x10000 < 13 then o / 0x10000 else 0
/-- What a plain write leaves in a register: RW fields take the value, ones clear W1C bits. [DESIGN CHOICE, log 73, unsafe] -/
def RegDesc.written (r : RegDesc) (old v : Nat) : Nat :=
  let keep := 2 ^ 32 - 1 - r.mask .rw - Nat.land v (r.mask .w1c)
  Nat.lor (Nat.land old keep) (Nat.land v (r.mask .rw))

/-! ## Memory -/

/-- What a byte of memory that nothing has written reads as: 0 (R46 and R541 clear the memories at their start). [DESIGN CHOICE, log 5, unsafe] -/
def unwritten (_ : Nat) : Byte := 0#8

/-- One byte of a memory. -/
def memByte (m : List Host.Cell) (a : Nat) : Byte := sparseGet unwritten m a
/-- Write one byte of a memory. -/
def memSet (m : List Host.Cell) (a : Nat) (v : Byte) : List Host.Cell := sparseSet unwritten m a v
/-- `n` bytes of a memory from address `a`. -/
def memBytes (m : List Host.Cell) (a : Nat) : Nat → List Byte
  | 0 => []
  | n + 1 => memByte m a :: memBytes m (a + 1) n
/-- Write bytes to a memory from address `a` on. -/
def memWrite (m : List Host.Cell) (a : Nat) : List Byte → List Host.Cell
  | [] => m
  | b :: t => memWrite (memSet m a b) (a + 1) t
/-- The canonical form of a memory. -/
def Memory.wf (m : List Host.Cell) : Bool := sparseWf unwritten m

/-- `n` bytes of a bench's memory at a bench offset. -/
def Bench.bytes (b : Bench) (a n : Nat) : List Byte := memBytes b.mem a n
/-- Write bytes into a bench's memory. -/
def Bench.setBytes (b : Bench) (a : Nat) (l : List Byte) : Bench := { b with mem := memWrite b.mem a l }
/-- The little-endian number of `n` bytes at a bench offset (R15). -/
def Bench.le (b : Bench) (a n : Nat) : Nat := leNat (b.bytes a n)
/-- Write a number into `n` little-endian bytes at a bench offset. -/
def Bench.setLe (b : Bench) (a n v : Nat) : Bench := b.setBytes a (leBytes n v)

/-- Bits `lo` to `lo + w - 1` of the little-endian record at a bench offset (bit 32 i + j is bit j of word i). -/
def Bench.mbits (b : Bench) (base lo w : Nat) : Nat :=
  getBits (b.le (base + lo / 8) ((lo % 8 + w + 7) / 8)) (lo % 8) w
/-- Put bits into the little-endian record at a bench offset. -/
def Bench.setMbits (b : Bench) (base lo w v : Nat) : Bench :=
  let a := base + lo / 8
  let n := (lo % 8 + w + 7) / 8
  b.setLe a n (putBits (b.le a n) (lo % 8) w v)

/-! ## Tallies and events -/

/-- The greatest value of a tally (R531). -/
def tallyMax : Nat := 2 ^ 64 - 1

/-- What an unlisted tally reads as. -/
def noCount (_ : Nat) : Nat := 0

/-- Count `k` in a table of tallies: it never wraps (R531). -/
def countIn (l : List (Nat × Nat)) (key k : Nat) : List (Nat × Nat) :=
  sparseSet noCount l key (min tallyMax (sparseGet noCount l key + k))

/-- The value of a bench tally. -/
def Bench.tally (b : Bench) (key : Nat) : Nat := sparseGet noCount b.tal key
/-- Count `k` in a bench tally. -/
def Bench.count (b : Bench) (key k : Nat) : Bench := { b with tal := countIn b.tal key k }
/-- Count one in a bench tally. -/
def Bench.tick (b : Bench) (key : Nat) : Bench := b.count key 1
/-- The value of a hub tally. -/
def Hub.tally (h : Hub) (key : Nat) : Nat := sparseGet noCount h.tal key
/-- Count `k` in a hub tally. -/
def Hub.count (h : Hub) (key k : Nat) : Hub := { h with tal := countIn h.tal key k }
/-- Count one in a hub tally. -/
def Hub.tick (h : Hub) (key : Nat) : Hub := h.count key 1

/-- The number of the CE_OVERFLOW event in a bench's event list (hub event 672 + n, R526). -/
def evCeOverflow : Nat := 40

/-- Raise bench event `k` (R21): it reaches the interrupt unit when the command ends. -/
def Bench.raise (b : Bench) (k : Nat) : Bench := { b with evq := b.evq ++ [k] }

/-- A refused field value or write: it changes nothing and is tallied in CFG_REFUSED. -/
def Bench.cfgRefused (b : Bench) : Bench := b.tick T.CFG_REFUSED

/-- Count a spoil code: one in the code's own tally (R537). -/
def Bench.spoilTick (b : Bench) (code inst : Nat) : Bench :=
  match spoilTally? code inst with
  | some k => b.tick k
  | none => b

/-- A write of a reserved or read-only bit is counted in the block's RSVD_WRITE (R13, R14). [DEDUCED, log 70, unsafe] -/
def Bench.rsvd (b : Bench) (o v : Nat) : Bench :=
  match benchReg? o with
  | some r => if r.rsvdHit v then b.tick (T.RSVD_WRITE (benchUnit o)) else b
  | none => b
/-- A plain register write under the access codes of R13: a WS field goes to the shadow. -/
def Bench.plainWrite (b : Bench) (o v : Nat) : Bench :=
  match benchReg? o with
  | some r =>
    if r.mask .ws ≠ 0 then
      { b with shadow := sparseSet benchRegReset b.shadow o (BitVec.ofNat 32 (Nat.land v (r.mask .ws))) }
    else b.setReg o (BitVec.ofNat 32 (r.written (b.reg o).toNat v))
  | none => b

/-- A hub field that takes a value in its range; any other is refused. -/
def Hub.setIf (h : Hub) (ok : Bool) (f : Fld) (v : Nat) : Hub := if ok then h.setFld f v else h.tick T.HUB_CFG_REFUSED

/-- Change the firmware's state. -/
def Hub.updFw (h : Hub) (f : Firmware → Firmware) : Hub := { h with fw := f h.fw }

/-- A plain write of a hub register (R13): a WS field goes to the shadow. -/
def Hub.plainWrite (h : Hub) (o v : Nat) : Hub :=
  match hubReg? o with
  | some r =>
    if r.mask .ws ≠ 0 then { h with shadow := sparseSet hubRegReset h.shadow o (BitVec.ofNat 32 (Nat.land v (r.mask .ws))) }
    else h.setReg o (BitVec.ofNat 32 (r.written (h.reg o).toNat v))
  | none => h

/-- A command on the bus of a flash channel (R412). -/
def Bench.onBus (b : Bench) (c die op row : Nat) (data : List Byte) (planes : Nat := 0) : Bench :=
  let x : FlashBus := { chan := c, die := die, op := op, row := row, planes := planes, data := data }
  { b with sto := { b.sto with bus := b.sto.bus ++ [x] } }

/-! ## Free values -/

/-- The next free value, and the bench with its counter advanced. -/
def Bench.takeFree (b : Bench) : BitVec 64 × Bench := (Config.freeValue b.free, { b with free := b.free + 1 })

/-- The next free value of the hub, and the hub with its counter advanced. -/
def Hub.takeFree (h : Hub) : BitVec 64 × Hub := (Config.freeValue h.free, { h with free := h.free + 1 })

/-- One of the candidates that the spec does not choose between: any of them may be it. [DESIGN CHOICE, log 98, safe] -/
def Bench.anyOf (b : Bench) (l : List Nat) : Option Nat := l[(Config.freeValue b.free).toNat % l.length]?
/-- The free value of `anyOf` is used up. [DESIGN CHOICE, log 98, safe] -/
def Bench.spent (b : Bench) : Bench := { b with free := b.free + 1 }

/-! ## RC status registers (R13) -/

/-- The count of a status register's results so far. -/
def Bench.seq (b : Bench) (o : Nat) : Nat := sparseGet noCount b.seqs o
/-- Advance the count of a status register. -/
def Bench.bumpSeq (b : Bench) (o : Nat) : Bench := { b with seqs := sparseSet noCount b.seqs o (b.seq o + 1) }

/-- Place a result in a status register whose bit 0 is VALID: it replaces a result not yet read, which is then
tallied in COMMIT_STATUS_LOST; `word` is the result without VALID and SEQ, and SEQ lies at `seqLo`, `seqW` bits. -/
def Bench.postStatus (b : Bench) (o word seqLo seqW : Nat) : Bench :=
  let b := if (b.reg o).toNat % 2 = 1 then b.tick T.COMMIT_STATUS_LOST else b
  let b := b.bumpSeq o
  b.setReg o (BitVec.ofNat 32 (1 + word + b.seq o % 2 ^ seqW * 2 ^ seqLo))

/-- The count of a hub status register's results. -/
def Hub.seq (h : Hub) (o : Nat) : Nat := sparseGet noCount h.seqs o
/-- Advance the count of a hub status register. -/
def Hub.bumpSeq (h : Hub) (o : Nat) : Hub := { h with seqs := sparseSet noCount h.seqs o (h.seq o + 1) }
/-- The hub's form of `Bench.postStatus`; `lost` is the tally of a result that replaces one not yet read. -/
def Hub.postStatus (h : Hub) (o word seqLo seqW lost : Nat) : Hub :=
  let h := if (h.reg o).toNat % 2 = 1 then h.tick lost else h
  let h := h.bumpSeq o
  h.setReg o (BitVec.ofNat 32 (1 + word + h.seq o % 2 ^ seqW * 2 ^ seqLo))

/-! ## Leaky buckets (R526) -/

/-- ECC errors that an access meets: address (a bench offset) and whether the error is uncorrectable. -/
abbrev Ecc := List (Nat × Bool)

/-- Does an uncorrectable error lie in `[lo, hi)`? -/
def Ecc.unc (e : Ecc) (lo hi : Nat) : Bool := e.any (fun x => lo ≤ x.1 && x.1 < hi && x.2)
/-- The address of the last uncorrectable error in `[lo, hi)`. -/
def Ecc.lastUnc (e : Ecc) (lo hi : Nat) : Nat := (((e.filter (fun x => lo ≤ x.1 && x.1 < hi && x.2)).getLast?).map (·.1)).getD lo
/-- The correctable errors in `[lo, hi)`. -/
def Ecc.cor (e : Ecc) (lo hi : Nat) : Nat := (e.filter (fun x => lo ≤ x.1 && x.1 < hi && !x.2)).length

/-- `k` correctable errors of one cycle in the memory of bench counter `c`: each adds one to LEVEL and counts in
CE_TOTAL_c; a LEVEL then above CAPACITY overflows the counter. -/
def Bench.correctable (b : Bench) (c k : Nat) : Bench :=
  if k = 0 then b else
  let b := b.count (T.CE_TOTAL c) k
  let lvl := b.fld (R.err_CE_CFG_LEVEL c) + k
  if b.fld (R.err_CE_CFG_CAPACITY c) < lvl then
    (((b.setFld (R.err_CE_CFG_LEVEL c) 0).setFld (R.err_CE_CFG_OVERFLOW c) 1).tick (T.CE_OVERFLOW c)).setFld
      R.err_CE_LOG_COUNTER c |>.raise evCeOverflow
  else b.setFld (R.err_CE_CFG_LEVEL c) lvl

/-! ## Packets -/

/-- The packet with an id. -/
def Bench.pkt? (b : Bench) (id : Nat) : Option Pkt := b.pkts.find? (fun p => p.id = id)
/-- Change the packet with an id. -/
def Bench.updPkt (b : Bench) (id : Nat) (f : Pkt → Pkt) : Bench :=
  { b with pkts := b.pkts.map (fun p => if p.id = id then f p else p) }
/-- The first packet at a place. -/
def Bench.pktAt? (b : Bench) (l : Loc) : Option Pkt := b.pkts.find? (fun p => p.loc = l)

/-! ## Ports -/

/-- The state of port `p`. -/
def Bench.port (b : Bench) (p : Nat) : PortSt := sparseGet (fun _ => PortSt.idle) b.ports p
/-- Put the state of port `p`. -/
def Bench.setPort (b : Bench) (p : Nat) (s : PortSt) : Bench :=
  { b with ports := sparseSet (fun _ => PortSt.idle) b.ports p s }

/-- How many ports the port mode in force has (R18). -/
def portCount (mode : Nat) : Nat :=
  match mode with
  | 1 => 2
  | 2 | 6 | 7 => 1
  | _ => 4

/-- Does port `p` exist in the bench's present port mode? -/
def Bench.hasPort (b : Bench) (p : Nat) : Bool := p < portCount b.power.portMode

/-- The lanes (0 to 3 within the bench) that port `p` uses (R18). -/
def portLanes (mode p : Nat) : List Nat :=
  match mode with
  | 1 => [2 * p, 2 * p + 1]
  | 2 => [0, 1, 2, 3]
  | 6 => [0, 1]
  | 7 => [0]
  | _ => [p]

/-- A port's nominal rate in units of 10 Gbit/s times 0.1 (R58): 4000 for 400G. -/
def portRate (mode : Nat) : Nat :=
  match mode with
  | 1 | 6 => 2000
  | 2 => 4000
  | 3 => 500
  | 4 => 250
  | 5 => 100
  | _ => 1000

/-! ## The device -/

/-- Is the hub out of reset, its clocks locked and its crossings trained (R538, R541)? Until then no agent reaches a register. [DESIGN CHOICE, log 8, safe] -/
def Hub.up (h : Hub) : Bool := !h.fw.por && h.fw.hubUp


/-- The bench number as the interrupt unit numbers a bench's events (R21, R526). -/
def eventNumber (n : BenchId) (k : Nat) : Nat := if k = evCeOverflow then 672 + n.val else 40 * n.val + k

/-- The reset word of a bench's BENCH_STATUS flags of FAULT is 0; these are the bits that a START clears (R44). -/
def benchFaultFlags : List Nat := [16, 17, 19]

/-- Is a read Ryuner's? -/
def HostRead.ryuner (r : HostRead) : Bool := match r.use with | .command _ _ | .entry _ _ => true | _ => false

end Sys2Proof.Machine
end

