-- ==== Sys2Proof/Machine/Events.lean ====
section
/-! DEFINITION. Functions, interrupts and events (R340, R341, R527 to R530), and the combinators that run a command on
one bench, on the hub, or on the whole device. -/
namespace Sys2Proof.Machine

/-! ## Functions -/

/-- The key of a function: port, PF or VF, index. -/
def fnKey (port : Nat) (vf : Bool) (idx : Nat) : Nat := 4096 * port + (if vf then 2048 else 0) + idx
/-- The port of a function key. -/
def fnPort (key : Nat) : Nat := key / 4096
/-- Is the function a VF? -/
def fnVf (key : Nat) : Bool := key / 2048 % 2 = 1
/-- The index of a function key. -/
def fnIdx (key : Nat) : Nat := key % 2048

/-- A function's configuration space at its reset values (R348); the severities are those of R350. [PRESUMED, log 21, unsafe] -/
def FnSt.reset : FnSt :=
  { bme := false, msixEn := false, fnMask := false, msiEn := false, pasidEn := false, tag10 := false, tag14 := false,
    mps := 0, mrrs := 2, cto := 0, d3hot := false, vfEnable := false, numVfs := 0, bar0 := 0, bar2 := 0, bar4 := 0,
    pmeEn := false, pmeStatus := false, msiData := 0, msiAddr := 0, msiMask := 0, msiCount := 0, relaxed := true, noSnoop := true
    idoReq := false, idoCpl := false, errRep := 0, pageSize := 1, vfBar0 := 0, vfBar2 := 0, vfBar4 := 0, acs := 0, flr := false
    aer := [], aerMask := [], aerFatal := [10, 11, 12, 13, 14], header := none, pend := [] }

/-- An MSI-X table entry at reset: masked, address and data 0 (R348). -/
def MsixEnt.reset : MsixEnt := { addr := 0, data := 0, mask := true }

/-- The configuration space of a function. -/
def Hub.fn (h : Hub) (key : Nat) : FnSt := sparseGet (fun _ => FnSt.reset) h.fns key
/-- Put the configuration space of a function. -/
def Hub.setFn (h : Hub) (key : Nat) (f : FnSt) : Hub := { h with fns := sparseSet (fun _ => FnSt.reset) h.fns key f }
/-- An MSI-X table entry of a function. -/
def Hub.msixAt (h : Hub) (key vec : Nat) : MsixEnt := sparseGet (fun _ => MsixEnt.reset) h.msix (2048 * key + vec)
/-- Put an MSI-X table entry of a function. -/
def Hub.setMsix (h : Hub) (key vec : Nat) (e : MsixEnt) : Hub :=
  { h with msix := sparseSet (fun _ => MsixEnt.reset) h.msix (2048 * key + vec) e }

/-- The PF that a VF index of a port belongs to: VF indices run through the PFs in ascending order. -/
def vfOwnerFrom (h : Hub) (port : Nat) : Nat → Nat → Nat → Option Nat
  | 0, _, _ => none
  | fuel + 1, f, v =>
    let t := h.fld (R.ep_FN_CFG_TOTAL_VFS port f)
    if v < t then some f else vfOwnerFrom h port fuel (f + 1) (v - t)

/-- The PF of a function: itself, or the PF of a VF. -/
def Hub.pfOf (h : Hub) (key : Nat) : Option Nat :=
  if fnVf key then vfOwnerFrom h (fnPort key) 8 0 (fnIdx key) else if fnIdx key < 8 then some (fnIdx key) else none

/-- The function's MSI-X Table Size (R331, R340). -/
def Hub.tableSize (h : Hub) (key : Nat) : Nat :=
  match h.pfOf key with
  | none => 0
  | some f => if fnVf key then h.fld (R.ep_FN_VEC_VF_VECTORS (fnPort key) f)
              else h.fld (R.ep_FN_VEC_PF_VECTORS (fnPort key) f)

/-- Is port `p` split into two links (R324)? -/
def Hub.split (h : Hub) (p : Nat) : Bool :=
  if p = 0 then h.flag R.pcr_STRAP_STATUS_PCIE_SPLIT_0 else h.flag R.pcr_STRAP_STATUS_PCIE_SPLIT_1

/-- The link (2 port + 0 for A, + 1 for B) that carries a function (R328). -/
def Hub.linkOf (h : Hub) (key : Nat) : Nat :=
  let p := fnPort key
  match h.pfOf key with
  | some f => if h.split p && 4 ≤ f then 2 * p + 1 else 2 * p
  | none => 2 * p

/-- The HOME_BENCH of a function (R332). -/
def Hub.homeBench (h : Hub) (key : Nat) : Nat :=
  if fnVf key then h.fld (R.ep_VF_CFG_HOME_BENCH (fnPort key) (fnIdx key))
  else h.fld (R.ep_FN_CFG_HOME_BENCH (fnPort key) (fnIdx key))

/-- A TLP with nothing in it, of a kind and for a function. -/
def Tlp.blank (k : TlpKind) (key : Nat) : Tlp :=
  { kind := k, fn := key, addr := 0, data := [], len := 0, tag := 0, pasid := none, ep := false, status := 0, cmd := none }

/-! ## Interrupts (R341) -/

/-- Raise a vector of a function: a write is sent, or, while the vector is masked or Bus Master Enable is 0, its pending
bit is set, with the bench that raised it, if one did. MSI puts the vector into the low bits of its data. A function with neither MSI-X
nor MSI enabled sends nothing, nor does a vector that MSI has not enabled. [DESIGN CHOICE, log 135, unsafe] -/
def Hub.interrupt (h : Hub) (src : Option BenchId) (key vec : Nat) : Hub × Option Tlp :=
  let f := h.fn key
  let e := h.msixAt key vec
  let pend := h.setFn key { f with pend := if f.pend.any (fun v => v.1 = vec) then f.pend else f.pend ++ [(vec, src)] }
  if f.msixEn then
    if e.mask || f.fnMask || !f.bme then (pend, none)
    else (h, some { Tlp.blank .interrupt key with addr := e.addr, data := leBytes 4 e.data, tag := vec })
  else if f.msiEn && vec < 2 ^ f.msiCount then
    let low := f.msiData / 2 ^ f.msiCount * 2 ^ f.msiCount + vec
    if bit f.msiMask vec || !f.bme then (pend, none)
    else (h, some { Tlp.blank .interrupt key with addr := f.msiAddr, data := leBytes 4 low, tag := vec })
  else (h, none)

/-- Is a vector of a function free to be sent now? -/
def Hub.vectorOpen (h : Hub) (key vec : Nat) : Bool :=
  let f := h.fn key
  f.bme && (if f.msixEn then !((h.msixAt key vec).mask || f.fnMask) else f.msiEn && vec < 2 ^ f.msiCount && !bit f.msiMask vec)

/-- Queue a TLP of the hub in the HOME_BENCH window of its function (R332). -/
def Hub.queueTlp (h : Hub) (t : Tlp) : Hub := { h with tlps := h.tlps ++ [(h.homeBench t.fn, t)] }
/-- Queue several TLPs of the hub. -/
def Hub.queueTlps (h : Hub) (l : List Tlp) : Hub := l.foldl Hub.queueTlp h
/-- Queue an interrupt write: in the window of the bench that raised it (R30), or the hub's in the HOME_BENCH window (R332). -/
def Hub.queueInt (h : Hub) (src : Option BenchId) (t : Tlp) : Hub :=
  match src with
  | some n => { h with tlps := h.tlps ++ [(n.val, t)] }
  | none => h.queueTlp t

/-- The pending vectors of a function that are free are sent, in the order in which they were raised, and their pending bits clear. [DESIGN CHOICE, log 23, unsafe] -/
def Hub.sendPending (h : Hub) (key : Nat) : Hub :=
  let f := h.fn key
  let go := f.pend.filter (fun v => h.vectorOpen key v.1)
  let h' := h.setFn key { f with pend := f.pend.filter (fun v => !h.vectorOpen key v.1) }
  go.foldl (fun g v => match (h.interrupt v.2 key v.1).2 with | some t => g.queueInt v.2 t | none => g) h'

/-! ## Events (R527) -/

/-- The function that an event is routed to, and its vector. -/
def Hub.route? (h : Hub) (e : Nat) : Option (Nat × Nat) :=
  if h.flag (R.irq_EVT_ROUTE_HOST e) then
    some (fnKey (h.fld (R.irq_EVT_ROUTE_PORT e)) (h.flag (R.irq_EVT_ROUTE_VF e)) (h.fld (R.irq_EVT_ROUTE_INDEX e)),
      h.fld (R.irq_EVT_ROUTE_VECTOR e))
  else none

/-- The FM_STATUS flag of an event. -/
def fmFlag (e : Nat) : Fld := ⟨R.irq_FM_STATUS (e / 32), e % 32, 1⟩
/-- The FM_MASK bit of an event. -/
def fmMask (e : Nat) : Fld := ⟨R.irq_FM_MASK (e / 32), e % 32, 1⟩
/-- The HOST_STATUS flag of an event. -/
def hostFlag (e : Nat) : Fld := ⟨R.irq_HOST_STATUS (e / 32), e % 32, 1⟩

/-- The Foreman's side of an event: its count, its flag, and its interrupt on a rising flag that is not masked. -/
def Hub.raiseFm (h : Hub) (e : Nat) : Hub :=
  let h := h.tick (T.EVT_COUNT e)
  if h.flag (fmFlag e) then h
  else
    let h' := h.setFld (fmFlag e) 1
    if h.flag (fmMask e) then h' else { h' with fmInts := h'.fmInts + 1 }

/-- Event `e` is raised by a bench or by the hub (R527): flags, count, and the interrupt write of a rising HOST_STATUS flag with
its function. -/
def Hub.raiseEvent (h : Hub) (src : Option BenchId) (e : Nat) : Hub × Option Tlp :=
  let h := h.raiseFm e
  match h.route? e with
  | none => (h, none)
  | some (key, vec) =>
    if h.flag (hostFlag e) then (h, none)
    else
      let h := h.setFld (hostFlag e) 1
      if h.tableSize key ≤ vec then (h.tick T.EVT_ROUTE_MISS, none) else h.interrupt src key vec

/-- A hub event: its interrupt write goes in the HOME_BENCH window of the routed function. -/
def Hub.raise (h : Hub) (e : Nat) : Hub :=
  match h.raiseEvent none e with
  | (h, some t) => h.queueTlp t
  | (h, none) => h

/-! ## Mailboxes, as events reach them (R474, R479, R490) -/

/-- A mailbox at the reset values of R476, of a function. -/
def Mailbox.reset (live : Bool) (fn : Nat) (pasid : Option Nat) : Mailbox :=
  { live := live, fn := fn, pasid := pasid, inq := [], outq := [], collided := false, busy := false, ack := none, seq := 0, dbFm := 0,
    maskFm := 0, dbHost := 0, maskHost := 0xFFFFFFFF, hostVec := 0, admin := none, adminErr := false, notices := [],
    noticeLost := false }

/-- What an unlisted mailbox reads as: PF mailboxes belong to their PF, claim mailboxes are FREE. -/
def Mailbox.dflt (m : Nat) : Mailbox := Mailbox.reset false (if m < 16 then fnKey (m / 8) false (m % 8) else 0) none

/-- Mailbox `m`: 8p + f for PFs, 16 + d for claims (R481). -/
def Hub.mbx (h : Hub) (m : Nat) : Mailbox := sparseGet Mailbox.dflt h.fw.mbx m
/-- Put mailbox `m`. -/
def Hub.setMbx (h : Hub) (m : Nat) (b : Mailbox) : Hub :=
  { h with fw := { h.fw with mbx := sparseSet Mailbox.dflt h.fw.mbx m b } }
/-- Change mailbox `m`. -/
def Hub.updMbx (h : Hub) (m : Nat) (f : Mailbox → Mailbox) : Hub := h.setMbx m (f (h.mbx m))

/-- Is a mailbox LIVE (R474)? A PF mailbox is while its PF is enabled, a claim mailbox while its claim is not FREE. -/
def Hub.mbxLive (h : Hub) (m : Nat) : Bool :=
  if m < 16 then h.flag (R.ep_FN_CFG_ENABLE (m / 8) (m % 8)) else (h.mbx m).live

/-- An interrupt of a function goes in its HOME_BENCH window (R332, R341). -/
def Hub.raiseVector (h : Hub) (key vec : Nat) : Hub :=
  match h.interrupt none key vec with
  | (h, some t) => h.queueTlp t
  | (h, none) => h

/-- The host interrupt of a mailbox: one write to HOST_VEC when EN = 1 (R479). -/
def Hub.mbxInterrupt (h : Hub) (m : Nat) : Hub :=
  let b := h.mbx m
  if bit b.hostVec 15 then h.raiseVector b.fn (b.hostVec % 2048) else h

/-- Set bits of DB_TO_HOST: an unmasked bit raises the host at once (R479). -/
def Hub.dbToHost (h : Hub) (m v : Nat) : Hub :=
  let b := h.mbx m
  let h := h.setMbx m { b with dbHost := Nat.lor b.dbHost v }
  if Nat.land v (0xFFFFFFFF - b.maskHost) ≠ 0 then h.mbxInterrupt m else h

/-- Queue a notice for a mailbox's caller: 32 records; one that finds the queue full is counted and marks the next
record LOST. DB_TO_HOST NOTICE is set (R484, R490). What its detail words hold the spec does not say: free values. [DEDUCED, log 49, unsafe; DEDUCED, log 93, unsafe] -/
def Hub.notice (h : Hub) (m kind subject : Nat) : Hub :=
  if !h.mbxLive m then h
  else
    let b := h.mbx m
    if 32 ≤ b.notices.length then (h.setMbx m { b with noticeLost := true }).tick T.MBX_NOTICE_LOST
    else
      let x := h.takeFree
      let y := x.2.takeFree
      (y.2.setMbx m { b with notices := b.notices ++ [[kind, subject, x.1.toNat % 2 ^ 32, y.1.toNat % 2 ^ 32]] }).dbToHost m 2

/-- The mailboxes of the manager PFs get a notice (R490). [DEDUCED, log 49, unsafe] -/
def Hub.noticeManagers (h : Hub) (kind subject : Nat) : Hub :=
  h.fw.managers.foldl (fun h k => h.notice (8 * fnPort k + fnIdx k) kind subject) h

/-- Is Ryuner at work: the hub up, and an image started (R498)? [DEDUCED, log 97, safe] -/
def Hub.ryuner (h : Hub) : Bool := h.up && h.fw.image.isSome

/-- Ryuner answers event `k` of bench `n` that reaches the Foreman: a notice for the managers of a change of the bench's state, of a security
association, or of its media (R471, R490). Which association it was the event does not say: a free value. [DEDUCED, log 49, unsafe] -/
def Hub.eventNotice (h : Hub) (n : BenchId) (k : Nat) : Hub :=
  if !h.ryuner || h.flag (fmMask (eventNumber n k)) then h
  else match k with
    | 0 => h.noticeManagers 2 n.val
    | 25 => h.takeFree.2.noticeManagers 3 (h.takeFree.1.toNat % 2 ^ 14)
    | 39 => h.noticeManagers 4 n.val
    | _ => h

/-- The events a bench's command raised, one by one; their interrupt writes are the bench's own TLPs (R30). -/
def drainEvents (n : BenchId) (h : Hub) : List Nat → Hub × List Tlp
  | [] => (h, [])
  | k :: t =>
    let r := h.raiseEvent (some n) (eventNumber n k)
    let q := drainEvents n (r.1.eventNotice n k) t
    (q.1, r.2.toList ++ q.2)

/-! ## Combinators -/

/-- Bench `n` of the device. -/
def Device.bench (d : Device) (n : BenchId) : Bench := d.benches[n.val]

/-- The bench with its events handed over: no event is left, and the interrupt writes wait for its window. -/
def Bench.afterEvents (b : Bench) (l : List Tlp) : Bench := { b with evq := [], tlps := b.tlps ++ l }

/-- A command that acts on bench `n` and on the hub: every other bench is left as it was (R25), and the events the
command raised reach the interrupt unit. -/
def Device.run (d : Device) (n : BenchId) (f : Hub → Bench → Hub × Bench) : Device :=
  let r := f d.hub (d.bench n)
  let q := drainEvents n r.1 r.2.evq
  { d with hub := q.1, benches := d.benches.set n.val (r.2.afterEvents q.2) }

/-- Is the bench powered, trained and clocked: RUNNING or DRAINING (R44)? -/
def Bench.live (b : Bench) : Bool := b.power.st = .running || b.power.st = .draining

/-- A command that acts on bench `n` alone, while the bench is live; a bench that is not live holds still. -/
def Device.runBench (d : Device) (n : BenchId) (f : Bench → Bench) : Device :=
  d.run n (fun h b => (h, if b.live then f b else b))

/-- A command that acts on a live bench and reads or writes the hub. -/
def Device.runLive (d : Device) (n : BenchId) (f : Hub → Bench → Hub × Bench) : Device :=
  d.run n (fun h b => if b.live then f h b else (h, b))

/-- A command that acts on the hub alone. -/
def Device.runHub (d : Device) (f : Hub → Hub) : Device := { d with hub := f d.hub }

/-- The next state with the device changed and the queue as it was. -/
def State.onBench (s : State) (n : BenchId) (f : Bench → Bench) : Host.Outcome State Fault Refusal :=
  .next { s with dev := s.dev.runBench n f }
/-- Does the bench have power and clocks and its memories cleared: STARTING past its clear, RUNNING or DRAINING? -/
def Bench.awake (b : Bench) : Bool := b.live || (b.power.st = .starting && b.power.cleared)
/-- The next state of a command on a bench that is awake. -/
def State.onAwake (s : State) (n : BenchId) (f : Bench → Bench) : Host.Outcome State Fault Refusal :=
  .next { s with dev := s.dev.run n (fun h b => (h, if b.awake then f b else b)) }
/-- The next state of a command on a live bench and the hub. -/
def State.onLive (s : State) (n : BenchId) (f : Hub → Bench → Hub × Bench) : Host.Outcome State Fault Refusal :=
  .next { s with dev := s.dev.runLive n f }
/-- The next state of a command on a bench in any state and the hub. -/
def State.onBoth (s : State) (n : BenchId) (f : Hub → Bench → Hub × Bench) : Host.Outcome State Fault Refusal :=
  .next { s with dev := s.dev.run n f }
/-- The next state of a command on the hub. -/
def State.onHub (s : State) (f : Hub → Hub) : Host.Outcome State Fault Refusal :=
  .next { s with dev := s.dev.runHub f }
/-- The next state of a command that reads: the answer is kept for the requester. -/
def State.onRead (s : State) (n : BenchId) (f : Bench → List Nat × Bench) : Host.Outcome State Fault Refusal :=
  .next { s with dev :=
    { s.dev.runBench n (fun b => (f b).2) with
      answer := if (s.dev.bench n).live then (f (s.dev.bench n)).1 else [0] } }

/-- Run a change on each of the sixteen benches in ascending order. -/
def Device.runAll (d : Device) (f : BenchId → Hub → Bench → Hub × Bench) : Device :=
  (List.finRange 16).foldl (fun d n => d.run n (f n)) d

end Sys2Proof.Machine
end

