-- ==== Sys2Proof/Machine/Hopper.lean ====
section
/-! DEFINITION. The hopper (R246 to R268): pools, handles, buffer records, ownership, chains, and the commands of
HOP_CMD. -/
namespace Sys2Proof.Machine

/-! ## Pools and records -/

/-- Buffer size of a pool in bytes (R246). -/
def poolSize (k : Nat) : Nat :=
  match k with
  | 0 => 256
  | 1 => 2304
  | 2 => 9728
  | _ => 65536

/-- How many buffers the carve gives a pool (R246). -/
def Bench.poolCount (b : Bench) (k : Nat) : Nat :=
  if k < 4 then b.fld (R.hopper_POOL_COUNT_COUNT k) else b.fld R.hopper_DPOOL_COUNT_COUNT

/-- Packet-buffer offset at which SRAM pool `k` starts (R246). -/
def Bench.poolStart (b : Bench) : Nat → Nat
  | 0 => 0
  | k + 1 => b.poolStart k + b.poolCount k * poolSize k

/-- POOL, OFFSET and GEN of a handle (R251). -/
def hPool (h : Nat) : Nat := getBits h 24 3
def hOff (h : Nat) : Nat := getBits h 0 24
def hGen (h : Nat) : Nat := getBits h 27 5

/-- Bench offset of a buffer's record (R262). -/
def recordAddr (pool off : Nat) : Nat := if pool < 4 then 0x800000 + 8 * (off / 256) else 0xC00000 + 8 * off

/-- OFFSET of buffer `i` of a pool (R251). -/
def Bench.bufOff (b : Bench) (k i : Nat) : Nat := if k < 4 then b.poolStart k + i * poolSize k else i

/-- Bench offset of a buffer's first byte (R251). -/
def Bench.bufAddr (b : Bench) (h : Nat) : Nat :=
  if hPool h < 4 then 0x1000000 + hOff h else 0x8000000000 + (b.fld R.hopper_DPOOL_BASE_BASE + hOff h) * 65536

/-- Fields of a buffer record (R262). -/
def Bench.recState (b : Bench) (a : Nat) : Nat := b.mbits a 0 2
def Bench.recOwner (b : Bench) (a : Nat) : Nat := b.mbits a 2 8
def Bench.recLast (b : Bench) (a : Nat) : Nat := b.mbits a 10 8
def Bench.recRefs (b : Bench) (a : Nat) : Nat := b.mbits a 18 8
def Bench.recGen (b : Bench) (a : Nat) : Nat := b.mbits a 26 5
def Bench.recNextValid (b : Bench) (a : Nat) : Bool := b.mbits a 31 1 = 1
def Bench.recNext (b : Bench) (a : Nat) : Nat := b.mbits a 32 32

/-- Write word 0 of a record. -/
def Bench.setRec (b : Bench) (a st owner last refs gen nv : Nat) : Bench :=
  b.setLe a 4 (st + 4 * owner + 2 ^ 10 * last + 2 ^ 18 * refs + 2 ^ 26 * (gen % 32) + 2 ^ 31 * nv)

/-- The first free buffer of a pool from index `i` on, of at most `fuel`. -/
def Bench.freeFrom (b : Bench) (k : Nat) : Nat → Nat → Option Nat
  | 0, _ => none
  | fuel + 1, i =>
    let a := recordAddr k (b.bufOff k i)
    if b.recState a = 0 && !b.hop.lost.contains a then some i else b.freeFrom k fuel (i + 1)

/-- The free buffer that a pool grants next: the spec does not say which one, so any free buffer may be it. [DESIGN CHOICE, log 98, safe] -/
def Bench.pickFree (b : Bench) (k : Nat) : Option Nat :=
  let i := (Config.freeValue b.free).toNat % b.poolCount k
  (b.freeFrom k (b.poolCount k - i) i).orElse (fun _ => b.freeFrom k i 0)

/-- The free count of a pool. -/
def Bench.freeCount (b : Bench) (k : Nat) : Nat := b.fld (R.hopper_POOL_FREE_FREE k)

/-- Set a pool's free count, with its low-water mark and the POOL_LOW event (R261, R266). -/
def Bench.setFree (b : Bench) (k v : Nat) : Bench :=
  let old := b.freeCount k
  let b := b.setFld (R.hopper_POOL_FREE_FREE k) v
  let b := if v / 4 < b.fld (R.hopper_POOL_FREE_LWM k) then b.setFld (R.hopper_POOL_FREE_LWM k) (v / 4) else b
  let low := if k < 4 then b.fld (R.hopper_POOL_LOW_LOW k) else 0
  if low = 0 then b
  else if v ≤ low && v < old && !b.hop.lowFired.contains k then
    { b with hop := { b.hop with lowFired := k :: b.hop.lowFired } }.raise 32
  else if low + 16 < v then { b with hop := { b.hop with lowFired := b.hop.lowFired.filter (· ≠ k) } }
  else b

/-! ## Allocation (R259, R260) -/

/-- The ranks of R260. -/
inductive Rank where
  | face | haulW | haulR | engine | ryuner
deriving DecidableEq, Repr

/-- The EMPTY tally of a rank and pool. -/
def emptyTally (r : Rank) (k : Nat) : Nat :=
  match r with
  | .face => T.EMPTY_FACE k
  | .haulW => T.EMPTY_HAUL_W k
  | .haulR => T.EMPTY_HAUL_R k
  | .engine => T.EMPTY_ENGINE k
  | .ryuner => T.EMPTY_RYUNER k

/-- May a rank take a buffer of the pool now (R247, R260)? -/
def Bench.mayTake (b : Bench) (r : Rank) (k : Nat) : Bool :=
  let free := b.freeCount k
  b.flag R.hopper_HOPPER_CTL_ENABLE && b.flag R.hopper_HOPPER_CTL_READY && 0 < free &&
    (if k < 4 then r = .face || b.fld (R.hopper_POOL_RESERVE_RESERVE k) < free else r ≠ .face)

/-- A buffer whose record cannot be read goes out of use until the bench next starts; its handle is logged and event 33 raised (R263). -/
def Bench.loseBuf (b : Bench) (a h : Nat) : Bench :=
  ({ b with hop := { b.hop with lost := a :: b.hop.lost } }.tick T.BUFFERS_LOST
    |>.setReg R.hopper_PKTBUF_ECC_LOG (BitVec.ofNat 32 h)).raise 33

/-- Grant one buffer of a pool to `tag`: the record becomes OWNED with the next GEN (R252, R254). The answer is the
handle; none where no buffer is free, or where the record of the chosen one cannot be read: that buffer goes out of use (R263). [DESIGN CHOICE, log 98, safe] -/
def Bench.grant (b : Bench) (k tag : Nat) (ecc : Ecc := []) : Option Nat × Bench :=
  match b.pickFree k with
  | none => (none, b)
  | some i =>
    let b := b.spent
    let off := b.bufOff k i
    let a := recordAddr k off
    let b := b.correctable 5 (ecc.cor a (a + 8))
    let g := (b.recGen a + 1) % 32
    if ecc.unc a (a + 8) then (none, (b.loseBuf a (off + 2 ^ 24 * k + 2 ^ 27 * b.recGen a)).setFree k (b.freeCount k - 1))
    else
      let b := (b.setRec a 1 tag 0 0 g 0).setLe (a + 4) 4 0
      (some (off + 2 ^ 24 * k + 2 ^ 27 * g), (b.setFree k (b.freeCount k - 1)).tick (T.GRANTS k))

/-- An allocation from pool `k`: a handle, or none for EMPTY, which is counted (R260). -/
def Bench.alloc (b : Bench) (r : Rank) (k tag : Nat) (ecc : Ecc := []) : Option Nat × Bench :=
  if b.mayTake r k then b.grant k tag ecc else (none, b.tick (emptyTally r k))

/-- The smallest pool from `k` to 3 whose buffer holds `n` bytes. -/
def poolFor (n : Nat) : Nat → Nat → Option Nat
  | 0, _ => none
  | fuel + 1, k => if n ≤ poolSize k then some k else poolFor n fuel (k + 1)

/-- The first pool from `k` up to 3 that the rank may take from. -/
def Bench.spillPool (b : Bench) (r : Rank) : Nat → Nat → Option Nat
  | 0, _ => none
  | fuel + 1, k => if b.mayTake r k then some k else b.spillPool r fuel (k + 1)

/-- Allocate from pool `k`, or with spill from the next larger pool that can serve (R249, R250). An EMPTY answer counts
at pool `k`. -/
def Bench.allocSpill (b : Bench) (r : Rank) (spill : Bool) (k tag : Nat) (ecc : Ecc := []) : Option Nat × Bench :=
  if spill then
    match b.spillPool r (4 - k) k with
    | some j => b.alloc r j tag ecc
    | none => b.alloc r k tag ecc
  else b.alloc r k tag ecc

/-- Chain a body buffer behind a head buffer (R248, R262): the body's record reads CHAINED. -/
def Bench.chain (b : Bench) (head body : Nat) : Bench :=
  let a := recordAddr (hPool head) (hOff head)
  let c := recordAddr (hPool body) (hOff body)
  ((b.setMbits a 31 1 1).setMbits a 32 32 body).setMbits c 0 2 3

/-! ## Handles and refusals (R252, R258) -/

/-- Does a handle pass the range and alignment checks: does it name a buffer in use (R252, R263)? -/
def Bench.handleOk (b : Bench) (h : Nat) : Bool :=
  let k := hPool h
  let off := hOff h
  let s := if k < 4 then b.poolStart k else 0
  let sz := if k < 4 then poolSize k else 1
  k ≤ 4 && s ≤ off && off - s < b.poolCount k * sz && (off - s) % sz = 0 && !b.hop.lost.contains (recordAddr k off)

/-- The check of a handle: 0 passes, 3 BAD_HANDLE, 5 DOUBLE_FREE (R252). `argsOk` tells whether an operation's tag and count pass the
checks that R255 makes with these. -/
def Bench.checkHandle (b : Bench) (h : Nat) (argsOk : Bool := true) : Nat :=
  let a := recordAddr (hPool h) (hOff h)
  if !b.handleOk h || b.recState a = 3 || !argsOk then 3
  else if b.recState a = 0 || b.recGen a ≠ hGen h then 5 else 0

/-- The tally of a refusal code (R258, R266). -/
def refusalTally (code : Nat) : Nat :=
  match code with
  | 3 => T.HOPPER_BAD_HANDLE
  | 4 => T.HOPPER_FOREIGN_FREE
  | 5 => T.HOPPER_DOUBLE_FREE
  | 6 => T.HOPPER_EARLY_FREE
  | _ => T.HOPPER_NOT_SHARED

/-- A refused operation: tally, log record, bench event 31 (R258, R267). -/
def Bench.hopRefuse (b : Bench) (code op agent h : Nat) : Bench :=
  let seq := b.hop.logSeq + 1
  let w1 := 1 + 2 * code + 16 * op + 2 ^ 8 * agent + 2 ^ 16 * (seq % 65536)
  let b := b.tick (refusalTally code)
  let b := if b.hop.log.length < 16 then { b with hop := { b.hop with log := b.hop.log ++ [(h, w1)], logSeq := seq } }
           else { b with hop := { b.hop with logSeq := seq } }.tick T.HOPPER_LOG_LOST
  b.raise 31

/-- Is a tag one of R253's agents that may hold a buffer? -/
def tagOk (t : Nat) : Bool := (1 ≤ t && t ≤ 7) || (0x10 ≤ t && t ≤ 0x17)

/-- Free one buffer. -/
def Bench.freeBuf (b : Bench) (h : Nat) : Bench :=
  let k := hPool h
  let a := recordAddr k (hOff h)
  let b := (b.setRec a 0 0 0 0 (b.recGen a) 0).setLe (a + 4) 4 0
  if b.hop.lost.contains a then b else (b.setFree k (b.freeCount k + 1)).tick (T.FREES k)

/-- Free a head buffer and the body behind it (R256). -/
def Bench.freeChain (b : Bench) (h : Nat) : Bench :=
  let a := recordAddr (hPool h) (hOff h)
  let nv := b.recNextValid a
  let body := b.recNext a
  let b := b.freeBuf h
  if nv then b.freeBuf body else b

/-- The operation codes of HOP_CMD (R266). -/
def opShare : Nat := 2
def opRelease : Nat := 3
def opFree : Nat := 4
def opGive : Nat := 5

/-- What the matrix of R256 answers for an operation on a checked buffer: 0 accepted, or the refusal code. `arg` is the
last owner of SHARE or the new owner of GIVE, `refs` the REFS of SHARE. -/
def Bench.hopMatrix (b : Bench) (op agent a arg refs : Nat) : Nat :=
  let owned := b.recState a = 1
  let isO := agent = b.recOwner a
  let isL := agent = b.recLast a
  if op = opFree then
    if owned then (if isO then 0 else 4) else if isO || isL then 6 else 4
  else if op = opRelease then
    if owned then 7 else if isL then 6 else 0
  else if op = opShare then
    if owned then (if isO then 0 else 4)
    else if !isL then 4 else if arg ≠ b.recLast a || 255 < b.recRefs a + refs then 3 else 0
  else
    if owned then (if isO then 0 else 4) else if isO then 6 else 4

/-- The tag and count checks of R254 and R255, made with those of R252. -/
def hopArgsOk (op arg refs : Nat) : Bool :=
  if op = opShare then refs ≠ 0 && tagOk arg else if op = opGive then tagOk arg && arg ≠ 7 else true

/-- The effect of an accepted operation (R255, R256). -/
def Bench.hopApply (b : Bench) (op h a arg refs : Nat) : Bench :=
  let nv := if b.recNextValid a then 1 else 0
  let g := b.recGen a
  if op = opFree then b.freeChain h
  else if op = opRelease then
    let r := b.recRefs a - 1
    if r ≠ 0 then b.setRec a 2 (b.recOwner a) (b.recLast a) r g nv
    else if b.recLast a = 7 then b.freeChain h
    else b.setRec a 1 (b.recLast a) 0 0 g nv
  else if op = opShare then
    if b.recState a = 1 then b.setRec a 2 (b.recOwner a) arg refs g nv
    else b.setRec a 2 (b.recOwner a) (b.recLast a) (b.recRefs a + refs) g nv
  else b.setRec a 1 arg 0 0 g nv

/-- The records that an operation on a buffer reads: its own, and that of the body chained behind it (R256). -/
def Bench.recordsOf (b : Bench) (h : Nat) : List Nat :=
  let a := recordAddr (hPool h) (hOff h)
  a :: (if b.recState a ≠ 0 && b.recNextValid a then [recordAddr (hPool (b.recNext a)) (hOff (b.recNext a))] else [])

/-- One operation on a buffer by an agent: SHARE, RELEASE, FREE or GIVE (R252 to R258). The result code is 0 for DONE.
An uncorrectable error in a record refuses it, whatever the record says, and takes the buffer out of use (R263). -/
def Bench.hopOp (b : Bench) (op agent h arg refs : Nat) (ecc : Ecc) : Nat × Bench :=
  let a := recordAddr (hPool h) (hOff h)
  let l := if b.handleOk h then b.recordsOf h else []
  let b := b.correctable 5 ((l.map (fun x => ecc.cor x (x + 8))).sum)
  let bad := l.filter (fun x => ecc.unc x (x + 8))
  if !bad.isEmpty then (3, (bad.foldl (fun b x => b.loseBuf x h) b).hopRefuse 3 op agent h)
  else
    let c := b.checkHandle h (hopArgsOk op arg refs)
    let c := if c ≠ 0 then c else b.hopMatrix op agent a arg refs
    if c = 0 then (0, b.hopApply op h a arg refs) else (c, b.hopRefuse c op agent h)

/-- A hardware consumer ends its use of a packet: FREE when the chain is OWNED, RELEASE when it is SHARED (R257). -/
def Bench.endUse (b : Bench) (agent h : Nat) (ecc : Ecc := []) : Bench :=
  let a := recordAddr (hPool h) (hOff h)
  if b.recState a = 2 then (b.hopOp opRelease agent h 0 0 ecc).2
  else if b.recState a = 1 then (b.hopOp opFree agent h 0 0 ecc).2 else b

/-! ## Chain bytes (R248) -/

/-- How many bytes lie in the body of a chain, 0 where it has none. -/
def Bench.bodySize (b : Bench) (h : Nat) : Nat :=
  let a := recordAddr (hPool h) (hOff h)
  if b.recNextValid a then poolSize (hPool (b.recNext a)) else 0

/-- `n` chain bytes from chain byte `i`. An unchained buffer is its own bytes (R306). -/
def Bench.chainBytes (b : Bench) (h i n : Nat) : List Byte :=
  let a := recordAddr (hPool h) (hOff h)
  if b.recNextValid a then
    b.bytes (b.bufAddr h + i) (min n (232 - i)) ++
      b.bytes (b.bufAddr (b.recNext a) + (i - 232)) (n - min n (232 - i))
  else b.bytes (b.bufAddr h + i) n

/-- Write bytes at chain byte `i`. -/
def Bench.setChain (b : Bench) (h i : Nat) (l : List Byte) : Bench :=
  let a := recordAddr (hPool h) (hOff h)
  if b.recNextValid a then
    (b.setBytes (b.bufAddr h + i) (l.take (232 - i))).setBytes
      (b.bufAddr (b.recNext a) + (i - 232)) (l.drop (232 - i))
  else b.setBytes (b.bufAddr h + i) l

/-- A packet's bytes, `n` from packet byte `i`. -/
def Bench.pktBytes (b : Bench) (p : Pkt) (i n : Nat) : List Byte := b.chainBytes p.handle (p.start + i) n

/-! ## The commands -/

/-- The result of an operation of HOP_CMD goes to HOP_STATUS, and a granted handle to HOP_ARG (R266). -/
def Bench.postHop (b : Bench) (code : Nat) (h : Option Nat) : Bench :=
  let b := match h with
    | some v => b.setReg R.hopper_HOP_ARG (BitVec.ofNat 32 v)
    | none => b
  b.postStatus R.hopper_HOP_STATUS (2 * code) 16 16

/-- Are the free lists in use (R247)? -/
def Bench.carved (b : Bench) : Bool := b.flag R.hopper_HOPPER_CTL_ENABLE && b.flag R.hopper_HOPPER_CTL_READY

/-- The result of an allocation of operation `op`: the handle; BAD_HANDLE where a record could not be read (R263), which the log holds as
every refusal; EMPTY else. -/
def Bench.allocResult (b : Bench) (op tag : Nat) (x : Option Nat × Bench) : Nat × Option Nat × Bench :=
  match x with
  | (some h, b') => (0, some h, b')
  | (none, b') =>
    if b'.hop.lost = b.hop.lost then (1, none, b')
    else (3, none, b'.hopRefuse 3 op tag (b'.reg R.hopper_PKTBUF_ECC_LOG).toNat)

/-- An allocation by length (R250): the smallest pool of 0 to 3 that holds it; TOO_BIG (2) where none does. Before the free lists are
built every allocation is answered EMPTY (R247); where no pool holds the length, no pool counts it. [DEDUCED, log 132, unsafe] -/
def Bench.allocLength (b : Bench) (r : Rank) (tag len : Nat) (pkt : Bool) (ecc : Ecc := []) : Nat × Option Nat × Bench :=
  match poolFor (len + if pkt then 152 else 0) 4 0 with
  | none => (if b.carved then 2 else 1, none, b)
  | some k => b.allocResult 0 tag (b.allocSpill r (b.flag R.hopper_HOPPER_CTL_ALLOC_SPILL) k tag ecc)

/-- An allocation from a named pool (R250): POOL 5 to 7 is refused with BAD_HANDLE, once the free lists are built. [DEDUCED, log 132, unsafe] -/
def Bench.allocPool (b : Bench) (r : Rank) (tag k : Nat) (ecc : Ecc := []) : Nat × Option Nat × Bench :=
  if 4 < k then (if b.carved then (3, none, b.hopRefuse 3 1 tag 0) else (1, none, b))
  else b.allocResult 1 tag (b.alloc r k tag ecc)

/-- A write of HOP_CMD by Ryuner (R266): the operation with the operands staged in HOP_ARG and HOP_ARG2. OP 6 and 7 are
ignored and tallied. -/
def Bench.hopCmd (b : Bench) (op : Nat) (pkt : Bool) (pool : Nat) (ecc : Ecc) : Bench :=
  let h := (b.reg R.hopper_HOP_ARG).toNat
  let arg2 := (b.reg R.hopper_HOP_ARG2).toNat
  if op = 0 then
    let r := b.allocLength .ryuner 4 (arg2 % 2 ^ 17) pkt
    r.2.2.postHop r.1 r.2.1
  else if op = 1 then
    let r := b.allocPool .ryuner 4 pool
    r.2.2.postHop r.1 r.2.1
  else if op < 6 then
    let r := b.hopOp op 4 h (arg2 % 256) (arg2 / 256 % 256) ecc
    r.2.postHop r.1 none
  else b.cfgRefused

/-- HOP_ALLOC_LENGTH: a HOP_CMD write with OP 000. -/
def execHopAllocLength (n : BenchId) (pkt : Bool) (s : State) : Host.Outcome State Fault Refusal :=
  s.onBench n (fun b => b.hopCmd 0 pkt 0 [])

/-- HOP_ALLOC_POOL: a HOP_CMD write with OP 001. -/
def execHopAllocPool (n : BenchId) (pool : Nat) (s : State) : Host.Outcome State Fault Refusal :=
  s.onBench n (fun b => b.hopCmd 1 false pool [])

/-- HOP_SHARE: a HOP_CMD write with OP 010. -/
def execHopShare (n : BenchId) (ecc : Ecc) (s : State) : Host.Outcome State Fault Refusal :=
  s.onBench n (fun b => b.hopCmd opShare false 0 ecc)

/-- HOP_RELEASE: a HOP_CMD write with OP 011. -/
def execHopRelease (n : BenchId) (ecc : Ecc) (s : State) : Host.Outcome State Fault Refusal :=
  s.onBench n (fun b => b.hopCmd opRelease false 0 ecc)

/-- HOP_FREE: a HOP_CMD write with OP 100. -/
def execHopFree (n : BenchId) (ecc : Ecc) (s : State) : Host.Outcome State Fault Refusal :=
  s.onBench n (fun b => b.hopCmd opFree false 0 ecc)

/-- HOP_GIVE: a HOP_CMD write with OP 101. -/
def execHopGive (n : BenchId) (ecc : Ecc) (s : State) : Host.Outcome State Fault Refusal :=
  s.onBench n (fun b => b.hopCmd opGive false 0 ecc)

/-- The carve of R247 is acceptable: SRAM sum, and pool 4 inside a trained subchannel's capacity. -/
def Bench.carveOk (b : Bench) (dramUp : Bool) (capacity : Nat) : Bool :=
  (b.poolStart 4 ≤ 16777216) &&
    (b.fld R.hopper_DPOOL_COUNT_COUNT = 0 ||
      (dramUp && (b.fld R.hopper_DPOOL_BASE_BASE + b.fld R.hopper_DPOOL_COUNT_COUNT) * 65536 ≤ capacity))

/-- A write to HOPPER_CTL (R247, R265): spill bits always take effect; ENABLE under the cases of R247. -/
def Bench.hopperCtl (b : Bench) (dramUp : Bool) (capacity : Nat) (v : Word) : Bench :=
  let e := bit v.toNat 0
  let en := b.flag R.hopper_HOPPER_CTL_ENABLE
  let b := (b.setFld R.hopper_HOPPER_CTL_FACE_SPILL (getBits v.toNat 2 1)).setFld
    R.hopper_HOPPER_CTL_ALLOC_SPILL (getBits v.toNat 3 1)
  if en then (if e then b else b.cfgRefused)
  else if e then
    if b.carveOk dramUp capacity then
      { b.setFld R.hopper_HOPPER_CTL_ENABLE 1 with hop := { b.hop with building := true } }
    else b.cfgRefused
  else b

/-- One pool's free list is built: every buffer is free. -/
def Bench.poolReady (b : Bench) (k : Nat) : Bench :=
  b.setFld (R.hopper_POOL_FREE_FREE k) (b.poolCount k)

/-- HOPPER_READY: the free lists are built and READY reads 1 (R247). -/
def execHopperReady (n : BenchId) (s : State) : Host.Outcome State Fault Refusal :=
  s.onBench n (fun b =>
    if b.hop.building then
      let b := [0, 1, 2, 3, 4].foldl Bench.poolReady b
      { b.setFld R.hopper_HOPPER_CTL_READY 1 with hop := { b.hop with building := false } }
    else b)

end Sys2Proof.Machine
end

