-- ==== Sys2Proof/Machine/Packet.lean ====
section
/-! DEFINITION. What happens to a packet once it is in a bench: charged lengths, meters, admission, flow queues and
flow-control requests (R212 to R225, R236), its discard, its end status (R65 to R68) and the completion of the send
descriptor it came from (R377). -/
namespace Sys2Proof.Machine

/-! ## Lengths -/

/-- The packet without its FCS, as far as it is known (R95). -/
def Pkt.dataLen (p : Pkt) : Nat := if p.ended then p.len - p.fcs else p.len

/-- The packet without its FCS as the wire carries it, also before its end status is known. -/
def Pkt.netLen (p : Pkt) : Nat :=
  if p.ended then p.len - p.fcs
  else if p.ring.isSome || p.engine || p.oversize then p.len else p.len - min 4 p.len

/-- Is the job an ESP one (R194, PROTO)? -/
def CipherJob.esp (j : CipherJob) : Bool := !bit j.ctl 2
/-- Byte `x` of the chain under a job's key stream. -/
def CipherJob.stream (j : CipherJob) (x : Nat) (c : Byte) : Byte := c ^^^ Config.gcmStream j.key j.nonce (x - j.off)
/-- A chain byte of a packet being decrypted, in the clear. -/
def Bench.plainByte (b : Bench) (h : Nat) (j : CipherJob) (x : Nat) : Byte :=
  j.stream x (if x < j.done then j.text.getD (x - j.off) 0#8 else (b.chainBytes h x 1).headD 0#8)
/-- The ESP padding of a payload of `n` bytes: until the payload plus 2 is a multiple of 4 (R197). -/
def espPad (n : Nat) : Nat := (4 - (n + 2) % 4) % 4

/-- The bytes by which pending verdicts will move a packet's end from chain byte `e` (R197 to R199). -/
def Bench.tailEnd (b : Bench) (h : Nat) : List CipherJob → Nat → Nat
  | [], e => e
  | j :: t, e =>
    let e' := if j.set then e
      else if j.enc then (if j.esp then e + espPad (e - j.payload) + 18 else e + 16)
      else if j.esp then e - ((b.plainByte h j (e - 18)).toNat + 18) else e - 16
    b.tailEnd h t e'

/-- The length with which an ended packet leaves: cipher growth still to come, padding to 64 bytes and FCS (R215). -/
def Bench.finalLen (b : Bench) (p : Pkt) : Nat :=
  max 64 (b.tailEnd p.handle p.jobs (p.start + p.dataLen) - p.start + 4)

/-- Does the packet engage the cipher? -/
def Pkt.engaged (p : Pkt) : Bool := !p.jobs.isEmpty
/-- Is a verdict still to come? -/
def Pkt.verdictPending (p : Pkt) : Bool := p.jobs.any (fun j => !j.set)
/-- Is the verdict of a decryption still to come? -/
def Pkt.decPending (p : Pkt) : Bool := p.jobs.any (fun j => !j.enc && !j.set)
/-- The id under which a packet and its copies share buffers and jobs. -/
def Pkt.family (p : Pkt) : Nat := p.mirrorOf.getD p.id
/-- The provisional length of R215. -/
def Bench.provisionalLen (b : Bench) (p : Pkt) : Nat :=
  ((b.fld (R.face_MAX_FRAME_BYTES p.port) : Int) + p.growth + (if p.engaged then 64 else 0)).toNat
/-- The length a packet is charged at enqueue, and whether it is provisional (R215). A mirror copy is charged the lesser
of TRUNC and its original's. -/
def Bench.chargeOf (b : Bench) (p : Pkt) : Nat × Bool :=
  let full := if p.ended || p.ring.isSome || p.engine then b.finalLen p else b.provisionalLen p
  if p.mirrorOf.isSome then ((if p.trunc = 0 then full else min p.trunc full), false)
  else (full, !(p.ended || p.ring.isSome || p.engine))

/-! ## Meters (R217 to R219) -/

/-- Bench offset of meter `m`. -/
def meterAddr (m : Nat) : Nat := 0x5000000 + 64 * m

/-- The token buckets of a meter. -/
structure Buckets where
  tc : Nat
  tp : Nat
  last : Nat
deriving DecidableEq, Repr

/-- Refill: the buckets at cycle `now`, each capped at its burst (R218). -/
def refill (cir pir cbs pbs : Nat) (k : Buckets) (now : Nat) : Buckets :=
  let e := (now + 2 ^ 32 - k.last) % 2 ^ 32
  { tc := min (cbs * 2 ^ 24) (k.tc + cir * e), tp := min (pbs * 2 ^ 24) (k.tp + pir * e), last := now % 2 ^ 32 }

/-- The colour of a packet of `bytes` bytes and the buckets after it (R218): 0 green, 1 yellow, 2 red. -/
def colourOf (pre bytes : Nat) (k : Buckets) : Nat × Buckets :=
  let u := bytes * 2 ^ 24
  if pre = 2 || k.tp < u then (2, k)
  else if pre = 1 || k.tc < u then (1, { k with tp := k.tp - u })
  else (0, { k with tp := k.tp - u, tc := k.tc - u })

/-- The buckets a meter holds. -/
def Bench.buckets (b : Bench) (m : Nat) : Buckets :=
  let a := meterAddr m
  { tc := b.mbits a 256 48, tp := b.mbits a 320 48, last := b.mbits a 384 32 }
/-- Write a meter's buckets. -/
def Bench.setBuckets (b : Bench) (m : Nat) (k : Buckets) : Bench :=
  let a := meterAddr m
  ((b.setMbits a 256 48 k.tc).setMbits a 320 48 k.tp).setMbits a 384 32 k.last
/-- A meter's buckets refilled to the present cycle. -/
def Bench.refilled (b : Bench) (m : Nat) : Buckets :=
  let a := meterAddr m
  refill (b.mbits a 32 32) (b.mbits a 64 32) (b.mbits a 96 24) (b.mbits a 128 24) (b.buckets m) b.cyc
/-- The pre-colour of a packet at a meter (R217): MARK[31:30] when the meter is colour-aware. -/
def Bench.preColour (b : Bench) (m mark : Nat) : Nat :=
  if b.mbits (meterAddr m) 1 1 = 1 then min 2 (getBits mark 30 2) else 0
/-- The bytes a meter counts for a charged length: LEN_ADJ added, never below 0 (R218). -/
def Bench.meterBytes (b : Bench) (m len : Nat) : Nat :=
  ((len : Int) + signed 8 (b.mbits (meterAddr m) 8 8)).toNat

/-- The tally of a colour (R245). -/
def colourTally (c : Nat) : Nat := if c = 0 then T.GREEN else if c = 1 then T.YELLOW else T.RED

/-- Meter a packet: its colour, and the bench with the meter's state written. -/
def Bench.meter (b : Bench) (m mark len : Nat) : Nat × Bench :=
  let r := colourOf (b.preColour m mark) (b.meterBytes m len) (b.refilled m)
  (r.1, (b.setBuckets m r.2).tick (colourTally r.1))

/-- The refund of R219: the meter is refilled, then the difference goes back by colour, capped at the bursts. -/
def Bench.refund (b : Bench) (m colour d : Nat) : Bench :=
  let a := meterAddr m
  let k := b.refilled m
  let tp := if colour ≤ 1 then min (b.mbits a 128 24 * 2 ^ 24) (k.tp + d * 2 ^ 24) else k.tp
  let tc := if colour = 0 then min (b.mbits a 96 24 * 2 ^ 24) (k.tc + d * 2 ^ 24) else k.tc
  (b.setBuckets m { k with tc := tc, tp := tp }).tick T.METER_REFUND

/-! ## Flow queues (R221) -/

/-- Bench offset of flow queue `q`'s context. -/
def qAddr (q : Nat) : Nat := 0x5200000 + 64 * q
def Bench.qValid (b : Bench) (q : Nat) : Bool := b.mbits (qAddr q) 0 1 = 1
def Bench.qPort (b : Bench) (q : Nat) : Nat := b.mbits (qAddr q) 1 2
def Bench.qClass (b : Bench) (q : Nat) : Nat := b.mbits (qAddr q) 3 3
def Bench.qWeight (b : Bench) (q : Nat) : Nat := b.mbits (qAddr q) 32 16
/-- LIMIT_G, LIMIT_Y or LIMIT_R by colour. -/
def Bench.qLimit (b : Bench) (q colour : Nat) : Nat := b.mbits (qAddr q) (64 + 32 * colour) 25
def Bench.qOcc (b : Bench) (q : Nat) : Nat := b.mbits (qAddr q) 256 25
def Bench.qPackets (b : Bench) (q : Nat) : Nat := b.mbits (qAddr q) 288 20
def Bench.qHwm (b : Bench) (q : Nat) : Nat := b.mbits (qAddr q) 320 25
def Bench.qFLast (b : Bench) (q : Nat) : Nat := b.mbits (qAddr q) 384 48

/-- The packets of a flow queue, head first. -/
def Bench.queued (b : Bench) (q : Nat) : List Pkt :=
  b.tm.flow.filterMap (fun id => (b.pkt? id).filter (fun p => p.loc = .flow q))

/-- HEAD_F is the head packet's finish tag, 0 when the queue is empty. -/
def Bench.setHeadF (b : Bench) (q : Nat) : Bench :=
  b.setMbits (qAddr q) 448 48 (match b.queued q with | p :: _ => p.tm.tag | [] => 0)

/-- Set a queue's OCCUPANCY, with its HWM. -/
def Bench.setOcc (b : Bench) (q v : Nat) : Bench :=
  let b := b.setMbits (qAddr q) 256 25 v
  if b.qHwm q < v then b.setMbits (qAddr q) 320 25 v else b

/-- Add charged bytes to the sums of a class and its port, with PORT_HWM (R238). -/
def Bench.addOcc (b : Bench) (p c : Nat) (d : Int) : Bench :=
  let b := b.setFld (R.tm_CLASS_OCC_BYTES p c) ((b.fld (R.tm_CLASS_OCC_BYTES p c) : Int) + d).toNat
  let v := ((b.fld (R.tm_PORT_OCC_BYTES p) : Int) + d).toNat
  let b := b.setFld (R.tm_PORT_OCC_BYTES p) v
  if b.fld (R.tm_PORT_HWM_BYTES p) < v then b.setFld (R.tm_PORT_HWM_BYTES p) v else b

/-! ## Flow-control requests (R236) -/

/-- IN_BYTES_p_c: charged bytes of packets of ingress port `p` held in flow queues of class `c`; class 8 is the sum. -/
def Bench.inBytes (b : Bench) (p c : Nat) : Nat :=
  (b.pkts.filter (fun k => match k.loc with
    | .flow _ => k.port = p && k.ring.isNone && !k.engine && (c = 8 || k.tm.cls = c)
    | _ => false)).foldl (fun s k => s + k.tm.charged) 0

/-- One request of port `p` judged against its thresholds: on at XOFF × 256, off below XON × 256. -/
def Bench.judge (b : Bench) (p c : Nat) (on : Bool) : Bool :=
  let x := b.fld (R.tm_FC_THRESH_XOFF p c)
  let n := b.inBytes p c
  if x = 0 then false
  else if x * 256 ≤ n then true
  else if n < b.fld (R.tm_FC_THRESH_XON p c) * 256 then false else on

/-- The traffic manager's requests of port `p`, judged again: bit c per class in PFC mode, bit 8 in link-pause mode. -/
def Bench.judgeReqs (b : Bench) (p : Nat) : Bench :=
  let s := b.port p
  let on := fun c => b.judge p c (bit s.tmReqs c)
  let r := if s.mode = 1 then (if on 8 then 256 else 0)
    else if s.mode = 2 then (List.range 8).foldl (fun m c => m + if on c then 2 ^ c else 0) 0 else 0
  b.setPort p { s with tmReqs := r }

/-- Take a packet out of its flow queue: OCCUPANCY, PACKETS, HEAD_F, sums and requests follow. -/
def Bench.dequeue (b : Bench) (p : Pkt) (dst : Loc) : Bench :=
  match p.loc with
  | .flow q =>
    let b := { b with tm := { b.tm with flow := b.tm.flow.filter (· ≠ p.id) } }.updPkt p.id (fun k => { k with loc := dst })
    let b := (b.setMbits (qAddr q) 256 25 (b.qOcc q - p.tm.charged)).setMbits (qAddr q) 288 20 (b.qPackets q - 1)
    ((b.setHeadF q).addOcc (b.qPort q) p.tm.cls (-(p.tm.charged : Int))).judgeReqs p.port
  | _ => b.updPkt p.id (fun k => { k with loc := dst })

/-! ## Completion of a send descriptor (R377, R380) -/

/-- The words of a timestamp record (R80). -/
def Stamp.words (t : Stamp) : List Nat :=
  if t.valid then
    [t.ns % 2 ^ 30 + (if t.cal then 2 ^ 30 else 0) + 2 ^ 31, t.sec % 2 ^ 32,
      t.sec / 2 ^ 32 % 2 ^ 16 + 2 ^ 16 * (t.frac % 16) + 2 ^ 20 * (t.port % 4)]
  else [0, 0, 0]

/-- A timestamp record that was not taken. -/
def Stamp.none : Stamp := { valid := false, cal := false, sec := 0, ns := 0, frac := 0, port := 0 }

/-- Ring context fields (R369). -/
def ringAddr (r : Nat) : Nat := 0x100000 + 32 * r
def Bench.ringKind (b : Bench) (r : Nat) : Nat := b.mbits (ringAddr r) 64 4
def Bench.ringSize (b : Bench) (r : Nat) : Nat := b.mbits (ringAddr r) 68 4
def Bench.ringState (b : Bench) (r : Nat) : Nat := b.mbits (ringAddr r) 72 2
def Bench.ringClaim (b : Bench) (r : Nat) : Nat := b.mbits (ringAddr r) 74 8
def Bench.ringQsize (b : Bench) (r : Nat) : Nat := b.mbits (ringAddr r) 82 12
def Bench.ringCq (b : Bench) (r : Nat) : Nat := b.mbits (ringAddr r) 96 14
def Bench.ringVector (b : Bench) (r : Nat) : Nat := b.mbits (ringAddr r) 96 11
def Bench.ringStep (b : Bench) (r : Nat) : Nat := b.mbits (ringAddr r) 110 5
def Bench.ringFetchMax (b : Bench) (r : Nat) : Nat := b.mbits (ringAddr r) 115 4 + 1
def Bench.ringIntCount (b : Bench) (r : Nat) : Nat := b.mbits (ringAddr r) 119 8
def Bench.hostIndex (b : Bench) (r : Nat) : Nat := b.mbits (ringAddr r) 128 16
def Bench.hostLap (b : Bench) (r : Nat) : Nat := b.mbits (ringAddr r) 144 1
def Bench.devIndex (b : Bench) (r : Nat) : Nat := b.mbits (ringAddr r) 160 16
def Bench.devLap (b : Bench) (r : Nat) : Nat := b.mbits (ringAddr r) 176 1
def Bench.ringHeld (b : Bench) (r : Nat) : Nat := b.mbits (ringAddr r) 192 16
def Bench.ringArmed (b : Bench) (r : Nat) : Bool := b.mbits (ringAddr r) 208 1 = 1
def Bench.ringOvf (b : Bench) (r : Nat) : Nat := b.mbits (ringAddr r) 209 7
def Bench.ringOwed (b : Bench) (r : Nat) : Nat := b.mbits (ringAddr r) 224 16
def Bench.ringOvfSlot (b : Bench) (r : Nat) : Nat := b.mbits (ringAddr r) 240 12

/-- N of a ring (R368, R385): 2^SIZE, or QSIZE + 1 for the NVMe kinds. -/
def Bench.ringN (b : Bench) (r : Nat) : Nat :=
  if b.ringKind r = 4 || b.ringKind r = 5 then b.ringQsize r + 1 else 2 ^ b.ringSize r

/-- A completion for a completion ring enters its slot of the collector (R378, R462). -/
def Bench.postCpl (b : Bench) (slot cq : Nat) (words : List Nat) : Bench :=
  let c : Cpl := { slot := slot, cq := cq, words := words, out := false }
  { b with rings := { b.rings with cpls := b.rings.cpls ++ [c] } }

/-- The collector slot of a packet's completion: its port, host delivery, inbox delivery, or pipeline discards (R462). -/
def cplSlot (l : Loc) : Nat :=
  match l with
  | .selected p | .sending p => p
  | .hostQ | .delivering => 5
  | .inbox _ => 6
  | _ => 4

/-- The send completion of a packet's descriptor with a STATUS: its device position is the one after it (R380). -/
def Bench.sendDone (b : Bench) (slot : Nat) (d : SendDesc) (status : Nat) (ts : Stamp) : Bench :=
  let n := b.ringN d.ring
  let i := if d.index + 1 = n then 0 else d.index + 1
  let lap := if d.index + 1 = n then 1 - d.lap else d.lap
  let b := b.postCpl slot (b.ringCq d.ring)
    (ts.words ++ [d.user, i + 2 ^ 16 * lap, d.ring + 2 ^ 16 * status, d.tag, 1])
  let b := b.setMbits (ringAddr d.ring) 192 16 (b.ringHeld d.ring - 1)
  { b with rings := { b.rings with sends := b.rings.sends.filter (· ≠ d) } }

/-- The send descriptor of a packet. -/
def Bench.sendOf? (b : Bench) (id : Nat) : Option SendDesc := b.rings.sends.find? (fun d => d.pid = some id)

/-- The fate of a packet is final (R377): the descriptor it came from is completed. -/
def Bench.finish (b : Bench) (slot id status : Nat) (ts : Stamp) : Bench :=
  match b.sendOf? id with
  | some d => b.sendDone slot d status ts
  | none => b

/-! ## Discards -/

/-- Take a packet out of every queue of the traffic manager. -/
def Bench.unqueue (b : Bench) (p : Pkt) : Bench :=
  let b := b.dequeue p .gone
  { b with tm := { b.tm with side := b.tm.side.filter (· ≠ p.id), hostQ := b.tm.hostQ.filter (· ≠ p.id) } }

/-- The ids of a packet and of its mirror copies, which share its buffers (R168). -/
def Bench.sharers (b : Bench) (id : Nat) : List Nat :=
  (b.pkts.filter (fun k => k.id = id || k.mirrorOf = some id)).map (·.id)

/-- Change a packet and its mirror copies. -/
def Bench.updSharers (b : Bench) (id : Nat) (f : Pkt → Pkt) : Bench :=
  { b with pkts := b.pkts.map (fun p => if p.id = id || p.mirrorOf = some id then f p else p) }

/-- Do something to a packet and to each of its mirror copies. -/
def Bench.eachSharer (b : Bench) (id : Nat) (f : Bench → Pkt → Bench) : Bench :=
  (b.sharers id).foldl (fun b i => match b.pkt? i with | some p => f b p | none => b) b

/-! ## The cipher's queues (R188, R189) -/

/-- One past the last chain byte that a job enciphers: an ICV that stands at the packet's end stays. -/
def CipherJob.stop (j : CipherJob) (p : Pkt) : Nat := p.start + p.netLen - (if !j.enc || p.decPending then 16 else 0)
/-- The body steps of a job's packet (R188). -/
def CipherJob.total (j : CipherJob) (p : Pkt) : Nat := (p.start + p.netLen - (j.base + 256) + 39) / 40
/-- A packet with its job of a direction whose verdict is to come. -/
def Bench.jobOf (b : Bench) (enc : Bool) (id : Nat) : Option (Pkt × CipherJob) :=
  (b.pkt? id).bind (fun p => (p.jobs.find? (fun j => j.enc = enc && !j.set)).map (fun j => (p, j)))
/-- Has a packet steps left? -/
def stepsLeft (x : Pkt × CipherJob) : Bool := x.2.steps < x.2.total x.1
/-- The packets of a direction whose verdict is to come, from the first that has steps left on, in arrival order. -/
def Bench.working (b : Bench) (enc : Bool) : List Nat :=
  ((b.ci.queue.filter (fun x => x.1 = enc)).map (·.2)).dropWhile (fun id => !((b.jobOf enc id).map stepsLeft).getD false)
/-- CIPHER_QUEUE_d: OCCUPANCY counts the packets that wait behind another's steps, HWM its greatest value (R189). -/
def Bench.countCipher (b : Bench) : Bench :=
  [(true, 0), (false, 1)].foldl (fun b x =>
    let k := (b.working x.1).length - 1
    let b := b.setFld (R.cipher_CIPHER_QUEUE_OCCUPANCY x.2) k
    if b.fld (R.cipher_CIPHER_QUEUE_HWM x.2) < k then b.setFld (R.cipher_CIPHER_QUEUE_HWM x.2) k else b) b
/-- The learn records of a packet whose status is now known: good ones stop waiting, spoiled ones are dropped and
counted in LEARN_SPOILED (R147, R190). -/
def Bench.learnStatus (b : Bench) (id : Nat) (good : Bool) : Bench :=
  let mine := fun (r : LearnRec) => r.pkt = some id && r.wait
  if good then
    { b with mt := { b.mt with learnq := b.mt.learnq.map (fun r => if mine r then { r with wait := false } else r) } }
  else
    let k := (b.mt.learnq.filter mine).length
    let b := { b with mt := { b.mt with learnq := b.mt.learnq.filter (fun r => !mine r) } }
    (b.setFld R.match_LEARN_STATUS_OCCUPANCY b.mt.learnq.length).count T.LEARN_SPOILED k

/-- The buffers of a packet and of all its copies are back in the hopper: no step runs on them and no verdict comes (R188); a learn
record that waits for the verdict is dropped. [DEDUCED, log 126, unsafe] -/
def Bench.retireJobs (b : Bench) (id : Nat) : Bench :=
  let b := if (b.pkts.any (fun k => k.family = id && k.verdictPending)) then b.learnStatus id false else b
  let b := b.updSharers id (fun p => { p with jobs := p.jobs.map (fun j => { j with set := true }) })
  { b with ci := { b.ci with queue := b.ci.queue.filter (fun x => x.2 ≠ id) } }.countCipher

/-- Forget a packet, or keep its entry while its end status or, for a copy that is still held, a verdict is to come. -/
def Bench.forget (b : Bench) (p : Pkt) : Bench :=
  let b := b.updPkt p.id (fun k => { k with loc := .gone })
  let held := b.pkts.any (fun k => k.family = p.family && k.loc ≠ .gone)
  let b := if held then b else b.retireJobs p.family
  { b with pkts := b.pkts.filter (fun k => !(k.family = p.family && k.loc = .gone && k.ended && !(held && k.verdictPending))) }

/-- OCCUPANCY of the host delivery queue and of the side entry, with their high-water marks (R238). -/
def Bench.countQueues (b : Bench) : Bench :=
  let h := b.tm.hostQ.length
  let s := b.tm.side.length
  let b := (b.setFld R.tm_HOST_QUEUE_OCCUPANCY h).setFld R.tm_SIDE_QUEUE_OCCUPANCY s
  let b := if b.fld R.tm_HOST_QUEUE_HWM < h then b.setFld R.tm_HOST_QUEUE_HWM h else b
  if b.fld R.tm_SIDE_QUEUE_HWM < s then b.setFld R.tm_SIDE_QUEUE_HWM s else b

/-- A packet ends: its buffers go back under tag 0x01, its descriptor is completed with `status`, its entry goes. -/
def Bench.endPkt (b : Bench) (p : Pkt) (status : Nat) (ts : Stamp) (ecc : Ecc := []) : Bench :=
  let b := b.unqueue p
  let b := if p.loc = .gone then b else b.endUse 1 p.handle ecc
  ((b.finish (cplSlot p.loc) p.id status ts).forget p).countQueues

/-- A packet is discarded under a spoil code, counted in the code's tally at `inst`. -/
def Bench.discardAt (b : Bench) (p : Pkt) (code inst : Nat) (ecc : Ecc := []) : Bench :=
  (b.spoilTick code inst).endPkt p code Stamp.none ecc

/-- The face assigns a received frame its spoil code and counts it on the port; 0 for none (R65, R87). [DEDUCED, log 104, unsafe] -/
def Bench.assignCode (b : Bench) (p code : Nat) : Bench := if code = 0 then b else b.spoilTick code p

/-- The haul status codes of R404 as their numbers. -/
def hsDomainDown : Nat := 1
def hsDomainLost : Nat := 2
def hsBadCommand : Nat := 3
def hsBadAddress : Nat := 4
def hsSrcEcc : Nat := 5
def hsCheckEcc : Nat := 6
def hsNoBuffer : Nat := 7
def hsNoClaim : Nat := 8
def hsNotOwner : Nat := 9
def hsStageEcc : Nat := 10

/-- The tallies of a command that ends (R407). A frame whose fragments are bad ended with BAD_COMMAND (R398). [DEDUCED, log 142, unsafe] -/
def Bench.tallyCmd (b : Bench) (chan status bytes : Nat) : Bench :=
  ((b.tick (T.HAUL_CMDS chan)).count (T.HAUL_BYTES chan) bytes).tick (T.HAUL_STATUS (if status = 0x9D then hsBadCommand else status))

/-- A packet is discarded under a spoil code of a stage that keeps one tally; a code of R65 was counted when the face assigned
it. [DEDUCED, log 104, unsafe] -/
def Bench.discard (b : Bench) (p : Pkt) (code : Nat) (ecc : Ecc := []) : Bench :=
  if 0x10 ≤ code && code ≤ 0x13 then b.endPkt p code Stamp.none ecc
  else b.discardAt p code (if code < 0x30 then p.port else 0) ecc

/-! ## Gate lists as they stand in memory (R229, R231) -/

/-- Bench offsets of a port's shadow and active lists. -/
def gateShadow (p : Nat) : Nat := 0x5280000 + 0x4000 * p
def gateActive (p : Nat) : Nat := gateShadow p + 0x2000

/-- A gate list as OPEN masks and intervals in units of 2^-32 ns. -/
abbrev GateList := List (Nat × Nat)

/-- The first `k` entries of a list in memory; `unit` is the interval's unit. -/
def Bench.gateList (b : Bench) (a k unit : Nat) : GateList :=
  (List.range k).map (fun i => (b.le (a + 8 * i) 4 % 256, b.le (a + 8 * i + 4) 4 * unit))

/-- 1 ns (chisel) or 8 ns in units of 2^-32 ns. -/
def Bench.gateUnit (b : Bench) : Nat := if b.power.profile = 1 then 2 ^ 32 else 2 ^ 35
/-- The greatest length of a list. -/
def Bench.gateLimit (b : Bench) : Nat := if b.power.profile = 1 then 1024 else 128
/-- The cycle time of a list. -/
def GateList.cycle (l : GateList) : Nat := (l.map (·.2)).sum
/-- The active list of a port. -/
def Bench.activeList (b : Bench) (p : Nat) : GateList :=
  b.gateList (gateActive p) (b.fld (R.tm_GATE_STATUS_ACTIVE_LEN p)) b.gateUnit
/-- The shadow list of a port. -/
def Bench.shadowList (b : Bench) (p : Nat) : GateList :=
  b.gateList (gateShadow p) (b.fld (R.tm_GATE_SHADOW_LEN_LEN p)) b.gateUnit

/-- Is a list in force on a port; does one wait? -/
def Bench.gateOn (b : Bench) (p : Nat) : Bool := b.flag (R.tm_GATE_STATUS_ACTIVE p)
def Bench.gatePending (b : Bench) (p : Nat) : Bool := b.flag (R.tm_GATE_STATUS_PENDING p)

/-- Byte-times of a port in units of 2^-32 ns, rounded up: `k` bytes at the nominal rate. -/
def byteTimes (mode k : Nat) : Nat := (k * 80 * 2 ^ 32 + portRate mode - 1) / portRate mode

/-- The longest run of open time of class `c` in a cyclic list (R231): none when it is open in every entry. -/
def GateList.maxOpen (l : GateList) (c : Nat) : Option Nat :=
  if l.all (fun e => bit e.1 c) then none
  else
    let r := (l ++ l).foldl (fun (x : Nat × Nat) e =>
      if bit e.1 c then (x.1 + e.2, max x.2 (x.1 + e.2)) else (0, x.2)) (0, 0)
    some r.2

/-- Is a class gated (R229)? -/
def Bench.gated (b : Bench) (p c : Nat) : Bool := b.flag (R.tm_CLASS_CFG_GATED p c)

/-- The flow queue that a packet is in. -/
def Pkt.flowOf (p : Pkt) : Option Nat := match p.loc with | .flow q => some q | _ => none
/-- The queues of a port that hold packets. -/
def Bench.portQueues (b : Bench) (p : Nat) : List Nat :=
  ((b.tm.flow.filterMap (fun id => (b.pkt? id).bind Pkt.flowOf)).filter (fun q => b.qPort q = p)).eraseDups

/-- Heads of gated classes that can never pass their gate are discarded under GATE_OVERSIZE, once their length is final (R231). [DEDUCED, log 131, unsafe] -/
def Bench.dropOversize (b : Bench) (p : Nat) : Bench :=
  if !b.gateOn p then b
  else
    let l := b.activeList p
    let tooLong := fun (k : Pkt) (c : Nat) =>
      match l.maxOpen c with
      | none => false
      | some m => !k.tm.provisional && m < byteTimes b.power.portMode (1 + k.tm.charged)
    (b.portQueues p).foldl (fun b q =>
      if !b.gated p (b.qClass q) then b
      else
        let bad := (b.queued q).takeWhile (fun k => tooLong k (b.qClass q))
        bad.foldl (fun b k => b.discard k 0x7A) b) b

/-! ## Length fix-ups (R172, R173) -/

/-- One's complement sum of 16-bit words in network order, an odd last byte padded with zero. -/
def onesSum : List Byte → Nat → Nat
  | [], s => s
  | [x], s => s + 256 * x.toNat
  | x :: y :: t, s => onesSum t (s + 256 * x.toNat + y.toNat)

/-- Fold a sum into 16 bits with end-around carry. -/
def foldSum (s : Nat) : Nat :=
  let a := s % 65536 + s / 65536
  let c := a % 65536 + a / 65536
  c % 65536 + c / 65536

/-- The Internet checksum of bytes: the one's complement of their folded sum. -/
def inetSum (l : List Byte) : Nat := 65535 - foldSum (onesSum l 0)

/-- Replace bytes of a list at a position. -/
def putAt (l : List Byte) (i : Nat) (v : List Byte) : List Byte := l.take i ++ v ++ l.drop (i + v.length)

/-- Bytes of a list, `n` from `i`, zero past its end. -/
def slice (l : List Byte) (i n : Nat) : List Byte :=
  let s := (l.drop i).take n
  s ++ List.replicate (n - s.length) 0#8

/-- The headers that a template pushes, as offsets in it: those whose lengths the action stage completes (R172). -/
structure PushHdr where
  ipEn : Bool
  ip6 : Bool
  ipOff : Nat
  ihl : Nat
  udpEn : Bool
  udpOff : Nat
deriving DecidableEq, Repr

/-- No pushed header. -/
def PushHdr.none : PushHdr := { ipEn := false, ip6 := false, ipOff := 0, ihl := 0, udpEn := false, udpOff := 0 }
/-- The lengths to complete in a header pushed at chain byte `x`. -/
def PushHdr.at_ (f : PushHdr) (x : Nat) : Fixup :=
  { ip := if f.ipEn then some (x + f.ipOff) else Option.none, ip6 := f.ip6, ihl := f.ihl, udp := if f.udpEn then some (x + f.udpOff) else Option.none }
/-- Is there nothing to complete? -/
def Fixup.isEmpty (f : Fixup) : Bool := f.ip.isNone && f.udp.isNone
/-- What is left when every byte before chain byte `x` is stripped. -/
def Fixup.after (f : Fixup) (x : Nat) : Fixup := { f with ip := f.ip.filter (x ≤ ·), udp := f.udp.filter (x ≤ ·) }
/-- The bytes in `[x, y)` have moved `d` bytes towards the headroom. -/
def Fixup.moved (f : Fixup) (x y d : Nat) : Fixup :=
  let g := fun (k : Nat) => if x ≤ k && k < y then k - d else k
  { f with ip := f.ip.map g, udp := f.udp.map g }

/-- The job that has enciphered a chain byte and whose verdict is to come. -/
def Pkt.encAt (p : Pkt) (x : Nat) : Option CipherJob :=
  p.jobs.find? (fun j => j.enc && !j.set && max j.low j.off ≤ x && x < j.done)
/-- Bytes of a packet in the clear, whether or not they have been enciphered. -/
def Bench.clearBytes (b : Bench) (p : Pkt) (x n : Nat) : List Byte :=
  (b.chainBytes p.handle x n).mapIdx (fun i c => match p.encAt (x + i) with | some j => j.stream (x + i) c | none => c)
/-- A job whose tag took chain bytes that are now written anew as `l` from `x` on. -/
def CipherJob.retake (j : CipherJob) (x : Nat) (l : List Byte) : CipherJob :=
  if !j.enc || j.set then j
  else
    let a := j.aad.length - (min j.done j.off - j.payload)
    l.zipIdx.foldl (fun j c =>
      let y := x + c.2
      if y < max j.low j.payload || j.done ≤ y then j
      else if y < j.off then { j with aad := j.aad.set (a + y - j.payload) c.1 }
      else { j with text := j.text.set (y - j.off) c.1 }) j
/-- Write bytes of a packet given in the clear: those already enciphered are enciphered again. [DEDUCED, log 125, unsafe] -/
def Bench.writeClear (b : Bench) (p : Pkt) (x : Nat) (l : List Byte) : Bench :=
  let m := l.mapIdx (fun i c => match p.encAt (x + i) with | some j => j.stream (x + i) c | none => c)
  (b.setChain p.handle x m).updSharers p.family (fun k => { k with jobs := k.jobs.map (·.retake x m) })

/-- Write the lengths of one pushed header, for the packet's end as it now stands (R172). -/
def Bench.writeFix (b : Bench) (p : Pkt) (f : Fixup) : Bench :=
  let e := p.start + p.dataLen
  let b := match f.ip with
    | some x =>
      if f.ip6 then b.writeClear p (x + 4) (beBytes 2 (e - x - 40))
      else
        let b := (b.writeClear p (x + 2) (beBytes 2 (e - x))).writeClear p (x + 10) [0#8, 0#8]
        b.writeClear p (x + 10) (beBytes 2 (inetSum (b.clearBytes p x f.ihl)))
    | none => b
  match f.udp with
  | some x => b.writeClear p (x + 4) (beBytes 2 (e - x))
  | none => b
/-- Write the pending fix-ups of a packet, once its end status is known and no decryption has its tail still to trim (R173). [DEDUCED, log 125, unsafe] -/
def Bench.writeFixes (b : Bench) (p : Pkt) : Bench :=
  if p.fix.isEmpty || !p.ended || p.decPending then b
  else (p.fix.foldl (fun b f => b.writeFix p f) b).updPkt p.id (fun k => { k with fix := [] })

/-! ## End status (R65 to R68) -/

/-- A packet whose length was provisional takes its final length: OCCUPANCY falls by the difference, the meter is refunded, also for a
packet already gone, and the requests are judged again (R215, R219, R236). -/
def Bench.settle (b : Bench) (p : Pkt) : Bench :=
  if !p.tm.provisional then b
  else
    let f := b.finalLen p
    let d := p.tm.charged - f
    let b := b.updPkt p.id (fun k => { k with tm := { k.tm with charged := f, provisional := false } })
    let b := match p.tm.meter with
      | some m => b.refund m p.tm.colour d
      | none => b
    match p.loc with
    | .flow q =>
      (((b.setMbits (qAddr q) 256 25 (b.qOcc q - d)).addOcc (b.qPort q) p.tm.cls (-(d : Int))).judgeReqs p.port).dropOversize (b.qPort q)
    | _ => b

/-- Is a packet a MAC control frame (R70)? -/
def Bench.isMacControl (b : Bench) (k : Pkt) : Bool := 14 ≤ k.len && beNat (b.pktBytes k 12 2) = 0x8808

/-- A packet's status or verdict has failed: the consumer that holds it discards it (R67, R190, R224). In the parsing
stages, and before its header is presented (R95), it goes as it leaves them; in the transmitter the port ends it. -/
def Bench.failHeld (b : Bench) (p : Pkt) (code : Nat) : Bench :=
  match p.loc with
  | .receiving => if p.ring.isSome || b.isMacControl p then b.discard p code else b
  | .gone => b.forget p
  | .sending _ => b
  | .entry => b
  | .loop => b
  | .flow q => (b.discard p code).dropOversize (b.qPort q)
  | _ => b.discard p code

/-- The end status of one packet (R67): a spoiled packet is discarded by the consumer that holds it; a good one gets its
fix-ups and its final charge. -/
def Bench.endStatus1 (b : Bench) (code : Nat) (p0 : Pkt) : Bench :=
  let p := { p0 with ended := true, spoil := if p0.spoil = 0 then code else p0.spoil }
  let b := b.updPkt p.id (fun _ => p)
  let b := if code ≠ 0 || !p.verdictPending then b.learnStatus p.id (code = 0) else b
  let b := ((if code = 0 then b.writeFixes p else b).settle p)
  match b.pkt? p.id with
  | none => b
  | some p => if code ≠ 0 then b.failHeld p code else if p.loc = .gone then b.forget p else b

/-- The end status of a frame joins its packet and the copies that share its buffers (R67, R168). [DESIGN CHOICE, log 38, unsafe] -/
def Bench.endStatus (b : Bench) (id code : Nat) : Bench := b.eachSharer id (fun b p => b.endStatus1 code p)

/-! ## Admission (R213 to R222) -/

/-- The tag of a new packet (R225): max(v, F_LAST) + L × 4096 ÷ W, 48 bits; comparison by the sign of the difference. -/
def tagLess (x y : Nat) : Bool := 2 ^ 47 ≤ (x + 2 ^ 48 - y % 2 ^ 48) % 2 ^ 48
def tagMax (x y : Nat) : Nat := if tagLess x y then y else x
def finishTag (v flast len w : Nat) : Nat := (tagMax v flast + len * 4096 / w) % 2 ^ 48

/-- v[p][c] (R225). -/
def Bench.vtagOf (b : Bench) (p c : Nat) : Nat := sparseGet noCount b.tm.vtag (8 * p + c)

/-- The code under which a colour is refused at its limit (R222). -/
def limitCode (colour : Nat) : Nat := 0x70 + colour

/-- Checks 1 and 2 of R222 after metering: the spoil code, 0 when they pass. -/
def Bench.colourCheck (b : Bench) (m : Option Nat) (colour : Nat) : Nat :=
  match m with
  | none => 0
  | some m =>
    if b.mbits (meterAddr m) 0 1 = 0 then 0x7B
    else if colour = 1 && b.mbits (meterAddr m) 2 1 = 1 then 0x73
    else if colour = 2 && b.mbits (meterAddr m) 3 1 = 1 then 0x74 else 0

/-- Checks 3 and 4 of R222. -/
def Bench.queueCheck (b : Bench) (q colour : Nat) : Nat :=
  if !b.qValid q then 0x75 else if b.qLimit q colour ≤ b.qOcc q then limitCode colour else 0

/-- Link a packet to its flow queue: finish tag, OCCUPANCY, PACKETS, HWM, sums, requests (R214, R225, R236). -/
def Bench.link (b : Bench) (p : Pkt) (q : Nat) (tm : PktTm) : Bench :=
  let pp := b.qPort q
  let c := b.qClass q
  let tag := finishTag (b.vtagOf pp c) (b.qFLast q) tm.charged (b.qWeight q)
  let b := b.updPkt p.id (fun k => { k with loc := .flow q, tm := { tm with queue := q, tag := tag, cls := c } })
  let b := { b with tm := { b.tm with flow := b.tm.flow ++ [p.id] } }
  let b := (b.setMbits (qAddr q) 384 48 tag).setMbits (qAddr q) 288 20 (b.qPackets q + 1)
  (((b.setOcc q (b.qOcc q + tm.charged)).setHeadF q).addOcc pp c tm.charged).judgeReqs p.port

/-- An uncorrectable error in a meter or queue context read by a lane (R244). -/
def Bench.tmEcc (b : Bench) (kind idx : Nat) : Bench :=
  ((b.setFld R.tm_TM_ECC_LOG_INDEX idx).setFld R.tm_TM_ECC_LOG_KIND kind).raise 30

/-- The enqueue lane of R214 for a packet bound for flow queue `q`, metered when `m` names a meter. [DEDUCED, log 43, unsafe] -/
def Bench.lane (b : Bench) (p : Pkt) (m : Option Nat) (q : Nat) (ecc : Ecc) : Bench :=
  let ch := b.chargeOf p
  let tm : PktTm := { queue := q, colour := 0, meter := m, charged := ch.1, provisional := ch.2, tag := 0, cls := 0 }
  let mBad := match m with | some m => ecc.unc (meterAddr m) (meterAddr m + 64) | none => false
  let mCor := match m with | some m => ecc.cor (meterAddr m) (meterAddr m + 64) | none => 0
  let b := b.correctable 4 (mCor + ecc.cor (qAddr q) (qAddr q + 64))
  if mBad then (b.tmEcc 0 (m.getD 0)).discard p 0x79 ecc
  else if ecc.unc (qAddr q) (qAddr q + 64) then (b.tmEcc 1 q).discard p 0x79 ecc
  else
    let r := match m with
      | some m => if b.mbits (meterAddr m) 0 1 = 1 then b.meter m p.mark ch.1 else (0, b)
      | none => (0, b)
    let colour := r.1
    let tm : PktTm := { tm with colour := colour, meter := m.filter (fun m => b.mbits (meterAddr m) 0 1 = 1) }
    let b := r.2.updPkt p.id (fun k => { k with tm := tm })
    let c1 := if b.power.drainCut then 0x76 else b.colourCheck m colour
    if c1 ≠ 0 then b.discard p c1 ecc
    else
      let c2 := b.queueCheck q colour
      if c2 ≠ 0 then b.discard p c2 ecc else (b.link p q tm).dropOversize (b.qPort q)

/-- The pipeline lane for a packet bound for a receive ring (R216): metered, then the host delivery queue. -/
def Bench.laneHost (b : Bench) (p : Pkt) (m : Option Nat) (ecc : Ecc) : Bench :=
  let ch := b.chargeOf p
  let mBad := match m with | some m => ecc.unc (meterAddr m) (meterAddr m + 64) | none => false
  let b := b.correctable 4 (match m with | some m => ecc.cor (meterAddr m) (meterAddr m + 64) | none => 0)
  if mBad then (b.tmEcc 0 (m.getD 0)).discard p 0x79 ecc
  else
    let r := match m with
      | some m => if b.mbits (meterAddr m) 0 1 = 1 then b.meter m p.mark ch.1 else (0, b)
      | none => (0, b)
    let tm : PktTm := { p.tm with
      colour := r.1, meter := m.filter (fun m => b.mbits (meterAddr m) 0 1 = 1), charged := ch.1, provisional := ch.2 }
    let b := r.2.updPkt p.id (fun k => { k with tm := tm })
    let c1 := b.colourCheck m r.1
    if c1 ≠ 0 then b.discard p c1 ecc
    else if 1024 ≤ b.tm.hostQ.length then b.discard p 0x77 ecc
    else
      let b := b.updPkt p.id (fun k => { k with loc := .hostQ })
      let t : TmSt := { b.tm with hostQ := b.tm.hostQ ++ [p.id] }
      { b with tm := t }.countQueues

/-- A packet enters the side entry, or is discarded under SIDE_QUEUE_FULL (R213). -/
def Bench.toSide (b : Bench) (p : Pkt) : Bench :=
  if 64 ≤ b.tm.side.length then b.discard p 0x78
  else
    let b := b.updPkt p.id (fun k => { k with loc := .side })
    { b with tm := { b.tm with side := b.tm.side ++ [p.id] } }.countQueues

end Sys2Proof.Machine
end

