-- ==== Sys2Proof/Machine/Mailbox.lean ====
section
/-! DEFINITION. The mailbox block's state (R472 to R481) as the other units use it: mailboxes, doorbells, notices, and
engine ports. -/
namespace Sys2Proof.Machine

/-- An engine port with nothing in it (R314). -/
def EnginePort.reset : EnginePort := { toFm := [], fromFm := [], dbFm := 0, maskFm := 0, dbBench := 0, maskBench := 0 }
/-- The engine port of bench `n`. -/
def Hub.eport (h : Hub) (n : Nat) : EnginePort := sparseGet (fun _ => EnginePort.reset) h.fw.ports n
/-- Put the engine port of bench `n`. -/
def Hub.setEport (h : Hub) (n : Nat) (e : EnginePort) : Hub :=
  { h with fw := { h.fw with ports := sparseSet (fun _ => EnginePort.reset) h.fw.ports n e } }

/-- The PF mailbox of a function: of the PF itself, or of the PF of a VF. -/
def Hub.pfMailbox (h : Hub) (key : Nat) : Option Nat := (h.pfOf key).map (fun f => 8 * fnPort key + f)

/-- A mailbox is cleared by a function-level reset, link loss or a Foreman reset (R480): its registers take their reset
values and its queues and notices go. A command that runs goes on; its result and ACK will be discarded. -/
def Hub.clearMbx (h : Hub) (m : Nat) : Hub :=
  let b := h.mbx m
  let h := h.setMbx m (Mailbox.reset b.live b.fn b.pasid)
  { h with fw := { h.fw with cmds := h.fw.cmds.map (fun (c : Sceune) => if c.mbx = m then { c with dead := true } else c) } }

/-- How many bytes of what a command reads have arrived. -/
def Sceune.arrived (c : Sceune) : Nat := (c.parts.map (fun x => x.2.length)).sum
/-- Put a part among the parts in order of offset. -/
def insertPart (off : Nat) (l : List Byte) : List (Nat × List Byte) → List (Nat × List Byte)
  | [] => [(off, l)]
  | x :: t => if off < x.1 then (off, l) :: x :: t else x :: insertPart off l t
/-- What a command has read, in order. -/
def Sceune.block (c : Sceune) : List Byte := c.parts.flatMap (·.2)
/-- A part of what a command reads arrives, or fails. -/
def Sceune.take (off : Nat) (l : Option (List Byte)) (c : Sceune) : Sceune :=
  match l with
  | some l => { c with parts := insertPart off l c.parts }
  | none => { c with failed := true }
/-- The read of an admin entry that is numbered `id` brings its words, or fails. -/
def AdminPair.entryRead (id : Nat) (l : Option (List Byte)) (a : AdminPair) : AdminPair :=
  if a.entry ≠ .asked id then a
  else match l with
    | some l => { a with entry := .got ((List.range 16).map (fun i => leNat (slice l (4 * i) 4))) }
    | none => { a with entry := .failed }
/-- A read of an admin entry under way is given up. -/
def AdminPair.unread? (a : AdminPair) : AdminPair := match a.entry with | .asked _ => { a with entry := .idle } | _ => a

/-- The Sceune commands that have begun and whose effect an event ends, of an opcode on a subject (R488). -/
def Hub.sceuneOf (h : Hub) (opcode subject : Nat) : List Sceune :=
  h.fw.cmds.filter (fun c => c.begun && c.opcode = opcode && c.ops.headD 0 % 4096 = subject)

/-- A claim's mailbox becomes FREE. -/
def Hub.freeMbx (h : Hub) (m : Nat) : Hub := (h.clearMbx m).updMbx m (fun b => { b with live := false })

/-! ## Host writes of the hub (R332, R384, R483) -/

/-- Max_Payload_Size of a function in bytes, at most 512. -/
def FnSt.mpsBytes (f : FnSt) : Nat := min 512 (128 * 2 ^ f.mps)
/-- The first piece of a request: at most `m` bytes, not over a 4 KiB boundary (R335, R392). -/
def firstPiece (m addr n : Nat) : Nat := min n (min m (4096 - addr % 4096))
/-- Split a write at Max_Payload_Size and at 4 KiB boundaries. -/
def writePieces (m : Nat) : Nat → Nat → List Byte → List (Nat × List Byte)
  | 0, _, _ => []
  | fuel + 1, addr, l =>
    if l.isEmpty then []
    else
      let k := firstPiece m addr l.length
      (addr, l.take k) :: writePieces m fuel (addr + k) (l.drop k)

/-- A write of the Foreman to host memory in a function's address space: it waits for the HOME_BENCH window; none is sent
while Bus Master Enable is 0 (R347). -/
def Hub.hostWrite (h : Hub) (key : Nat) (pasid : Option Nat) (addr : Nat) (l : List Byte) : Hub :=
  let f := h.fn key
  if !f.bme || (pasid.isSome && !f.pasidEn) then h
  else h.queueTlps ((writePieces f.mpsBytes (l.length + 1) addr l).map (fun x =>
    { Tlp.blank .write key with addr := x.1, data := x.2, pasid := pasid }))

/-! ## The end of a Sceune command (R478, R483, R484) -/

/-- The position after an entry of an admin queue of 2^size entries (R370, R384). -/
def adminNext (size : Nat) (p : Nat × Nat) : Nat × Nat := if p.1 + 1 = 2 ^ size then (0, 1 - p.2) else (p.1 + 1, p.2)

/-- Are the host accesses of a mailbox's caller stopped: Bus Master Enable 0, or its PASID not enabled (R347, R480)? [DEDUCED, log 83, unsafe] -/
def Hub.mbxMute (h : Hub) (m : Nat) : Bool :=
  let b := h.mbx m
  !(h.fn b.fn).bme || (b.pasid.isSome && !(h.fn b.fn).pasidEn)

/-- Put one completion entry at the pair's device position, then raise its vector (R484). -/
def Hub.adminPut (h : Hub) (m : Nat) (ws : List Nat) : Hub :=
  let b := h.mbx m
  match b.admin with
  | none => h
  | some a =>
    let l := (ws.set 3 (ws.getD 3 0 + 2 ^ 31 * a.cqDev.2)).flatMap (leBytes 4)
    let h := h.hostWrite b.fn b.pasid (a.cqBase + 16 * a.cqDev.1) l
    let h := h.setMbx m { b with admin := some { a with cqDev := adminNext a.cqSize a.cqDev } }
    h.raiseVector b.fn a.vector

/-- The completions that waited are written, once the caller's accesses are allowed again (R480). -/
def Hub.adminFlush (h : Hub) (m : Nat) : Hub :=
  let b := h.mbx m
  match b.admin with
  | none => h
  | some a =>
    if h.mbxMute m then h
    else a.held.foldl (fun h ws => h.adminPut m ws) (h.setMbx m { b with admin := some { a with held := [] } })

/-- The same for every mailbox of a function. -/
def Hub.adminFlushFn (h : Hub) (key : Nat) : Hub :=
  (h.fw.mbx.filter (fun x => x.2.fn = key)).foldl (fun h x => h.adminFlush x.1) h

/-- The admin completion of a command (R484): 16 bytes; it waits while the caller's host accesses are stopped. [DEDUCED, log 83, unsafe] -/
def Hub.adminComplete (h : Hub) (m : Nat) (c : Sceune) (code : Nat) (res : List Nat) : Hub :=
  let b := h.mbx m
  match b.admin with
  | none => h
  | some a =>
    let ws := [c.cmdId + 2 ^ 16 * code, res.getD 0 0, res.getD 1 0, c.sqPos.1 + 2 ^ 16 * c.sqPos.2]
    if h.mbxMute m then h.setMbx m { b with admin := some { a with held := a.held ++ [ws] } } else h.adminPut m ws

/-- A command ends with a return code and result words (R483 step 5, R484): to RBUF or OUT_DATA with the ACK and DONE, or as an
admin completion. One whose mailbox was cleared ends silently: its result words and ACK are counted (R480). [DEDUCED, log 93, unsafe] -/
def Hub.sceuneEnd (h : Hub) (c : Sceune) (code : Nat) (res : List Nat) (rbuf : Nat) : Hub :=
  let h := { h with fw := { h.fw with cmds := h.fw.cmds.erase c } }
  let b := h.mbx c.mbx
  if c.dead then h.count T.MBX_OUT_DISCARD (res.length + 1)
  else
    let h := if rbuf ≠ 0 && code = 0 then h.hostWrite b.fn b.pasid rbuf (res.flatMap (leBytes 4)) else h
    if c.admin then h.adminComplete c.mbx c code res
    else
      let h := if b.ack.isSome then h.tick T.HUB_COMMIT_STATUS_LOST else h
      let seq := (b.seq + 1) % 256
      let out := if rbuf ≠ 0 then [] else res.map (BitVec.ofNat 32)
      let h := h.setMbx c.mbx { b with
        busy := false, seq := seq, outq := b.outq ++ out, ack := some (BitVec.ofNat 32 (code + 2 ^ 16 + 2 ^ 24 * seq)) }
      h.dbToHost c.mbx 1

/-! ## Claims that a bench loses (R366) -/

/-- A claim is removed with its bench: its mailbox becomes FREE, and its function's PF mailbox learns of it (R484). [DEDUCED, log 49, unsafe] -/
def Hub.claimLost (h : Hub) (n : BenchId) (idx : Nat) (c : Claim) : Hub :=
  let d := 256 * n.val + idx
  let h := h.freeMbx (16 + d)
  match h.pfMailbox c.fn with
  | some m => if h.mbxLive m then (h.notice m 1 d).dbToHost m 4 else h
  | none => h

/-- Every claim of a bench is removed (R366). -/
def Hub.claimsLost (h : Hub) (n : BenchId) (l : List (Nat × Claim)) : Hub :=
  l.foldl (fun h c => h.claimLost n c.1 c.2) h

/-- The debug session of a bench ends with it (R512): hub event 665 on a change of session. -/
def Hub.endEngineSession (h : Hub) (n : BenchId) : Hub :=
  let m := h.fld R.dbg_DBG_SESSION_ENGINE_MASK
  if bit m n.val then (h.setFld R.dbg_DBG_SESSION_ENGINE_MASK (m - 2 ^ n.val)).raise 665 else h

end Sys2Proof.Machine
end

