-- ==== Sys2Proof/Machine/Face.lean ====
section
/-! DEFINITION. The face of a bench: link states (R58 to R63), reception (R65 to R70), transmission (R71 to R73), pause and
PFC (R74 to R76), timestamps of frames (R80 to R83). -/
namespace Sys2Proof.Machine

/-! ## Ports and lanes -/

/-- Link states as PORT_STATUS encodes them (R91). -/
def psDisabled : Nat := 0
def psWait : Nat := 1
def psTraining : Nat := 2
def psUp : Nat := 3
def psFailed : Nat := 4

/-- The link state of a port. -/
def Bench.portSt (b : Bench) (p : Nat) : Nat := b.fld (R.face_PORT_STATUS_STATE p)
/-- Is a port UP? -/
def Bench.isUp (b : Bench) (p : Nat) : Bool := b.hasPort p && b.portSt p = psUp

/-- A port changes state: LINK_CHANGED is set and event 8 raised (R61). -/
def Bench.setPortSt (b : Bench) (p s : Nat) : Bench :=
  ((b.setFld (R.face_PORT_STATUS_STATE p) s).setFld (R.face_PORT_STATUS_LINK_CHANGED p) 1).raise 8

/-- The lanes of port `p`. -/
def Bench.lanes (b : Bench) (p : Nat) : List Nat := portLanes b.power.portMode p
/-- Set one LANE_STATUS field of every lane of a port. -/
def Bench.setLanes (b : Bench) (p : Nat) (f : Nat → Fld) (v : Nat) : Bench :=
  (b.lanes p).foldl (fun b l => b.setFld (f l) v) b
/-- Do lanes of the port carry failed marks (R61)? -/
def Bench.laneFailed (b : Bench) (p : Nat) : Bool := (b.lanes p).any (fun l => b.flag (R.face_LANE_STATUS_FAILED l))

/-- The port type of a port mode (R7, R58): the one technology that its auto-negotiation page offers (R60). -/
def techOf (mode : Nat) : Tech :=
  match mode with
  | 1 | 6 => .g200
  | 2 => .g400
  | 3 => .g50
  | 4 => .g25
  | 5 => .g10
  | _ => .g100

/-- LOOPBACK of a port (R93): 1 near-end, 2 far-end, where every lane of the port has it; else 0. [DEDUCED, log 111, unsafe] -/
def Bench.loopOf (b : Bench) (p : Nat) : Nat :=
  let all := fun v => (b.lanes p).all (fun l => b.fld (R.face_LANE_CTL_LOOPBACK l) = v)
  if all 1 then 1 else if all 2 then 2 else 0

/-- Does the port run Clause 73 auto-negotiation: copper cable or backplane, with AN_EN = 1 (R60, R90)? -/
def Bench.negotiates (b : Bench) (p : Nat) : Bool :=
  b.fld (R.face_PORT_CTL_IFACE p) ≠ 0 && b.flag (R.face_PORT_CTL_AN_EN p)

/-! ## Timestamps of frames (R80) -/

/-- Bench time in units of 1/16 ns, fraction truncated to four bits. -/
def TimeSt.sixteenths (t : TimeSt) : Nat := (t.sec * 1000000000 + t.ns) * 16 + t.frac / 2 ^ 28

/-- The time `x` in sixteenths of a nanosecond as a record. -/
def Stamp.ofSixteenths (x : Nat) (cal : Bool) (p : Nat) : Stamp :=
  { valid := true, cal := cal, sec := x / 16 / 1000000000 % 2 ^ 48, ns := x / 16 % 1000000000, frac := x % 16, port := p }

/-- The timestamp of a frame whose delimiter is at the ball now. A chisel port adds the SerDes phase in 62.5 ps steps and
BOARD_DELAY of its first lane; `delay` is the signed picoseconds of the direction. The sum is cut to FRAC's four bits. [DESIGN CHOICE, log 114, unsafe] -/
def Bench.stampNow (b : Bench) (p phase : Nat) (delay : Fld) : Stamp :=
  let t := b.time
  if b.power.profile = 1 then
    let x : Nat := (t.sec * 1000000000 + t.ns) * 2 ^ 32 + t.frac + phase * 2 ^ 28
    let d : Int := signed 16 (b.fld delay) * 4294967296 / 1000
    Stamp.ofSixteenths (((x : Int) + d) / 268435456).toNat
      (b.flag (R.face_PORT_STATUS_CAL p)) p
  else Stamp.ofSixteenths t.sixteenths false p

/-- First lane of a port. -/
def Bench.lane0 (b : Bench) (p : Nat) : Nat := (b.lanes p).headD 0

/-! ## Reception -/

/-- What the metadata and the field vector start from. -/
def Pkt.fresh (id : Nat) (loc : Loc) (port handle start len : Nat) : Pkt :=
  { id := id, loc := loc, port := port, ring := none, engine := false, mirrorOf := none, handle := handle, start := start
    len := len, fcs := 0, rxLen := len, oversize := false, ended := false, spoil := 0, ts := Stamp.none, stHit := false
    stIdx := 0, present := 0, admitAt := 0, seen := Stamp.none, gen := 0, second := false, wstart := 0, wend := 0, snode := 0, fv := [], carry := []
    growth := 0, act := { w0 := 0, w1 := 0, w2 := 0 }, mark := 0, jobs := [], fix := []
    tm := { queue := 0, colour := 0, meter := none, charged := 0, provisional := false, tag := 0, cls := 0 }
    tx := { ptpOp := 0, ptpOff := 0, csumOff := 0, capture := false, tag := 0, stamp := none }
    desc := 0, trunc := 0, origLen := 0, txAt := 0 }

/-- Add a packet. -/
def Bench.addPkt (b : Bench) (p : Pkt) : Bench := { b with pkts := b.pkts ++ [p], nextPid := b.nextPid + 1 }

/-- The pool from 1 to 3 that holds `n` bytes. -/
def bodyPool (n : Nat) : Nat := (poolFor n 3 1).getD 3

/-- The buffers of a packet of the packet path (R248, R249): a head of pool 0, and a body when more than 104 bytes are
stored. An EMPTY answer frees what is held. -/
def Bench.allocPacket (b : Bench) (r : Rank) (spill : Bool) (stored bodyFor tag : Nat) : Option Nat × Bench :=
  match b.alloc r 0 tag with
  | (none, b) => (none, b)
  | (some h, b) =>
    if stored ≤ 104 then (some h, b)
    else
      match b.allocSpill r spill (bodyPool (bodyFor - 80)) tag with
      | (some k, b) => (some h, b.chain h k)
      | (none, b) => (none, b.freeBuf h)

/-- A received frame ends on its port (R68, R88): counts of frames, of received bytes and of frames longer than MAX_FRAME. -/
def Bench.countRx (b : Bench) (p len : Nat) (long : Bool) : Bench :=
  let b := (b.tick (T.RX_FRAMES p)).count (T.RX_BYTES p) len
  if long then b.tick (T.RX_OVERSIZE p) else b

/-- A frame arrives (R66, R68, R249). What arrives of it, FCS included, is `bytes`; only the first MAX_FRAME are stored. [DESIGN CHOICE, log 35, unsafe] -/
def Bench.rxStart (b : Bench) (p : Nat) (bytes : List Byte) (phase : Nat) : Bench :=
  let mf := b.fld (R.face_MAX_FRAME_BYTES p)
  let kept := bytes.take mf
  let long := decide (kept.length < bytes.length)
  match b.allocPacket .face (b.flag R.hopper_HOPPER_CTL_FACE_SPILL) kept.length mf 1 with
  | (none, b) =>
    (b.countRx p bytes.length long).spoilTick 0x14 p
  | (some h, b) =>
    let id := b.nextPid
    let k : Pkt := { Pkt.fresh id .receiving p h 128 kept.length with
      rxLen := bytes.length, oversize := long, origLen := if long then min 65535 bytes.length else 0
      ts := b.stampNow p phase (R.face_BOARD_DELAY_RX_PS (b.lane0 p)) }
    let b := (b.addPkt k).setChain h 128 kept
    b.setPort p { b.port p with rxPid := some id }

/-- The receiver of a port takes a frame from the line. -/
def Bench.fromLine (b : Bench) (p : Nat) : Bench := b.setPort p { b.port p with loopBad := false }

/-- A frame at a port's receiver. Under near-end loopback it is the frame that the port itself sent, and under far-end loopback
it goes out again as it came (R93). [DEDUCED, log 111, unsafe] -/
def Bench.rxArrive (b : Bench) (p : Nat) (bytes : List Byte) (phase : Nat) : Bench :=
  match b.loopOf p with
  | 0 => (b.fromLine p).rxStart p bytes phase
  | 1 =>
    match (b.port p).looped with
    | [] => b
    | (l, bad) :: t =>
      if bytes.take (bytes.length - 4) = l then (b.setPort p { b.port p with looped := t, loopBad := bad }).rxStart p bytes phase
      else b
  | _ =>
    let b := b.fromLine p
    let b : Bench := { b with out := b.out ++ [{ port := p, bytes := bytes, badFcs := false, echo := true }] }
    b.rxStart p bytes phase

/-- RX_FRAME_START: the first word of a frame on an UP port of a RUNNING bench. -/
def execRxFrameStart (n : BenchId) (p : Nat) (bytes : List Byte) (phase : Nat) (s : State) :
    Host.Outcome State Fault Refusal :=
  s.onBench n (fun b =>
    if b.power.st = .running && b.isUp p && (b.port p).rxPid.isNone then b.rxArrive p bytes phase else b)

/-- The station entry that a frame's destination address hits on a port (R69); of several it is the one of lowest index. [DESIGN CHOICE, log 113, unsafe] -/
def Bench.stationHit (b : Bench) (p : Nat) (da : List Byte) : Option Nat :=
  (List.range 32).find? (fun e =>
    b.flag (R.face_STATION_CTL_VALID e) && bit (b.fld (R.face_STATION_CTL_PORT_MASK e)) p &&
      leNat da = (b.reg (R.face_STATION_ADDR_LO e)).toNat + 2 ^ 32 * b.fld (R.face_STATION_ADDR_HI_ADDR_HI e))

/-- Is a header ready to be presented: its frame is at the port, and 128 bytes are stored, or the frame has ended, at MAX_FRAME where it is
truncated (R95)? -/
def Pkt.presentable (k : Pkt) (p : Nat) : Bool :=
  k.loc = .receiving && k.port = p && k.ring.isNone && (128 ≤ k.len || k.ended || k.oversize)

/-- RX_HEADER_PRESENT: the header of the frame being received goes to the port's entry register (R69, R95). -/
def execRxHeaderPresent (n : BenchId) (p : Nat) (s : State) : Host.Outcome State Fault Refusal :=
  s.onBench n (fun b =>
    match b.pkts.find? (fun k => k.presentable p) with
    | some k =>
      if b.isMacControl k || b.pkts.any (fun j => j.loc = .entry && j.port = p) then b
      else
        let hit := b.stationHit p (b.pktBytes k 0 6)
        let b := if hit.isSome then b.tick (T.STATION_HIT p) else b
        b.updPkt k.id (fun k => { k with loc := .entry, present := b.cyc, stHit := hit.isSome, stIdx := hit.getD 0 })
    | none => b)

/-- The spoil code of R65 for a frame whose link stayed UP; 0 where every check passes. -/
def rxCode (codeErr : Bool) (len : Nat) (fcsBad : Bool) : Nat :=
  if codeErr then 0x12 else if len < 64 then 0x11 else if fcsBad then 0x10 else 0

/-- Is a MAC control frame obeyed in the pause mode in force (R70)? -/
def macObeyed (mode opcode : Nat) : Bool := (mode = 1 && opcode = 1) || (mode = 2 && opcode = 0x0101)

/-! ## Transmission -/

/-- A frame leaves a port: its bytes, and whether its FCS is inverted. Near-end loopback brings it to the port's own receiver, and
under far-end loopback the lanes carry the received data in its place (R93). -/
def Bench.emit (b : Bench) (p : Nat) (l : List Byte) (bad : Bool) : Bench :=
  match b.loopOf p with
  | 0 => { b with out := b.out ++ [{ port := p, bytes := l, badFcs := bad, echo := false }] }
  | 1 => b.setPort p { b.port p with looped := (b.port p).looped ++ [(l, bad)] }
  | _ => b

/-- A frame of `l` bytes, padded, whose first byte reaches the ball is counted (R73, R88): none does under loopback. [DEDUCED, log 111, unsafe] -/
def Bench.countTx (b : Bench) (p : Nat) (l : List Byte) : Bench :=
  if b.loopOf p = 0 then (b.tick (T.TX_FRAMES p)).count (T.TX_BYTES p) (l.length + 4) else b

/-- Pad to 60 bytes with zeros (R73). -/
def pad60 (l : List Byte) : List Byte := l ++ List.replicate (60 - l.length) 0#8

/-- Send a frame: padding, counts, and the frame itself, with its FCS inverted where it is ended early (R63, R67, R68, R72, R73). -/
def Bench.sendFrame (b : Bench) (p : Nat) (l : List Byte) (bad : Bool) : Bench := (b.countTx p (pad60 l)).emit p (pad60 l) bad

/-! ## Frames the face sends (R76) -/

/-- The source address of a port's pause and PFC frames (R89). -/
def Bench.portSa (b : Bench) (p : Nat) : List Byte :=
  leBytes 4 (b.reg (R.face_PORT_SA_LO p)).toNat ++ leBytes 2 (b.fld (R.face_PORT_SA_HI_SA_HI p))

/-- A MAC control frame from a source address, with an opcode and its fields. [PRESUMED, log 36, unsafe] -/
def macControl (sa : List Byte) (opcode : Nat) (body : List Byte) : List Byte :=
  [0x01#8, 0x80#8, 0xC2#8, 0#8, 0#8, 1#8] ++ sa ++ [0x88#8, 0x08#8] ++ beBytes 2 opcode ++ body

/-- Send a MAC control frame with an opcode and its fields. -/
def Bench.sendControl (b : Bench) (p opcode : Nat) (body : List Byte) : Bench :=
  b.sendFrame p (macControl (b.portSa p) opcode body) false

/-- A pause frame with a time. -/
def Bench.sendPause (b : Bench) (p q : Nat) : Bench :=
  let b := (b.sendControl p 1 (beBytes 2 q)).tick (T.PAUSE_TX p)
  b.setPort p { b.port p with adv := if q = 0 then 0 else 256, fell := 0 }

/-- A PFC frame: classes in `high` with time QUANTA, classes in `low` with time 0. -/
def Bench.sendPfc (b : Bench) (p high low : Nat) : Bench :=
  let q := b.fld (R.face_PAUSE_CTL_QUANTA p)
  let vec := Nat.lor high low
  let times := (List.range 8).flatMap (fun c => beBytes 2 (if bit high c then q else 0))
  let b := b.sendControl p 0x0101 (beBytes 2 vec ++ times)
  let b := (List.range 8).foldl (fun b c => if bit vec c then b.tick (T.PFC_TX (8 * p + c)) else b) b
  b.setPort p { b.port p with adv := if q = 0 then 0 else high, fell := 0 }

/-- The requests of a port now: the traffic manager's and the XOFF register's, in the mode in force (R76). -/
def Bench.requests (b : Bench) (p : Nat) : Nat :=
  let s := b.port p
  if s.mode = 1 then
    if bit s.tmReqs 8 || b.flag (R.face_XOFF_LINK_XOFF p) then 256 else 0
  else if s.mode = 2 then Nat.lor (s.tmReqs % 256) (b.fld (R.face_XOFF_CLASS_XOFF p)) else 0

/-- The frame that the requests now ask for: link pause with QUANTA while its request is high and with 0 else; PFC names the classes
whose requests are high with QUANTA, and those fallen since the last PFC frame with 0. -/
def Bench.sendRequest (b : Bench) (p : Nat) : Bench :=
  let s := b.port p
  if s.mode = 1 then b.sendPause p (if s.reqs = 0 then 0 else b.fld (R.face_PAUSE_CTL_QUANTA p))
  else if s.mode = 2 then b.sendPfc p s.reqs s.fell
  else b

/-- A frame boundary: no frame is in transmission. The frames that waited for it go, ahead of every queued frame (R76); a port that a
DISABLE waits to take down starts none (R61). [DESIGN CHOICE, log 112, unsafe] -/
def Bench.boundary (b : Bench) (p : Nat) : Bench :=
  let s := b.port p
  if s.txPid.isSome || s.disabling || !b.isUp p then b
  else (List.range s.owed).foldl (fun b _ => b.sendRequest p) (b.setPort p { s with owed := 0 })

/-- A frame is due on a port that is UP: it goes at the next frame boundary. -/
def Bench.oweFrame (b : Bench) (p : Nat) : Bench :=
  if b.isUp p && !(b.port p).disabling then (b.setPort p { b.port p with owed := (b.port p).owed + 1 }).boundary p else b

/-- Act on requests that have changed: one frame (R76). -/
def Bench.requestChange (b : Bench) (p : Nat) : Bench :=
  let s := b.port p
  let r := b.requests p
  if r = s.reqs then b
  else (b.setPort p { s with reqs := r, fell := Nat.land (Nat.lor s.fell s.reqs) (511 - r % 512) }).oweFrame p

/-- Replace a 16-bit word sum in an Internet checksum (incremental correction); a result of 0 is sent as 0xFFFF. [PRESUMED, log 36, unsafe] -/
def fixCsum (old : Nat) (was is_ : List Byte) : Nat :=
  let c := 65535 - foldSum ((65535 - old) + (65535 * 64 - onesSum was 0) % 65535 + onesSum is_ 0)
  if c = 0 then 65535 else c

/-- Is the UDP checksum at `c` that of an IPv6 packet? The IPv6 header then lies right before the UDP header. [PRESUMED, log 36, unsafe] -/
def udpOverV6 (l : List Byte) (c : Nat) : Bool :=
  46 ≤ c && (slice l (c - 46) 1).foldl (fun _ x => x.toNat / 16) 0 = 6 &&
    (slice l (c - 40) 1).foldl (fun _ x => x.toNat) 0 = 17

/-- The residence of R82: correctionField plus (egress − ingress) × 2^16, saturated. -/
def addResidence (field : Nat) (inn out : Stamp) : Nat :=
  let x16 : Stamp → Int := fun t => (((t.sec * 1000000000 + t.ns) * 16 + t.frac : Nat) : Int)
  let v := signed 64 field + (x16 out - x16 inn) * 4096
  if v < -(2 ^ 63 : Nat) || (2 ^ 63 - 1 : Nat) < v then 0x7FFFFFFFFFFFFFFF else (v % (2 ^ 64 : Nat)).toNat

/-- The one-step edit of R82 on a frame's bytes. [PRESUMED, log 36, unsafe] -/
def oneStep (k : Pkt) (l : List Byte) (egress : Stamp) : List Byte :=
  let o := k.tx.ptpOff
  let at_ := if k.tx.ptpOp = 1 then o + 34 else o + 8
  let new := if k.tx.ptpOp = 1 then beBytes 6 egress.sec ++ beBytes 4 egress.ns
             else beBytes 8 (addResidence (beNat (slice l (o + 8) 8)) k.ts egress)
  let was := slice l at_ new.length
  let l := putAt l at_ new
  let c := k.tx.csumOff
  if c = 0 then l
  else if udpOverV6 l c then putAt l c (beBytes 2 (fixCsum (beNat (slice l c 2)) was new))
  else putAt l c [0#8, 0#8]

/-- Place the egress record of a frame marked for two-step capture (R83). [DEDUCED, log 39, unsafe] -/
def Bench.captureTx (b : Bench) (p : Nat) (k : Pkt) (t : Stamp) : Bench :=
  if !k.tx.capture then b
  else
    let s := b.port p
    if s.tsq.length < 64 then b.setPort p { s with tsq := s.tsq ++ [(t, k.tx.tag)] }
    else (b.tick (T.TX_TS_LOST p)).raise 11

/-- The bytes that the packet's frame carries, FCS and padding apart; a mirror copy's TRUNC counts its FCS (R168, R183, R215). [DEDUCED, log 105, unsafe] -/
def Bench.frameBytes (b : Bench) (k : Pkt) : List Byte :=
  let n := if k.trunc = 0 then k.dataLen else min (k.trunc - 4) k.dataLen
  b.pktBytes k 0 n

/-- The frame is sent whole: one-step edit, padding, counts, and the packet's end (R73, R82, R257, R377). -/
def Bench.sendWhole (b : Bench) (p : Nat) (k : Pkt) (t : Stamp) (ecc : Ecc := []) : Bench :=
  let enc := k.jobs.any (·.enc)
  let l := b.frameBytes k
  let l := if k.tx.ptpOp ≠ 0 && !enc then oneStep k l t else l
  let b := if k.tx.ptpOp ≠ 0 && enc then b.tick (T.ONESTEP_SKIPPED p) else b
  let b := b.sendFrame p l false
  let b := b.setPort p { b.port p with txPid := none }
  (b.endPkt k 0 (if k.tx.capture then t else Stamp.none) ecc).boundary p

/-- A cut-through frame that proves bad after it began ends with an inverted FCS, counted in TX_BAD_FORWARD (R67, R68). -/
def Bench.badForward (b : Bench) (p : Nat) (k : Pkt) : Bench :=
  let b := (b.sendFrame p (b.frameBytes k) true).tick (T.TX_BAD_FORWARD p)
  ((b.setPort p { b.port p with txPid := none }).endPkt k k.spoil Stamp.none).boundary p

/-- The frame in transmission of a port goes on: sent whole once its end status and verdict are known good, ended when they
are bad. -/
def Bench.goOnTx (b : Bench) (p : Nat) : Bench :=
  match (b.port p).txPid.bind b.pkt? with
  | none => b
  | some k =>
    if !k.ended then b
    else if k.spoil ≠ 0 || k.oversize then b.badForward p k
    else if k.verdictPending then b
    else b.sendWhole p k (k.tx.stamp.getD Stamp.none)

/-- Every port's frame in transmission goes on. -/
def Bench.goOnAll (b : Bench) : Bench := (List.range 4).foldl Bench.goOnTx b

/-! ## Leaving UP (R63, R75) -/

/-- The received frame of a port ends with RX_ABORT in this cycle, and its consumers act on it (R63, R67). -/
def Bench.abortRx (b : Bench) (p : Nat) : Bench :=
  match (b.port p).rxPid with
  | none => b
  | some id =>
    let b := b.setPort p { b.port p with rxPid := none }
    let b := match b.pkt? id with
      | some k => b.countRx p k.rxLen k.oversize
      | none => b.countRx p 0 false
    ((b.assignCode p 0x13).endStatus id 0x13).goOnAll

/-- The bytes of a frame that have reached the ball at its next 64-byte word, `e` cycles after its first word (R58, R63). -/
def wordsSent (mode e : Nat) : Nat := 64 * (e * portRate mode / 100 / 64 + 1)

/-- The frame in transmission on a port that leaves UP is ended at its next 64-byte word and counted under TX_LINK_DOWN (R63). -/
def Bench.abortTx (b : Bench) (p : Nat) : Bench :=
  match (b.port p).txPid with
  | none => b
  | some id =>
    let b := b.setPort p { b.port p with txPid := none }
    match b.pkt? id with
    | none => b
    | some k => (b.sendFrame p ((b.frameBytes k).take (wordsSent b.power.portMode (b.cyc - k.txAt))) true).discardAt k 0x21 p

/-- Every pause timer of the port clears (R75). -/
def Bench.clearPause (b : Bench) (p : Nat) : Bench :=
  let s := b.port p
  ((b.setPort p { s with pauseQuanta := 0, pfcQuanta := [] }).setFld (R.face_PORT_STATUS_PAUSED p) 0).setFld
    (R.face_PORT_STATUS_PFC_PAUSED p) 0

/-- A port leaves UP for state `s` (R63): frames in progress end, pause timers clear, and fault ordered sets are sent. A DISABLE that
waited for the frame in transmission takes effect at once, since that frame has ended (R61). [DEDUCED, log 110, unsafe] -/
def Bench.leaveUp (b : Bench) (p s : Nat) : Bench :=
  let late := (b.port p).disabling && s ≠ psDisabled
  let b := (((b.abortTx p).abortRx p).clearPause p).setFld (R.face_PORT_STATUS_CAL p) 0
  let k : PortSt := { b.port p with disabling := false, retrain := s = psTraining, fails := 0, an := 0, owed := 0, faults := true, looped := [] }
  let b := (b.setPort p k).setPortSt p s
  if late then b.setPortSt p psDisabled else b

/-! ## PORT_CTL (R58, R61, R90) -/

/-- LANE_RESET by the matrix of R61. -/
def Bench.laneReset (b : Bench) (p : Nat) : Bench :=
  let st := b.portSt p
  if st = psDisabled then b.setLanes p R.face_LANE_STATUS_FAILED 0
  else if st = psFailed then (b.setLanes p R.face_LANE_STATUS_FAILED 0).setPortSt p psWait
  else b.cfgRefused

/-- ENABLE by the matrix of R61. -/
def Bench.portEnable (b : Bench) (p : Nat) : Bench :=
  if b.portSt p = psDisabled then b.setPortSt p (if b.laneFailed p then psFailed else psWait) else b.cfgRefused

/-- DISABLE by the matrix of R61: a frame in transmission ends first. -/
def Bench.portDisable (b : Bench) (p : Nat) : Bench :=
  let st := b.portSt p
  if st = psDisabled then b.cfgRefused
  else if st = psUp then
    if (b.port p).txPid.isSome then b.setPort p { b.port p with disabling := true } else b.leaveUp p psDisabled
  else b.setPortSt p psDisabled

/-- Does a value of FEC_EN fit the port type (R58)? -/
def fecOk (mode v : Nat) : Bool := if mode = 4 then true else if mode = 5 then v = 0 else v = 1

/-- A PORT_CTL write: each refused field keeps its value, LANE_RESET comes before ENABLE or DISABLE. -/
def Bench.portCtlWrite (b : Bench) (p : Nat) (v : Nat) : Bench :=
  if !b.hasPort p then b.cfgRefused
  else
    let iface := getBits v 1 2
    let b := if iface = 3 || (iface = 1 && b.power.portMode = 5) then b.cfgRefused
             else b.setFld (R.face_PORT_CTL_IFACE p) iface
    let b := if fecOk b.power.portMode (getBits v 3 1) then b.setFld (R.face_PORT_CTL_FEC_EN p) (getBits v 3 1)
             else b.cfgRefused
    let b := b.setFld (R.face_PORT_CTL_AN_EN p) (getBits v 4 1)
    let b := if getBits v 8 8 = 0 then b.cfgRefused else b.setFld (R.face_PORT_CTL_TRAIN_LIMIT p) (getBits v 8 8)
    let old := b.flag (R.face_PORT_CTL_ENABLE p)
    let new := bit v 0
    let b := b.setFld (R.face_PORT_CTL_ENABLE p) (getBits v 0 1)
    let b := if bit v 5 then b.laneReset p else b
    if new && !old then b.portEnable p else if old && !new then b.portDisable p else b

/-- PORT_ENABLE: a write of PORT_CTL with ENABLE = 1 and the other fields of `v`. -/
def execPortEnable (n : BenchId) (p : Nat) (v : Word) (s : State) : Host.Outcome State Fault Refusal :=
  s.onBench n (fun b => (b.rsvd (R.face_PORT_CTL p) v.toNat).portCtlWrite p (putBits v.toNat 0 1 1))

/-- PORT_DISABLE: a write of PORT_CTL with ENABLE = 0 and the other fields of `v`. -/
def execPortDisable (n : BenchId) (p : Nat) (v : Word) (s : State) : Host.Outcome State Fault Refusal :=
  s.onBench n (fun b => (b.rsvd (R.face_PORT_CTL p) v.toNat).portCtlWrite p (putBits v.toNat 0 1 0))

/-- LANE_RESET: a write of PORT_CTL with LANE_RESET = 1 and the other fields of `v`. -/
def execLaneReset (n : BenchId) (p : Nat) (v : Word) (s : State) : Host.Outcome State Fault Refusal :=
  s.onBench n (fun b => (b.rsvd (R.face_PORT_CTL p) v.toNat).portCtlWrite p (putBits v.toNat 5 1 1))

/-- DISABLE_FRAME_END: the frame in transmission has ended, and a DISABLE that waited for it takes effect (R61). -/
def execDisableFrameEnd (n : BenchId) (p : Nat) (s : State) : Host.Outcome State Fault Refusal :=
  s.onBench n (fun b =>
    if (b.port p).disabling && (b.port p).txPid.isNone then b.leaveUp p psDisabled else b)

/-! ## Training (R60 to R62) -/

/-- Energy on every lane: WAIT_SIGNAL passes to TRAINING with attempt count 0 (R61). -/
def Bench.signalPresent (b : Bench) (p : Nat) : Bench :=
  if b.hasPort p then
    let b := b.setLanes p R.face_LANE_STATUS_SIGNAL 1
    if b.portSt p = psWait then
      (b.setPort p { b.port p with fails := 0, retrain := false, an := 0 }).setPortSt p psTraining
    else b
  else b

/-- Energy below threshold for 5,000 cycles: TRAINING and UP pass to WAIT_SIGNAL (R61). -/
def Bench.signalLoss (b : Bench) (p : Nat) : Bench :=
  if b.hasPort p then
    let b := (b.setLanes p R.face_LANE_STATUS_SIGNAL 0).setLanes p R.face_LANE_STATUS_LOCKED 0
    if b.portSt p = psUp then b.leaveUp p psWait
    else if b.portSt p = psTraining then b.setPortSt p psWait else b
  else b

/-- Lock is lost while energy is present: UP passes to TRAINING, a retrain (R61). -/
def Bench.lockLoss (b : Bench) (p : Nat) : Bench :=
  if b.isUp p then (b.setLanes p R.face_LANE_STATUS_LOCKED 0).leaveUp p psTraining else b

/-- A training attempt reaches lock: TRAINING passes to UP; a retrain counts in LINK_RETRAIN_OK; calibration starts afresh (R61, R62,
R81). Where auto-negotiation runs, it has first to find a match (R60). -/
def Bench.attemptSucceeds (b : Bench) (p : Nat) : Bench :=
  if b.hasPort p && b.portSt p = psTraining && (!b.negotiates p || (b.port p).an = 1) then
    let b := b.setLanes p R.face_LANE_STATUS_LOCKED 1
    let b := if (b.port p).retrain then b.tick (T.LINK_RETRAIN_OK p) else b
    let b := b.setFld (R.face_PORT_STATUS_CAL p) 0
    (b.setPort p { b.port p with fails := 0, retrain := false, faults := false }).setPortSt p psUp
  else b

/-- A training attempt fails: the first failure counts in TRAIN_RETRY, the second consecutive one marks the lanes failed with event 9
(R61, R62). A partner that offered no match is no training failure (R60). -/
def Bench.attemptFails (b : Bench) (p : Nat) : Bench :=
  if b.hasPort p && b.portSt p = psTraining && !(b.negotiates p && (b.port p).an = 2) then
    let b := b.setFld (R.face_PORT_STATUS_TRAIN_FAILED p) 1
    if (b.port p).fails = 0 then
      (b.setPort p { b.port p with fails := 1, an := 0 }).tick (T.TRAIN_RETRY p)
    else
      let b := b.setPort p { b.port p with fails := 0, retrain := false }
      ((b.setLanes p R.face_LANE_STATUS_FAILED 1).setPortSt p psFailed).raise 9
  else b

/-- The partner's page arrives during TRAINING on copper cable or backplane: one that offers the port's own technology, the port type of
R58, goes on to link training, and one that does not restarts auto-negotiation (R60). -/
def Bench.anPage (b : Bench) (p : Nat) (offered : List Tech) : Bench :=
  if b.hasPort p && b.portSt p = psTraining && b.negotiates p then
    if offered.contains (techOf b.power.portMode) then b.setPort p { b.port p with an := 1 }
    else (b.setPort p { b.port p with an := 2 }).tick (T.AN_NO_MATCH p)
  else b

/-- CAL_COMPLETE: a chisel port's calibration is complete (R81). -/
def execCalComplete (n : BenchId) (p : Nat) (s : State) : Host.Outcome State Fault Refusal :=
  s.onBench n (fun b =>
    if b.isUp p && b.power.profile = 1 then b.setFld (R.face_PORT_STATUS_CAL p) 1 else b)

/-! ## The end of a received frame -/

/-- The end of a received frame (R65, R67, R68, R70). -/
def Bench.rxEnd (b : Bench) (p : Nat) (codeErr fcsBad : Bool) (fecCorr fecUncorr : Nat) : Bench :=
  let b := (b.count (T.FEC_CORRECTED p) fecCorr).count (T.FEC_UNCORRECTED p) fecUncorr
  match (b.port p).rxPid with
  | none => b
  | some id =>
    let b := b.setPort p { b.port p with rxPid := none }
    match b.pkt? id with
    | none => b
    | some k =>
      let long := k.oversize
      let b := b.countRx p k.rxLen long
      let mac := b.isMacControl k && k.loc = .receiving
      let obeyed := macObeyed (b.port p).mode (beNat (b.pktBytes k 14 2))
      let code := rxCode codeErr k.rxLen (fcsBad || (b.port p).loopBad)
      let b := (b.assignCode p code).updSharers id (fun (k : Pkt) => { k with fcs := if long then 0 else min 4 k.len })
      if code = 0 && mac then
        let k : Pkt := { k with ended := true }
        let b := b.updPkt id (fun k => { k with ended := true })
        if obeyed then b.endPkt k 0 Stamp.none else b.discardAt k 0x15 p
      else (b.endStatus id code).goOnAll

/-- RX_END_STATUS: the last byte of the frame has passed. -/
def execRxEndStatus (n : BenchId) (p : Nat) (codeErr fcsBad : Bool) (fecCorr fecUncorr : Nat) (s : State) :
    Host.Outcome State Fault Refusal :=
  s.onBench n (fun b => b.rxEnd p codeErr fcsBad fecCorr fecUncorr)

/-! ## The transmitter -/

/-- Packet bytes of a chain that meet an uncorrectable error: an address in its buffers. -/
def Bench.chainUnc (b : Bench) (h : Nat) (ecc : Ecc) : Bool :=
  let a := b.bufAddr h
  ecc.unc a (a + poolSize (hPool h)) ||
    (let r := recordAddr (hPool h) (hOff h)
     b.recNextValid r && ecc.unc (b.bufAddr (b.recNext r)) (b.bufAddr (b.recNext r) + b.bodySize h))

/-- The uncorrectable error of R263: PKTBUF_ECC_LOG and event 33. -/
def Bench.pktbufEcc (b : Bench) (h : Nat) : Bench := (b.setReg R.hopper_PKTBUF_ECC_LOG (BitVec.ofNat 32 h)).raise 33

/-- Correctable errors of packet-buffer bytes feed counter 5 (R526). -/
def Bench.pktbufCor (b : Bench) (ecc : Ecc) : Bench := b.correctable 5 (ecc.cor 0x1000000 0x2000000)

/-- The frame that the scheduler selected for a port enters the transmitter (R63, R68, R71, R73, R80, R263). -/
def Bench.txStart (b : Bench) (p : Nat) (k : Pkt) (phase : Nat) (ecc : Ecc) : Bench :=
  let b := b.pktbufCor ecc
  if !b.isUp p then b.discardAt k 0x21 p ecc
  else if k.ended && k.oversize then b.discardAt k 0x22 p ecc
  else if k.ring.isSome && b.fld (R.face_MAX_FRAME_BYTES p) < k.dataLen + 4 then b.discardAt k 0x23 p ecc
  else
    let t := b.stampNow p phase (R.face_BOARD_DELAY_TX_PS (b.lane0 p))
    let b := b.captureTx p k t
    if b.chainUnc k.handle ecc then
      (((b.pktbufEcc k.handle).sendFrame p (b.frameBytes k) true).tick (T.TX_BAD_FORWARD p)).endPkt k 0 Stamp.none ecc
    else if k.ended && !k.verdictPending then
      if k.spoil = 0 then b.sendWhole p k t ecc else b.discard k k.spoil ecc
    else
      let b := b.updPkt k.id (fun (k : Pkt) => { k with loc := .sending p, txAt := b.cyc, tx := { k.tx with stamp := some t } })
      b.setPort p { b.port p with txPid := some k.id }

/-- The selected frame of a port enters the transmitter, unless one is in it or a DISABLE waits (R61). -/
def Bench.txFrame (b : Bench) (p phase : Nat) (ecc : Ecc) : Bench :=
  match b.pktAt? (.selected p) with
  | some k => if (b.port p).txPid.isSome || (b.port p).disabling then b else b.txStart p k phase ecc
  | none => b

/-- Raise a send ring's STEP by one, up to 19 (R72). -/
def Bench.raiseStep (b : Bench) (r : Nat) : Bench :=
  if b.ringStep r < 19 then b.setMbits (ringAddr r) 110 5 (b.ringStep r + 1) else b

/-- TX_UNDERRUN: the next word of a frame cut through from a host send ring is absent after `sent` bytes (R72). -/
def execTxUnderrun (n : BenchId) (p sent : Nat) (s : State) : Host.Outcome State Fault Refusal :=
  s.onBench n (fun b =>
    match (b.port p).txPid.bind b.pkt? with
    | some k =>
      match k.ring with
      | some r =>
        if k.ended then b
        else
          let b := b.setPort p { b.port p with txPid := none }
          ((((b.sendFrame p (b.pktBytes k 0 (min sent k.len)) true).raise 10).raiseStep r).discardAt k 0x20 p).boundary p
      | none => b
    | none => b)

/-! ## Pause and PFC (R75) -/

/-- PAUSE_FRAME_RX: the effect cycle of an obeyed pause frame. -/
def execPauseFrameRx (n : BenchId) (p quanta : Nat) (s : State) : Host.Outcome State Fault Refusal :=
  s.onBench n (fun b =>
    if b.isUp p && (b.port p).mode = 1 then
      ((b.setPort p { b.port p with pauseQuanta := quanta }).setFld (R.face_PORT_STATUS_PAUSED p)
        (if quanta = 0 then 0 else 1)).tick (T.PAUSE_RX p)
    else b)

/-- One class of a PFC frame. -/
def Bench.pfcClass (b : Bench) (p c q : Nat) : Bench :=
  let b := b.tick (T.PFC_RX (8 * p + c))
  if bit (b.fld (R.face_PAUSE_CTL_PFC_CLASS_EN p)) c then
    let s := b.port p
    let l := s.pfcQuanta.filter (fun x => x.1 ≠ c)
    let m := b.fld (R.face_PORT_STATUS_PFC_PAUSED p)
    (b.setPort p { s with pfcQuanta := if q = 0 then l else l ++ [(c, q)] }).setFld (R.face_PORT_STATUS_PFC_PAUSED p)
      (putBits m c 1 (if q = 0 then 0 else 1))
  else b.tick (T.PFC_IGNORED p)

/-- PFC_FRAME_RX: the effect cycle of an obeyed PFC frame: class-enable vector and eight times. -/
def execPfcFrameRx (n : BenchId) (p vec : Nat) (times : List Nat) (s : State) : Host.Outcome State Fault Refusal :=
  s.onBench n (fun b =>
    if b.isUp p && (b.port p).mode = 2 then
      (List.range 8).foldl (fun b c => if bit vec c then b.pfcClass p c (times.getD c 0) else b) b
    else b)

/-- The quanta of the link pause, or of a class, have elapsed (R75). -/
def Bench.pauseExpired (b : Bench) (p : Nat) (cls : Option Nat) : Bench :=
  match cls with
  | none => (b.setPort p { b.port p with pauseQuanta := 0 }).setFld (R.face_PORT_STATUS_PAUSED p) 0
  | some c =>
    (b.setPort p { b.port p with pfcQuanta := (b.port p).pfcQuanta.filter (fun x => x.1 ≠ c) }).setFld
      (R.face_PORT_STATUS_PFC_PAUSED p) (putBits (b.fld (R.face_PORT_STATUS_PFC_PAUSED p)) c 1 0)

/-! ## Events of the requests (R76) -/

/-- Half of QUANTA has elapsed since the last frame while a request is high: the frame is repeated, unless QUANTA is 0 (R76). -/
def Bench.repeatRequest (b : Bench) (p : Nat) : Bench :=
  if (b.port p).reqs ≠ 0 && b.fld (R.face_PAUSE_CTL_QUANTA p) ≠ 0 then b.oweFrame p else b

/-- The frame boundary at which a written MODE takes effect: the old mode is released, and every request that is high counts as just
risen under the new mode (R76). -/
def Bench.modeChange (b : Bench) (p : Nat) : Bench :=
  let k := b.port p
  let m := b.fld (R.face_PAUSE_CTL_MODE p)
  if b.hasPort p && m ≠ k.mode && k.txPid.isNone && !k.disabling then
    let b := if !b.isUp p || k.adv = 0 then b
             else if k.mode = 1 then b.sendPause p 0 else b.sendPfc p 0 k.adv
    ((b.setPort p { b.port p with mode := m, reqs := 0, adv := 0, tmReqs := 0, fell := 0, owed := 0 }).judgeReqs p).requestChange p
  else b

/-! ## Station entries and early reads -/

/-- Read a word of a record that a read of word 0 took: it can be read once (R574). -/
def takeHeld (l : List (Option Nat)) (w : Nat) : Option Nat × List (Option Nat) :=
  match l[w]? with
  | some (some v) => (some v, l.set w none)
  | _ => (none, l)

/-- STATION_COMMIT: a write of STATION_CTL commits address, mask and VALID together (R69). -/
def Bench.stationCommit (b : Bench) (e : Nat) (v : Nat) : Bench :=
  let lo := R.face_STATION_ADDR_LO e
  let hi := R.face_STATION_ADDR_HI e
  let sh : Nat → Word := fun o => sparseGet benchRegReset b.shadow o
  let b := (b.setReg lo (sh lo)).setReg hi (sh hi)
  (b.setFld (R.face_STATION_CTL_VALID e) (getBits v 0 1)).setFld (R.face_STATION_CTL_PORT_MASK e) (getBits v 4 4)

/-- STATION_COMMIT (R69). -/
def execStationCommit (n : BenchId) (e : Nat) (v : Word) (s : State) : Host.Outcome State Fault Refusal :=
  s.onBench n (fun b => if e < 32 then (b.rsvd (R.face_STATION_CTL e) v.toNat).stationCommit e v.toNat else b)

/-- A read of TX_TS_p word `w` (3 is TAG): word 0 takes the head record of the port's queue (R574). -/
def Bench.txTsRead (b : Bench) (p w : Nat) : List Nat × Bench :=
  let s := b.port p
  if w = 0 then
    match s.tsq with
    | [] => ([0], b.tick (T.TS_EARLY_READ p))
    | (t, tag) :: q =>
      let ws := t.words
      ([ws.getD 0 0], b.setPort p { s with tsq := q, tsHeld := [none, some (ws.getD 1 0), some (ws.getD 2 0), some tag] })
  else
    match takeHeld s.tsHeld w with
    | (some v, l) => ([v], b.setPort p { s with tsHeld := l })
    | (none, _) => ([0], b.tick (T.TS_EARLY_READ p))

/-- TX_TS_READ (R574). -/
def execTxTsRead (n : BenchId) (p w : Nat) (s : State) : Host.Outcome State Fault Refusal :=
  s.onRead n (fun b => if b.hasPort p then b.txTsRead p w else ([0], b))

end Sys2Proof.Machine
end

