-- ==== Sys2Proof/Machine/Graph.lean ====
section
/-! DEFINITION. The cut graph (R95 to R122): nodes, the walk, the field vector, and the writes that load a graph. -/
namespace Sys2Proof.Machine

/-! ## Nodes (R100 to R106) -/

/-- Bench offset of node `i`. -/
def nodeAddr (i : Nat) : Nat := 0x3000000 + 64 * i

/-- A node's fields, read from its 512 bits. -/
def ndGen (d : Nat) : Nat := getBits d 0 2
def ndEnd (d : Nat) : Bool := bit d 2
def ndClassWr (d : Nat) : Bool := bit d 3
def ndClass (d : Nat) : Nat := getBits d 4 8
def ndSlot (d : Nat) : Nat := getBits d 12 3
def ndHdrRec (d : Nat) : Bool := bit d 15
def ndFrag (d : Nat) : Nat := getBits d 16 2
def ndFragClass (d : Nat) : Nat := getBits d 18 8
def ndLenFixed (d : Nat) : Nat := getBits d 32 8
def ndLenOff (d : Nat) : Nat := getBits d 40 8
def ndLenLsb (d : Nat) : Nat := getBits d 48 3
def ndLenWidth (d : Nat) : Nat := getBits d 51 4
def ndLenScale (d : Nat) : Nat := getBits d 55 3
def ndSelOff (d : Nat) : Nat := getBits d 64 8
def ndSelEn (d : Nat) : Bool := bit d 72
def ndSelTwo (d : Nat) : Bool := bit d 73
def ndDefault (d : Nat) : Nat := getBits d 96 8
def ndDefaultValid (d : Nat) : Bool := bit d 104
/-- Extract `k`: source offset, destination, length. -/
def ndExtract (d k : Nat) : Nat × Nat × Nat :=
  (getBits d (128 + 32 * k) 8, getBits d (136 + 32 * k) 6, getBits d (142 + 32 * k) 5)
/-- Transition `k`: VALUE, MASK, NEXT, VALID. -/
def ndTrans (d k : Nat) : Nat × Nat × Nat × Bool :=
  (getBits d (256 + 64 * k) 16, getBits d (272 + 64 * k) 16, getBits d (288 + 64 * k) 8, bit d (296 + 64 * k))

/-- The node at an index. -/
def Bench.node (b : Bench) (i : Nat) : Nat := b.le (nodeAddr i) 64

/-! ## The walk (R107 to R109) -/

/-- A walk's result so far: the extract area, header offsets, class, flags (FRAG, FIRST_FRAG, TRUNC_HDR, WINDOW_END,
HOP_LIMIT, NO_NEXT as bits 2 to 7), hops, last node, END_CURSOR, first fragments seen, and the spoil code. -/
structure Walk where
  ext : List Byte
  hdr : List Nat
  cls : Nat
  flags : Nat
  hops : Nat
  last : Nat
  endc : Nat
  firstFrags : Nat
  spoil : Nat
deriving DecidableEq, Repr

/-- What a walk reads: the window, the packet's end counted from the window's start, the generation, the exception
classes, the nodes, and the nodes that cannot be read. -/
structure WalkIn where
  win : List Byte
  pend : Nat
  gen : Nat
  exc : Nat
  node : Nat → Nat
  bad : Nat → Bool

/-- The start of a cut (R110). -/
def Walk.start : Walk :=
  { ext := List.replicate 64 0#8, hdr := List.replicate 8 0xFFFF, cls := 0, flags := 0, hops := 0, last := 0, endc := 0
    firstFrags := 0, spoil := 0 }

/-- Byte `i` of the window as a number. -/
def WalkIn.at_ (w : WalkIn) (i : Nat) : Nat := (w.win.getD i 0#8).toNat

/-- Where the fragment bytes of R109 lie, from the cursor. -/
def fragOff (kind : Nat) : Nat := if kind = 1 then 6 else 2

/-- One past the furthest byte a node reads at a cursor; 0 when it reads nothing (R107, read check). -/
def ndReach (d cur : Nat) : Nat :=
  let ex := (List.range 4).foldl (fun m k =>
    let e := ndExtract d k
    if e.2.2 = 0 then m else max m (cur + e.1 + e.2.2)) 0
  let ln := if ndLenWidth d = 0 then 0 else cur + ndLenOff d + 1
  let sl := if ndSelEn d && !ndEnd d then cur + ndSelOff d + (if ndSelTwo d then 2 else 1) else 0
  let fr := if ndFrag d = 0 then 0 else cur + fragOff (ndFrag d) + 2
  max (max ex ln) (max sl fr)

/-- The header length of a node (R102). -/
def ndLen (w : WalkIn) (d cur : Nat) : Nat :=
  if ndLenWidth d = 0 then ndLenFixed d
  else ndLenFixed d + (w.at_ (cur + ndLenOff d) / 2 ^ ndLenLsb d % 2 ^ ndLenWidth d) * 2 ^ ndLenScale d

/-- The select key (R103). -/
def ndKey (w : WalkIn) (d cur : Nat) : Nat :=
  if ndSelTwo d then 256 * w.at_ (cur + ndSelOff d) + w.at_ (cur + ndSelOff d + 1) else w.at_ (cur + ndSelOff d)

/-- The next node (R106, R107 step 7). -/
def ndNext (d key : Nat) : Option Nat :=
  let hit := (List.range 4).find? (fun k =>
    let t := ndTrans d k
    ndSelEn d && t.2.2.2 && Nat.land key t.2.1 = Nat.land t.1 t.2.1)
  match hit with
  | some k => some (ndTrans d k).2.2.1
  | none => if ndDefaultValid d then some (ndDefault d) else none

/-- The extracts of a node applied in order (R105). -/
def ndApply (w : WalkIn) (d cur : Nat) (ext : List Byte) : List Byte :=
  (List.range 4).foldl (fun e k =>
    let x := ndExtract d k
    if x.2.2 = 0 then e else putAt e x.2.1 (slice w.win (cur + x.1) x.2.2)) ext

/-- The fragment fields read: offset and more-fragments (R109). -/
def fragRead (w : WalkIn) (kind cur : Nat) : Nat × Bool :=
  let x := 256 * w.at_ (cur + fragOff kind) + w.at_ (cur + fragOff kind + 1)
  if kind = 1 then (getBits x 0 13, bit x 13) else (getBits x 3 13, bit x 0)

/-- The walk from node `i` with the cursor at `cur`; `fuel` hops may still be evaluated. [DEDUCED, log 47, unsafe] -/
def walk (w : WalkIn) : Nat → Nat → Nat → Walk → Walk
  | 0, _, _, r => r
  | fuel + 1, i, cur, r =>
    let d := w.node i
    let r := { r with hops := r.hops + 1, last := i }
    if w.bad i then { r with spoil := 0x32 }
    else if !bit (ndGen d) w.gen then { r with spoil := 0x31 }
    else
      let r := if ndHdrRec d then { r with hdr := r.hdr.set (ndSlot d) cur } else r
      let reach := ndReach d cur
      if w.pend < reach then { r with flags := r.flags + 16, cls := getBits w.exc 0 8, endc := cur }
      else if w.win.length < reach then { r with flags := r.flags + 32, cls := getBits w.exc 8 8, endc := cur }
      else
        let r := { r with ext := ndApply w d cur r.ext, cls := if ndClassWr d then ndClass d else r.cls }
        let nxt := min 0xFFFF (cur + ndLen w d cur)
        let f := if ndFrag d = 0 then (0, false) else fragRead w (ndFrag d) cur
        if f.1 ≠ 0 then { r with flags := Nat.lor r.flags 4 - (if bit r.flags 3 then 8 else 0), cls := ndFragClass d,
                                 endc := nxt }
        else
          let r := if f.2 then { r with flags := Nat.lor r.flags 12, firstFrags := r.firstFrags + 1 } else r
          if ndEnd d then { r with endc := nxt }
          else
            match ndNext d (ndKey w d cur) with
            | none => { r with flags := r.flags + 128, endc := nxt }
            | some j =>
              if fuel = 0 then { r with flags := r.flags + 64, cls := getBits w.exc 16 8, endc := nxt }
              else walk w fuel j nxt r

/-- Bit `k` of a number as 2^k or 0. -/
def keepBit (x k : Nat) : Nat := if bit x k then 2 ^ k else 0

/-- The 96 bytes of the field vector (R110). `wait` is ENTRY_WAIT. A host-face packet has PORT, STATION_HIT and STATION_IDX 0. [DESIGN CHOICE, log 118, unsafe] -/
def fieldVector (r : Walk) (p : Pkt) (wait : Nat) : List Byte :=
  r.ext ++ r.hdr.flatMap (leBytes 2) ++
    [BitVec.ofNat 8 r.cls,
     BitVec.ofNat 8 (p.gen + (if p.second then 2 else 0) + [2, 3, 4, 5, 6, 7].foldl (fun s k => s + keepBit r.flags k) 0),
     BitVec.ofNat 8 (r.hops + 32 * wait),
     BitVec.ofNat 8 ((if p.ring.isSome then 4 else p.port) + (if p.stHit then 8 else 0)),
     BitVec.ofNat 8 p.stIdx, BitVec.ofNat 8 r.last] ++
    leBytes 2 r.endc ++ leBytes 2 (p.ring.getD 0) ++ (if p.second then p.carry else List.replicate 6 0#8)

/-- The tallies of a walk's end (R108, R109). -/
def Bench.walkTallies (b : Bench) (r : Walk) : Bench :=
  let b := b.count T.PARSE_FRAG_FIRST r.firstFrags
  if r.spoil ≠ 0 then b
  else if bit r.flags 7 then b.tick T.PARSE_NO_NEXT
  else if bit r.flags 4 then b.tick T.PARSE_TRUNC
  else if bit r.flags 5 then b.tick T.PARSE_WINDOW_END
  else if bit r.flags 6 then b.tick T.PARSE_HOP_LIMIT
  else if bit r.flags 2 && !bit r.flags 3 then b.tick T.PARSE_FRAG_LATER else b

/-- A capture of the field vector, when it is armed and the filter meets (R121). -/
def Bench.capture (b : Bench) (fv : List Byte) (second : Bool) : Bench :=
  let sel := b.fld R.graph_FV_CAPTURE_CTL_CUT_SEL
  if b.flag R.graph_FV_CAPTURE_CTL_ARM && !b.flag R.graph_FV_CAPTURE_CTL_DONE &&
      (sel = 0 || (sel = 1 && !second) || (sel = 2 && second)) &&
      (!b.flag R.graph_FV_CAPTURE_CTL_CLASS_EN ||
        leNat (slice fv 80 1) = b.fld R.graph_FV_CAPTURE_CTL_CLASS_MATCH) then
    let b := (List.range 24).foldl (fun b w =>
      b.setReg (R.graph_FV_CAPTURE_DATA w) (BitVec.ofNat 32 (leNat (slice fv (4 * w) 4)))) b
    (b.setFld R.graph_FV_CAPTURE_CTL_ARM 0).setFld R.graph_FV_CAPTURE_CTL_DONE 1
  else b

/-- The walk of a packet's cut (R95, R107): its window starts at packet byte `p.wstart`; the end of the packet counts
once the frame has ended or has been truncated. -/
def Bench.runWalk (b : Bench) (p : Pkt) (ecc : Ecc) : Walk :=
  let stored := if p.ended then p.dataLen else p.len
  let stop := if p.second then min stored p.wend else stored
  let win := b.pktBytes p p.wstart (min 128 (stop - p.wstart))
  let known := p.ended || p.ring.isSome || p.engine || p.oversize
  walk { win := win, pend := if known then p.dataLen - p.wstart else max 0x20000 p.len, gen := p.gen
         exc := (b.reg (R.graph_EXC_CLASS p.gen)).toNat, node := b.node
         bad := fun i => ecc.unc (nodeAddr i) (nodeAddr i + 64) }
    16 (if p.second then p.snode else b.fld (R.graph_START_NODE_NODE p.gen)) 0 Walk.start

/-! ## Writable generations (R111 to R113) -/

/-- GEN_ACTIVE. -/
def Bench.genActive (b : Bench) : Nat := b.fld R.graph_GRAPH_CTL_GEN_ACTIVE
/-- The in-flight count of a generation. -/
def Bench.inflight (b : Bench) (g : Nat) : Nat := b.fld (R.action_INFLIGHT_COUNT g)
/-- Is the graph armed? -/
def Bench.armed (b : Bench) : Bool := b.flag R.graph_GRAPH_CTL_ARMED
/-- Is a generation writable: the graph is not armed, or it is inactive with nothing in flight (R111, R112)? -/
def Bench.writable (b : Bench) (g : Nat) : Bool := !b.armed || (g ≠ b.genActive && b.inflight g = 0)
/-- Are all generations of a mask writable? -/
def Bench.maskWritable (b : Bench) (m : Nat) : Bool := (!bit m 0 || b.writable 0) && (!bit m 1 || b.writable 1)
/-- A refusal that GRAPH_WRITE_REFUSED counts, with event 14 (R122). -/
def Bench.graphRefused (b : Bench) : Bench := (b.tick T.GRAPH_WRITE_REFUSED).raise 14

/-- A write of ARMED (R112). -/
def Bench.graphArm (b : Bench) (v : Nat) : Bench :=
  if bit v 0 then b.setFld R.graph_GRAPH_CTL_ARMED 1 else if b.armed then b.graphRefused else b

/-- GRAPH_ARM: a write of GRAPH_CTL (R112, R118). -/
def execGraphArm (n : BenchId) (v : Word) (s : State) : Host.Outcome State Fault Refusal :=
  s.onBench n (fun b => (b.rsvd R.graph_GRAPH_CTL v.toNat).graphArm v.toNat)

/-- A write of START_NODE_g (R113). -/
def Bench.startNodeWrite (b : Bench) (g v : Nat) : Bench :=
  if b.writable g then b.setFld (R.graph_START_NODE_NODE g) v else b.graphRefused
/-- START_NODE_WRITE (R113). -/
def execStartNodeWrite (n : BenchId) (g : Nat) (v : Word) (s : State) : Host.Outcome State Fault Refusal :=
  s.onBench n (fun b => if g < 2 then (b.rsvd (R.graph_START_NODE g) v.toNat).startNodeWrite g v.toNat else b)

/-- A write of EXC_CLASS_g (R113, R119). -/
def Bench.excClassWrite (b : Bench) (g v : Nat) : Bench :=
  if b.writable g then b.setReg (R.graph_EXC_CLASS g) (BitVec.ofNat 32 (v % 2 ^ 24)) else b.graphRefused
/-- EXC_CLASS_WRITE (R113). -/
def execExcClassWrite (n : BenchId) (g : Nat) (v : Word) (s : State) : Host.Outcome State Fault Refusal :=
  s.onBench n (fun b => if g < 2 then (b.rsvd (R.graph_EXC_CLASS g) v.toNat).excClassWrite g v.toNat else b)

/-! ## Node commits (R115) -/

/-- The reserved bits of a node (R101 to R106). -/
def ndReserved (d : Nat) : Bool :=
  getBits d 26 6 ≠ 0 || getBits d 58 6 ≠ 0 || getBits d 74 22 ≠ 0 || getBits d 105 23 ≠ 0 ||
    (List.range 4).any (fun k => getBits d (147 + 32 * k) 13 ≠ 0 || getBits d (297 + 64 * k) 23 ≠ 0)

/-- The checks of a node commit that need no state, in their order: the RESULT, 0 when they pass (R115). -/
def ndCheck (d : Nat) : Nat :=
  if 8 < ndLenWidth d || 8 < ndLenLsb d + ndLenWidth d then 2
  else if (List.range 4).any (fun k => 16 < (ndExtract d k).2.2 || 64 < (ndExtract d k).2.1 + (ndExtract d k).2.2) then 3
  else if ndFrag d = 3 then 4
  else if ndReserved d then 5 else 0

/-- The RESULT of committing a node at an index. [DEDUCED, log 47, unsafe] -/
def Bench.nodeResult (b : Bench) (i d : Nat) : Nat :=
  if ndCheck d ≠ 0 then ndCheck d
  else if b.maskWritable (Nat.lor (ndGen (b.node i)) (ndGen d)) then 0 else 1

/-- The staged node. -/
def Bench.nodeStaged (b : Bench) : Nat :=
  leNat ((List.range 16).flatMap (fun w => leBytes 4 (b.reg (R.graph_NODE_STAGE w)).toNat))

/-- Commit the staged node (R115): written, or refused with event 14; the status is posted (R120). -/
def Bench.nodeCommit (b : Bench) (i : Nat) : Bench :=
  let d := b.nodeStaged
  let r := b.nodeResult i d
  let b := if r = 0 then b.setLe (nodeAddr i) 64 d else b.graphRefused
  b.postStatus R.graph_NODE_COMMIT_STATUS (2 * r + 256 * i) 16 16

/-- NODE_COMMIT: a write of NODE_COMMIT with a node index. -/
def execNodeCommit (n : BenchId) (i : Nat) (s : State) : Host.Outcome State Fault Refusal :=
  s.onBench n (fun b => if i < 256 then b.nodeCommit i else b)

end Sys2Proof.Machine
end

