-- ==== Sys2Proof/Machine/Match.lean ====
section
/-! DEFINITION. The match stage (R123 to R159): recipes, keys, hashing, the lookup, table operations, the rehash sweep, hit
bits and learning. -/
namespace Sys2Proof.Machine

/-! ## Hashing (R129) -/

/-- One bit of the reflected CRC32C. -/
def crcBit (c : Nat) : Nat := if c % 2 = 1 then Nat.xor (c / 2) 0x82F63B78 else c / 2
/-- CRC32C over one byte. -/
def crcByte (c : Nat) (x : Byte) : Nat :=
  crcBit (crcBit (crcBit (crcBit (crcBit (crcBit (crcBit (crcBit (Nat.xor c x.toNat))))))))
/-- CRC32C register over bytes. -/
def crc32c (c : Nat) (l : List Byte) : Nat := l.foldl crcByte c
/-- The bucket of a key under a seed. -/
def bucketOf (seed table : Nat) (key : List Byte) : Nat :=
  Nat.xor (crc32c (crcByte seed (BitVec.ofNat 8 table)) key) 0xFFFFFFFF % 0x2000

/-! ## Slots (R127, R128) -/

/-- Bench offset of slot `i`. -/
def slotAddr (i : Nat) : Nat := 0x2000000 + 64 * i
/-- Index of a slot from bank, bucket and slot within the bucket. -/
def slotIdx (bank bucket s : Nat) : Nat := 32768 * bank + 4 * bucket + s
/-- The control word of a 64-byte image. -/
def slCtl (e : List Byte) : Nat := leNat (slice e 60 4)
def slValid (e : List Byte) : Bool := bit (slCtl e) 0
def slGen (e : List Byte) : Nat := getBits (slCtl e) 1 2
def slTable (e : List Byte) : Nat := getBits (slCtl e) 3 4
def slKeyLen (e : List Byte) : Nat := getBits (slCtl e) 7 6
def slStatic (e : List Byte) : Bool := bit (slCtl e) 13
def slLearn (e : List Byte) : Bool := bit (slCtl e) 14
def slSource (e : List Byte) : Nat := getBits (slCtl e) 16 16
/-- The key of an image, KEY_LEN bytes. -/
def slKey (e : List Byte) : List Byte := e.take (slKeyLen e)
/-- The action data of an image. -/
def slAction (e : List Byte) : List Byte := slice e 48 12
/-- Action data as an action word. -/
def actionOf (l : List Byte) : ActionWord := { w0 := leNat (slice l 0 4), w1 := leNat (slice l 4 4), w2 := leNat (slice l 8 4) }

/-- The 64 bytes of slot `i`. -/
def Bench.slot (b : Bench) (i : Nat) : List Byte := b.bytes (slotAddr i) 64

/-- Bench offset of the hit bit's byte (R135). -/
def hitAddr (i : Nat) : Nat := 0x2400000 + i / 8
/-- Is the hit bit of a slot set? -/
def Bench.hitBit (b : Bench) (i : Nat) : Bool := bit (memByte b.mem (hitAddr i)).toNat (i % 8)
/-- Set or clear the hit bit of a slot. -/
def Bench.setHit (b : Bench) (i : Nat) (v : Bool) : Bench :=
  let x := putBits (memByte b.mem (hitAddr i)).toNat (i % 8) 1 (if v then 1 else 0)
  { b with mem := memSet b.mem (hitAddr i) (BitVec.ofNat 8 x) }

/-- Add to a register field that counts (R141, R154). -/
def Bench.addFld (b : Bench) (f : Fld) (d : Int) : Bench := b.setFld f ((b.fld f : Int) + d).toNat

/-- Write an entry into a free slot: counts and hit bit follow (R140, R141). -/
def Bench.placeSlot (b : Bench) (i : Nat) (e : List Byte) (hit : Bool) : Bench :=
  (((b.setBytes (slotAddr i) e).addFld (R.match_OCCUPANCY_SLOTS (i / 32768)) 1).addFld
    (R.match_TABLE_COUNT_COUNT (slTable e)) 1).setHit i hit
/-- Zero a slot: counts and hit bit follow. -/
def Bench.clearSlot (b : Bench) (i : Nat) : Bench :=
  let e := b.slot i
  let b := if slValid e then
      (b.addFld (R.match_OCCUPANCY_SLOTS (i / 32768)) (-1)).addFld (R.match_TABLE_COUNT_COUNT (slTable e)) (-1)
    else b
  (b.setBytes (slotAddr i) (List.replicate 64 0#8)).setHit i false
/-- Move an entry with its hit bit (R138, R140). -/
def Bench.moveSlot (b : Bench) (i j : Nat) : Bench := (b.placeSlot j (b.slot i) (b.hitBit i)).clearSlot i

/-! ## Probes (R130 to R134) -/

/-- SWEEP_STATUS STATE: 0 IDLE, 1 RUNNING, 2 STUCK. -/
def Bench.sweepSt (b : Bench) : Nat := b.fld R.match_SWEEP_STATUS_STATE
/-- The bank in the sweep. -/
def Bench.sweepBank (b : Bench) : Nat := b.fld R.match_SWEEP_STATUS_BANK
/-- SEED_b. -/
def Bench.seed (b : Bench) (bank : Nat) : Nat := (b.reg (if bank = 0 then R.match_SEED_0 else R.match_SEED_1)).toNat
/-- SEED_NEXT. -/
def Bench.seedNext (b : Bench) : Nat := (b.reg R.match_SEED_NEXT).toNat

/-- The buckets whose probe result is used, in probe order: bank and bucket. -/
def Bench.probes (b : Bench) (table : Nat) (key : List Byte) : List (Nat × Nat) :=
  [(0, bucketOf (b.seed 0) table key), (1, bucketOf (b.seed 1) table key)] ++
    (if b.sweepSt = 0 then [] else [(b.sweepBank, bucketOf b.seedNext table key)])

/-- The candidate bucket of a key in a bank (R129). -/
def Bench.candidate (b : Bench) (bank table : Nat) (key : List Byte) : Nat :=
  if b.sweepSt ≠ 0 && b.sweepBank = bank then bucketOf b.seedNext table key else bucketOf (b.seed bank) table key

/-- The slots of a list of buckets, in probe order. -/
def slotsOf (l : List (Nat × Nat)) : List Nat := l.flatMap (fun x => [0, 1, 2, 3].map (slotIdx x.1 x.2))

/-- Does a slot hold a valid entry of the key for one of the generations of a mask (R130)? -/
def Bench.holds (b : Bench) (table mask : Nat) (key : List Byte) (i : Nat) : Bool :=
  let e := b.slot i
  slValid e && Nat.land (slGen e) mask ≠ 0 && slTable e = table && slKey e = key

/-- The first slot that hits, in the order P0, P1, P2 (R132). -/
def Bench.findKey (b : Bench) (table mask : Nat) (key : List Byte) : Option Nat :=
  (slotsOf (b.probes table key)).find? (b.holds table mask key)

/-- The first slot with an uncorrectable error in a list of slots. -/
def badSlot (ecc : Ecc) (l : List Nat) : Option Nat := l.find? (fun i => ecc.unc (slotAddr i) (slotAddr i + 64))
/-- The correctable errors in a list of slots: a slot read by two probes counts twice. [DESIGN CHOICE, log 122, unsafe] -/
def corSlots (ecc : Ecc) (l : List Nat) : Nat := (l.map (fun i => ecc.cor (slotAddr i) (slotAddr i + 64))).sum

/-! ## Recipes and keys (R123 to R126) -/

/-- Word `i` of the recipe of a class and generation. -/
def Bench.recipe (b : Bench) (g c i : Nat) : Nat := (b.reg (R.match_RECIPE (2048 * g + 8 * c + i))).toNat

/-- A segment word is in use. -/
def sgUsed (s : Nat) : Bool := getBits s 7 5 ≠ 0 && getBits s 12 2 ≠ 0

/-- The bytes a segment contributes, masked (R125). -/
def sgBytes (fv : List Byte) (s : Nat) : List Byte :=
  let l := slice fv (getBits s 0 7) (getBits s 7 5)
  let l := l.modify 0 (fun x => x &&& BitVec.ofNat 8 (getBits s 16 8))
  l.modify (l.length - 1) (fun x => x &&& BitVec.ofNat 8 (getBits s 24 8))

/-- The forwarding key (`k` = 0) or the learning key (`k` = 1). -/
def keyOf (fv : List Byte) (segs : List Nat) (k : Nat) : List Byte :=
  segs.flatMap (fun s => if sgUsed s && bit s (12 + k) then sgBytes fv s else [])

/-- The checks of R126 on a recipe: true where the packet goes on. -/
def recipeOk (ctl : Nat) (segs : List Nat) : Bool :=
  let len := fun k => (segs.map (fun s => if sgUsed s && bit s (12 + k) then getBits s 7 5 else 0)).sum
  getBits ctl 11 21 = 0 && segs.all (fun s => getBits s 14 2 = 0) &&
    segs.all (fun s => !sgUsed s || (getBits s 7 5 ≤ 16 && getBits s 0 7 + getBits s 7 5 ≤ 96)) &&
    (!bit ctl 1 || (1 ≤ len 0 && len 0 ≤ 48)) && (!bit ctl 2 || (1 ≤ len 1 && len 1 ≤ 48))

/-- A write of a recipe word (R123). [DEDUCED, log 47, unsafe] -/
def Bench.recipeWrite (b : Bench) (w : Nat) (v : Word) : Bench :=
  if b.writable (w / 2048) then b.setReg (R.match_RECIPE w) v else b.graphRefused
/-- RECIPE_WRITE: a write of word `w` of the recipes (R123). -/
def execRecipeWrite (n : BenchId) (w : Nat) (v : Word) (s : State) : Host.Outcome State Fault Refusal :=
  s.onBench n (fun b => if w < 4096 then b.recipeWrite w v else b)

/-! ## Learning (R146 to R150) -/

/-- The learn queue's OCCUPANCY and HWM (R154). -/
def Bench.countLearn (b : Bench) : Bench :=
  let k := b.mt.learnq.length
  let b := b.setFld R.match_LEARN_STATUS_OCCUPANCY k
  if b.fld R.match_LEARN_STATUS_HWM < k then b.setFld R.match_LEARN_STATUS_HWM k else b

/-- The SOURCE of a packet (R146). -/
def Pkt.source (p : Pkt) : Nat := match p.ring with | some r => 32768 + r | none => p.port % 4

/-- Form a learn record, or lose it when all 256 places are taken (R147, R149). -/
def Bench.formRecord (b : Bench) (r : LearnRec) : Bench :=
  if 256 ≤ b.mt.learnq.length then (b.tick T.LEARN_LOST).raise 16
  else
    let q := b.mt.learnq ++ [r]
    { b with mt := { b.mt with learnq := q } }.countLearn

/-- The learn notification of a packet for its learning key (R146); a host-face packet's carries the time of its first cut (R147). -/
def Bench.learnCheck (b : Bench) (p : Pkt) (table : Nat) (key : List Byte) : Bench :=
  let rec_ : Bool → Nat → Nat → LearnRec := fun moved old slot =>
    { pkt := some p.id, wait := true, key := key, ts := if p.ring.isSome then p.seen else p.ts, table := table, moved := moved, gen := p.gen, second := p.second, source := p.source, oldSource := old,
      slot := slot, seq := 0 }
  match b.findKey table (2 ^ p.gen) key with
  | none => b.formRecord (rec_ false 0 0)
  | some i =>
    let e := b.slot i
    if !slStatic e && slLearn e && slSource e ≠ p.source then b.formRecord (rec_ true (slSource e) i) else b

/-- Is a filter entry for the same key, table and source (R148)? -/
def FilterEnt.same (f : FilterEnt) (r : LearnRec) : Bool := f.key = r.key && f.table = r.table && f.source = r.source

/-- The record at the filter becomes readable or is suppressed (R148). [DESIGN CHOICE, log 48, unsafe] -/
def Bench.filterRecord (b : Bench) (pre : List LearnRec) (r : LearnRec) (post : List LearnRec) : Bench :=
  let hold := b.fld R.match_LEARN_CTL_HOLDOFF_US
  let live := b.mt.filter.filter (fun f => b.cyc < f.expiry)
  if hold ≠ 0 && live.any (fun f => f.same r) then
    ({ b with mt := { b.mt with learnq := pre ++ post, filter := live } }.tick T.LEARN_SUPPRESSED).countLearn
  else
    let evict := 64 ≤ live.length
    let seq := (b.mt.learnSeq + 1) % 65536
    let ent : FilterEnt := { key := r.key, table := r.table, source := r.source, expiry := b.cyc + hold * 1250 }
    let fil := (if evict then live.drop 1 else live) ++ [ent]
    let b := if evict then b.tick T.LEARN_FILTER_EVICT else b
    { b with mt := { b.mt with learnq := pre ++ { r with pkt := none, wait := false, seq := seq } :: post
                               learnSeq := seq, filter := fil } }

/-- The first record that has not passed the filter does, once its status and verdict are known good (R147, R148). [DESIGN CHOICE, log 48, unsafe] -/
def Bench.learnReady (b : Bench) : Bench :=
  let pre := b.mt.learnq.takeWhile (fun r => r.pkt.isNone)
  match b.mt.learnq.drop pre.length with
  | r :: post => if r.wait then b else b.filterRecord pre r post
  | [] => b

/-- The 80 bytes of a learn record (R150). -/
def LearnRec.bytes (r : LearnRec) : List Byte :=
  r.key ++ List.replicate (48 - r.key.length) 0#8 ++ r.ts.words.flatMap (leBytes 4) ++
    leBytes 4 (r.table % 16 + 16 * r.key.length + (if r.moved then 1024 else 0) + 2048 * (r.gen % 2) +
      (if r.second then 4096 else 0)) ++
    leBytes 2 r.source ++ leBytes 2 r.oldSource ++ leBytes 2 r.slot ++ leBytes 2 r.seq ++ List.replicate 8 0#8

/-- The readable head record, and the bench without it. -/
def Bench.takeLearn (b : Bench) : Option (LearnRec × Bench) :=
  match b.mt.learnq with
  | r :: t => if r.pkt.isNone then some (r, { b with mt := { b.mt with learnq := t } }.countLearn) else none
  | [] => none

/-- A write of 1 to LEARN_POP (R150). -/
def Bench.learnPop (b : Bench) : Bench :=
  if !b.flag R.match_LEARN_CTL_DEST then b.cfgRefused
  else
    match b.takeLearn with
    | none => b.setFld R.match_LEARN_REC_STATUS_VALID 0
    | some (r, b) =>
      let b := (List.range 20).foldl (fun b w =>
        b.setReg (R.match_LEARN_REC w) (BitVec.ofNat 32 (leNat (slice r.bytes (4 * w) 4)))) b
      b.setReg R.match_LEARN_REC_STATUS (BitVec.ofNat 32 (1 + 65536 * r.seq))
/-- LEARN_POP (R150). -/
def execLearnPop (n : BenchId) (s : State) : Host.Outcome State Fault Refusal := s.onBench n Bench.learnPop

/-! ## The lookup of a packet (R131 to R134) -/

/-- What the match stage hands to the action stage: a spoil code, or a hit or miss with its action data. -/
structure MatchRes where
  spoil : Nat
  hit : Option Nat
  act : ActionWord
deriving DecidableEq, Repr

/-- The match stage on a packet with its field vector. Of several damaged slots ECC_LOG takes the first in probe order, the forwarding
key's probes first. [DESIGN CHOICE, log 123, unsafe] -/
def Bench.matchStage (b : Bench) (p : Pkt) (fv : List Byte) (ecc : Ecc) : MatchRes × Bench :=
  let g := p.gen
  let c := leNat (slice fv 80 1)
  let ctl := b.recipe g c 0
  let segs := [4, 5, 6, 7].map (b.recipe g c)
  let miss : ActionWord := { w0 := b.recipe g c 1, w1 := b.recipe g c 2, w2 := b.recipe g c 3 }
  if !bit ctl 0 then ({ spoil := 0x33, hit := none, act := miss }, b)
  else if !recipeOk ctl segs then ({ spoil := 0x34, hit := none, act := miss }, b)
  else
    let fk := keyOf fv segs 0
    let lk := keyOf fv segs 1
    let ft := getBits ctl 3 4
    let lt := getBits ctl 7 4
    let used := (if bit ctl 1 then slotsOf (b.probes ft fk) else []) ++ (if bit ctl 2 then slotsOf (b.probes lt lk) else [])
    let b := b.correctable 2 (corSlots ecc used)
    match badSlot ecc used with
    | some i => ({ spoil := 0x35, hit := none, act := miss }, (b.setFld R.match_ECC_LOG_SLOT i).raise 15)
    | none =>
      let hit := if bit ctl 1 then b.findKey ft (2 ^ g) fk else none
      let b := match hit with
        | some i => (b.setHit i true).tick (T.HITS ft)
        | none => if bit ctl 1 then b.tick (T.MISSES ft) else b
      let b := if bit ctl 2 then b.learnCheck p lt lk else b
      ({ spoil := 0, hit := hit, act := match hit with | some i => actionOf (slAction (b.slot i)) | none => miss }, b)

/-! ## Table operations (R136 to R141) -/

/-- Is the key part of an image well-formed: KEY_LEN 1 to 48, zeros behind the key, a generation? -/
def keyImageOk (e : List Byte) : Bool :=
  1 ≤ slKeyLen e && slKeyLen e ≤ 48 && slGen e ≠ 0 && ((e.take 48).drop (slKeyLen e)).all (· = 0#8)
/-- Is an entry image valid (R137)? -/
def imageOk (e : List Byte) : Bool := keyImageOk e && !bit (slCtl e) 15

/-- A result with nothing to return. -/
def OpResult.plain (code : Nat) (slot : Option Nat) : OpResult := { code := code, slot := slot, bytes := List.replicate 64 0#8 }

/-- The probed slots of an image's key. -/
def Bench.keySlots (b : Bench) (e : List Byte) : List Nat := slotsOf (b.probes (slTable e) (slKey e))

/-- The lowest free slot of a bucket. -/
def Bench.freeSlot (b : Bench) (bank bucket : Nat) : Option Nat :=
  ([0, 1, 2, 3].map (slotIdx bank bucket)).find? (fun i => !slValid (b.slot i))
/-- How many slots of a bucket are free. -/
def Bench.freeSlots (b : Bench) (bank bucket : Nat) : Nat :=
  (([0, 1, 2, 3].map (slotIdx bank bucket)).filter (fun i => !slValid (b.slot i))).length

/-- ECC: the operation ends with 8 and is counted (R136); slot `i` is logged and event 15 raised (R154, R524). [DEDUCED, log 102, unsafe] -/
def Bench.opEcc (b : Bench) (i : Nat) : OpResult × Bench :=
  (OpResult.plain 8 none, ((b.tick T.TABLE_OP_ECC).setFld R.match_ECC_LOG_SLOT i).raise 15)

/-- Run an operation that reads slots `l`, unless one of them has an uncorrectable error. -/
def Bench.reading (b : Bench) (ecc : Ecc) (l : List Nat) (f : Bench → OpResult × Bench) : OpResult × Bench :=
  let b := b.correctable 2 (corSlots ecc l)
  match badSlot ecc l with
  | some i => b.opEcc i
  | none => f b

/-- Is an entry frozen: it serves the old generation alone, of which packets are still in flight (R180)? -/
def Bench.frozen (b : Bench) (e : List Byte) : Bool :=
  let g := 1 - b.genActive
  slGen e = 2 ^ g && !b.writable g
/-- An operation that would write a frozen entry writes nothing; which result it ends with is not stated: a free value. A MOVE and the
sweep leave what an entry says as it is, so they act on a frozen one. [DESIGN CHOICE, log 130, unsafe] -/
def Bench.opFrozen (b : Bench) : OpResult × Bench := (OpResult.plain (b.takeFree.1.toNat % 16) none, b.takeFree.2)

/-- LOOKUP (R136). -/
def Bench.opLookup (b : Bench) (e : List Byte) (ecc : Ecc) : OpResult × Bench :=
  if !keyImageOk e then (OpResult.plain 7 none, b)
  else b.reading ecc (b.keySlots e) (fun b =>
    match b.findKey (slTable e) (slGen e) (slKey e) with
    | some i => ({ code := 0, slot := some i, bytes := b.slot i }, b)
    | none => (OpResult.plain 2 none, b))

/-- READ (R136). -/
def Bench.opRead (b : Bench) (i : Nat) (ecc : Ecc) : OpResult × Bench :=
  b.reading ecc [i] (fun b => ({ code := 0, slot := none, bytes := b.slot i }, b))

/-- INSERT (R137). -/
def Bench.opInsert (b : Bench) (e : List Byte) (ecc : Ecc) : OpResult × Bench :=
  if !imageOk e then (OpResult.plain 7 none, b)
  else b.reading ecc (b.keySlots e) (fun b =>
    match b.findKey (slTable e) (slGen e) (slKey e) with
    | some i => ({ code := 1, slot := some i, bytes := b.slot i }, b)
    | none =>
      if b.fld (R.match_TABLE_CFG_LIMIT (slTable e)) ≤ b.fld (R.match_TABLE_COUNT_COUNT (slTable e)) then
        (OpResult.plain 4 none, b)
      else
        let c0 := b.candidate 0 (slTable e) (slKey e)
        let c1 := b.candidate 1 (slTable e) (slKey e)
        match (if b.freeSlots 0 c0 < b.freeSlots 1 c1 then b.freeSlot 1 c1 else b.freeSlot 0 c0) with
        | some i =>
          if b.frozen e then b.opFrozen else
          let img := putAt e 60 (leBytes 4 (putBits (slCtl e) 0 1 1))
          (OpResult.plain 0 (some i), b.placeSlot i img false)
        | none =>
          ({ code := 3, slot := none, bytes := leBytes 4 (c0 + 65536 * c1) ++ List.replicate 60 0#8 },
            (b.tick T.INSERT_NO_ROOM).raise 17))

/-- UPDATE (R139). [DEDUCED, log 46, unsafe] -/
def Bench.opUpdate (b : Bench) (i : Nat) (e expect : List Byte) (ecc : Ecc) : OpResult × Bench :=
  if !imageOk e then (OpResult.plain 7 none, b)
  else b.reading ecc (i :: b.keySlots e) (fun b =>
    let cur := b.slot i
    if !slValid cur || slTable cur ≠ slTable e || slKey cur ≠ slKey e then (OpResult.plain 2 none, b)
    else if slAction cur ≠ expect then ({ code := 5, slot := none, bytes := cur }, b)
    else match (b.keySlots e).find? (fun j => j ≠ i && b.holds (slTable e) (slGen e) (slKey e) j) with
    | some j => ({ code := 1, slot := some j, bytes := b.slot j }, b)
    | none =>
      if b.frozen cur then b.opFrozen else
      (OpResult.plain 0 none, b.setBytes (slotAddr i + 48) (slAction e ++ leBytes 4 (putBits (slCtl e) 0 1 1))))

/-- DELETE (R136). -/
def Bench.opDelete (b : Bench) (e : List Byte) (ecc : Ecc) : OpResult × Bench :=
  if !keyImageOk e then (OpResult.plain 7 none, b)
  else b.reading ecc (b.keySlots e) (fun b =>
    match b.findKey (slTable e) (slGen e) (slKey e) with
    | some i => if b.frozen (b.slot i) then b.opFrozen else (OpResult.plain 0 (some i), b.clearSlot i)
    | none => (OpResult.plain 2 none, b))

/-- MOVE (R138). -/
def Bench.opMove (b : Bench) (i j : Nat) (ecc : Ecc) : OpResult × Bench :=
  b.reading ecc ([0, 1, 2, 3].map (i / 4 * 4 + ·) ++ [0, 1, 2, 3].map (j / 4 * 4 + ·)) (fun b =>
    let e := b.slot i
    if slValid e && !slValid (b.slot j) && b.candidate (j / 32768) (slTable e) (slKey e) = j / 4 % 8192 then
      (OpResult.plain 0 none, b.moveSlot i j)
    else (OpResult.plain 6 none, b))

/-- CLEAR (R136). -/
def Bench.opClear (b : Bench) (i : Nat) : OpResult × Bench :=
  if slValid (b.slot i) && b.frozen (b.slot i) then b.opFrozen else (OpResult.plain 0 none, b.clearSlot i)

/-- Carry out a table operation. -/
def Bench.tableOp (b : Bench) (op slot dst : Nat) (image expect : List Byte) (ecc : Ecc) : OpResult × Bench :=
  match op with
  | 0 => b.opLookup image ecc
  | 1 => b.opRead slot ecc
  | 2 => b.opInsert image ecc
  | 3 => b.opUpdate slot image expect ecc
  | 4 => b.opDelete image ecc
  | 5 => b.opMove slot dst ecc
  | _ => b.opClear slot

/-- An operation enters the queue of 16 (R136); none where it is full. -/
def Bench.queueOp (b : Bench) (o : TableOp) : Option Bench :=
  if 16 ≤ b.mt.opq.length then none else some { b with mt := { b.mt with opq := b.mt.opq ++ [o] } }

/-- The operands staged in the operation registers. -/
def Bench.stagedOp (b : Bench) (op slot : Nat) : TableOp :=
  { src := .reg, op := op, slot := slot, dst := b.fld R.match_OP_DST_SLOT
    image := (List.range 16).flatMap (fun w => leBytes 4 (b.reg (R.match_OP_ENTRY w)).toNat)
    expect := (List.range 3).flatMap (fun w => leBytes 4 (b.reg (R.match_OP_EXPECT w)).toNat), blk := 0, res := none }

/-- A write of OP_CMD (R136, R155). -/
def Bench.opCmd (b : Bench) (v : Nat) : Bench :=
  if getBits v 0 3 = 7 then b.tick T.TABLE_OP_REFUSED
  else (b.queueOp (b.stagedOp (getBits v 0 3) (getBits v 16 16))).getD (b.tick T.TABLE_OP_REFUSED)

/-- The operation at the head of the queue is carried out, when it is of code `op` and has not been. -/
def Bench.runHeadOp (b : Bench) (op : Nat) (ecc : Ecc) : Bench :=
  match b.mt.opq with
  | [] => b
  | o :: t =>
    if o.op = op && o.res.isNone then
      let r := b.tableOp o.op o.slot o.dst o.image o.expect ecc
      { r.2 with mt := { r.2.mt with opq := { o with res := some r.1 } :: t } }
    else b

/-- TABLE_LOOKUP: the LOOKUP at the head of the operation queue (R136). -/
def execTableLookup (n : BenchId) (ecc : Ecc) (s : State) : Host.Outcome State Fault Refusal :=
  s.onBench n (fun b => b.runHeadOp 0 ecc)
/-- TABLE_READ (R136). -/
def execTableRead (n : BenchId) (ecc : Ecc) (s : State) : Host.Outcome State Fault Refusal :=
  s.onBench n (fun b => b.runHeadOp 1 ecc)
/-- TABLE_INSERT (R137). -/
def execTableInsert (n : BenchId) (ecc : Ecc) (s : State) : Host.Outcome State Fault Refusal :=
  s.onBench n (fun b => b.runHeadOp 2 ecc)
/-- TABLE_UPDATE (R139). -/
def execTableUpdate (n : BenchId) (ecc : Ecc) (s : State) : Host.Outcome State Fault Refusal :=
  s.onBench n (fun b => b.runHeadOp 3 ecc)
/-- TABLE_DELETE (R136). -/
def execTableDelete (n : BenchId) (ecc : Ecc) (s : State) : Host.Outcome State Fault Refusal :=
  s.onBench n (fun b => b.runHeadOp 4 ecc)
/-- TABLE_MOVE (R138). -/
def execTableMove (n : BenchId) (ecc : Ecc) (s : State) : Host.Outcome State Fault Refusal :=
  s.onBench n (fun b => b.runHeadOp 5 ecc)
/-- TABLE_CLEAR (R136). -/
def execTableClear (n : BenchId) (s : State) : Host.Outcome State Fault Refusal := s.onBench n (fun b => b.runHeadOp 6 [])

/-- The slot field of a result; the spec states none for a result that reports no slot: a free value. [DESIGN CHOICE, log 103, safe] -/
def Bench.opSlot (b : Bench) (r : OpResult) : Nat × Bench :=
  match r.slot with
  | some i => (i, b)
  | none => (b.takeFree.1.toNat % 65536, b.takeFree.2)

/-- The result of a register operation goes to OP_RESULT and OP_STATUS (R156). [DESIGN CHOICE, log 103, safe] -/
def Bench.postOp (b : Bench) (r : OpResult) : Bench :=
  let x := b.opSlot r
  let b := (List.range 16).foldl (fun b w =>
    b.setReg (R.match_OP_RESULT w) (BitVec.ofNat 32 (leNat (slice r.bytes (4 * w) 4)))) x.2
  b.postStatus R.match_OP_STATUS (2 * r.code + 256 * x.1) 24 8

/-! ## The sweep (R142 to R145, R157) -/

/-- A write of SWEEP_CTL: each refused field counts in CFG_REFUSED. BANK, RESUME and START are judged in this order, each on the state before
the write. [DESIGN CHOICE, log 124, unsafe] -/
def Bench.sweepCtl (b : Bench) (v : Nat) : Bench :=
  let st := b.sweepSt
  let bank := getBits v 2 1
  let b := if st = 0 then b.setFld R.match_SWEEP_CTL_BANK bank
           else if bank ≠ b.fld R.match_SWEEP_CTL_BANK then b.cfgRefused else b
  let b := if bit v 1 then (if st = 2 then b.setFld R.match_SWEEP_STATUS_STATE 1 else b.cfgRefused) else b
  if bit v 0 then
    if st = 0 then
      ((b.setFld R.match_SWEEP_STATUS_STATE 1).setFld R.match_SWEEP_STATUS_BANK bank).setFld R.match_SWEEP_STATUS_BUCKET 0
    else b.cfgRefused
  else b

/-- SWEEP_START: a write of SWEEP_CTL with START = 1 (R142). -/
def execSweepStart (n : BenchId) (v : Word) (s : State) : Host.Outcome State Fault Refusal :=
  s.onBench n (fun b => (b.rsvd R.match_SWEEP_CTL v.toNat).sweepCtl (putBits v.toNat 0 2 1))
/-- SWEEP_RESUME: a write of SWEEP_CTL with RESUME = 1 (R144). -/
def execSweepResume (n : BenchId) (v : Word) (s : State) : Host.Outcome State Fault Refusal :=
  s.onBench n (fun b => (b.rsvd R.match_SWEEP_CTL v.toNat).sweepCtl (putBits v.toNat 0 2 2))

/-- The sweep stops in STUCK at a slot (R144). -/
def Bench.sweepStuck (b : Bench) (slot cause : Nat) (log : Option Nat) : Bench :=
  let b := ((b.setFld R.match_SWEEP_STATUS_STATE 2).setFld R.match_SWEEP_STATUS_SLOT slot).setFld
    R.match_SWEEP_STATUS_CAUSE cause
  (match log with | some i => b.setFld R.match_ECC_LOG_SLOT i | none => b).raise 19

/-- Where the sweep puts an entry: the swept bank's bucket under SEED_NEXT, else the other bank's candidate; a bucket with
an uncorrectable error takes nothing (R143). -/
def Bench.sweepPlace (b : Bench) (bank table : Nat) (key : List Byte) (ecc : Ecc) : Option Nat :=
  let c := bucketOf b.seedNext table key
  let d := bucketOf (b.seed (1 - bank)) table key
  let try_ : Nat → Nat → Option Nat := fun k u =>
    if (badSlot ecc (slotsOf [(k, u)])).isSome then none else b.freeSlot k u
  (try_ bank c).orElse (fun _ => try_ (1 - bank) d)

/-- The slots of a step, from slot `k` of bucket `i` on: true when none stuck. -/
def Bench.sweepSlots (b : Bench) (bank i : Nat) (ecc : Ecc) : Nat → Nat → Bool × Bench
  | 0, _ => (true, b)
  | fuel + 1, k =>
    let si := slotIdx bank i k
    if (badSlot ecc [si]).isSome then (false, b.sweepStuck k 1 (some si))
    else
      let e := b.slot si
      if !slValid e || bucketOf b.seedNext (slTable e) (slKey e) = i then b.sweepSlots bank i ecc fuel (k + 1)
      else
        match b.sweepPlace bank (slTable e) (slKey e) ecc with
        | some j => (b.moveSlot si j).sweepSlots bank i ecc fuel (k + 1)
        | none =>
          let bad := badSlot ecc (slotsOf [(bank, bucketOf b.seedNext (slTable e) (slKey e)),
            (1 - bank, bucketOf (b.seed (1 - bank)) (slTable e) (slKey e))])
          (false, b.sweepStuck k (if bad.isSome then 1 else 0) bad)

/-- The slots that a step reads: those of bucket `i` and of the places of its entries that must move (R143). -/
def Bench.sweepReads (b : Bench) (bank i : Nat) (ecc : Ecc) : List Nat :=
  slotsOf ((bank, i) :: [0, 1, 2, 3].flatMap (fun k =>
    let e := b.slot (slotIdx bank i k)
    let c := bucketOf b.seedNext (slTable e) (slKey e)
    if (badSlot ecc [slotIdx bank i k]).isSome || !slValid e || c = i then []
    else [(bank, c), (1 - bank, bucketOf (b.seed (1 - bank)) (slTable e) (slKey e))])).eraseDups

/-- One step of a RUNNING sweep; after the last, SEED_b takes SEED_NEXT (R143 to R145). -/
def Bench.sweepStep (b : Bench) (ecc : Ecc) : Bench :=
  let bank := b.sweepBank
  let i := b.fld R.match_SWEEP_STATUS_BUCKET
  let b := b.correctable 2 (corSlots ecc (b.sweepReads bank i ecc))
  match b.sweepSlots bank i ecc 4 0 with
  | (false, b) => b
  | (true, b) =>
    if i < 8191 then b.setFld R.match_SWEEP_STATUS_BUCKET (i + 1)
    else
      (((b.setReg (if bank = 0 then R.match_SEED_0 else R.match_SEED_1) (b.reg R.match_SEED_NEXT)).setFld
        R.match_SWEEP_STATUS_STATE 0).setFld R.match_SWEEP_STATUS_DONE 1).raise 18

/-- SWEEP_STEP (R143). -/
def execSweepStep (n : BenchId) (ecc : Ecc) (s : State) : Host.Outcome State Fault Refusal :=
  s.onBench n (fun b => if b.sweepSt = 1 then b.sweepStep ecc else b)

/-! ## The hit bitmap (R135) -/

/-- HIT_BITMAP_READ: a read of 1, 2, 4 or 8 bytes at offset `off` of the bitmap returns and clears their bits. -/
def Bench.hitRead (b : Bench) (off size : Nat) : List Nat × Bench :=
  ([b.le (0x2400000 + off) size], b.setLe (0x2400000 + off) size 0)
/-- HIT_BITMAP_READ (R135). -/
def execHitBitmapRead (n : BenchId) (off size : Nat) (s : State) : Host.Outcome State Fault Refusal :=
  s.onRead n (fun b => if off + size ≤ 8192 && off % size = 0 then b.hitRead off size else ([0], b))

end Sys2Proof.Machine
end

