-- ==== Sys2Proof/Machine/Cipher.lean ====
section
/-! DEFINITION. The inline cipher (R186 to R211): security associations, head pass, body steps, verdicts, key slots. -/
namespace Sys2Proof.Machine

/-! ## Security associations (R193 to R195) -/

/-- Bench offset of entry `i`. -/
def saAddr (i : Nat) : Nat := 0x4000000 + 128 * i
def Bench.saCtl (b : Bench) (i : Nat) : Nat := b.le (saAddr i) 4
/-- STATE: 0 INACTIVE, 1 ACTIVE, 2 SUSPENDED, 3 EXHAUSTED. -/
def Bench.saState (b : Bench) (i : Nat) : Nat := b.saCtl i % 4
def Bench.setSaState (b : Bench) (i v : Nat) : Bench := b.setMbits (saAddr i) 0 2 v
/-- SPI or SSCI, four bytes in network order. -/
def Bench.saSpi (b : Bench) (i : Nat) : List Byte := b.bytes (saAddr i + 4) 4
def Bench.saSci (b : Bench) (i : Nat) : List Byte := b.bytes (saAddr i + 8) 8
def Bench.saSoft (b : Bench) (i : Nat) : Nat := b.le (saAddr i + 16) 8
def Bench.saInit (b : Bench) (i : Nat) : Nat := b.le (saAddr i + 24) 8
def Bench.saLay (b : Bench) (i : Nat) : Nat := b.le (saAddr i + 32) 4
def Bench.saSeq (b : Bench) (i : Nat) : Nat := b.le (saAddr i + 64) 8
def Bench.setSaSeq (b : Bench) (i v : Nat) : Bench := b.setLe (saAddr i + 64) 8 v
/-- KEY_LOADED, SOFT_REACHED and DRAINING as bits 0 to 2 of the status word. -/
def Bench.saFlag (b : Bench) (i k : Nat) : Bool := b.mbits (saAddr i) (576 + k) 1 = 1
def Bench.setSaFlag (b : Bench) (i k : Nat) (v : Bool) : Bench := b.setMbits (saAddr i) (576 + k) 1 (if v then 1 else 0)
def Bench.saMap (b : Bench) (i : Nat) : Nat := b.le (saAddr i + 80) 16
def Bench.setSaMap (b : Bench) (i v : Nat) : Bench := b.setLe (saAddr i + 80) 16 v
/-- The GCM key slot of an entry (R202). -/
def Bench.gcmKey (b : Bench) (i : Nat) : List Byte := memBytes b.keys (48 * i) 48

/-- The AES key of an entry: AES-128 uses bytes 0 to 15 of the slot (R194, R202). -/
def Bench.aesKey (b : Bench) (i : Nat) : List Byte := (b.gcmKey i).take (if bit (b.saCtl i) 4 then 32 else 16)
/-- How an ECC operand names key slot `i`, which has no bench offset (R206). [DESIGN CHOICE, log 127, safe] -/
def keyEcc (i : Nat) : Nat := 2 ^ 40 + 48 * i

/-- Fields of a control word. -/
def scMacsec (c : Nat) : Bool := bit c 2
def scInbound (c : Nat) : Bool := bit c 3
def scExt (c : Nat) : Bool := bit c 5
def scUdp (c : Nat) : Bool := bit c 6
def scReplay (c : Nat) : Bool := bit c 7
def scSci (c : Nat) : Bool := bit c 8
def scConf (c : Nat) : Bool := bit c 9
/-- Fields of a layout word. -/
def slEspSlot (l : Nat) : Nat := getBits l 0 3
def slNextHdr (l : Nat) : Nat := getBits l 8 8
def slWin (l : Nat) : Nat := getBits l 16 8
def slConfOff (l : Nat) : Nat := match getBits l 24 2 with | 0 => 0 | 1 => 30 | _ => 50
def slAn (l : Nat) : Nat := getBits l 26 2

/-- The staged bytes 0 to 63 of an entry. -/
def Bench.saStaged (b : Bench) : List Byte := (List.range 16).flatMap (fun w => leBytes 4 (b.reg (R.cipher_SA_STAGE w)).toNat)

/-- BAD_FIELD whatever the present state (R195). -/
def saBadField (e : List Byte) : Bool :=
  let c := leNat (slice e 0 4)
  let l := leNat (slice e 32 4)
  let init := leNat (slice e 24 8)
  getBits c 10 22 ≠ 0 || getBits l 3 5 ≠ 0 || getBits l 28 4 ≠ 0 || (e.drop 36).any (· ≠ 0#8) || c % 4 = 3 ||
    128 < slWin l || getBits l 24 2 = 3 || (scUdp c && scMacsec c) || (!scConf c && !scMacsec c) ||
    (!scInbound c && init = 0) || (2 ^ 32 ≤ init && !scExt c)

/-- An entry without its STATE. -/
def saStateless (e : List Byte) : List Byte := putAt e 0 (leBytes 4 (putBits (leNat (slice e 0 4)) 0 2 0))
/-- The fields an ACTIVE or SUSPENDED entry may not change: everything but STATE and SOFT_SEQ. -/
def saFixed (e : List Byte) : List Byte := putAt (saStateless e) 16 (List.replicate 8 0#8)

/-- The RESULT of a commit by the matrix of R195: 0 written, 1 SA_BUSY, 2 NO_KEY, 3 BAD_FIELD. -/
def Bench.saResult (b : Bench) (i : Nat) (e : List Byte) : Nat :=
  let now := b.saState i
  let nxt := leNat (slice e 0 4) % 4
  let keyed := b.saFlag i 0 && !b.saFlag i 2
  if saBadField e then 3
  else if now = 0 then (if nxt = 1 then (if keyed then 0 else 2) else if nxt = 2 then 3 else 0)
  else if now = 3 then (if nxt = 0 && saStateless e = saStateless (b.bytes (saAddr i) 64) then 0 else 1)
  else if saFixed e ≠ saFixed (b.bytes (saAddr i) 64) then 1
  else if now = 2 && nxt = 1 then (if b.saFlag i 0 then 0 else 2)
  else 0

/-- The effect of an accepted commit (R195, R203). [DEDUCED, log 41, unsafe] -/
def Bench.saWrite (b : Bench) (i : Nat) (e : List Byte) : Bench :=
  let now := b.saState i
  let nxt := leNat (slice e 0 4) % 4
  let b := b.setBytes (saAddr i) e
  if now = 0 && nxt = 1 then ((b.setSaSeq i (leNat (slice e 24 8))).setSaMap i 0).setSaFlag i 1 false
  else if now ≠ 0 && nxt = 0 then (b.setSaFlag i 2 true).setSaFlag i 0 false
  else b

/-- Commit SA_STAGE to entry `i`; the status is posted (R209). -/
def Bench.saCommit (b : Bench) (i : Nat) : Bench :=
  let e := b.saStaged
  let r := b.saResult i e
  let b := if r = 0 then b.saWrite i e else b.tick T.SA_WRITE_REFUSED
  b.postStatus R.cipher_SA_COMMIT_STATUS (2 * r) 16 16

/-- SA_COMMIT: a write of SA_COMMIT with an entry index (R195). -/
def execSaCommit (n : BenchId) (i : Nat) (s : State) : Host.Outcome State Fault Refusal :=
  s.onBench n (fun b => if i < 16384 then b.saCommit i else b)

/-- Does a packet whose head pass used the entry still wait for its verdict? -/
def Bench.saInUse (b : Bench) (i : Nat) : Bool := b.pkts.any (fun p => p.jobs.any (fun j => j.sa = i && !j.set))

/-- SA_KEY_ZEROISED: every packet of a DRAINING entry has its verdict; the slot is zeroised (R203). -/
def execSaKeyZeroised (n : BenchId) (i : Nat) (s : State) : Host.Outcome State Fault Refusal :=
  s.onBench n (fun b =>
    if i < 16384 && b.saFlag i 2 && !b.saInUse i then
      { b with keys := memWrite b.keys (48 * i) (List.replicate 48 0#8) }.setSaFlag i 2 false
    else b)

/-! ## Sequence numbers (R200, R201) -/

/-- Queue an SA notice, with event 25 (R200). -/
def Bench.saNotice (b : Bench) (i kind : Nat) : Bench :=
  if 64 ≤ b.ci.notices.length then (b.tick T.SA_NOTICE_LOST).raise 25
  else
    let q := b.ci.notices ++ [(i, kind)]
    { b with ci := { b.ci with notices := q } }.raise 25

/-- The last usable number. -/
def saLast (ctl : Nat) : Nat := if scExt ctl then 2 ^ 64 - 1 else 2 ^ 32 - 1

/-- Take the next outbound number of an entry: it advances, the soft limit and exhaustion are noticed. -/
def Bench.takeSeq (b : Bench) (i : Nat) : Bench :=
  let s := b.saSeq i
  let soft := b.saSoft i ≤ s && !b.saFlag i 1
  let b := if soft then (b.setSaFlag i 1 true).saNotice i 0 else b
  if s = saLast (b.saCtl i) then (b.setSaState i 3).saNotice i 1 else b.setSaSeq i (s + 1)

/-- The upper half of a received ESP number, recovered from the window's top (RFC 4303 Appendix A). [PRESUMED, log 40, safe] -/
def espUpper (top win low : Nat) : Nat :=
  let th := top / 2 ^ 32
  let tl := top % 2 ^ 32
  let w := max win 1
  if w - 1 ≤ tl then (if tl + 1 - w ≤ low then th else (th + 1) % 2 ^ 32)
  else (if (tl + 2 ^ 32 + 1) - w ≤ low then (th + 2 ^ 32 - 1) % 2 ^ 32 else th)
/-- The upper half of a received XPN number: that of the next expected one, or one more when the low half is below its low half and they
differ in their highest bit (IEEE 802.1AE). [PRESUMED, log 40, safe] -/
def xpnUpper (top low : Nat) : Nat :=
  let next := top + 1
  let nl := next % 2 ^ 32
  (next / 2 ^ 32 + (if low < nl && low / 2 ^ 31 ≠ nl / 2 ^ 31 then 1 else 0)) % 2 ^ 32
/-- The full number of a received one: its low 32 bits as sent, the upper bits recovered (R201). -/
def recoverSeq (macsec ext : Bool) (top win low : Nat) : Nat :=
  if !ext then low else low + 2 ^ 32 * (if macsec then xpnUpper top low else espUpper top win low)

/-- Is a number accepted by the window in force (R201)? -/
def Bench.replayOk (b : Bench) (i s win : Nat) : Bool :=
  let top := b.saSeq i
  top < s || (s + win ≥ top + 1 && s ≤ top && !bit (b.saMap i) (top - s))

/-- A good number moves SEQ and the bitmap (R201). -/
def Bench.moveWindow (b : Bench) (i s : Nat) : Bench :=
  let top := b.saSeq i
  let m := b.saMap i
  if top < s then
    (b.setSaSeq i s).setSaMap i ((if s - top < 128 then m * 2 ^ (s - top) else 0) % 2 ^ 128 / 2 * 2 + 1)
  else if top - s < 128 then b.setSaMap i (putBits m (top - s) 1 1) else b

/-! ## The head pass (R187, R191, R197 to R201) -/

/-- What the action stage hands to the cipher with a packet: direction, entry, edited positions and the pushed headers. -/
structure CipherIn where
  enc : Bool
  sa : Nat
  pos : Nat → Option Nat    -- HDR_OFF_s in the edited packet
  edited : Bool             -- EDIT_EN
  pushLen : Nat
  hdr : PushHdr

/-- Carry a job on to chain byte `y`: the bytes before `off` join the additional data, the others are enciphered or deciphered in place
and their ciphertext joins the tag's text. -/
def Bench.cipherTo (b : Bench) (h : Nat) (j : CipherJob) (y : Nat) : CipherJob × Bench :=
  if y ≤ j.done then (j, b)
  else
    let l := b.chainBytes h j.done (y - j.done)
    let k := min l.length (j.off - j.done)
    let d := l.drop k
    let m := d.mapIdx (fun i c => j.stream (j.done + k + i) c)
    ({ j with done := y, aad := j.aad ++ l.take k, text := j.text ++ (if j.enc then m else d) }, b.setChain h (j.done + k) m)

/-- One past the last chain byte of a packet that is stored, `d` cycles from now: what the face has received at its rate, or what the
fetch of a host frame has written so far. [DEDUCED, log 128, unsafe] -/
def Bench.storedEnd (b : Bench) (p : Pkt) (d : Nat) : Nat :=
  let e := p.start + p.len
  if p.ended then e
  else if p.ring.isSome then
    min e (128 + ((b.haul.cmds.find? (fun c => c.pid = some p.family)).map (·.wr)).getD 0)
  else min e (128 + 128 + (b.cyc + d - p.present) * portRate b.power.portMode / 100)

/-- How far an encryption may go: not past what a decryption whose verdict is to come has deciphered (R191). -/
def Pkt.clearEnd (p : Pkt) (j : CipherJob) (y : Nat) : Nat :=
  if j.enc then p.jobs.foldl (fun y d => if d.enc || d.set then y else min y d.done) y else y

/-- A job of the present head pass with nothing protected yet. -/
def Bench.newJob (b : Bench) (p : Pkt) (c : CipherIn) (seq : Nat) : CipherJob :=
  { enc := c.enc, sa := c.sa, seq := seq, ctl := b.saCtl c.sa, lay := b.saLay c.sa, key := b.aesKey c.sa, base := p.start
    off := p.start, payload := p.start, done := p.start, low := 0, aad := [], text := [], icv := none, nonce := [], fix := none
    steps := 0, set := false, bad := 0 }

/-- The nonce: salt and IV for ESP, SCI and PN for MACsec, SSCI and the full number added to the salt for XPN. [PRESUMED, log 40, safe] -/
def Bench.nonceOf (b : Bench) (sa seq : Nat) (sci : List Byte) : List Byte :=
  let key := b.gcmKey sa
  let c := b.saCtl sa
  if !scMacsec c then slice key 32 4 ++ beBytes 8 seq
  else if !scExt c then sci ++ beBytes 4 seq
  else List.zipWith (· ^^^ ·) (b.saSpi sa ++ beBytes 8 seq) (slice key 32 12)

/-- The ESP additional data: SPI and the 32-bit or the 64-bit number (R197). [PRESUMED, log 40, safe] -/
def Bench.espAad (b : Bench) (sa seq : Nat) : List Byte :=
  b.saSpi sa ++ (if scExt (b.saCtl sa) then beBytes 8 seq else beBytes 4 seq)

/-- The layout an outbound ESP packet must have (R197). `head` is the edited packet's head. -/
def espLayoutOk (c : CipherIn) (ctl : Nat) (head : List Byte) : Bool :=
  let ihl := (head.getD c.hdr.ipOff 0#8).toNat % 16 * 4
  c.edited && c.hdr.ipEn &&
    (if scUdp ctl then c.hdr.udpEn && c.hdr.udpOff + 8 = c.pushLen
     else c.hdr.ipOff + (if c.hdr.ip6 then 40 else ihl) = c.pushLen)

/-- Outbound ESP (R197): 16 bytes of ESP header and IV go in at PUSH_LEN, the outer headers move 16 bytes towards the
headroom, and protocol 50 is written when there is no UDP header. -/
def Bench.espOut (b : Bench) (p : Pkt) (c : CipherIn) : Pkt × CipherJob × Bench :=
  let seq := b.saSeq c.sa
  let outer := b.pktBytes p 0 c.pushLen
  let outer := if scUdp (b.saCtl c.sa) then outer else putAt outer (c.hdr.ipOff + (if c.hdr.ip6 then 6 else 9)) [50#8]
  let start := p.start - 16
  let hdr := b.saSpi c.sa ++ beBytes 4 seq ++ beBytes 8 seq
  let x := p.start + c.pushLen
  let j := { b.newJob p c seq with
    off := x, payload := x, done := x, aad := b.espAad c.sa seq
    nonce := b.nonceOf c.sa seq [], fix := some (c.hdr.at_ start) }
  ({ p with start := start, len := p.len + 16, fix := p.fix.map (·.moved p.start x 16) }, j,
    (b.setChain p.handle start (outer ++ hdr)).takeSeq c.sa)

/-- Inbound ESP (R198) from header position `o`: nothing moves. -/
def Bench.espIn (b : Bench) (p : Pkt) (c : CipherIn) (o seq : Nat) : CipherJob :=
  let x := p.start + o + 16
  { b.newJob p c seq with
    off := x, payload := x, done := x, aad := b.espAad c.sa seq
    nonce := slice (b.gcmKey c.sa) 32 4 ++ b.pktBytes p (o + 8) 8 }

/-- The bytes of the secured data that are only authenticated: up to the confidentiality offset, or all of them when CONFIDENTIAL = 0
(R194, R199). -/
def confOff (ctl lay : Nat) : Nat := if scConf ctl then slConfOff lay else 2 ^ 20

/-- Outbound MACsec (R199): the SecTAG goes in after the source address. -/
def Bench.secOut (b : Bench) (p : Pkt) (c : CipherIn) : Pkt × CipherJob × Bench :=
  let ctl := b.saCtl c.sa
  let lay := b.saLay c.sa
  let seq := b.saSeq c.sa
  let sci := scSci ctl
  let n := if sci then 16 else 8
  let secured := p.netLen - 12
  let tci := slAn lay + (if scConf ctl then 12 else 0) + (if sci then 32 else 0)
  let tag := [0x88#8, 0xE5#8, BitVec.ofNat 8 tci, BitVec.ofNat 8 (if secured < 48 then secured else 0)] ++ beBytes 4 seq ++
    (if sci then b.saSci c.sa else [])
  let addrs := b.pktBytes p 0 12
  let x := p.start + 12
  let j := { b.newJob p c seq with
    off := x + confOff ctl lay, payload := x, done := x, aad := addrs ++ tag, nonce := b.nonceOf c.sa seq (b.saSci c.sa) }
  ({ p with start := p.start - n, len := p.len + n }, j, (b.setChain p.handle (p.start - n) (addrs ++ tag)).takeSeq c.sa)

/-- The SCI that a SecTAG carries or implies: with SC = 0 the one of an end station when ES is set, else the one
receiver's (IEEE 802.1AE). -/
def Bench.impliedSci (b : Bench) (p : Pkt) (sa tci : Nat) : List Byte :=
  if bit tci 5 then b.pktBytes p 20 8
  else if bit tci 6 then b.pktBytes p 6 6 ++ [0#8, if bit tci 4 then 0#8 else 1#8] else b.saSci sa

/-- The SecTAG checks of R199. -/
def Bench.secTagOk (b : Bench) (p : Pkt) (sa : Nat) : Bool :=
  let t := b.pktBytes p 12 8
  let tci := leNat (slice t 2 1)
  let ctl := b.saCtl sa
  slice t 0 2 = [0x88#8, 0xE5#8] && !bit tci 7 && tci % 4 = slAn (b.saLay sa) && bit tci 3 = scConf ctl &&
    bit tci 2 = scConf ctl && b.impliedSci p sa tci = b.saSci sa && beNat (slice t 4 4) ≠ 0

/-- Inbound MACsec (R199): the SecTAG is removed, the addresses move towards the rest. -/
def Bench.secIn (b : Bench) (p : Pkt) (c : CipherIn) (seq : Nat) : Pkt × CipherJob × Bench :=
  let tci := leNat (b.pktBytes p 14 1)
  let n := if bit tci 5 then 16 else 8
  let ctl := b.saCtl c.sa
  let addrs := b.pktBytes p 0 12
  let x := p.start + 12 + n
  let j := { b.newJob p c seq with
    off := x + confOff ctl (b.saLay c.sa), payload := x, done := x, aad := b.pktBytes p 0 (12 + n)
    nonce := b.nonceOf c.sa seq (b.impliedSci p c.sa tci) }
  ({ p with start := p.start + n, len := p.len - n }, j, b.setChain p.handle (p.start + n) addrs)

/-- The packet with its FCS after its cipher growth (R210, 0x69). -/
def grownLen (p : Pkt) (enc esp : Bool) (headGrowth : Nat) (payload : Nat) : Nat :=
  p.netLen + 4 + (if enc then headGrowth + (if esp then espPad payload + 18 else 16) else 0)

/-- Bytes that the head pass inserts. -/
def headGrowth (ctl : Nat) : Nat := if scMacsec ctl then (if scSci ctl then 16 else 8) else 16

/-- The checks of the head pass that need no position (R189, R191, R205, R206, R210), in the order the model fixes; the
spoil code, 0 when they pass. [DESIGN CHOICE, log 42, unsafe] -/
def Bench.headCheck (b : Bench) (p : Pkt) (c : CipherIn) (ecc : Ecc) : Nat :=
  let ctl := b.saCtl c.sa
  if b.flag R.cipher_CIPHER_STATUS_HALTED then 0x6C
  else if ecc.unc (saAddr c.sa) (saAddr c.sa + 128) || ecc.unc (keyEcc c.sa) (keyEcc c.sa + 48) then 0x6E
  else if p.jobs.any (fun j => j.enc = c.enc) then 0x62
  else if b.saState c.sa = 0 || b.saState c.sa = 2 then 0x60
  else if scInbound ctl = c.enc then 0x61
  else if b.saState c.sa = 3 then 0x68
  else if 257 ≤ (b.working c.enc).length then 0x6A
  else 0

/-- The layout, association and replay checks of the head pass (R197 to R201, R210); `lo` is the received number's low
half where there is one. [DESIGN CHOICE, log 42, unsafe] -/
def Bench.headCheck2 (b : Bench) (p : Pkt) (c : CipherIn) : Nat :=
  let ctl := b.saCtl c.sa
  let esp := !scMacsec ctl
  let g := headGrowth ctl
  if c.enc then
    if esp && !espLayoutOk c ctl (b.pktBytes p 0 (min 128 p.netLen)) then 0x62
    else if 9728 < grownLen p true esp g (p.netLen - c.pushLen) || 128 < p.growth + g then 0x69 else 0
  else if esp then
    match c.pos (slEspSlot (b.saLay c.sa)) with
    | none => 0x62
    | some o => if p.netLen < o + 36 then 0x62 else if b.pktBytes p o 4 ≠ b.saSpi c.sa then 0x63 else 0
  else if b.secTagOk p c.sa then 0 else 0x63

/-- The received number of an inbound packet. -/
def Bench.rxSeq (b : Bench) (p : Pkt) (c : CipherIn) : Nat :=
  let ctl := b.saCtl c.sa
  let lo := if scMacsec ctl then beNat (b.pktBytes p 16 4)
    else beNat (b.pktBytes p ((c.pos (slEspSlot (b.saLay c.sa))).getD 0 + 4) 4)
  recoverSeq (scMacsec ctl) (scExt ctl) (b.saSeq c.sa) (slWin (b.saLay c.sa)) lo

/-- The head pass of an engaged packet whose bytes up to chain byte `stored` are stored: a spoil code, or 0 with the packet as it is
handed on. The packet's positions that lie behind inserted or removed bytes keep naming the same bytes. A decryption ends the window of
a second cut at the last byte it decrypts (R192). -/
def Bench.headPass (b : Bench) (p : Pkt) (c : CipherIn) (stored : Nat) (ecc : Ecc) : Nat × Pkt × Bench :=
  let b := b.correctable 3 (ecc.cor (saAddr c.sa) (saAddr c.sa + 128) + ecc.cor (keyEcc c.sa) (keyEcc c.sa + 48))
  let k1 := b.headCheck p c ecc
  if k1 = 0x6E then (k1, p, (b.setFld R.cipher_ECC_SA_ENTRY c.sa).raise 27)
  else if k1 ≠ 0 then (k1, p, b)
  else
    let k2 := b.headCheck2 p c
    if k2 ≠ 0 then (k2, p, b)
    else
      let ctl := b.saCtl c.sa
      let seq := b.rxSeq p c
      if !c.enc && scReplay ctl && !b.replayOk c.sa seq (slWin (b.saLay c.sa)) then
        (0x64, p, b.tick (T.SA_REPLAY c.sa))
      else
        let r : Pkt × CipherJob × Bench :=
          if c.enc then (if scMacsec ctl then b.secOut p c else b.espOut p c)
          else if scMacsec ctl then b.secIn p c seq
          else (p, b.espIn p c ((c.pos (slEspSlot (b.saLay c.sa))).getD 0) seq, b)
        let q := r.1
        let j := r.2.1
        let d : Int := (q.start : Int) - p.start
        let y := min (min (j.base + 256) stored) (j.stop { q with jobs := q.jobs ++ [j] })
        let k := r.2.2.cipherTo q.handle j (q.clearEnd j y)
        let q := { q with
          jobs := q.jobs ++ [k.1]
          wstart := if p.wstart = 0 then 0 else ((p.wstart : Int) - d).toNat
          wend := if c.enc then p.wend else y - q.start }
        (0, q, { k.2 with ci := { k.2.ci with queue := k.2.ci.queue ++ [(c.enc, p.id)] } })

/-! ## Body steps (R188, R191) -/

/-- Change a packet's unset job of a direction, in the packet and its copies. -/
def Bench.updJob (b : Bench) (enc : Bool) (id : Nat) (f : CipherJob → CipherJob) : Bench :=
  b.updSharers id (fun p => { p with jobs := p.jobs.map (fun j => if j.enc = enc && !j.set then f j else j) })

/-- The chain byte at which the next step of a job ends (R188). -/
def CipherJob.stepEnd (j : CipherJob) (p : Pkt) : Nat := min (j.base + 296 + 40 * j.steps) (p.start + p.netLen)
/-- May the next step run: its bytes are stored, and the decrypt steps that cover an encrypt step's bytes have run (R188, R191)? -/
def Bench.stepAllowed (b : Bench) (p : Pkt) (j : CipherJob) : Bool :=
  let y := min (j.stepEnd p) (j.stop p)
  j.stepEnd p ≤ b.storedEnd p 0 && p.clearEnd j y = y

/-- The next body step of a direction. Bytes of the head that were not yet stored at the head pass go with the first. [DEDUCED, log 128, unsafe] -/
def Bench.bodyStep (b : Bench) (enc : Bool) : Bench :=
  match (b.working enc).head?.bind (b.jobOf enc) with
  | some (p, j) =>
    if b.stepAllowed p j then
      let r := b.cipherTo p.handle j (min (j.stepEnd p) (j.stop p))
      (r.2.updJob enc p.id (fun _ => { r.1 with steps := j.steps + 1 })).countCipher
    else b
  | none => b

/-- CIPHER_BODY_STEP (R188). `enc` names the direction. -/
def execCipherBodyStep (n : BenchId) (enc : Bool) (s : State) : Host.Outcome State Fault Refusal :=
  s.onBench n (fun b => if b.flag R.cipher_CIPHER_STATUS_HALTED then b else b.bodyStep enc)

/-! ## Verdicts (R190, R197 to R201, R205) -/

/-- A verdict is set: the job ends, and a failed packet is discarded by its consumer (R190). -/
def Bench.setVerdict (b : Bench) (enc : Bool) (id code : Nat) : Bench :=
  let b := b.updJob enc id (fun j => { j with set := true, bad := code })
  let b := { b with ci := { b.ci with queue := b.ci.queue.filter (fun x => x ≠ (enc, id)) } }
  let b := if code ≠ 0 then b.updSharers id (fun p => { p with spoil := if p.spoil = 0 then code else p.spoil }) else b
  (b.eachSharer id (fun b p =>
    let b := if code ≠ 0 || (p.ended && p.spoil = 0 && !p.verdictPending) then b.learnStatus p.id (code = 0) else b
    if code ≠ 0 then b.failHeld p code
    else if p.loc = .gone then b.forget p
    else if p.ended then (b.writeFixes p).settle p else b)).countCipher

/-- A job whose packet turns out to end at chain byte `e`: what the tag took behind it is left out. -/
def CipherJob.cutAt (j : CipherJob) (e : Nat) : CipherJob :=
  let clear := min j.done j.off - j.payload
  { j with done := min j.done e, text := j.text.take (e - j.off), aad := j.aad.take (j.aad.length - clear + min clear (e - j.payload)) }
/-- The authentication tag of a job. [PRESUMED, log 40, safe] -/
def CipherJob.tagOf (j : CipherJob) : List Byte := leBytes 16 (Config.gcmTag j.key j.nonce j.aad j.text).toNat

/-- The packet's tail is now at chain byte `e`; FCS bytes behind it are gone. -/
def Pkt.endAt (p : Pkt) (e : Nat) : Pkt := { p with len := e - p.start, fcs := 0 }

/-- The good end of an outbound packet: padding, pad length, NEXT_HDR and ICV, and the lengths once more (R197, R199). -/
def Bench.sealTail (b : Bench) (p : Pkt) (j : CipherJob) : Bench :=
  let e := p.start + p.netLen
  let pad := espPad (e - j.payload)
  let tail := if j.esp then (List.range pad).map (fun i => BitVec.ofNat 8 (i + 1)) ++
      [BitVec.ofNat 8 pad, BitVec.ofNat 8 (slNextHdr j.lay)] else []
  let e2 := e + tail.length
  let r := (b.setChain p.handle e tail).cipherTo p.handle (j.cutAt e) e2
  let b := r.2.setChain p.handle e2 r.1.tagOf
  let q := p.endAt (e2 + 16)
  let b := b.updSharers p.id (fun k => k.endAt (e2 + 16))
  match j.fix with
  | some f => b.writeFix q f
  | none => b

/-- `n` bytes from chain byte `x` on of what a job has deciphered. -/
def CipherJob.plain (j : CipherJob) (x n : Nat) : List Byte := (slice j.text (x - j.off) n).mapIdx (fun i c => j.stream (x + i) c)

/-- The trailer of an inbound ESP packet whose ciphertext ends at `stop`: its code, and where the packet ends when it is good (R198). A
packet that breaks both the Next Header rule and the dummy rule gets the first's code. [DESIGN CHOICE, log 129, unsafe] -/
def espTrailer (j : CipherJob) (stop : Nat) : Nat × Nat :=
  let pad := leNat (j.plain (stop - 2) 1)
  let nh := leNat (j.plain (stop - 1) 1)
  let e := stop - 2 - pad
  let pads := j.plain e pad
  if stop - 2 < j.payload + pad + 1 || pads ≠ (List.range pad).map (fun i => BitVec.ofNat 8 (i + 1)) then (0x66, e)
  else if slNextHdr j.lay ≠ 0 && nh ≠ slNextHdr j.lay then (0x66, e)
  else if nh = 59 then (0x67, e) else (0, e)

/-- The verdict of an inbound packet whose job has come to its end: its code and where the packet then ends. -/
def Bench.openTail (b : Bench) (p : Pkt) (j : CipherJob) : Nat × Nat :=
  let stop := j.stop p
  if j.icv.getD (b.chainBytes p.handle stop 16) ≠ j.tagOf then (0x65, stop)
  else if scReplay j.ctl && !b.replayOk j.sa j.seq (slWin j.lay) then (0x64, stop)
  else if j.esp then espTrailer j stop else (0, stop)

/-- Both directions stop (R205): every pending verdict fails under CIPHER_FAULT. -/
def Bench.failAll (b : Bench) (code : Nat) : Bench := b.ci.queue.foldl (fun b x => b.setVerdict x.1 x.2 code) b

/-- The copies of a datapath disagree (R205). -/
def Bench.cipherMismatch (b : Bench) (enc : Bool) (id : Nat) : Bench :=
  let d := if enc then 0 else 1
  let b := ((b.setFld R.cipher_CIPHER_STATUS_MISMATCH 1).raise 23).setVerdict enc id 0x6B
  if b.ci.lastBad.contains d then
    ({ b with ci := { b.ci with lastBad := [] } }.setFld R.cipher_CIPHER_STATUS_HALTED 1 |>.raise 24).failAll 0x6B
  else
    let l := b.ci.lastBad ++ [d]
    { b with ci := { b.ci with lastBad := l } }

/-- A packet completes with agreement: a disagreement before it was transient (R205). -/
def Bench.cipherAgree (b : Bench) (enc : Bool) : Bench :=
  let d := if enc then 0 else 1
  if b.ci.lastBad.contains d then
    { b with ci := { b.ci with lastBad := b.ci.lastBad.filter (· ≠ d) } }.tick T.CIPHER_FAULT_TRANSIENT
  else b

/-- A good verdict's counts. -/
def Bench.countGood (b : Bench) (j : CipherJob) (bytes : Nat) : Bench :=
  ((b.tick (if j.enc then T.ENCRYPTED else T.DECRYPTED)).tick (T.SA_PKTS j.sa)).count (T.SA_OCTETS j.sa) bytes

/-- The verdict of the first packet of a direction; an encryption's waits for the decryption that trims its packet (R191). [DESIGN CHOICE, log 42, unsafe] -/
def Bench.cipherVerdict (b : Bench) (enc mismatch : Bool) : Bench :=
  match (b.ci.queue.find? (fun x => x.1 = enc)).bind (fun x => b.jobOf enc x.2) with
  | none => b
  | some (p, j) =>
    if !p.ended || stepsLeft (p, j) || (enc && p.decPending) then b
    else if mismatch then b.cipherMismatch enc p.id
    else
      let b := b.cipherAgree enc
      if enc then ((b.countGood j (p.start + p.netLen - j.payload)).sealTail p j).setVerdict true p.id 0
      else
        let k := b.cipherTo p.handle j (j.stop p)
        let b := k.2.updJob false p.id (fun _ => k.1)
        let r := b.openTail p k.1
        if r.1 = 0 then
          let b := (b.countGood j (r.2 - j.payload)).updSharers p.id (fun k => k.endAt r.2)
          let b := if scReplay j.ctl || b.saSeq j.sa < j.seq then b.moveWindow j.sa j.seq else b
          b.setVerdict false p.id 0
        else
          let b := if r.1 = 0x65 then b.tick (T.SA_AUTH_FAIL j.sa) else if r.1 = 0x64 then b.tick (T.SA_REPLAY j.sa) else b
          b.setVerdict false p.id r.1

/-- CIPHER_VERDICT: the last step is 48 cycles past; `mismatch` tells whether the duplicated datapaths disagreed. -/
def execCipherVerdict (n : BenchId) (enc mismatch : Bool) (s : State) : Host.Outcome State Fault Refusal :=
  s.onBench n (fun b => b.cipherVerdict enc mismatch)

/-! ## RESTART and key clearing (R204, R205) -/

/-- A write of CIPHER_CTL with RESTART = 1. [DEDUCED, log 41, unsafe] -/
def Bench.cipherRestart (b : Bench) : Bench :=
  if b.flag R.cipher_CIPHER_STATUS_HALTED then { b with ci := { b.ci with restarting := true } } else b
/-- CIPHER_RESTART (R205). -/
def execCipherRestart (n : BenchId) (s : State) : Host.Outcome State Fault Refusal := s.onBench n Bench.cipherRestart

/-- CIPHER_SELFTEST_DONE: the 4,096 cycles of known-answer vectors are over (R205). -/
def execCipherSelftestDone (n : BenchId) (ok : Bool) (s : State) : Host.Outcome State Fault Refusal :=
  s.onBench n (fun b =>
    if b.ci.restarting then
      let b := { b with ci := { b.ci with restarting := false } }
      if ok then b.setFld R.cipher_CIPHER_STATUS_HALTED 0 else b.setFld R.cipher_CIPHER_STATUS_SELFTEST_FAIL 1
    else b)

/-- Every key slot of the bench is zeroised (R204): ACTIVE entries become SUSPENDED, no entry has a key, every pending
verdict fails under CIPHER_KEY_CLEARED, event 26 is raised. [DEDUCED, log 41, unsafe] -/
def Bench.keysCleared (b : Bench) : Bench :=
  let b := { b with keys := [] }
  let b := (List.range 16384).foldl (fun b i =>
    let b := if b.saState i = 1 then b.setSaState i 2 else b
    if b.saFlag i 0 then b.setSaFlag i 0 false else b) b
  ((b.failAll 0x6D).setFld R.cipher_CIPHER_STATUS_KEYS_CLEARED 1).raise 26

end Sys2Proof.Machine
end

