-- ==== Sys2Proof/Machine/Action.lean ====
section
/-! DEFINITION. The action stage (R160 to R185): the action word, its checks, edits, mirrors, dispositions, generations and
template commits. -/
namespace Sys2Proof.Machine

/-! ## The action word (R161 to R164) -/

def acDisp (a : ActionWord) : Nat := getBits a.w0 0 3
def acDest (a : ActionWord) : Nat := getBits a.w0 3 14
def acPtpOp (a : ActionWord) : Nat := getBits a.w0 17 2
def acCapture (a : ActionWord) : Bool := bit a.w0 19
def acPtpSlot (a : ActionWord) : Nat := getBits a.w0 20 3
def acPtpUdp (a : ActionWord) : Bool := bit a.w0 23
def acCipher (a : ActionWord) : Nat := getBits a.w0 24 2
def acMeter (a : ActionWord) : Option Nat := if bit a.w1 15 then some (getBits a.w1 0 15) else none
def acEdit (a : ActionWord) : Bool := bit a.w1 16
def acTemplate (a : ActionWord) : Nat := getBits a.w1 17 10
def acMirror (a : ActionWord) : Nat := getBits a.w1 27 3
/-- TAG of R83: above the association index when the cipher is engaged (R164). -/
def acTag (a : ActionWord) : Nat := if acCipher a = 0 then getBits a.w2 0 16 else getBits a.w2 16 16

/-- Is DEST in the range its disposition gives it (R162)? -/
def destOk (profile disp dest : Nat) : Bool :=
  match disp with
  | 0 => getBits dest 3 11 = 0
  | 1 => getBits dest 13 1 = 0
  | 2 => profile ≠ 1 || dest < 4096
  | 3 => getBits dest 11 3 = 0
  | 4 => getBits dest 12 2 = 0 && getBits dest 8 4 ≤ 9
  | _ => false

/-- Check 2 of R165: does the action hold a refused value or a refused combination? -/
def actionBad (profile : Nat) (a : ActionWord) : Bool :=
  let special := acPtpOp a ≠ 0 || acCapture a
  getBits a.w0 26 6 ≠ 0 || getBits a.w1 30 2 ≠ 0 || acPtpOp a = 3 || acCipher a = 3 ||
    !destOk profile (acDisp a) (acDest a) ||
    (acDisp a = 4 && ((acMeter a).isSome || acMirror a ≠ 0 || special)) ||
    (special && acDisp a ≠ 1) || (acMirror a ≠ 0 && acCipher a ≠ 0)

/-! ## Templates (R171, R174, R176, R181, R184) -/

/-- Bench offset of template `t`. -/
def tplAddr (t : Nat) : Nat := 0x3010000 + 128 * t

/-- A template's bytes. -/
abbrev Template := List Byte
def tpCtl (t : Template) : Nat := leNat (slice t 0 4)
def tpPush (t : Template) : Nat := getBits (tpCtl t) 0 7
def tpUdpEn (t : Template) : Bool := bit (tpCtl t) 7
def tpIpEn (t : Template) : Bool := bit (tpCtl t) 8
def tpIp6 (t : Template) : Bool := bit (tpCtl t) 9
def tpValEn (t : Template) : Bool := bit (tpCtl t) 10
def tpSportEn (t : Template) : Bool := bit (tpCtl t) 11
def tpGen (t : Template) : Nat := getBits (tpCtl t) 12 2
def tpIpOff (t : Template) : Nat := leNat (slice t 4 1)
def tpUdpOff (t : Template) : Nat := leNat (slice t 5 1)
def tpValOff (t : Template) : Nat := leNat (slice t 6 1)
def tpStripSel (t : Template) : Nat := leNat (slice t 8 1) % 16
def tpStripFixed (t : Template) : Nat := leNat (slice t 9 1)
/-- IHL × 4 of the template's IP header (R172). -/
def tpIhl (t : Template) : Nat := leNat (slice t (16 + tpIpOff t) 1) % 16 * 4
/-- The pushed header bytes. -/
def tpHeader (t : Template) : List Byte := slice t 16 (tpPush t)

/-- The template at an index. -/
def Bench.template (b : Bench) (t : Nat) : Template := b.bytes (tplAddr t) 128

/-- BAD_LAYOUT (R174). -/
def tplBadLayout (t : Template) : Bool :=
  112 < tpPush t ||
    (tpIpEn t && (tpPush t < tpIpOff t + (if tpIp6 t then 40 else 20) ||
      (!tpIp6 t && tpPush t < tpIpOff t + tpIhl t))) ||
    (tpUdpEn t && tpPush t < tpUdpOff t + 8) || (tpValEn t && tpPush t < tpValOff t + 3)

/-- A reserved bit is 1 (R171). -/
def tplReserved (t : Template) : Bool :=
  getBits (tpCtl t) 14 18 ≠ 0 || leNat (slice t 7 1) ≠ 0 || getBits (leNat (slice t 8 1)) 4 4 ≠ 0 ||
    leNat (slice t 10 2) ≠ 0 || leNat (slice t 12 4) ≠ 0

/-- The RESULT of a commit, the checks in the order of R176. -/
def Bench.tplResult (b : Bench) (i : Nat) (t : Template) : Nat :=
  if tplBadLayout t then 2
  else if 10 < tpStripSel t then 3
  else if tplReserved t then 4
  else if b.maskWritable (Nat.lor (tpGen (b.template i)) (tpGen t)) then 0 else 1

/-- The staged template. -/
def Bench.tplStaged (b : Bench) : Template := (List.range 32).flatMap (fun w => leBytes 4 (b.reg (R.action_TPL_STAGE w)).toNat)

/-- Commit the staged template (R176). -/
def Bench.templateCommit (b : Bench) (i : Nat) : Bench :=
  let t := b.tplStaged
  let r := b.tplResult i t
  let b := if r = 0 then b.setBytes (tplAddr i) t else b.graphRefused
  b.postStatus R.action_TPL_COMMIT_STATUS (2 * r + 16 * i) 16 16

/-- TEMPLATE_COMMIT: a write of TPL_COMMIT with an index (R176). -/
def execTemplateCommit (n : BenchId) (i : Nat) (s : State) : Host.Outcome State Fault Refusal :=
  s.onBench n (fun b => if i < 1024 then b.templateCommit i else b)

/-! ## Generations (R179, R180) -/

/-- OLD_GEN_IDLE after a change of counts or of GEN_ACTIVE; its rise sets IDLE_REACHED and raises event 21. -/
def Bench.judgeIdle (b : Bench) : Bench :=
  let idle := b.inflight (1 - b.genActive) = 0
  let was := b.flag R.action_GEN_STATUS_OLD_GEN_IDLE
  if idle && !was then
    ((b.setFld R.action_GEN_STATUS_OLD_GEN_IDLE 1).setFld R.action_GEN_STATUS_IDLE_REACHED 1).raise 21
  else if !idle && was then b.setFld R.action_GEN_STATUS_OLD_GEN_IDLE 0 else b

/-- A packet of a generation enters or leaves the counted stages. -/
def Bench.addInflight (b : Bench) (g : Nat) (d : Int) : Bench :=
  (b.setFld (R.action_INFLIGHT_COUNT g) ((b.inflight g : Int) + d).toNat).judgeIdle

/-- A write of SWAP = 1 (R180). -/
def Bench.genSwap (b : Bench) : Bench :=
  if b.flag R.action_GEN_STATUS_OLD_GEN_IDLE then
    let g := 1 - b.genActive
    (((b.setFld R.graph_GRAPH_CTL_GEN_ACTIVE g).setFld R.action_GEN_STATUS_GEN_ACTIVE g).tick T.GEN_SWAPS).judgeIdle
  else (b.tick T.GEN_SWAP_REFUSED).raise 22

/-- GEN_CTL_SWAP (R180). -/
def execGenCtlSwap (n : BenchId) (s : State) : Host.Outcome State Fault Refusal := s.onBench n Bench.genSwap

/-! ## Positions and edits (R169, R170, R172 to R174, R178) -/

/-- HDR_OFF_s of a field vector. -/
def fvHdr (fv : List Byte) (s : Nat) : Nat := leNat (slice fv (64 + 2 * s) 2)
/-- END_CURSOR of a field vector. -/
def fvEnd (fv : List Byte) : Nat := leNat (slice fv 86 2)

/-- The edit of a packet: the strip point, the pushed bytes, and the headers in them. -/
structure Edit where
  strip : Nat
  push : List Byte
  hdr : PushHdr
deriving DecidableEq, Repr

/-- No edit. -/
def Edit.none : Edit := { strip := 0, push := [], hdr := PushHdr.none }

/-- The strip point as a byte of the packet (R170); none where its position is unrecorded. -/
def stripPoint (t : Template) (fv : List Byte) (w : Nat) : Option Nat :=
  let sel := tpStripSel t
  if sel = 9 then some 0
  else if sel = 10 then some (w + tpStripFixed t)
  else
    let p := if sel = 8 then fvEnd fv else fvHdr fv sel
    if p = 0xFFFF then none else some (w + p)

/-- A cursor position of the present cut in the edited packet; none where it is unrecorded or stripped (R170). -/
def movedPos (p w : Nat) (e : Edit) : Option Nat :=
  if p = 0xFFFF || w + p < e.strip then none else some (w + p - e.strip + e.push.length)

/-- The entropy of R172: the hash of R129 over the forwarding key, without the final mask; 0 for an empty key. -/
def entropyOf (table : Nat) (key : List Byte) : Nat :=
  if key.isEmpty then 0 else Nat.xor (crc32c (crcByte 0xFFFFFFFF (BitVec.ofNat 8 table)) key) 0xFFFFFFFF

/-- The pushed bytes before their lengths are completed: UDP checksum 0, entropy port and VALUE (R172). -/
def pushBytes (t : Template) (a : ActionWord) (entropy : Nat) : List Byte :=
  let h := tpHeader t
  let h := if tpUdpEn t then (putAt h (tpUdpOff t + 6) [0#8, 0#8]).take h.length else h
  let h := if tpSportEn t then (putAt h (tpUdpOff t) (beBytes 2 (0xC000 + entropy % 0x4000))).take h.length else h
  if tpValEn t then (putAt h (tpValOff t) (beBytes 3 (a.w2 % 2 ^ 24))).take h.length else h

/-- The edit that an action asks for; none where the strip point fails check 5 (R165, R170). -/
def editOf (a : ActionWord) (t : Template) (fv : List Byte) (w len entropy : Nat) : Option Edit :=
  if !acEdit a then some Edit.none
  else
    match stripPoint t fv w with
    | Option.none => Option.none
    | some s =>
      if len ≤ s || 255 < s then Option.none
      else some { strip := s, push := pushBytes t a entropy
                  hdr := { ipEn := tpIpEn t, ip6 := tpIp6 t, ipOff := tpIpOff t, ihl := tpIhl t, udpEn := tpUdpEn t, udpOff := tpUdpOff t } }

/-- PTP_OFF in the edited packet; 0 when PTP_OP is none; none where check 5 fails (R169). -/
def ptpPos (a : ActionWord) (fv : List Byte) (w : Nat) (e : Edit) : Option Nat :=
  if acPtpOp a = 0 then some 0
  else (movedPos (fvHdr fv (acPtpSlot a)) w e).filter (fun o => 14 ≤ o && o ≤ 190)

/-- The second cut's window start in the edited packet; none where check 5 fails (R178). -/
def winPos (a : ActionWord) (fv : List Byte) (w len : Nat) (e : Edit) : Option Nat :=
  if acDisp a ≠ 4 then some 0
  else
    let win := getBits (acDest a) 8 4
    let o := if win = 9 then some 0 else movedPos (if win = 8 then fvEnd fv else fvHdr fv win) w e
    o.filter (fun o => o + 1 < len - e.strip + e.push.length)

/-- Check 6 (R174). [DEDUCED, log 39, unsafe] -/
def editTooLong (p : Pkt) (e : Edit) : Bool :=
  128 < p.growth + e.push.length - e.strip || p.start + e.strip < e.push.length ||
    9728 < p.netLen + 4 + e.push.length - e.strip

/-- The result of the checks: a spoil code, or the edit with the positions it moves. -/
structure ActionOk where
  code : Nat
  edit : Edit
  ptp : Nat
  win : Nat

/-- How many entries a core's packet inbox holds (R167). -/
def Bench.inboxLen (b : Bench) (core : Nat) : Nat := (b.pkts.filter (fun p => p.loc = .inbox core)).length
/-- INBOX_STATUS of a core keeps its high-water mark (R320). -/
def Bench.countInbox (b : Bench) (c : Nat) : Bench :=
  let k := b.inboxLen c
  if b.fld (R.engine_INBOX_STATUS_HWM c) < k then b.setFld (R.engine_INBOX_STATUS_HWM c) k else b

/-- Is a core's inbox full? That of a core that is not RUNNING counts as full (R289). [DEDUCED, log 39, unsafe] -/
def Bench.inboxFull (b : Bench) (core : Nat) : Bool :=
  32 ≤ b.inboxLen core || b.fld (R.engine_CORE_STATUS_STATE core) ≠ 1

/-- Checks 2 to 6 and 8 of R165 on an action, in their order. [DEDUCED, log 39, unsafe] -/
def Bench.actionCheck (b : Bench) (p : Pkt) (fv : List Byte) (a : ActionWord) (entropy : Nat) : ActionOk :=
  let t := b.template (acTemplate a)
  let bad : Nat → ActionOk := fun c => { code := c, edit := Edit.none, ptp := 0, win := 0 }
  if actionBad b.power.profile a then bad 0x50
  else if acEdit a && (!bit (tpGen t) p.gen || (tpValEn t && acCipher a ≠ 0)) then bad 0x51
  else if acDisp a = 4 && p.second then bad 0x54
  else
    match editOf a t fv p.wstart p.netLen entropy with
    | none => bad 0x52
    | some e =>
      match ptpPos a fv p.wstart e, winPos a fv p.wstart p.netLen e with
      | some o, some win =>
        if acEdit a && editTooLong p e then bad 0x53
        else if acDisp a = 3 && b.inboxFull (getBits (acDest a) 0 3) then bad 0x55
        else { code := 0, edit := e, ptp := o, win := win }
      | _, _ => bad 0x52

/-- Before an edit puts bytes up to chain byte `x` into the head, every decryption in progress takes those it has not yet, and keeps the
ICV where the edit reaches it. [DEDUCED, log 128, unsafe] -/
def Bench.catchUp (b : Bench) (p : Pkt) (x : Nat) : Pkt × Bench :=
  let r := p.jobs.foldl (fun (r : List CipherJob × Bench) j =>
    if j.enc || j.set then (r.1 ++ [j], r.2)
    else
      let e := j.stop p
      let k := r.2.cipherTo p.handle j (min x e)
      (r.1 ++ [if e < x && j.icv.isNone then { k.1 with icv := some (b.chainBytes p.handle e 16) } else k.1], k.2)) ([], b)
  ({ p with jobs := r.1 }, r.2)

/-- Write an edit into the head: the start moves, the pushed bytes are written, and the lengths are completed now or when
the end status arrives (R170, R172, R173). Pending lengths of the first cut stay, but for stripped headers. [DEDUCED, log 125, unsafe] -/
def Bench.applyEdit (b : Bench) (p : Pkt) (a : ActionWord) (e : Edit) : Pkt × Bench :=
  if !acEdit a then (p, b)
  else
    let cut := p.start + e.strip
    let r := b.catchUp p cut
    let start := cut - e.push.length
    let q : Pkt := { r.1 with
      start := start, len := p.len + e.push.length - e.strip, growth := p.growth + e.push.length - e.strip
      fix := p.fix.map (·.after cut), jobs := r.1.jobs.map (fun j => { j with low := max j.low cut, fix := j.fix.map (·.after cut) }) }
    let b := (r.2.setChain p.handle start e.push).tick T.EDITS
    let f := e.hdr.at_ start
    if f.isEmpty then (q, b)
    else if q.ended && !q.decPending then
      let b := (b.updPkt p.id (fun _ => q)).writeFix q f
      ((b.pkt? p.id).getD q, b)
    else ({ q with fix := q.fix ++ [f] }, b.tick T.FIXUP_DEFERRED)

/-! ## Mirror copies (R168) -/

/-- Register the mirror copy of an edited packet: it shares the buffers (R255) and is queued as a packet of its own. A copy
bound for a flow queue enters the side entry with its original; the id of one bound for a receive ring is answered, since the
host delivery queue takes its original first (R212, R216). [DESIGN CHOICE, log 38, unsafe] -/
def Bench.mirror (b : Bench) (p : Pkt) (k : Nat) (ecc : Ecc) : Option Nat × Bench :=
  if k = 0 then (none, b)
  else if !b.flag (R.action_MIRROR_VALID (k - 1)) then (none, b.tick (T.MIRROR_OFF k))
  else
    let r := b.hopOp opShare 1 p.handle 7 2 ecc
    if r.1 ≠ 0 then (none, r.2)
    else
      let dest := b.fld (R.action_MIRROR_DEST (k - 1))
      let trunc := b.fld (R.action_MIRROR_TRUNC (k - 1))
      let c : Pkt := { p with
        id := b.nextPid, loc := .side, mirrorOf := some p.id, jobs := p.jobs, trunc := if 9728 ≤ trunc then 0 else trunc
        tm := { p.tm with queue := dest, meter := none, provisional := false }
        tx := { p.tx with capture := false } }
      let b := (r.2.addPkt c).tick (T.MIRROR_COPIES k)
      if p.spoil ≠ 0 then (none, b.discard c p.spoil ecc)
      else if b.flag (R.action_MIRROR_TO_HOST (k - 1)) then (some c.id, b) else (none, b.toSide c)

/-- A host-bound copy enters the host delivery queue, after its original (R216). -/
def Bench.mirrorHost (b : Bench) (c : Option Nat) : Bench :=
  match c.bind b.pkt? with
  | some k => b.laneHost k none []
  | none => b

/-! ## Dispositions (R167, R177) -/

/-- The packet leaves the cipher stage of its final cut, or is discarded in a stage before: its generation's count falls. -/
def Bench.leaveStages (b : Bench) (p : Pkt) : Bench := b.addInflight p.gen (-1)

/-- A packet is discarded in the cut graph, match, action or cipher stage (R166, R179). -/
def Bench.discardStage (b : Bench) (p : Pkt) (code : Nat) (ecc : Ecc) : Bench := (b.discard p code ecc).leaveStages p

/-- A packet leaves the cipher stage towards its destination (R167); one whose end status or verdict has failed is discarded (R67, R108, R190). [DESIGN CHOICE, log 38, unsafe] -/
def Bench.dispose (b : Bench) (p : Pkt) (a : ActionWord) (ecc : Ecc) : Bench :=
  let dest := acDest a
  if p.spoil ≠ 0 then b.discard p p.spoil ecc
  else
    match acDisp a with
    | 1 => b.lane p (acMeter a) dest ecc
    | 2 => (b.updPkt p.id (fun k => { k with tm := { k.tm with queue := dest } })).laneHost
        { p with tm := { p.tm with queue := dest } } (acMeter a) ecc
    | 3 => (b.updPkt p.id (fun k => { k with loc := .inbox (getBits dest 0 3) })).countInbox (getBits dest 0 3)
    | _ => b.updPkt p.id (fun k => { k with loc := .loop })

/-- A packet that passed the action stage: the cipher's head pass when it is engaged, then its destination. -/
def Bench.toCipher (b : Bench) (p : Pkt) (a : ActionWord) (cin : CipherIn) (ecc : Ecc) : Bench :=
  let second := acDisp a = 4
  let done := fun (b : Bench) (p : Pkt) =>
    let b := b.updPkt p.id (fun _ => p)
    let b := (b.dispose p a ecc).countCipher
    if second && p.spoil = 0 then b else b.leaveStages p
  if acCipher a = 0 then done b p
  else
    let r := b.headPass p cin (b.storedEnd p 56) ecc
    if r.1 = 0 then done r.2.2 r.2.1 else r.2.2.discardStage p r.1 ecc

/-- The action stage on a packet whose match is done (R165, R166): the checks, the edit, the mirror copy, the
disposition. -/
def Bench.actionStage (b : Bench) (p : Pkt) (fv : List Byte) (a : ActionWord) (hit : Option Nat) (entropy : Nat) (ecc : Ecc) :
    Bench :=
  let ta := tplAddr (acTemplate a)
  let b := if acEdit a then b.correctable 1 (ecc.cor ta (ta + 128)) else b
  if acEdit a && ecc.unc ta (ta + 128) then (b.raise 20).discardStage p 0x56 ecc
  else
    let r := b.actionCheck p fv a entropy
    if r.code ≠ 0 then b.discardStage p r.code ecc
    else
      let q := b.applyEdit p a r.edit
      let carry := beBytes 4 a.w2 ++ beBytes 2 (hit.getD 0xFFFF)
      let second := acDisp a = 4
      let tx : PktTx := { ptpOp := acPtpOp a, ptpOff := r.ptp, csumOff := if acPtpOp a ≠ 0 && acPtpUdp a then r.ptp - 2 else 0
                          capture := acCapture a || p.tx.capture, tag := if acCapture a then acTag a else p.tx.tag, stamp := none }
      let p := { q.1 with
        act := a, mark := a.w2, fv := fv, tx := tx, carry := if second then carry else q.1.carry
        wstart := if second then r.win else q.1.wstart, wend := 2 ^ 20
        snode := if second then getBits (acDest a) 0 8 else q.1.snode }
      let m := (q.2.updPkt p.id (fun _ => p)).mirror p (acMirror a) ecc
      let b := m.2
      if acDisp a = 0 then (b.discardStage p (0x58 + getBits (acDest a) 0 3) ecc).mirrorHost m.1
      else
        let b := if second then b.tick T.SECOND_CUT_SENT else b
        (b.toCipher p a
          { enc := acCipher a = 1, sa := getBits a.w2 0 14, pos := fun s => movedPos (fvHdr fv s) q.1.wstart r.edit
            edited := acEdit a, pushLen := r.edit.push.length, hdr := r.edit.hdr } ecc).mirrorHost m.1

/-! ## The three admissions (R95 to R99) -/

/-- The entropy of a packet: its recipe's forwarding key and table (R172). -/
def Bench.entropy (b : Bench) (g : Nat) (fv : List Byte) : Nat :=
  let c := leNat (slice fv 80 1)
  entropyOf (getBits (b.recipe g c 0) 3 4) (keyOf fv ([4, 5, 6, 7].map (b.recipe g c)) 0)

/-- The parsing, match, action and cipher stages of one cut. [DEDUCED, log 37, unsafe] -/
def Bench.stages (b : Bench) (p : Pkt) (wait : Nat) (ecc : Ecc) : Bench :=
  let r := b.runWalk p ecc
  let b := (b.correctable 0 (ecc.cor 0x3000000 0x3004000)).walkTallies r
  if r.spoil ≠ 0 then (if r.spoil = 0x32 then b.raise 13 else b).discardStage p r.spoil ecc
  else
    let fv := fieldVector r p wait
    let m := (b.capture fv p.second).matchStage p fv ecc
    if m.1.spoil ≠ 0 then m.2.discardStage p m.1.spoil ecc
    else m.2.actionStage p fv m.1.act m.1.hit (m.2.entropy p.gen fv) ecc

/-- One cut of a packet, from the admitted header to its destination. Its learn records wait for its end status and, when
the cipher is engaged, for its verdict (R147). [DEDUCED, log 37, unsafe] -/
def Bench.cut (b : Bench) (p : Pkt) (wait : Nat) (ecc : Ecc) : Bench :=
  let b := b.stages p wait ecc
  let pending := ((b.pkt? p.id).map Pkt.verdictPending).getD false
  if p.spoil ≠ 0 || ((p.ended || p.ring.isSome) && !pending) then b.learnStatus p.id (p.spoil = 0) else b

/-- The port that owns a wheel position (R96): none owns an odd one. -/
def wheelOwner (mode pos : Nat) : Option Nat :=
  if pos % 2 = 1 then none
  else match portCount mode with
    | 1 => some 0
    | 2 => some (pos / 2 % 2)
    | _ => some (pos / 2)

/-- The cycles that a header presented in cycle `c` waits for the next position its port owns (R96). -/
def wheelWait (mode p c : Nat) : Nat :=
  ((List.range 8).find? (fun w => wheelOwner mode ((c + w) % 8) = some p)).getD 0

/-- The cut graph is free in this cycle: it admits one header per cycle (R96). -/
def Bench.cutFree (b : Bench) : Bool := b.wheel.last ≠ some b.cyc
/-- May port `p` use this cycle: a wheel position that it owns (R96)? -/
def Bench.faceTurn (b : Bench) (p : Nat) : Bool := b.cutFree && wheelOwner b.power.portMode (b.cyc % 8) = some p

/-- The cycle in which a packet of the loop is admitted (R98): 112 cycles after its first cut, or the next odd one. -/
def Pkt.loopDue (k : Pkt) : Nat := k.admitAt + 112 + (1 - (k.admitAt + 112) % 2)
/-- The packet of the loop whose first cut was admitted first. -/
def Bench.loopHead (b : Bench) : Option Pkt :=
  (b.pkts.filter (fun k => k.loc = .loop)).foldl (fun m k =>
    match m with
    | some x => if k.admitAt < x.admitAt then some k else m
    | none => some k) none
/-- Its second cut is due: an odd cycle, not before its own (R98). -/
def Bench.loopTurn (b : Bench) (k : Pkt) : Bool := b.cutFree && b.cyc % 2 = 1 && k.loopDue ≤ b.cyc
/-- May the host face use this cycle: an odd one in which no second cut is admitted and after one in which no first cut was (R99)? -/
def Bench.hostTurn (b : Bench) : Bool :=
  b.cutFree && b.cyc % 2 = 1 && decide (b.wheel.first.map (· + 1) ≠ some b.cyc) &&
    !((b.loopHead.map (fun k => decide (k.loopDue ≤ b.cyc))).getD false)

/-- A first cut after a wait (R96, R99, R111, R112): unarmed packets go, the others are stamped with GEN_ACTIVE and counted. [DEDUCED, log 120, unsafe] -/
def Bench.firstCut (b : Bench) (p : Pkt) (wait : Nat) (ecc : Ecc) : Bench :=
  let b := { b.tick T.FIRST_CUTS with wheel := { last := some b.cyc, first := some b.cyc } }
  if !b.armed then b.discard p 0x30 ecc
  else
    let p := { p with
      gen := b.genActive, loc := .loop, second := false, wstart := 0, admitAt := b.cyc
      seen := Stamp.ofSixteenths b.time.sixteenths false 0 }
    ((b.updPkt p.id (fun _ => p)).addInflight p.gen 1).cut p wait ecc

/-- FIRST_CUT_ADMIT: the header in port `p`'s entry register is admitted at a wheel position of the port; ENTRY_WAIT is the wait that the
wheel gives it. [DESIGN CHOICE, log 121, unsafe] -/
def execFirstCutAdmit (n : BenchId) (p : Nat) (ecc : Ecc) (s : State) : Host.Outcome State Fault Refusal :=
  s.onBench n (fun b =>
    match b.pkts.find? (fun k => k.loc = .entry && k.port = p) with
    | some k => if b.faceTurn p then b.firstCut k (wheelWait b.power.portMode p k.present) ecc else b
    | none => b)

/-- A second cut (R98, R110): the packet at the head of the loop passes every stage again. -/
def Bench.secondCut (b : Bench) (k : Pkt) (ecc : Ecc) : Bench :=
  let k := { k with second := true }
  let b := { b.tick T.SECOND_CUTS with wheel := { b.wheel with last := some b.cyc } }
  (b.updPkt k.id (fun _ => k)).cut k (k.loopDue - (k.admitAt + 112)) ecc

/-- SECOND_CUT_ADMIT: the packet at the loop entry is admitted (R98). [DESIGN CHOICE, log 121, unsafe] -/
def execSecondCutAdmit (n : BenchId) (ecc : Ecc) (s : State) : Host.Outcome State Fault Refusal :=
  s.onBench n (fun b =>
    match b.loopHead with
    | some k => if b.loopTurn k then b.secondCut k ecc else b
    | none => b)

/-- The headers in the host face's entry queue. -/
def Bench.hostEntries (b : Bench) : Nat := (b.pkts.filter (fun p => p.loc = .hostEntry)).length
/-- The occupancy of the host face's entry queue (R117). -/
def Bench.countHostEntry (b : Bench) : Bench :=
  let k := b.hostEntries
  let b := b.setFld R.graph_HOST_ENTRY_OCCUPANCY k
  if b.fld R.graph_HOST_ENTRY_HWM < k then b.setFld R.graph_HOST_ENTRY_HWM k else b

/-- A host packet's header is presented, unless the entry queue holds its 8: it then waits for room (R95, R99). -/
def Bench.presentHeader (b : Bench) (p : Pkt) : Bench :=
  if p.loc = .receiving && b.hostEntries < 8 then
    (b.updPkt p.id (fun (k : Pkt) => { k with loc := .hostEntry, present := b.cyc })).countHostEntry
  else b
/-- The first host packet whose header is stored and waits for room in the entry queue. -/
def Bench.waitingHost (b : Bench) : Option Pkt :=
  b.pkts.find? (fun p => p.loc = .receiving && p.ring.isSome && (p.ended || b.haul.cmds.any (fun c => c.pid = some p.id && min 128 p.len ≤ c.wr)))

/-- The head of the host face's entry queue is admitted, and a header that waited for room takes its place. -/
def Bench.hostCut (b : Bench) (k : Pkt) (ecc : Ecc) : Bench :=
  let b := (b.firstCut k (min 7 (b.cyc - k.present)) ecc).countHostEntry
  match b.waitingHost with
  | some p => b.presentHeader p
  | none => b

/-- HOST_ENTRY_ADMIT: the head of the host face's entry queue is admitted in an odd cycle that R99 leaves it. [DESIGN CHOICE, log 121, unsafe] -/
def execHostEntryAdmit (n : BenchId) (ecc : Ecc) (s : State) : Host.Outcome State Fault Refusal :=
  s.onBench n (fun b =>
    match b.pktAt? .hostEntry with
    | some k => if b.hostTurn then b.hostCut k ecc else b
    | none => b)

end Sys2Proof.Machine
end

