-- ==== Sys2Proof/Machine/Tm.lean ====
section
/-! DEFINITION. The traffic manager's commits, scheduler, shapers and time gates (R213 to R238), and the bench's time
counter, which moves the gates (R77 to R79, R234, R574). -/
namespace Sys2Proof.Machine

/-! ## The side lane and the refresher (R213, R219) -/

/-- The head of the side entry passes the side lane (R213): mirror copies and engine packets are not metered. -/
def Bench.sideEnqueue (b : Bench) (ecc : Ecc) : Bench :=
  match b.tm.side with
  | [] => b
  | id :: t =>
    let b := { b with tm := { b.tm with side := t } }.countQueues
    match b.pkt? id with
    | some p => b.lane p none p.tm.queue ecc
    | none => b

/-- METER_REFRESH: the refresher updates its next meter; one that cannot be read is logged and skipped (R219, R244). -/
def execMeterRefresh (n : BenchId) (ecc : Ecc) (s : State) : Host.Outcome State Fault Refusal :=
  s.onBench n (fun b =>
    let m := b.tm.refresh
    let a := meterAddr m
    let b := { b with tm := { b.tm with refresh := (m + 1) % 32768 } }.correctable 4 (ecc.cor a (a + 64))
    if ecc.unc a (a + 64) then b.tmEcc 0 m else b.setBuckets m (b.refilled m))

/-! ## Meter and queue commits (R219, R220, R223) -/

/-- BAD_FIELD of a meter (R220). -/
def meterBad (e : List Byte) : Bool :=
  let w := fun i => leNat (slice e (4 * i) 4)
  getBits (w 0) 4 4 ≠ 0 || getBits (w 0) 16 16 ≠ 0 || getBits (w 3) 24 8 ≠ 0 || getBits (w 4) 24 8 ≠ 0 ||
    (e.drop 20).any (· ≠ 0#8) || w 2 < w 1 || w 4 < w 3

/-- The staged meter. -/
def Bench.meterStaged (b : Bench) : List Byte := (List.range 8).flatMap (fun w => leBytes 4 (b.reg (R.tm_MTR_STAGE w)).toNat)

/-- Write a meter's configuration (R219): a meter made valid starts full, a valid one keeps its tokens, capped. -/
def Bench.meterWrite (b : Bench) (m : Nat) (e : List Byte) : Bench :=
  let a := meterAddr m
  let was := b.mbits a 0 1 = 1
  let k := b.buckets m
  let cbs := leNat (slice e 12 4) * 2 ^ 24
  let pbs := leNat (slice e 16 4) * 2 ^ 24
  let b := b.setBytes a e
  if bit (leNat (slice e 0 4)) 0 then
    if was then b.setBuckets m { k with tc := min cbs k.tc, tp := min pbs k.tp }
    else b.setBuckets m { tc := cbs, tp := pbs, last := b.cyc % 2 ^ 32 }
  else b

/-- Commit MTR_STAGE to meter `m` (R220, R242). -/
def Bench.meterCommit (b : Bench) (m : Nat) : Bench :=
  let e := b.meterStaged
  let r := if meterBad e then 2 else 0
  let b := if r = 0 then b.meterWrite m e else b.tick T.TM_WRITE_REFUSED
  b.postStatus R.tm_MTR_COMMIT_STATUS (2 * r) 16 16

/-- MTR_COMMIT (R220). -/
def execMtrCommit (n : BenchId) (m : Nat) (s : State) : Host.Outcome State Fault Refusal :=
  s.onBench n (fun b => if m < 32768 then b.meterCommit m else b)

/-- The staged queue context. -/
def Bench.qctxStaged (b : Bench) : List Byte := (List.range 8).flatMap (fun w => leBytes 4 (b.reg (R.tm_QCTX_STAGE w)).toNat)

/-- The RESULT of a queue commit (R223): 1 BAD_WEIGHT, 2 BAD_FIELD, 3 QUEUE_BUSY. [DEDUCED, log 44, unsafe] -/
def Bench.qctxResult (b : Bench) (q : Nat) (e : List Byte) : Nat :=
  let w := fun i => leNat (slice e (4 * i) 4)
  if getBits (w 1) 0 16 = 0 then 1
  else if !b.hasPort (getBits (w 0) 1 2) || getBits (w 0) 6 26 ≠ 0 || getBits (w 1) 16 16 ≠ 0 || getBits (w 2) 25 7 ≠ 0 ||
      getBits (w 3) 25 7 ≠ 0 || getBits (w 4) 25 7 ≠ 0 || (e.drop 20).any (· ≠ 0#8) then 2
  else if (getBits (w 0) 1 2 ≠ b.qPort q || getBits (w 0) 3 3 ≠ b.qClass q) && b.qPackets q ≠ 0 then 3
  else 0

/-- Write a queue context (R223): the weight waits for the port's next decision, the rest takes effect now. A queue that
had no weight yet takes its first one at once. -/
def Bench.qctxWrite (b : Bench) (q : Nat) (e : List Byte) : Bench :=
  let w := leNat (slice e 4 4)
  let old := b.qWeight q
  if old = 0 then b.setBytes (qAddr q) e
  else
    let b := b.setBytes (qAddr q) (putAt e 4 (leBytes 4 old))
    let l := b.tm.newWeight.filter (fun x => x.1 ≠ q) ++ [(q, w)]
    { b with tm := { b.tm with newWeight := l } }

/-- Commit QCTX_STAGE to queue `q` (R223, R242). -/
def Bench.qctxCommit (b : Bench) (q : Nat) : Bench :=
  let e := b.qctxStaged
  let r := b.qctxResult q e
  let b := if r = 0 then b.qctxWrite q e
    else if r = 1 then (b.tick T.WEIGHT_REFUSED).raise 28 else b.tick T.TM_WRITE_REFUSED
  b.postStatus R.tm_QCTX_COMMIT_STATUS (2 * r) 16 16

/-- QCTX_COMMIT (R223). -/
def execQctxCommit (n : BenchId) (q : Nat) (s : State) : Host.Outcome State Fault Refusal :=
  s.onBench n (fun b => if q < 8192 then b.qctxCommit q else b)

/-- A commit with CLEAR_HWM = 1 (R223). [DEDUCED, log 44, unsafe] -/
def Bench.qctxClearHwm (b : Bench) (q : Nat) : Bench :=
  (b.setMbits (qAddr q) 320 25 (b.qOcc q)).postStatus R.tm_QCTX_COMMIT_STATUS 0 16 16
/-- QCTX_CLEAR_HWM (R223). -/
def execQctxClearHwm (n : BenchId) (q : Nat) (s : State) : Host.Outcome State Fault Refusal :=
  s.onBench n (fun b => if q < 8192 then b.qctxClearHwm q else b)

/-! ## Gate lists (R229 to R234) -/

/-- The origin and pending start of a port's lists. -/
def Bench.gate (b : Bench) (p : Nat) : GateSt :=
  sparseGet (fun _ => { origin := 0, start := 0, old := false, atOnce := false, entry := 0 }) b.tm.gates p
def Bench.setGate (b : Bench) (p : Nat) (g : GateSt) : Bench :=
  { b with tm := { b.tm with gates := sparseSet (fun _ => { origin := 0, start := 0, old := false, atOnce := false, entry := 0 }) b.tm.gates p g } }

/-- The entry that an instant `x` into a cycle falls in, and what remains of it. -/
def GateList.at_ : GateList → Nat → Nat → Nat × Nat × Nat
  | [], i, _ => (i, 255, 0)
  | (m, d) :: t, i, x => if x < d then (i, m, d - x) else GateList.at_ t (i + 1) (x - d)

/-- The entry in force at the absolute time `t` on a list with an origin: index, OPEN mask, time left. -/
def GateList.when (l : GateList) (origin t : Nat) : Nat × Nat × Nat :=
  if l.cycle = 0 then (0, 255, 0) else l.at_ 0 (((t : Int) - origin) % l.cycle).toNat

/-- Whole nanoseconds of bench time. -/
def TimeSt.nanos (t : TimeSt) : Nat := t.sec * 1000000000 + t.ns
/-- Bench time in units of 2^-32 ns. -/
def TimeSt.ticks (t : TimeSt) : Nat := t.nanos * 2 ^ 32 + t.frac
/-- When a pending list takes over; without an active list before it, a start in the past means at once (R233). -/
def Bench.gateStartAt (b : Bench) (p : Nat) : Nat := if (b.gate p).atOnce then b.time.ticks else (b.gate p).start

/-- The list that a port follows at a time (R230): the active one, or the pending one from its start on; with neither,
every gate is open. -/
def Bench.gateAt (b : Bench) (p t : Nat) : Option (GateList × Nat × Option Nat) :=
  let g := b.gate p
  let st := b.gateStartAt p
  if b.gatePending p && st ≤ t then some (b.shadowList p, st, none)
  else if b.gateOn p then some (b.activeList p, g.origin, if b.gatePending p then some st else none) else none

/-- Does the gate of class `c` stay open from time `t` up to `stop`? It looks at most `fuel` entries ahead. -/
def Bench.gateStays (b : Bench) (p c stop : Nat) : Nat → Nat → Bool
  | 0, _ => true
  | fuel + 1, t =>
    if stop ≤ t then true
    else
      match b.gateAt p t with
      | none =>
        -- every gate is open until a pending list takes over
        if b.gatePending p && t < b.gateStartAt p then b.gateStays p c stop fuel (b.gateStartAt p) else true
      | some (l, o, sw) =>
        let e := l.when o t
        if !bit e.2.1 c then false
        else
          let nxt := match sw with | some s => min (t + e.2.2) s | none => t + e.2.2
          b.gateStays p c stop fuel nxt

/-- The gate check of R230 for a frame of `len` bytes whose timestamp point is `t`. -/
def Bench.gatePasses (b : Bench) (p c len t : Nat) : Bool :=
  let stop := t + byteTimes b.power.portMode (1 + len)
  (match b.gateAt p t with | some (l, o, _) => bit (l.when o t).2.1 c | none => true) && b.gateStays p c stop 4096 t

/-- The active list places itself at the entry that the present time names (R229, R234). -/
def Bench.placeGate (b : Bench) (p : Nat) : Bench :=
  if b.gateOn p then
    let g := b.gate p
    b.setGate p { g with entry := ((b.activeList p).when g.origin b.time.ticks).1 }
  else b

/-- The pending list takes over (R232): it becomes the active list, its entry 0 begins at its start, and frames selected
before the commit that are still on their way count in GATE_OVERRUN. -/
def Bench.gateTake (b : Bench) (p : Nat) : Bench :=
  let g := b.gate p
  let k := b.fld (R.tm_GATE_SHADOW_LEN_LEN p)
  let b := b.setBytes (gateActive p) (b.bytes (gateShadow p) 0x2000)
  let b := (((b.setFld (R.tm_GATE_STATUS_ACTIVE p) 1).setFld (R.tm_GATE_STATUS_PENDING p) 0).setFld
    (R.tm_GATE_STATUS_TOOK_OVER p) 1).setFld (R.tm_GATE_STATUS_ACTIVE_LEN p) k
  let late := (b.tm.lastOut.filter (fun (x : Nat × Nat) => x.1 = p && b.pkts.any (fun j => j.id = x.2 && (j.loc = .selected p ||
    j.loc = .sending p)))).length
  let b := { b with tm := { b.tm with lastOut := b.tm.lastOut.filter (fun (x : Nat × Nat) => x.1 ≠ p) } }
  let b := b.setGate p { g with origin := b.gateStartAt p, old := false, atOnce := false }
  ((((b.placeGate p).count T.GATE_OVERRUN late).tick T.GATE_TAKEOVER).raise 29).dropOversize p

/-- GATE_TAKEOVER: the time counter has reached the pending list's start (R232, R233). -/
def execGateTakeover (n : BenchId) (p : Nat) (s : State) : Host.Outcome State Fault Refusal :=
  s.onBench n (fun b =>
    if b.hasPort p && b.gatePending p && b.gateStartAt p ≤ b.time.ticks then b.gateTake p else b)

/-- The next instant, later than `now`, at which the active list begins its entry 0 again (R233). -/
def Bench.nextCycle (b : Bench) (p now : Nat) : Nat :=
  let c := (b.activeList p).cycle
  let o := (b.gate p).origin
  if c = 0 then now else ((o : Int) + (((now : Int) - o) / c + 1) * c).toNat

/-- BAD_LIST (R232). -/
def Bench.gateBad (b : Bench) (p : Nat) : Bool :=
  let k := b.fld (R.tm_GATE_SHADOW_LEN_LEN p)
  k = 0 || b.gateLimit < k ||
    (List.range k).any (fun i => b.le (gateShadow p + 8 * i + 4) 4 = 0 || b.le (gateShadow p + 8 * i + 1) 3 ≠ 0) ||
    1000000000 ≤ getBits (b.reg (R.tm_GATE_START p 0)).toNat 0 30

/-- GATE_START_p in units of 2^-32 ns; FRAC is ignored (R232). -/
def Bench.gateStart (b : Bench) (p : Nat) : Nat :=
  2 ^ 32 * (((b.reg (R.tm_GATE_START p 1)).toNat + 2 ^ 32 * getBits (b.reg (R.tm_GATE_START p 2)).toNat 0 16) * 1000000000 +
    getBits (b.reg (R.tm_GATE_START p 0)).toNat 0 30)

/-- A write of COMMIT to GATE_CTL_p (R232, R233, R242). -/
def Bench.gateCommit (b : Bench) (p : Nat) : Bench :=
  if !b.hasPort p then b.cfgRefused
  else
    let r := if b.gatePending p then 1 else if b.gateBad p then 2 else 0
    let b := if r ≠ 0 then b.tick T.GATE_WRITE_REFUSED
      else
        let now := b.time.ticks
        let t := b.gateStart p
        let past := t ≤ now
        let start := if past && b.gateOn p then b.nextCycle p now else t
        let out := (b.pkts.filter (fun k => k.loc = .selected p || k.loc = .sending p)).map (fun k => (p, k.id))
        let b := { b with tm := { b.tm with lastOut := b.tm.lastOut.filter (fun (x : Nat × Nat) => x.1 ≠ p) ++ out } }
        let b := (b.setGate p { b.gate p with start := start, old := past && b.gateOn p, atOnce := past && !b.gateOn p }).setFld
          (R.tm_GATE_STATUS_PENDING p) 1
        if past then ((b.setFld (R.tm_GATE_STATUS_START_PAST p) 1).tick T.GATE_START_PAST).raise 29 else b
    b.postStatus (R.tm_GATE_COMMIT_STATUS p) (2 * r) 16 16

/-- GATE_COMMIT (R232). -/
def execGateCommit (n : BenchId) (p : Nat) (s : State) : Host.Outcome State Fault Refusal :=
  s.onBench n (fun b => b.gateCommit p)

/-- A write of CANCEL to GATE_CTL_p (R232). -/
def Bench.gateCancel (b : Bench) (p : Nat) : Bench :=
  if !b.hasPort p then b.cfgRefused else b.setFld (R.tm_GATE_STATUS_PENDING p) 0
/-- GATE_CANCEL (R232). -/
def execGateCancel (n : BenchId) (p : Nat) (s : State) : Host.Outcome State Fault Refusal :=
  s.onBench n (fun b => b.gateCancel p)

/-- GATE_ENTRY_ADVANCE: the interval of an entry has ended (R229). -/
def execGateEntryAdvance (n : BenchId) (p : Nat) (s : State) : Host.Outcome State Fault Refusal :=
  s.onBench n (fun b => if b.hasPort p then b.placeGate p else b)

/-- A step of the time counter moves the gates (R234). [DEDUCED, log 45, unsafe] -/
def Bench.gateStep (b : Bench) : Bench :=
  let ps := (List.range 4).filter (fun p => b.gateOn p || b.gatePending p)
  if ps.isEmpty then b
  else
    let b := (b.tick T.GATE_TIME_STEP).raise 29
    ps.foldl (fun b p =>
      let b := b.setFld (R.tm_GATE_STATUS_TIME_STEP p) 1
      let g := b.gate p
      let b := if b.gatePending p && g.old && b.time.ticks < g.start then b.setGate p { g with start := b.nextCycle p b.time.ticks } else b
      let b := b.placeGate p
      if b.gatePending p && b.gateStartAt p ≤ b.time.ticks then b.gateTake p else b) b

/-! ## The scheduler (R224 to R228, R235) -/

/-- Bytes of a host-face packet that are in its buffers: those its fetch has written, all of them without one. -/
def Bench.storedOf (b : Bench) (k : Pkt) : Nat :=
  match b.haul.cmds.find? (fun c => c.pid = some k.id) with
  | some c => c.wr
  | none => k.len

/-- Is a head packet ready (R71, R190, R224)? -/
def Bench.headReady (b : Bench) (c p : Nat) (k : Pkt) : Bool :=
  if k.verdictPending || !k.fix.isEmpty || k.spoil ≠ 0 then false
  else if k.ended then true
  else if b.power.profile = 1 || b.gated p c || k.engaged then false
  else
    match k.ring with
    | some r => min k.len (b.ringStep r * 512) ≤ b.storedOf k
    | none => true

/-- Key of a class shaper, or of the port's (class 8). -/
def shKey (p c : Nat) : Nat := 9 * p + c
/-- RATE and BURST words of a shaper's registers. -/
def Bench.shRegs (b : Bench) (p c : Nat) : Nat × Nat :=
  if c = 8 then ((b.reg (R.tm_PORT_SHAPE_RATE p)).toNat, (b.reg (R.tm_PORT_SHAPE_BURST p)).toNat)
  else ((b.reg (R.tm_CLASS_SHAPE_RATE p c)).toNat, (b.reg (R.tm_CLASS_SHAPE_BURST p c)).toNat)
/-- The tokens of a shaper now, under the RATE and BURST in force (R228). -/
def Bench.shTokens (b : Bench) (p c : Nat) : Int :=
  let k := shKey p c
  let cfg := sparseGet (fun _ => (0, 0)) b.tm.shapeCfg k
  if !bit cfg.2 31 then 0
  else min (((getBits cfg.2 0 24) * 2 ^ 24 : Nat) : Int)
    (sparseGet (fun _ => (0 : Int)) b.tm.shaper k + ((cfg.1 * (b.cyc - sparseGet noCount b.tm.shapedAt k) : Nat) : Int))
/-- Put a shaper's tokens as of now. -/
def Bench.setTokens (b : Bench) (p c : Nat) (v : Int) : Bench :=
  let k := shKey p c
  let t : TmSt := { b.tm with
    shaper := sparseSet (fun _ => (0 : Int)) b.tm.shaper k v
    shapedAt := sparseSet noCount b.tm.shapedAt k b.cyc }
  { b with tm := t }
/-- A decision brings a shaper up to now and takes its registers into force, the tokens capped at the new BURST. [DEDUCED, log 43, unsafe] -/
def Bench.refreshShaper (b : Bench) (p c : Nat) : Bench :=
  let r := b.shRegs p c
  let v := b.shTokens p c
  let v := if bit r.2 31 then min (((getBits r.2 0 24) * 2 ^ 24 : Nat) : Int) v else 0
  let b := b.setTokens p c v
  { b with tm := { b.tm with shapeCfg := sparseSet (fun _ => (0, 0)) b.tm.shapeCfg (shKey p c) r } }
/-- Does a shaper conform? -/
def Bench.conforms (b : Bench) (p c : Nat) : Bool := !bit (b.shRegs p c).2 31 || 0 ≤ b.shTokens p c
/-- A selection of `len` bytes debits a shaper. -/
def Bench.debit (b : Bench) (p c len : Nat) : Bench :=
  if bit (b.shRegs p c).2 31 then
    b.setTokens p c (b.shTokens p c - ((len : Int) + signed 8 (b.fld (R.tm_PORT_OVERHEAD_BYTES p))) * 2 ^ 24)
  else b

/-- Pending weights of a port commit at its decision (R223, R226). [DEDUCED, log 43, unsafe] -/
def Bench.commitWeights (b : Bench) (p : Nat) : Bench :=
  let mine := b.tm.newWeight.filter (fun x => b.qPort x.1 = p)
  let b := mine.foldl (fun b x => b.setMbits (qAddr x.1) 32 16 x.2) b
  let t : TmSt := { b.tm with
    newWeight := b.tm.newWeight.filter (fun x => !mine.contains x)
    classWeight := (List.range 8).foldl (fun l c =>
      sparseSet (fun _ => 1) l (8 * p + c) (b.fld (R.tm_CLASS_CFG_WEIGHT p c))) b.tm.classWeight }
  { b with tm := t }

/-- A candidate of a class: queue and packet. -/
abbrev Cand := Nat × Pkt

/-- Keep the candidate with the lesser tag; the lower queue wins a tie (R225). -/
def lesser (x : Option Cand) (y : Cand) : Option Cand :=
  match x with
  | none => some y
  | some c =>
    if tagLess y.2.tm.tag c.2.tm.tag || (y.2.tm.tag = c.2.tm.tag && y.1 < c.1) then some y else some c

/-- The packet that a class would send: among its eligible heads the one with the least tag. `lead` is the time from the
decision to the frame's timestamp point, in sixteenths of a nanosecond (R230). -/
def Bench.classHead (b : Bench) (p c lead : Nat) (queues : List Nat) : Option Cand :=
  (queues.filter (fun q => b.qClass q = c)).foldl (fun best q =>
    match b.queued q with
    | [] => best
    | k :: _ =>
      if b.headReady c p k && (!b.gated p c || b.gatePasses p c k.tm.charged (b.time.ticks + lead * 2 ^ 28)) then
        lesser best (q, k)
      else best) none

/-- F_c and V_p (R226). -/
def Bench.classTag (b : Bench) (p c len : Nat) : Nat :=
  finishTag (sparseGet noCount b.tm.ftag (32 + p)) (sparseGet noCount b.tm.ftag (8 * p + c)) len
    (sparseGet (fun _ => 1) b.tm.classWeight (8 * p + c))

/-- The class a decision chooses (R226): the highest eligible strict class, else the least class tag, the lower class on a
tie. -/
def Bench.chooseClass (b : Bench) (p : Nat) (cs : List (Nat × Cand)) : Option (Nat × Cand) :=
  match (cs.filter (fun x => b.flag (R.tm_CLASS_CFG_STRICT p x.1))).getLast? with
  | some x => some x
  | none => cs.foldl (fun best x =>
      match best with
      | none => some x
      | some y => if tagLess (b.classTag p x.1 x.2.2.tm.charged) (b.classTag p y.1 y.2.2.tm.charged) then some x else some y)
      none

/-- Hand a chosen packet to the face: tags, shapers, and the queue's counts (R225, R226, R228). -/
def Bench.select (b : Bench) (p : Nat) (x : Nat × Cand) : Bench :=
  let c := x.1
  let k := x.2.2
  let strict := b.flag (R.tm_CLASS_CFG_STRICT p c)
  let t := b.classTag p c k.tm.charged
  let f := if strict then b.tm.ftag else sparseSet noCount (sparseSet noCount b.tm.ftag (8 * p + c) t) (32 + p) t
  let b := { b with tm := { b.tm with vtag := sparseSet noCount b.tm.vtag (8 * p + c) k.tm.tag, ftag := f } }
  (((b.debit p c k.tm.charged).debit p 8 k.tm.charged).dequeue k (.selected p))

/-- One decision of port `p` (R227). A port whose last selection the face has not yet taken makes none. [DEDUCED, log 43, unsafe] -/
def Bench.decision (b : Bench) (p lead : Nat) : Bench :=
  let b := (List.range 9).foldl (fun b c => b.refreshShaper p c) (b.commitWeights p)
  let b := b.dropOversize p
  if b.flag (R.face_PORT_STATUS_PAUSED p) || !b.conforms p 8 || (b.pktAt? (.selected p)).isSome then b
  else
    let queues := b.portQueues p
    let paused := b.fld (R.face_PORT_STATUS_PFC_PAUSED p)
    let cs := (List.range 8).filterMap (fun c =>
      if bit paused c || !b.conforms p c then none else (b.classHead p c lead queues).map (fun x => (c, x)))
    match b.chooseClass p cs with
    | some x => (b.select p x).dropOversize p
    | none => b

/-- SCHED_DECISION (R227). -/
def execSchedDecision (n : BenchId) (p lead : Nat) (s : State) : Host.Outcome State Fault Refusal :=
  s.onBench n (fun b => if b.hasPort p then b.decision p lead else b)

/-! ## The time counter (R77 to R79) -/

/-- SNAP copies the counter into TIME_SNAP (R78): VALID 1, CAL 0 and PORT 0. [DESIGN CHOICE, log 116, unsafe] -/
def Bench.timeSnap (b : Bench) : Bench :=
  let w := (Stamp.ofSixteenths b.time.sixteenths false 0).words
  (List.range 3).foldl (fun b i => b.setReg (R.face_TIME_SNAP i) (BitVec.ofNat 32 (w.getD i 0))) b
/-- TIME_SNAP (R78). -/
def execTimeSnap (n : BenchId) (s : State) : Host.Outcome State Fault Refusal := s.onBench n Bench.timeSnap

/-- LOAD (R78): the counter is set from TIME_SET, and the gates move with it (R234). -/
def Bench.timeLoad (b : Bench) : Bench :=
  let w := fun i => (b.reg (R.face_TIME_SET i)).toNat
  let ns := getBits (w 0) 0 30
  if 1000000000 ≤ ns then b.cfgRefused
  else
    let t : TimeSt := { b.time with
      sec := w 1 + 2 ^ 32 * getBits (w 2) 0 16, ns := ns, frac := getBits (w 2) 16 4 * 2 ^ 28 }
    { b with time := t }.gateStep
/-- TIME_LOAD (R78). -/
def execTimeLoad (n : BenchId) (s : State) : Host.Outcome State Fault Refusal := s.onBench n Bench.timeLoad

/-- The counter at a count of whole nanoseconds; it holds 48 bits of seconds. -/
def TimeSt.put (t : TimeSt) (ns : Int) : TimeSt :=
  let x := (ns % ((2 ^ 48 * 1000000000 : Nat) : Int)).toNat
  { t with sec := x / 1000000000, ns := x % 1000000000 }

/-- ADJUST (R78): TIME_ADJ is added in one step, and the gates move with the counter (R234). -/
def Bench.timeAdjust (b : Bench) : Bench :=
  { b with time := b.time.put ((b.time.nanos : Int) + signed 32 (b.reg R.face_TIME_ADJ).toNat) }.gateStep
/-- TIME_ADJUST (R78). -/
def execTimeAdjust (n : BenchId) (s : State) : Host.Outcome State Fault Refusal := s.onBench n Bench.timeAdjust

/-- TIME_INCR_WRITE: a write of TIME_INCR_NS (`frac` false) or TIME_INCR_FRAC (R77). -/
def execTimeIncrWrite (n : BenchId) (frac : Bool) (v : Word) (s : State) : Host.Outcome State Fault Refusal :=
  s.onBench n (fun b =>
    if frac then b.setReg R.face_TIME_INCR_FRAC v
    else (b.rsvd R.face_TIME_INCR_NS v.toNat).setFld R.face_TIME_INCR_NS_NS v.toNat)

/-- One MAC cycle of the counter (R77). -/
def Bench.advanceTime (b : Bench) : Bench :=
  let f := b.time.frac + (b.reg R.face_TIME_INCR_FRAC).toNat
  let t := b.time.put ((b.time.nanos + b.fld R.face_TIME_INCR_NS_NS + f / 2 ^ 32 : Nat) : Int)
  { b with time := { t with frac := f % 2 ^ 32 } }

/-- FREQ_COUNT_DONE: 10,000,000 cycles of the 10 MHz input are over; `count` is the MAC-cycle count (R78). -/
def execFreqCountDone (n : BenchId) (count : Nat) (s : State) : Host.Outcome State Fault Refusal :=
  s.onBench n (fun b => { b with time := { b.time with freq := some (count % 2 ^ 32) } })

/-- PPS_IN_EDGE: the face captures a rising edge of the 1PPS input (R78, R574). -/
def execPpsInEdge (n : BenchId) (s : State) : Host.Outcome State Fault Refusal :=
  s.onBench n (fun b =>
    let c := Stamp.ofSixteenths b.time.sixteenths false 0
    let b := if b.time.pps.isSome then (b.tick T.PPS_IN_OVERRUN).raise 12 else b
    { b with time := { b.time with pps := some c } })

/-- How far the counter is past the last whole second plus PPS_OFFSET, in units of 2^-32 ns. -/
def Bench.ppsPhase (b : Bench) : Nat :=
  (((b.time.nanos : Int) - signed 32 (b.reg R.face_PPS_OFFSET).toNat) % 1000000000).toNat * 2 ^ 32 + b.time.frac
/-- Has the counter reached that instant in this MAC cycle: within one increment of it? -/
def Bench.ppsDue (b : Bench) : Bool :=
  b.ppsPhase < b.fld R.face_TIME_INCR_NS_NS * 2 ^ 32 + (b.reg R.face_TIME_INCR_FRAC).toNat
/-- PPS_OUT_RISE: in the cycle in which the counter reaches a whole second plus PPS_OFFSET, the output rises (R79). -/
def execPpsOutRise (n : BenchId) (s : State) : Host.Outcome State Fault Refusal :=
  s.onBench n (fun b => if b.ppsDue then { b with time := { b.time with ppsOut := true, ppsAt := b.cyc } } else b)
/-- PPS_OUT_FALL: once PPS_WIDTH microseconds of 1,250 cycles have passed since it rose, the output falls (R79). [DEDUCED, log 117, unsafe] -/
def execPpsOutFall (n : BenchId) (s : State) : Host.Outcome State Fault Refusal :=
  s.onBench n (fun b =>
    if 1250 * b.fld R.face_PPS_WIDTH_US ≤ b.cyc - b.time.ppsAt then { b with time := { b.time with ppsOut := false } } else b)

/-- A read of PPS_IN_TS word `w` (R574). -/
def Bench.ppsRead (b : Bench) (w : Nat) : List Nat × Bench :=
  let t := b.time
  if w = 0 then
    match t.pps with
    | none => ([0], b.tick T.TIME_EARLY_READ)
    | some c =>
      let x := c.words
      let t' : TimeSt := { t with pps := none, ppsHeld := [none, some (x.getD 1 0), some (x.getD 2 0)] }
      ([x.getD 0 0], { b with time := t' })
  else
    match takeHeld t.ppsHeld w with
    | (some v, l) => ([v], { b with time := { t with ppsHeld := l } })
    | (none, _) => ([0], b.tick T.TIME_EARLY_READ)
/-- PPS_IN_TS_READ (R574). -/
def execPpsInTsRead (n : BenchId) (w : Nat) (s : State) : Host.Outcome State Fault Refusal := s.onRead n (fun b => b.ppsRead w)

/-- A read of FREQ_CNT (R574). -/
def Bench.freqRead (b : Bench) : List Nat × Bench :=
  match b.time.freq with
  | some v => ([v], { b with time := { b.time with freq := none } })
  | none => ([0], b.tick T.TIME_EARLY_READ)
/-- FREQ_CNT_READ (R574). -/
def execFreqCntRead (n : BenchId) (s : State) : Host.Outcome State Fault Refusal := s.onRead n Bench.freqRead

end Sys2Proof.Machine
end

