-- ==== Sys2Proof/Machine/Dram.lean ====
section
/-! DEFINITION. The DRAM subchannel (R432 to R449): configuration, start-up, the request queue, ECC, rank sparing, and the
accesses that other units make through it. -/
namespace Sys2Proof.Machine

/-! ## Geometry (R432 to R434, R442) -/

/-- States of DRAM_STATUS (R448). -/
def dramWaitCfg : Nat := 1
def dramTraining : Nat := 2
def dramFill : Nat := 3
def dramReady : Nat := 4
def dramSelfRefresh : Nat := 5
def dramFailed : Nat := 6

/-- STATE of the subchannel. -/
def Bench.dramState (b : Bench) : Nat := b.fld R.dram_DRAM_STATUS_STATE
/-- Is the subchannel trained and able to serve: READY, or in self-refresh on idle, from which a request wakes it? -/
def Bench.dramUp (b : Bench) : Bool := b.dramState = dramReady || b.dramState = dramSelfRefresh

/-- Rank size in bytes by DENSITY and WIDTH (R433). -/
def rankSize (density width : Nat) : Nat :=
  (match density with | 0 => 16 | 1 => 24 | _ => 32) * 2 ^ 30 / (if width = 1 then 2 else 1)
/-- The rank size in force. -/
def Bench.rankBytes (b : Bench) : Nat := rankSize (b.fld R.dram_DRAM_CFG_DENSITY) (b.fld R.dram_DRAM_CFG_WIDTH)
/-- Lines per row (R433). -/
def Bench.rowLines (b : Bench) : Nat := if b.flag R.dram_DRAM_CFG_WIDTH then 64 else 128
/-- Ranks fitted and data slots (R434). -/
def Bench.ranks (b : Bench) : Nat := b.fld R.dram_DRAM_CFG_RANKS + 1
def Bench.slots (b : Bench) : Nat := b.ranks - b.fld R.dram_DRAM_CFG_SPARE_EN
/-- The installed capacity in bytes. -/
def Bench.capacity (b : Bench) : Nat := b.slots * b.rankBytes
/-- The physical rank of a data slot. -/
def Bench.rankOf (b : Bench) (s : Nat) : Nat := getBits (b.fld R.dram_RANK_MAP_PHYS) (2 * s) 2
/-- The data slot of a view offset, and the line within it. -/
def Bench.slotAt (b : Bench) (x : Nat) : Nat := x / b.rankBytes
def Bench.lineIn (b : Bench) (x : Nat) : Nat := x % b.rankBytes / 64

/-- Parity of a number's bits. -/
def parity (fuel x : Nat) : Nat :=
  match fuel with
  | 0 => 0
  | f + 1 => (x % 2 + parity f (x / 2)) % 2

/-- The bank bits that the XOR masks flip in a row (R442). -/
def bankFlip (masks : List Nat) (row : Nat) : Nat :=
  (masks.mapIdx (fun k m => parity 17 (Nat.land row m) * 2 ^ k)).sum

/-- A place in the devices: rank, row, bank, column. -/
structure DramPlace where
  rank : Nat
  row : Nat
  bank : Nat
  col : Nat
deriving DecidableEq, Repr

/-- What the mapping needs: bytes of a rank, lines of a row, PHYS_s, XOR masks. -/
structure DramMap where
  rank : Nat
  cols : Nat
  phys : Nat
  masks : List Nat
deriving DecidableEq, Repr

/-- The place of a view offset (R442). -/
def DramMap.place (m : DramMap) (x : Nat) : DramPlace :=
  let w := x % m.rank / 64
  let row := w / (m.cols * 32)
  { rank := getBits m.phys (2 * (x / m.rank)) 2, row := row, bank := Nat.xor (w / m.cols % 32) (bankFlip m.masks row)
    col := w % m.cols }

/-- The line's view offset that a place has under a mapping with `slots` data slots; none where no slot lies on it. -/
def DramMap.offset (m : DramMap) (slots : Nat) (p : DramPlace) : Option Nat :=
  ((List.range slots).find? (fun s => getBits m.phys (2 * s) 2 = p.rank)).map (fun s =>
    s * m.rank + ((p.row * 32 + Nat.xor p.bank (bankFlip m.masks p.row)) * m.cols + p.col) * 64)

/-- The configuration words that fix the mapping: DRAM_CFG, RANK_MAP and the masks. -/
def Bench.dramCfg (b : Bench) : List Nat :=
  [(b.reg R.dram_DRAM_CFG).toNat, (b.reg R.dram_RANK_MAP).toNat] ++
    (List.range 5).map (fun k => (b.reg (R.dram_XOR_MASK k)).toNat)

/-- The mapping of configuration words. -/
def mapOf (cfg : List Nat) : DramMap :=
  let c := cfg.getD 0 0
  { rank := rankSize (getBits c 3 2) (getBits c 5 1), cols := if bit c 5 then 64 else 128, phys := cfg.getD 1 0
    masks := (cfg.drop 2).map (· % 2 ^ 17) }
/-- The data slots of configuration words. -/
def slotsOfCfg (cfg : List Nat) : Nat := getBits (cfg.getD 0 0) 6 2 + 1 - getBits (cfg.getD 0 0) 8 1

/-- Bench offset at which the DRAM view starts (R36). -/
def dramBase : Nat := 0x8000000000

/-! ## The error log and rank sparing (R446 to R448) -/

/-- A DRAM_ERR_LOG record, with event 39; one that finds 16 records is counted (R448). [DEDUCED, log 51, unsafe] -/
def Bench.dramLog (b : Bench) (kind slot rank line : Nat) : Bench :=
  let seq := (b.dram.logSeq + 1) % 65536
  let w0 := 1 + 2 * kind + 16 * (slot % 4) + 64 * (rank % 4) + 65536 * seq
  let b := { b with dram := { b.dram with logSeq := seq } }
  let b := if 16 ≤ b.dram.log.length then b.tick T.DRAM_LOG_LOST
    else
      let l := b.dram.log ++ [(w0, line)]
      { b with dram := { b.dram with log := l } }
  b.raise 39

/-- Is a data slot FAILED? -/
def Bench.slotFailed (b : Bench) (s : Nat) : Bool := bit (b.fld R.dram_DRAM_STATUS_SLOT_FAILED) s
/-- Is a migration of slot `s` running? -/
def Bench.migrating (b : Bench) (s : Nat) : Bool :=
  b.flag R.dram_DRAM_STATUS_MIG_ACTIVE && b.fld R.dram_DRAM_STATUS_MIG_SLOT = s

/-- A physical rank is out of service (R446, R448). -/
def Bench.rankOut (b : Bench) (r : Nat) : Bench :=
  b.setFld R.dram_DRAM_STATUS_RANK_FAILED (putBits (b.fld R.dram_DRAM_STATUS_RANK_FAILED) r 1 1)

/-- A data slot becomes FAILED, its rank out of service (R446). [DEDUCED, log 51, unsafe] -/
def Bench.failSlot (b : Bench) (s line : Nat) : Bench :=
  let b := b.setFld R.dram_DRAM_STATUS_SLOT_FAILED (putBits (b.fld R.dram_DRAM_STATUS_SLOT_FAILED) s 1 1)
  (b.rankOut (b.rankOf s)).dramLog 6 s (b.rankOf s) line

/-- A lasting error in slot `s`, or RETIRE, takes its rank out of service by the matrix of R446. `cause` is the log's KIND. [DEDUCED, log 51, unsafe] -/
def Bench.outOfService (b : Bench) (s cause line : Nat) : Bench :=
  let b := b.dramLog cause s (b.rankOf s) line
  if b.slotFailed s then b
  else if b.migrating s then
    if cause ≠ 3 && line < b.fld R.dram_MIG_LINE_LINE then
      ((b.rankOut (b.fld R.dram_DRAM_CFG_SPARE_RANK)).failSlot s line).setFld R.dram_DRAM_STATUS_MIG_ACTIVE 0
    else b
  else if b.flag R.dram_DRAM_STATUS_MIG_ACTIVE || b.flag R.dram_DRAM_STATUS_SPARE_USED ||
      !b.flag R.dram_DRAM_CFG_SPARE_EN then b.failSlot s line
  else
    (((b.setFld R.dram_DRAM_STATUS_MIG_ACTIVE 1).setFld R.dram_DRAM_STATUS_MIG_SLOT s).setFld R.dram_MIG_LINE_LINE 0).dramLog
      4 s (b.fld R.dram_DRAM_CFG_SPARE_RANK) 0

/-- A write of RETIRE (R446, R448). -/
def Bench.dramRetire (b : Bench) (s : Nat) : Bench :=
  if b.dramState = dramReady && s < b.slots then b.outOfService s 3 0 else b.cfgRefused
/-- DRAM_RETIRE (R446). -/
def execDramRetire (n : BenchId) (slot : Nat) (s : State) : Host.Outcome State Fault Refusal :=
  s.onBench n (fun b => b.dramRetire slot)

/-! ## Lines (R443 to R445) -/

/-- Bench offset of the line that holds a view offset. -/
def lineAddr (x : Nat) : Nat := dramBase + x / 64 * 64

/-- Uncorrectable errors that reads of a line meet: one is transient, the re-read is clean; two or more are lasting. -/
def Ecc.dramBad (e : Ecc) (x : Nat) : Nat := (e.filter (fun k => lineAddr x ≤ k.1 && k.1 < lineAddr x + 64 && k.2)).length

/-- What the check bytes stored in test mode decode to with a line's data; 0 for an ordinary line (R445). [DESIGN CHOICE, log 50, safe] -/
def Bench.storedCheck (b : Bench) (l : Nat) (data : List Byte) : Nat :=
  match b.dram.checks.find? (fun c => c.1 = l) with
  | some c => (Config.dramDecode data c.2).val
  | none => 0

/-- Read the line that holds view offset `x`: none is the bus error of R443 and R446. A re-read is an issue of its own. [DESIGN CHOICE, log 50, safe] -/
def Bench.readLine (b : Bench) (x : Nat) (ecc : Ecc) : Option (List Byte) × Bench :=
  let a := lineAddr x
  let l := x / 64
  let b := (b.tick T.DRAM_READS).correctable 10 (ecc.cor a (a + 64))
  let data := b.bytes a 64
  let stored := b.storedCheck l data
  let b := if stored = 1 then b.correctable 10 1 else b
  if b.slotFailed (b.slotAt x) then (none, b)
  else if b.dram.poison.contains l || stored = 3 then (none, b.tick T.DRAM_POISON_READ)
  else if b.dram.lost.contains l || stored = 2 || 2 ≤ ecc.dramBad x then
    (none, (b.tick T.DRAM_READS).outOfService (b.slotAt x) 1 (b.lineIn x))
  else (some data, if ecc.dramBad x = 1 then (b.tick T.DRAM_READS).tick T.DRAM_REREAD_OK else b)

/-- The line becomes an ordinary line. -/
def Bench.plainLine (b : Bench) (x : Nat) : Bench :=
  let l := x / 64
  let d : DramSt := { b.dram with
    poison := b.dram.poison.filter (· ≠ l), lost := b.dram.lost.filter (· ≠ l)
    checks := b.dram.checks.filter (fun c => c.1 ≠ l) }
  { b with dram := d }

/-- A line that a migration has moved is written in the spare alone: the old rank keeps what it held, which a restart without the spare
finds again (R447). [DEDUCED, log 146, unsafe] -/
def Bench.noteMoved (b : Bench) (x : Nat) : Bench :=
  let l := x / 64
  if b.migrating (b.slotAt x) && b.lineIn x < b.fld R.dram_MIG_LINE_LINE && !b.dram.moved.any (fun m => m.1 = l) then
    { b with dram := { b.dram with moved := b.dram.moved ++ [(l, b.bytes (lineAddr x) 64)] } }
  else b

/-- Bytes of a line are committed; it is an ordinary line from then on. -/
def Bench.commitLine (b : Bench) (x : Nat) (data : List Byte) : Bench :=
  ((b.noteMoved x).plainLine x).setBytes (dramBase + x) data

/-- Write bytes that lie in one line. A partial write reads the line first; an unreadable line is left unchanged, counted and logged (R439),
once when the read has logged it. A write to a FAILED slot is dropped (R446). -/
def Bench.writeLine (b : Bench) (x : Nat) (data : List Byte) (ecc : Ecc) : Bench :=
  let b := b.tick T.DRAM_WRITES
  if b.slotFailed (b.slotAt x) then b.tick T.DRAM_WRITE_LOST
  else if data.length = 64 then b.commitLine x data
  else
    let r := b.readLine x ecc
    if r.1.isSome then r.2.commitLine x data
    else if r.2.dram.logSeq = b.dram.logSeq then
      (r.2.tick T.DRAM_RMW_ECC).dramLog 1 (b.slotAt x) (b.rankOf (b.slotAt x)) (b.lineIn x)
    else r.2.tick T.DRAM_RMW_ECC

/-- Read `n` bytes from view offset `x`, line by line: none when any line gives the bus error. -/
def Bench.dramRead (b : Bench) (ecc : Ecc) : Nat → Nat → Nat → Option (List Byte) × Bench
  | 0, _, _ => (some [], b)
  | fuel + 1, x, n =>
    if n = 0 then (some [], b)
    else
      let k := min n (64 - x % 64)
      match b.readLine x ecc with
      | (none, b) => (none, b)
      | (some d, b) =>
        match b.dramRead ecc fuel (x + k) (n - k) with
        | (none, b) => (none, b)
        | (some t, b) => (some ((d.drop (x % 64)).take k ++ t), b)

/-- Write bytes from view offset `x` on, line by line. -/
def Bench.dramWrite (b : Bench) (ecc : Ecc) : Nat → Nat → List Byte → Bench
  | 0, _, _ => b
  | fuel + 1, x, l =>
    if l.isEmpty then b
    else
      let k := 64 - x % 64
      (b.writeLine x (l.take k) ecc).dramWrite ecc fuel (x + k) (l.drop k)

/-! ## The request queue (R438, R439, R441) -/

/-- DRAM_QUEUE OCCUPANCY and HWM. -/
def Bench.countDram (b : Bench) : Bench :=
  let k := (b.dram.reqs.filter (fun r => r.queued && !r.issued)).length
  let b := b.setFld R.dram_DRAM_QUEUE_OCCUPANCY k
  if b.fld R.dram_DRAM_QUEUE_HWM < k then b.setFld R.dram_DRAM_QUEUE_HWM k else b

/-- Put the requests. -/
def Bench.setReqs (b : Bench) (l : List DramReq) : Bench := { b with dram := { b.dram with reqs := l } }

/-- The core that made a request. -/
def DramUse.core : DramUse → Option Nat
  | .load i | .store i | .ticketLoad i _ | .ticketStore i _ => some (i / 8)
  | .nobody c => some c
/-- Has the thread that made a request ended? -/
def DramUse.ended : DramUse → Bool
  | .nobody _ => true
  | _ => false

/-- Requests that wait at their cores enter the queue of 64 while it has room, in order of arrival; none passes a held store of
its core (R276). [DESIGN CHOICE, log 56, unsafe] -/
def enterQueue (cyc : Nat) : List (Option Nat) → Nat → List DramReq → List DramReq
  | _, _, [] => []
  | stuck, room, r :: t =>
    if r.held then r :: enterQueue cyc (r.use.core :: stuck) room t
    else if !r.queued && !stuck.contains r.use.core && 0 < room then
      { r with queued := true, since := cyc } :: enterQueue cyc stuck (room - 1) t
    else r :: enterQueue cyc stuck room t

/-- Fill the controller's queue from the cores. -/
def Bench.fillQueue (b : Bench) : Bench :=
  let k := (b.dram.reqs.filter (fun r => r.queued && !r.issued)).length
  (b.setReqs (enterQueue b.cyc [] (64 - k) b.dram.reqs)).countDram

/-- A device in self-refresh on idle is woken by a request (R441). [DESIGN CHOICE, log 52, safe] -/
def Bench.wakeDram (b : Bench) : Bench :=
  if b.dramState = dramSelfRefresh then b.setFld R.dram_DRAM_STATUS_STATE dramReady else b

/-- A request of a core arrives. -/
def Bench.addReq (b : Bench) (r : DramReq) : Bench := (b.wakeDram.setReqs (b.dram.reqs ++ [r])).fillQueue

/-- Is a request eligible: no older request to its line waits (R438)? -/
def eligible (older : List DramReq) (r : DramReq) : Bool :=
  r.queued && !r.issued && older.all (fun o => o.issued || o.addr / 64 ≠ r.addr / 64)

/-- The requests that may issue, each with those before and after it. -/
def eligibleAt : List DramReq → List DramReq → List (List DramReq × DramReq × List DramReq)
  | _, [] => []
  | pre, r :: t => (if eligible pre r then [(pre, r, t)] else []) ++ eligibleAt (pre ++ [r]) t

/-- The request that issues next: the oldest whose bank, refresh and data bus allow it (R438). The devices' bank times are not the spec's,
so it may be any that no older request to its line holds back. [DESIGN CHOICE, log 147, safe] -/
def Bench.nextReq (b : Bench) : Option (List DramReq × DramReq × List DramReq) :=
  match eligibleAt [] b.dram.reqs with
  | [] => none
  | [x] => some x
  | l => l[(Config.freeValue b.free).toNat % l.length]?

/-- WAIT_HWM takes a request's wait, in controller cycles: the data rate over 4 against 1.25 GHz (R37, R448). -/
def Bench.waitHwm (b : Bench) (r : DramReq) : Bench :=
  let w := min 65535 ((b.cyc - r.since) * (1200 + 100 * b.fld R.dram_DRAM_CFG_RATE) / 1250)
  if b.fld R.dram_DRAM_QUEUE_WAIT_HWM < w then b.setFld R.dram_DRAM_QUEUE_WAIT_HWM w else b

/-- Is a request posted: nothing waits for its end? -/
def DramReq.posted (r : DramReq) : Bool := match r.use with | .store _ | .nobody _ => true | _ => false

/-- A request issues: a write is committed, a read takes its line's bytes (R438, R439). -/
def Bench.issueReq (ecc : Ecc) (x : List DramReq × DramReq × List DramReq) (b : Bench) : Bench :=
  let b := b.waitHwm x.2.1
  let r := x.2.1
  if r.write then
    ((b.setReqs (x.1 ++ (if r.posted then [] else [{ r with issued := true, done := true }]) ++ x.2.2)).writeLine r.addr r.data ecc).fillQueue
  else
    (b.setReqs (x.1 ++ { r with issued := true, data := b.bytes (dramBase + r.addr) r.len } :: x.2.2)).fillQueue

/-- One request issues. -/
def Bench.issueDram (b : Bench) (ecc : Ecc) : Bench :=
  match b.nextReq with
  | none => b
  | some x => b.spent.issueReq ecc x

/-- Older requests to the lines of an access issue before it (R438). -/
def Bench.clearLines (x n : Nat) : Nat → Bench → Bench
  | 0, b => b
  | fuel + 1, b =>
    match (eligibleAt [] b.dram.reqs).find? (fun y => x / 64 ≤ y.2.1.addr / 64 && y.2.1.addr / 64 < (x + n + 63) / 64) with
    | some y => Bench.clearLines x n fuel (b.issueReq [] y)
    | none => b

/-- An access by a unit other than a core, or by the Foreman, reaches the controller: it wakes the devices, and older requests to its
lines go first. [DESIGN CHOICE, log 52, safe] -/
def Bench.wakeFor (b : Bench) (x n : Nat) : Bench := Bench.clearLines x n b.dram.reqs.length b.wakeDram

/-- A read of DRAM by a unit of the bench or by the Foreman. [DESIGN CHOICE, log 52, safe] -/
def Bench.readDram (b : Bench) (x n : Nat) (ecc : Ecc) : Option (List Byte) × Bench :=
  (b.wakeFor x n).dramRead ecc (n / 64 + 2) x n
/-- A write of DRAM by a unit of the bench or by the Foreman. [DESIGN CHOICE, log 52, safe] -/
def Bench.writeDram (b : Bench) (x : Nat) (l : List Byte) (ecc : Ecc) : Bench :=
  (b.wakeFor x l.length).dramWrite ecc (l.length / 64 + 2) x l

/-- A write in ECC test mode by the Foreman or a FULL session (R445): a whole line takes ECC_TEST_CHECK as its check bytes;
a partial write is ignored. -/
def Bench.writeDramTest (b : Bench) (x : Nat) (l : List Byte) (ecc : Ecc) : Bench :=
  if !b.flag R.dram_ECC_TEST_EN then b.writeDram x l ecc
  else if l.length ≠ 64 || x % 64 ≠ 0 then b.cfgRefused
  else
    let chk := (List.range 4).flatMap (fun w => leBytes 4 (b.reg (R.dram_ECC_TEST_CHECK w)).toNat)
    let b := (b.writeDram x l ecc).setFld R.dram_ECC_TEST_EN 0
    if b.slotFailed (b.slotAt x) then b else { b with dram := { b.dram with checks := b.dram.checks ++ [(x / 64, chk)] } }

/-! ## Configuration and start (R435 to R437) -/

/-- Is GO refused (R435)? -/
def Bench.dramGoBad (b : Bench) : Bool :=
  let k := b.slots
  let phys := (List.range k).map b.rankOf
  let spare := b.flag R.dram_DRAM_CFG_SPARE_EN
  4 < b.fld R.dram_DRAM_CFG_RATE || b.fld R.dram_DRAM_CFG_DENSITY = 3 || !phys.Nodup ||
    (spare && (phys.contains (b.fld R.dram_DRAM_CFG_SPARE_RANK) || b.ranks = 1)) || phys.any (fun r => b.ranks ≤ r)

/-- tRCD and CL by RATE in controller cycles (R432). -/
def dramTiming (rate : Nat) : Nat := match rate with | 0 => 20 | 1 => 21 | 2 => 23 | 3 => 24 | _ => 26

/-- Move kept contents to where a changed mapping reads them (R436): the devices kept them at their places. [DEDUCED, log 53, unsafe] -/
def Bench.rekey (b : Bench) (old new : List Nat) : Bench :=
  if old = new || old.isEmpty then b
  else
    let m := mapOf old
    let m' := mapOf new
    let move := fun (x : Nat) => (m'.offset (slotsOfCfg new) (m.place x)).map (· + x % 64)
    let line := fun (l : Nat) => (move (64 * l)).map (· / 64)
    let mem := b.mem.foldl (fun t (c : Host.Cell) =>
      if c.1 < dramBase then memSet t c.1 c.2
      else match move (c.1 - dramBase) with | some y => memSet t (dramBase + y) c.2 | none => t) []
    let d : DramSt := { b.dram with
      poison := b.dram.poison.filterMap line, lost := b.dram.lost.filterMap line
      checks := b.dram.checks.filterMap (fun c => (line c.1).map (fun l => (l, c.2))) }
    { b with mem := mem, dram := d }

/-- A write of GO (R435, R436). SR_EXIT is a value the spec leaves open. [DESIGN CHOICE, log 52, safe] -/
def Bench.dramGo (b : Bench) : Bench :=
  if b.dramState ≠ dramWaitCfg || b.dramGoBad then b.cfgRefused
  else
    let t := dramTiming (b.fld R.dram_DRAM_CFG_RATE)
    let v := b.takeFree
    let b := v.2
    let b := ((b.setFld R.dram_DRAM_LAT_READ_LAT (2 * t + 10)).setFld R.dram_DRAM_LAT_WRITE_LAT (2 * t + 5)).setFld
      R.dram_DRAM_LAT_SR_EXIT v.1.toNat
    let cfg := b.dramCfg
    let b := if b.dram.retained then b.rekey b.dram.kept cfg else b
    { b with dram := { b.dram with kept := cfg } }.setFld R.dram_DRAM_STATUS_STATE dramTraining
/-- DRAM_GO (R435). -/
def execDramGo (n : BenchId) (s : State) : Host.Outcome State Fault Refusal := s.onAwake n Bench.dramGo

/-- The subchannel enters READY. -/
def Bench.dramEnter (b : Bench) : Bench :=
  { b with dram := { b.dram with retained := false } }.setFld R.dram_DRAM_STATUS_STATE dramReady

/-- DRAM_TRAIN_DONE (R436, R437): READY, FILL, or FAILED with TRAIN_FAIL, a log record and event 39. -/
def execDramTrainDone (n : BenchId) (ok : Bool) (s : State) : Host.Outcome State Fault Refusal :=
  s.onAwake n (fun b =>
    if b.dramState ≠ dramTraining then b
    else if !ok then
      ((b.setFld R.dram_DRAM_STATUS_STATE dramFailed).setFld R.dram_DRAM_STATUS_TRAIN_FAIL 1).dramLog 7 0 0 0
    else if !b.dram.retained && b.flag R.dram_DRAM_CFG_FILL then b.setFld R.dram_DRAM_STATUS_STATE dramFill
    else b.dramEnter)

/-- DRAM_FILL_DONE: every line holds zeros with correct check bytes (R437). -/
def execDramFillDone (n : BenchId) (s : State) : Host.Outcome State Fault Refusal :=
  s.onAwake n (fun b =>
    if b.dramState = dramFill then
      let d : DramSt := { b.dram with poison := [], lost := [], checks := [] }
      { b with mem := b.mem.filter (fun c => c.1 < dramBase), dram := d }.dramEnter
    else b)

/-! ## What ends requests, refresh, sparing -/

/-- The oldest read that has issued and not returned. -/
def splitReturning : List DramReq → List DramReq → Option (List DramReq × DramReq × List DramReq)
  | _, [] => none
  | pre, r :: t => if r.issued && !r.done then some (pre, r, t) else splitReturning (pre ++ [r]) t

/-- DRAM_READ_COMPLETE: READ_LAT after its issue a line returns, corrected, re-read, or as the bus error (R443). -/
def execDramReadComplete (n : BenchId) (ecc : Ecc) (s : State) : Host.Outcome State Fault Refusal :=
  s.onBench n (fun b =>
    match splitReturning [] b.dram.reqs with
    | none => b
    | some (pre, r, post) =>
      let q := b.readLine r.addr ecc
      let r' : DramReq := { r with done := true, bad := q.1.isNone, reread := ecc.dramBad r.addr ≠ 0 }
      q.2.setReqs (pre ++ (if r.use.ended then [] else [r']) ++ post))

/-- DRAM_REFRESH: a same-bank refresh of the next bank index; `hot` is what MR4 reports (R440). -/
def execDramRefresh (n : BenchId) (hot : Bool) (s : State) : Host.Outcome State Fault Refusal :=
  s.onAwake n (fun b =>
    if b.dramState = dramReady || b.dramState = dramFill then
      let b := { b with dram := { b.dram with refresh := (b.dram.refresh + 1) % 4 } }
      (b.tick T.DRAM_REFRESH).setFld R.dram_DRAM_STATUS_HOT (if hot then 1 else 0)
    else b)

/-- DRAM_SR_ENTRY: the queue has been empty for SR_IDLE microseconds (R441). -/
def execDramSrEntry (n : BenchId) (s : State) : Host.Outcome State Fault Refusal :=
  s.onBench n (fun b =>
    if b.dramState = dramReady && b.fld R.dram_SR_IDLE_US ≠ 0 && b.dram.reqs.isEmpty then
      (b.setFld R.dram_DRAM_STATUS_STATE dramSelfRefresh).tick T.DRAM_SR_ENTRIES
    else b)

/-- DRAM_ALERT: a device flagged the write at view offset `x`; the retry succeeds, or is flagged again and is lasting, when
the line's data is lost (R444). -/
def execDramAlert (n : BenchId) (x : Nat) (again : Bool) (s : State) : Host.Outcome State Fault Refusal :=
  s.onBench n (fun b =>
    if b.dramUp && x < b.capacity then
      if again then
        let l := x / 64 :: b.dram.lost
        { b with dram := { b.dram with lost := l } }.outOfService (b.slotAt x) 2 (b.lineIn x)
      else b.tick T.DRAM_ALERT_OK
    else b)

/-- DRAM_MIG_STEP: one line moves to the spare; the last move remaps the slot (R447). -/
def execDramMigStep (n : BenchId) (ecc : Ecc) (s : State) : Host.Outcome State Fault Refusal :=
  s.onBench n (fun b =>
    if b.flag R.dram_DRAM_STATUS_MIG_ACTIVE then
      let sl := b.fld R.dram_DRAM_STATUS_MIG_SLOT
      let w := b.fld R.dram_MIG_LINE_LINE
      let x := sl * b.rankBytes + 64 * w
      let l := x / 64
      let r := b.readLine x ecc
      let b := match r.1 with
        | some _ => r.2.plainLine x
        | none =>
          let p := if r.2.dram.poison.contains l then r.2.dram.poison else r.2.dram.poison ++ [l]
          { r.2.plainLine x with dram := { (r.2.plainLine x).dram with poison := p } }.tick T.DRAM_MIG_POISONED
      let b := (b.tick T.DRAM_WRITES).setFld R.dram_MIG_LINE_LINE (w + 1)
      if w + 1 < b.rankBytes / 64 then b
      else
        let old := b.rankOf sl
        let spare := b.fld R.dram_DRAM_CFG_SPARE_RANK
        let b := b.setFld R.dram_RANK_MAP_PHYS (putBits (b.fld R.dram_RANK_MAP_PHYS) (2 * sl) 2 spare)
        let b := (b.setFld R.dram_DRAM_STATUS_SPARE_USED 1).setFld R.dram_DRAM_STATUS_RANK_FAILED
          (putBits (b.fld R.dram_DRAM_STATUS_RANK_FAILED) old 1 1)
        let d : DramSt := { b.dram with kept := b.dramCfg, moved := [] }
        ({ b with dram := d }.setFld R.dram_DRAM_STATUS_MIG_ACTIVE 0).dramLog 5 sl spare 0
    else b)

/-! ## The hopper's enable, which asks for the DRAM (R247) -/

/-- HOPPER_ENABLE: a write of HOPPER_CTL with ENABLE = 1 and the other fields of `v`. -/
def execHopperEnable (n : BenchId) (v : Word) (s : State) : Host.Outcome State Fault Refusal :=
  s.onBench n (fun b =>
    (b.rsvd R.hopper_HOPPER_CTL v.toNat).hopperCtl b.dramUp b.capacity (BitVec.ofNat 32 (putBits v.toNat 0 1 1)))

end Sys2Proof.Machine
end

