-- ==== Sys2Proof/Machine/Threads.lean ====
section
/-! DEFINITION. Threads, channels, wedges, notices, the stall watch and debug stops (R288, R289, R296 to R322). -/
namespace Sys2Proof.Machine

/-! ## Threads -/

/-- A thread that is FREE. -/
def Thread.free : Thread :=
  { st := 0, dbg := false, step := false, stepped := false, next := 0, pc := 0, regs := [], wait := .none, since := 0, parent := none, halted := 0
    termed := 0, tickets := [], staged := [], stagedCh := 0, reading := [], destReg := 0, destReg2 := 0 }

/-- Thread `i` = 8 core + thread. -/
def Bench.thr (b : Bench) (i : Nat) : Thread := sparseGet (fun _ => Thread.free) b.eng.threads i
/-- Put a thread. -/
def Bench.setThr (b : Bench) (i : Nat) (t : Thread) : Bench :=
  { b with eng := { b.eng with threads := sparseSet (fun _ => Thread.free) b.eng.threads i t } }
/-- Change a thread. -/
def Bench.updThr (b : Bench) (i : Nat) (f : Thread → Thread) : Bench := b.setThr i (f (b.thr i))

/-- A general register: g0 reads 0 (R272). -/
def Thread.greg (t : Thread) (r : Nat) : DWord := if r = 0 then 0 else sparseGet (fun _ => (0 : DWord)) t.regs r
/-- Write a general register: a write to g0 is discarded (R272). -/
def Thread.setG (t : Thread) (r : Nat) (v : DWord) : Thread :=
  if r = 0 then t else { t with regs := sparseSet (fun _ => (0 : DWord)) t.regs r v }

/-- The engine cycle count (R269): 1.5 GHz against the pipeline's 1.25 GHz. -/
def Bench.engCycle (b : Bench) : Nat := b.cyc * 6 / 5

/-- CORE_STATUS STATE: 0 STOPPED, 1 RUNNING, 2 STOPPING. -/
def Bench.coreState (b : Bench) (c : Nat) : Nat := b.fld (R.engine_CORE_STATUS_STATE c)

/-- The greatest word index (R272). -/
def pcMax : Nat := 0x1FFFF

/-- The slot in which thread `i` may next issue: its first at or after the present engine cycle that its last instruction leaves
it (R269, R270). [DEDUCED, log 133, unsafe] -/
def Bench.slotOf (b : Bench) (i : Nat) : Nat :=
  let m := max b.engCycle (b.thr i).next
  m + (i % 8 + 8 - m % 8) % 8

/-- Thread `i` issues in its slot: the slot is used, and a STEP is taken up (R270, R318). [DEDUCED, log 133, unsafe] -/
def Bench.takeSlot (b : Bench) (i : Nat) : Bench :=
  let e := b.slotOf i
  let b := b.updThr i (fun t => { t with next := e + 8, stepped := t.stepped || t.step, step := false })
  { b with eng := { b.eng with used := b.eng.used ++ [(i, e)] } }
/-- The instruction of thread `i` costs `k` slots more than the one in which it issued (R271, R273). -/
def Bench.cost (b : Bench) (i k : Nat) : Bench := b.updThr i (fun t => { t with next := t.next + 8 * k })

/-- An instruction of thread `i` is complete: its results are written, the PC advances; a stepped thread stops again. -/
def Bench.complete (b : Bench) (i : Nat) (ws : List (Nat × DWord)) (pc : Nat) : Bench :=
  let t := b.thr i
  let t := ws.foldl (fun (t : Thread) w => t.setG w.1 w.2) t
  let b := b.setThr i { t with pc := pc, wait := .none, dbg := t.dbg || t.stepped, stepped := false }
  { b with eng := { b.eng with blocked := b.eng.blocked.filter (· ≠ i) } }

/-- A blocked thread's instruction ends with results; the thread issues next in its first slot after the present cycle (R270). -/
def Bench.unblock (b : Bench) (i : Nat) (ws : List (Nat × DWord)) : Bench :=
  (b.updThr i (fun t => { t with next := max t.next (b.engCycle + 1) })).complete i ws ((b.thr i).pc + 1)

/-- Thread `i` blocks. -/
def Bench.block (b : Bench) (i : Nat) (w : Wait) (rd rd2 : Nat) : Bench :=
  let b := b.updThr i (fun t => { t with wait := w, since := b.engCycle, destReg := rd, destReg2 := rd2 })
  { b with eng := { b.eng with blocked := b.eng.blocked ++ [i] } }

/-! ## The notice port (R310 to R312) -/

/-- Word 0 of a notice: CODE, HW, THREAD, CORE, PC. -/
def noticeWord (code : Nat) (hw : Bool) (i pc : Nat) : DWord :=
  BitVec.ofNat 64 (code % 256 + (if hw then 256 else 0) + 512 * (i % 8) + 4096 * (i / 8) + 65536 * pc)

/-- Keep a channel's high-water mark at `w`. -/
def Bench.chMark (b : Bench) (k w : Nat) : Bench :=
  if b.fld (R.engine_CHAN_STATUS_HWM k) < w then b.setFld (R.engine_CHAN_STATUS_HWM k) w else b
/-- Messages of a channel that threads have begun to read. -/
def Bench.begun (b : Bench) (k : Nat) : Nat := (b.eng.threads.flatMap (fun t => t.2.reading.filter (fun r => r.1 = k))).length

/-- One pending notice enters the port: STALL first, then DOORBELL, then faults in ascending order, then the blocked NOTICE
instructions in their order. A notice that finds one of its slot still pending waits behind it (R312: none is lost). [DEDUCED, log 59, unsafe; DEDUCED, log 134, safe] -/
def Bench.noticeStep (b : Bench) : Bench :=
  let put := fun (b : Bench) (x : DWord × DWord) =>
    let q := b.eng.notices ++ [x]
    let b := ({ b with eng := { b.eng with notices := q } }).chMark 3 (q.length + b.begun 3)
    if b.fld R.engine_NOTICE_STATUS_HWM < q.length then b.setFld R.engine_NOTICE_STATUS_HWM q.length else b
  if 64 ≤ b.eng.notices.length then b
  else
    match b.eng.stallSlot with
    | v :: t => put { b with eng := { b.eng with stallSlot := t } } (noticeWord 0x20 true 0 0, v)
    | [] =>
      if b.eng.doorSlot ≠ 0 then
        put { b with eng := { b.eng with doorSlot := 0 } } (noticeWord 0x22 true 0 0, BitVec.ofNat 64 b.eng.doorSlot)
      else
        match b.eng.faultSlots with
        | (i, x :: l) :: t => put { b with eng := { b.eng with faultSlots := if l.isEmpty then t else (i, l) :: t } } x
        | (_, []) :: t => { b with eng := { b.eng with faultSlots := t } }
        | [] =>
          match b.eng.blocked.findSome? (fun i => match (b.thr i).wait with | .notice x y => some (i, x, y) | _ => none) with
          | some (i, x, y) => put (b.unblock i [((b.thr i).destReg, 0)]) (x, y)
          | none => b

/-- The stall watch's count returns to 0, and with it STALLED (R313). -/
def Bench.stallZero (b : Bench) : Bench := (b.setFld R.engine_STALL_STATUS_STALLED 0).setFld R.engine_STALL_STATUS_COUNT 0

/-- A fault (R286): the instruction has no effect, the thread stops with its PC on it, and its notice waits for the port. [DEDUCED, log 134, safe] -/
def Bench.faultThread (b : Bench) (i code value : Nat) : Bench :=
  let t := b.thr i
  let b := b.setThr i { t with st := 2, wait := .none, dbg := t.dbg || t.stepped, stepped := false }
  let x := (noticeWord code true i t.pc, BitVec.ofNat 64 value)
  let slots := sparseSet (fun _ => []) b.eng.faultSlots i (sparseGet (fun _ => []) b.eng.faultSlots i ++ [x])
  let e : EngineSt := { b.eng with blocked := b.eng.blocked.filter (· ≠ i), faultSlots := slots }
  let b := ({ b with eng := e }.tick (T.FAULT code)).stallZero
  if i = 0 then b.raise 36 else b

/-- The fault codes of R286. -/
def fIllegal : Nat := 1
def fOperand : Nat := 2
def fLocal : Nat := 3
def fAlign : Nat := 4
def fAddr : Nat := 5
def fIsolation : Nat := 6
def fClass : Nat := 7
def fWrite : Nat := 8
def fEcc : Nat := 9
def fMailbox : Nat := 10
def fTicket : Nat := 11
def fPc : Nat := 12
def fImem : Nat := 13
def fTrap : Nat := 14

/-! ## Channels (R300 to R306) -/

/-- DEPTH of a software channel in words. -/
def Bench.chDepth (b : Bench) (k : Nat) : Nat := b.fld (R.engine_CHAN_CFG_DEPTH (k - 16)) * 8
/-- BASE of a software channel in words. -/
def Bench.chBase (b : Bench) (k : Nat) : Nat := b.fld (R.engine_CHAN_CFG_BASE (k - 16)) * 8
/-- The committed messages of a channel that no reader has begun. -/
def Bench.chMsgs (b : Bench) (k : Nat) : List (List DWord) := sparseGet (fun _ => []) b.eng.chans k
/-- Put the messages of a channel. -/
def Bench.setChMsgs (b : Bench) (k : Nat) (l : List (List DWord)) : Bench :=
  { b with eng := { b.eng with chans := sparseSet (fun _ => []) b.eng.chans k l } }

/-- Unread words of messages that readers have begun on a channel. -/
def Bench.unread (b : Bench) (k : Nat) : Nat :=
  ((b.eng.threads.flatMap (fun t => t.2.reading.filter (fun r => r.1 = k))).map (fun r => r.2.1.length)).sum

/-- CHAN_STATUS WORDS: committed words, or messages of a hardware channel (R321). -/
def Bench.chWords (b : Bench) (k : Nat) : Nat :=
  match k with
  | 0 => b.eng.inboxMsgs.length + b.begun 0
  | 1 => (b.mt.learnq.takeWhile (fun r => r.pkt.isNone)).length + b.begun 1
  | 2 => (b.tm.side.filter (fun p => (b.pkt? p).any (·.engine))).length
  | 3 => b.eng.notices.length + b.begun 3
  | 4 => (b.chMsgs 4).length + b.begun 4
  | 5 => (b.chMsgs 5).length + b.begun 5
  | _ => ((b.chMsgs k).map List.length).sum + b.unread k

/-- Keep a channel's high-water mark. -/
def Bench.chHwm (b : Bench) (k : Nat) : Bench := b.chMark k (b.chWords k)

/-- May thread `i` read channel `k` (R300)? -/
def Bench.mayRead (b : Bench) (i k : Nat) : Bool :=
  match k with
  | 0 | 1 | 4 | 5 => true
  | 2 => false
  | 3 => i = 0
  | _ => 16 ≤ k && k < 256 && 0 < b.chDepth k
/-- May a thread write channel `k` (R300)? -/
def Bench.mayWrite (b : Bench) (k : Nat) : Bool := k = 2 || (16 ≤ k && k < 256 && 0 < b.chDepth k)

/-- Bytes as channel words, byte 0 in bits 7 to 0. -/
def packWords (l : List Byte) (n : Nat) : List DWord := (List.range n).map (fun w => BitVec.ofNat 64 (leNat (slice l (8 * w) 8)))

/-- Take the next message of a channel for thread `i`: its words and its inbox entry. -/
def Bench.takeMsg (b : Bench) (i k : Nat) : Option (List DWord × Option Nat × Bench) :=
  match k with
  | 0 =>
    match b.eng.inboxMsgs.find? (fun m => m.1 = i / 8) with
    | some m => some (m.2.2, some m.2.1, { b with eng := { b.eng with inboxMsgs := b.eng.inboxMsgs.filter (· ≠ m) } })
    | none => none
  | 1 => if b.flag R.match_LEARN_CTL_DEST then none else b.takeLearn.map (fun r => (packWords r.1.bytes 10, none, r.2))
  | 3 =>
    match b.eng.notices with
    | (x, y) :: t => some ([x, y], none, { b with eng := { b.eng with notices := t } })
    | [] => none
  | _ =>
    match b.chMsgs k with
    | m :: t => some (m, none, b.setChMsgs k t)
    | [] => none

/-- An inbox entry frees its place: the packet is the engines' (R167, R304). -/
def Bench.freeInbox (b : Bench) (id : Option Nat) : Bench :=
  match id with
  | some p => { b with pkts := b.pkts.filter (fun k => k.id ≠ p) }
  | none => b

/-- The next word of channel `k` for thread `i`, with its end mark (R302). -/
def Bench.nextWord (b : Bench) (i k : Nat) : Option (DWord × Bool × Bench) :=
  let t := b.thr i
  match t.reading.find? (fun r => r.1 = k) with
  | some (_, w :: rest, id) =>
    let other := t.reading.filter (fun r => r.1 ≠ k)
    if rest.isEmpty then some (w, true, (b.setThr i { t with reading := other }).freeInbox id)
    else some (w, false, b.setThr i { t with reading := (k, rest, id) :: other })
  | _ =>
    match b.takeMsg i k with
    | some (w :: rest, id, b) =>
      if rest.isEmpty then some (w, true, b.freeInbox id)
      else some (w, false, b.setThr i { b.thr i with reading := (k, rest, id) :: (b.thr i).reading })
    | _ => none

/-- A CHRD completes when a word is there: RD takes it and RA's register the end mark. -/
def Bench.tryRead (b : Bench) (i k rd ra : Nat) : Option Bench :=
  (b.nextWord i k).map (fun r => r.2.2.unblock i [(rd, r.1), (ra, if r.2.1 then 1 else 0)])

/-! ## TM_SEND (R306) -/

/-- Fields of a TM_SEND message. -/
def tsHandle (m : List DWord) : Nat := getBits (m.getD 0 0).toNat 0 32
def tsLen (m : List DWord) : Nat := getBits (m.getD 0 0).toNat 32 14
def tsQueue (m : List DWord) : Nat := getBits (m.getD 0 0).toNat 46 13
def tsStart (m : List DWord) : Nat := getBits (m.getD 1 0).toNat 33 10

/-- How many chain bytes a chain has. -/
def Bench.chainSize (b : Bench) (h : Nat) : Nat :=
  let s := b.bodySize h
  if s = 0 then poolSize (hPool h) else 232 + s

/-- The checks of a TM_SEND message. [DEDUCED, log 57, unsafe] -/
def Bench.tmSendOk (b : Bench) (i : Nat) (m : List DWord) : Bool :=
  let h := tsHandle m
  let a := recordAddr (hPool h) (hOff h)
  m.length = 2 && b.checkHandle h = 0 && b.recState a = 1 && b.recOwner a = 0x10 + i / 8 &&
    14 ≤ tsLen m && tsLen m ≤ 9724 && tsStart m + tsLen m + 24 ≤ b.chainSize h &&
    getBits (m.getD 0 0).toNat 59 5 = 0 && getBits (m.getD 1 0).toNat 43 5 = 0

/-- A checked TM_SEND message gives its chain to the packet path and enters the side entry. -/
def Bench.tmSend (b : Bench) (i : Nat) (m : List DWord) : Bench :=
  let h := tsHandle m
  let w1 := (m.getD 1 0).toNat
  let b := (b.hopOp opGive (0x10 + i / 8) h 1 0 []).2
  let p := Pkt.fresh b.nextPid .side 0 h (tsStart m) (tsLen m)
  let p : Pkt := { p with
    engine := true, ended := true, mark := w1 % 2 ^ 32
    tm := { p.tm with queue := tsQueue m }, tx := { p.tx with capture := bit w1 32, tag := getBits w1 48 16 } }
  (b.addPkt p).toSide p

/-- Is there room for the message that thread `i` has ready for channel `k`? -/
def Bench.roomFor (b : Bench) (k n : Nat) : Bool :=
  if k = 2 then b.tm.side.length < 64 else b.chWords k + n ≤ b.chDepth k

/-- Commit the staged message of thread `i`. -/
def Bench.commitMsg (b : Bench) (i k : Nat) : Bench :=
  let t := b.thr i
  let b := b.setThr i { t with staged := [] }
  (if k = 2 then b.tmSend i t.staged else b.setChMsgs k (b.chMsgs k ++ [t.staged])).chHwm k

/-! ## Wedges (R307 to R309) -/

/-- A wedge's holder and waiters. -/
def Bench.wedge (b : Bench) (w : Nat) : Option Wedge := sparseGet (fun _ => none) b.eng.wedges w
/-- Put a wedge. -/
def Bench.setWedge (b : Bench) (w : Nat) (x : Option Wedge) : Bench :=
  { b with eng := { b.eng with wedges := sparseSet (fun _ => none) b.eng.wedges w x } }

/-- Release a wedge: its oldest waiter gets it, with the engine cycles it waited. -/
def Bench.release (b : Bench) (w : Nat) : Bench :=
  match b.wedge w with
  | none => b
  | some x =>
    match x.waiters with
    | [] => b.setWedge w none
    | (i, since) :: t =>
      let b := b.setWedge w (some { holder := i, waiters := t })
      b.unblock i [((b.thr i).destReg, BitVec.ofNat 64 (min 0xFFFFFFFF (b.engCycle - since)))]

/-- A thread's wait on a wedge is withdrawn. -/
def Bench.leaveWedge (b : Bench) (i w : Nat) : Bench :=
  match b.wedge w with
  | some x => b.setWedge w (some { x with waiters := x.waiters.filter (fun y => y.1 ≠ i) })
  | none => b

/-! ## Children (R297 to R299) -/

/-- Is thread `8 (i/8) + u` a child of `i` that is ACTIVE or FAULTED? -/
def Bench.liveChild (b : Bench) (i u : Nat) : Bool :=
  let c := b.thr (i / 8 * 8 + u)
  c.parent = some i && c.st ≠ 0

/-- A JOIN completes when no named child is left. -/
def Bench.tryJoin (b : Bench) (i mask rd : Nat) : Option Bench :=
  if (List.range 8).any (fun u => bit mask u && b.liveChild i u) then none
  else
    let t := b.thr i
    let v := Nat.land t.halted mask + 256 * Nat.land t.termed mask
    let keep := fun x => Nat.land x (255 - mask)
    some ((b.setThr i { t with halted := keep t.halted, termed := keep t.termed }).unblock i [(rd, BitVec.ofNat 64 v)])

/-! ## Tickets (R277) -/

/-- A ticket of a thread. -/
def Thread.ticket? (t : Thread) (k : Nat) : Option Ticket := (t.tickets.find? (fun x => x.1 = k)).map (·.2)
/-- The lowest free ticket. -/
def Thread.freeTicket (t : Thread) : Option Nat := (List.range 8).find? (fun k => (t.ticket? k).isNone)
/-- Put a ticket. -/
def Thread.putTicket (t : Thread) (k : Nat) (x : Ticket) : Thread :=
  { t with tickets := t.tickets.filter (fun y => y.1 ≠ k) ++ [(k, x)] }

/-- A ticket completes with a status and a count. -/
def Bench.endTicket (b : Bench) (i k status count : Nat) (ecc : Bool) : Bench :=
  b.updThr i (fun t => match t.ticket? k with
    | some x => t.putTicket k { x with done := some (status, count), ecc := ecc }
    | none => t)

/-- A WAITC completes when its ticket has: the ticket is freed, and an unreadable LDDL faults with ECC. -/
def Bench.tryWaitc (b : Bench) (i k rd : Nat) : Option Bench :=
  let t := b.thr i
  match (t.ticket? k).bind (fun x => x.done.map (fun d => (x, d))) with
  | none => none
  | some (x, d) =>
    let b := b.setThr i { t with tickets := t.tickets.filter (fun y => y.1 ≠ k) }
    some (if x.ecc then b.faultThread i fEcc x.addr
          else b.unblock i [(rd, BitVec.ofNat 64 (d.1 % 256 + 2 ^ 32 * d.2))])

/-! ## Blocked threads go on (R270) -/

/-- A blocked thread's wait, tried once. -/
def Bench.serve (b : Bench) (i : Nat) : Bench :=
  let t := b.thr i
  match t.wait with
  | .chrd k => (b.tryRead i k t.destReg t.destReg2).getD b
  | .chwr k =>
    if b.roomFor k t.staged.length then
      if k = 2 && !b.tmSendOk i t.staged then
        (b.updThr i (fun t => { t with staged := t.staged.dropLast })).faultThread i fOperand (tsHandle t.staged)
      else (b.commitMsg i k).unblock i []
    else b
  | .join m => (b.tryJoin i m t.destReg).getD b
  | .waitc k => (b.tryWaitc i k t.destReg).getD b
  | _ => b

/-- Blocked writers of one channel commit in the order in which they blocked: one is held back by an earlier one that still waits
(R301). -/
def Bench.serveAll (b : Bench) : Bench :=
  b.eng.blocked.foldl (fun b i =>
    match (b.thr i).wait with
    | .chwr k =>
      if (b.eng.blocked.takeWhile (· ≠ i)).any (fun j => (b.thr j).wait = .chwr k) then b else b.serve i
    | _ => b.serve i) b

/-- Every ACTIVE thread but the supervisor is stalled, at least one is, and none is stopped by a debugger (R313). -/
def Bench.isStalled (b : Bench) (i : Nat) : Bool :=
  let t := b.thr i
  t.st = 1 && !t.dbg && i ≠ 0 &&
    (match t.wait with
      | .chrd k | .chwr k => 16 ≤ k
      | .wacq _ | .join _ => true
      | _ => false)
/-- The condition of R313. -/
def Bench.stallCond (b : Bench) : Bool :=
  let act := (List.range 64).filter (fun i => (b.thr i).st = 1 && i ≠ 0)
  !act.isEmpty && act.all b.isStalled && (List.range 64).all (fun i => !(b.thr i).dbg)

/-- STALLED and COUNT fall when the condition fails. -/
def Bench.judgeStall (b : Bench) : Bench :=
  if b.eng.threads.isEmpty then b
  else if b.stallCond then b
  else b.stallZero

/-- Whatever can go on does: notices enter the port, blocked threads complete. -/
def Bench.pumpFuel : Nat → Bench → Bench
  | 0, b => b
  | fuel + 1, b => if b.eng.blocked.isEmpty && b.eng.faultSlots.isEmpty && b.eng.stallSlot.isEmpty && b.eng.doorSlot = 0
      then b else Bench.pumpFuel fuel (b.noticeStep.serveAll)
/-- The engine cluster after a change: 130 rounds let every thread and every pending notice move. -/
def Bench.pump (b : Bench) : Bench := (Bench.pumpFuel 130 b).judgeStall

/-! ## The end of a thread (R296, R298) -/

/-- The results of a thread's operations will be discarded: those that hold a ticket, its table operation that the queue has
accepted, its load. A store that waits for its core's write queue, and an HSUB or a TOP that no queue has accepted, are abandoned. [DEDUCED, log 58, unsafe] -/
def Bench.orphan (b : Bench) (i : Nat) : Bench :=
  let mine : DramUse → Bool := fun u => match u with
    | .load t | .ticketLoad t _ | .ticketStore t _ => t = i
    | _ => false
  let ops := b.mt.opq.map (fun (o : TableOp) => if o.src = .thread i then { o with src := .nobody (i / 8) } else o)
  let k := (b.thr i).tickets.length + (b.mt.opq.filter (fun o => o.src = .thread i)).length +
    (b.dram.reqs.filter (fun r => r.use = .load i)).length
  let reqs := (b.dram.reqs.filter (fun r => !(r.held && r.use = .store i))).map (fun (r : DramReq) =>
    if mine r.use then { r with use := .nobody (i / 8) } else r)
  let cmds := b.haul.cmds.map (fun (c : HaulCmd) => if (c.ticket.map (·.1)) = some i then { c with ticket := none } else c)
  { b.setReqs reqs with mt := { b.mt with opq := ops }, haul := { b.haul with cmds := cmds } }.count T.RESULT_DISCARDED k

/-- The words that thread `i` has staged: the END word of a blocked CHWR is not one of them (R301, R317). -/
def Thread.stagedWords (t : Thread) : List DWord := match t.wait with | .chwr _ => t.staged.dropLast | _ => t.staged

/-- The end actions of R298, and the parent's record. -/
def Bench.endThread (b : Bench) (i : Nat) (halted : Bool) : Bench :=
  let t := b.thr i
  let u := i % 8
  let b := (b.count T.CHAN_PARTIAL_DISCARD t.stagedWords.length).count T.CHAN_READ_ABANDON
    ((t.reading.map (fun r => r.2.1.length)).sum)
  let b := t.reading.foldl (fun b r => b.freeInbox r.2.2) b
  let b := (b.orphan i).stallZero
  let b := match t.wait with | .wacq w => b.leaveWedge i w | _ => b
  let mine := (b.eng.wedges.filter (fun x => (x.2.map (·.holder)) = some i)).map (·.1)
  let b := { b with eng := { b.eng with blocked := b.eng.blocked.filter (· ≠ i) } }
  let b := b.setThr i Thread.free
  let b := mine.foldl (fun b w => (b.release w).tick T.WEDGE_FORCED_RELEASE) b
  let b := { b with eng := { b.eng with threads := b.eng.threads.map (fun (x : Nat × Thread) =>
    if x.2.parent = some i then (x.1, { x.2 with parent := none }) else x) } }
  match t.parent with
  | some p => b.updThr p (fun (q : Thread) =>
      if halted then { q with halted := Nat.lor q.halted (2 ^ u) } else { q with termed := Nat.lor q.termed (2 ^ u) })
  | none => b

/-- TERMINATE of thread `i` (R296). -/
def Bench.terminate (b : Bench) (i : Nat) : Bench :=
  if (b.thr i).st = 0 then b.tick T.THREAD_CMD_IGNORED else b.endThread i false
/-- RESUME of thread `i` (R296). -/
def Bench.resume (b : Bench) (i : Nat) : Bench :=
  if (b.thr i).st = 2 then b.updThr i (fun t => { t with st := 1, next := max t.next (b.engCycle + 1) }) else b.tick T.THREAD_CMD_IGNORED

/-- THREAD_TERMINATE: a write of THREAD_CTL with TERMINATE = 1. -/
def execThreadTerminate (n : BenchId) (c t : Nat) (s : State) : Host.Outcome State Fault Refusal :=
  s.onBench n (fun b => if c < 8 && t < 8 then (b.terminate (8 * c + t)).pump else b)
/-- THREAD_RESUME: a write of THREAD_CTL with RESUME = 1. -/
def execThreadResume (n : BenchId) (c t : Nat) (s : State) : Host.Outcome State Fault Refusal :=
  s.onBench n (fun b => if c < 8 && t < 8 then (b.resume (8 * c + t)).pump else b)

/-! ## Cores (R288, R289) -/

/-- START of a core. -/
def Bench.coreStart (b : Bench) (c : Nat) : Bench :=
  if b.coreState c ≠ 0 || (c ≠ 0 && b.coreState 0 ≠ 1) then b.cfgRefused
  else
    let b := (List.range 8).foldl (fun b t => b.setThr (8 * c + t) Thread.free) b
    (b.setThr (8 * c) { Thread.free with st := 1, pc := b.fld (R.engine_CORE_ENTRY_ENTRY c) }).setFld
      (R.engine_CORE_STATUS_STATE c) 1
/-- CORE_START (R288). -/
def execCoreStart (n : BenchId) (c : Nat) (s : State) : Host.Outcome State Fault Refusal :=
  s.onBench n (fun b => if c < 8 then (b.coreStart c).pump else b)

/-- An inbox entry of a stopped core is ended (R289): its chain is freed, or released when shared. -/
def Bench.flushInbox (b : Bench) (c : Nat) : Bench :=
  (b.pkts.filter (fun k => k.loc = .inbox c)).foldl (fun b k =>
    let a := recordAddr (hPool k.handle) (hOff k.handle)
    let agent := if b.recState a = 1 then b.recOwner a else 1
    let b := b.endUse agent k.handle
    let b := { b with eng := { b.eng with inboxMsgs := b.eng.inboxMsgs.filter (fun m => m.2.1 ≠ k.id) } }
    (b.updPkt k.id (fun q => { q with loc := .gone })).forget { k with loc := .gone } |>.tick T.INBOX_FLUSHED) b

/-- A thread that waits on a wedge leaves its queue, and waits on nothing. -/
def Bench.withdrawWedge (b : Bench) (i : Nat) : Bench :=
  match (b.thr i).wait with
  | .wacq w => (b.leaveWedge i w).updThr i (fun t => { t with wait := .none })
  | _ => b

/-- STOP of a core (R288, R289). Its threads end in one cycle, so their waits are withdrawn before any wedge they hold is granted
(R309). -/
def Bench.coreStop (b : Bench) (c : Nat) : Bench :=
  if b.coreState c ≠ 1 || (c = 0 && (List.range 7).any (fun d => b.coreState (d + 1) ≠ 0)) then b.cfgRefused
  else
    let b := (List.range 8).foldl (fun b t => b.withdrawWedge (8 * c + t)) b
    let b := (List.range 8).foldl (fun b t => if (b.thr (8 * c + t)).st = 0 then b else b.endThread (8 * c + t) false) b
    (b.flushInbox c).setFld (R.engine_CORE_STATUS_STATE c) 2
/-- CORE_STOP (R288). -/
def execCoreStop (n : BenchId) (c : Nat) (s : State) : Host.Outcome State Fault Refusal :=
  s.onBench n (fun b => if c < 8 then (b.coreStop c).pump else b)

/-- The walk gives every buffer of a core to Ryuner, in the owner and in the last-owner field (R289). -/
def Bench.stopWalk (b : Bench) (c : Nat) : Bench :=
  [0, 1, 2, 3, 4].foldl (fun b k =>
    (List.range (b.poolCount k)).foldl (fun b j =>
      let a := recordAddr k (b.bufOff k j)
      let b := if b.recOwner a = 0x10 + c then b.setMbits a 2 8 4 else b
      if b.recLast a = 0x10 + c then b.setMbits a 10 8 4 else b) b) b
/-- Is nothing of core `c` outstanding at the table queue, the haul engines or the DRAM (R289)? -/
def Bench.coreIdle (b : Bench) (c : Nat) : Bool :=
  b.dram.reqs.all (fun r => r.use.core ≠ some c) && b.haul.cmds.all (fun k => k.owner ≠ 0x10 + c) &&
    b.mt.opq.all (fun o => match o.src with | .thread i => i / 8 ≠ c | .nobody d => d ≠ c | .reg => true)
/-- CORE_STOP_WALK (R289): nothing happens while anything of the core is outstanding. -/
def execCoreStopWalk (n : BenchId) (c : Nat) (s : State) : Host.Outcome State Fault Refusal :=
  s.onBench n (fun b =>
    if c < 8 && b.coreState c = 2 && b.coreIdle c then (b.stopWalk c).setFld (R.engine_CORE_STATUS_STATE c) 0 else b)

/-! ## Events that feed the engines -/

/-- The words of an INBOX message (R304). -/
def Bench.inboxWords (b : Bench) (k : Pkt) : List DWord :=
  let a := recordAddr (hPool k.handle) (hOff k.handle)
  let shared := b.recState a = 2
  let reason := getBits (acDest k.act) 3 8
  let ts := k.ts.words
  [BitVec.ofNat 64 (k.handle + 2 ^ 32 * k.dataLen + 2 ^ 46 * reason + (if shared then 2 ^ 54 else 0) +
      (if k.oversize then 2 ^ 55 else 0)),
    BitVec.ofNat 64 (k.mark % 2 ^ 32 + 2 ^ 32 * k.start),
    BitVec.ofNat 64 (ts.getD 0 0 + 2 ^ 32 * ts.getD 1 0), BitVec.ofNat 64 (ts.getD 2 0)] ++ packWords k.fv 12

/-- The oldest inbox entry of core `c` whose status and verdict are good becomes readable (R167, R190): its chain passes to
the core (R254), and the send descriptor it came from is complete (R377). -/
def Bench.inboxDeliver (b : Bench) (c : Nat) : Bench :=
  let seen := fun (k : Pkt) => b.eng.inboxMsgs.any (fun m => m.2.1 = k.id) ||
    b.eng.threads.any (fun t => t.2.reading.any (fun r => r.2.2 = some k.id))
  match b.pkts.find? (fun k => k.loc = .inbox c && !seen k) with
  | some k =>
    if k.ended && k.spoil = 0 && !k.verdictPending then
      let a := recordAddr (hPool k.handle) (hOff k.handle)
      let w := b.inboxWords k
      let b := if b.recState a = 1 then (b.hopOp opGive 1 k.handle (0x10 + c) 0 []).2 else b
      let b := { b with eng := { b.eng with inboxMsgs := b.eng.inboxMsgs ++ [(c, k.id, w)] } }
      ((b.finish 6 k.id 0 Stamp.none).chHwm 0).pump
    else b
  | none => b
/-- INBOX_DELIVER (R167, R304). -/
def execInboxDeliver (n : BenchId) (c : Nat) (s : State) : Host.Outcome State Fault Refusal :=
  s.onBench n (fun b => if c < 8 then b.inboxDeliver c else b)

/-- LEARN_RECORD_READY: the first record that has not passed the filter does, once its status and verdict are known good
(R147, R148); it may then be read on the LEARN channel. -/
def execLearnRecordReady (n : BenchId) (s : State) : Host.Outcome State Fault Refusal :=
  s.onBench n (fun b => (b.learnReady.chHwm 1).pump)

/-- SIDE_ENQUEUE: the head of the side entry passes the side lane; mirror copies and engine packets are not metered. A writer
of TM_SEND that waits for room goes on (R306). -/
def execSideEnqueue (n : BenchId) (ecc : Ecc) (s : State) : Host.Outcome State Fault Refusal :=
  s.onBench n (fun b => (b.sideEnqueue ecc).pump)

/-- STALL_WATCH: the condition of R313 has held for 4,096 engine cycles. [DEDUCED, log 134, safe] -/
def execStallWatch (n : BenchId) (s : State) : Host.Outcome State Fault Refusal :=
  s.onBench n (fun b =>
    if b.stallCond && !b.flag R.engine_STALL_STATUS_STALLED then
      let v := (List.range 64).foldl (fun m i => if b.isStalled i then m + 2 ^ i else m) 0
      let b := { b with eng := { b.eng with stallSlot := b.eng.stallSlot ++ [BitVec.ofNat 64 v] } }
      let b := ((b.setFld R.engine_STALL_STATUS_STALLED 1).setFld R.engine_STALL_STATUS_FIRED 1).setFld
        R.engine_STALL_STATUS_COUNT 4096
      ((b.tick T.STALL_WATCH).raise 35).pump
    else b)

/-- Doorbell bits toward the bench join the DOORBELL notice (R312, R315). -/
def Bench.engDoorbell (b : Bench) (v : Nat) : Bench := { b with eng := { b.eng with doorSlot := Nat.lor b.eng.doorSlot v } }.pump

/-! ## CHAN_CFG (R303) -/

/-- A write to CHAN_CFG_k. -/
def Bench.chanCfg (b : Bench) (k v : Nat) : Bench :=
  let base := getBits v 0 9 * 8
  let depth := getBits v 16 10 * 8
  let busy := b.chWords k ≠ 0 || b.eng.blocked.any (fun i => (b.thr i).wait = .chrd k || (b.thr i).wait = .chwr k)
  let overlap := (List.range 240).any (fun j =>
    j + 16 ≠ k && 0 < b.chDepth (j + 16) && base < b.chBase (j + 16) + b.chDepth (j + 16) && b.chBase (j + 16) < base + depth)
  if busy || 4096 < base + depth || (depth ≠ 0 && overlap) then b.cfgRefused
  else (b.setFld (R.engine_CHAN_CFG_BASE (k - 16)) (getBits v 0 9)).setFld (R.engine_CHAN_CFG_DEPTH (k - 16)) (getBits v 16 10)
/-- CHAN_CFG_WRITE (R303). -/
def execChanCfgWrite (n : BenchId) (k : Nat) (v : Word) (s : State) : Host.Outcome State Fault Refusal :=
  s.onBench n (fun b => if 16 ≤ k && k < 256 then (b.rsvd (R.engine_CHAN_CFG (k - 16)) v.toNat).chanCfg k v.toNat else b)

/-! ## Debug stop, step and resume (R316 to R319) -/

/-- STOP of thread `i` (R317): a wait on a channel, wedge, JOIN or NOTICE is withdrawn, one on an operation issued runs on. [DEDUCED, log 57, unsafe] -/
def Bench.dbgStop (b : Bench) (i : Nat) : Bench :=
  let t := b.thr i
  if t.st = 0 then b.tick T.THREAD_CMD_IGNORED
  else
    let withdraw := match t.wait with
      | .chrd _ | .chwr _ | .wacq _ | .join _ | .notice _ _ | .waitc _ => true
      | _ => false
    let b := match t.wait with | .wacq w => b.leaveWedge i w | _ => b
    if withdraw then
      let t : Thread := { t with
        dbg := true, step := false, stepped := false, wait := .none, staged := t.stagedWords }
      let b := b.setThr i t
      { b with eng := { b.eng with blocked := b.eng.blocked.filter (· ≠ i) } }
    else b.setThr i { t with dbg := true, step := false, stepped := false }
/-- RESUME of a stopped thread (R318). -/
def Bench.dbgResume (b : Bench) (i : Nat) : Bench :=
  if (b.thr i).st = 0 then b.tick T.THREAD_CMD_IGNORED else b.updThr i (fun t =>
    { t with dbg := false, step := false, stepped := false, next := max t.next (b.engCycle + 1) })
/-- STEP of a stopped thread: it may issue one instruction in its first slot after now; the end of an operation it had issued
before is not that instruction (R318). -/
def Bench.dbgStep (b : Bench) (i : Nat) : Bench :=
  let t := b.thr i
  if t.st = 0 then b.tick T.THREAD_CMD_IGNORED
  else if t.st = 1 && t.dbg then b.setThr i { t with dbg := false, step := true, next := max t.next (b.engCycle + 1) } else b

/-- Does a debug session of the bench hold the right to its debug registers: an ENGINE session on it, or FULL (R316)? -/
def Hub.debugOn (h : Hub) (n : BenchId) : Bool :=
  h.flag R.dbg_DBG_SESSION_FULL || bit (h.fld R.dbg_DBG_SESSION_ENGINE_MASK) n.val

/-- One DBG_CTL_c write of three masks, one bit per thread; a write that sets more than one mask for a thread is ignored
(R322). -/
def Bench.dbgCtl (b : Bench) (c v : Nat) : Bench :=
  let s := getBits v 0 8
  let r := getBits v 8 8
  let p := getBits v 16 8
  if Nat.land s r ≠ 0 || Nat.land s p ≠ 0 || Nat.land r p ≠ 0 then b.tick T.DBG_REFUSED
  else
    (List.range 8).foldl (fun b t =>
      if bit s t then b.dbgStop (8 * c + t) else if bit r t then b.dbgResume (8 * c + t)
      else if bit p t then b.dbgStep (8 * c + t) else b) b

/-- A DBG_CTL write by a debug session or by another agent, whose write is ignored and counted (R316). -/
def dbgWrite (n : BenchId) (session : Bool) (c v : Nat) (h : Hub) (b : Bench) : Hub × Bench :=
  if session && h.debugOn n then (h, (b.dbgCtl c v).pump) else (h, b.tick T.DBG_REFUSED)

/-- DBG_STOP: DBG_CTL_c is written with STOP = `mask` by a debug session (`session`) or another agent. -/
def execDbgStop (n : BenchId) (session : Bool) (c mask : Nat) (s : State) : Host.Outcome State Fault Refusal :=
  s.onLive n (dbgWrite n session (c % 8) (mask % 256))
/-- DBG_RESUME. -/
def execDbgResume (n : BenchId) (session : Bool) (c mask : Nat) (s : State) : Host.Outcome State Fault Refusal :=
  s.onLive n (dbgWrite n session (c % 8) (256 * (mask % 256)))
/-- DBG_STEP. -/
def execDbgStep (n : BenchId) (session : Bool) (c mask : Nat) (s : State) : Host.Outcome State Fault Refusal :=
  s.onLive n (dbgWrite n session (c % 8) (65536 * (mask % 256)))

end Sys2Proof.Machine
end

