-- ==== Sys2Proof/Machine/HostBus.lean ====
section
/-! DEFINITION. Host reads and writes of a bench: claims, tags, credits, the splitting of requests, and the errors that the
endpoint logs (R33, R335, R342 to R347, R350, R359, R360). -/
namespace Sys2Proof.Machine

/-! ## Claims (R358 to R360) -/

/-- A claim of the bench. -/
def Bench.claim? (b : Bench) (c : Nat) : Option Claim := (b.rings.claims.find? (fun x => x.1 = c)).map (·.2)
/-- Change a claim of the bench. -/
def Bench.updClaim (b : Bench) (c : Nat) (f : Claim → Claim) : Bench :=
  { b with rings := { b.rings with claims := b.rings.claims.map (fun (x : Nat × Claim) => if x.1 = c then (x.1, f x.2) else x) } }

/-- The PF that a function belongs to, as its configuration space stands. -/
def Hub.pfState (h : Hub) (key : Nat) : FnSt :=
  match h.pfOf key with
  | some f => h.fn (fnKey (fnPort key) false f)
  | none => FnSt.reset
/-- Is a function in a function-level reset, its own or its PF's (R348)? -/
def Hub.inReset (h : Hub) (key : Nat) : Bool := (h.fn key).flr || (h.pfState key).flr
/-- Is a function in D3hot: its PF is (R515)? -/
def Hub.inD3 (h : Hub) (key : Nat) : Bool := (h.pfState key).d3hot

/-- May a claim's requests be sent: Bus Master Enable, no function-level reset, no D3hot, PASID Enable where it has one (R347,
R359, R515)? -/
def Hub.masters (h : Hub) (c : Claim) : Bool :=
  (h.fn c.fn).bme && !h.inReset c.fn && !h.inD3 c.fn && (c.pasid.isNone || (h.fn c.fn).pasidEn)

/-! ## Error logging (R350) -/

/-- Rows of R350, and the errors that one row names together: the AER errors of a function. -/
def aerReplay : Nat := 0
def aerReplayTimeout : Nat := 1
def aerAdvisory : Nat := 2
def aerCorrected : Nat := 3
def aerHeaderFull : Nat := 4
def aerPoison : Nat := 5
def aerTimeout : Nat := 6
def aerAbort : Nat := 7
def aerUnexpected : Nat := 8
def aerUnsupported : Nat := 9
def aerDataLink : Nat := 10
def aerInternal : Nat := 11
def aerFlowControl : Nat := 12
def aerOverflow : Nat := 13
def aerMalformed : Nat := 14
def aerRollover : Nat := 15
/-- Is an error of the correctable class? -/
def aerMild (row : Nat) : Bool := row ≤ 4 || row = 15

/-- Words of the header log for a request (kind 0 read, 1 write) at an offset of a BAR, or for a completion (2) with its tag: the form is
the model's. [DESIGN CHOICE, log 136, unsafe] -/
def tlpHeader (kind bar off len : Nat) : List Nat := [kind, bar, off, len]

/-- An error message of class 0 correctable, 1 non-fatal or 2 fatal goes to the host when the function reports that class. -/
def Hub.errMessage (h : Hub) (key cls : Nat) : Hub :=
  if bit (h.fn key).errRep cls then h.queueTlp { Tlp.blank .message key with tag := if cls = 2 then 0x33 else 0x30 + cls } else h

/-- The header of an error enters a function's header log; while the log is taken it is lost, which is an error of its own. -/
def FnSt.logHeader (f : FnSt) (row : Nat) (hdr : List Nat) : FnSt :=
  if hdr.isEmpty then f
  else if f.header.isNone then { f with header := some (row, hdr) }
  else if f.aer.contains aerHeaderFull then f else { f with aer := f.aer ++ [aerHeaderFull] }

/-- An error's status is set in a function; unless it is masked its header is logged, its message sent under `cls`, and hub event 658 + p
raised. [DEDUCED, log 28, unsafe] -/
def Hub.logRows (h : Hub) (key : Nat) (rows : List Nat) (hdr : List Nat) (cls : Nat) : Hub :=
  let f := h.fn key
  let f := { f with aer := rows.foldl (fun l r => if l.contains r then l else l ++ [r]) f.aer }
  if rows.any f.aerMask.contains then h.setFn key f
  else ((h.setFn key (f.logHeader (rows.headD 0) hdr)).errMessage key cls).raise (658 + fnPort key)

/-- An error is logged in a function under its class or severity (R350), with its TLP's header if it has one. -/
def Hub.logAer (h : Hub) (key row : Nat) (hdr : List Nat := []) : Hub :=
  h.logRows key [row] hdr (if aerMild row then 0 else if (h.fn key).aerFatal.contains row then 2 else 1)
/-- An error is logged with Advisory Non-Fatal status; one whose severity the host made fatal is not advisory. -/
def Hub.logAdvisory (h : Hub) (key row : Nat) (hdr : List Nat := []) : Hub :=
  if (h.fn key).aerFatal.contains row then h.logAer key row hdr else h.logRows key [row, aerAdvisory] hdr 0

/-- Count in a tally that a link keeps, of the link of a function. -/
def Hub.tickLink (h : Hub) (t : Nat → Nat → Nat) (key : Nat) : Hub := h.tick (t (fnPort key) (h.linkOf key % 2))

/-! ## Tags (R33, R335, R344) -/

/-- Max_Read_Request_Size of a function in bytes, at most 4,096. -/
def FnSt.mrrsBytes (f : FnSt) : Nat := min 4096 (128 * 2 ^ f.mrrs)
/-- Reads that a function may have outstanding at one bench (R335). -/
def FnSt.tagCount (f : FnSt) : Nat := if f.tag14 then 1024 else if f.tag10 then 64 else 16

/-- Bits of the index in a function's tag layout (R335): the bench number stands above them. -/
def FnSt.tagShift (f : FnSt) : Nat := if f.tag14 then 10 else if f.tag10 then 6 else 4
/-- The tag that a read of bench `n` carries on its link (R33, R335). -/
def HostRead.wireTag (n : BenchId) (r : HostRead) : Nat := 2 ^ r.shift * n.val + r.tag
/-- The time-out of a Completion Timeout Value in microseconds; an encoding not listed is taken as 0000 (R342). -/
def timeoutMicros (cto : Nat) : Nat :=
  match cto with
  | 1 => 100
  | 2 => 10000
  | 6 => 200000
  | 9 => 800000
  | 10 => 3000000
  | _ => 50000

/-! ## Queues of host requests (R334) -/

/-- A queue of host requests: `17 link + bench`, or `17 link + 16` for the hub's. -/
def Hub.inqOf (h : Hub) (k : Nat) : List (Bool × Nat) := sparseGet (fun _ => ([] : List (Bool × Nat))) h.inq k
/-- The queue that a request of a function enters. -/
def Hub.inqKey (h : Hub) (key : Nat) (n : Option BenchId) : Nat := 17 * h.linkOf key + (n.map (·.val)).getD 16
/-- Posted, or non-posted, requests in a queue. -/
def inqCount (posted : Bool) (q : List (Bool × Nat)) : Nat := (q.filter (fun x => x.1 = posted)).length
/-- Has a queue no room for a request with `len` bytes of data: 64 posted headers with 16 KiB, 16 non-posted headers? -/
def inqFull (posted : Bool) (len : Nat) (q : List (Bool × Nat)) : Bool :=
  if posted then 64 ≤ inqCount true q || 16384 < (q.map (·.2)).sum + len else 16 ≤ inqCount false q
/-- A request enters its queue. It is carried out as it enters, with the window entries then in force (R338), and holds its place until
the queue has delivered it. [DESIGN CHOICE, log 73, unsafe] -/
def Hub.inqPush (h : Hub) (k : Nat) (posted : Bool) (len : Nat) : Hub :=
  { h with inq := sparseSet (fun _ => ([] : List (Bool × Nat))) h.inq k (h.inqOf k ++ [(posted, len)]) }
/-- Every queue delivers its oldest request: one a hub cycle at least. -/
def Hub.inqDrain (h : Hub) : Hub := { h with inq := (h.inq.map (fun x => (x.1, x.2.tail))).filter (fun x => !x.2.isEmpty) }

/-- The high-water mark of a bench's queue on a link follows its occupancy (R352). -/
def Hub.inqMark (h : Hub) (key : Nat) (q : Option BenchId) (posted : Bool) (k : Nat) : Hub :=
  match q with
  | none => h
  | some n =>
    let f := if posted then R.ep_BENCH_INQ_P_HWM (fnPort key) (16 * (h.linkOf key % 2) + n.val)
      else R.ep_BENCH_INQ_NP_HWM (fnPort key) (16 * (h.linkOf key % 2) + n.val)
    h.setFld f (max (h.fld f) k)

/-- A request of a function finds the queue `q` full, which `held` says outright, or enters it (R334). [DESIGN CHOICE, log 73, unsafe] -/
def Hub.inqEnter (h : Hub) (key : Nat) (q : Option BenchId) (posted held : Bool) (len : Nat) : Bool × Hub :=
  let k := h.inqKey key q
  let l := h.inqOf k
  if held then (true, h.inqMark key q posted (if posted then 64 else 16))
  else if inqFull posted len l then (true, h)
  else (false, (h.inqPush k posted len).inqMark key q posted (inqCount posted l + 1))

/-- Is a tag index taken for a function? With 14-bit tags the index is the bench's own. -/
def Bench.tagTaken (b : Bench) (wide : Bool) (fn t : Nat) : Bool := b.reads.any (fun r => r.tag = t && (wide || r.fn = fn))
/-- The tag index below a bound that the next read takes: the spec does not say which free one. [DESIGN CHOICE, log 98, safe] -/
def Bench.freeTag (b : Bench) (wide : Bool) (fn bound : Nat) : Option Nat :=
  b.anyOf ((List.range bound).filter (fun t => !b.tagTaken wide fn t))

/-- Reads of a claim that are outstanding (TAGS_OUT, R369). -/
def Bench.tagsOut (b : Bench) (c : Nat) : Nat := (b.reads.filter (fun r => r.claim = c && !r.quarantine)).length

/-- Bytes of completion buffer that outstanding reads hold (R33). -/
def Bench.cplBytes (b : Bench) : Nat := ((b.reads.filter (fun r => !r.quarantine)).map (·.len)).sum

/-- May a read of `n` bytes for claim `c` be issued now: mastering, a tag, its share and the completion buffer (R33, R335, R347,
R360)? -/
def Bench.mayIssue (h : Hub) (b : Bench) (c n : Nat) : Bool :=
  match b.claim? c with
  | none => false
  | some k =>
    let f := h.fn k.fn
    h.masters k && b.tagsOut c < k.tagLimit && b.reads.length < 1024 && b.cplBytes + n ≤ 16384 &&
      (b.freeTag f.tag14 k.fn f.tagCount).isSome

/-- The TLP of a read. -/
def HostRead.tlp (r : HostRead) : Tlp :=
  { Tlp.blank .read r.fn with addr := r.addr, tag := r.tag, pasid := r.pasid, len := r.len }

/-- A read goes out with a tag of the function that is free (R335): it waits for the bench's window. -/
def Bench.sendRead (h : Hub) (b : Bench) (r : HostRead) : Bench :=
  let f := h.fn r.fn
  let r := { r with tag := (b.freeTag f.tag14 r.fn f.tagCount).getD 0, shift := f.tagShift }
  { b.spent with reads := b.reads ++ [r], tlps := b.tlps ++ [r.tlp] }

/-- A read of `n` bytes that has not gone out. -/
def HostRead.new (fn : Nat) (pasid : Option Nat) (claim addr n : Nat) (use : ReadFor) (retry : Bool) : HostRead :=
  { fn := fn, pasid := pasid, tag := 0, shift := 0, use := use, claim := claim, addr := addr, len := n, got := [], cto := 0
    retryOk := retry, retried := false, quarantine := false, dead := false }

/-- Issue one read of `n` bytes for a claim (R335). -/
def Bench.issue (h : Hub) (b : Bench) (c addr n : Nat) (use : ReadFor) (retry : Bool) : Bench :=
  match b.claim? c with
  | none => b
  | some k => b.sendRead h (HostRead.new k.fn k.pasid c addr n use retry)

/-- May Ryuner read `n` bytes for a function in this bench's window: a tag of the bench, and room in its completion buffer (R33,
R332, R335)? -/
def Bench.roomToRead (h : Hub) (b : Bench) (fn n : Nat) : Bool :=
  b.reads.length < 1024 && b.cplBytes + n ≤ 16384 && (b.freeTag (h.fn fn).tag14 fn (h.fn fn).tagCount).isSome
/-- A read of Ryuner: RETRY_OK = 1 (R343). -/
def Bench.ryunerRead (h : Hub) (b : Bench) (fn : Nat) (pasid : Option Nat) (addr n : Nat) (use : ReadFor) : Bench :=
  b.sendRead h (HostRead.new fn pasid 256 addr n use true)

/-- The deficit of a claim. -/
def Bench.creditOf (b : Bench) (i : Nat) : Int := sparseGet (fun _ => (0 : Int)) b.rings.credit i
/-- [DESIGN CHOICE, log 63, unsafe] -/
def Bench.setCredit (b : Bench) (i : Nat) (v : Int) : Bench :=
  { b with rings := { b.rings with credit := sparseSet (fun _ => (0 : Int)) b.rings.credit i v } }
/-- A read that the ring fetcher issues, for descriptors, fragment tables or packet data, spends the bytes requested (R360). -/
def Bench.spendCredit (b : Bench) (i n : Nat) : Bench := b.setCredit i (b.creditOf i - n)

/-! ## Writes (R347, R392) -/

/-- Write bytes to host memory for a claim: TLPs that wait for the bench's window. A claim that may not master sends
nothing (R347). -/
def Bench.hostWrite (h : Hub) (b : Bench) (c : Claim) (addr : Nat) (l : List Byte) (ep : Bool) (cmd : Option Nat) : Bench :=
  if !h.masters c then b
  else
    let mk : Nat × List Byte → Tlp := fun x =>
      { Tlp.blank .write c.fn with addr := x.1, data := x.2, pasid := c.pasid, ep := ep, cmd := cmd }
    { b with tlps := b.tlps ++ (writePieces (h.fn c.fn).mpsBytes (l.length + 1) addr l).map mk }

/-- A claim's vector is raised by its bench: the write goes in the bench's window, behind what it signals (R341). -/
def benchVector (n : BenchId) (h : Hub) (b : Bench) (key vec : Nat) : Hub × Bench :=
  match h.interrupt (some n) key vec with
  | (h, some t) => (h, { b with tlps := b.tlps ++ [t] })
  | (h, none) => (h, b)

/-! ## Ring contexts (R369, R370) -/

/-- BASE of a ring. -/
def Bench.ringBase (b : Bench) (r : Nat) : Nat := b.mbits (ringAddr r) 0 64
/-- Entries between two positions (R370); the NVMe kinds count without a lap (R385). -/
def countOf (n : Nat) (nvme : Bool) (pi pl ci cl : Nat) : Int :=
  if nvme then (((pi + n - ci) % n : Nat) : Int)
  else if pl = cl then (pi : Int) - ci else (n : Int) - ci + pi
/-- Is a ring one of the NVMe kinds? -/
def Bench.ringNvme (b : Bench) (r : Nat) : Bool := b.ringKind r = 4 || b.ringKind r = 5
/-- Is a ring of a completion kind, produced by the device? -/
def Bench.ringCpl (b : Bench) (r : Nat) : Bool := b.ringKind r = 3 || b.ringKind r = 5
/-- Entries in a ring by the positions of its context. -/
def Bench.ringCount (b : Bench) (r : Nat) : Int :=
  if b.ringCpl r then countOf (b.ringN r) (b.ringNvme r) (b.devIndex r) (b.devLap r) (b.hostIndex r) (b.hostLap r)
  else countOf (b.ringN r) (b.ringNvme r) (b.hostIndex r) (b.hostLap r) (b.devIndex r) (b.devLap r)
/-- Free entries of a completion ring; an NVMe ring keeps one unused (R385). -/
def Bench.ringFree (b : Bench) (r : Nat) : Nat :=
  (((b.ringN r : Int) - (if b.ringNvme r then 1 else 0)) - b.ringCount r).toNat
/-- Move a ring's device position on by `k` entries. -/
def Bench.devAdvance (b : Bench) (r k : Nat) : Bench :=
  let n := b.ringN r
  let i := b.devIndex r + k
  if n ≤ i then (b.setMbits (ringAddr r) 160 16 (i - n)).setMbits (ringAddr r) 176 1 (1 - b.devLap r)
  else b.setMbits (ringAddr r) 160 16 i
/-- Put a ring's STATE. -/
def Bench.setRingState (b : Bench) (r st : Nat) : Bench := b.setMbits (ringAddr r) 72 2 st
/-- Add to OWED of a completion ring. -/
def Bench.addOwed (b : Bench) (q : Nat) (d : Int) : Bench :=
  b.setMbits (ringAddr q) 224 16 ((b.ringOwed q : Int) + d).toNat
/-- Bytes of an entry of a ring (R367). -/
def entrySize (kind : Nat) : Nat :=
  match kind with
  | 1 | 3 => 32
  | 2 | 5 => 16
  | _ => 64

/-- A ring enters ERROR (R383): its CAUSE, a record of the ring fault log, bench event 7. -/
def Bench.ringError (b : Bench) (r cause : Nat) : Bench :=
  let b := (b.setRingState r 3).setMbits (ringAddr r) 188 4 cause
  let seq := (b.rings.faultSeq + 1) % 256
  let w := r + 2 ^ 14 * cause + 2 ^ 18 + 2 ^ 24 * seq
  let b := { b with rings := { b.rings with faultSeq := seq } }
  let b := if 64 ≤ b.rings.faults.length then b.tick T.RING_FAULT_LOST
    else { b with rings := { b.rings with faults := b.rings.faults ++ [w] } }
  b.raise 7

end Sys2Proof.Machine
end

