-- ==== Sys2Proof/Machine/Haul.lean ====
section
/-! DEFINITION. The haul engines (R390 to R407): command blocks, staging, chunks, running checks, completion, and the completion
collector (R462). -/
namespace Sys2Proof.Machine

/-! ## The command block (R393) -/

/-- A word of the block. -/
def HaulCmd.word (c : HaulCmd) (i : Nat) : Nat := c.words.getD i 0
/-- OP: 0 COPY, 1 READ_CHECK, 2 ZERO. -/
def HaulCmd.op (c : HaulCmd) : Nat := getBits (c.word 0) 0 3
def HaulCmd.srcSpace (c : HaulCmd) : Nat := getBits (c.word 0) 4 2
def HaulCmd.dstSpace (c : HaulCmd) : Nat := getBits (c.word 0) 6 2
def HaulCmd.crcEn (c : HaulCmd) : Bool := bit (c.word 0) 8
def HaulCmd.csumEn (c : HaulCmd) : Bool := bit (c.word 0) 9
def HaulCmd.retryOk (c : HaulCmd) : Bool := bit (c.word 0) 10
def HaulCmd.fence (c : HaulCmd) : Bool := bit (c.word 0) 11
def HaulCmd.len (c : HaulCmd) : Nat := getBits (c.word 1) 0 21
def HaulCmd.srcAddr (c : HaulCmd) : Nat := c.word 2 + 2 ^ 32 * c.word 3
def HaulCmd.dstAddr (c : HaulCmd) : Nat := c.word 4 + 2 ^ 32 * c.word 5
def HaulCmd.srcFrags (c : HaulCmd) : Nat := getBits (c.word 6) 0 8
def HaulCmd.dstFrags (c : HaulCmd) : Nat := getBits (c.word 6) 8 8
def HaulCmd.claim (c : HaulCmd) : Nat := getBits (c.word 6) 16 8
def HaulCmd.claimEn (c : HaulCmd) : Bool := bit (c.word 6) 24
def HaulCmd.csumSeed (c : HaulCmd) : Nat := getBits (c.word 8) 0 16
def HaulCmd.csumStart (c : HaulCmd) : Nat := getBits (c.word 8) 16 16
/-- D: destination bytes (R394). -/
def HaulCmd.total (c : HaulCmd) : Nat := c.len + (if c.crcEn then 4 else 0) + (if c.csumEn then 2 else 0)
/-- Does the command move a packet of a hardware channel? -/
def HaulCmd.frameIn (c : HaulCmd) : Bool := c.chan = 0
def HaulCmd.frameOut (c : HaulCmd) : Bool := c.chan = 1
def HaulCmd.srcHost (c : HaulCmd) : Bool := c.srcSpace = 1
def HaulCmd.dstHost (c : HaulCmd) : Bool := c.dstSpace = 1
def HaulCmd.newBuf (c : HaulCmd) : Bool := c.dstSpace = 2
/-- A COPY within device memory. -/
def HaulCmd.devCopy (c : HaulCmd) : Bool := c.op = 0 && c.srcSpace = 0 && c.dstSpace = 0 && 6 ≤ c.chan
/-- A memmove whose chunks go in descending order (R399): single pieces that overlap, DST above SRC. -/
def HaulCmd.overlaps (c : HaulCmd) : Bool :=
  c.devCopy && c.srcFrags = 0 && c.dstFrags = 0 && c.srcAddr < c.dstAddr + c.total && c.dstAddr < c.srcAddr + c.len
def HaulCmd.descending (c : HaulCmd) : Bool := c.overlaps && c.srcAddr < c.dstAddr
/-- Chunk after chunk: a COPY within device memory with fragments (R399). -/
def HaulCmd.serial (c : HaulCmd) : Bool := c.devCopy && (c.srcFrags ≠ 0 || c.dstFrags ≠ 0)

/-! ## Channels and staging (R390, R391) -/

/-- The channel that fetches the descriptors of a ring of a kind: the NVMe emulation's, or the ring fetcher's (R390). [DEDUCED, log 142, unsafe] -/
def fetchChan (kind : Nat) : Nat := if kind = 4 then 5 else 0

/-- The commands of a channel that have not ended, oldest first. -/
def Bench.chanCmds (b : Bench) (c : Nat) : List HaulCmd := b.haul.cmds.filter (fun k => k.chan = c && !k.ended)
/-- Change a command. -/
def Bench.updCmd (b : Bench) (id : Nat) (f : HaulCmd → HaulCmd) : Bench :=
  { b with haul := { b.haul with cmds := b.haul.cmds.map (fun k => if k.id = id then f k else k) } }
/-- RESERVE and LIMIT of a channel. -/
def Bench.chReserve (b : Bench) (c : Nat) : Nat :=
  if c < 2 then b.fld (R.haul_HAUL_CH_STAGE_0_1_RESERVE c) else b.fld (R.haul_HAUL_CH_STAGE_RESERVE (c - 2))
def Bench.chLimit (b : Bench) (c : Nat) : Nat :=
  if c < 2 then b.fld (R.haul_HAUL_CH_STAGE_0_1_LIMIT c) else b.fld (R.haul_HAUL_CH_STAGE_LIMIT (c - 2))
/-- Chunks that a channel holds. -/
def Bench.chunksOf (b : Bench) (c : Nat) : Nat :=
  ((b.haul.cmds.filter (fun k => k.chan = c)).map (fun k => k.chunks.length)).sum
/-- Free chunks. -/
def Bench.freeChunks (b : Bench) : Nat := 1024 - (b.haul.cmds.map (fun k => k.chunks.length)).sum
/-- How many chunks the channel may take now (R391). -/
def Bench.mayStage (b : Bench) (c : Nat) : Nat :=
  let held := b.chunksOf c
  let owed := ((List.range 64).map (fun d => if d = c then 0 else b.chReserve d - b.chunksOf d)).sum
  min (b.chLimit c - held) (min b.freeChunks (max (b.chReserve c - held) (b.freeChunks - owed)))

/-- QUEUED, HWM and CHUNKS of a channel and the staging buffer's FREE and LWM (R405, R406). -/
def Bench.countHaul (b : Bench) (c : Nat) : Bench :=
  let q := (b.chanCmds c).length
  let b := b.setFld (R.haul_HAUL_CH_STATUS_QUEUED c) q
  let b := if b.fld (R.haul_HAUL_CH_STATUS_HWM c) < q then b.setFld (R.haul_HAUL_CH_STATUS_HWM c) q else b
  let b := b.setFld (R.haul_HAUL_CH_STATUS_CHUNKS c) (b.chunksOf c)
  let f := b.freeChunks
  let b := b.setFld R.haul_STAGE_STATUS_FREE f
  if f < b.fld R.haul_STAGE_STATUS_LWM then b.setFld R.haul_STAGE_STATUS_LWM f else b

/-- A command with nothing done yet. -/
def HaulCmd.fresh (id chan owner : Nat) (ticket : Option (Nat × Nat)) (blk : Nat) (words : List Nat) (pid : Option Nat) : HaulCmd :=
  { id := id, chan := chan, owner := owner, ticket := ticket, blk := blk, words := words, started := false, tabs := []
    src := [], dst := [], rd := 0, chunks := [], wr := 0, all := [], handle := 0, errAddr := 0, eccWords := 0, status := none
    ended := false, pid := pid }
/-- Queue a command on a channel. -/
def Bench.queueCmd (b : Bench) (chan owner : Nat) (ticket : Option (Nat × Nat)) (blk : Nat) (words : List Nat) (pid : Option Nat) :
    Bench :=
  let c := HaulCmd.fresh b.haul.nextId chan owner ticket blk words pid
  { b with haul := { b.haul with cmds := b.haul.cmds ++ [c], nextId := b.haul.nextId + 1 } }.countHaul chan

/-- A write of GO to HAUL_SUBMIT (R405). -/
def Bench.haulSubmit (b : Bench) : Bench :=
  if 16 ≤ (b.chanCmds 6).length then b.tick T.HAUL_CMD_REFUSED
  else b.queueCmd 6 4 none 0 ((List.range 10).map (fun w => (b.reg (R.haul_HAUL_CMD w)).toNat)) none
/-- HAUL_SUBMIT (R405). -/
def execHaulSubmit (n : BenchId) (s : State) : Host.Outcome State Fault Refusal := s.onBench n Bench.haulSubmit

/-! ## Device memory (R398, R400) -/

/-- The leaky-bucket counter of a memory (R526). -/
def memCounter (a : Nat) : Nat :=
  if a < 0x2000000 then 5
  else if a < 0x3000000 then 2
  else if a < 0x3010000 then 0
  else if a < 0x4000000 then 1
  else if a < 0x5000000 then 3
  else if a < 0x6000000 then 4
  else if a < 0x7000000 then 9
  else if a < 0x8000000 then 7
  else if a < 0x9000000 then 8
  else if a < dramBase then 6 else 10

/-- The 64-bit word of an ECC-protected engine memory that holds an offset: does it meet an uncorrectable error? (R287) -/
def Ecc.wordBad (e : Ecc) (o : Nat) : Bool := e.unc (o / 8 * 8) (o / 8 * 8 + 8)
/-- The correctable errors of that word feed the memory's counter. -/
def Bench.wordCor (b : Bench) (e : Ecc) (o : Nat) : Bench := b.correctable (memCounter o) (e.cor (o / 8 * 8) (o / 8 * 8 + 8))
/-- An uncorrectable error of an engine memory: ENGINE_ECC_LOG and event 34 (R287). -/
def Bench.engineEcc (b : Bench) (o : Nat) : Bench :=
  let r : Nat × Nat × Nat :=
    if 0x8000000 ≤ o then ((o - 0x8000000) % 0x4000 / 8, 1, (o - 0x8000000) / 0x4000)
    else if 0x7000000 ≤ o then ((o - 0x7000000) / 8, 0, 0) else ((o - 0x6000000) / 8, 2, 0)
  (b.setReg R.engine_ENGINE_ECC_LOG
    (BitVec.ofNat 32 (r.1 + 2 ^ 24 * r.2.1 + 2 ^ 26 * (r.2.2 / 8) + 2 ^ 29 * (r.2.2 % 8)))).raise 34

/-- The handle of the SRAM buffer that holds a packet-buffer address, from the carve of R246; with GEN of its
record; 0 where no pool lies. -/
def Bench.handleAt (b : Bench) (o : Nat) : Nat :=
  let off := o - 0x1000000
  ([0, 1, 2, 3].findSome? (fun k =>
    let lo := b.bufOff k 0
    if lo ≤ off && off < lo + b.poolCount k * poolSize k then
      let x := lo + (off - lo) / poolSize k * poolSize k
      some (x + 2 ^ 24 * k + 2 ^ 27 * b.recGen (recordAddr k x))
    else none)).getD 0

/-- Bytes of the entry that a read of an ECC-protected memory checks: a buffer record, 32 bytes of packet buffer or slot, a node,
a template, an SA entry, a meter or queue context, a 64-bit word of an engine memory (R100, R134, R171, R193, R217, R263, R287). [DEDUCED, log 102, unsafe] -/
def eccUnit (a : Nat) : Nat :=
  if a < 0x1000000 then 8
  else if a < 0x3000000 then 32
  else if a < 0x3010000 then 64
  else if a < 0x5000000 then 128
  else if a < 0x6000000 then 64 else 8

/-- An uncorrectable error at a bench offset of an SRAM: the unit's ECC log and its event (R524). [DEDUCED, log 102, unsafe] -/
def Bench.memEcc (b : Bench) (a : Nat) : Bench :=
  if a < 0xC00000 then b.pktbufEcc (b.handleAt (0x1000000 + (a - 0x800000) / 8 * 256))
  else if a < 0x1000000 then b.pktbufEcc ((a - 0xC00000) / 8 + 2 ^ 24 * 4 + 2 ^ 27 * b.recGen (a / 8 * 8))
  else if a < 0x2000000 then b.pktbufEcc (b.handleAt a)
  else if a < 0x3000000 then (b.setFld R.match_ECC_LOG_SLOT ((a - 0x2000000) / 64)).raise 15
  else if a < 0x3010000 then b.raise 13
  else if a < 0x4000000 then b.raise 20
  else if a < 0x5000000 then (b.setFld R.cipher_ECC_SA_ENTRY ((a - 0x4000000) / 128)).raise 27
  else if a < 0x5200000 then b.tmEcc 0 ((a - 0x5000000) / 64)
  else if a < 0x6000000 then b.tmEcc 1 ((a - 0x5200000) / 64)
  else b.engineEcc a

/-- Is a range of bench offsets one that a command may use (R398)? -/
def Bench.regionOk (b : Bench) (check : Bool) (a n : Nat) : Bool :=
  let within := fun (lo sz : Nat) => lo ≤ a && a + n ≤ lo + sz
  within 0x1000000 0x1000000 || within 0x6000000 0x200000 || within dramBase b.capacity ||
    (check && (within 0x2000000 0x400000 || within 0x3000000 0x4000 || within 0x3010000 0x20000 ||
      within 0x4000000 0x200000 || within 0x5000000 0x280000 || within 0x7000000 0x80000 || within 0x8000000 0x100000))

/-- Internal address at which a bench's range starts (R34). -/
def benchBase (n : BenchId) : Nat := 0x100000000000 + 0x10000000000 * n.val
/-- The bench offset of an internal address of the bench's own range. -/
def ownOffset (n : BenchId) (a : Nat) : Option Nat :=
  if benchBase n ≤ a && a < benchBase n + 0x10000000000 then some (a - benchBase n) else none
/-- Does an address lie in another bench, or in a region of the hub (R34)? -/
def foreign (n : BenchId) (a : Nat) : Bool :=
  (ownOffset n a).isNone && (a < 0x1000000 || (0x10000000 ≤ a && a < 0x10800000) || (0x20000000 ≤ a && a < 0x20040000) ||
    (0x100000000000 ≤ a && a < 0x200000000000))
/-- An address in another bench or in the hub is counted (R26, R275, R398). -/
def Bench.isolation (b : Bench) (n : BenchId) (a : Nat) : Bench :=
  if foreign n a then (b.tick T.ISOLATION_REFUSED).raise 4 else b

/-- What reads of device memory bring: the bytes, the first address that failed and how many words did. -/
structure DevRead where
  data : List Byte
  first : Option Nat
  bad : Nat
deriving DecidableEq, Repr

/-- Read bytes of the bench's memory in words of at most 64 bytes: SRAM under its ECC, DRAM line by line. [DEDUCED, log 102, unsafe] -/
def Bench.devRead (b : Bench) (ecc : Ecc) : Nat → Nat → Nat → DevRead × Bench
  | 0, _, _ => ({ data := [], first := none, bad := 0 }, b)
  | fuel + 1, a, n =>
    if n = 0 then ({ data := [], first := none, bad := 0 }, b)
    else
      let k := min n (64 - a % 64)
      let w : Option (List Byte) × Bench :=
        if dramBase ≤ a then
          match (b.wakeFor (a - dramBase) 64).readLine (a - dramBase) ecc with
          | (some d, b) => (some ((d.drop (a % 64)).take k), b)
          | (none, b) => (none, b)
        else
          let b := b.correctable (memCounter a) (ecc.cor a (a + k))
          if ecc.unc a (a + k) then (none, b.memEcc (ecc.lastUnc a (a + k))) else (some (b.bytes a k), b)
      let r := w.2.devRead ecc fuel (a + k) (n - k)
      match w.1 with
      | some d => ({ r.1 with data := d ++ r.1.data }, r.2)
      | none => ({ data := List.replicate k 0#8 ++ r.1.data, first := some a, bad := r.1.bad + 1 }, r.2)

/-- Write bytes to the bench's memory. -/
def Bench.devWrite (b : Bench) (a : Nat) (l : List Byte) (ecc : Ecc) : Bench :=
  if dramBase ≤ a then b.writeDram (a - dramBase) l ecc else b.setBytes a l

/-- The parts of logical bytes `off` to `off + n - 1` in a list of pieces. -/
def subPieces : List (Nat × Nat) → Nat → Nat → List (Nat × Nat)
  | [], _, _ => []
  | (a, k) :: t, off, n =>
    if n = 0 then []
    else if k ≤ off then subPieces t (off - k) n
    else (a + off, min n (k - off)) :: subPieces t 0 (n - min n (k - off))

/-- Read pieces of device memory, internal addresses. -/
def Bench.gather (n : BenchId) (ecc : Ecc) : List (Nat × Nat) → Bench → DevRead × Bench
  | [], b => ({ data := [], first := none, bad := 0 }, b)
  | (a, k) :: t, b =>
    let r := b.devRead ecc (k / 64 + 2) (a - benchBase n) k
    let q := Bench.gather n ecc t r.2
    ({ data := r.1.data ++ q.1.data, first := if r.1.first.isSome then r.1.first.map (· + benchBase n) else q.1.first
       bad := r.1.bad + q.1.bad }, q.2)
/-- Write bytes over pieces of device memory. -/
def Bench.scatter (n : BenchId) (ecc : Ecc) : List (Nat × Nat) → List Byte → Bench → Bench
  | [], _, b => b
  | (a, k) :: t, l, b => Bench.scatter n ecc t (l.drop k) (b.devWrite (a - benchBase n) (l.take k) ecc)
/-- Write bytes over pieces of host memory. -/
def Bench.scatterHost (h : Hub) (c : Claim) (ep : Bool) (cmd : Nat) : List (Nat × Nat) → List Byte → Bench → Bench
  | [], _, b => b
  | (a, k) :: t, l, b => Bench.scatterHost h c ep cmd t (l.drop k) (Bench.hostWrite h b c a (l.take k) ep (some cmd))

/-! ## The checks at a command's start (R398) -/

/-- Check 1: reserved fields, refused encodings, LENGTH, fields that must be 0 (R393 to R397). [DEDUCED, log 60, unsafe] -/
def HaulCmd.badCommand (c : HaulCmd) : Bool :=
  let w := c.word
  let reserved := bit (w 0) 3 || getBits (w 0) 18 14 ≠ 0 || getBits (w 1) 21 11 ≠ 0 || getBits (w 6) 25 7 ≠ 0 || w 9 ≠ 0
  let size := fun (k : Nat) => if k < 4 then poolSize k else 65536
  let room := c.total + (if bit c.dstAddr 3 then 152 else 0)
  reserved || 2 < c.op || 1 < c.srcSpace || c.dstSpace = 3 || c.len = 0 || 1048576 < c.len || (c.csumEn && c.len < c.csumStart) ||
    (c.op = 0 && c.srcHost && c.dstHost) ||
    (c.op = 2 && (c.srcAddr ≠ 0 || c.srcFrags ≠ 0 || c.srcSpace ≠ 0)) ||
    (c.op = 1 && (c.dstAddr ≠ 0 || c.dstFrags ≠ 0 || c.dstSpace ≠ 0 || c.crcEn || c.csumEn || c.srcSpace ≠ 0)) ||
    (c.newBuf && (4 < getBits c.dstAddr 0 3 || c.dstAddr / 16 ≠ 0 || c.dstFrags ≠ 0 || size (getBits c.dstAddr 0 3) < room))

/-- Has the command a host side? -/
def HaulCmd.host (c : HaulCmd) : Bool := c.srcHost || c.dstHost

/-- The device ranges that the block names: single pieces and tables. -/
def HaulCmd.ranges (c : HaulCmd) : List (Nat × Nat) :=
  (if c.op = 2 || c.srcHost then [] else [(c.srcAddr, if c.srcFrags = 0 then c.len else 16 * c.srcFrags)]) ++
    (if c.op = 1 || c.dstSpace ≠ 0 then [] else [(c.dstAddr, if c.dstFrags = 0 then c.total else 16 * c.dstFrags)])

/-- Check 3: the first device range outside the regions. A READ_CHECK must be aligned, and so must a table. -/
def Bench.badRange (b : Bench) (n : BenchId) (c : HaulCmd) (l : List (Nat × Nat)) : Option Nat :=
  (l.find? (fun x => match ownOffset n x.1 with
    | some a => !b.regionOk (c.op = 1) a x.2
    | none => true)).map (·.1)
/-- [DEDUCED, log 60, unsafe] -/
def HaulCmd.misaligned (c : HaulCmd) : Option Nat :=
  if c.op = 1 && (c.srcAddr % 64 ≠ 0 || c.len % 64 ≠ 0) then some c.srcAddr
  else if c.srcFrags ≠ 0 && c.srcAddr % 16 ≠ 0 then some c.srcAddr
  else if c.dstFrags ≠ 0 && c.dstAddr % 16 ≠ 0 then some c.dstAddr else none

/-- Check 4: a domain that the command touches is DRAINING or off (R402). -/
def Bench.domainDown (b : Bench) (n : BenchId) (l : List (Nat × Nat)) : Bool :=
  b.power.st = .draining || l.any (fun x => benchBase n + dramBase ≤ x.1 && !b.dramUp)

/-- Entries of a fragment table. -/
def fragEntries (lenBits : Nat) (l : List Byte) (k : Nat) : List (Nat × Nat) :=
  (List.range k).map (fun i => (leNat (slice l (16 * i) 8), getBits (leNat (slice l (16 * i + 8) 4)) 0 lenBits))
/-- Reserved bits of a fragment table's entries. -/
def fragReserved (l : List Byte) (k : Nat) : Bool :=
  (List.range k).any (fun i => leNat (slice l (16 * i + 8) 8) / 2 ^ 21 ≠ 0)

/-- A command ends with a status. -/
def Bench.cmdFail (b : Bench) (id status errAddr : Nat) : Bench :=
  b.updCmd id (fun k => { k with
    started := true, status := some status, errAddr := if k.errAddr = 0 then errAddr else k.errAddr, chunks := [] })

/-- Check 5, once both sides are known: sums, empty fragments, addresses (R394, R398). A frame's table answers FRAG_BAD. -/
def Bench.sumsCheck (b : Bench) (n : BenchId) (c : HaulCmd) : Bench :=
  let sum := fun (l : List (Nat × Nat)) => (l.map (·.2)).sum
  let empty := fun (l : List (Nat × Nat)) => l.any (fun x => x.2 = 0 || 1048576 < x.2)
  let badSrc := c.op ≠ 2 && c.srcFrags ≠ 0 && (empty c.src || sum c.src ≠ c.len)
  let badDst := c.dstFrags ≠ 0 && (empty c.dst || sum c.dst ≠ c.total)
  if badSrc || badDst then b.cmdFail c.id (if c.frameIn then 0x9D else hsBadCommand) 0
  else
    let dev := (if c.srcFrags ≠ 0 && !c.srcHost then c.src else []) ++ (if c.dstFrags ≠ 0 && c.dstSpace = 0 then c.dst else [])
    match b.badRange n c dev with
    | some a => (b.isolation n a).cmdFail c.id hsBadAddress a
    | none => if 6 ≤ c.chan && b.domainDown n dev then b.cmdFail c.id hsDomainDown 0 else b

/-- A fragment table's bytes are there: its entries become the side's pieces. -/
def HaulCmd.putTable (c : HaulCmd) (dst : Bool) (l : List Byte) : HaulCmd :=
  let bits := if c.frameIn then 14 else 21
  if dst then { c with dst := fragEntries bits l c.dstFrags } else { c with src := fragEntries bits l c.srcFrags }

/-- Read one side's table (R394): in device memory now, in host memory by requests of the read engine. [DESIGN CHOICE, log 61, unsafe] -/
def Bench.readTable (n : BenchId) (ecc : Ecc) (id : Nat) (dst : Bool) (b : Bench) : Bench :=
  match b.haul.cmds.find? (fun k => k.id = id) with
  | none => b
  | some c =>
    let frags := if dst then c.dstFrags else c.srcFrags
    let addr := if dst then c.dstAddr else c.srcAddr
    let host := if dst then c.dstHost else c.srcHost
    if frags = 0 || c.status.isSome then b
    else if host then b.updCmd id (fun k => { k with tabs := k.tabs ++ [(dst, 0, [])] })
    else
      let r := Bench.gather n ecc [(addr, 16 * frags)] b
      match r.1.first with
      | some a => r.2.cmdFail id hsSrcEcc a
      | none =>
        if fragReserved r.1.data frags then r.2.cmdFail id hsBadCommand 0
        else r.2.updCmd id (fun k => k.putTable dst r.1.data)

/-- Check 5 follows once both tables are there. -/
def Bench.tablesIn (b : Bench) (n : BenchId) (id : Nat) : Bench :=
  match b.haul.cmds.find? (fun k => k.id = id) with
  | some k => if k.tabs.isEmpty && k.status.isNone then b.sumsCheck n k else b
  | none => b

/-- A command starts: checks 1 to 4, then the tables, then check 5. A host side whose function may not master ends at once
(R347, R403). [DEDUCED, log 60, unsafe; DESIGN CHOICE, log 61, unsafe] -/
def Bench.startCmd (n : BenchId) (h : Hub) (ecc : Ecc) (c : HaulCmd) (b : Bench) : Bench :=
  let src := if c.op = 2 || c.srcFrags ≠ 0 then [] else [(c.srcAddr, c.len)]
  let dst := if c.op = 1 || c.dstSpace = 2 || c.dstFrags ≠ 0 then [] else [(c.dstAddr, c.total)]
  let b := b.updCmd c.id (fun k => { k with started := true, src := src, dst := dst })
  let out := b.badRange n c c.ranges
  let active := (b.claim? c.claim).filter (fun k => k.st = 1)
  if 6 ≤ c.chan && c.badCommand then b.cmdFail c.id hsBadCommand 0
  else if c.host && 6 ≤ c.chan && (!c.claimEn || active.isNone) then b.cmdFail c.id hsNoClaim 0
  else if 6 ≤ c.chan && out.isSome then (b.isolation n (out.getD 0)).cmdFail c.id hsBadAddress (out.getD 0)
  else if 6 ≤ c.chan && c.misaligned.isSome then b.cmdFail c.id hsBadAddress (c.misaligned.getD 0)
  else if 6 ≤ c.chan && b.domainDown n c.ranges then b.cmdFail c.id hsDomainDown 0
  else if c.host && 6 ≤ c.chan && !(active.map h.masters).getD false then b.cmdFail c.id 0x90 0
  else
    let b := if c.overlaps then b.tick T.HAUL_OVERLAP else b
    ((Bench.readTable n ecc c.id true (Bench.readTable n ecc c.id false b))).tablesIn n c.id

/-- The next command of a channel that may start: the first that has not, with fewer than 4 in flight, behind a FENCE only
when every earlier one has completed (R399). -/
def Bench.nextStart (b : Bench) (c : Nat) : Option HaulCmd :=
  let l := b.chanCmds c
  match l.find? (fun k => !k.started) with
  | none => none
  | some k =>
    let busy := (l.filter (·.started)).length
    if 4 ≤ busy || (k.fence && busy ≠ 0) then none else some k

/-- HAUL_COMMAND_START: the command at the head of channel `c` is checked and starts. -/
def execHaulCommandStart (n : BenchId) (c : Nat) (ecc : Ecc) (s : State) : Host.Outcome State Fault Refusal :=
  s.onLive n (fun h b =>
    match b.nextStart c with
    | some k => (h, (Bench.startCmd n h ecc k b).countHaul c)
    | none => (h, b))

/-! ## The read engine (R391, R392, R399 to R401) -/

/-- The next chunk's logical offset and length, before source pieces and request sizes cut it. -/
def HaulCmd.nextChunk (c : HaulCmd) : Nat × Nat :=
  if c.descending then
    let rem := c.len - c.rd
    let off := (rem - 1) / 256 * 256
    (off, rem - off)
  else (c.rd, min (256 - c.rd % 256) (c.len - c.rd))

/-- Keep the source bytes that the running checks need, in source order. -/
def HaulCmd.keep (c : HaulCmd) (l : List Byte) : HaulCmd :=
  if c.crcEn || c.csumEn then { c with all := if c.descending then l ++ c.all else c.all ++ l } else c

/-- Stage a chunk of bytes at hand. -/
def Bench.stage (b : Bench) (id off : Nat) (l : List Byte) (bad errAddr : Nat) : Bench :=
  b.updCmd id (fun k =>
    let x : Chunk := { off := off, len := l.length, data := some l, bad := bad }
    { k with rd := k.rd + l.length, chunks := k.chunks ++ [x], errAddr := if k.errAddr = 0 then errAddr else k.errAddr })

/-- The packet that a channel-0 command fetches gets its buffers (R249): a host-face packet of LEN bytes. [DESIGN CHOICE, log 61, unsafe] -/
def Bench.fetchPkt (b : Bench) (c : HaulCmd) : Option Nat × Bench :=
  match c.pid with
  | some p => (some p, b)
  | none =>
    if 8 ≤ b.hostEntries then (none, b)
    else
      match b.allocPacket .haulR false c.len c.len 1 with
      | (none, b) => (none, b)
      | (some hd, b) =>
        let id := b.nextPid
        match b.rings.sends.find? (fun d => d.cmd = some c.id) with
        | none => (none, b.freeChain hd)
        | some d =>
          let p := Pkt.fresh id .receiving 0 hd 128 c.len
          let p : Pkt := { p with ring := some d.ring, tx := { p.tx with capture := d.capture, tag := d.tag } }
          let b := (b.addPkt p).updCmd c.id (fun k => { k with pid := some id })
          let sends := b.rings.sends.map (fun (x : SendDesc) => if x.cmd = some c.id then { x with pid := some id } else x)
          (some id, { b with rings := { b.rings with sends := sends } })

/-- Split the bytes asked for into the chunks they will fill. -/
def awaitChunks : Nat → Nat → Nat → List Chunk
  | 0, _, _ => []
  | fuel + 1, off, n =>
    if n = 0 then []
    else
      let k := min n (256 - off % 256)
      { off := off, len := k, data := none, bad := 0 } :: awaitChunks fuel (off + k) (n - k)

/-- Address and size of the host read that a command may ask for next, when one may be issued (R392). -/
def Bench.hostPiece (h : Hub) (b : Bench) (c : HaulCmd) (room : Nat) : Option (Nat × Nat) :=
  match subPieces c.src c.rd (c.len - c.rd), b.claim? c.claim with
  | (a, k) :: _, some cl =>
    let k := firstPiece (min (h.fn cl.fn).mrrsBytes (256 * room - c.rd % 256)) a k
    if k = 0 || !Bench.mayIssue h b c.claim k then none else some (a, k)
  | _, _ => none

/-- A host read of a command is issued; one for a send frame spends its claim's credit (R360). -/
def Bench.issueFor (h : Hub) (b : Bench) (c : HaulCmd) (a k : Nat) (use : ReadFor) : Bench :=
  Bench.issue h (if c.frameIn then b.spendCredit c.claim k else b) c.claim a k use c.retryOk

/-- A host read request of the command (R392). -/
def Bench.requestHost (h : Hub) (b : Bench) (c : HaulCmd) (room : Nat) : Bench :=
  match Bench.hostPiece h b c room with
  | some (a, k) => (Bench.issueFor h b c a k (.data c.id c.rd)).updCmd c.id (fun x =>
      { x with rd := x.rd + k, chunks := x.chunks ++ awaitChunks (k / 256 + 2) c.rd k })
  | none => b

/-- Address and size of the next piece of a fragment table in host memory, when it may be asked for; pieces are asked for one after the
other. [DESIGN CHOICE, log 61, unsafe] -/
def Bench.tablePiece (h : Hub) (b : Bench) (c : HaulCmd) : Option (Nat × Nat) :=
  match c.tabs, b.claim? c.claim with
  | (dst, req, got) :: _, some cl =>
    let addr := if dst then c.dstAddr else c.srcAddr
    let k := firstPiece (h.fn cl.fn).mrrsBytes (addr + req) (16 * (if dst then c.dstFrags else c.srcFrags) - req)
    if req ≠ got.length || !Bench.mayIssue h b c.claim k then none else some (addr + req, k)
  | _, _ => none

/-- A request for the next piece of a fragment table in host memory. -/
def Bench.requestTable (h : Hub) (b : Bench) (c : HaulCmd) : Bench :=
  match c.tabs, Bench.tablePiece h b c with
  | (dst, req, got) :: t, some (a, k) => (Bench.issueFor h b c a k (.table c.id dst req)).updCmd c.id (fun x =>
      { x with tabs := (dst, req + k, got) :: t })
  | _, _ => b

/-- One request of the read engine for a command. -/
def Bench.readRequest (n : BenchId) (h : Hub) (ecc : Ecc) (c : HaulCmd) (b : Bench) : Bench :=
  let room := b.mayStage c.chan
  let x := c.nextChunk
  if !c.tabs.isEmpty then Bench.requestTable h b c
  else if c.op = 1 then
    let r := Bench.gather n ecc (subPieces c.src x.1 x.2) b
    r.2.updCmd c.id (fun k =>
      { k with
        rd := k.rd + x.2, wr := k.wr + x.2, eccWords := k.eccWords + r.1.bad
        errAddr := if k.errAddr = 0 then r.1.first.getD 0 else k.errAddr })
  else if room = 0 then b
  else if c.op = 2 then b.stage c.id x.1 (List.replicate x.2 0#8) 0 0
  else if c.frameOut then
    match c.pid.bind b.pkt? with
    | some p =>
      if b.chainUnc p.handle ecc then (b.pktbufEcc p.handle).stage c.id x.1 (b.pktBytes p x.1 x.2) hsSrcEcc 0
      else (b.pktbufCor ecc).stage c.id x.1 (b.pktBytes p x.1 x.2) 0 0
    | none => b
  else if c.srcHost then
    if c.frameIn then
      match b.fetchPkt c with
      | (some _, b) => Bench.requestHost h b c room
      | (none, b) => b
    else Bench.requestHost h b c room
  else
    let r := Bench.gather n ecc (subPieces c.src x.1 x.2) b
    r.2.stage c.id x.1 r.1.data (if r.1.first.isSome then hsSrcEcc else 0) (r.1.first.getD 0)

/-- The command whose request is next: in queue order, the first that still has source bytes to ask for. -/
def Bench.nextRead (b : Bench) (c : Nat) : Option HaulCmd :=
  match (b.chanCmds c).find? (fun k => !(k.status.isSome || k.len ≤ k.rd)) with
  | some k =>
    if k.started && !(k.serial && !k.chunks.isEmpty) && !k.chunks.any (fun x => x.bad ≠ 0) then some k else none
  | none => none

/-- Does the next command of a channel wait for a chunk of the staging buffer (R391)? -/
def Bench.waitsChunk (b : Bench) (c : Nat) : Bool :=
  match b.nextRead c with
  | some k => k.tabs.isEmpty && k.op ≠ 1 && b.mayStage c = 0
  | none => false

/-- Has a channel a request ready (R392)? -/
def Bench.readReady (h : Hub) (b : Bench) (c : Nat) : Bool :=
  match b.nextRead c with
  | some k =>
    if !k.tabs.isEmpty then (Bench.tablePiece h b k).isSome
    else k.op = 1 || (b.mayStage c ≠ 0 &&
      (!k.srcHost || ((Bench.hostPiece h b k (b.mayStage c)).isSome && (!k.frameIn || k.pid.isSome || b.hostEntries < 8))))
  | none => false

/-- The channel whose turn it is: the first that is ready, from the one after the last served (R392). -/
def turnOf (ready : Nat → Bool) (last : Nat) : Option Nat := ((List.range 64).map (fun k => (last + 1 + k) % 64)).find? ready

/-- HAUL_READ_REQUEST: the read engine grants channel `c` one request, when its turn has come. -/
def execHaulReadRequest (n : BenchId) (c : Nat) (ecc : Ecc) (s : State) : Host.Outcome State Fault Refusal :=
  s.onLive n (fun h b =>
    match b.nextRead c with
    | some k =>
      if turnOf (Bench.readReady h b) b.haul.rdTurn = some c then
        (h, (Bench.readRequest n h ecc k { b with haul := { b.haul with rdTurn := c } }).countHaul c)
      else (h, b)
    | none => (h, b))

/-! ## The write engine (R395, R397, R399, R401) -/

/-- CRC_OUT (R397). -/
def HaulCmd.crcOut (c : HaulCmd) : Nat := Nat.xor (crc32c (c.word 7) c.all) 0xFFFFFFFF
/-- CSUM_OUT (R397). -/
def HaulCmd.csumOut (c : HaulCmd) : Nat := 65535 - foldSum (onesSum (c.all.drop c.csumStart) c.csumSeed)
/-- The destination bytes after the last copied byte. -/
def HaulCmd.trailer (c : HaulCmd) : List Byte :=
  (if c.crcEn then leBytes 4 c.crcOut else []) ++ (if c.csumEn then beBytes 2 c.csumOut else [])

/-- A host packet's bytes are in its buffers: it is presented at its 128th byte or its last, and its status is good at its
last, when a frame that was sent cut-through goes on (R71, R95, R99). `total` is the length of the frame as it was fetched. -/
def Bench.presentHost (b : Bench) (p : Pkt) (wr total : Nat) : Bench :=
  let b := if min 128 total ≤ wr then b.presentHeader p else b
  if total ≤ wr then (b.endStatus p.id 0).goOnAll else b

/-- Write bytes at logical offset `off` of the destination. The bytes of a packet keep the places in which they arrive, whatever an edit
does to its start; the rest of a packet that is gone is dropped (R72). -/
def Bench.writeDst (n : BenchId) (h : Hub) (ecc : Ecc) (c : HaulCmd) (off : Nat) (l : List Byte) (ep : Bool) (b : Bench) : Bench :=
  if c.frameIn then
    match c.pid.bind b.pkt? with
    | some p => (if p.loc = .gone then b else b.setChain p.handle (128 + off) l).presentHost p (off + l.length) c.len
    | none => b
  else if c.dstHost then
    match b.claim? c.claim with
    | some cl => Bench.scatterHost h cl ep c.id (subPieces c.dst off l.length) l b
    | none => b
  else if c.newBuf then b.setBytes (b.bufAddr c.handle + (if bit c.dstAddr 3 then 128 else 0) + off) l
  else Bench.scatter n ecc (subPieces c.dst off l.length) l b

/-- The buffer of a NEW_BUFFER command (R395): allocated at its first chunk. -/
def Bench.newBuffer (b : Bench) (c : HaulCmd) (ecc : Ecc) : Option HaulCmd × Bench :=
  if !c.newBuf || c.handle ≠ 0 then (some c, b)
  else
    match b.alloc .haulW (getBits c.dstAddr 0 3) c.owner ecc with
    | (some hd, b) => (some { c with handle := hd }, b.updCmd c.id (fun k => { k with handle := hd }))
    | (none, b) => (none, b.cmdFail c.id hsNoBuffer 0)

/-- The packet of a failed fetch is spoiled under the code (R343, R377). -/
def Bench.frameFail (b : Bench) (c : HaulCmd) (code : Nat) : Bench :=
  match c.pid with
  | some p => (b.endStatus p code).goOnAll
  | none =>
    match b.rings.sends.find? (fun d => d.cmd = some c.id) with
    | some d => (b.spoilTick code 0).sendDone 4 d code Stamp.none
    | none => b

/-- The chunk at the head of a command's staging is written, or ends the command (R401). -/
def Bench.writeChunk (n : BenchId) (h : Hub) (ecc : Ecc) (c : HaulCmd) (x : Chunk) (b : Bench) : Hub × Bench :=
  if ecc.unc 0x9000000 0x9040000 then
    let a := ((ecc.find? (fun e => 0x9000000 ≤ e.1 && e.1 < 0x9040000 && e.2)).map (·.1)).getD 0x9000000
    (h, ((b.setFld R.haul_HAUL_ECC_LOG_CHUNK ((a - 0x9000000) / 256)).raise 38).cmdFail c.id hsStageEcc 0)
  else
    let b := b.correctable 6 (ecc.cor 0x9000000 0x9040000)
    if x.bad ≠ 0 then
      if x.bad = hsSrcEcc && c.dstHost then
        let h := match b.claim? c.claim with | some cl => h.tickLink T.POISON_TX cl.fn | none => h
        (h, (Bench.writeDst n h ecc c x.off (x.data.getD []) true b).cmdFail c.id hsSrcEcc 0)
      else (h, b.cmdFail c.id x.bad 0)
    else
      match b.newBuffer c ecc with
      | (none, b) => (h, b)
      | (some c, b) =>
        let l := x.data.getD []
        let last := c.wr + l.length = c.len
        let c := c.keep l
        let b := Bench.writeDst n h ecc c x.off l false b
        let b := if last && !c.trailer.isEmpty then Bench.writeDst n h ecc c c.len c.trailer false b else b
        (h, b.updCmd c.id (fun k =>
          { k with
            all := c.all, wr := k.wr + l.length + (if last then c.trailer.length else 0), chunks := k.chunks.tail }))

/-- The command whose chunk is written next: every write of a command lands before any of the next (R399). -/
def Bench.nextWrite (b : Bench) (c : Nat) : Option (HaulCmd × Chunk) :=
  match (b.chanCmds c).find? (fun k => k.status.isNone && k.wr < k.total) with
  | some k =>
    match k.chunks with
    | x :: _ => if x.bad ≠ 0 || x.data.isSome then some (k, x) else none
    | [] => none
  | none => none

/-- HAUL_WRITE_CHUNK: the write engine takes the next chunk of channel `c`, when its turn has come. -/
def execHaulWriteChunk (n : BenchId) (c : Nat) (ecc : Ecc) (s : State) : Host.Outcome State Fault Refusal :=
  s.onLive n (fun h b =>
    match b.nextWrite c with
    | some (k, x) =>
      if turnOf (fun d => (b.nextWrite d).isSome) b.haul.wrTurn = some c then
        let r := Bench.writeChunk n h ecc k x { b with haul := { b.haul with wrTurn := c } }
        (r.1, r.2.countHaul c)
      else (h, b)
    | none => (h, b))

/-! ## Completion (R393, R404, R462) -/

/-- The status a finished command ends with; none while it is not done: its last write is not done before its TLPs have
been sent (R465). -/
def Bench.doneStatus (b : Bench) (c : HaulCmd) : Option Nat :=
  match c.status with
  | some s => some s
  | none =>
    if !c.started || c.wr < c.total || (6 ≤ c.chan && b.tlps.any (fun t => t.cmd = some c.id)) then none
    else some (if c.op = 1 && c.eccWords ≠ 0 then hsCheckEcc else 0)

/-- The result area (R393): words 10 to 15 of the block. The checks are stored only by a command that ends without error. -/
def HaulCmd.result (c : HaulCmd) (status : Nat) : List Nat :=
  [if c.crcEn && status = 0 then c.crcOut else 0, if c.csumEn && status = 0 then c.csumOut else 0, c.errAddr % 2 ^ 32,
    c.errAddr / 2 ^ 32, c.handle, c.eccWords]

/-- Bytes of a core's memory at which thread `i`'s slice starts (R271). -/
def sliceAddr (i : Nat) : Nat := 0x8000000 + 0x20000 * (i / 8) + 0x4000 * (i % 8)

/-- The result area goes to the slice of an HSUB's thread, or to HAUL_RESULT (R393, R405). -/
def Bench.putResult (b : Bench) (c : HaulCmd) (status : Nat) : Bench :=
  let l := c.result status
  if c.chan = 6 then
    (List.range 6).foldl (fun b w => b.setReg (R.haul_HAUL_RESULT w) (BitVec.ofNat 32 (l.getD w 0))) b
  else
    match c.ticket with
    | some (i, _) => b.setBytes (sliceAddr i + c.blk + 40) (l.flatMap (leBytes 4))
    | none => b

/-- COLOUR of a receive completion (R380): green when unmetered. -/
def Pkt.colour (p : Pkt) : Nat := if p.tm.meter.isSome then p.tm.colour else 0
/-- The receive completion of a packet written to a ring (R380, R382). [DEDUCED, log 62, safe] -/
def Bench.recvDone (b : Bench) (p : Pkt) (d : RecvDesc) (status written : Nat) : Bench :=
  let w5 := d.ring + 2 ^ 16 * status + 2 ^ 24 * p.colour + (if written < p.dataLen then 2 ^ 26 else 0) +
    (if p.oversize then 2 ^ 27 else 0)
  b.postCpl 5 (b.ringCq d.ring)
    (p.ts.words ++ [p.mark % 2 ^ 32, written + 2 ^ 16 * d.index, w5, (p.fv.getD 80 0#8).toNat, 0])

/-- A packet that the write engine delivered, or could not (R377, R382, R404). The STATUS of a receive completion whose packet
met an uncorrectable error in the packet buffer (R263, R401) is not stated: a free value. [DEDUCED, log 62, safe] -/
def Bench.deliverDone (b : Bench) (c : HaulCmd) (status : Nat) : Bench :=
  match c.pid.bind b.pkt? with
  | some p =>
    let d : RecvDesc := { ring := c.word 8, index := c.word 9, addr := 0, len := 0 }
    if status = 0 then (b.recvDone p d 0 c.len).endPkt p 0 Stamp.none
    else if status = hsSrcEcc then
      let r := b.takeFree
      (r.2.recvDone p d (r.1.toNat % 256) c.wr).endPkt p 0 Stamp.none
    else b.discard p status
  | none => b

/-- The first command of a channel ends: results, tallies, and its completion in the collector; a hardware channel's work
ends at once. -/
def Bench.endCmd (b : Bench) (c : HaulCmd) (status : Nat) : Bench :=
  let b := (b.tallyCmd c.chan status c.wr).putResult c status
  if 6 ≤ c.chan then b.updCmd c.id (fun k => { k with ended := true, status := some status, chunks := [] })
  else
    let b := { b with haul := { b.haul with cmds := b.haul.cmds.filter (fun k => k.id ≠ c.id) } }
    if c.frameIn then (if status = 0 then b else b.frameFail c status) else b.deliverDone c status

/-- Outstanding reads of a command serve nobody any more (R344, R345). -/
def Bench.killReads (b : Bench) (id : Nat) : Bench :=
  { b with reads := b.reads.map (fun (r : HostRead) =>
    match r.use with
    | .data c _ | .table c _ _ => if c = id then { r with dead := true } else r
    | _ => r) }

/-- Words of the command block that fetches a send descriptor's frame: COPY from the host under the ring's claim, RETRY_OK. -/
def Bench.fetchWords (b : Bench) (d : SendDesc) : List Nat :=
  [0x10 + 0x400, d.len, d.addr % 2 ^ 32, d.addr / 2 ^ 32, 0, 0, d.frags + 2 ^ 16 * b.ringClaim d.ring + 2 ^ 24, 0, 0, 0]

/-- Send descriptors that wait for a place on channel 0 take one, in order (R377, R390). -/
def Bench.feedSends : Nat → Bench → Bench
  | 0, b => b
  | fuel + 1, b =>
    if 16 ≤ (b.chanCmds 0).length then b
    else
      match b.rings.sends.find? (fun d => d.cmd.isNone) with
      | none => b
      | some d =>
        let id := b.haul.nextId
        let b := b.queueCmd 0 1 none 0 (b.fetchWords d) none
        let sends := b.rings.sends.map (fun (x : SendDesc) => if x = d then { x with cmd := some id } else x)
        Bench.feedSends fuel { b with rings := { b.rings with sends := sends } }

/-- Thread `i`, which waits on its HSUB, tries it (R285, R390): a channel it may not use ends its ticket at once with NOT_OWNER; a
full queue keeps it waiting. [DESIGN CHOICE, log 56, unsafe] -/
def Bench.hsubTry (b : Bench) (i : Nat) : Bench :=
  let t := b.thr i
  let w := b.le (0x7000000 + 4 * t.pc) 4
  let rd := getBits w 21 5
  let blk := (t.greg (getBits w 16 5)).toNat
  let words := (List.range 10).map (fun j => b.le (sliceAddr i + blk + 4 * j) 4)
  let chan := getBits (words.getD 0 0) 12 6
  match t.freeTicket with
  | none => b.unblock i [(rd, BitVec.ofNat 64 (2 ^ 63))]
  | some k =>
    let tk : Ticket := { kind := 2, addr := 0, slot := blk, done := none, ecc := false }
    let own := 8 ≤ chan && b.flag (R.haul_HAUL_CH_CFG_EN (chan - 8)) && b.fld (R.haul_HAUL_CH_CFG_CORE (chan - 8)) = i / 8
    if !own then
      ((b.tick (T.HAUL_STATUS hsNotOwner)).updThr i (fun t => t.putTicket k { tk with done := some (hsNotOwner, 0) })).unblock i
        [(rd, BitVec.ofNat 64 k)]
    else if 16 ≤ (b.chanCmds chan).length then b
    else ((b.updThr i (fun t => t.putTicket k tk)).queueCmd chan (0x10 + i / 8) (some (i, k)) blk words none).unblock i
        [(rd, BitVec.ofNat 64 k)]
/-- Threads whose HSUB waits for a place try it, in the order in which they blocked. -/
def Bench.feedHsubs (b : Bench) : Bench := b.eng.blocked.foldl (fun b i => if (b.thr i).wait = .hsub then b.hsubTry i else b) b

/-- The oldest command of a channel, if it is done, ends. -/
def Bench.finishCmd (b : Bench) (c : Nat) : Bench :=
  match (b.chanCmds c).head? with
  | none => b
  | some k =>
    match b.doneStatus k with
    | none => b
    | some st => ((((b.killReads k.id).endCmd k st).countHaul c).feedSends 16).feedHsubs

/-- HAUL_COMMAND_DONE (R404, R465). -/
def execHaulCommandDone (n : BenchId) (c : Nat) (s : State) : Host.Outcome State Fault Refusal :=
  s.onBench n (fun b => (b.finishCmd c).pump)

/-- The collector slot of a command's completion (R462). -/
def HaulCmd.slot (c : HaulCmd) : Nat := if c.chan < 8 then 7 + c.chan else 14 + (c.owner - 0x10)

/-- The completions that stand in collector slot `x`, oldest first: ring completions, then commands. -/
def Bench.slotBusy (b : Bench) (x : Nat) : Bool :=
  b.rings.cpls.any (fun c => !c.out && c.slot = x) || b.haul.cmds.any (fun c => c.ended && c.slot = x)

/-! ## Bytes that arrive from the host -/

/-- Fill the awaited chunks from logical offset `off` on. -/
def fillChunks (off : Nat) (l : List Byte) (cs : List Chunk) : List Chunk :=
  cs.map (fun (x : Chunk) =>
    if off ≤ x.off && x.off + x.len ≤ off + l.length then { x with data := some ((l.drop (x.off - off)).take x.len) } else x)
/-- The chunks that a failed read fed bring their command its status. -/
def spoilChunks (off n code : Nat) (cs : List Chunk) : List Chunk :=
  cs.map (fun (x : Chunk) => if off ≤ x.off && x.off < off + n then { x with bad := code } else x)

/-- A piece of a fragment table arrives. -/
def Bench.tableIn (b : Bench) (n : BenchId) (id : Nat) (dst : Bool) (l : List Byte) : Bench :=
  match b.haul.cmds.find? (fun k => k.id = id) with
  | none => b
  | some c =>
    match c.tabs.find? (fun t => t.1 = dst) with
    | none => b
    | some (_, req, got) =>
      let frags := if dst then c.dstFrags else c.srcFrags
      let all := got ++ l
      let rest := c.tabs.filter (fun t => t.1 ≠ dst)
      if all.length < 16 * frags then b.updCmd id (fun k => { k with tabs := (dst, req, all) :: rest })
      else if 6 ≤ c.chan && fragReserved all frags then b.cmdFail id hsBadCommand 0
      else (b.updCmd id (fun k => { k.putTable dst all with tabs := rest })).tablesIn n id

/-- A haul command's completion is delivered: to its ticket (R277), or to HAUL_STATUS and HAUL_COUNT (R405, R406). -/
def Bench.deliverCmd (b : Bench) (c : HaulCmd) : Bench :=
  let b := { b with haul := { b.haul with cmds := b.haul.cmds.filter (fun k => k.id ≠ c.id) } }
  let st := c.status.getD 0
  if c.chan = 6 then
    (b.setReg R.haul_HAUL_COUNT (BitVec.ofNat 32 c.wr)).postStatus R.haul_HAUL_STATUS (2 * st) 16 16
  else
    match c.ticket with
    | some (i, t) => b.endTicket i t st c.wr false
    | none => b

/-- The collector drains the next occupied slot after the last drained. -/
def Bench.collect (b : Bench) : Bench :=
  match ((List.range 24).map (fun k => (b.haul.turn + 1 + k) % 24)).find? b.slotBusy with
  | none => b
  | some x =>
    let b := { b with haul := { b.haul with turn := x } }
    match b.rings.cpls.find? (fun c => !c.out && c.slot = x) with
    | some c =>
      let pre := b.rings.cpls.takeWhile (fun y => y.out || y.slot ≠ x)
      let post := (b.rings.cpls.dropWhile (fun y => y.out || y.slot ≠ x)).tail
      { b with rings := { b.rings with cpls := pre.filter (·.out) ++ { c with out := true } :: (pre.filter (fun y => !y.out) ++ post) } }
    | none =>
      match b.haul.cmds.find? (fun c => c.ended && c.slot = x) with
      | some c => b.deliverCmd c
      | none => b

/-- COLLECTOR_EXIT (R404, R462). -/
def execCollectorExit (n : BenchId) (s : State) : Host.Outcome State Fault Refusal :=
  s.onBench n (fun b => b.collect.pump)

end Sys2Proof.Machine
end

