-- ==== Sys2Proof/Machine/Rings.lean ====
section
/-! DEFINITION. Claims and rings (R358 to R389): doorbells, descriptor fetches, the host delivery queue's writes, completions,
quiesce and claim reset, and the hardware's side of the claim and ring commands. -/
namespace Sys2Proof.Machine

/-! ## Work and backpressure (R360, R378) -/

/-- The rings of a claim. -/
def Claim.rings (c : Claim) : List Nat := (List.range c.ringCount).map (· + c.ringBase)
/-- Does a ring lie in a claim's range? -/
def Claim.owns (c : Claim) (r : Nat) : Bool := c.ringBase ≤ r && r < c.ringBase + c.ringCount
/-- Is a fetch of the ring's descriptors under way? -/
def Bench.fetching (b : Bench) (r : Nat) : Bool := b.rings.fetches.any (fun f => f.ring = r)
/-- Descriptors that the ring's positions and FETCH_MAX let the fetcher take, not across the ring's end (R377, R381). -/
def Bench.wants (b : Bench) (r : Nat) : Nat :=
  let cap := if b.ringKind r = 2 then b.ringFetchMax r - b.ringHeld r else b.ringFetchMax r
  let cache := if b.ringKind r = 2 then 16384 - b.rings.recvs.length else cap
  if b.ringState r ≠ 2 || b.ringCpl r || b.ringKind r = 0 || b.fetching r then 0
  else min (min cap cache) (min (b.ringCount r).toNat (b.ringN r - b.devIndex r))
/-- What R378 lets the fetcher add to a completion ring. A ring that is STOPPED or in ERROR writes none to host memory (R383). [DESIGN CHOICE, log 63, unsafe] -/
def Bench.cqRoom (b : Bench) (q : Nat) : Nat :=
  (if b.ringState q = 2 then b.ringFree q else 0) + (64 - b.ringOvf q) - b.ringOwed q

/-- The completion rings that hold back fetches: a ring bound to one has work and no room (R378). A bench that is DRAINING fetches
nothing (R47). -/
def Bench.holding (b : Bench) : List Nat :=
  (b.rings.claims.flatMap (fun c => if b.power.st = .running && c.2.st = 1 then
      (c.2.rings.filter (fun r => b.wants r ≠ 0 && b.cqRoom (b.ringCq r) = 0)).map b.ringCq else [])).eraseDups

/-- Judge the completion rings again: one that begins to hold back raises event 37 (R378, R387). -/
def Bench.judgeHeld (b : Bench) : Bench :=
  let now := b.holding
  let fresh := now.filter (fun q => !b.rings.held.contains q)
  let b := { b with rings := { b.rings with held := now } }.setFld R.ring_BACKPRESSURE_ACTIVE (if now.isEmpty then 0 else 1)
  fresh.foldl (fun b q => (b.setFld R.ring_BACKPRESSURE_CQ q).raise 37) b

/-- RX_CACHE (R386). -/
def Bench.countCache (b : Bench) : Bench :=
  let k := b.rings.recvs.length
  let b := b.setFld R.ring_RX_CACHE_OCCUPANCY k
  if b.fld R.ring_RX_CACHE_HWM < k then b.setFld R.ring_RX_CACHE_HWM k else b

/-! ## Completions (R378 to R380) -/

/-- Completions written since the ring was armed. -/
def Bench.sinceArm (b : Bench) (q : Nat) : Nat := sparseGet noCount b.rings.cqCount q
def Bench.setSince (b : Bench) (q k : Nat) : Bench :=
  { b with rings := { b.rings with cqCount := sparseSet noCount b.rings.cqCount q k } }

/-- A completion ring raises its vector and is no longer armed; a vector beyond its function's table is the fault VECTOR
(R379, R383). -/
def cqRaise (n : BenchId) (h : Hub) (b : Bench) (q : Nat) : Hub × Bench :=
  let b := (b.setMbits (ringAddr q) 208 1 0).setSince q 0
  match b.claim? (b.ringClaim q) with
  | none => (h, b)
  | some c =>
    if h.tableSize c.fn ≤ b.ringVector q then (h, b.ringError q 3) else benchVector n h b c.fn (b.ringVector q)

/-- The first condition of R379: INT_COUNT completions since it was armed. [DEDUCED, log 64, unsafe] -/
def cqJudge (n : BenchId) (h : Hub) (b : Bench) (q : Nat) : Hub × Bench :=
  if b.ringArmed q && b.sinceArm q ≠ 0 && b.ringIntCount q ≤ b.sinceArm q then cqRaise n h b q else (h, b)

/-- The bytes of a completion, with its PHASE (R371, R380, R385). -/
def Bench.cqeBytes (b : Bench) (q : Nat) (words : List Nat) : List Byte :=
  if b.ringKind q = 5 then ((words.take 3) ++ [words.getD 3 0 + 2 ^ 16 * b.devLap q]).flatMap (leBytes 4)
  else ((words.take 7) ++ [words.getD 7 0 + 2 ^ 31 * b.devLap q]).flatMap (leBytes 4)

/-- Write a completion to its ring in host memory, in one TLP. -/
def cqWrite (n : BenchId) (h : Hub) (b : Bench) (q : Nat) (words : List Nat) : Hub × Bench :=
  match b.claim? (b.ringClaim q) with
  | none => (h, b)
  | some c =>
    let a := b.ringBase q + entrySize (b.ringKind q) * b.devIndex q
    let b := (Bench.hostWrite h b c a (b.cqeBytes q words) false none).devAdvance q 1
    cqJudge n h (b.setSince q (b.sinceArm q + 1)) q

/-- Bench offset of an overflow entry (R378): the area of 64 entries at the ring's OVF_SLOT. -/
def Bench.ovfAddr (b : Bench) (q i : Nat) : Nat := 0x9040000 + 2048 * b.ringOvfSlot q + 32 * i
/-- The words of an overflow entry. -/
def Bench.ovfWords (b : Bench) (q i : Nat) : List Nat := (List.range 8).map (fun w => b.le (b.ovfAddr q i + 4 * w) 4)
/-- Put an overflow entry. -/
def Bench.ovfPut (b : Bench) (q i : Nat) (words : List Nat) : Bench :=
  b.setBytes (b.ovfAddr q i) ((List.range 8).flatMap (fun w => leBytes 4 (words.getD w 0)))

/-- Overflow entries are written first, in order, while the ring runs and has free entries. -/
def cqDrain (n : BenchId) (q : Nat) : Nat → Hub → Bench → Hub × Bench
  | 0, h, b => (h, b)
  | fuel + 1, h, b =>
    if b.ringOvf q = 0 || b.ringState q ≠ 2 || b.ringFree q = 0 then (h, b)
    else
      let k := b.ringOvf q
      let first := b.ovfWords q 0
      let b := (List.range (k - 1)).foldl (fun b i => b.ovfPut q i (b.ovfWords q (i + 1))) b
      let r := cqWrite n h ((b.ovfPut q (k - 1) []).setMbits (ringAddr q) 209 7 (k - 1)) q first
      cqDrain n q fuel r.1 r.2

/-- The oldest completion that has left the collector is written: to its ring, or to its overflow area (R378). It waits
where both are full; one whose ring is gone is discarded. -/
def cplNext (n : BenchId) (h : Hub) (b : Bench) : Hub × Bench :=
  match b.rings.cpls.find? (·.out) with
  | none => (h, b)
  | some c =>
    let q := c.cq
    let rest := (b.rings.cpls.takeWhile (fun x => !x.out)) ++ (b.rings.cpls.dropWhile (fun x => !x.out)).tail
    let taken := ({ b with rings := { b.rings with cpls := rest } }.addOwed q (-1)).tallyCmd 2 0 (entrySize (b.ringKind q))
    if !b.ringCpl q then (h, ({ b with rings := { b.rings with cpls := rest } }.addOwed q (-1)).tick T.CPL_DISCARDED)
    else if b.ringState q = 2 && 0 < b.ringFree q && b.ringOvf q = 0 then cqWrite n h taken q c.words
    else if b.ringOvf q < 64 then (h, (taken.ovfPut q (b.ringOvf q) c.words).setMbits (ringAddr q) 209 7 (b.ringOvf q + 1))
    else (h, b)

/-- COMPLETION_WRITE (R378, R380). -/
def execCompletionWrite (n : BenchId) (s : State) : Host.Outcome State Fault Refusal :=
  s.onLive n (fun h b =>
    let r := cplNext n h b
    (r.1, r.2.judgeHeld))

/-- CQ_INT_TIMER: INT_USEC after the first completion since it was armed (R379). -/
def execCqIntTimer (n : BenchId) (q : Nat) (s : State) : Host.Outcome State Fault Refusal :=
  s.onLive n (fun h b =>
    if b.ringCpl q && b.ringArmed q && b.sinceArm q ≠ 0 && b.ringHeld q ≠ 0 then cqRaise n h b q else (h, b))

/-! ## Doorbells (R372 to R374) -/

/-- The lowest bits of a doorbell word. -/
def dbIndex (v : Nat) : Nat := getBits v 0 16
def dbLap (v : Nat) : Nat := getBits v 16 1
def dbArm (v : Nat) : Bool := bit v 17

/-- Does a host position break R370 (R374)? -/
def Bench.badDoorbell (b : Bench) (r idx lap : Nat) : Bool :=
  let n := b.ringN r
  let c := if b.ringCpl r then countOf n false (b.devIndex r) (b.devLap r) idx lap
    else countOf n false idx lap (b.devIndex r) (b.devLap r)
  n ≤ idx || c < 0 || (n : Int) < c

/-- The host's position of a ring is set; a completion ring drains its overflow area and may be armed (R372, R378, R379). -/
def ringDoorbell (n : BenchId) (h : Hub) (b : Bench) (r idx lap : Nat) (arm : Bool) : Hub × Bench :=
  let b := (b.setMbits (ringAddr r) 128 16 idx).setMbits (ringAddr r) 144 1 lap
  if b.ringCpl r then
    let q := cqDrain n r 64 h b
    if arm then
      let b := (q.2.setMbits (ringAddr r) 208 1 1).setSince r (q.2.ringCount r).toNat
      cqJudge n q.1 b r
    else q
  else (h, b)

/-- A doorbell to a ring of the bench that passed R373. [DEDUCED, log 64, unsafe] -/
def doorbell (n : BenchId) (h : Hub) (b : Bench) (r v : Nat) : Hub × Bench :=
  if b.badDoorbell r (dbIndex v) (dbLap v) then
    let b := (b.setMbits (ringAddr r) 128 16 (dbIndex v)).setMbits (ringAddr r) 144 1 (dbLap v)
    (h, if b.ringState r = 1 || b.ringState r = 2 then b.ringError r 1 else b)
  else ringDoorbell n h b r (dbIndex v) (dbLap v) (dbArm v)

/-- A window-table entry in force (R337): two words. -/
def Hub.winEntry (h : Hub) (o : Nat) : Nat := (h.reg o).toNat + 2 ^ 32 * (h.reg (o + 4)).toNat
/-- Hub offset of control entry `j` of a function. -/
def ctlEntryAt (key j : Nat) : Nat :=
  0x300000 + 0x100000 * fnPort key + (if fnVf key then 0x20000 + 8 * fnIdx key else 0x10000 + 8192 * fnIdx key + 8 * j)
/-- Hub offset of doorbell entry `j` of a function. -/
def dbEntryAt (key j : Nat) : Nat :=
  0x300000 + 0x100000 * fnPort key + (if fnVf key then 0x30000 + 32 * fnIdx key + 8 * j else 0x24000 + 256 * fnIdx key + 8 * j)

/-- A doorbell write that is taken no notice of (R373). [DEDUCED, log 64, unsafe] -/
def dbMiss (key : Nat) (h : Hub) (b : Bench) : Hub × Bench := (h.logAdvisory key aerUnsupported, b.tick T.DOORBELL_MISS)

/-- A doorbell write of `size` bytes at `off` of a doorbell page, from a function, with the PASID it carries. An NVMe ring
answers no slot (R419). -/
def dbWrite (n : BenchId) (key : Nat) (pasid : Option Nat) (base off size v : Nat) (h : Hub) (b : Bench) : Hub × Bench :=
  let r := base + off / 8
  if !((size = 8 || size = 4) && off % 8 = 0) then dbMiss key h b
  else if b.ringKind r = 0 || b.ringNvme r then dbMiss key h b
  else
    match b.claim? (b.ringClaim r) with
    | none => dbMiss key h b
    | some c =>
      if c.fn ≠ key || !c.owns r || (pasid.isSome && pasid ≠ c.pasid) then dbMiss key h b
      else
        let q := doorbell n h b r (if size = 4 then v % 2 ^ 32 else v)
        (q.1, q.2.judgeHeld)

/-- An access to a bench that is not RUNNING (R49). -/
def Hub.offAccess (h : Hub) (n : BenchId) : Hub := h.tick (T.BENCH_OFF_ACCESS n.val)

/-! ## Fetches (R360, R377, R378) -/

/-- Descriptors that one read takes now: what the ring wants and its completion ring allows, in one read of the function's
Max_Read_Request_Size that crosses no 4 KiB boundary. [DESIGN CHOICE, log 63, unsafe] -/
def Bench.fetchCount (h : Hub) (b : Bench) (c : Claim) (r : Nat) : Nat :=
  let sz := entrySize (b.ringKind r)
  let a := b.ringBase r + sz * b.devIndex r
  min (min (b.wants r) (b.cqRoom (b.ringCq r))) (min ((h.fn c.fn).mrrsBytes / sz) ((4096 - a % 4096) / sz))

/-- May ring `r` of a claim be fetched now? `nvme` selects the emulation's fetcher (R420), whose channel 4 must have room. -/
def Bench.ready (h : Hub) (b : Bench) (nvme : Bool) (i : Nat) (c : Claim) (r : Nat) : Bool :=
  let k := Bench.fetchCount h b c r
  c.st = 1 && (b.ringKind r = 4) = nvme && k ≠ 0 && Bench.mayIssue h b i (k * entrySize (b.ringKind r)) &&
    (!nvme || (!b.sto.shed && (b.chMsgs 4).length + b.sto.msgs.length + k ≤ 256))

/-- The ring of a claim to be served next: ascending, from the one after the last served (R360). -/
def Bench.nextRing (h : Hub) (b : Bench) (nvme : Bool) (i : Nat) (c : Claim) : Option Nat :=
  let last := sparseGet noCount b.rings.lastRing i
  let l := c.rings.filter (Bench.ready h b nvme i c)
  match l.find? (fun r => last < r) with
  | some r => some r
  | none => l.head?

/-- A claim with work ready: its index, its next ring, what the read costs, and at which visit of the rounds it can pay. -/
structure Bid where
  claim : Nat
  ring : Nat
  cost : Nat
  quantum : Nat
  dist : Nat                -- claims from the last served, 1 to 256
  visit : Nat               -- 256 × (round − 1) + dist; 0: the claim last served can still pay
deriving DecidableEq, Repr

/-- The bids of the claims with work ready (R360). [DESIGN CHOICE, log 63, unsafe] -/
def Bench.bids (h : Hub) (b : Bench) (nvme : Bool) : List Bid :=
  b.rings.claims.filterMap (fun x =>
    (Bench.nextRing h b nvme x.1 x.2).map (fun r =>
      let cost := Bench.fetchCount h b x.2 r * entrySize (b.ringKind r)
      let q := max 1 (x.2.weight * 256)
      let dist := if x.1 = b.rings.lastClaim then 256 else (x.1 + 256 - b.rings.lastClaim) % 256
      let short := ((cost : Int) - b.creditOf x.1).toNat
      let rounds := max 1 ((short + q - 1) / q)
      { claim := x.1, ring := r, cost := cost, quantum := q, dist := dist
        visit := if dist = 256 && short = 0 then 0 else 256 * (rounds - 1) + dist }))

/-- The bid that is served first. -/
def bestBid : List Bid → Option Bid
  | [] => none
  | x :: t => match bestBid t with
    | some y => if y.visit < x.visit then some y else some x
    | none => some x

/-- Visits that a claim at distance `d` has had once visit `v` is reached. -/
def visitsBy (v d : Nat) : Nat := if v < d then 0 else (v - d) / 256 + 1

/-- The fetcher serves one claim by deficit round robin and asks for its descriptors (R360, R377, R378). -/
def Bench.fetchNext (h : Hub) (nvme : Bool) (b : Bench) : Bench :=
  let l := Bench.bids h b nvme
  match bestBid l with
  | none => b
  | some w =>
    let b := l.foldl (fun b x => b.setCredit x.claim (b.creditOf x.claim + ((visitsBy w.visit x.dist * x.quantum : Nat) : Int))) b
    let b := b.spendCredit w.claim w.cost
    let r := w.ring
    let sz := entrySize (b.ringKind r)
    let k := w.cost / sz
    let b := Bench.issue h b w.claim (b.ringBase r + sz * b.devIndex r) w.cost (.desc r) true
    let f : Fetch := { ring := r, count := k, size := sz, got := none, again := false, waiting := false }
    let g : RingSt := { b.rings with
      fetches := b.rings.fetches ++ [f], lastClaim := w.claim, lastRing := sparseSet noCount b.rings.lastRing w.claim r }
    { b with rings := g }.addOwed (b.ringCq r) k

/-- RING_FETCH (R360, R377, R378). A DRAINING bench fetches nothing (R47). -/
def execRingFetch (n : BenchId) (s : State) : Host.Outcome State Fault Refusal :=
  s.onLive n (fun h b => (h, if b.power.st = .running then (Bench.fetchNext h false b).judgeHeld else b))

/-- NVME_SQ_FETCH (R420). -/
def execNvmeSqFetch (n : BenchId) (s : State) : Host.Outcome State Fault Refusal :=
  s.onLive n (fun h b =>
    (h, if b.power.st = .running && (bestBid (Bench.bids h b true)).isSome then
        (Bench.fetchNext h true b).judgeHeld
      else b))

/-! ## Descriptors arrive (R371, R375, R376, R381) -/

/-- PHASE of a descriptor (R375, R381); NVMe entries carry none. -/
def descPhase (size : Nat) (d : List Byte) : Nat := getBits (leNat (slice d (size - 4) 4)) 31 1
/-- How many descriptors stand before the first whose PHASE differs from the device's lap. -/
def goodDescs (size lap : Nat) : Nat → List Byte → Nat
  | 0, _ => 0
  | k + 1, l => if descPhase size (l.take size) = lap then goodDescs size lap k (l.drop size) + 1 else 0

/-- A send descriptor is taken (R375, R376): one whose LEN is out of range is completed with DESC_BAD. -/
def Bench.takeSend (b : Bench) (r : Nat) (d : List Byte) : Bench :=
  let w2 := leNat (slice d 8 4)
  let x : SendDesc := { ring := r, index := b.devIndex r, lap := b.devLap r, addr := leNat (slice d 0 8), len := getBits w2 0 14
                        frags := getBits w2 16 8, user := leNat (slice d 12 4), capture := bit w2 24
                        tag := leNat (slice d 16 2), cmd := none, pid := none }
  let b := (b.devAdvance r 1).setMbits (ringAddr r) 192 16 (b.ringHeld r + 1)
  let b := { b with rings := { b.rings with sends := b.rings.sends ++ [x] } }
  if x.len < 14 || 9724 < x.len then (b.spoilTick 0x9A 0).sendDone 4 x 0x9A Stamp.none else b

/-- A receive completion without a packet: a descriptor returned under a code (R364, R381). -/
def Bench.returnRecv (b : Bench) (d : RecvDesc) (code : Nat) : Bench :=
  (b.spoilTick code 0).postCpl 5 (b.ringCq d.ring) [0, 0, 0, 0, 2 ^ 16 * d.index, d.ring + 2 ^ 16 * code, 0, 0]

/-- A receive descriptor is taken into the cache, or returned when its buffer is too short (R381). -/
def Bench.takeRecv (b : Bench) (r : Nat) (d : List Byte) : Bench :=
  let x : RecvDesc := { ring := r, index := b.devIndex r, addr := leNat (slice d 0 8), len := leNat (slice d 8 2) }
  let b := b.devAdvance r 1
  if x.len < 64 then b.returnRecv x 0x9A
  else
    let g : RingSt := { b.rings with recvs := b.rings.recvs ++ [x] }
    ({ b with rings := g }.setMbits (ringAddr r) 192 16 (b.ringHeld r + 1)).countCache

/-- The NVMe messages that wait enter channel 4 while it holds fewer than 256 (R420). -/
def Bench.feedStorage : Nat → Bench → Bench
  | 0, b => b
  | fuel + 1, b =>
    match b.sto.msgs with
    | [] => b
    | m :: t =>
      if 256 ≤ (b.chMsgs 4).length then b
      else Bench.feedStorage fuel (({ b with sto := { b.sto with msgs := t } }.setChMsgs 4 (b.chMsgs 4 ++ [m])).chHwm 4)
/-- A message for channel 4. -/
def Bench.storageMsg (b : Bench) (m : List DWord) : Bench :=
  Bench.feedStorage 256 { b with sto := { b.sto with msgs := b.sto.msgs ++ [m] } }

/-- Word 0 of a STORAGE_CMD message (R420). -/
def storageWord (kind claim ring qid : Nat) : DWord := BitVec.ofNat 64 (kind + 2 ^ 8 * claim + 2 ^ 16 * ring + 2 ^ 32 * qid)

/-- A submission entry is delivered as a message of 10 words (R420). -/
def Bench.takeNvme (b : Bench) (r : Nat) (d : List Byte) : Bench :=
  let c := b.ringClaim r
  let qid := ((b.claim? c).map (fun k => (r - k.ringBase) / 2)).getD 0
  (b.devAdvance r 1).storageMsg (storageWord 0 c r qid :: 0#64 :: packWords d 8)

/-- One descriptor of a ring, by its kind. -/
def Bench.takeDesc (b : Bench) (r : Nat) (d : List Byte) : Bench :=
  if b.ringKind r = 1 then b.takeSend r d else if b.ringKind r = 2 then b.takeRecv r d else b.takeNvme r d

/-- Take `k` descriptors. -/
def Bench.takeDescs (r size : Nat) : Nat → List Byte → Bench → Bench
  | 0, _, b => b
  | k + 1, l, b => Bench.takeDescs r size k (l.drop size) (b.takeDesc r (l.take size))

/-- The fetch of a ring has its bytes: descriptors are phase-checked and taken; those from a mismatch on are fetched once
more, and a mismatch then puts the ring in ERROR (R371). [DEDUCED, log 64, unsafe] -/
def Bench.descArrive (b : Bench) (f : Fetch) (l : List Byte) : Bench :=
  let r := f.ring
  let b := { b with rings := { b.rings with fetches := b.rings.fetches.filter (· ≠ f) } }
  let good := if b.ringKind r = 4 then f.count else goodDescs f.size (b.devLap r) f.count l
  let left := f.count - good
  let b := if f.again && 0 < good then b.tick T.DESC_PHASE_RETRY else b
  let b := Bench.takeDescs r f.size good l b
  if left = 0 then b
  else if f.again then ((b.spoilTick 0x9B 0).addOwed (b.ringCq r) (-(left : Int))).ringError r 2
  else
    let g : Fetch := { f with count := left, got := none, again := true, waiting := true }
    { b with rings := { b.rings with fetches := b.rings.fetches ++ [g] } }

/-- DESC_ARRIVE: the descriptors that a read of ring `r` brought reach the fetcher. -/
def execDescArrive (n : BenchId) (r : Nat) (s : State) : Host.Outcome State Fault Refusal :=
  s.onBench n (fun b =>
    match b.rings.fetches.find? (fun f => f.ring = r) with
    | some f =>
      match f.got with
      | some l => (((b.descArrive f l).feedSends 16).judgeHeld).pump
      | none => b
    | none => b)

/-- May a ring still be fetched: its bench RUNNING, its claim ACTIVE, itself RUNNING (R47, R364, R383)? -/
def Bench.fetchable (b : Bench) (r : Nat) : Bool :=
  b.power.st = .running && b.ringState r = 2 && (match b.claim? (b.ringClaim r) with | some c => c.st = 1 | none => false)

/-- A fetch is given up: its descriptors stay the host's, and are owed no completion (R378). -/
def Bench.dropFetch (b : Bench) (f : Fetch) : Bench :=
  { b with rings := { b.rings with fetches := b.rings.fetches.filter (· ≠ f) } }.addOwed (b.ringCq f.ring) (-(f.count : Int))

/-- DESC_REFETCH: 1 µs after the mismatch the descriptors of ring `r` are asked for once more (R371), unless the ring's fetching has stopped
since. [DEDUCED, log 140, unsafe] -/
def execDescRefetch (n : BenchId) (r : Nat) (s : State) : Host.Outcome State Fault Refusal :=
  s.onLive n (fun h b =>
    match b.rings.fetches.find? (fun f => f.ring = r && f.waiting) with
    | some f =>
      let i := b.ringClaim r
      if !b.fetchable r then (h, b.dropFetch f)
      else if Bench.mayIssue h b i (f.count * f.size) then
        let b := Bench.issue h b i (b.ringBase r + f.size * b.devIndex r) (f.count * f.size) (.desc r) true
        let fs := b.rings.fetches.map (fun (x : Fetch) => if x = f then { x with waiting := false } else x)
        (h, { b with rings := { b.rings with fetches := fs } }.spendCredit i (f.count * f.size))
      else (h, b)
    | none => (h, b))

/-! ## The host delivery queue (R216, R382) -/

/-- The receive ring of a packet: its action's DEST, or its mirror session's. -/
def Pkt.recvRing (p : Pkt) : Nat := if p.mirrorOf.isSome then p.tm.queue else acDest p.act
/-- Bytes of a packet that are delivered: without FCS, a mirror copy no more than TRUNC less its FCS. [DEDUCED, log 105, unsafe] -/
def Pkt.deliverLen (p : Pkt) : Nat := if p.trunc = 0 then p.dataLen else min (p.trunc - 4) p.dataLen

/-- The words of the block that moves a packet to a receive descriptor's buffer; words 8 and 9 keep ring and index. -/
def Bench.deliverWords (b : Bench) (d : RecvDesc) (k : Nat) : List Nat :=
  [0x40, k, 0, 0, d.addr % 2 ^ 32, d.addr / 2 ^ 32, 2 ^ 16 * b.ringClaim d.ring + 2 ^ 24, 0, d.ring, d.index]

/-- The head of the host delivery queue is taken, or discarded at its ring. -/
def Bench.deliver (h : Hub) (b : Bench) (p : Pkt) : Bench :=
  let r := p.recvRing
  let lost := match b.claim? (b.ringClaim r) with
    | some c => decide (h.fld (R.ep_LINK_STATUS_STATE (fnPort c.fn) (h.linkOf c.fn % 2)) < 2)
    | none => false
  if b.ringKind r ≠ 2 then b.discard p 0x99
  else if lost then b.discard p 0x94
  else if b.ringState r ≠ 2 then b.discard p 0x99
  else
    match b.rings.recvs.find? (fun d => d.ring = r) with
    | none => b.discard p 0x98
    | some d =>
      let k := min d.len p.deliverLen
      let b := if k < p.deliverLen then b.tick T.RX_TRUNCATED else b
      let b := { b with rings := { b.rings with recvs := b.rings.recvs.filter (· ≠ d) } }
      let b := (b.setMbits (ringAddr r) 192 16 (b.ringHeld r - 1)).countCache
      let b := { b with tm := { b.tm with hostQ := b.tm.hostQ.filter (· ≠ p.id) } }.countQueues
      (b.updPkt p.id (fun k => { k with loc := .delivering })).queueCmd 1 1 none 0 (b.deliverWords d k) (some p.id)

/-- HOST_DELIVERY_TAKE: the haul write engine takes the head of the host delivery queue once its end status and verdict are
known good (R216). -/
def execHostDeliveryTake (n : BenchId) (s : State) : Host.Outcome State Fault Refusal :=
  s.onLive n (fun h b =>
    match b.tm.hostQ.head?.bind b.pkt? with
    | some p =>
      if !p.ended || p.verdictPending || !p.fix.isEmpty || 16 ≤ (b.chanCmds 1).length then (h, b) else (h, Bench.deliver h b p)
    | none => (h, b))

/-! ## Work that ends with its claim or function (R347, R365, R383) -/

/-- A read whose TLP has not been sent. -/
def Bench.unsent (b : Bench) (r : HostRead) : Bool := b.tlps.any (fun t => t.kind = .read && t.fn = r.fn && t.tag = r.tag)

/-- The reads of claims end: those not sent are forgotten, and so is every other when tags are freed; else their data will be
discarded (R344, R347, R349). -/
def Bench.endReads (b : Bench) (cs : List Nat) (freeTags : Bool) : Bench :=
  { b with reads := b.reads.filterMap (fun (r : HostRead) =>
    if !cs.contains r.claim then some r
    else if freeTags || b.unsent r then none else some { r with dead := true }) }

/-- Discard the completions of a set of rings, in the collector and in the overflow areas (R365, R378). [DEDUCED, log 66, unsafe] -/
def Bench.dropCpls (b : Bench) (owns : Nat → Bool) (rings : List Nat) : Bench :=
  let k := (b.rings.cpls.filter (fun c => owns c.cq)).length
  let b := { b with rings := { b.rings with cpls := b.rings.cpls.filter (fun c => !owns c.cq) } }.count T.CPL_DISCARDED k
  rings.foldl (fun b r => if b.ringCpl r then
      ((b.count T.CPL_DISCARDED (b.ringOvf r)).setMbits (ringAddr r) 209 7 0).addOwed r (-(b.ringOwed r : Int))
    else b) b

/-- The vectors of a claim's completion rings. -/
def Bench.vectorsOf (b : Bench) (c : Claim) : List Nat := (c.rings.filter b.ringCpl).map b.ringVector

/-- Packets in the host delivery queue that are bound for a set of receive rings are discarded under RING_STOPPED (R365). -/
def Bench.dropBound (b : Bench) (owns : Nat → Bool) : Bench :=
  (b.tm.hostQ.filterMap b.pkt?).foldl (fun b p => if owns p.recvRing then b.discard p 0x99 else b) b

/-- Is a send descriptor's frame still to be fetched, by a command that ends with the claim's code? -/
def Bench.frameCmd (b : Bench) (d : SendDesc) : Bool := d.pid.isSome && (b.chanCmds 0).any (fun k => d.cmd = some k.id)

/-- Everything of a set of claims that is in flight ends under a code, and their rings are STOPPED (R347, R365, R383). [DEDUCED, log 66, unsafe] -/
def Bench.endClaims (b : Bench) (cs : List Nat) (code : Nat) (freeTags : Bool) : Bench :=
  let l := b.rings.claims.filter (fun c => cs.contains c.1)
  let owns := fun r => l.any (fun c => c.2.owns r)
  let rings := l.flatMap (fun c => c.2.rings.filter (fun r => b.ringKind r ≠ 0))
  let b := b.endReads cs freeTags
  let mine := fun (t : Tlp) => t.kind ≠ .completion && l.any (fun c => c.2.fn = t.fn &&
    (if t.kind = .interrupt then (b.vectorsOf c.2).contains t.tag else c.2.pasid = t.pasid))
  let b := { b with tlps := b.tlps.filter (fun t => !mine t) }
  let b := b.haul.cmds.foldl (fun b c =>
    if c.host && c.status.isNone && cs.contains c.claim && (c.chan < 6 || c.started) then b.cmdFail c.id code 0 else b) b
  let b := b.rings.sends.foldl (fun b d => if owns d.ring && !b.frameCmd d then b.spoilTick code 0 else b) b
  let b := if code = 0x9E then b.dropBound owns else b
  let g : RingSt := { b.rings with
    fetches := b.rings.fetches.filter (fun f => !owns f.ring)
    sends := b.rings.sends.filter (fun d => !owns d.ring)
    recvs := b.rings.recvs.filter (fun d => !owns d.ring) }
  let b := ({ b with rings := g }.dropCpls owns rings).countCache
  (rings.foldl (fun b r =>
    let b := b.setRingState r 1
    if b.ringCpl r then b else b.setMbits (ringAddr r) 192 16 0) b).judgeHeld

/-- The claims of a bench that a function holds. -/
def Bench.claimsOf (b : Bench) (key : Nat) : List Nat := (b.rings.claims.filter (fun c => c.2.fn = key)).map (·.1)

/-! ## Quiesce and claim reset (R363 to R365) -/

/-- Is a descriptor fetch of the claim under way? -/
def Bench.fetchesOf (b : Bench) (c : Claim) : Bool := b.rings.fetches.any (fun f => c.owns f.ring)

/-- Is a claim drained (R364)? -/
def Bench.claimDrained (b : Bench) (i : Nat) (c : Claim) : Bool :=
  !b.rings.sends.any (fun d => c.owns d.ring) && !b.rings.recvs.any (fun d => c.owns d.ring) &&
    !b.rings.cpls.any (fun x => c.owns x.cq) && !b.fetchesOf c && b.tagsOut i = 0 &&
    c.rings.all (fun r => !b.ringCpl r || b.ringOvf r = 0) && !b.haul.cmds.any (fun k => k.host && k.claim = i && k.started)

/-- A claim is QUIESCED: its rings are STOPPED, its function's owner is told, and the command that waits for it ends
(R364, R490). [DEDUCED, log 49, unsafe] -/
def claimQuiesced (n : BenchId) (i : Nat) (h : Hub) (b : Bench) : Hub × Bench :=
  match b.claim? i with
  | none => (h, b)
  | some c =>
    let b := (c.rings.filter (fun r => b.ringKind r ≠ 0)).foldl (fun b r => b.setRingState r 1) b
    let b := b.updClaim i (fun c => { c with st := 3, resetting := false })
    let d := 256 * n.val + i
    let h := match h.pfMailbox c.fn with | some m => h.notice m 5 d | none => h
    let h := (h.sceuneOf 0x061 d ++ h.sceuneOf 0x063 d).foldl (fun h x => h.sceuneEnd x 0 [] 0) h
    (h, b)

/-- Receive descriptors of a quiescing claim that are still unused are returned once its last send packet has completed
(R364). -/
def Bench.returnRecvs (b : Bench) (c : Claim) : Bench :=
  if b.rings.sends.any (fun d => c.owns d.ring) || b.fetchesOf c then b
  else
    let l := b.rings.recvs.filter (fun d => c.owns d.ring)
    let g : RingSt := { b.rings with recvs := b.rings.recvs.filter (fun d => !c.owns d.ring) }
    (l.foldl (fun (b : Bench) d => (b.setMbits (ringAddr d.ring) 192 16 (b.ringHeld d.ring - 1)).returnRecv d 0x9C)
      { b with rings := g }).countCache

/-- CLAIM_DRAINED: what R364 asks of a QUIESCING claim, judged now. [DEDUCED, log 66, unsafe] -/
def execClaimDrained (n : BenchId) (i : Nat) (s : State) : Host.Outcome State Fault Refusal :=
  s.onLive n (fun h b =>
    match b.claim? i with
    | some c =>
      if c.st = 2 && !c.resetting then
        let b := b.returnRecvs c
        if b.claimDrained i c then claimQuiesced n i h b else (h, b)
      else (h, b)
    | none => (h, b))

/-- A claim reset begins (R365): its pending interrupts go, its work ends under CLAIM_RESET, and its rings will need
RESET_INDEX. -/
def resetClaim (i : Nat) (h : Hub) (b : Bench) : Hub × Bench :=
  match b.claim? i with
  | none => (h, b)
  | some c =>
    let rings := c.rings.filter (fun r => b.ringKind r ≠ 0)
    let vecs := b.vectorsOf c
    let f := h.fn c.fn
    (h.setFn c.fn { f with pend := f.pend.filter (fun v => !vecs.contains v.1) }, (b.endClaims [i] 0x9E false).updClaim i (fun c =>
      { c with st := if c.st = 3 then 3 else 2, resetting := true, mustReset := rings }))

/-- QUIESCE_LIMIT_EXPIRED: a claim still QUIESCING is reset (R363, R365). -/
def execQuiesceLimitExpired (n : BenchId) (i : Nat) (s : State) : Host.Outcome State Fault Refusal :=
  s.onLive n (fun h b =>
    match b.claim? i with
    | some c => if c.st = 2 && !c.resetting then resetClaim i h b else (h, b)
    | none => (h, b))

/-- CLAIM_RESET_DONE: within 2 ms the claim is QUIESCED (R365). -/
def execClaimResetDone (n : BenchId) (i : Nat) (s : State) : Host.Outcome State Fault Refusal :=
  s.onLive n (fun h b =>
    match b.claim? i with
    | some c => if c.resetting then claimQuiesced n i h b else (h, b)
    | none => (h, b))

end Sys2Proof.Machine
end

