-- ==== Sys2Proof/Machine/Claims.lean ====
section
/-! DEFINITION. The hardware's side of the claim and ring commands of R362 and R383: what each changes, and the return code of
R485 with which a refused one ends. -/
namespace Sys2Proof.Machine

/-- The return codes of R485. -/
def rcOk : Nat := 0
def rcBadOpcode : Nat := 1
def rcBadLength : Nat := 2
def rcBadOperand : Nat := 3
def rcNotPermitted : Nat := 4
def rcCollided : Nat := 5
def rcWrongState : Nat := 6
def rcNoResource : Nat := 7
def rcNotPresent : Nat := 8
def rcImageBad : Nat := 9
def rcHwRefused : Nat := 10
def rcHostError : Nat := 11
def rcAuthFail : Nat := 12
def rcExists : Nat := 13
def rcNotFound : Nat := 14
def rcTimeout : Nat := 15

/-- What a command answers: its return code, its result words, the hub and the bench. -/
structure CmdOut where
  code : Nat
  res : List Nat
  hub : Hub
  bench : Bench
  wait : Bool               -- it goes on until an event ends it
deriving DecidableEq, Repr

/-- A command that ends with a code and changes nothing. -/
def CmdOut.refuse (code : Nat) (h : Hub) (b : Bench) : CmdOut := { code := code, res := [], hub := h, bench := b, wait := false }
/-- A command that is done. -/
def CmdOut.done (h : Hub) (b : Bench) : CmdOut := { code := 0, res := [], hub := h, bench := b, wait := false }

/-! ## CLAIM_CREATE (R358, R359, R361, R362) -/

/-- The rings of a profile (R367): 16,384 in gang-saw, 4,096 in chisel. -/
def profileRings (profile : Nat) : Nat := if profile = 1 then 4096 else 16384

/-- Does a function exist: an enabled PF, or a VF below the sum of TOTAL_VFS? -/
def Hub.fnExists (h : Hub) (key : Nat) : Bool :=
  match h.pfOf key with
  | some f => h.flag (R.ep_FN_CFG_ENABLE (fnPort key) f)
  | none => false

/-- Does the pair of function and PASID break R359: a VF with a claim, or a pair that names one already? -/
def Hub.pairTaken (h : Hub) (key : Nat) (pasid : Option Nat) : Bool :=
  h.fw.mbx.any (fun x => 16 ≤ x.1 && x.2.live && x.2.fn = key && (fnVf key || x.2.pasid = pasid))

/-- Do two ranges overlap? -/
def rangesMeet (a n b m : Nat) : Bool := a < b + m && b < a + n

/-- The claim index that a new claim gets: the spec does not say which free one. [DESIGN CHOICE, log 98, safe] -/
def Bench.freeClaim (b : Bench) : Option Nat := b.anyOf ((List.range 256).filter (fun i => (b.claim? i).isNone))

/-- Hub offset of the SELF page (R472). -/
def selfPage : Nat := 0x100000

/-- Put a window-table entry, in the shadow and in force (R338). -/
def Hub.setWin (h : Hub) (o v : Nat) : Hub :=
  let h := (h.setReg o (BitVec.ofNat 32 v)).setReg (o + 4) (BitVec.ofNat 32 (v / 2 ^ 32))
  { h with shadow := sparseSet hubRegReset (sparseSet hubRegReset h.shadow o (BitVec.ofNat 32 v)) (o + 4) (BitVec.ofNat 32 (v / 2 ^ 32)) }

/-- The windows of a VF: its control page and the doorbell pages that its rings need (R336, R337, R362). -/
def Hub.vfWindows (h : Hub) (n : BenchId) (key : Nat) (c : Option Claim) : Hub :=
  match c with
  | none => (List.range 4).foldl (fun h j => h.setWin (dbEntryAt key j) 0) (h.setWin (ctlEntryAt key 0) 0)
  | some c =>
    let page := if c.vfPage then benchBase n + dramBase + 65536 * c.pageBase else selfPage
    let h := h.setWin (ctlEntryAt key 0) (3 + page / 65536 * 65536)
    (List.range 4).foldl (fun h j =>
      h.setWin (dbEntryAt key j) (if 512 * j < c.ringCount then 1 + 2 * n.val + 2 ^ 5 * (c.ringBase + 512 * j) else 0)) h

/-- The claim that the operand words of CLAIM_CREATE describe (R487). [DESIGN CHOICE, log 65, unsafe] -/
def claimOf (ops : List Nat) : Claim :=
  let w := fun i => ops.getD i 0
  { st := 1, fn := fnKey (getBits (w 0) 4 1) (bit (w 0) 5) (getBits (w 0) 8 11)
    pasid := if bit (w 1) 20 then some (getBits (w 1) 0 20) else none
    ringBase := getBits (w 2) 0 14, ringCount := getBits (w 2) 16 15, tagLimit := getBits (w 3) 0 11
    weight := getBits (w 3) 16 8, pageBase := getBits (w 4) 0 21, pages := getBits (w 5) 0 22, vfPage := bit (w 0) 19
    limit := 0, resetting := false, mustReset := [] }

/-- Reserved bits and ranges of CLAIM_CREATE's operands. [DESIGN CHOICE, log 65, unsafe] -/
def Bench.claimBad (h : Hub) (b : Bench) (ops : List Nat) : Bool :=
  let w := fun i => ops.getD i 0
  let c := claimOf ops
  getBits (w 0) 6 2 ≠ 0 || getBits (w 0) 20 12 ≠ 0 || getBits (w 1) 21 11 ≠ 0 || getBits (w 2) 14 2 ≠ 0 || bit (w 2) 31 ||
    getBits (w 3) 11 5 ≠ 0 || getBits (w 3) 24 8 ≠ 0 || getBits (w 4) 21 11 ≠ 0 || getBits (w 5) 22 10 ≠ 0 ||
    !h.fnExists c.fn || h.linkOf c.fn ≠ b.power.hostLink || c.tagLimit = 0 || 1024 < c.tagLimit || c.weight = 0 ||
    c.ringCount = 0 || profileRings b.power.profile < c.ringBase + c.ringCount ||
    (c.pages ≠ 0 && (b.capacity / 65536 < c.pageBase + c.pages ||
      rangesMeet c.pageBase c.pages (b.fld R.hopper_DPOOL_BASE_BASE) (b.fld R.hopper_DPOOL_COUNT_COUNT))) ||
    (c.vfPage && (c.pages = 0 || !fnVf c.fn))

/-- CLAIM_CREATE on its bench. [DESIGN CHOICE, log 65, unsafe] -/
def claimCreate (n : BenchId) (ops : List Nat) (h : Hub) (b : Bench) : CmdOut :=
  let c := claimOf ops
  if b.power.st ≠ .running then .refuse rcWrongState h b
  else if Bench.claimBad h b ops then .refuse rcBadOperand h b
  else if h.pairTaken c.fn c.pasid then .refuse rcExists h b
  else if b.rings.claims.any (fun x => rangesMeet c.ringBase c.ringCount x.2.ringBase x.2.ringCount ||
      rangesMeet c.pageBase c.pages x.2.pageBase x.2.pages) then .refuse rcNoResource h b
  else
    match b.freeClaim with
    | none => .refuse rcNoResource h b
    | some i =>
      let d := 256 * n.val + i
      let b := { b.spent with rings := { b.rings with claims := b.rings.claims ++ [(i, c)] } }
      let h := h.setMbx (16 + d) { Mailbox.reset true c.fn c.pasid with fn := c.fn }
      let h := if fnVf c.fn then
          (h.setFld (R.ep_VF_CFG_HOME_BENCH (fnPort c.fn) (fnIdx c.fn)) n.val).vfWindows n c.fn (some c) else h
      { code := 0, res := [d], hub := h, bench := b, wait := false }

/-! ## The other claim commands (R363) -/

/-- A claim command that the matrix of R363 refuses. -/
def claimRefused (h : Hub) (b : Bench) : CmdOut := .refuse rcWrongState h (b.tick T.CLAIM_CMD_REFUSED)

/-- CLAIM_QUIESCE: fetching stops; the command ends at QUIESCED. -/
def claimQuiesce (i limit : Nat) (h : Hub) (b : Bench) : CmdOut :=
  match b.claim? i with
  | none => claimRefused h b
  | some c =>
    if limit = 0 then .refuse rcBadOperand h b
    else if c.st ≠ 1 then claimRefused h b
    else { code := 0, res := [], hub := h, bench := (b.updClaim i (fun c => { c with st := 2, limit := limit })).judgeHeld, wait := true }

/-- CLAIM_RESUME: ACTIVE; its rings stay STOPPED. -/
def claimResume (i : Nat) (h : Hub) (b : Bench) : CmdOut :=
  match b.claim? i with
  | none => claimRefused h b
  | some c => if c.st ≠ 3 then claimRefused h b else .done h (b.updClaim i (fun c => { c with st := 1 }))

/-- CLAIM_RESET: the command ends at QUIESCED. [DESIGN CHOICE, log 65, unsafe] -/
def claimReset (i : Nat) (h : Hub) (b : Bench) : CmdOut :=
  match b.claim? i with
  | none => claimRefused h b
  | some _ =>
    let r := resetClaim i h b
    { code := 0, res := [], hub := r.1, bench := r.2, wait := true }

/-- What the fetcher holds of a ring's descriptors goes, and is owed no completion. -/
def Bench.dropHeld (b : Bench) (r : Nat) : Bench :=
  let k := (b.rings.recvs.filter (fun d => d.ring = r)).length
  let b := (b.rings.fetches.filter (fun f => f.ring = r)).foldl Bench.dropFetch b
  ({ b with rings := { b.rings with recvs := b.rings.recvs.filter (fun d => d.ring ≠ r) } }.addOwed (b.ringCq r) (-(k : Int))).countCache

/-- A ring becomes FREE; what its overflow area held is discarded. [DEDUCED, log 141, unsafe] -/
def Bench.freeRing (b : Bench) (r : Nat) : Bench :=
  let b := if b.ringCpl r then b.count T.CPL_DISCARDED (b.ringOvf r) else b.dropHeld r
  let cs := b.rings.claims.map (fun (x : Nat × Claim) => (x.1, { x.2 with mustReset := x.2.mustReset.filter (· ≠ r) }))
  { b with rings := { b.rings with claims := cs } }.setBytes (ringAddr r) (List.replicate 32 0#8)

/-- CLAIM_REMOVE: rings FREE, a VF's windows disabled, the mailbox and the claim FREE. -/
def claimRemove (n : BenchId) (i : Nat) (h : Hub) (b : Bench) : CmdOut :=
  match b.claim? i with
  | none => claimRefused h b
  | some c =>
    if c.st ≠ 3 then claimRefused h b
    else
      let b := (c.rings.filter (fun r => b.ringKind r ≠ 0)).foldl Bench.freeRing b
      let b := { b with rings := { b.rings with claims := b.rings.claims.filter (fun x => x.1 ≠ i) } }
      let h := h.freeMbx (16 + 256 * n.val + i)
      .done (if fnVf c.fn then h.vfWindows n c.fn none else h) b

/-- CLAIM_SET_SHARE (R360). -/
def claimSetShare (i w : Nat) (h : Hub) (b : Bench) : CmdOut :=
  let t := getBits w 0 11
  let f := getBits w 16 8
  match b.claim? i with
  | none => claimRefused h b
  | some _ =>
    if t = 0 || 1024 < t || f = 0 || getBits w 11 5 ≠ 0 || getBits w 24 8 ≠ 0 then .refuse rcBadOperand h b
    else .done h (b.updClaim i (fun c => { c with tagLimit := t, weight := f })).judgeHeld

/-! ## Rings (R367, R368, R383) -/

/-- A ring command that the matrix of R383 refuses. -/
def ringRefused (h : Hub) (b : Bench) : CmdOut := .refuse rcWrongState h (b.tick T.RING_CMD_REFUSED)

/-- The claim in whose range a ring lies. -/
def Bench.ringOwner (b : Bench) (r : Nat) : Option (Nat × Claim) := b.rings.claims.find? (fun x => x.2.owns r)

/-- The overflow area that a completion ring gets: the spec does not say which free one. [DESIGN CHOICE, log 98, safe] -/
def Bench.freeOvf (b : Bench) : Option Nat :=
  let used := b.rings.claims.flatMap (fun c => (c.2.rings.filter b.ringCpl).map b.ringOvfSlot)
  b.anyOf ((List.range 4096).filter (fun s => !used.contains s))

/-- What R367 and R368 ask of a ring's operands. -/
def Bench.ringBad (h : Hub) (b : Bench) (c : Claim) (ops : List Nat) : Bool :=
  let w := fun i => ops.getD i 0
  let kind := getBits (w 0) 20 4
  let size := getBits (w 0) 24 4
  let q := getBits (w 3) 0 14
  let qsize := getBits (w 4) 16 12
  let nvme := kind = 4 || kind = 5
  kind = 0 || 5 < kind || getBits (w 0) 14 2 ≠ 0 || getBits (w 0) 28 4 ≠ 0 || getBits (w 3) 14 2 ≠ 0 || getBits (w 3) 28 4 ≠ 0 ||
    getBits (w 4) 28 4 ≠ 0 || w 1 % 4096 ≠ 0 || (if nvme then qsize = 0 || size ≠ 0 else qsize ≠ 0 || size < 3) ||
    (if kind = 3 || kind = 5 then h.tableSize c.fn ≤ getBits (w 3) 0 11 || getBits (w 3) 11 3 ≠ 0 || getBits (w 3) 20 8 = 0
     else !c.owns q || b.ringKind q ≠ (if kind = 4 then 5 else 3))

/-- RING_CREATE (R362, R368, R487). -/
def ringCreate (ops : List Nat) (h : Hub) (b : Bench) : CmdOut :=
  let w := fun i => ops.getD i 0
  let r := getBits (w 0) 0 14
  let kind := getBits (w 0) 20 4
  match b.ringOwner r with
  | none => .refuse rcBadOperand h b
  | some (i, c) =>
    if b.ringKind r ≠ 0 then .refuse rcExists h b
    else if Bench.ringBad h b c ops then .refuse rcBadOperand h b
    else
      let cpl := kind = 3 || kind = 5
      let slot := b.freeOvf
      if cpl && slot.isNone then .refuse rcWrongState h b
      else
        let w2 := kind + 2 ^ 4 * getBits (w 0) 24 4 + 2 ^ 8 + 2 ^ 10 * i + 2 ^ 18 * getBits (w 4) 16 12
        let w3 := getBits (w 3) 0 14 + (if kind = 1 then 2 ^ 14 else 0) + 2 ^ 19 * getBits (w 3) 16 4 +
          (if cpl then 2 ^ 23 * getBits (w 3) 20 8 else 0)
        let w6 := if cpl then getBits (w 4) 0 16 else 0
        let w7 := if cpl then 2 ^ 16 * slot.getD 0 else 0
        .done h ((if cpl then b.spent else b).setBytes (ringAddr r) ([w 1, w 2, w2, w3, 2 ^ 16, 2 ^ 16, w6, w7].flatMap (leBytes 4)))

/-- Both positions at index 0 with lap 1. -/
def Bench.resetRing (b : Bench) (r : Nat) : Bench :=
  let b := b.setLe (ringAddr r + 16) 4 (2 ^ 16)
  ((b.setMbits (ringAddr r) 160 16 0).setMbits (ringAddr r) 176 1 1).setSince r 0

/-- The ring no longer needs RESET_INDEX. -/
def Bench.startedRing (b : Bench) (i r : Nat) : Bench :=
  b.updClaim i (fun c => { c with mustReset := c.mustReset.filter (· ≠ r) })

/-- RING_START (R383). -/
def ringStart (n : BenchId) (r : Nat) (reset : Bool) (h : Hub) (b : Bench) : CmdOut :=
  match b.ringOwner r with
  | none => ringRefused h b
  | some (i, c) =>
    let st := b.ringState r
    let vecBad := b.ringCpl r && h.tableSize c.fn ≤ b.ringVector r
    if b.ringKind r = 0 || st = 2 || st = 0 || (st = 3 && !reset) || c.st ≠ 1 || !h.masters c || vecBad ||
        (c.mustReset.contains r && !reset) then ringRefused h b
    else
      let b := if reset then b.resetRing r else b
      let b := ((b.setRingState r 2).setMbits (ringAddr r) 188 4 0).startedRing i r
      let q := if b.ringCpl r then cqDrain n r 64 h b else (h, b)
      .done q.1 q.2.judgeHeld

/-- RING_STOP (R383). -/
def ringStop (r : Nat) (h : Hub) (b : Bench) : CmdOut :=
  let st := b.ringState r
  if b.ringKind r = 0 || st < 2 then ringRefused h b else .done h (b.setRingState r 1).judgeHeld

/-- RING_DESTROY (R383). -/
def ringDestroy (r : Nat) (h : Hub) (b : Bench) : CmdOut :=
  let st := b.ringState r
  let bound := b.ringCpl r && (match b.ringOwner r with
    | some (_, c) => c.rings.any (fun x => b.ringKind x ≠ 0 && !b.ringCpl x && b.ringCq x = r)
    | none => false)
  if b.ringKind r = 0 || st = 2 || bound then ringRefused h b else .done h (b.freeRing r).judgeHeld

/-- RING_SET_STEP (R72): STEP of a send ring. -/
def ringSetStep (r step : Nat) (h : Hub) (b : Bench) : CmdOut :=
  if step = 0 || 19 < step then .refuse rcBadOperand h b
  else if b.ringKind r ≠ 1 then ringRefused h b
  else .done h (b.setMbits (ringAddr r) 110 5 step)

end Sys2Proof.Machine
end

