-- ==== Sys2Proof/Machine/Power.lean ====
section
/-! DEFINITION. Power domains and bench states (R43 to R54), the training of crossings (R39, R40), host windows (R28 to
R33) and the switch turns of R544. -/
namespace Sys2Proof.Machine

/-! ## Changes of state -/

/-- A bench changes state: event 0 (R44). -/
def Bench.setSt (b : Bench) (s : BenchSt) : Bench := { b with power := { b.power with st := s } }.raise 0

/-- Design latency of a bench crossing (R40). -/
def xingLat (k : Nat) : Nat :=
  match k with
  | 2 => 4
  | 4 => 4
  | 5 => 5
  | 6 => 4
  | 7 => 4
  | 9 => 5
  | 10 => 4
  | 11 => 4
  | _ => 3

/-- What is left of a bench that loses its domain: its DRAM contents when its subchannel is kept in self-refresh (R48),
the count of free values, its tallies, which only a start zeroes (R531), the tags of reads that have been sent, whose data will be
discarded (R344, R402), and Ryuner's reads, which its window carries in any state (R332). [DEDUCED, log 146, unsafe] -/
def Bench.emptied (b : Bench) (s : BenchSt) (retain : Bool) : Bench :=
  let e := Bench.blank { b.power with st := s, railsUp := false, pllsUp := false, cleared := false, drainCut := false, retain := false }
    b.free
  let sent := fun (r : HostRead) => !b.tlps.any (fun t => t.kind = .read && t.fn = r.fn && t.tag = r.tag)
  let mine := fun (t : Tlp) => t.kind = .read && b.reads.any (fun r => r.ryuner && r.fn = t.fn && r.tag = t.tag)
  let e := { e with
    tal := b.tal, evq := b.evq, tlps := b.tlps.filter mine
    reads := (b.reads.filter (fun r => r.ryuner || sent r)).map (fun r => if r.ryuner then r else { r with dead := true }) }
  if retain then
    let kept := b.mem.filter (fun c => 0x8000000000 ≤ c.1)
    let e := if b.fld R.dram_DRAM_STATUS_STATE = 4 then e.tick T.DRAM_SR_ENTRIES else e
    { e with mem := b.dram.moved.foldl (fun m (x : Nat × List Byte) => memWrite m (0x8000000000 + 64 * x.1) x.2) kept
             dram := { e.dram with poison := b.dram.poison, checks := b.dram.checks, lost := b.dram.lost,
                                   retained := true, saved := true, kept := b.dram.kept } }
  else e

/-- COUNT of a command that loses its domain: the destination bytes written, for a host destination those whose TLPs have been sent
(R402). -/
def Bench.lostCount (b : Bench) (c : HaulCmd) : Nat :=
  c.wr - ((b.tlps.filter (fun t => t.kind = .write && t.cmd = some c.id)).map (fun t => t.data.length)).sum

/-- Work in flight of a bench that fails or is forced off ends with DOMAIN_LOST: every started haul command (R402, R404). -/
def Bench.domainLost (b : Bench) : Bench :=
  (b.haul.cmds.filter (fun c => c.started && !c.ended)).foldl (fun b c => b.tallyCmd c.chan 2 (b.lostCount c)) b

/-- Is a bench in a state with claims, sessions and work? -/
def Bench.up (b : Bench) : Bool := b.live || b.power.st = .starting

/-- Is the DRAM kept in self-refresh when the bench goes OFF: DRAM_RETAIN was 1 at STOP (R48)? Its contents must be there to be
kept. -/
def Bench.retains (b : Bench) : Bool :=
  b.power.retain && (b.dram.retained || (b.power.dramEn && (b.fld R.dram_DRAM_STATUS_STATE = 4 || b.fld R.dram_DRAM_STATUS_STATE = 5)))

/-- TLPs of a bench that loses its domain go on in its window: all of them when it has drained; else its completions alone, with EP = 1
and zero data, counted in POISON_TX (R346, R402). -/
def Hub.takeTlps (h : Hub) (n : BenchId) (drained : Bool) (l : List Tlp) : Hub :=
  l.foldl (fun h t =>
    if drained then { h with tlps := h.tlps ++ [(n.val, t)] }
    else if t.kind = .completion && t.status = 0 then
      { h with tlps := h.tlps ++ [(n.val, { t with ep := true, data := t.data.map (fun _ => 0#8) })] }.tick
        (T.POISON_TX (fnPort t.fn) (h.linkOf t.fn % 2))
    else if t.kind = .completion then { h with tlps := h.tlps ++ [(n.val, t)] }
    else h) h

/-- A bench leaves for OFF or FAULT: its claims are removed, its debug session ends, its state is lost (R44, R48, R366,
R512). A passage that is no drain's end loses the work in flight. [DEDUCED, log 31, unsafe] -/
def benchLeaves (n : BenchId) (s : BenchSt) (drained : Bool) (h : Hub) (b : Bench) : Hub × Bench :=
  let h := ((h.claimsLost n b.rings.claims).endEngineSession n).takeTlps n drained b.tlps
  let b := if drained then b else b.domainLost
  (h, (b.emptied s b.retains).raise 0)

/-- A clock, crossing or supply failure puts a bench that is not OFF in FAULT (R44). `ev` is its event, where it has
one, and `cause` its BENCH_STATUS flag. -/
def benchFails (n : BenchId) (cause : Fld) (ev : Option Nat) (h : Hub) (b : Bench) : Hub × Bench :=
  match b.power.st with
  | .off => (h, b)
  | .fault => (h.setFld cause 1, match ev with | some k => b.raise k | none => b)
  | _ =>
    let r := benchLeaves n .fault false (h.setFld cause 1) b
    (r.1, match ev with | some k => r.2.raise k | none => r.2)

/-- A bench that is not OFF is forced off: FORCED = 1 (R44). -/
def benchForced (n : BenchId) (h : Hub) (b : Bench) : Hub × Bench :=
  if b.power.st = .off then (h, b) else benchLeaves n .off false (h.setFld (R.pcr_BENCH_STATUS_FORCED n.val) 1) b

/-! ## BENCH_CTL (R44, R45, R50, R52) -/

/-- Does a profile allow a port mode (R52)? -/
def modeAllowed (profile mode : Nat) : Bool :=
  if profile = 0 then mode ≤ 5 else mode = 2 || mode = 6 || mode = 7

/-- Are the parameters of a START valid (R45)? -/
def Hub.startValid (h : Hub) (n : BenchId) : Bool :=
  let l := h.fld (R.pcr_BENCH_CTL_HOST_LINK n.val)
  modeAllowed (h.fld (R.pcr_BENCH_CTL_PROFILE n.val)) (h.fld (R.pcr_BENCH_CTL_PORT_MODE n.val)) &&
    (l % 2 = 0 || h.split (l / 2)) && !(h.fw.part = .nf && h.flag (R.pcr_BENCH_CTL_FLASH_EN n.val))

/-- A field of BENCH_CTL that START fixes: written while the bench is OFF or in FAULT; otherwise a write that would
change it is ignored and counted (R50). [DEDUCED, log 32, unsafe] -/
def Hub.startField (h : Hub) (held : Bool) (f : Fld) (v tally : Nat) : Hub :=
  if !held then h.setFld f v else if h.fld f = v then h else h.tick tally

/-- The fields of a BENCH_CTL write (R50, R52). -/
def Hub.benchCtlFields (h : Hub) (n : BenchId) (held : Bool) (v : Nat) : Hub :=
  let i := n.val
  let h := h.startField held (R.pcr_BENCH_CTL_PROFILE i) (getBits v 2 1) (T.PROFILE_REFUSED i)
  let h := h.startField held (R.pcr_BENCH_CTL_PORT_MODE i) (getBits v 4 3) (T.BENCH_CMD_IGNORED i)
  let h := h.startField held (R.pcr_BENCH_CTL_HOST_LINK i) (getBits v 8 2) (T.BENCH_CMD_IGNORED i)
  (((h.setFld (R.pcr_BENCH_CTL_DRAM_EN i) (getBits v 10 1)).setFld (R.pcr_BENCH_CTL_FLASH_EN i) (getBits v 11 1)).setFld
    (R.pcr_BENCH_CTL_LEND_OK i) (getBits v 12 1)).setFld (R.pcr_BENCH_CTL_DRAM_RETAIN i) (getBits v 13 1)

/-- The bench as a valid START finds it: STARTING, everything at its reset value, its tallies 0 (R46, R531). -/
def Hub.startedBench (h : Hub) (n : BenchId) (b : Bench) : Bench :=
  let i := n.val
  let p : Power :=
    { st := .starting, profile := h.fld (R.pcr_BENCH_CTL_PROFILE i), portMode := h.fld (R.pcr_BENCH_CTL_PORT_MODE i)
      hostLink := h.fld (R.pcr_BENCH_CTL_HOST_LINK i), dramEn := h.flag (R.pcr_BENCH_CTL_DRAM_EN i)
      flashEn := h.flag (R.pcr_BENCH_CTL_FLASH_EN i), railsUp := false, pllsUp := false, cleared := false
      drainCut := false, retain := false }
  let e := { Bench.blank p b.free with evq := b.evq, tlps := b.tlps, reads := b.reads }
  if b.dram.retained && p.dramEn then { e with mem := b.mem, dram := b.dram } else e

/-- START (R44, R45): the answer says whether a power switch closed. -/
def benchStart (n : BenchId) (h : Hub) (b : Bench) : Bool × Hub × Bench :=
  let i := n.val
  match b.power.st with
  | .off | .fault =>
    if h.startValid n then
      let h := if b.power.st = .fault then benchFaultFlags.foldl (fun h k => h.setFld ⟨R.pcr_BENCH_STATUS i, k, 1⟩ 0) h
               else h
      (true, h, (h.startedBench n b).raise 0)
    else (false, h.tick (T.BENCH_START_REFUSED i), b.raise 3)
  | _ => (false, h.tick (T.BENCH_CMD_IGNORED i), b)

/-- Every packet in a flow queue, and every packet selected later, is discarded under QUEUE_DRAINED (R47). -/
def Bench.drainQueues (b : Bench) : Bench :=
  b.pkts.foldl (fun b p => match p.loc with | .flow _ => b.discard p 0x76 | _ => b)
    { b with power := { b.power with drainCut := true } }

/-- The drain of a bench begins: its face stops receiving, its rings stop fetching, so that no completion ring holds a fetch back (R378), and
its graph is no longer armed (R47, R112). -/
def Bench.startDrain (b : Bench) (limit : Nat) : Bench :=
  let b := { b with rings := { b.rings with held := [] } }.setFld R.ring_BACKPRESSURE_ACTIVE 0
  let b := (b.setFld R.graph_GRAPH_CTL_ARMED 0).setSt .draining
  if limit = 0 then b.drainQueues else b

/-- STOP (R44, R47): it fixes whether the DRAM is retained (R48). A drain time of 0 discards every queued packet at once (R54). -/
def benchStop (n : BenchId) (h : Hub) (b : Bench) : Hub × Bench :=
  let k := { b with power := { b.power with retain := h.flag (R.pcr_BENCH_CTL_DRAM_RETAIN n.val) } }
  match b.power.st with
  | .off | .draining => (h.tick (T.BENCH_CMD_IGNORED n.val), b)
  | .starting | .fault => benchLeaves n .off true h k
  | .running => (h, k.startDrain (h.fld (R.pcr_BENCH_DRAIN_LIMIT_LIMIT_US n.val)))

/-- A BENCH_CTL write lands: its fields, then START, then STOP. [DESIGN CHOICE, log 33, unsafe] -/
def benchCtlLand (n : BenchId) (v : Nat) (h : Hub) (b : Bench) : Bool × Hub × Bench :=
  let held := !(b.power.st = .off || b.power.st = .fault)
  let h := h.benchCtlFields n held v
  let r := if bit v 0 then benchStart n h b else (false, h, b)
  if bit v 1 then (r.1, benchStop n r.2.1 r.2.2) else r

/-- A BENCH_CTL write arrives: one with START for a bench that could start is held while another switch closed within
the last 100 µs (R544). [DESIGN CHOICE, log 33, unsafe] -/
def benchCtlWrite (n : BenchId) (v : Nat) (h : Hub) (b : Bench) : Hub × Bench :=
  let could := b.power.st = .off || b.power.st = .fault
  if bit v 0 && could && (h.switchBusy || !h.starts.isEmpty) then
    ({ h with starts := h.starts ++ [(n.val, v)] }, b)
  else
    let r := benchCtlLand n v h b
    (if r.1 then { r.2.1 with switchBusy := true } else r.2.1, r.2.2)

/-- BENCH_CTL_START: a write of BENCH_CTL with START = 1 and the fields of `v`. -/
def execBenchCtlStart (n : BenchId) (v : Word) (s : State) : Host.Outcome State Fault Refusal :=
  s.onBoth n (fun h b => if h.up then benchCtlWrite n (putBits v.toNat 0 2 1) h b else (h, b))

/-- BENCH_CTL_STOP: a write of BENCH_CTL with STOP = 1 and the fields of `v`. -/
def execBenchCtlStop (n : BenchId) (v : Word) (s : State) : Host.Outcome State Fault Refusal :=
  s.onBoth n (fun h b => if h.up then benchCtlWrite n (putBits v.toNat 0 2 2) h b else (h, b))

/-! ## The steps of a start (R46) -/

/-- BENCH_RAILS_RAMPED: 100 µs after the landing the rails are up and the PLLs start. -/
def execBenchRailsRamped (n : BenchId) (s : State) : Host.Outcome State Fault Refusal :=
  s.onBoth n (fun h b =>
    if b.power.st = .starting then (h, { b with power := { b.power with railsUp := true } }) else (h, b))

/-- BENCH_PLLS_LOCKED: the PLLs are locked, the clamps release and every crossing starts training; a PLL that has not
locked puts the bench in FAULT (R46). -/
def execBenchPllsLocked (n : BenchId) (ok : Bool) (s : State) : Host.Outcome State Fault Refusal :=
  s.onBoth n (fun h b =>
    if b.power.st = .starting && b.power.railsUp && !b.power.pllsUp then
      if ok then
        (h, (List.range 12).foldl (fun b k => b.setFld (R.bench_XING_LAT_XSTATE k) 1)
          { b with power := { b.power with pllsUp := true } })
      else benchFails n (R.pcr_BENCH_STATUS_PLL_UNLOCK n.val) (some 2) h b
    else (h, b))

/-- CROSSING_TRAINED: crossing `k` is FIXED at its design latency, or FAILED, which its register still reads in FAULT (R39, R40). -/
def execCrossingTrained (n : BenchId) (k : Nat) (ok : Bool) (s : State) : Host.Outcome State Fault Refusal :=
  s.onBoth n (fun h b =>
    if b.power.st = .starting && k < 12 && b.fld (R.bench_XING_LAT_XSTATE k) = 1 then
      if ok then (h, (b.setFld (R.bench_XING_LAT_XSTATE k) 2).setFld (R.bench_XING_LAT_LAT k) (xingLat k))
      else
        let r := benchFails n (R.pcr_BENCH_STATUS_XING_FAIL n.val) (some 1) h b
        (r.1, r.2.setFld (R.bench_XING_LAT_XSTATE k) 3)
    else (h, b))

/-- Is every crossing of the bench FIXED? -/
def Bench.crossed (b : Bench) : Bool := (List.range 12).all (fun k => b.fld (R.bench_XING_LAT_XSTATE k) = 2)

/-- BENCH_CLEAR_DONE: every SRAM and table is cleared; the DRAM waits for its configuration and the flash channels
identify their dies, where they are enabled (R46, R409, R435). -/
def execBenchClearDone (n : BenchId) (s : State) : Host.Outcome State Fault Refusal :=
  s.onBoth n (fun h b =>
    if b.power.st = .starting && b.crossed && !b.power.cleared then
      let b := { b with power := { b.power with cleared := true }
                        mem := b.mem.filter (fun c => 0x8000000000 ≤ c.1) }
      let b := if b.power.dramEn then
          (b.setFld R.dram_DRAM_STATUS_STATE 1).setFld R.dram_DRAM_STATUS_RETAINED (if b.dram.retained then 1 else 0)
        else b
      let b := if b.power.flashEn then
          [0, 1].foldl (fun b c => (List.range 4).foldl (fun b ce => b.onBus c (4 * ce) 10 0 [])
            (b.setFld (R.storage_FLASH_STATUS_STATE c) 1)) b
        else b
      (h, b)
    else (h, b))

/-- Is the start's last step done: DRAM READY or FAILED, flash channels identified (R409, R435)? -/
def Bench.startDone (b : Bench) : Bool :=
  b.power.cleared &&
    (!b.power.dramEn || b.fld R.dram_DRAM_STATUS_STATE = 4 || b.fld R.dram_DRAM_STATUS_STATE = 6) &&
    (!b.power.flashEn || (b.fld (R.storage_FLASH_STATUS_STATE 0) ≠ 1 && b.fld (R.storage_FLASH_STATUS_STATE 1) ≠ 1))

/-- FEC_EN as a bench enters RUNNING: 0 on a 10G-1L port, 1 on every other (R58). -/
def Bench.initFec (b : Bench) : Bench :=
  (List.range 4).foldl (fun b p => b.setFld (R.face_PORT_CTL_FEC_EN p)
    (if p < portCount b.power.portMode && b.power.portMode ≠ 5 then 1 else 0)) b

/-- BENCH_RUNNING: the bench enters RUNNING; its cycle count and its time start at zero (R46, R77, R96). -/
def execBenchRunning (n : BenchId) (s : State) : Host.Outcome State Fault Refusal :=
  s.onBoth n (fun h b =>
    if b.power.st = .starting && b.startDone then
      (h, { b.initFec with cyc := 0, time := { b.time with sec := 0, ns := 0, frac := 0 } }.setSt .running)
    else (h, b))

/-! ## The drain (R47) -/

/-- DRAIN_LIMIT_EXPIRED: the drain time ends; queued packets are discarded, and from now on every packet that reaches a
flow queue is (R47). -/
def execDrainLimitExpired (n : BenchId) (s : State) : Host.Outcome State Fault Refusal :=
  s.onBench n (fun b => if b.power.st = .draining then b.drainQueues else b)

/-- Is nothing left in flight (R44)? -/
def Bench.drained (b : Bench) : Bool :=
  b.pkts.isEmpty && b.haul.cmds.isEmpty && b.reads.isEmpty && b.tlps.isEmpty && b.rings.cpls.isEmpty &&
    b.dram.reqs.isEmpty && !b.sto.ops.any (·.started)

/-- DRAIN_COMPLETE: in flight reaches zero, and a DRAINING bench is OFF (R44, R48, R366). -/
def execDrainComplete (n : BenchId) (s : State) : Host.Outcome State Fault Refusal :=
  s.onBoth n (fun h b =>
    if b.power.st = .draining && b.drained then benchLeaves n .off true h b else (h, b))

/-- SUPPLY_FAIL: the domain supply monitor trips (R44, R53). -/
def execSupplyFail (n : BenchId) (s : State) : Host.Outcome State Fault Refusal :=
  s.onBoth n (benchFails n (R.pcr_BENCH_STATUS_SUPPLY_FAIL n.val) none)

/-! ## Switch turns (R544) -/

/-- The held START with the lowest bench number. -/
def lowestStart : List (Nat × Nat) → Option (Nat × Nat)
  | [] => none
  | x :: t => match lowestStart t with
    | none => some x
    | some y => if x.1 ≤ y.1 then some x else some y

/-- The bench number of a held START. -/
def benchOf (k : Nat) : BenchId := ⟨k % 16, Nat.mod_lt _ (by decide)⟩

/-- 100 µs after the last switch closure the held START writes land in ascending bench order, up to the first that closes
a switch; with none held the switch is free. -/
def Device.switchTurn : Nat → Device → Device
  | 0, d => d
  | fuel + 1, d =>
    match lowestStart d.hub.starts with
    | none => { d with hub := { d.hub with switchBusy := false } }
    | some x =>
      let d := { d with hub := { d.hub with starts := d.hub.starts.erase x } }
      let n := benchOf x.1
      let closed := (benchCtlLand n x.2 d.hub (d.bench n)).1
      let d := d.run n (fun h b => (benchCtlLand n x.2 h b).2)
      if closed then { d with hub := { d.hub with switchBusy := true } } else Device.switchTurn fuel d

/-- BENCH_SWITCH_TURN (R544). -/
def execBenchSwitchTurn (s : State) : Host.Outcome State Fault Refusal :=
  .next { s with dev := s.dev.switchTurn (s.dev.hub.starts.length + 1) }

end Sys2Proof.Machine
end

