-- ==== Sys2Proof/Machine/Storage.lean ====
section
/-! DEFINITION. Flash channels, their sequencers and XTS slots, NVMe controller emulation and the power-fail flush
(R408 to R431). -/
namespace Sys2Proof.Machine

/-! ## Channels and dies (R408, R409) -/

def fsIdentify : Nat := 1
def fsReady : Nat := 2
def fsTraining : Nat := 3
def fsUp : Nat := 4

/-- A channel that nothing has touched. -/
def FlashChan.idle : FlashChan := { prod := (0, 1), reread := false, stopped := false, page := 0, late := [] }
def Bench.fchan (b : Bench) (c : Nat) : FlashChan := sparseGet (fun _ => FlashChan.idle) b.sto.chans c
def Bench.setFchan (b : Bench) (c : Nat) (x : FlashChan) : Bench :=
  { b with sto := { b.sto with chans := sparseSet (fun _ => FlashChan.idle) b.sto.chans c x } }
/-- STATE of a channel. -/
def Bench.flashState (b : Bench) (c : Nat) : Nat := b.fld (R.storage_FLASH_STATUS_STATE c)
/-- State of a die: 0 ABSENT, 1 READY, 2 MISMATCH, 3 FAILED. -/
def Bench.dieState (b : Bench) (c d : Nat) : Nat := b.fld (R.storage_DIE_INFO_INFO c d)
/-- DIES: usable dies. -/
def Bench.countDies (b : Bench) (c : Nat) : Bench :=
  b.setFld (R.storage_FLASH_STATUS_DIES c) ((List.range 16).filter (fun d => b.dieState c d = 1)).length
/-- PARITY bytes of a codeword (R415, R429). -/
def Bench.parityBytes (b : Bench) (c : Nat) : Nat := 256 + 64 * b.fld (R.storage_FLASH_CTL_PARITY c)
/-- CW_PER_PAGE (R415). -/
def Bench.cwPerPage (b : Bench) (c : Nat) : Nat := min 8 ((b.fchan c).page / (4128 + b.parityBytes c))

/-- A MEDIA_LOG record with bench event 39 (R416, R430). -/
def Bench.mediaLog (b : Bench) (kind c die detail : Nat) : Bench :=
  let seq := (b.sto.logSeq + 1) % 65536
  let w0 := 1 + 2 * kind + 2 ^ 5 * (c % 2) + 2 ^ 6 * (die % 16) + 2 ^ 16 * seq
  let b := { b with sto := { b.sto with logSeq := seq } }
  let b := if 32 ≤ b.sto.log.length then b.tick T.MEDIA_LOG_LOST
    else { b with sto := { b.sto with log := b.sto.log ++ [(w0, detail)] } }
  b.raise 39

/-- What identify found (R409): the page with its spare, planes, blocks, pages, and for each die whether its geometry agrees. Each chip
enable that was ready has been asked for its ID at 20h and its parameter page. -/
def Bench.identified (b : Bench) (c page planes blocks pages : Nat) (dies : List (Nat × Bool)) : Bench :=
  let b := b.setFchan c { b.fchan c with page := page }
  let b := (((b.setFld (R.storage_GEOMETRY_PLANES c) planes).setFld (R.storage_GEOMETRY_BLOCKS c) blocks).setFld
    (R.storage_GEOMETRY2_PAGES c) pages).setFld (R.storage_GEOMETRY_CW_PER_PAGE c) (b.cwPerPage c)
  let b := (((List.range 4).filter (fun ce => dies.any (fun d => d.1 / 4 = ce))).foldl (fun b ce =>
    (b.onBus c (4 * ce) 7 0x20 []).onBus c (4 * ce) 8 0 []) b)
  let b := dies.foldl (fun b d =>
    let b := b.setFld (R.storage_DIE_INFO_INFO c d.1) (if d.2 then 1 else 2)
    if d.2 then b else b.mediaLog 5 c d.1 0) b
  (b.countDies c).setFld (R.storage_FLASH_STATUS_STATE c) fsReady

/-- FLASH_IDENTIFY_DONE: identify of channel `c` ends; `dies` names each die found and whether its geometry is the
channel's. -/
def execFlashIdentifyDone (n : BenchId) (c page planes blocks pages : Nat) (dies : List (Nat × Bool)) (s : State) :
    Host.Outcome State Fault Refusal :=
  s.onAwake n (fun b =>
    if c < 2 && b.flashState c = fsIdentify then b.identified c page planes blocks pages dies else b)

/-- A write of TRAIN (R409). -/
def Bench.flashTrain (b : Bench) (c : Nat) : Bench :=
  if b.flashState c = fsReady && b.fld (R.storage_FLASH_STATUS_DIES c) ≠ 0 then
    b.setFld (R.storage_FLASH_STATUS_STATE c) fsTraining
  else b.cfgRefused
/-- FLASH_TRAIN. -/
def execFlashTrain (n : BenchId) (c : Nat) (s : State) : Host.Outcome State Fault Refusal :=
  s.onBench n (fun b => if c < 2 then b.flashTrain c else b)

/-- FLASH_TRAIN_DONE: UP, or READY with TRAIN_FAIL; a page that holds no codeword fails too (R415). -/
def execFlashTrainDone (n : BenchId) (c : Nat) (ok : Bool) (s : State) : Host.Outcome State Fault Refusal :=
  s.onBench n (fun b =>
    if c < 2 && b.flashState c = fsTraining then
      let b := b.setFld (R.storage_GEOMETRY_CW_PER_PAGE c) (b.cwPerPage c)
      if ok && b.cwPerPage c ≠ 0 then b.setFld (R.storage_FLASH_STATUS_STATE c) fsUp
      else ((b.setFld (R.storage_FLASH_STATUS_STATE c) fsReady).setFld (R.storage_FLASH_STATUS_TRAIN_FAIL c) 1).mediaLog 6 c 0 0
    else b)

/-! ## The operation ring (R410) -/

/-- Entries of a channel's ring. -/
def Bench.fringN (b : Bench) (c : Nat) : Nat := 2 ^ (b.fld (R.storage_FLASH_RING_S c) + 3)
def Bench.fringIdx (b : Bench) (c : Nat) : Nat := b.fld (R.storage_FLASH_RING_STATUS_INDEX c)
def Bench.fringLap (b : Bench) (c : Nat) : Nat := b.fld (R.storage_FLASH_RING_STATUS_LAP c)

/-- The ring stops: RING_ERROR and a MEDIA_LOG record. -/
def Bench.fringStop (b : Bench) (c : Nat) : Bench :=
  ((b.setFchan c { b.fchan c with stopped := true, reread := false }).setFld (R.storage_FLASH_STATUS_RING_ERROR c) 1).mediaLog 7 c 0 0

/-- A write to FLASH_DB_c: the producer position, or a stopped ring. -/
def Bench.flashDb (b : Bench) (c v : Nat) : Bench :=
  let n := b.fringN c
  let k := countOf n false (dbIndex v) (dbLap v) (b.fringIdx c) (b.fringLap c)
  if n ≤ dbIndex v || k < 0 || (n : Int) < k then b.fringStop c
  else b.setFchan c { b.fchan c with prod := (dbIndex v, dbLap v) }
/-- FLASH_DB. -/
def execFlashDb (n : BenchId) (c : Nat) (v : Word) (s : State) : Host.Outcome State Fault Refusal :=
  s.onBench n (fun b => if c < 2 then b.flashDb c v.toNat else b)

/-- A write of RING_RESET: index 0 with lap 1; operations accepted run on. -/
def Bench.flashRingReset (b : Bench) (c : Nat) : Bench :=
  ((b.setFchan c { b.fchan c with prod := (0, 1), reread := false, stopped := false }).setFld
    (R.storage_FLASH_RING_STATUS_INDEX c) 0).setFld (R.storage_FLASH_RING_STATUS_LAP c) 1
/-- FLASH_RING_RESET. -/
def execFlashRingReset (n : BenchId) (c : Nat) (s : State) : Host.Outcome State Fault Refusal :=
  s.onBench n (fun b => if c < 2 then b.flashRingReset c else b)

/-- The next entry of a channel's ring. -/
def Bench.fentry (b : Bench) (c : Nat) : List Byte :=
  b.bytes (0x6000000 + 64 * b.fld (R.storage_FLASH_RING_BASE c) + 64 * b.fringIdx c) 64
/-- May the sequencer read an entry: UP, not stopped, not shed, entries there? -/
def Bench.fringWork (b : Bench) (c : Nat) : Bool :=
  b.flashState c = fsUp && !(b.fchan c).stopped && !b.sto.shed &&
    countOf (b.fringN c) false (b.fchan c).prod.1 (b.fchan c).prod.2 (b.fringIdx c) (b.fringLap c) ≠ 0

/-! Fields of an entry (R411). -/
def feBits (e : List Byte) (off lo w : Nat) : Nat := getBits (leNat (slice e off 4)) lo w
def feOp (e : List Byte) : Nat := feBits e 0 0 4
def feDie (e : List Byte) : Nat := feBits e 0 4 4
def fePlanes (e : List Byte) : Nat := feBits e 0 8 4
def feXts (e : List Byte) : Bool := feBits e 0 12 1 = 1
def feNs (e : List Byte) : Nat := feBits e 0 13 6
def feRow (e : List Byte) : Nat := leNat (slice e 4 4)
def feMask (e : List Byte) : Nat := feBits e 8 0 8
def feData (e : List Byte) : Nat := leNat (slice e 16 8)
def feMeta (e : List Byte) : Nat := leNat (slice e 24 8)
def feLba (e : List Byte) : Nat := leNat (slice e 32 8)
def feUser (e : List Byte) : Nat := leNat (slice e 40 8)
def feFeature (e : List Byte) : Nat := feBits e 48 0 8
def feParams (e : List Byte) : List Byte := slice e 52 4
/-- A reserved bit that is 1. -/
def feReserved (e : List Byte) : Bool :=
  feBits e 0 19 13 ≠ 0 || feBits e 8 8 24 ≠ 0 || leNat (slice e 12 4) ≠ 0 || feBits e 48 8 24 ≠ 0 || leNat (slice e 56 4) ≠ 0 ||
    feBits e 60 0 31 ≠ 0

/-- The entry is taken into its die's queue. -/
def Bench.fetchOp (b : Bench) (c : Nat) (e : List Byte) : Bench :=
  let i := b.fringIdx c
  let o : FlashOp := { chan := c, index := i, entry := e, started := false, busy := false, step := 0, good := [], bad := []
                       goodStep := 0, bits := 0, fails := 0, timeouts := 0, word2 := 0, haul := 0, count := 0, uncorr := 0
                       status := none }
  let b := { b with sto := { b.sto with ops := b.sto.ops ++ [o] } }.setFchan c { b.fchan c with reread := false }
  let last := i + 1 = b.fringN c
  (b.setFld (R.storage_FLASH_RING_STATUS_INDEX c) (if last then 0 else i + 1)).setFld (R.storage_FLASH_RING_STATUS_LAP c)
    (if last then 1 - b.fringLap c else b.fringLap c)

/-- Is there room in the queue of eight of an entry's die (R413)? -/
def Bench.dieRoom (b : Bench) (c d : Nat) : Bool :=
  (b.sto.ops.filter (fun o => o.chan = c && feDie o.entry = d && !o.started && o.status.isNone)).length < 8

/-- The sequencer reads the next entry; `again` after a mismatch. -/
def Bench.readEntry (b : Bench) (c : Nat) (again : Bool) : Bench :=
  if !b.fringWork c || (b.fchan c).reread ≠ again then b
  else
    let e := b.fentry c
    if feBits e 60 31 1 ≠ b.fringLap c then
      if again then b.fringStop c else b.setFchan c { b.fchan c with reread := true }
    else if b.dieRoom c (feDie e) then b.fetchOp c e else b

/-- FLASH_OP_FETCH (R410, R413). -/
def execFlashOpFetch (n : BenchId) (c : Nat) (s : State) : Host.Outcome State Fault Refusal :=
  s.onBench n (fun b => if c < 2 then b.readEntry c false else b)
/-- FLASH_ENTRY_REREAD (R410). -/
def execFlashEntryReread (n : BenchId) (c : Nat) (s : State) : Host.Outcome State Fault Refusal :=
  s.onBench n (fun b => if c < 2 then b.readEntry c true else b)

/-! ## Operations (R412 to R416) -/

/-- The operation of a die that has not reported, in ring order, and is not over. -/
def Bench.dieOp? (b : Bench) (c d : Nat) : Option FlashOp :=
  b.sto.ops.find? (fun o => o.chan = c && feDie o.entry = d && o.status.isNone)
/-- Change an operation. -/
def Bench.putOp (b : Bench) (o o' : FlashOp) : Bench :=
  { b with sto := { b.sto with ops := b.sto.ops.map (fun x => if x = o then o' else x) } }
/-- Bits of the page number in a row address, and of the plane number (the ONFI row address). -/
def bitsFor : Nat → Nat → Nat
  | 0, _ => 0
  | fuel + 1, n => if n ≤ 1 then 0 else 1 + bitsFor fuel ((n + 1) / 2)
/-- Page and block of a row address. [PRESUMED, log 67, unsafe] -/
def Bench.rowPage (b : Bench) (c row : Nat) : Nat := row % 2 ^ bitsFor 17 (b.fld (R.storage_GEOMETRY2_PAGES c))
/-- [PRESUMED, log 67, unsafe] -/
def Bench.rowBlock (b : Bench) (c row : Nat) : Nat := row / 2 ^ bitsFor 17 (b.fld (R.storage_GEOMETRY2_PAGES c))
/-- The blocks that an operation names: one for each plane of a PROGRAM or ERASE, else the row's. -/
def Bench.opBlocks (b : Bench) (c : Nat) (e : List Byte) : List Nat :=
  let blk := b.rowBlock c (feRow e)
  if feOp e = 2 || feOp e = 3 then
    let pb := 2 ^ bitsFor 3 (b.fld (R.storage_GEOMETRY_PLANES c))
    ((List.range 4).filter (fun p => bit (fePlanes e) p)).map (fun p => blk / pb * pb + p)
  else [blk]

/-- Byte of the retired bitmap that holds a block (R416). -/
def retiredAt (c die blk : Nat) : Nat := 0x200000 + 0x10000 * c + 0x1000 * die + blk / 8
def Bench.retired (b : Bench) (c die blk : Nat) : Bool := bit (b.le (retiredAt c die blk) 1) (blk % 8)
/-- Retire a block. -/
def Bench.retire (b : Bench) (c die blk : Nat) : Bench :=
  b.setLe (retiredAt c die blk) 1 (putBits (b.le (retiredAt c die blk) 1) (blk % 8) 1 1)

/-- The checks of R412 and R416 before any bus activity: the spoil code, 0 when they pass. [DESIGN CHOICE, log 68, unsafe] -/
def Bench.opCheck (b : Bench) (c : Nat) (e : List Byte) : Nat :=
  let op := feOp e
  let die := feDie e
  let ds := b.dieState c die
  let rowed := op = 1 || op = 2 || op = 3 || op = 4 || op = 9
  let planes := b.fld (R.storage_GEOMETRY_PLANES c)
  let writes := op = 2 || op = 3
  if ds = 3 then 0xB2
  else if op = 0 || 10 < op || feReserved e then 0xB0
  else if ds ≠ 1 then 0xB1
  else if rowed && (b.fld (R.storage_GEOMETRY2_PAGES c) ≤ b.rowPage c (feRow e) ||
      b.fld (R.storage_GEOMETRY_BLOCKS c) ≤ b.rowBlock c (feRow e)) then 0xB0
  else if (if writes then fePlanes e = 0 || 2 ^ planes ≤ fePlanes e else fePlanes e ≠ 0) then 0xB0
  else if (op = 1 || op = 4) && feMask e = 0 then 0xB0
  else if writes && (b.opBlocks c e).any (b.retired c die) then 0xB3
  else if feXts e && !b.flag (R.storage_XTS_NS_EN (feNs e)) then 0xB7 else 0

/-- An operation is over with a STATUS: its tallies, and whether its die was late (R416). -/
def Bench.opOver (b : Bench) (o : FlashOp) (o' : FlashOp) (status : Nat) : Bench :=
  let b := b.putOp o { o' with status := some status, busy := false }
  let f := b.fchan o.chan
  let d := feDie o.entry
  let rest := f.late.filter (· ≠ d)
  let b := b.setFchan o.chan { f with late := if o'.timeouts ≠ 0 then rest ++ [d] else rest }
  let b := if status = 0 && o'.timeouts ≠ 0 then b.tick T.FLASH_DIE_RETRY_OK else b
  ((b.tick (T.FLASH_OPS o.chan)).count (T.FLASH_BYTES o.chan) o'.count).spoilTick status 0

/-! ### Data (R412, R417) -/

/-- The key slot of an XTS namespace slot (R207). [DEDUCED, log 69, unsafe] -/
def Bench.xtsKey (b : Bench) (ns : Nat) : List Byte := memBytes b.keys (0x100000 + 64 * ns) 64
/-- The tweak of a data unit: its number and TWEAK_HI. -/
def Bench.xtsTweak (b : Bench) (ns unit : Nat) : Nat :=
  unit % 2 ^ 64 + 2 ^ 64 * ((b.reg (R.storage_TWEAK_HI ns 0)).toNat + 2 ^ 32 * (b.reg (R.storage_TWEAK_HI ns 1)).toNat)
/-- AES-XTS-256 of a data unit of 4,096 bytes. [PRESUMED, log 40, safe] -/
def xtsUnit (enc : Bool) (key : List Byte) (tweak : Nat) (l : List Byte) : List Byte :=
  (List.range 256).flatMap (fun j =>
    leBytes 16 (Config.xtsBlock enc key tweak j (BitVec.ofNat 128 (leNat (slice l (16 * j) 16)))).toNat)

/-- A transfer on haul channel 3 + c, written to a device address: the haul status, 0 for DONE. -/
def Bench.flashWrite (b : Bench) (n : BenchId) (c a : Nat) (l : List Byte) (ecc : Ecc) : Nat × Bench :=
  let st := match ownOffset n a with
    | some x => if b.regionOk false x l.length then (if dramBase ≤ x && !b.dramUp then hsDomainDown else 0) else hsBadAddress
    | none => hsBadAddress
  let b := (b.tick (T.HAUL_CMDS (3 + c))).tick (T.HAUL_STATUS st)
  if st = 0 then (0, (b.devWrite (a - benchBase n) l ecc).count (T.HAUL_BYTES (3 + c)) l.length)
  else (st, if st = hsBadAddress then b.isolation n a else b)
/-- A transfer read from a device address. -/
def Bench.flashRead (b : Bench) (n : BenchId) (c a k : Nat) (ecc : Ecc) : Nat × List Byte × Bench :=
  let st := match ownOffset n a with
    | some x => if b.regionOk false x k then (if dramBase ≤ x && !b.dramUp then hsDomainDown else 0) else hsBadAddress
    | none => hsBadAddress
  let b := b.tick (T.HAUL_CMDS (3 + c))
  if st = 0 then
    let r := Bench.gather n ecc [(a, k)] b
    let st := if r.1.first.isSome then hsSrcEcc else 0
    (st, r.1.data, (r.2.tick (T.HAUL_STATUS st)).count (T.HAUL_BYTES (3 + c)) (if st = 0 then k else 0))
  else (st, [], (if st = hsBadAddress then b.isolation n a else b).tick (T.HAUL_STATUS st))

/-- The position of a codeword among those that the operation transfers. -/
def cwRank (mask cw : Nat) : Nat := ((List.range cw).filter (bit mask)).length
/-- The codewords that an operation names. -/
def cwNamed (mask : Nat) : List Nat := (List.range 8).filter (bit mask)

/-- The data of a PROGRAM: every codeword of each plane, planes in ascending order from DATA and META, enciphered (R412,
R417). -/
def Bench.programData (b : Bench) (e : List Byte) (data mta : List Byte) (k : Nat) : List Byte :=
  (List.range k).flatMap (fun i =>
    let d := slice data (4096 * i) 4096
    (if feXts e then xtsUnit true (b.xtsKey (feNs e)) (b.xtsTweak (feNs e) (feLba e + i)) d else d) ++ slice mta (32 * i) 32)

/-! ### The start of an operation -/

/-- A PROGRAM starts: its data is fetched and enciphered, and the program goes on the bus. -/
def Bench.startProgram (b : Bench) (n : BenchId) (o : FlashOp) (ecc : Ecc) : Bench :=
  let e := o.entry
  let k := b.cwPerPage o.chan * (b.opBlocks o.chan e).length
  let r := b.flashRead n o.chan (feData e) (4096 * k) ecc
  let q := r.2.2.flashRead n o.chan (feMeta e) (32 * k) ecc
  let st := if r.1 ≠ 0 then r.1 else q.1
  if st ≠ 0 then q.2.2.opOver o { o with started := true, haul := st } 0xB9
  else if feXts e && !q.2.2.flag (R.storage_XTS_NS_LOADED (feNs e)) then q.2.2.opOver o { o with started := true } 0xB7
  else
    (q.2.2.onBus o.chan (feDie e) 2 (feRow e) (q.2.2.programData e r.2.1 q.2.1 k) (fePlanes e)).putOp o { o with started := true, busy := true }

/-- The next operation of a die starts, if it is OP `op`: the checks, then the bus; a RETIRE marks its block and is over. -/
def Bench.startOp (b : Bench) (n : BenchId) (c d op : Nat) (ecc : Ecc) : Bench :=
  match b.dieOp? c d with
  | none => b
  | some o =>
    let e := o.entry
    let real := if feOp e = 0 || 10 < feOp e then 1 else feOp e
    if o.started || real ≠ op then b
    else
      let code := b.opCheck c e
      if code ≠ 0 then b.opOver o o code
      else if op = 9 then (b.retire c d (b.rowBlock c (feRow e))).opOver o { o with started := true } 0
      else if op = 2 then b.startProgram n o ecc
      else
        let row := if op = 5 || op = 6 || op = 7 then feFeature e else feRow e
        (b.onBus c d op row (if op = 6 then feParams e else []) (fePlanes e)).putOp o { o with started := true, busy := true }

/-- FLASH_READ: the next operation of a die is a READ, or an entry without a valid OP. -/
def execFlashRead (n : BenchId) (c d : Nat) (s : State) : Host.Outcome State Fault Refusal :=
  s.onBench n (fun b => b.startOp n c d 1 [])
/-- FLASH_PROGRAM. -/
def execFlashProgram (n : BenchId) (c d : Nat) (ecc : Ecc) (s : State) : Host.Outcome State Fault Refusal :=
  s.onBench n (fun b => b.startOp n c d 2 ecc)
/-- FLASH_ERASE. -/
def execFlashErase (n : BenchId) (c d : Nat) (s : State) : Host.Outcome State Fault Refusal :=
  s.onBench n (fun b => b.startOp n c d 3 [])
/-- FLASH_READ_RAW. -/
def execFlashReadRaw (n : BenchId) (c d : Nat) (s : State) : Host.Outcome State Fault Refusal :=
  s.onBench n (fun b => b.startOp n c d 4 [])
/-- FLASH_GET_FEATURE. -/
def execFlashGetFeature (n : BenchId) (c d : Nat) (s : State) : Host.Outcome State Fault Refusal :=
  s.onBench n (fun b => b.startOp n c d 5 [])
/-- FLASH_SET_FEATURE. -/
def execFlashSetFeature (n : BenchId) (c d : Nat) (s : State) : Host.Outcome State Fault Refusal :=
  s.onBench n (fun b => b.startOp n c d 6 [])
/-- FLASH_READ_ID. -/
def execFlashReadId (n : BenchId) (c d : Nat) (s : State) : Host.Outcome State Fault Refusal :=
  s.onBench n (fun b => b.startOp n c d 7 [])
/-- FLASH_READ_PARAM. -/
def execFlashReadParam (n : BenchId) (c d : Nat) (s : State) : Host.Outcome State Fault Refusal :=
  s.onBench n (fun b => b.startOp n c d 8 [])
/-- FLASH_RETIRE. -/
def execFlashRetire (n : BenchId) (c d : Nat) (s : State) : Host.Outcome State Fault Refusal :=
  s.onBench n (fun b => b.startOp n c d 9 [])
/-- FLASH_RESET_LUN. -/
def execFlashResetLun (n : BenchId) (c d : Nat) (s : State) : Host.Outcome State Fault Refusal :=
  s.onBench n (fun b => b.startOp n c d 10 [])

/-! ### Busy times and decodes -/

/-- Data of an operation that reads something else than codewords is written to DATA, and the operation is over. -/
def Bench.opData (b : Bench) (n : BenchId) (o : FlashOp) (l : List Byte) (ecc : Ecc) : Bench :=
  let r := b.flashWrite n o.chan (feData o.entry) l ecc
  if r.1 ≠ 0 then r.2.opOver o { o with haul := r.1 } 0xB9 else r.2.opOver o { o with count := l.length } 0

/-- A failed PROGRAM or ERASE: its blocks are retired, the failure is logged (R416). -/
def Bench.writeFailed (b : Bench) (o o' : FlashOp) (code kind : Nat) : Bench :=
  let d := feDie o.entry
  (((b.opBlocks o.chan o.entry).foldl (fun b k => b.retire o.chan d k) b).opOver o o' code).mediaLog kind o.chan d (feRow o.entry)

/-- R/B_N rises (R413, R416): `pass` is the status that a PROGRAM or ERASE reports, `data` what a read returns. A READ's page
is there to be decoded. -/
def Bench.dieReady (b : Bench) (n : BenchId) (o : FlashOp) (pass : Bool) (data : List Byte) (ecc : Ecc) : Bench :=
  let e := o.entry
  let d := feDie e
  match feOp e with
  | 2 => if pass then b.opOver o o 0 else b.writeFailed o o 0xB5 2
  | 3 =>
    if pass then (if o.fails ≠ 0 then b.tick T.FLASH_ERASE_RETRY_OK else b).opOver o o 0
    else if o.fails = 0 then (b.onBus o.chan d 3 (feRow e) [] (fePlanes e)).putOp o { o with fails := 1 }
    else b.writeFailed o o 0xB6 3
  | 4 => b.opData n o (slice data 0 ((4128 + b.parityBytes o.chan) * (cwNamed (feMask e)).length)) ecc
  | 5 => b.opOver o { o with word2 := leNat (slice data 0 4) } 0
  | 6 => b.opOver o o 0
  | 7 => b.opOver o { o with word2 := leNat (slice data 0 8) } 0
  | 8 => b.opData n o (slice data 0 256) ecc
  | 10 => b.opOver o o 0
  | _ => b.putOp o { o with busy := false, bad := [] }

/-- DIE_READY. -/
def execDieReady (n : BenchId) (c d : Nat) (pass : Bool) (data : List Byte) (ecc : Ecc) (s : State) :
    Host.Outcome State Fault Refusal :=
  s.onBench n (fun b =>
    match b.dieOp? c d with
    | some o => if o.busy then b.dieReady n o pass data ecc else b
    | none => b)

/-- A ladder entry goes to the die as Set Features (R415). -/
def Bench.setLevels (b : Bench) (o : FlashOp) (step : Nat) : Bench :=
  b.onBus o.chan (feDie o.entry) 6 (b.fld (R.storage_LADDER_FEATURE o.chan step))
    (leBytes 4 (b.reg (R.storage_LADDER_P o.chan step)).toNat)

/-- A codeword is corrected: it is deciphered and written, 4 KiB to DATA and 32 bytes to META (R412, R417). -/
def Bench.cwGood (b : Bench) (n : BenchId) (o : FlashOp) (cw bits : Nat) (l : List Byte) (ecc : Ecc) : FlashOp × Option Nat × Bench :=
  let e := o.entry
  let k := cwRank (feMask e) cw
  let o' : FlashOp := { o with good := o.good ++ [cw], goodStep := o.step, bits := max o.bits bits }
  if feXts e && !b.flag (R.storage_XTS_NS_LOADED (feNs e)) then (o', some 0xB7, b)
  else
    let d := slice l 0 4096
    let d := if feXts e then xtsUnit false (b.xtsKey (feNs e)) (b.xtsTweak (feNs e) (feLba e + k)) d else d
    let r := b.flashWrite n o.chan (feData e + 4096 * k) d ecc
    if r.1 ≠ 0 then ({ o' with haul := r.1 }, some 0xB9, r.2)
    else
      let q := r.2.flashWrite n o.chan (feMeta e + 32 * k) (slice l 4096 32) ecc
      if q.1 ≠ 0 then ({ o' with haul := q.1, count := o.count + 4096 }, some 0xB9, q.2)
      else ({ o' with count := o.count + 4096 }, none, q.2)

/-- A step's last codeword has been decoded: the READ is over, or climbs the ladder (R415, R416). Step 0 is restored at the
end. -/
def Bench.stepDone (b : Bench) (o o' : FlashOp) : Bench :=
  let e := o.entry
  let d := feDie e
  if o'.bad.isEmpty then
    let b := if o'.goodStep ≠ 0 then b.tick T.FLASH_READ_RETRY_OK else b
    (b.setLevels o 0).opOver o o' 0
  else if o'.step < b.fld (R.storage_FLASH_CTL_LADDER_LEN o.chan) then
    ((b.setLevels o (o'.step + 1)).onBus o.chan d 1 (feRow e) []).putOp o { o' with step := o'.step + 1, busy := true, bad := [] }
  else
    let b := (b.setLevels o 0).retire o.chan d (b.rowBlock o.chan (feRow e))
    (b.opOver o { o' with uncorr := o'.bad.length } 0xB4).mediaLog 1 o.chan d (feRow e)

/-- CODEWORD_DECODED: every READ restores step 0 at its end, whatever happened. The decode of codeword `cw` ends corrected, with `bits` bit errors and the bytes `l` (4,096 of data and
32 of metadata), or failed (R415). [DESIGN CHOICE, log 68, unsafe] -/
def Bench.decoded (b : Bench) (n : BenchId) (o : FlashOp) (cw : Nat) (ok : Bool) (bits : Nat) (l : List Byte) (ecc : Ecc) : Bench :=
  let named := cwNamed (feMask o.entry)
  if feOp o.entry ≠ 1 || o.busy || !o.started || !named.contains cw || o.good.contains cw || o.bad.contains cw then b
  else
    let r : FlashOp × Option Nat × Bench :=
      if ok then b.cwGood n o cw bits l ecc else ({ o with bad := o.bad ++ [cw] }, none, b)
    match r.2.1 with
    | some code => (r.2.2.setLevels o 0).opOver o r.1 code
    | none =>
      if r.1.good.length + r.1.bad.length = named.length then r.2.2.stepDone o r.1 else r.2.2.putOp o r.1
/-- CODEWORD_DECODED. -/
def execCodewordDecoded (n : BenchId) (c d cw : Nat) (ok : Bool) (bits : Nat) (l : List Byte) (ecc : Ecc) (s : State) :
    Host.Outcome State Fault Refusal :=
  s.onBench n (fun b =>
    match b.dieOp? c d with
    | some o => b.decoded n o cw ok bits l ecc
    | none => b)

/-- A die busy beyond OP_TIMEOUT (R416): the second time within one operation, or in two consecutive ones, it is FAILED; else
it is reset, and its operation runs once more or counts as failed. [DESIGN CHOICE, log 68, unsafe] -/
def Bench.dieTimeout (b : Bench) (o : FlashOp) : Bench :=
  let e := o.entry
  let d := feDie e
  let o' : FlashOp := { o with timeouts := o.timeouts + 1 }
  if o.timeouts ≠ 0 || (b.fchan o.chan).late.contains d then
    (((b.setFld (R.storage_DIE_INFO_INFO o.chan d) 3).countDies o.chan).opOver o o' 0xB2).mediaLog 4 o.chan d (feRow e)
  else
    let b := b.onBus o.chan d 10 0 []
    match feOp e with
    | 2 => b.writeFailed o o' 0xB5 2
    | 3 =>
      if o.fails = 0 then (b.onBus o.chan d 3 (feRow e) [] (fePlanes e)).putOp o { o' with fails := 1 } else b.writeFailed o o' 0xB6 3
    | op =>
      (b.onBus o.chan d op (if op = 5 || op = 6 || op = 7 then feFeature e else feRow e) (if op = 6 then feParams e else [])).putOp
        o o'
/-- DIE_OP_TIMEOUT. -/
def execDieOpTimeout (n : BenchId) (c d : Nat) (s : State) : Host.Outcome State Fault Refusal :=
  s.onBench n (fun b =>
    match b.dieOp? c d with
    | some o => if o.busy then b.dieTimeout o else b
    | none => b)

/-- The completion message of an operation (R414). -/
def FlashOp.message (o : FlashOp) (status : Nat) : List DWord :=
  [BitVec.ofNat 64 (status + 2 ^ 8 * (o.goodStep % 16) + 2 ^ 12 * o.chan + 2 ^ 16 * (o.index % 256) + 2 ^ 24 * o.uncorr + 2 ^ 32 * (o.bits % 65536)),
    BitVec.ofNat 64 (feUser o.entry), BitVec.ofNat 64 o.word2, BitVec.ofNat 64 (o.haul + 2 ^ 32 * o.count)]

/-- Has channel 5 room for a message: it is empty, or holds fewer than its depth, which the spec does not give (R414). [DESIGN CHOICE, log 68, unsafe] -/
def Bench.doneRoom (b : Bench) : Bool := (b.chMsgs 5).isEmpty || (b.chMsgs 5).length < Config.flashDoneDepth

/-- FLASH_DONE_MSG: the oldest finished operation of a die enters channel 5; while the channel is full it waits (R414). -/
def execFlashDoneMsg (n : BenchId) (c d : Nat) (s : State) : Host.Outcome State Fault Refusal :=
  s.onBench n (fun b =>
    match b.sto.ops.find? (fun o => o.chan = c && feDie o.entry = d) with
    | some o =>
      match (if b.doneRoom then o.status else none) with
      | some st =>
        let b := { b with sto := { b.sto with ops := b.sto.ops.filter (· ≠ o) } }
        ((b.setChMsgs 5 (b.chMsgs 5 ++ [o.message st])).chHwm 5).pump
      | none => b
    | none => b)

/-! ## XTS slots (R417, R418) -/

/-- A write of EN to XTS_NS_n. -/
def Bench.xtsWrite (b : Bench) (ns : Nat) (en : Bool) : Bench :=
  if en then (if b.flag (R.storage_XTS_NS_LOADED ns) then b.setFld (R.storage_XTS_NS_EN ns) 1 else b.cfgRefused)
  else (b.setFld (R.storage_XTS_NS_EN ns) 0).setFld (R.storage_XTS_NS_DRAINING ns) 1
/-- XTS_ENABLE. -/
def execXtsEnable (n : BenchId) (ns : Nat) (s : State) : Host.Outcome State Fault Refusal :=
  s.onBench n (fun b => if ns < 64 then b.xtsWrite ns true else b)
/-- XTS_DISABLE. -/
def execXtsDisable (n : BenchId) (ns : Nat) (s : State) : Host.Outcome State Fault Refusal :=
  s.onBench n (fun b => if ns < 64 then b.xtsWrite ns false else b)

/-- Zeroise an XTS slot. -/
def Bench.xtsZero (b : Bench) (ns : Nat) : Bench :=
  let b := { b with keys := memWrite b.keys (0x100000 + 64 * ns) (List.replicate 64 0#8) }
  (b.setFld (R.storage_XTS_NS_LOADED ns) 0).setFld (R.storage_XTS_NS_DRAINING ns) 0
/-- XTS_SLOT_ZEROISED: no operation that uses a draining slot is in flight (R418). -/
def execXtsSlotZeroised (n : BenchId) (ns : Nat) (s : State) : Host.Outcome State Fault Refusal :=
  s.onBench n (fun b =>
    if ns < 64 && b.flag (R.storage_XTS_NS_DRAINING ns) &&
        !b.sto.ops.any (fun o => o.started && o.status.isNone && feXts o.entry && feNs o.entry = ns) then b.xtsZero ns
    else b)
/-- Every XTS slot is cleared when an engine debug session opens (R204, R418). [DEDUCED, log 69, unsafe] -/
def Bench.xtsCleared (b : Bench) : Bench :=
  (List.range 64).foldl (fun b ns =>
    if b.flag (R.storage_XTS_NS_LOADED ns) || b.flag (R.storage_XTS_NS_EN ns) || b.flag (R.storage_XTS_NS_DRAINING ns) then
      (b.xtsZero ns).setFld (R.storage_XTS_NS_EN ns) 0
    else b) b

/-! ## NVMe controller emulation (R419 to R421) -/

/-- A controller's registers that nothing has written. -/
def NvmePage.blank : NvmePage := { cc := 0, aqa := 0, asq := 0, acq := 0 }
def Bench.npage (b : Bench) (k : Nat) : NvmePage := sparseGet (fun _ => NvmePage.blank) b.sto.pages k
def Bench.setNpage (b : Bench) (k : Nat) (x : NvmePage) : Bench :=
  { b with sto := { b.sto with pages := sparseSet (fun _ => NvmePage.blank) b.sto.pages k x } }
/-- The controller of a claim. -/
def Bench.ctrlOf (b : Bench) (claim : Nat) : Option Nat :=
  (List.range 64).find? (fun k => b.flag (R.storage_NVME_CTRL_VALID k) && b.fld (R.storage_NVME_CTRL_CLAIM k) = claim)

/-- The 64-bit CAP (R419): MQES 0x0FFF, CQR 1, TO 2, CSS NVM only (bit 37 of the NVMe layout), every other field 0. [PRESUMED, log 67, unsafe] -/
def nvmeCap : Nat := 0xFFF + 2 ^ 16 + 2 ^ 24 * 2 + 2 ^ 37

/-- The 32-bit word at an offset of the register page, as a host read sees it. -/
def Bench.nvmeWord (b : Bench) (k off : Nat) : Nat :=
  let p := b.npage k
  match off with
  | 0x00 => nvmeCap % 2 ^ 32
  | 0x04 => nvmeCap / 2 ^ 32
  | 0x08 => 0x20000
  | 0x14 => p.cc
  | 0x1C => b.fld (R.storage_NVME_CTRL_RDY k) + 2 * b.fld (R.storage_NVME_CTRL_CFS k) + 4 * b.fld (R.storage_NVME_CTRL_SHST k)
  | 0x24 => p.aqa
  | 0x28 => p.asq % 2 ^ 32
  | 0x2C => p.asq / 2 ^ 32
  | 0x30 => p.acq % 2 ^ 32
  | 0x34 => p.acq / 2 ^ 32
  | _ => 0

/-- A host write to CC is kept and passed to firmware (R419, R420). -/
def Bench.ccWrite (b : Bench) (k v : Nat) : Bench :=
  let p := b.npage k
  let b := b.setNpage k { p with cc := v }
  (b.storageMsg [storageWord 1 (b.fld (R.storage_NVME_CTRL_CLAIM k)) 0 0, BitVec.ofNat 64 v, BitVec.ofNat 64 p.aqa,
    BitVec.ofNat 64 p.asq, BitVec.ofNat 64 p.acq, 0, 0, 0, 0, 0]).pump

/-- A doorbell of the register page (R419): `cq` for a head doorbell, of queue `y`. -/
def nvmeDoorbell (bn : BenchId) (k y : Nat) (cq : Bool) (v : Nat) (h : Hub) (b : Bench) : Hub × Bench :=
  let i := b.fld (R.storage_NVME_CTRL_CLAIM k)
  match b.claim? i with
  | none => (h, b.tick T.NVME_DB_IGNORED)
  | some c =>
    let r := c.ringBase + 2 * y + (if cq then 1 else 0)
    let idx := v % 65536
    let n := b.ringN r
    let moved := (idx + n - b.hostIndex r) % n
    let beyond := cq && (b.ringCount r).toNat < moved
    if !c.owns r || b.ringKind r ≠ (if cq then 5 else 4) || !bit (b.npage k).cc 0 then (h, b.tick T.NVME_DB_IGNORED)
    else if n ≤ idx || beyond then
      let off := 0x1000 + 8 * y + (if cq then 4 else 0)
      let b := (if b.ringState r = 1 || b.ringState r = 2 then b.ringError r 1 else b).spoilTick 0xBA 0
      (h, (b.storageMsg [storageWord 2 i r y, BitVec.ofNat 64 (idx + 2 ^ 16 * off), 0, 0, 0, 0, 0, 0, 0, 0]).pump)
    else
      let q := ringDoorbell bn h b r idx (b.hostLap r) cq
      (q.1, q.2.judgeHeld)

/-- A host write of a word to the register page (R419). -/
def nvmeWriteWord (bn : BenchId) (k off v : Nat) (h : Hub) (b : Bench) : Hub × Bench :=
  let p := b.npage k
  let idle := !bit p.cc 0
  let put := fun (x : NvmePage) => (h, if idle then b.setNpage k x else b.tick T.NVME_REG_IGNORED)
  if 0x1000 ≤ off && off < 0x1200 then nvmeDoorbell bn k ((off - 0x1000) / 8) (off % 8 = 4) v h b
  else
    match off with
    | 0x14 => (h, b.ccWrite k v)
    | 0x24 => put { p with aqa := v }
    | 0x28 => put { p with asq := v + 2 ^ 32 * (p.asq / 2 ^ 32) }
    | 0x2C => put { p with asq := p.asq % 2 ^ 32 + 2 ^ 32 * v }
    | 0x30 => put { p with acq := v + 2 ^ 32 * (p.acq / 2 ^ 32) }
    | 0x34 => put { p with acq := p.acq % 2 ^ 32 + 2 ^ 32 * v }
    | _ => (h, b.tick T.NVME_REG_IGNORED)

/-- NVME_REG_ACCESS: a host access to controller `k`'s register page at a word offset: a read, or a write of `v`. -/
def execNvmeRegAccess (n : BenchId) (k off : Nat) (v : Option Word) (s : State) : Host.Outcome State Fault Refusal :=
  let valid := (s.dev.bench n).flag (R.storage_NVME_CTRL_VALID k)
  match v with
  | none => s.onRead n (fun b => ([if valid then b.nvmeWord k off else 0], b))
  | some w => s.onLive n (fun h b => if valid then nvmeWriteWord n k off w.toNat h b else (h, b))
/-- NVME_CC_WRITE. -/
def execNvmeCcWrite (n : BenchId) (k : Nat) (v : Word) (s : State) : Host.Outcome State Fault Refusal :=
  s.onBench n (fun b => if b.flag (R.storage_NVME_CTRL_VALID k) then b.ccWrite k v.toNat else b)
/-- NVME_SQ_DOORBELL. -/
def execNvmeSqDoorbell (n : BenchId) (k y : Nat) (v : Word) (s : State) : Host.Outcome State Fault Refusal :=
  s.onLive n (fun h b =>
    if b.flag (R.storage_NVME_CTRL_VALID k) && y < 64 then nvmeDoorbell n k y false v.toNat h b else (h, b))
/-- NVME_CQ_DOORBELL. -/
def execNvmeCqDoorbell (n : BenchId) (k y : Nat) (v : Word) (s : State) : Host.Outcome State Fault Refusal :=
  s.onLive n (fun h b =>
    if b.flag (R.storage_NVME_CTRL_VALID k) && y < 64 then nvmeDoorbell n k y true v.toNat h b else (h, b))

/-- A write of word 3 of NVME_CPL_c_t commits an NVMe completion (R421). -/
def Bench.nvmeCommit (b : Bench) (core t w3 : Nat) : Bench :=
  let w0 := (b.reg (R.storage_NVME_CPL core t)).toNat
  let q := getBits w0 0 14
  let r := getBits w0 16 14
  let pair := b.ringKind q = 5 && b.ringKind r = 4 && b.ringClaim q = b.ringClaim r && b.ringCq r = q
  if !pair then b.tick T.NVME_CPL_REFUSED
  else
    let sqid := ((b.claim? (b.ringClaim r)).map (fun c => (r - c.ringBase) / 2)).getD 0
    b.postCpl 22 q [(b.reg (R.storage_NVME_CPL1 core t)).toNat, (b.reg (R.storage_NVME_CPL2 core t)).toNat,
      b.devIndex r + 2 ^ 16 * sqid, getBits w3 0 16 + 2 ^ 17 * getBits w3 16 15]
/-- NVME_CPL_COMMIT: word 3 is written with `v`. -/
def execNvmeCplCommit (n : BenchId) (core t : Nat) (v : Word) (s : State) : Host.Outcome State Fault Refusal :=
  s.onBench n (fun b => if core < 8 && t < 8 then b.nvmeCommit core t v.toNat else b)

/-! ## The power-fail flush (R425, R426) -/

/-- Bench offset of flush-table entry `i`. -/
def Bench.flushAddr (b : Bench) (i : Nat) : Nat := 4096 * b.fld R.storage_FLUSH_TABLE_BASE_BASE + 64 * i
/-- Is a flush entry refused (R425)? -/
def Bench.flushSkip (b : Bench) (e : List Byte) : Bool :=
  let die := feBits e 4 0 4
  let c := feBits e 4 4 1
  let row := leNat (slice e 8 4)
  b.flashState c ≠ fsUp || b.dieState c die ≠ 1 || b.retired c die (b.rowBlock c row) || b.cwPerPage c ≤ feBits e 4 5 3 ||
    (feBits e 12 6 1 = 1 && !b.flag (R.storage_XTS_NS_EN (feBits e 12 0 6)))

/-- Plane of a row address. [PRESUMED, log 67, unsafe] -/
def Bench.rowPlane (b : Bench) (c row : Nat) : Nat := b.rowBlock c row % 2 ^ bitsFor 3 (b.fld (R.storage_GEOMETRY_PLANES c))
/-- Do two rows differ in their planes only? -/
def Bench.rowsEqual (b : Bench) (c r1 r2 : Nat) : Bool :=
  let pb := 2 ^ bitsFor 3 (b.fld (R.storage_GEOMETRY_PLANES c))
  b.rowPage c r1 = b.rowPage c r2 && b.rowBlock c r1 / pb = b.rowBlock c r2 / pb

/-- A program being gathered: channel, die, the first row named, and for each plane the codewords of its page. -/
structure FlushPage where
  chan : Nat
  die : Nat
  row : Nat
  pages : List (Nat × List (Nat × List Byte))
deriving DecidableEq, Repr

/-- Put a gathered program on the bus, planes ascending: codewords that no entry names are 0xFF. -/
def Bench.flushOut (b : Bench) (p : Option FlushPage) : Bench :=
  match p with
  | none => b
  | some p =>
    let planes := (List.range 4).filter (fun k => p.pages.any (fun x => x.1 = k))
    let page := fun (cws : List (Nat × List Byte)) => (List.range (b.cwPerPage p.chan)).flatMap (fun k =>
      match cws.find? (fun x => x.1 = k) with
      | some x => x.2
      | none => List.replicate 4128 0xFF#8)
    let data := planes.flatMap (fun k => page ((p.pages.filter (fun x => x.1 = k)).flatMap (·.2)))
    b.onBus p.chan p.die 2 p.row data (planes.map (2 ^ ·)).sum

/-- Take a codeword into the program being gathered: of its last page, or of a page with an equal row in a plane not named yet; any
other begins a new program. -/
def Bench.flushTake (b : Bench) (p : Option FlushPage) (c die row : Nat) (x : Nat × List Byte) : Option FlushPage × Bench :=
  let k := b.rowPlane c row
  let fresh : FlushPage := { chan := c, die := die, row := row, pages := [(k, [x])] }
  match p with
  | none => (some fresh, b)
  | some g =>
    if g.chan = c && g.die = die && b.rowsEqual c g.row row &&
        ((g.pages.getLast?.map (·.1)) = some k || !g.pages.any (fun y => y.1 = k)) then
      (some { g with pages := g.pages ++ [(k, [x])] }, b)
    else (some fresh, b.flushOut p)

/-- The free bytes of a unit that cannot be read. -/
def Bench.freeBytes (b : Bench) (k : Nat) : List Byte :=
  (List.range (k / 8)).flatMap (fun i => leBytes 8 (Config.freeValue (b.free + i)).toNat)

/-- Flush-table entry `i` as the flush reads it: one that cannot be read is not valid. [DESIGN CHOICE, log 144, unsafe] -/
def Bench.flushEntry (b : Bench) (i : Nat) (ecc : Ecc) : List Byte × Bench :=
  let r := b.readDram (b.flushAddr i) 64 ecc
  (r.1.getD [], r.2)
/-- Is an entry valid? -/
def flushValid (e : List Byte) : Bool := feBits e 12 31 1 = 1

/-- The codeword of a valid entry: its unit, enciphered when XTS_EN, and its metadata. A unit that cannot be read has free bytes. [DESIGN CHOICE, log 144, unsafe] -/
def Bench.flushUnit (b : Bench) (e : List Byte) (ecc : Ecc) : (Nat × List Byte) × Bench :=
  let q := b.readDram (4096 * leNat (slice e 0 4)) 4096 ecc
  let d := q.1.getD (q.2.freeBytes 4096)
  let b := if q.1.isNone then { q.2 with free := q.2.free + 512 } else q.2
  let ns := feBits e 12 0 6
  let d := if feBits e 12 6 1 = 1 then xtsUnit true (b.xtsKey ns) (b.xtsTweak ns (leNat (slice e 16 8))) d else d
  ((feBits e 4 5 3, d ++ slice e 32 32), b)

/-- The flush reads the table in order: refused entries are counted, entries of one page are programmed together, and so are pages of
one die with equal rows in different planes. The answer is the entries programmed, the entries skipped, and the bench. -/
def Bench.flushRun (ecc : Ecc) : Nat → Nat → Option FlushPage → Nat → Nat → Bench → Nat × Nat × Bench
  | 0, _, p, done, skip, b => (done, skip, b.flushOut p)
  | k + 1, i, p, done, skip, b =>
    let r := b.flushEntry i ecc
    let e := r.1
    let b := r.2
    if !flushValid e then Bench.flushRun ecc k (i + 1) p done skip b
    else if b.flushSkip e then Bench.flushRun ecc k (i + 1) p done (skip + 1) (b.spoilTick 0xBB 0)
    else
      let u := b.flushUnit e ecc
      let q := u.2.flushTake p (feBits e 4 4 1) (feBits e 4 0 4) (leNat (slice e 8 4)) u.1
      Bench.flushRun ecc k (i + 1) q.1 (done + 1) skip q.2

/-- FLUSH_DONE: the last page of the flush is programmed (R426). -/
def execFlushDone (n : BenchId) (ecc : Ecc) (s : State) : Host.Outcome State Fault Refusal :=
  s.onBench n (fun b =>
    if b.flag R.storage_FLUSH_STATUS_RUNNING then
      let r := Bench.flushRun ecc (b.fld R.storage_FLUSH_CTL_FLUSH_LEN) 0 none 0 0 b
      let b := (r.2.2.setFld R.storage_FLUSH_COUNT_PROGRAMMED r.1).setFld R.storage_FLUSH_COUNT_SKIPPED r.2.1
      ((b.setFld R.storage_FLUSH_STATUS_RUNNING 0).setFld R.storage_FLUSH_STATUS_DONE 1).mediaLog 8 0 0 r.1
    else b)

/-- PWRFAIL_N falls (R426): an armed bench stops fetching; operations not started end, and its flush begins. -/
def Bench.powerFailing (b : Bench) : Bench :=
  if b.live && b.flag R.storage_FLUSH_CTL_ARMED then
    let b := b.sto.ops.foldl (fun b o => if !o.started && o.status.isNone then b.opOver o o 0xB8 else b) b
    let b := { b with sto := { b.sto with shed := true } }
    (((b.setFld R.storage_FLUSH_STATUS_RUNNING 1).setFld R.storage_FLUSH_COUNT_PROGRAMMED 0).setFld
      R.storage_FLUSH_COUNT_SKIPPED 0)
  else b

/-- The flush window ends with the flush undone (R426): how far in the table it has come is a free value; the entries skipped before
are counted, and those after it that would be programmed are counted under FLUSH_UNDONE. [DESIGN CHOICE, log 145, safe] -/
def Bench.flushUndone (b : Bench) : Bench :=
  if b.flag R.storage_FLUSH_STATUS_RUNNING then
    let len := b.fld R.storage_FLUSH_CTL_FLUSH_LEN
    let f := b.takeFree
    let at_ := f.1.toNat % (len + 1)
    let b := f.2
    let valid := (List.range len).filter (fun i => flushValid (b.flushEntry i []).1)
    let skips := fun i => b.flushSkip (b.flushEntry i []).1
    let b := (valid.filter (fun i => i < at_ && skips i)).foldl (fun b _ => b.spoilTick 0xBB 0) b
    let k := (valid.filter (fun i => at_ ≤ i && !skips i)).length
    (match spoilTally? 0xBC 0 with | some t => b.count t k | none => b).mediaLog 9 0 0 k
  else b

/-- PWRFAIL_N has risen within the window (R426). -/
def Bench.powerBack (b : Bench) : Bench :=
  if b.sto.shed then { b with sto := { b.sto with shed := false } }.setFld R.storage_FLUSH_STATUS_RECOVERED 1 else b

end Sys2Proof.Machine
end

