-- ==== Sys2Proof/Machine/Endpoint.lean ====
section
/-! DEFINITION. The host endpoints (R324 to R357): host windows, links, configuration space, Bus Master Enable, function-level
reset, link loss, completions and time-outs, window commits, interrupts unmasked, and power states of functions. -/
namespace Sys2Proof.Machine

/-! ## Links (R325 to R327) -/

/-- A link with no partner. Until a window is lent, bench 0 stands as the last borrower, so that the search starts at bench 1. [DESIGN CHOICE, log 108, unsafe] -/
def LinkSt.idle : LinkSt := { training := false, retrain := false, borrower := 0, ph := 0, nph := 0, pd := 0, npd := 0, spent := [] }
/-- Link `l` = 2 port + link. -/
def Hub.link (h : Hub) (l : Nat) : LinkSt := sparseGet (fun _ => LinkSt.idle) h.links l
/-- Put a link. -/
def Hub.setLink (h : Hub) (l : Nat) (x : LinkSt) : Hub := { h with links := sparseSet (fun _ => LinkSt.idle) h.links l x }
/-- STATE of a link: 0 DOWN, 1 LIMITED, 2 USABLE, 3 RECOVERY (R353). -/
def Hub.linkState (h : Hub) (l : Nat) : Nat := h.fld (R.ep_LINK_STATUS_STATE (l / 2) (l % 2))
/-- A change of a link's state sets LINK_CHANGED and raises hub event 656 + p (R327). -/
def Hub.setLinkState (h : Hub) (l st : Nat) : Hub :=
  if h.linkState l = st then h
  else
    ((h.setFld (R.ep_LINK_STATUS_STATE (l / 2) (l % 2)) st).setFld (R.ep_LINK_STATUS_LINK_CHANGED (l / 2) (l % 2)) 1).raise
      (656 + l / 2)
/-- Put the rate and the width of a link. -/
def Hub.setLinkRate (h : Hub) (l rate width : Nat) : Hub :=
  (h.setFld (R.ep_LINK_STATUS_RATE (l / 2) (l % 2)) rate).setFld (R.ep_LINK_STATUS_WIDTH (l / 2) (l % 2)) width
/-- Does a link of the port exist: A always, B on a split port (R324)? -/
def Hub.hasLink (h : Hub) (l : Nat) : Bool := l % 2 = 0 || h.split (l / 2)
/-- The first PF of a link, in which errors tied to no function are logged (R328, R350). -/
def firstPf (l : Nat) : Nat := fnKey (l / 2) false (4 * (l % 2))
/-- Does a function lie on a link? -/
def Hub.onLink (h : Hub) (l key : Nat) : Bool := fnPort key = l / 2 && h.linkOf key = l

/-- A record of the FN_EVENT queue of a port, with hub event 660 (R355). -/
def Hub.fnEvent (h : Hub) (key kind : Nat) : Hub :=
  let p := fnPort key
  let q := sparseGet (fun _ => ([] : List FnEvent)) h.fnq p
  if 64 ≤ q.length then h.tickLink T.FN_EVENT_LOST key
  else
    let k := sparseGet noCount h.fnSeq p + 1
    let r : FnEvent := { idx := fnIdx key, vf := fnVf key, link := h.linkOf key % 2, kind := kind, seq := k % 256 }
    { h with fnq := sparseSet (fun _ => ([] : List FnEvent)) h.fnq p (q ++ [r]), fnSeq := sparseSet noCount h.fnSeq p k }.raise 660

/-! ## Functions that fall silent (R347 to R349) -/

/-- Requests and interrupts of a set of functions that wait for their windows are discarded; with `all`, completions too. -/
def dropTlps (p : Nat → Bool) (all : Bool) (l : List Tlp) : List Tlp :=
  l.filter (fun t => !(p t.fn && (all || t.kind ≠ .completion)))

/-- A bench's part of it: the claims of those functions end under a code. -/
def Bench.silence (b : Bench) (p : Nat → Bool) (code : Nat) (free all : Bool) : Bench :=
  let b := b.endClaims ((b.rings.claims.filter (fun c => p c.2.fn)).map (·.1)) code free
  let r := if free then b.reads.filter (fun r => !p r.fn) else (b.reads.filter (fun r => !(r.ryuner && p r.fn && b.unsent r))).map
    (fun (r : HostRead) => if r.ryuner && p r.fn then { r with dead := true } else r)
  { b with tlps := dropTlps p all b.tlps, reads := r }

/-- What Ryuner reads for those functions does not arrive: its commands will end HOST_ERROR; an admin queue is read again later (R480). -/
def Hub.readsEnd (h : Hub) (p : Nat → Bool) : Hub :=
  h.updFw (fun w => { w with
    cmds := w.cmds.map (fun (c : Sceune) => if p (h.mbx c.mbx).fn && c.arrived < c.asked then { c with failed := true } else c)
    mbx := w.mbx.map (fun (x : Nat × Mailbox) =>
      (x.1, if p x.2.fn then { x.2 with admin := x.2.admin.map AdminPair.unread? } else x.2)) })

/-- Every bench's and the hub's requests of a set of functions end (R347). -/
def Device.silence (d : Device) (p : Nat → Bool) (code : Nat) (free all : Bool) : Device :=
  let d := d.runAll (fun _ h b => (h, b.silence p code free all))
  let h : Hub := { d.hub with tlps := d.hub.tlps.filter (fun t => !(p t.2.fn && (all || t.2.kind ≠ .completion))) }
  { d with hub := h.readsEnd p }

/-- Vectors of interrupt writes of a function that still wait for a window, each with the bench whose window it waits for. -/
def Device.waitingVectors (d : Device) (key : Nat) : List (Nat × Option BenchId) :=
  let mine := fun (t : Tlp) => t.kind = .interrupt && t.fn = key
  ((List.finRange 16).flatMap (fun n => ((d.bench n).tlps.filter mine).map (fun t => (t.tag, some n)))) ++
    (d.hub.tlps.filter (fun x => mine x.2)).map (fun x => (x.2.tag, some (benchOf x.1)))

/-- The mailboxes of a set of functions are cleared (R480). -/
def Hub.clearMailboxes (h : Hub) (p : Nat → Bool) : Hub :=
  (h.fw.mbx.filter (fun x => p x.2.fn)).foldl (fun h x => h.clearMbx x.1) h

/-- The configuration registers and MSI-X tables of a set of functions take their reset values (R348). -/
def Hub.resetFns (h : Hub) (p : Nat → Bool) : Hub :=
  { h with fns := h.fns.filter (fun x => !p x.1), msix := h.msix.filter (fun x => !p (x.1 / 2048)) }

/-- The functions that a reset of one takes with it: a PF's VFs (R348). -/
def Hub.family (h : Hub) (key : Nat) (k : Nat) : Bool :=
  k = key || (!fnVf key && fnVf k && fnPort k = fnPort key && h.pfOf k = some (fnIdx key))

/-- Bus Master Enable falls to 0 (R347). [DESIGN CHOICE, log 23, unsafe] -/
def Device.bmeClear (d : Device) (key : Nat) : Device :=
  let f := d.hub.fn key
  if !f.bme then d
  else
    let late := (d.waitingVectors key).filter (fun v => !f.pend.any (fun w => w.1 = v.1))
    let d := d.silence (fun k => k = key) 0x90 false false
    { d with hub := (d.hub.setFn key { f with bme := false, pend := f.pend ++ late }).fnEvent key 0 }
/-- Bus Master Enable rises to 1: pending vectors that are not masked are sent (R341, R347). -/
def Device.bmeSet (d : Device) (key : Nat) : Device :=
  let f := d.hub.fn key
  if f.bme then d
  else
    { d with hub := (((d.hub.setFn key { f with bme := true }).sendPending key).adminFlushFn key).fnEvent key 1 }

/-- A function-level reset begins (R348). [DESIGN CHOICE, log 24, unsafe] -/
def Device.flrStart (d : Device) (key : Nat) : Device :=
  if d.hub.inReset key then d
  else
    let p := d.hub.family key
    let d := d.silence p 0x90 false false
    let h := { d.hub with fns := d.hub.fns.map (fun (x : Nat × FnSt) => if p x.1 then (x.1, { x.2 with pend := [] }) else x) }
    let h := (h.setFn key { h.fn key with flr := true, bme := false, vfEnable := false }).clearMailboxes p
    { d with hub := h.fnEvent key 2 }
/-- A function-level reset is over (R348). -/
def Hub.flrDone (h : Hub) (key : Nat) : Hub :=
  if (h.fn key).flr then (h.resetFns (h.family key)).fnEvent key 3 else h

/-- A link is lost, and stands in state `st` (R349): its functions are reset, every tag of theirs is freed, operations end with
HOST_LINK_DOWN. [DESIGN CHOICE, log 24, unsafe] -/
def Device.linkDown (d : Device) (l st : Nat) : Device :=
  let p := d.hub.onLink l
  let d := d.silence p 0x94 true true
  let h := ((d.hub.resetFns p).clearMailboxes p).fnEvent (firstPf l) 4
  let h := { h with inq := h.inq.filter (fun x => x.1 / 17 ≠ l) }
  let h := if st = 0 then h.setLinkRate l 0 0 else h
  { d with hub := { h with fw := { h.fw with turnOff := h.fw.turnOff.filter (· ≠ l) } }.setLinkState l st }

/-- BME_CLEAR: a configuration write clears Bus Master Enable of a function. -/
def execBmeClear (key : Nat) (s : State) : Host.Outcome State Fault Refusal := .next { s with dev := s.dev.bmeClear key }
/-- BME_SET. -/
def execBmeSet (key : Nat) (s : State) : Host.Outcome State Fault Refusal := .next { s with dev := s.dev.bmeSet key }
/-- FLR_START: a configuration write sets Initiate Function Level Reset. -/
def execFlrStart (key : Nat) (s : State) : Host.Outcome State Fault Refusal := .next { s with dev := s.dev.flrStart key }
/-- FLR_DONE. -/
def execFlrDone (key : Nat) (s : State) : Host.Outcome State Fault Refusal := s.onHub (fun h => h.flrDone key)
/-- LINK_LOSS: the link leaves L0, or takes a hot reset. -/
def execLinkLoss (p : HostPort) (k : Fin 2) (s : State) : Host.Outcome State Fault Refusal :=
  let l := 2 * p.val + k.val
  .next { s with dev := if s.dev.hub.linkState l = 0 then s.dev else s.dev.linkDown l 0 }

/-! ## Training (R325, R326, R327, R542) -/

/-- The links of a port begin training: IMAGE_OK stands and PERST# is high (R542). -/
def Hub.trainPort (h : Hub) (p : Nat) : Hub :=
  if h.flag R.pcr_RESET_CAUSE_IMAGE_OK && !h.fw.perst.contains p then
    [2 * p, 2 * p + 1].foldl (fun h l => if h.hasLink l then h.setLink l { h.link l with training := true } else h) h
  else h
/-- LINK_TRAINING_START. -/
def execLinkTrainingStart (p : HostPort) (s : State) : Host.Outcome State Fault Refusal := s.onHub (fun h => h.trainPort p.val)

/-- What a partner offers as its link reaches L0: Flit mode; the highest common rate (0 below 16 GT/s, 1 to 3 for 16, 32 and 64
GT/s); the width (0 below x8, 1 x8, 2 x16); the flow-control credits, 0 for an infinite advertisement. -/
def Hub.linkL0 (h : Hub) (l : Nat) (flit : Bool) (rate width ph nph pd npd : Nat) : Hub :=
  if !(h.link l).training || h.linkState l ≠ 0 then h
  else if !flit then (h.setFld (R.ep_LINK_STATUS_NO_FLIT (l / 2) (l % 2)) 1).tick (T.NO_FLIT (l / 2) (l % 2))
  else
    let few := fun (x k : Nat) => x ≠ 0 && x < k
    let short := few ph 16 || few nph 16 || few pd 8192 || few npd 8192
    let h := h.setLink l { h.link l with ph := ph, nph := nph, pd := pd, npd := npd, spent := [] }
    let h := (h.setLinkRate l rate width).setLinkState l (if 1 ≤ rate && 1 ≤ width then 2 else 1)
    let h := h.setFld (R.ep_LINK_STATUS_CREDIT_SHORT (l / 2) (l % 2)) (if short then 1 else 0)
    if short then h.raise (656 + l / 2) else h
/-- LINK_L0. -/
def execLinkL0 (p : HostPort) (k : Fin 2) (flit : Bool) (rate width ph nph pd npd : Nat) (s : State) :
    Host.Outcome State Fault Refusal :=
  s.onHub (fun h => h.linkL0 (2 * p.val + k.val) flit (rate % 4) (min width 2) ph nph pd npd)

/-- A link enters Recovery, or, with `back`, returns from it at a rate and width: no higher ones unless the host asked for a retrain
(R327). A LIMITED link, which is lost already, may come back USABLE by a retrain. -/
def Device.linkRecovery (d : Device) (l : Nat) (back : Option (Nat × Nat)) : Device :=
  let h := d.hub
  match back with
  | none => if h.linkState l = 1 || h.linkState l = 2 then { d with hub := h.setLinkState l 3 } else d
  | some (rate, width) =>
    if h.linkState l ≠ 3 then d
    else
      let p := l / 2
      let k := l % 2
      let r0 := h.fld (R.ep_LINK_STATUS_RATE p k)
      let w0 := h.fld (R.ep_LINK_STATUS_WIDTH p k)
      let free := (h.link l).retrain
      let r := if free then rate % 4 else min rate r0
      let w := if free then min width 2 else min width w0
      let h := (h.setLink l { h.link l with retrain := false }).setLinkRate l r w
      let h := if r = r0 && w = w0 then h.tick (T.LINK_RECOVERY p k)
        else if r < r0 || w < w0 then (h.setFld (R.ep_LINK_STATUS_DEGRADED p k) 1).tick (T.LINK_DEGRADED p k) else h
      if 0 < r && 0 < w then { d with hub := h.setLinkState l 2 }
      else if 0 < r0 && 0 < w0 then { d with hub := h }.linkDown l 1
      else { d with hub := h.setLinkState l 1 }
/-- LINK_RECOVERY. -/
def execLinkRecovery (p : HostPort) (k : Fin 2) (back : Option (Nat × Nat)) (s : State) : Host.Outcome State Fault Refusal :=
  .next { s with dev := s.dev.linkRecovery (2 * p.val + k.val) back }

/-- What a fault below the TLPs of a link comes to: a replay, counted and logged under its cause, or a protocol error, logged (R32,
R350). -/
def Hub.linkError (h : Hub) (p k : Nat) (what : LinkFault) : Hub :=
  let f := firstPf (2 * p + k)
  match what with
  | .badFlit => (h.tick (T.REPLAY p k)).logAer f aerReplay
  | .replayTimeout => (h.tick (T.REPLAY p k)).logAer f aerReplayTimeout
  | .replayRollover => (h.tick (T.REPLAY p k)).logAer f aerRollover
  | .dataLinkProtocol => h.logAer f aerDataLink
  | .flowControlProtocol => h.logAer f aerFlowControl
/-- FLIT_REPLAY: a flit failed its check and is replayed, or another fault of the link is met (R32, R350). -/
def execFlitReplay (p : HostPort) (k : LinkErr) (s : State) : Host.Outcome State Fault Refusal :=
  s.onHub (fun h => if h.linkState (2 * p.val + k.link.val) = 0 then h else h.linkError p.val k.link.val k.what)

/-! ## Host windows (R28 to R33, R332, R333) -/

/-- Bytes of a TLP on the link: its data behind a header of 32 bytes at most. [DESIGN CHOICE, log 22, unsafe] -/
def Tlp.bytes (t : Tlp) : Nat := 32 + t.data.length
/-- Is a TLP a posted, a non-posted or a completion TLP? -/
def Tlp.posted (t : Tlp) : Bool := t.kind = .write || t.kind = .interrupt

/-- What may still leave in a window: bytes, and the bench's share of the host's credits (R333). -/
structure Room where
  bytes : Nat
  ph : Nat
  nph : Nat
  pd : Nat
deriving DecidableEq, Repr

/-- A bench's share of an advertisement: a sixteenth, no limit for 0 (infinite), and `least` where credits are short. [DESIGN CHOICE, log 22, unsafe] -/
def creditShare (short : Bool) (total least : Nat) : Nat := if total = 0 then 1024 * 1024 else if short then least else total / 16

/-- No credits. -/
def Credits.zero : Credits := { ph := 0, nph := 0, pd := 0 }
/-- The credits of a link that bench `n` has consumed and the host has not returned. -/
def LinkSt.spentBy (x : LinkSt) (n : Nat) : Credits := sparseGet (fun _ => Credits.zero) x.spent n
/-- Put them. -/
def LinkSt.setSpent (x : LinkSt) (n : Nat) (c : Credits) : LinkSt := { x with spent := sparseSet (fun _ => Credits.zero) x.spent n c }

/-- How many of the credits that a bench has consumed the host has returned by now is the host's to say: a free value. [DESIGN CHOICE, log 137, safe] -/
def Hub.creditsBack (h : Hub) (l : Nat) (n : BenchId) : Hub :=
  let c := (h.link l).spentBy n.val
  if c = Credits.zero then h
  else
    let v := h.takeFree.1.toNat
    let left : Credits := { ph := v % (c.ph + 1), nph := v / 2 ^ 16 % (c.nph + 1), pd := v / 2 ^ 32 % (c.pd + 1) }
    h.takeFree.2.setLink l ((h.link l).setSpent n.val left)

/-- The room of a window of a link for bench `n`: 3 flits of 236 bytes, and what is left of its share. The device sends no non-posted
request with data. [DESIGN CHOICE, log 22, unsafe] -/
def Hub.windowRoom (h : Hub) (l : Nat) (n : BenchId) : Room :=
  let x := h.link l
  let c := x.spentBy n.val
  let short := h.flag (R.ep_LINK_STATUS_CREDIT_SHORT (l / 2) (l % 2))
  { bytes := 708, ph := creditShare short x.ph 1 - c.ph, nph := creditShare short x.nph 1 - c.nph, pd := creditShare short x.pd 512 - c.pd }

/-- TLPs that leave consume credits of the types that the host limits. -/
def Hub.creditsSpent (h : Hub) (l : Nat) (n : BenchId) (out : List Tlp) : Hub :=
  let x := h.link l
  let c := x.spentBy n.val
  let p := out.filter (·.posted)
  let on := fun (total k : Nat) => if total = 0 then 0 else k
  h.setLink l (x.setSpent n.val { ph := c.ph + on x.ph p.length, nph := c.nph + on x.nph (out.filter (fun t => t.kind = .read)).length
                                  pd := c.pd + on x.pd (p.map (fun t => t.data.length)).sum })

/-- The TLPs that leave, in order, as long as the next fits, and those that wait (R30). [DESIGN CHOICE, log 22, unsafe] -/
def sendFit : Room → List Tlp → List Tlp × List Tlp
  | _, [] => ([], [])
  | r, t :: l =>
    let fits := t.bytes ≤ r.bytes && (!t.posted || (1 ≤ r.ph && t.data.length ≤ r.pd)) && (t.kind ≠ .read || 1 ≤ r.nph)
    if !fits then ([], t :: l)
    else
      let r' : Room := { bytes := r.bytes - t.bytes, ph := if t.posted then r.ph - 1 else r.ph
                         nph := if t.kind = .read then r.nph - 1 else r.nph, pd := if t.posted then r.pd - t.data.length else r.pd }
      (t :: (sendFit r' l).1, (sendFit r' l).2)

/-- May a TLP leave on a link: any on a USABLE one, completions on a LIMITED one, which answers requests and carries nothing else
(R326)? -/
def Hub.carriesTlp (h : Hub) (l : Nat) (t : Tlp) : Bool :=
  h.onLink l t.fn && (h.linkState l = 2 || (h.linkState l = 1 && t.kind = .completion))
/-- The TLPs of bench `n`'s window on a link: the bench's own, then the hub's for functions whose HOME_BENCH it is (R332). -/
def Device.windowTlps (d : Device) (l : Nat) (n : BenchId) : List Tlp :=
  ((d.bench n).tlps.filter (d.hub.carriesTlp l)) ++ ((d.hub.tlps.filter (fun x => x.1 = n.val && d.hub.carriesTlp l x.2)).map (·.2))
/-- Is a bench bound to a link: from its START until it stops (R27, R50)? [DEDUCED, log 109, unsafe] -/
def Bench.bound (b : Bench) (l : Nat) : Bool := b.up && b.power.hostLink = l

/-- A list without its first `k` members that pass a test. -/
def dropFirst {α : Type} (p : α → Bool) : Nat → List α → List α
  | _, [] => []
  | 0, l => l
  | k + 1, x :: t => if p x then dropFirst p k t else x :: dropFirst p (k + 1) t

/-- A read of the bench that is being sent. -/
def Bench.sending (b : Bench) (t : Tlp) (r : HostRead) : Bool := t.kind = .read && r.fn = t.fn && r.tag = t.tag && b.unsent r
/-- A TLP of bench `n` as it stands on its link: a read carries the bench number in its tag (R33, R335). -/
def Bench.onWire (n : BenchId) (b : Bench) (t : Tlp) : Tlp :=
  match b.reads.find? (b.sending t) with
  | some r => { t with tag := r.wireTag n }
  | none => t
/-- Reads that are being sent take the time-out in force (R342). -/
def Bench.readsSent (h : Hub) (b : Bench) (out : List Tlp) : Bench :=
  { b with reads := b.reads.map (fun (r : HostRead) =>
    if out.any (fun t => b.sending t r) then { r with cto := timeoutMicros (h.fn r.fn).cto } else r) }

/-- Bench `n` sends in a window of a link. -/
def Device.sendWindow (d : Device) (l : Nat) (n : BenchId) : Device :=
  let d := { d with hub := d.hub.creditsBack l n }
  let out := (sendFit (d.hub.windowRoom l n) (d.windowTlps l n)).1
  let mine := d.hub.carriesTlp l
  let b := d.bench n
  let own := min out.length (b.tlps.filter mine).length
  let h := d.hub.creditsSpent l n out
  let h := { h with
    tlps := dropFirst (fun (x : Nat × Tlp) => x.1 = n.val && mine x.2) (out.length - own) h.tlps
    wire := h.wire ++ ((out.take own).map (b.onWire n) ++ out.drop own).map (fun t => (l, t)) }
  let b' : Bench := { b.readsSent d.hub (out.take own) with tlps := dropFirst mine own b.tlps }
  { d with hub := h, benches := d.benches.set n.val b' }

/-- The bench that borrows a lent window: the next bound one behind the last borrower that has a TLP ready (R31). -/
def Device.borrower (d : Device) (l : Nat) (owner : BenchId) : Option BenchId :=
  let last := (d.hub.link l).borrower
  ((List.range 16).map (fun k => benchOf (last + 1 + k))).find? (fun n =>
    n ≠ owner && (d.bench n).bound l && !(d.windowTlps l n).isEmpty)

/-- The start of window `n` on a link (R30, R31): a LIMITED link answers in it (R326), and lends none. [DESIGN CHOICE, log 22, unsafe] -/
def Device.hostWindow (d : Device) (l : Nat) (n : BenchId) : Device :=
  if d.hub.linkState l = 1 then d.sendWindow l n
  else if d.hub.linkState l ≠ 2 then d
  else if !(d.windowTlps l n).isEmpty then d.sendWindow l n
  else if (d.bench n).bound l && !d.hub.flag (R.pcr_BENCH_CTL_LEND_OK n.val) then d
  else match d.borrower l n with
    | none => d
    | some m =>
      let d := d.run n (fun h b => (h, b.tick T.WHEEL_LENT))
      let d := d.run m (fun h b => (h.setLink l { h.link l with borrower := m.val }, b.tick T.WHEEL_BORROWED))
      d.sendWindow l m
/-- HOST_WINDOW_START. -/
def execHostWindowStart (p : HostPort) (k : Fin 2) (n : BenchId) (s : State) : Host.Outcome State Fault Refusal :=
  .next { s with dev := s.dev.hostWindow (2 * p.val + k.val) n }

/-! ## Configuration space (R328 to R331, R542) -/

/-- TOTAL_VFS of the PFs of a port below PF `f`: the VF index of its first VF. -/
def Hub.vfFirst (h : Hub) (p f : Nat) : Nat := ((List.range f).map (fun g => h.fld (R.ep_FN_CFG_TOTAL_VFS p g))).sum
/-- The first PF of the link of PF `f`: 0, or 4 on link B. -/
def Hub.pfBase (h : Hub) (p f : Nat) : Nat := if h.split p && 4 ≤ f then 4 else 0
/-- Is a VF switched on: VF Enable of its PF, and a number below NumVFs (R328, R331)? -/
def Hub.vfOn (h : Hub) (key : Nat) : Bool :=
  let f := h.pfState key
  f.vfEnable && fnIdx key - h.vfFirst (fnPort key) ((h.pfOf key).getD 0) < f.numVfs
/-- Is a function present: an enabled PF, or a VF of an enabled PF that has switched it on (R328)? -/
def Hub.present (h : Hub) (key : Nat) : Bool := h.fnExists key && h.hasLink (h.linkOf key) && (!fnVf key || h.vfOn key)
/-- Function number of a PF on its link: 0 to 7, or 0 to 3 on each link of a split port (R328). -/
def Hub.fnNumber (h : Hub) (p f : Nat) : Nat := f - h.pfBase p f
/-- First VF Offset of a PF: the VFs of a link take the routing IDs behind its PFs, in ascending order, with VF Stride 1 (R328). [DESIGN CHOICE, log 138, unsafe] -/
def Hub.firstVfOffset (h : Hub) (p f : Nat) : Nat :=
  (if h.split p then 4 else 8) + (h.vfFirst p f - h.vfFirst p (h.pfBase p f)) - h.fnNumber p f
/-- Routing ID of a function on its link, on the bus that the host gives it. -/
def Hub.routingId (h : Hub) (key : Nat) : Nat :=
  let p := fnPort key
  let f := (h.pfOf key).getD 0
  if fnVf key then h.fnNumber p f + h.firstVfOffset p f + (fnIdx key - h.vfFirst p f) else h.fnNumber p f
/-- ARI Next Function Number: the function number of the next enabled PF of the link, 0 behind the last. -/
def Hub.nextFunction (h : Hub) (p f : Nat) : Nat :=
  (((List.range 8).find? (fun g => f < g && h.pfBase p g = h.pfBase p f && h.flag (R.ep_FN_CFG_ENABLE p g))).map (h.fnNumber p)).getD 0

/-- Does a function carry a capability (R331)? -/
def carries (key : Nat) (first : Bool) (c : PciCap) : Bool :=
  match c with
  | .express | .msix | .aer | .ari | .pasid => true
  | .power | .msi | .sriov => !fnVf key
  | .acs | .serial | .linkFeature | .phys16 | .phys32 | .phys64 | .margining => first
  | _ => false
/-- The capability that a field of configuration space belongs to. -/
def capOf (x : CfgField) : PciCap :=
  match x with
  | .msiEnable | .msiAddr | .msiData | .msiMask | .msiCount | .msiCapable => .msi
  | .powerState | .pmeEnable | .pmeStatus | .pmSupport => .power
  | .vfEnable | .numVfs | .totalVfs | .vfBar0 | .vfBar2 | .vfBar4 | .firstVfOffset | .vfStride | .pageSizes | .pageSize => .sriov
  | .acsSupported | .acsControl => .acs
  | .serialNumber => .serial
  | .linkFeature => .linkFeature
  | _ => .express
/-- Is a function the first PF of its link? -/
def Hub.firstOfLink (h : Hub) (key : Nat) : Bool := key = firstPf (h.linkOf key)
/-- Has a function a field of configuration space: one of a capability that it carries, and a BAR of its own if it is a PF? -/
def Hub.hasField (h : Hub) (key : Nat) (x : CfgField) : Bool :=
  carries key (h.firstOfLink key) (capOf x) && !(fnVf key && (x = .bar0 || x = .bar2 || x = .bar4))
/-- A BAR of 2^k bytes as it reads: its address bits and the type bits of a 64-bit non-prefetchable memory BAR (R336). -/
def barWord (a : Nat) : Nat := a + 4
/-- The address bits that a BAR of 2^k bytes keeps. -/
def barBits (k v : Nat) : Nat := v % 2 ^ 64 / 2 ^ k * 2 ^ k

/-- Has its port reached configuration readiness (R543)? -/
def Hub.ready (h : Hub) (p : Nat) : Bool := bit (h.fld R.pcr_CFG_READY_READY) p

/-- Class Code by FN_CFG CLASS (R329). -/
def classCode (c : Nat) : Nat := match c with | 0 => 0x020000 | 1 => 0x010802 | _ => 0xFF0000

/-- A set of rows as a mask. -/
def rowMask (l : List Nat) : Nat := l.foldl (fun m r => Nat.lor m (2 ^ r)) 0

/-- The value of a field of configuration space; one that the function has not reads 0. [PRESUMED, log 21, unsafe] -/
def Hub.cfgValue (h : Hub) (key : Nat) (x : CfgField) : Nat :=
  let f := h.fn key
  let nat := fun (p : Bool) => if p then 1 else 0
  if !h.hasField key x then 0
  else match x with
  | .vendorId => h.fw.fuses.vendorId
  | .deviceId => if fnVf key then 0x6417 else 0x6416
  | .revision => 0xB0
  | .classCode => classCode (h.fld (R.ep_FN_CFG_CLASS (fnPort key) ((h.pfOf key).getD 0)))
  | .interruptPin => 0
  | .totalVfs => h.fld (R.ep_FN_CFG_TOTAL_VFS (fnPort key) (fnIdx key))
  | .tableSize => h.tableSize key
  | .busMaster => nat f.bme
  | .msixEnable => nat f.msixEn
  | .functionMask => nat f.fnMask
  | .msiEnable => nat f.msiEn
  | .msiAddr => f.msiAddr
  | .msiData => f.msiData
  | .msiMask => f.msiMask
  | .pasidEnable => nat f.pasidEn
  | .tag10 => nat f.tag10
  | .tag14 => nat f.tag14
  | .maxPayload => f.mps
  | .maxReadRequest => f.mrrs
  | .completionTimeout => f.cto
  | .powerState => if h.inD3 key then 3 else 0
  | .pmeEnable => nat f.pmeEn
  | .pmeStatus => nat f.pmeStatus
  | .vfEnable => nat f.vfEnable
  | .numVfs => f.numVfs
  | .bar0 => barWord f.bar0
  | .bar2 => barWord f.bar2
  | .bar4 => barWord f.bar4
  | .flr => 0
  | .retrainLink => 0
  | .aerStatus => rowMask f.aer
  | .subsystemId => (Config.subsystemId key).toNat
  | .has c => nat (carries key (h.firstOfLink key) c)
  | .mpsSupported => 2
  | .tagsSupported => 7
  | .timeoutSupported => 7
  | .relaxedOrdering => nat f.relaxed
  | .noSnoop => nat f.noSnoop
  | .idoRequest => nat f.idoReq
  | .idoCompletion => nat f.idoCpl
  | .errorReporting => f.errRep
  | .msiCapable => 5
  | .msiCount => f.msiCount
  | .pasidWidth => 20
  | .vfBar0 => barWord f.vfBar0
  | .vfBar2 => barWord f.vfBar2
  | .vfBar4 => barWord f.vfBar4
  | .firstVfOffset => h.firstVfOffset (fnPort key) (fnIdx key)
  | .vfStride => 1
  | .pageSizes => 7
  | .pageSize => f.pageSize
  | .nextFunction => if fnVf key then 0 else h.nextFunction (fnPort key) (fnIdx key)
  | .acsSupported => 12
  | .acsControl => f.acs
  | .serialNumber => h.fw.fuses.serial
  | .linkFeature => 1
  | .pmSupport => 0x18
  | .aerMask => rowMask f.aerMask
  | .aerFatal => rowMask f.aerFatal
  | .headerLog w => ((f.header.map (·.2)).getD []).getD w.val 0

/-- A configuration request answered: status 0 with the value, 1 Unsupported Request, 3 Configuration Request Retry Status; none
while the link is not in L0 (R326, R348, R542). [PRESUMED, log 21, unsafe] -/
def Hub.cfgStatus (h : Hub) (key : Nat) : Option Nat :=
  let st := h.linkState (h.linkOf key)
  if st = 0 || st = 3 then none
  else if !h.ready (fnPort key) || h.inReset key then some 3
  else if !h.present key then some 1 else some 0

/-- A completion of the hub. -/
def cplTlp (key status : Nat) (data : List Byte) (ep : Bool) : Tlp :=
  { Tlp.blank .completion key with data := data, status := status, ep := ep }

/-- A configuration request enters the hub's queue of its link; one that finds it full is completed with Completer Abort (R334). -/
def Hub.cfgEnter (h : Hub) (key : Nat) : Bool × Hub := h.inqEnter key none false false 0

/-- CONFIG_READ: the completion goes in the HOME_BENCH window (R332). -/
def execConfigRead (key : Nat) (x : CfgField) (s : State) : Host.Outcome State Fault Refusal :=
  match s.dev.hub.cfgStatus key with
  | none => .next { s with dev := { s.dev with answer := [] } }
  | some st =>
    let q := s.dev.hub.cfgEnter key
    let st := if q.1 then 2 else st
    let h := if q.1 then q.2.logAer key aerAbort else q.2
    let v := if st = 0 then h.cfgValue key x else 0
    .next { s with dev := { s.dev with hub := h.queueTlp (cplTlp key st (if st = 0 then leBytes 8 v else []) false), answer := [st, v] } }

/-- PASID Enable falls: the claims with a PASID end as if Bus Master Enable were 0 for them (R359). -/
def Bench.endPasids (b : Bench) (key : Nat) : Bench :=
  b.endClaims ((b.rings.claims.filter (fun c => c.2.fn = key && c.2.pasid.isSome)).map (·.1)) 0x90 false

/-- A write to an ordinary field of configuration space. -/
def FnSt.cfgSet (f : FnSt) (x : CfgField) (v : Nat) : FnSt :=
  let b := v % 2 = 1
  match x with
  | .msixEnable => { f with msixEn := b }
  | .functionMask => { f with fnMask := b }
  | .msiEnable => { f with msiEn := b }
  | .msiAddr => { f with msiAddr := v % 2 ^ 64 }
  | .msiData => { f with msiData := v % 2 ^ 16 }
  | .msiMask => { f with msiMask := v % 2 ^ 32 }
  | .pasidEnable => { f with pasidEn := b }
  | .tag10 => { f with tag10 := b }
  | .tag14 => { f with tag14 := b }
  | .maxPayload => { f with mps := v % 8 }
  | .maxReadRequest => { f with mrrs := v % 8 }
  | .completionTimeout => { f with cto := v % 16 }
  | .pmeEnable => { f with pmeEn := b }
  | .pmeStatus => if b then { f with pmeStatus := false } else f
  | .vfEnable => { f with vfEnable := b }
  | .numVfs => if f.vfEnable then f else { f with numVfs := v % 2 ^ 16 }
  | .bar0 => { f with bar0 := barBits 26 v }
  | .bar2 => { f with bar2 := barBits 17 v }
  | .bar4 => { f with bar4 := barBits 16 v }
  | .vfBar0 => { f with vfBar0 := barBits 16 v }
  | .vfBar2 => { f with vfBar2 := barBits 14 v }
  | .vfBar4 => { f with vfBar4 := barBits 16 v }
  | .aerStatus =>
    { f with aer := f.aer.filter (fun r => !bit v r), header := if f.header.any (fun x => bit v x.1) then none else f.header }
  | .aerMask => { f with aerMask := (List.range 16).filter (fun r => bit v r) }
  | .aerFatal => { f with aerFatal := (List.range 16).filter (fun r => !aerMild r && bit v r) }
  | .relaxedOrdering => { f with relaxed := b }
  | .noSnoop => { f with noSnoop := b }
  | .idoRequest => { f with idoReq := b }
  | .idoCompletion => { f with idoCpl := b }
  | .errorReporting => { f with errRep := v % 8 }
  | .msiCount => if v ≤ 5 then { f with msiCount := v } else f
  | .pageSize => if v = 1 || v = 2 || v = 4 then { f with pageSize := v } else f
  | .acsControl => { f with acs := Nat.land v 12 }
  | _ => f

/-! ## Power states of functions (R515, R516) -/

/-- Every enabled PF of every USABLE link is in D3hot. -/
def Hub.allD3 (h : Hub) : Bool :=
  let on := (List.range 16).filter (fun i =>
    h.flag (R.ep_FN_CFG_ENABLE (i / 8) (i % 8)) && h.linkState (h.linkOf (fnKey (i / 8) false (i % 8))) = 2)
  !on.isEmpty && on.all (fun i => (h.fn (fnKey (i / 8) false (i % 8))).d3hot)

/-- Ryuner stops the RUNNING benches, keeping DRAM (R516). -/
def Device.stopAll (d : Device) (retain : Bool) : Device :=
  d.runAll (fun n h b =>
    if b.power.st = .running then
      benchStop n (if retain && b.power.dramEn then h.setFld (R.pcr_BENCH_CTL_DRAM_RETAIN n.val) 1 else h) b
    else (h, b))

/-- A PF enters D3hot, its VFs with it (R515, R516). [DESIGN CHOICE, log 23, unsafe] -/
def Device.d3hot (d : Device) (key : Nat) : Device :=
  let f := d.hub.fn key
  if fnVf key || f.d3hot || !d.hub.present key then d
  else
    let p := d.hub.family key
    let d := d.silence p 0x90 false false
    let h := { d.hub with fns := d.hub.fns.map (fun (x : Nat × FnSt) => if p x.1 then (x.1, { x.2 with pend := [] }) else x) }
    let h := ((h.setFn key { h.fn key with d3hot := true }).fnEvent key 0).raise 668
    let d := { d with hub := h }
    if h.allD3 && h.fw.power = .d0 then { d with hub := { h with fw := { h.fw with power := .d3hot } } }.stopAll true else d

/-- A PF returns to D0: it and its VFs are reset, and the device leaves D3hot (R515, R516). -/
def Device.d0 (d : Device) (key : Nat) : Device :=
  let f := d.hub.fn key
  if fnVf key || !f.d3hot then d
  else
    let h := (d.hub.setFn key { f with d3hot := false }).raise 668
    let h := if h.fw.power = .d3hot then { h with fw := { h.fw with power := .d0 } } else h
    { d with hub := h }.flrStart key

/-- PF_D3HOT. -/
def execPfD3hot (key : Nat) (s : State) : Host.Outcome State Fault Refusal := .next { s with dev := s.dev.d3hot key }
/-- PF_D0. -/
def execPfD0 (key : Nat) (s : State) : Host.Outcome State Fault Refusal := .next { s with dev := s.dev.d0 key }

/-- VF Enable falls: the PF's VFs fall silent as with Bus Master Enable 0, and their configuration space takes its reset values. [PRESUMED, log 139, unsafe] -/
def Device.vfsOff (d : Device) (key : Nat) : Device :=
  let p := fun k => k ≠ key && d.hub.family key k
  let d := d.silence p 0x90 false false
  { d with hub := d.hub.resetFns p }

/-- A configuration write that the function takes; a field that it has not ignores it. [DESIGN CHOICE, log 24, unsafe] -/
def Device.cfgWrite (d : Device) (key : Nat) (x : CfgField) (v : Nat) : Device :=
  if !d.hub.hasField key x then d
  else match x with
  | .busMaster => if v % 2 = 1 then d.bmeSet key else d.bmeClear key
  | .flr => if v % 2 = 1 then d.flrStart key else d
  | .powerState => if v % 4 = 3 then d.d3hot key else d.d0 key
  | .retrainLink =>
    let l := d.hub.linkOf key
    if v % 2 = 1 && key = firstPf l then { d with hub := d.hub.setLink l { d.hub.link l with retrain := true } } else d
  | _ =>
    let f := d.hub.fn key
    let g := f.cfgSet x v
    let d := if f.pasidEn && !g.pasidEn then d.runAll (fun _ h b => (h, b.endPasids key)) else d
    let d := if f.vfEnable && !g.vfEnable then d.vfsOff key else d
    let h := ((d.hub.setFn key g).sendPending key).adminFlushFn key
    { d with hub := if f.vfEnable = g.vfEnable then h else h.fnEvent key 5 }
/-- CONFIG_WRITE. -/
def execConfigWrite (key : Nat) (x : CfgField) (v : Nat) (s : State) : Host.Outcome State Fault Refusal :=
  match s.dev.hub.cfgStatus key with
  | none => .next { s with dev := { s.dev with answer := [] } }
  | some st =>
    let q := s.dev.hub.cfgEnter key
    let st := if q.1 then 2 else st
    let d := { s.dev with hub := if q.1 then q.2.logAer key aerAbort else q.2 }
    let d := if st = 0 then d.cfgWrite key x v else d
    .next { s with dev := { d with hub := d.hub.queueTlp (cplTlp key st [] false), answer := [st] } }

/-! ## Completions of device reads (R342 to R345) -/

/-- The read of a function that has been sent by bench `n` with a tag. -/
def Bench.sentRead (n : BenchId) (b : Bench) (key tag : Nat) : Option HostRead :=
  b.reads.find? (fun r => r.fn = key && r.wireTag n = tag && !b.unsent r)
/-- Change a read. -/
def Bench.updRead (b : Bench) (r : HostRead) (f : HostRead → HostRead) : Bench :=
  { b with reads := b.reads.map (fun x => if x = r then f x else x) }
/-- A tag becomes free. -/
def Bench.freeRead (b : Bench) (r : HostRead) : Bench := { b with reads := b.reads.filter (fun x => x ≠ r) }

/-- The data of a read reaches what asked for it. -/
def Bench.deliverRead (b : Bench) (n : BenchId) (r : HostRead) (l : List Byte) : Bench :=
  match r.use with
  | .desc q =>
    let fs := b.rings.fetches.map (fun (f : Fetch) => if f.ring = q && !f.waiting then { f with got := some l } else f)
    { b with rings := { b.rings with fetches := fs } }.tallyCmd (fetchChan (b.ringKind q)) 0 r.len
  | .table c dst _ => b.tableIn n c dst l
  | .data c off => b.updCmd c (fun k => { k with chunks := fillChunks off l k.chunks })
  | .command _ _ | .entry _ _ => b

/-- A read fails for good under a code: what asked for it ends or is spoiled; event 6 is raised but for poison (R343, R345). [DESIGN CHOICE, log 26, unsafe] -/
def Bench.failRead (b : Bench) (r : HostRead) (code : Nat) : Bench :=
  let b := match r.use with
    | .desc q =>
      let k := ((b.rings.fetches.filter (fun (f : Fetch) => f.ring = q)).map (fun (f : Fetch) => f.count)).sum
      let b := { b with rings := { b.rings with fetches := b.rings.fetches.filter (fun (f : Fetch) => f.ring ≠ q) } }
      ((b.spoilTick code 0).addOwed (b.ringCq q) (-(k : Int))).tallyCmd (fetchChan (b.ringKind q)) code 0
    | .table c _ _ => b.cmdFail c code r.addr
    | .data c off => b.updCmd c (fun k => { k with chunks := spoilChunks off r.len code k.chunks
                                                   errAddr := if k.errAddr = 0 then r.addr else k.errAddr })
    | .command _ _ | .entry _ _ => b
  if code = 0x92 then b else b.raise 6

/-- What a read of Ryuner brings, none where it fails: part of what a command reads, or an admin entry (R343, R345, R484). -/
def Hub.ryunerGot (h : Hub) (use : ReadFor) (l : Option (List Byte)) : Hub :=
  match use with
  | .command id off => h.updFw (fun w => { w with cmds := w.cmds.map (fun (c : Sceune) => if c.id = id then c.take off l else c) })
  | .entry m id => h.updMbx m (fun b => { b with admin := b.admin.map (AdminPair.entryRead id l) })
  | _ => h

/-- A completion for tag `tag` of a function arrives: its data, its status (0 SC, 1 UR, 2 CA) and EP (R344, R345). [DESIGN CHOICE, log 26, unsafe] -/
def hostCompletion (n : BenchId) (key tag : Nat) (data : List Byte) (status : Nat) (ep : Bool) (h : Hub) (b : Bench) : Hub × Bench :=
  let hdr := tlpHeader 2 status tag data.length
  match b.sentRead n key tag with
  | none => ((h.tickLink T.UNEXPECTED_CPL key).logAdvisory key aerUnexpected hdr, b)
  | some r =>
    if r.quarantine then ((h.tickLink T.UNEXPECTED_CPL key).logAdvisory key aerUnexpected hdr, b)
    else
      let all := r.got ++ data
      let full := r.len ≤ all.length
      let rest := fun (b : Bench) => if full then b.freeRead r else b.updRead r (fun x => { x with got := all, dead := true })
      let lost := fun (h : Hub) => h.ryunerGot r.use none
      if status ≠ 0 then (if r.dead then (h, b.freeRead r) else (lost h, (b.freeRead r).failRead r 0x93))
      else if r.dead then (h, rest b)
      else if ep then (lost ((h.tickLink T.POISON_RX key).logAdvisory key aerPoison hdr), (rest b).failRead r 0x92)
      else if full then
        ((if r.retried then h.tickLink T.HOST_RETRY_OK key else h).ryunerGot r.use (some (all.take r.len)),
          (b.freeRead r).deliverRead n r (all.take r.len))
      else (h, b.updRead r (fun x => { x with got := all }))
/-- HOST_COMPLETION: also for a bench that has lost its domain, whose tags wait for their completions (R344, R402). -/
def execHostCompletion (n : BenchId) (key tag : Nat) (data : List Byte) (status : Nat) (ep : Bool) (s : State) :
    Host.Outcome State Fault Refusal :=
  s.onBoth n (fun h b =>
    let r := hostCompletion n key tag data status ep h b
    (r.1, if b.live then (r.2.judgeHeld).pump else r.2))

/-- A read times out (R343, R344): it goes into quarantine; a retry is sent with a new tag, or the operation ends. [DESIGN CHOICE, log 26, unsafe] -/
def readTimeout (n : BenchId) (key tag : Nat) (h : Hub) (b : Bench) : Hub × Bench :=
  match b.sentRead n key tag with
  | none => (h, b)
  | some r =>
    if r.quarantine then (h, b)
    else
      let aside := fun (b : Bench) => b.updRead r (fun x => { x with quarantine := true, dead := true })
      if r.dead then (h.tickLink T.CPL_TIMEOUT key, aside b)
      else if r.retryOk && !r.retried then
        let f := h.fn key
        if b.reads.length < 1024 && (b.freeTag f.tag14 key f.tagCount).isSome then
          (h, (aside b).sendRead h { r with got := [], retried := true, cto := 0 })
        else (h, b)
      else (((h.tickLink T.CPL_TIMEOUT key).logAer key aerTimeout).ryunerGot r.use none, (aside b).failRead r 0x91)
/-- READ_TIMEOUT. -/
def execReadTimeout (n : BenchId) (key tag : Nat) (s : State) : Host.Outcome State Fault Refusal :=
  s.onBoth n (fun h b =>
    let r := readTimeout n key tag h b
    (r.1, if b.live then r.2.judgeHeld else r.2))

/-- TAG_QUARANTINE_END (R344). -/
def execTagQuarantineEnd (n : BenchId) (key tag : Nat) (s : State) : Host.Outcome State Fault Refusal :=
  s.onBoth n (fun h b => (h, { b with reads := b.reads.filter (fun r => !(r.fn = key && r.wireTag n = tag && r.quarantine)) }))

/-! ## Windows (R338) -/

/-- Offsets of the window-table words of a function. -/
def winWords (key : Nat) : List (Nat × Nat) :=
  if fnVf key then [(ctlEntryAt key 0, 8), (dbEntryAt key 0, 32)] else [(ctlEntryAt key 0, 8192), (dbEntryAt key 0, 256)]
/-- Does a hub offset lie in a function's tables? -/
def inWin (key o : Nat) : Bool := (winWords key).any (fun x => x.1 ≤ o && o < x.1 + x.2)
/-- A shadow entry. -/
def Hub.shadowEntry (h : Hub) (o : Nat) : Nat :=
  (sparseGet hubRegReset h.shadow o).toNat + 2 ^ 32 * (sparseGet hubRegReset h.shadow (o + 4)).toNat
/-- The shadow entries of one of a function's tables that are enabled. -/
def Hub.enabledShadow (h : Hub) (t : Nat × Nat) : List Nat :=
  (((h.shadow.map (·.1)).filter (fun o => t.1 ≤ o && o < t.1 + t.2 && o % 8 = 0)).map h.shadowEntry).filter (fun e => bit e 0)

/-- May a control entry of a function point to an address (R338)? -/
def ctlTargetOk (n : BenchId) (b : Bench) (key a : Nat) : Bool :=
  if fnVf key then
    a = selfPage || b.rings.claims.any (fun c => c.2.fn = key &&
      benchBase n + dramBase + 65536 * c.2.pageBase ≤ a && a < benchBase n + dramBase + 65536 * (c.2.pageBase + c.2.pages))
  else (0x100000000000 ≤ a && a < 0x200000000000) || (0x100000 ≤ a && a < 0x300000)
/-- May a doorbell entry of a function ring those rings (R338)? [DEDUCED, log 25, unsafe] -/
def dbTargetOk (n : BenchId) (b : Bench) (key bench base : Nat) : Bool :=
  if fnVf key then bench = n.val && b.rings.claims.any (fun c => c.2.fn = key && c.2.owns base)
  else base + 511 ≤ 16383

/-- RESULT of a commit: 0 committed; 1 BAD_TARGET; 2 RESERVED_SET; 3 NO_FUNCTION (R355). [DEDUCED, log 25, unsafe] -/
def winCheck (n : BenchId) (key : Nat) (h : Hub) (b : Bench) : Nat :=
  if !h.fnExists key then 3
  else
    let t := winWords key
    let ctl := h.enabledShadow (t.getD 0 (0, 0))
    let db := h.enabledShadow (t.getD 1 (0, 0))
    if ctl.any (fun e => getBits e 2 14 ≠ 0 || getBits e 48 16 ≠ 0) || db.any (fun e => getBits e 19 45 ≠ 0) then 2
    else if ctl.any (fun e => !ctlTargetOk n b key (65536 * getBits e 16 32)) then 1
    else if db.any (fun e => !dbTargetOk n b key (getBits e 1 4) (getBits e 5 14)) then 1 else 0

/-- The shadow of a function's tables comes into force. -/
def Hub.switchWin (h : Hub) (key : Nat) : Hub :=
  (((h.regs.map (·.1)) ++ (h.shadow.map (·.1))).filter (inWin key)).foldl (fun h o => h.setReg o (sparseGet hubRegReset h.shadow o)) h

/-- A write of WIN_COMMIT (R338, R355). `n` is the function's HOME_BENCH. -/
def winCommit (n : BenchId) (key : Nat) (h : Hub) (b : Bench) : Hub × Bench :=
  let c := winCheck n key h b
  let h := if c = 0 then h.switchWin key else h.tick T.HUB_CFG_REFUSED
  (h.postStatus (R.ep_WIN_COMMIT_STATUS (fnPort key)) (2 * c) 16 16 T.HUB_COMMIT_STATUS_LOST, b)
/-- WIN_COMMIT of port `p` with INDEX and VF. -/
def execWinCommit (p : HostPort) (idx : Nat) (vf : Bool) (s : State) : Host.Outcome State Fault Refusal :=
  let key := fnKey p.val vf (idx % 2048)
  let n := benchOf (s.dev.hub.homeBench key)
  s.onBoth n (fun h b => if h.up then winCommit n key h b else (h, b))

/-! ## Vectors (R341) -/

/-- A vector is unmasked: a pending write is sent. -/
def Hub.unmask (h : Hub) (key vec : Nat) : Hub :=
  let f := h.fn key
  let h := if f.msixEn then h.setMsix key vec { h.msixAt key vec with mask := false }
    else h.setFn key { f with msiMask := putBits f.msiMask vec 1 0 }
  h.sendPending key
/-- VECTOR_UNMASK. -/
def execVectorUnmask (key vec : Nat) (s : State) : Host.Outcome State Fault Refusal :=
  s.onHub (fun h => if vec < (if (h.fn key).msixEn then h.tableSize key else 32) then h.unmask key vec else h)

/-! ## Readiness, PERST# and PME (R517, R542, R543, R548) -/

/-- READY_p is set: the port answers configuration requests. -/
def Hub.setReady (h : Hub) (p : Nat) : Hub :=
  h.setFld R.pcr_CFG_READY_READY (Nat.lor (h.fld R.pcr_CFG_READY_READY) (2 ^ p))
/-- CFG_READY_SET: a write of CFG_READY with READY_p = 1. -/
def execCfgReadySet (p : HostPort) (s : State) : Host.Outcome State Fault Refusal :=
  s.onHub (fun h => if h.up then h.setReady p.val else h)
/-- READY_FORCED: 1 s after PERST# rose. -/
def execReadyForced (p : HostPort) (s : State) : Host.Outcome State Fault Refusal :=
  s.onHub (fun h =>
    if h.ready p.val || h.fw.perst.contains p.val || h.fw.por then h
    else (h.setReady p.val).setFld R.pcr_RESET_CAUSE_READY_FORCED
      (Nat.lor (h.fld R.pcr_RESET_CAUSE_READY_FORCED) (2 ^ p.val)))

/-- Every debug session ends, and the threads it stopped resume (R512). -/
def Device.endSessions (d : Device) : Device :=
  let h := d.hub
  let m := h.fld R.dbg_DBG_SESSION_ENGINE_MASK
  let full := h.flag R.dbg_DBG_SESSION_FULL
  if m = 0 && !full then d
  else
    let d := { d with hub := (h.setReg R.dbg_DBG_SESSION 0#32).raise 665 }
    d.runAll (fun n h b => (h, if b.live && (full || bit m n.val) then
        ((List.range 64).foldl (fun b i => if (b.thr i).dbg then b.dbgResume i else b) b).pump
      else b))

/-- A claim is removed by a reset of its port (R366, R548). -/
def removeClaim (n : BenchId) (i : Nat) (h : Hub) (b : Bench) : Hub × Bench :=
  match b.claim? i with
  | none => (h, b)
  | some c =>
    let h := h.claimLost n i c
    let rings := c.rings.filter (fun r => b.ringKind r ≠ 0)
    let b := b.endClaims [i] 0x94 true
    let b := rings.foldl (fun b r => b.setBytes (ringAddr r) (List.replicate 32 0#8)) b
    (h, { b with rings := { b.rings with claims := b.rings.claims.filter (fun x => x.1 ≠ i) } })

/-- The endpoint of a port is reset (R546, R548): links lost, READY_p clear, windows disabled, claims removed, sessions ended. -/
def Device.resetPort (d : Device) (p : Nat) : Device :=
  let d := [2 * p, 2 * p + 1].foldl (fun (d : Device) l => if d.hub.linkState l = 0 then d else d.linkDown l 0) d
  let h := [2 * p, 2 * p + 1].foldl (fun (h : Hub) l => h.setLink l LinkSt.idle) d.hub
  let h := h.setFld R.pcr_CFG_READY_READY (putBits (h.fld R.pcr_CFG_READY_READY) p 1 0)
  let win := fun o => 0x310000 + 0x100000 * p ≤ o && o < 0x340000 + 0x100000 * p
  let h := { h with regs := h.regs.filter (fun x => !win x.1) }
  let d := { d with hub := h }
  let d := d.runAll (fun n h b =>
    (b.rings.claims.filter (fun c => fnPort c.2.fn = p)).foldl (fun r c => removeClaim n c.1 r.1 r.2) (h, b))
  { d with hub := d.hub.clearMailboxes (fun k => fnPort k = p) }.endSessions

/-- PERST_ASSERT: PERST#_p has been low for 100 µs (R548). -/
def execPerstAssert (p : HostPort) (s : State) : Host.Outcome State Fault Refusal :=
  let h := s.dev.hub
  if h.fw.perst.contains p.val then .next s
  else
    let h := { h with fw := { h.fw with perst := h.fw.perst ++ [p.val] } }
    let h := h.setFld R.pcr_RESET_CAUSE_FUND (Nat.lor (h.fld R.pcr_RESET_CAUSE_FUND) (2 ^ p.val))
    .next { s with dev := { s.dev with hub := h }.resetPort p.val }
/-- PERST_RELEASE: the port may train; WAKE_N is released (R519, R542). -/
def execPerstRelease (p : HostPort) (s : State) : Host.Outcome State Fault Refusal :=
  s.onHub (fun h =>
    ({ h with fw := { h.fw with perst := h.fw.perst.filter (· ≠ p.val), wakeN := false } }).trainPort p.val)

/-- The retained copies of the wake configuration (R518). -/
def Hub.retainWake (h : Hub) : Hub :=
  let w := (h.reg (R.side_STATION_ADDR_LO 0)).toNat
  let v := (h.reg (R.side_STATION_ADDR_HI 0)).toNat + 2 ^ 16 * h.fld (R.side_STATION_CTL_VALID 0)
  { h with fw := { h.fw with side := { h.fw.side with retained := some (w, v, h.flag R.pcr_HUB_CLK_SRC_SIDE_SRC) } } }

/-- Every link that is up has received PME_Turn_Off: Ryuner stops the benches with a drain limit of 1 ms (R517). [DEDUCED, log 30, safe] -/
def Device.turnOffStart (d : Device) : Device :=
  d.runAll (fun n h b =>
    if b.power.st = .running then benchStop n (h.setFld (R.pcr_BENCH_DRAIN_LIMIT_LIMIT_US n.val) 1000) b
    else if b.power.st = .starting || b.power.st = .fault then benchStop n h b else (h, b))

/-- 4 ms later: benches not OFF are forced off, sessions end, the SECRETS region is zeroised, PME_TO_Ack goes out on each link,
and wake is armed when a PF asks for it and the board supplies the auxiliary rail (R517, R518). [PRESUMED, log 21, unsafe; DEDUCED, log 30, safe] -/
def Device.turnOffEnd (d : Device) (aux : Bool) : Device :=
  let d := (d.runAll benchForced).endSessions
  let h := d.hub
  let arm := aux && (List.range 16).any (fun i => (h.fn (fnKey (i / 8) false (i % 8))).pmeEn)
  let acks := h.fw.turnOff.map (fun l => (l, { Tlp.blank .message (firstPf l) with tag := 0x1B }))
  let h := { h with wire := h.wire ++ acks, fw := { h.fw with secrets := false, wakeArmed := arm, turnOff := [], power := .d3cold } }
  { d with hub := if arm then h.retainWake else h }

/-- PME_TURN_OFF: the message arrives on a link, or, with `done`, the 4 ms behind the last one are over. [DEDUCED, log 30, safe] -/
def execPmeTurnOff (p : HostPort) (k : Fin 2) (done aux : Bool) (s : State) : Host.Outcome State Fault Refusal :=
  let l := 2 * p.val + k.val
  let h := s.dev.hub
  let up := (List.range 4).filter (fun j => h.linkState j ≠ 0)
  if !up.contains l then .next s
  else
    let got := if h.fw.turnOff.contains l then h.fw.turnOff else h.fw.turnOff ++ [l]
    let all := up.all (fun j => got.contains j)
    let d := { s.dev with hub := { h with fw := { h.fw with turnOff := got } } }
    .next { s with dev := if !all then d else if done then d.turnOffEnd aux else d.turnOffStart }

end Sys2Proof.Machine
end

