-- ==== Sys2Proof/Machine/RegAccess.lean ====
section
/-! DEFINITION. Accesses to a bench's address range (R34, R36): its registers under their access codes (R13, R14) with the
effects their chapters give a read or a write of them, and its memory windows. -/
namespace Sys2Proof.Machine

/-- Why an access is refused (R34, R286): no region, a closed region, a window that refuses writes, bad data, a full
mailbox. -/
inductive BusErr where
  | addr | closed | refused | ecc | full
deriving DecidableEq, Repr

/-- What an access does: the value read, the bus error if any, the hub and the bench after it. -/
structure BusOut where
  val : Nat
  err : Option BusErr
  hub : Hub
  bench : Bench
deriving DecidableEq, Repr

/-- The tally snapshot pair of an agent (R535): 0 to 7 the cores, 8 the Foreman, 9 debug. -/
def agentPair : Agent → Option Nat
  | .foreman => some 8
  | .full | .engineDbg => some 9
  | .thread i => some (i / 8)
  | .host _ => none

/-- Is the agent a debug session that holds the bench's debug registers (R316)? -/
def agentSession (a : Agent) (h : Hub) (n : BenchId) : Bool :=
  (match a with | .full | .engineDbg => true | _ => false) && h.debugOn n

/-! ## Writes, block by block -/

/-- A register of a field in `lo` to `hi`; any other value is refused in that field. -/
def Bench.setIf (b : Bench) (ok : Bool) (f : Fld) (v : Nat) : Bench := if ok then b.setFld f v else b.cfgRefused

/-- The face block (R89). [DESIGN CHOICE, log 72, unsafe] -/
def Bench.faceWrite (b : Bench) (o v : Nat) : Bench :=
  let x := o - 0x10000
  let p := (x - 0x100) / 0x80
  if 0x100 ≤ x && x < 0x300 then
    if !b.hasPort p then b.cfgRefused
    else match (x - 0x100) % 0x80 with
      | 0x00 => b.portCtlWrite p v
      | 0x08 => b.setIf (64 ≤ v % 2 ^ 14 && v % 2 ^ 14 ≤ 9728) (R.face_MAX_FRAME_BYTES p) v
      | 0x0C =>
        ((b.setIf (v % 4 ≠ 3) (R.face_PAUSE_CTL_MODE p) (v % 4)).setFld (R.face_PAUSE_CTL_PFC_CLASS_EN p) (v / 2 ^ 8)).setFld
          (R.face_PAUSE_CTL_QUANTA p) (v / 2 ^ 16)
      | _ => b.plainWrite o v
  else if 0x400 ≤ x && x < 0x500 && x % 0x40 = 0 then
    let l := (x - 0x400) / 0x40
    ((b.setFld (R.face_LANE_CTL_TX_INVERT l) v).setFld (R.face_LANE_CTL_RX_INVERT l) (v / 2)).setIf (v / 4 % 4 ≠ 3)
      (R.face_LANE_CTL_LOOPBACK l) (v / 4)
  else if 0x800 ≤ x && x < 0xA00 && x % 0x10 = 8 then b.stationCommit ((x - 0x800) / 0x10) v
  else if x = 0xC00 then
    match v % 4 with
    | 1 => b.timeSnap
    | 2 => b.timeLoad
    | 3 => b.timeAdjust
    | _ => b
  else b.plainWrite o v

/-- The graph block (R117). -/
def Bench.graphWrite (b : Bench) (o v : Nat) : Bench :=
  match o - 0x20000 with
  | 0x10 => b.graphArm v
  | 0x20 => b.startNodeWrite 0 v
  | 0x24 => b.startNodeWrite 1 v
  | 0x30 => b.excClassWrite 0 v
  | 0x34 => b.excClassWrite 1 v
  | 0x140 => b.nodeCommit (v % 256)
  | 0x300 =>
    let sel := b.fld R.graph_FV_CAPTURE_CTL_CUT_SEL
    let bad := getBits v 2 2 = 3
    (if bad then b.cfgRefused else b).plainWrite o (if bad then putBits v 2 2 sel else v)
  | _ => b.plainWrite o v

/-- The match block (R154). -/
def Bench.matchWrite (b : Bench) (o v : Nat) : Bench :=
  let x := o - 0x30000
  if 0x4000 ≤ x then b.recipeWrite ((x - 0x4000) / 4) (BitVec.ofNat 32 v)
  else match x with
    | 0x10 | 0x14 =>
      if b.sweepSt = 0 && b.fld (R.match_OCCUPANCY_SLOTS 0) = 0 && b.fld (R.match_OCCUPANCY_SLOTS 1) = 0 then b.plainWrite o v
      else b.cfgRefused
    | 0x20 => b.sweepCtl v
    | 0x28 => if b.sweepSt = 0 then b.plainWrite o v else b.cfgRefused
    | 0x30 =>
      (b.setFld R.match_LEARN_CTL_HOLDOFF_US v).setIf (b.mt.learnq.isEmpty || getBits v 20 1 = b.fld R.match_LEARN_CTL_DEST)
        R.match_LEARN_CTL_DEST (v / 2 ^ 20)
    | 0x38 => if bit v 0 then b.learnPop else b
    | 0x250 => b.opCmd v
    | _ => b.plainWrite o v

/-- MIRROR_k: a bad DEST or TRUNC refuses that field alone (R183). -/
def Bench.mirrorWrite (b : Bench) (k v : Nat) : Bench :=
  let host := bit v 1
  let dest := getBits v 2 14
  let trunc := getBits v 16 14
  let b := (b.setFld (R.action_MIRROR_VALID k) v).setFld (R.action_MIRROR_TO_HOST k) (v / 2)
  let top := if host then (if b.power.profile = 1 then 4096 else 16384) else 8192
  let b := b.setIf (dest < top) (R.action_MIRROR_DEST k) dest
  b.setIf (trunc = 0 || 64 ≤ trunc) (R.action_MIRROR_TRUNC k) trunc

/-- The action block (R181). -/
def Bench.actionWrite (b : Bench) (o v : Nat) : Bench :=
  let x := o - 0x40000
  if x = 0x10 then (if bit v 0 then b.genSwap else b)
  else if 0x24 ≤ x && x < 0x40 then b.mirrorWrite ((x - 0x24) / 4) v
  else if x = 0x180 then b.templateCommit (v % 1024)
  else b.plainWrite o v

/-- The cipher block (R208). -/
def Bench.cipherWrite (b : Bench) (o v : Nat) : Bench :=
  match o - 0x50000 with
  | 0x10 => if bit v 0 then b.cipherRestart else b
  | 0x140 => b.saCommit (v % 16384)
  | _ => b.plainWrite o v

/-- A CLASS_CFG write: one with WEIGHT 0 is refused whole (R223, R240). -/
def Bench.classCfgWrite (b : Bench) (p c v : Nat) : Bench :=
  if v % 2 ^ 16 = 0 then (b.tick T.WEIGHT_REFUSED).raise 28
  else
    ((b.setFld (R.tm_CLASS_CFG_STRICT p c) (v / 2 ^ 16)).setFld (R.tm_CLASS_CFG_GATED p c) (v / 2 ^ 17)).setFld
      (R.tm_CLASS_CFG_WEIGHT p c) v

/-- The traffic manager block (R239). [DESIGN CHOICE, log 72, unsafe] -/
def Bench.tmWrite (b : Bench) (o v : Nat) : Bench :=
  let x := o - 0x60000
  if x = 0x30 then b.meterCommit (v % 32768)
  else if x = 0x60 then (if bit v 16 then b.qctxClearHwm (v % 8192) else b.qctxCommit (v % 8192))
  else if 0x100 ≤ x then
    let p := x / 0x100 - 1
    let y := x % 0x100
    if !b.hasPort p then b.cfgRefused
    else if y < 0x20 then b.classCfgWrite p (y / 4) v
    else if y = 0xA0 then
      let b := if bit v 0 then b.gateCommit p else b
      if bit v 1 then b.gateCancel p else b
    else if 0x70 ≤ y && y < 0x94 then (b.plainWrite o v).judgeReqs p
    else if 0xA8 ≤ y && y < 0xB8 && b.gatePending p then b.tick T.GATE_WRITE_REFUSED
    else if y = 0xE4 then (if v % 2 ^ 25 = 0 then b else b.setFld (R.tm_PORT_HWM_BYTES p) (b.fld (R.tm_PORT_OCC_BYTES p)))
    else b.plainWrite o v
  else b.plainWrite o v

/-- The hopper block (R264): the carve is fixed while ENABLE = 1 (R247). -/
def Bench.hopperWrite (b : Bench) (o v : Nat) (ecc : Ecc) : Bench :=
  let x := o - 0x70000
  if x = 0x10 then b.hopperCtl b.dramUp b.capacity (BitVec.ofNat 32 v)
  else if (0x20 ≤ x && x < 0x30) || x = 0x68 || x = 0x6C then
    if b.flag R.hopper_HOPPER_CTL_ENABLE then b.cfgRefused else b.plainWrite o v
  else if 0x50 ≤ x && x < 0x64 then
    let k := (x - 0x50) / 4
    if v / 2 ^ 17 = 0 then b else b.setFld (R.hopper_POOL_FREE_LWM k) (b.fld (R.hopper_POOL_FREE_FREE k) / 4)
  else if x = 0x70 then b.hopCmd (v % 8) (bit v 3) (getBits v 4 3) ecc
  else b.plainWrite o v

/-- The thread that DBG_SEL names, while it is stopped (R319). -/
def Bench.dbgThread (b : Bench) : Option Nat :=
  let i := 8 * b.fld R.engine_DBG_SEL_CORE + b.fld R.engine_DBG_SEL_THREAD
  if (b.thr i).dbg then some i else none

/-- A write of the debug registers of the engine block by a session (R316, R319). -/
def Bench.dbgRegWrite (b : Bench) (x v : Nat) : Bench :=
  if x < 0x1F00 then
    if x % 0x10 = 0 then (b.dbgCtl ((x - 0x1E00) / 0x10) v).pump else b
  else if x = 0x1F00 then b.plainWrite (0x80000 + x) v
  else
    match b.dbgThread with
    | none => b.tick T.DBG_REFUSED
    | some i =>
      if x = 0x1F04 then (if pcMax < v then b.tick T.DBG_REFUSED else b.updThr i (fun t => { t with pc := v }))
      else
        let r := (x - 0x1F10) / 8
        let hi := (x - 0x1F10) % 8 = 4
        b.updThr i (fun t => t.setG r (BitVec.ofNat 64 (putBits (t.greg r).toNat (if hi then 32 else 0) 32 v)))

/-- The engine block (R293, R320). [DESIGN CHOICE, log 72, unsafe] -/
def engineWrite (n : BenchId) (ag : Agent) (o v : Nat) (h : Hub) (b : Bench) : BusOut :=
  let x := o - 0x80000
  let done : Bench → BusOut := fun b => ⟨0, none, h, b⟩
  if 0x10 ≤ x && x < 0x90 then
    let c := (x - 0x10) / 0x10
    match x % 0x10 with
    | 0 =>
      let b := if bit v 0 then b.coreStart c else b
      done (if bit v 1 then b.coreStop c else b).pump
    | 8 => done (if b.coreState c = 0 then b.plainWrite o v else b.cfgRefused)
    | _ => done (b.plainWrite o v)
  else if 0x1200 ≤ x && x < 0x1300 then
    let i := (x - 0x1200) / 4
    let b := if bit v 0 then b.terminate i else b
    done (if bit v 1 then b.resume i else b).pump
  else if 0x1400 ≤ x && x < 0x1C00 && x % 8 = 0 then done (b.chanCfg ((x - 0x1400) / 8) v)
  else if 0x1D00 ≤ x && x < 0x1D80 && x % 0x10 = 0 then
    let c := (x - 0x1D00) / 0x10
    let q := sparseGet (fun _ => []) b.eng.mbx c
    if 16 ≤ q.length then ⟨0, some .full, h, b.tick T.MBOX_REFUSED⟩
    else done { b with eng := { b.eng with mbx := sparseSet (fun _ => []) b.eng.mbx c (q ++ [BitVec.ofNat 32 v]) } }
  else if 0x1E00 ≤ x then done (if agentSession ag h n then b.dbgRegWrite x v else b.tick T.DBG_REFUSED)
  else done (b.plainWrite o v)

/-- The haul block (R405, R406). [DESIGN CHOICE, log 72, unsafe] -/
def Bench.haulWrite (b : Bench) (o v : Nat) : Bench :=
  let x := o - 0xA0000
  if x < 0x410 then
    let c := (x - 0x10) / 0x10
    if x % 0x10 = 8 then b.plainWrite o v
    else if !(b.chanCmds c).isEmpty then b.cfgRefused
    else if x % 0x10 = 4 then
      let rsv := getBits v 0 11
      let lim := getBits v 16 11
      let rest := ((List.range 64).map (fun d => if d = c then 0 else b.chReserve d)).sum
      if 1024 < rest + rsv || lim < rsv || lim = 0 || 1024 < lim then b.cfgRefused else b.plainWrite o v
    else b.plainWrite o v
  else if x = 0x540 then (if bit v 0 then b.haulSubmit else b)
  else if x = 0x580 then
    if getBits v 16 11 = 0 then b else b.setFld R.haul_STAGE_STATUS_LWM (b.fld R.haul_STAGE_STATUS_FREE)
  else b.plainWrite o v

/-- A FLASH_CTL write (R409, R429). -/
def Bench.flashCtlWrite (b : Bench) (c v : Nat) : Bench :=
  let busy := b.sto.ops.any (fun o => o.chan = c)
  let badRate := 4 < getBits v 0 3
  let same := v % 2 ^ 25 = (b.reg (R.storage_FLASH_CTL c)).toNat % 2 ^ 25
  let b :=
    if busy then (if same then b else b.cfgRefused)
    else
      let b := b.setIf (!badRate) (R.storage_FLASH_CTL_RATE c) (getBits v 0 3)
      let b := (b.setFld (R.storage_FLASH_CTL_PARITY c) (v / 2 ^ 3)).setFld (R.storage_FLASH_CTL_LADDER_LEN c) (v / 2 ^ 5)
      b.setIf (getBits v 9 16 ≠ 0) (R.storage_FLASH_CTL_OP_TIMEOUT c) (v / 2 ^ 9)
  if bit v 25 && !badRate then b.flashTrain c else b

/-- An NVME_CTRL write (R430): storage firmware writes only RDY, CFS and SHST. [DESIGN CHOICE, log 72, unsafe] -/
def Bench.nvmeCtrlWrite (b : Bench) (ag : Agent) (k v : Nat) : Bench :=
  let own := match ag with | .thread _ => true | _ => false
  if own && v % 2 ^ 9 ≠ (b.reg (R.storage_NVME_CTRL k)).toNat % 2 ^ 9 then b.cfgRefused
  else b.plainWrite (R.storage_NVME_CTRL k) v

/-- The storage block (R428). [DESIGN CHOICE, log 72, unsafe] -/
def Bench.storageWrite (b : Bench) (ag : Agent) (o v : Nat) : Bench :=
  let x := o - 0xB0000
  let c := (x - 0x10) / 0x40
  if 0x10 ≤ x && x < 0x90 then
    match (x - 0x10) % 0x40 with
    | 0x00 => b.flashCtlWrite c v
    | 0x08 =>
      if (b.fchan c).prod = (b.fringIdx c, b.fringLap c) then b.plainWrite o v else b.cfgRefused
    | 0x0C => b.flashDb c v
    | 0x10 => if bit v 16 then b.flashRingReset c else b
    | _ => b.plainWrite o v
  else if 0x400 ≤ x && x < 0x800 then
    let ns := (x - 0x400) / 0x10
    if x % 0x10 = 0 then
      b.xtsWrite ns (bit v 0)
    else if b.flag (R.storage_XTS_NS_EN ns) then b.cfgRefused else b.plainWrite o v
  else if x = 0x800 then
    (b.setFld R.storage_FLUSH_CTL_ARMED v).setIf (getBits v 1 13 ≤ 4096) R.storage_FLUSH_CTL_FLUSH_LEN (v / 2)
  else if 0x900 ≤ x && x < 0xA00 then b.nvmeCtrlWrite ag ((x - 0x900) / 4) v
  else if 0x1000 ≤ x && x < 0x1800 && x % 0x10 = 0xC then
    b.nvmeCommit ((x - 0x1000) / 0x100) ((x - 0x1000) % 0x100 / 0x10) v
  else b.plainWrite o v

/-- The DRAM block (R435, R448). -/
def Bench.dramWriteReg (b : Bench) (ag : Agent) (o v : Nat) : Bench :=
  let x := o - 0xC0000
  if x = 0x10 || (0x1C ≤ x && x < 0x34) then
    if b.dramState = dramWaitCfg then b.plainWrite o v else b.cfgRefused
  else if x = 0x14 then
    let b := if bit v 0 then b.dramGo else b
    if bit v 1 then b.dramRetire (getBits v 2 2) else b
  else if x = 0x4C then (if v % 2 ^ 16 < 8 then b.cfgRefused else b.plainWrite o v)
  else if x = 0x60 then (if ag = .foreman || ag = .full then b.plainWrite o v else b.cfgRefused)
  else b.plainWrite o v

/-- Take a snapshot in a bench pair (R534): the tally that the two words name. -/
def Bench.tallySnap (b : Bench) (r w1 : Nat) : Bench :=
  let id := (b.reg (R.err_TALLY_SEL r)).toNat
  let ok := w1 = 0 && id / 2 ^ 31 = 0 && benchTallyNamed id
  let v := if ok then b.tally (tallyKeyOf id) else 0
  let st := (if ok then 1 else 0) + (if ok && v = tallyMax then 2 else 0)
  let b := b.setReg (R.err_TALLY_SNAP_STATUS r) (BitVec.ofNat 32 st)
  (b.setReg (R.err_TALLY_SNAP r 0) (BitVec.ofNat 32 v)).setReg (R.err_TALLY_SNAP r 1) (BitVec.ofNat 32 (v / 2 ^ 32))

/-- The error block (R535, R536): a pair answers its own requester. -/
def errWrite (ag : Agent) (o v : Nat) (h : Hub) (b : Bench) : BusOut :=
  let x := o - 0xD0000
  if x < 0x3C then
    let k := (x - 0x10) / 4
    let b := b.setIf (v % 2 ^ 8 ≠ 0) (R.err_CE_CFG_CAPACITY k) v
    let b := b.setIf (10 ≤ getBits v 8 5) (R.err_CE_CFG_LEAK_SHIFT k) (v / 2 ^ 8)
    ⟨0, none, h, if bit v 24 then b.setFld (R.err_CE_CFG_OVERFLOW k) 0 else b⟩
  else if 0x100 ≤ x then
    let r := (x - 0x100) / 0x10
    if agentPair ag ≠ some r then ⟨0, some .addr, h, b.tick (T.ADDR_MISS 0)⟩
    else match x % 0x10 with
      | 0 => ⟨0, none, h, b.setReg (R.err_TALLY_SEL r) (BitVec.ofNat 32 v)⟩
      | 4 => ⟨0, none, h, b.tallySnap r v⟩
      | _ => ⟨0, none, h, b.tick (T.RSVD_WRITE (benchUnit o))⟩
  else ⟨0, none, h, b.plainWrite o v⟩

/-- Ryuner creates and starts the admin rings of controller `k`: the completion ring RING_BASE + 1 at ACQ, then the submission ring RING_BASE
at ASQ, of the sizes in AQA, with vector 0, an interrupt for each completion and one entry a fetch (R419). [DESIGN CHOICE, log 148, unsafe] -/
def nvmeAdminRings (n : BenchId) (k : Nat) (h : Hub) (b : Bench) : Hub × Bench :=
  match b.claim? (b.fld (R.storage_NVME_CTRL_CLAIM k)) with
  | none => (h, b)
  | some c =>
    let p := b.npage k
    let make := fun (r kind base w qsize : Nat) (q : Hub × Bench) =>
      let o := ringCreate [r + 2 ^ 20 * kind, base % 2 ^ 32, base / 2 ^ 32, w, 2 ^ 16 * qsize] q.1 q.2
      let o := ringStart n r true o.hub o.bench
      (o.hub, o.bench)
    make c.ringBase 4 p.asq (c.ringBase + 1) (getBits p.aqa 0 12) (make (c.ringBase + 1) 5 p.acq (2 ^ 20) (getBits p.aqa 16 12) (h, b))
/-- A write of the storage block; firmware that sets RDY of a controller while CC.EN = 1 reports it to Ryuner. [DESIGN CHOICE, log 148, unsafe] -/
def storageBusWrite (n : BenchId) (ag : Agent) (o v : Nat) (h : Hub) (b : Bench) : Hub × Bench :=
  let b' := b.storageWrite ag o v
  let own := match ag with | .thread _ => true | _ => false
  match (List.range 64).find? (fun k => own && o = R.storage_NVME_CTRL k && !b.flag (R.storage_NVME_CTRL_RDY k) &&
      b'.flag (R.storage_NVME_CTRL_RDY k) && bit (b'.npage k).cc 0) with
  | some k => if h.ryuner then nvmeAdminRings n k h b' else (h, b')
  | none => (h, b')

/-- A write of one register word (R13, R14); LIVENESS is read-only (R16). An offset that holds no register is no address (R34). -/
def regWrite (n : BenchId) (ag : Agent) (o v : Nat) (ecc : Ecc) (h : Hub) (b : Bench) : BusOut :=
  let pairs := 0xD0100 ≤ o && o < 0xD0200
  if (benchReg? o).isNone then ⟨0, some .addr, h, b.tick (T.ADDR_MISS (benchUnit o))⟩
  else
    let b := if pairs then b else b.rsvd o v
    let done : Bench → BusOut := fun b => ⟨0, none, h, b⟩
    if o % 0x10000 = 0 then done b
    else match o / 0x10000 with
    | 1 => done (b.faceWrite o v)
    | 2 => done (b.graphWrite o v)
    | 3 => done (b.matchWrite o v)
    | 4 => done (b.actionWrite o v)
    | 5 => done (b.cipherWrite o v)
    | 6 => done (b.tmWrite o v)
    | 7 => done (b.hopperWrite o v ecc)
    | 8 => engineWrite n ag o v h b
    | 10 => done (b.haulWrite o v)
    | 11 => ⟨0, none, (storageBusWrite n ag o v h b).1, (storageBusWrite n ag o v h b).2⟩
    | 12 => done (b.dramWriteReg ag o v)
    | 13 => errWrite ag o v h b
    | _ => done (b.plainWrite o v)

/-! ## Reads -/

/-- THREAD_STATUS of thread `i` (R321). -/
def Bench.threadStatus (b : Bench) (i : Nat) : Nat :=
  let t := b.thr i
  let w : Nat × Nat := match t.wait with
    | .none => (0, 0)
    | .chrd k => (1, k)
    | .chwr k => (2, k)
    | .wacq k => (3, k)
    | .join m => (4, m)
    | .notice _ _ => (5, 0)
    | .dram => (6, 0)
    | .top => (7, 0)
    | .hsub => (8, 0)
    | .waitc _ => (9, 0)
  t.st + (if t.dbg then 4 else 0) + 8 * w.1 + (if b.isStalled i then 128 else 0) + 256 * (w.2 % 256) +
    2 ^ 16 * (t.parent.getD 0 % 8) + (if t.parent.isSome then 2 ^ 19 else 0)

/-- A set of threads of a core as a mask. -/
def Bench.coreMask (b : Bench) (c : Nat) (f : Thread → Bool) : Nat :=
  (List.range 8).foldl (fun m t => if f (b.thr (8 * c + t)) then m + 2 ^ t else m) 0

/-- A read of the engine block: its views of the threads, channels and mailboxes; the debug registers answer a session. -/
def engineRead (n : BenchId) (ag : Agent) (o : Nat) (h : Hub) (b : Bench) : Nat :=
  let x := o - 0x80000
  let w := (b.reg o).toNat
  if 0x10 ≤ x && x < 0x90 && x % 0x10 = 4 then
    let c := (x - 0x14) / 0x10
    w % 4 + 2 ^ 8 * b.coreMask c (fun t => t.st ≠ 0) + 2 ^ 16 * b.coreMask c (fun t => t.st = 2)
  else if 0x1000 ≤ x && x < 0x1100 then b.threadStatus ((x - 0x1000) / 4)
  else if 0x1100 ≤ x && x < 0x1200 then (b.thr ((x - 0x1100) / 4)).pc
  else if 0x1400 ≤ x && x < 0x1C00 && x % 8 = 4 then putBits w 0 13 (b.chWords ((x - 0x1404) / 8))
  else if x = 0x1C10 then putBits w 0 7 b.eng.notices.length
  else if 0x1C20 ≤ x && x < 0x1C40 then putBits w 0 6 (b.inboxLen ((x - 0x1C20) / 4))
  else if 0x1D00 ≤ x && x < 0x1D80 then
    if x % 0x10 = 8 then (sparseGet (fun _ => ([] : List Word)) b.eng.mbx ((x - 0x1D00) / 0x10)).length else 0
  else if 0x1E00 ≤ x then
    if !agentSession ag h n then 0
    else if x < 0x1F00 then (if x % 0x10 = 4 then b.coreMask ((x - 0x1E04) / 0x10) (fun t => t.dbg) else 0)
    else if x = 0x1F00 then w
    else match b.dbgThread with
      | none => 0
      | some i =>
        if x = 0x1F04 then (b.thr i).pc
        else getBits ((b.thr i).greg ((x - 0x1F10) / 8)).toNat (if (x - 0x1F10) % 8 = 4 then 32 else 0) 32
  else w

/-- The fields of a row that a read returns: WO fields read 0 (R13). -/
def RegDesc.readable (r : RegDesc) (w : Nat) : Nat := Nat.land w (2 ^ 32 - 1 - r.mask .wo)

/-- The LIVENESS word of a bench block (R16). -/
def livenessWord (block bench : Nat) (hub : Bool) : Nat := block + 2 ^ 16 * bench + (if hub then 2 ^ 20 else 0) + 2 ^ 24 * 0xB

/-- The bench's RC registers whose bit 0 is VALID (R13): the first read takes the result. -/
def benchRcRegs : List Nat :=
  [R.graph_NODE_COMMIT_STATUS, R.match_LEARN_REC_STATUS, R.match_OP_STATUS, R.action_TPL_COMMIT_STATUS,
    R.cipher_SA_COMMIT_STATUS, R.tm_MTR_COMMIT_STATUS, R.tm_QCTX_COMMIT_STATUS, R.tm_GATE_COMMIT_STATUS 0,
    R.tm_GATE_COMMIT_STATUS 1, R.tm_GATE_COMMIT_STATUS 2, R.tm_GATE_COMMIT_STATUS 3, R.hopper_HOP_STATUS, R.haul_HAUL_STATUS]

/-- A read of an RC status or log register (RC_REGISTER_READ): the oldest result or record is consumed; none reads 0. Logs of
two words are read word 0 first; word 1 belongs to the record whose word 0 was read. [DEDUCED, log 74, unsafe] -/
def Bench.rcRead (b : Bench) (o : Nat) : Option (Nat × Bench) :=
  if benchRcRegs.contains o then
    let w := (b.reg o).toNat
    some (if w % 2 = 1 then (w, b.setReg o 0#32) else (0, b))
  else if o = R.cipher_SA_NOTICE then
    match b.ci.notices with
    | [] => some (0, b)
    | (i, k) :: t => some (i + 2 ^ 14 * k + 2 ^ 15, { b with ci := { b.ci with notices := t } })
  else if o = R.hopper_REFUSAL_LOG 0 then
    match b.hop.log with
    | [] => some (0, { b with hop := { b.hop with logHeld := 0 } })
    | (w0, w1) :: t => some (w0, { b with hop := { b.hop with log := t, logHeld := w1 } })
  else if o = R.hopper_REFUSAL_LOG 1 then some (b.hop.logHeld, { b with hop := { b.hop with logHeld := 0 } })
  else if o = R.storage_MEDIA_LOG 0 then
    match b.sto.log with
    | [] => some (0, { b with sto := { b.sto with logHeld := 0 } })
    | (w0, w1) :: t => some (w0, { b with sto := { b.sto with log := t, logHeld := w1 } })
  else if o = R.storage_MEDIA_LOG 1 then some (b.sto.logHeld, { b with sto := { b.sto with logHeld := 0 } })
  else if o = R.dram_DRAM_ERR_LOG 0 then
    match b.dram.log with
    | [] => some (0, { b with dram := { b.dram with logHeld := 0 } })
    | (w0, w1) :: t => some (w0, { b with dram := { b.dram with log := t, logHeld := w1 } })
  else if o = R.dram_DRAM_ERR_LOG 1 then some (b.dram.logHeld, { b with dram := { b.dram with logHeld := 0 } })
  else if o = R.ring_RING_FAULT then
    match b.rings.faults with
    | [] => some (0, b)
    | w :: t => some (w, { b with rings := { b.rings with faults := t } })
  else none

/-- Does the agent read the table, the hit bitmap and the recipes: bench firmware, Ryuner and a FULL session (R153)? The host reads
them through Sceune commands alone. -/
def readsTables (ag : Agent) : Bool :=
  match ag with
  | .host _ | .engineDbg => false
  | _ => true

/-- A read of PORT_STATUS or MODULE_CTL: LOCAL_FAULT and REMOTE_FAULT are what the PCS and the partner make them, and read 0 on a port
that is DISABLED; PRESENT and INT are the levels of the input pins (R64, R91, R94). [DESIGN CHOICE, log 115, safe] -/
def Bench.portRead (b : Bench) (p y w : Nat) : List Nat × Bench :=
  let f := b.takeFree
  if y = 4 && b.portSt p ≠ psDisabled then ([putBits w 4 2 (f.1.toNat % 4)], f.2)
  else if y = 0x1C then ([putBits w 8 2 (f.1.toNat % 4)], f.2)
  else ([w], b)

/-- A read of one register word, with what the read consumes. -/
def regRead (n : BenchId) (ag : Agent) (o : Nat) (h : Hub) (b : Bench) : BusOut :=
  let ret : Nat → BusOut := fun v => ⟨v, none, h, b⟩
  let take : List Nat × Bench → BusOut := fun r => ⟨r.1.getD 0 0, none, h, r.2⟩
  let x := o % 0x10000
  match benchReg? o with
  | none => ⟨0, some .addr, h, b.tick (T.ADDR_MISS (benchUnit o))⟩
  | some r =>
    if x = 0 then ret (livenessWord (o / 0x10000) n.val false)
    else match b.rcRead o with
      | some (v, b') => ⟨v, none, h, b'⟩
      | none =>
        match o / 0x10000 with
        | 1 =>
          if 0x100 ≤ x && x < 0x300 then
            let p := (x - 0x100) / 0x80
            let y := (x - 0x100) % 0x80
            if !b.hasPort p then ret 0
            else if 0x20 ≤ y && y < 0x30 then take (b.txTsRead p ((y - 0x20) / 4))
            else take (b.portRead p y (r.readable (b.reg o).toNat))
          else if 0xC40 ≤ x && x < 0xC4C then take (b.ppsRead ((x - 0xC40) / 4))
          else if x = 0xC50 then take b.freqRead
          else ret (r.readable (b.reg o).toNat)
        | 3 => if 0x4000 ≤ x && !readsTables ag then ⟨0, some .closed, h, if ag = .engineDbg then b else b.tick (T.ADDR_MISS 3)⟩ else ret (r.readable (b.reg o).toNat)
        | 8 => ret (engineRead n ag o h b)
        | 13 =>
          if 0x100 ≤ x then
            if agentPair ag ≠ some ((x - 0x100) / 0x10) then ⟨0, some .addr, h, b.tick (T.ADDR_MISS 0)⟩
            else ret (if x % 0x10 = 0 then 0 else (b.reg o).toNat)
          else ret (r.readable (b.reg o).toNat)
        | _ => ret (r.readable (b.reg o).toNat)

/-! ## Memory windows (R36) -/

/-- The windows of a bench range. -/
inductive Region where
  | regs | rings | claims | retired | records | buffer | table | hits | nodes | templates | sa | meters | queues | gates
  | scratch | imem | slices | staging | dram | none
deriving DecidableEq, Repr

/-- The window that holds `n` bytes at a bench offset. -/
def Bench.regionOf (b : Bench) (o n : Nat) : Region :=
  let within := fun (lo sz : Nat) => lo ≤ o && o + n ≤ lo + sz
  if within 0 0xE0000 then .regs
  else if within 0x100000 0x80000 then .rings
  else if within 0x180000 0x2000 then .claims
  else if within 0x200000 0x20000 then .retired
  else if within 0x800000 0x80000 || within 0xC00000 0x80000 then .records
  else if within 0x1000000 0x1000000 then .buffer
  else if within 0x2000000 0x400000 then .table
  else if within 0x2400000 0x2000 then .hits
  else if within 0x3000000 0x4000 then .nodes
  else if within 0x3010000 0x20000 then .templates
  else if within 0x4000000 0x200000 then .sa
  else if within 0x5000000 0x200000 then .meters
  else if within 0x5200000 0x80000 then .queues
  else if within 0x5280000 0x10000 then .gates
  else if within 0x6000000 0x200000 then .scratch
  else if within 0x7000000 0x80000 then .imem
  else if within 0x8000000 0x100000 then .slices
  else if within 0x9000000 0x840000 then .staging
  else if within dramBase b.capacity then .dram
  else .none

/-- The unit whose ADDR_MISS counts a refused offset (R533). -/
def missUnit (o : Nat) : Nat := if o < 0xE0000 then benchUnit o else 0

/-- Word 0 on of a claim's context (R369). -/
def Bench.claimContext (b : Bench) (i : Nat) : List Byte :=
  match b.claim? i with
  | none => List.replicate 32 0#8
  | some c =>
    let tags := (b.reads.filter (fun r => r.claim = i && !r.quarantine && !r.dead)).length
    [c.st + (if fnVf c.fn then 4 else 0) + 8 * fnIdx c.fn + (if c.pasid.isSome then 2 ^ 14 else 0), c.pasid.getD 0, c.ringBase,
      c.ringCount, c.tagLimit + 2 ^ 16 * c.weight, tags, c.pageBase, c.pages].flatMap (leBytes 4)

/-- A byte of the SA window (R193): bytes 96 to 127 of an entry are its four tallies. -/
def Bench.saByte (b : Bench) (o : Nat) : Byte :=
  let i := (o - 0x4000000) / 128
  let k := o % 128
  if k < 96 then memByte b.mem o
  else
    let key := match (k - 96) / 8 with
      | 0 => T.SA_PKTS i
      | 1 => T.SA_OCTETS i
      | 2 => T.SA_AUTH_FAIL i
      | _ => T.SA_REPLAY i
    BitVec.ofNat 8 (b.tally key / 2 ^ (8 * (k % 8)))

/-- May an agent reach a window (R153, R273, R398)? Threads and hosts do not reach the core memories, nobody the staging
buffer and the overflow areas, and hosts not the tables. [DEDUCED, log 71, unsafe] -/
def Region.openTo (r : Region) (ag : Agent) : Bool :=
  match r with
  | .staging => false
  | .imem | .slices => ag = .foreman || ag = .full
  | .table | .hits => readsTables ag
  | _ => true

/-- A read through the window of an ECC-protected memory: the value `v`, or a bus error when the entry that holds the offset
meets an uncorrectable error (R524, R525). [DEDUCED, log 102, unsafe] -/
def Bench.eccRead (b : Bench) (o : Nat) (ecc : Ecc) (h : Hub) (v : Nat) : BusOut :=
  let a := o / eccUnit o * eccUnit o
  let b := b.correctable (memCounter o) (ecc.cor a (a + eccUnit o))
  if ecc.unc a (a + eccUnit o) then ⟨0, some .ecc, h, b.memEcc o⟩ else ⟨v, none, h, b⟩

/-- An agent is turned away from a window that is closed to it: a host's access is one that the internal map refuses, and is counted
(R339); a thread faults with CLASS (R273). [DEDUCED, log 71, unsafe] -/
def Bench.closedTo (b : Bench) (ag : Agent) (o : Nat) : Bench :=
  match ag with
  | .host _ => b.tick (T.ADDR_MISS (missUnit o))
  | _ => b

/-- A read of `size` bytes (1, 2, 4 or 8, aligned) at a bench offset. -/
def busRead (n : BenchId) (ag : Agent) (o size : Nat) (ecc : Ecc) (h : Hub) (b : Bench) : BusOut :=
  let r := b.regionOf o size
  if r = .none then ⟨0, some .addr, h, b.tick (T.ADDR_MISS (missUnit o))⟩
  else if !r.openTo ag then ⟨0, some .closed, h, b.closedTo ag o⟩
  else match r with
    | .regs =>
      if size = 8 then
        if (benchReg? o).isNone || (benchReg? (o + 4)).isNone then ⟨0, some .addr, h, b.tick (T.ADDR_MISS (benchUnit o))⟩ else
        let p := regRead n ag o h b
        let q := regRead n ag (o + 4) p.hub p.bench
        ⟨p.val + 2 ^ 32 * q.val, if p.err.isSome then p.err else q.err, q.hub, q.bench⟩
      else
        let p := regRead n ag (o / 4 * 4) h b
        { p with val := getBits p.val (8 * (o % 4)) (8 * size) }
    | .claims => ⟨leNat (slice (b.claimContext ((o - 0x180000) / 32)) (o % 32) size), none, h, b⟩
    | .hits => ⟨(b.hitRead (o - 0x2400000) size).1.getD 0 0, none, h, (b.hitRead (o - 0x2400000) size).2⟩
    | .sa => b.eccRead o ecc h (leNat ((List.range size).map (fun i => b.saByte (o + i))))
    | .records | .buffer | .table | .nodes | .templates | .meters | .queues | .scratch | .imem | .slices =>
      b.eccRead o ecc h (b.le o size)
    | .dram =>
      if !b.dramUp then ⟨0, some .addr, h, b.tick (T.ADDR_MISS 0)⟩
      else match b.readDram (o - dramBase) size ecc with
        | (some l, b) => ⟨leNat l, none, h, b⟩
        | (none, b) => ⟨0, some .ecc, h, b⟩
    | _ => ⟨b.le o size, none, h, b⟩

/-- Bytes that a register write of fewer than four bytes leaves alone keep their RW fields. [DEDUCED, log 70, unsafe] -/
def Bench.mergeReg (b : Bench) (o size v : Nat) : Nat :=
  let a := o / 4 * 4
  let lo := 8 * (o % 4)
  let rw := match benchReg? a with | some r => r.mask .rw | none => 0
  putBits (Nat.land (b.reg a).toNat rw) lo (8 * size) v

/-- The tally of a window that refuses writes with a bus error; none for a window that ignores them as read-only. [DEDUCED, log 71, unsafe] -/
def windowTally : Region → Option Nat
  | .rings | .claims => some T.RING_WINDOW_WRITE
  | .retired => some T.FLASH_WINDOW_WRITE
  | .records => some T.HOPPER_WINDOW_WRITE
  | .table | .hits => some T.TABLE_WINDOW_WRITE
  | .sa => some T.SA_WINDOW_WRITE
  | .meters | .queues => some T.TM_WINDOW_WRITE
  | _ => none

/-- A write of `size` bytes (1, 2, 4 or 8, aligned) at a bench offset. -/
def busWrite (n : BenchId) (ag : Agent) (o size v : Nat) (ecc : Ecc) (h : Hub) (b : Bench) : BusOut :=
  let r := b.regionOf o size
  if r = .none then ⟨0, some .addr, h, b.tick (T.ADDR_MISS (missUnit o))⟩
  else match windowTally r with
    | some t => ⟨0, some .refused, h, b.tick t⟩
    | none =>
      if !r.openTo ag then ⟨0, some .closed, h, b.closedTo ag o⟩
      else match r with
      | .regs =>
        if size = 8 then
          if (benchReg? o).isNone || (benchReg? (o + 4)).isNone then ⟨0, some .addr, h, b.tick (T.ADDR_MISS (benchUnit o))⟩ else
          let p := regWrite n ag o (v % 2 ^ 32) ecc h b
          if p.err.isSome then p else regWrite n ag (o + 4) (v / 2 ^ 32 % 2 ^ 32) ecc p.hub p.bench
        else regWrite n ag (o / 4 * 4) (if size = 4 then v else b.mergeReg o size v) ecc h b
      | .nodes => ⟨0, none, h, b.tick (T.RSVD_WRITE 2)⟩
      | .templates => ⟨0, none, h, b.tick (T.RSVD_WRITE 4)⟩
      | .gates =>
        let p := (o - 0x5280000) / 0x4000
        if (o - 0x5280000) % 0x4000 < 0x2000 && !b.gatePending p then ⟨0, none, h, b.setLe o size v⟩
        else ⟨0, some .refused, h, b.tick T.GATE_WRITE_REFUSED⟩
      | .imem =>
        if (List.range 8).all (fun c => b.coreState c = 0) then ⟨0, none, h, b.setLe o size v⟩
        else ⟨0, some .refused, h, b.tick T.IMEM_WRITE_REFUSED⟩
      | .scratch | .slices =>
        let b := if size < 8 then b.wordCor ecc o else b
        if size < 8 && ecc.wordBad o then ⟨0, some .ecc, h, b.engineEcc o⟩ else ⟨0, none, h, b.setLe o size v⟩
      | .dram =>
        if !b.dramUp then ⟨0, some .addr, h, b.tick (T.ADDR_MISS 0)⟩
        else
          let test := ag = .foreman || ag = .full
          ⟨0, none, h, if test then b.writeDramTest (o - dramBase) (leBytes size v) ecc
                       else b.writeDram (o - dramBase) (leBytes size v) ecc⟩
      | _ => ⟨0, none, h, b.setLe o size v⟩

end Sys2Proof.Machine
end

