-- ==== Sys2Proof/Machine/Engine.lean ====
section
/-! DEFINITION. The engine cores' instructions (R269 to R287), one command each: the instruction that a thread issues in its
slot, and the returns that end a wait. -/
namespace Sys2Proof.Machine

/-! ## Fields of an instruction word (R278) -/

def iOp (w : Nat) : Nat := getBits w 26 6
def iRD (w : Nat) : Nat := getBits w 21 5
def iRA (w : Nat) : Nat := getBits w 16 5
def iRB (w : Nat) : Nat := getBits w 11 5
def iX5 (w : Nat) : Nat := getBits w 6 5
def iFN (w : Nat) : Nat := getBits w 0 6
def iImm (w : Nat) : Nat := getBits w 0 16
/-- IMM16 sign-extended. -/
def iSimm (w : Nat) : DWord := (BitVec.ofNat 16 w).signExtend 64
/-- Access size of format M in bytes. -/
def iSize (w : Nat) : Nat := 2 ^ getBits w 14 2
/-- OFF13 sign-extended. -/
def iOff (w : Nat) : DWord := (BitVec.ofNat 13 w).signExtend 64
/-- POS and width of format F. -/
def iPos (w : Nat) : Nat := getBits w 10 6
def iWidth (w : Nat) : Nat := getBits w 4 6 + 1

/-! ## Issue (R269, R270, R286, R287) -/

/-- May thread `i` issue an instruction: its core RUNNING, ACTIVE, neither blocked nor held by a debugger? -/
def Bench.canIssue (b : Bench) (i : Nat) : Bool :=
  let t := b.thr i
  i < 64 && b.coreState (i / 8) = 1 && t.st = 1 && !t.dbg && t.wait = .none

/-- Address of the instruction word of thread `i`. -/
def Bench.pcAddr (b : Bench) (i : Nat) : Nat := 0x7000000 + 4 * (b.thr i).pc

/-- What an instruction does to the hub and the bench: thread, its word, its ECC errors. -/
abbrev Meaning := Nat → Nat → Ecc → Hub → Bench → Hub × Bench

/-- The instruction at the PC of thread `i` issues, where its OP is one of this row: an unreadable word faults; `seq` says that it
moves on to the next word, which must exist (R279). No core issues while PWRFAIL_N is low (R569). [DEDUCED, log 54, unsafe] -/
def issueOn (i : Nat) (ecc : Ecc) (ok : Nat → Bool) (seq : Bool) (f : Meaning) (h : Hub) (b : Bench) : Hub × Bench :=
  if !b.canIssue i || h.fw.pwrfail then (h, b)
  else
    let a := b.pcAddr i
    let w := b.le a 4
    let c := b.wordCor ecc a
    if ecc.wordBad a then (h, ((((c.engineEcc a).tick (T.ISSUED (i / 8))).takeSlot i).faultThread i fImem 0).pump)
    else if !ok (iOp w) then (h, b)
    else
      let c := (c.tick (T.ISSUED (i / 8))).takeSlot i
      if seq && pcMax ≤ (b.thr i).pc then (h, (c.faultThread i fPc 0).pump)
      else
        let r := f i w ecc h c
        (r.1, r.2.pump)

/-- A command that issues one instruction of thread `t` of core `c` of bench `n`. -/
def State.issue (s : State) (n : BenchId) (c t : Nat) (ecc : Ecc) (op : Nat) (seq : Bool) (f : Meaning) :
    Host.Outcome State Fault Refusal :=
  s.onLive n (issueOn (8 * (c % 8) + t % 8) ecc (fun o => o = op) seq f)

/-- A meaning that reads and writes the bench alone. -/
def onCore (f : Nat → Nat → Ecc → Bench → Bench) : Meaning := fun i w e h b => (h, f i w e b)

/-- Value of RA. -/
def Bench.ra (b : Bench) (i w : Nat) : DWord := (b.thr i).greg (iRA w)
/-- Value of RB. -/
def Bench.rb (b : Bench) (i w : Nat) : DWord := (b.thr i).greg (iRB w)
/-- Value of RD. -/
def Bench.rdv (b : Bench) (i w : Nat) : DWord := (b.thr i).greg (iRD w)
/-- The instruction ends: RD takes a value, the PC goes on. -/
def Bench.fin (b : Bench) (i w : Nat) (v : DWord) : Bench := b.complete i [(iRD w, v)] ((b.thr i).pc + 1)
/-- The instruction ends and writes no register. -/
def Bench.fin0 (b : Bench) (i : Nat) : Bench := b.complete i [] ((b.thr i).pc + 1)
/-- A result that is a truth value. -/
def dbool (p : Bool) : DWord := if p then 1 else 0

/-! ## Arithmetic (R279 to R281) -/

/-- A number with its first `k` bytes reversed, the others 0. -/
def swapBytes (k : Nat) (a : DWord) : DWord := BitVec.ofNat 64 (leNat (leBytes k a.toNat).reverse)

/-- The ALU functions (R280); none is a function not listed. -/
def alu (fn : Nat) (a b : DWord) : Option DWord :=
  let k := b.toNat % 64
  match fn with
  | 0x00 => some (a + b)
  | 0x01 => some (a - b)
  | 0x02 => some (a &&& b)
  | 0x03 => some (a ||| b)
  | 0x04 => some (a ^^^ b)
  | 0x05 => some (a &&& ~~~b)
  | 0x06 => some (a <<< k)
  | 0x07 => some (a >>> k)
  | 0x08 => some (a.sshiftRight k)
  | 0x09 => some (a * b)
  | 0x0A => some (BitVec.ofNat 64 (a.toNat * b.toNat / 2 ^ 64))
  | 0x0B => some (dbool (a.slt b))
  | 0x0C => some (dbool (a.ult b))
  | 0x0D => some (if a.ult b then a else b)
  | 0x0E => some (if a.ult b then b else a)
  | 0x0F => some (BitVec.ofNat 64 (((List.range 64).find? (fun j => a.getLsbD (63 - j))).getD 64))
  | 0x10 => some (BitVec.ofNat 64 ((List.range 64).filter (fun j => a.getLsbD j)).length)
  | 0x11 => some (swapBytes 8 a)
  | 0x12 => some (swapBytes 4 a)
  | 0x13 => some (swapBytes 2 a)
  | 0x14 => some (BitVec.ofNat 64 (crc32c (a.toNat % 2 ^ 32) (leBytes 8 b.toNat)))
  | 0x15 => some (BitVec.ofNat 64 (crc32c (a.toNat % 2 ^ 32) (leBytes 1 b.toNat)))
  | _ => none

/-- ALU (R280). -/
def Bench.doAlu (i w : Nat) (_ : Ecc) (b : Bench) : Bench :=
  if iX5 w ≠ 0 then b.faultThread i fIllegal 0
  else match alu (iFN w) (b.ra i w) (b.rb i w) with
    | some v => b.fin i w v
    | none => b.faultThread i fIllegal 0
/-- ALU. -/
def execAlu (n : BenchId) (c t : Nat) (ecc : Ecc) (s : State) : Host.Outcome State Fault Refusal :=
  s.issue n c t ecc 0x00 true (onCore Bench.doAlu)

/-- An instruction of format I: RD = f(RA, word). -/
def Bench.doImm (f : DWord → Nat → DWord) (i w : Nat) (_ : Ecc) (b : Bench) : Bench := b.fin i w (f (b.ra i w) w)
/-- IMM16 zero-extended. -/
def iZimm (w : Nat) : DWord := BitVec.ofNat 64 (iImm w)
/-- ADDI. -/
def execAddi (n : BenchId) (c t : Nat) (ecc : Ecc) (s : State) : Host.Outcome State Fault Refusal :=
  s.issue n c t ecc 0x01 true (onCore (Bench.doImm (fun a w => a + iSimm w)))
/-- ANDI. -/
def execAndi (n : BenchId) (c t : Nat) (ecc : Ecc) (s : State) : Host.Outcome State Fault Refusal :=
  s.issue n c t ecc 0x02 true (onCore (Bench.doImm (fun a w => a &&& iZimm w)))
/-- ORI. -/
def execOri (n : BenchId) (c t : Nat) (ecc : Ecc) (s : State) : Host.Outcome State Fault Refusal :=
  s.issue n c t ecc 0x03 true (onCore (Bench.doImm (fun a w => a ||| iZimm w)))
/-- XORI. -/
def execXori (n : BenchId) (c t : Nat) (ecc : Ecc) (s : State) : Host.Outcome State Fault Refusal :=
  s.issue n c t ecc 0x04 true (onCore (Bench.doImm (fun a w => a ^^^ iZimm w)))
/-- SLTI. -/
def execSlti (n : BenchId) (c t : Nat) (ecc : Ecc) (s : State) : Host.Outcome State Fault Refusal :=
  s.issue n c t ecc 0x05 true (onCore (Bench.doImm (fun a w => dbool (a.slt (iSimm w)))))
/-- SLTIU. -/
def execSltiu (n : BenchId) (c t : Nat) (ecc : Ecc) (s : State) : Host.Outcome State Fault Refusal :=
  s.issue n c t ecc 0x06 true (onCore (Bench.doImm (fun a w => dbool (a.ult (iSimm w)))))

/-- SHI (R279). -/
def Bench.doShi (i w : Nat) (_ : Ecc) (b : Bench) : Bench :=
  let a := b.ra i w
  let k := getBits w 0 6
  if getBits w 8 8 ≠ 0 then b.faultThread i fIllegal 0
  else match getBits w 6 2 with
    | 0 => b.fin i w (a <<< k)
    | 1 => b.fin i w (a >>> k)
    | 2 => b.fin i w (a.sshiftRight k)
    | _ => b.faultThread i fOperand 0
/-- SHI. -/
def execShi (n : BenchId) (c t : Nat) (ecc : Ecc) (s : State) : Host.Outcome State Fault Refusal :=
  s.issue n c t ecc 0x07 true (onCore Bench.doShi)

/-- MOVW (R281): the fields of RA's place are the halfword, two reserved bits and Z. -/
def Bench.doMovw (i w : Nat) (_ : Ecc) (b : Bench) : Bench :=
  let r := iRA w
  let old := if bit r 4 then 0 else (b.rdv i w).toNat
  if getBits r 2 2 ≠ 0 then b.faultThread i fIllegal 0
  else b.fin i w (BitVec.ofNat 64 (putBits old (16 * (r % 4)) 16 (iImm w)))
/-- MOVW. -/
def execMovw (n : BenchId) (c t : Nat) (ecc : Ecc) (s : State) : Host.Outcome State Fault Refusal :=
  s.issue n c t ecc 0x08 true (onCore Bench.doMovw)

/-- EXT, EXTS and INS (R279, R281): `f` makes the result from RA, RD, POS and the width. -/
def Bench.doField (f : DWord → DWord → Nat → Nat → DWord) (i w : Nat) (_ : Ecc) (b : Bench) : Bench :=
  if getBits w 0 4 ≠ 0 || 64 < iPos w + iWidth w then b.faultThread i fIllegal 0
  else b.fin i w (f (b.ra i w) (b.rdv i w) (iPos w) (iWidth w))
/-- The field of a word, sign-extended. -/
def extSigned (a : DWord) (pos k : Nat) : DWord := (BitVec.ofNat k (getBits a.toNat pos k)).signExtend 64
/-- EXT. -/
def execExt (n : BenchId) (c t : Nat) (ecc : Ecc) (s : State) : Host.Outcome State Fault Refusal :=
  s.issue n c t ecc 0x09 true (onCore (Bench.doField (fun a _ pos k => BitVec.ofNat 64 (getBits a.toNat pos k))))
/-- EXTS. -/
def execExts (n : BenchId) (c t : Nat) (ecc : Ecc) (s : State) : Host.Outcome State Fault Refusal :=
  s.issue n c t ecc 0x0A true (onCore (Bench.doField (fun a _ pos k => extSigned a pos k)))
/-- INS. -/
def execIns (n : BenchId) (c t : Nat) (ecc : Ecc) (s : State) : Host.Outcome State Fault Refusal :=
  s.issue n c t ecc 0x0B true (onCore (Bench.doField (fun a d pos k => BitVec.ofNat 64 (putBits d.toNat pos k a.toNat))))

/-! ## Loads and stores (R273 to R275) -/

/-- A loaded value of `k` bytes, sign-extended or zero-extended. -/
def loaded (w v : Nat) : DWord := if bit w 13 then extSigned (BitVec.ofNat 64 v) 0 (8 * iSize w) else BitVec.ofNat 64 v

/-- Address of an access of format M. -/
def Bench.eff (b : Bench) (i w : Nat) : Nat := (b.ra i w + iOff w).toNat

/-- LDL (R275, R287). -/
def Bench.doLdl (i w : Nat) (ecc : Ecc) (b : Bench) : Bench :=
  let a := b.eff i w
  let k := iSize w
  if a % k ≠ 0 then b.faultThread i fAlign a
  else if 0x3FFF < a then b.faultThread i fLocal a
  else
    let o := sliceAddr i + a
    let b := b.wordCor ecc o
    if ecc.wordBad o then (b.engineEcc o).faultThread i fEcc a else b.fin i w (loaded w (b.le o k))
/-- LDL. -/
def execLdl (n : BenchId) (c t : Nat) (ecc : Ecc) (s : State) : Host.Outcome State Fault Refusal :=
  s.issue n c t ecc 0x10 true (onCore Bench.doLdl)

/-- STL (R275, R287): a store of fewer than 8 bytes reads its word. -/
def Bench.doStl (i w : Nat) (ecc : Ecc) (b : Bench) : Bench :=
  let a := b.eff i w
  let k := iSize w
  if a % k ≠ 0 then b.faultThread i fAlign a
  else if 0x3FFF < a then b.faultThread i fLocal a
  else
    let o := sliceAddr i + a
    let b := if k < 8 then b.wordCor ecc o else b
    if k < 8 && ecc.wordBad o then (b.engineEcc o).faultThread i fEcc a
    else (b.setLe o k (b.rdv i w).toNat).fin0 i
/-- STL. -/
def execStl (n : BenchId) (c t : Nat) (ecc : Ecc) (s : State) : Host.Outcome State Fault Refusal :=
  s.issue n c t ecc 0x11 true (onCore Bench.doStl)

/-- The fault code of a refused access (R286). -/
def BusErr.code : BusErr → Nat
  | .addr => fAddr
  | .closed => fClass
  | .refused => fWrite
  | .ecc => fEcc
  | .full => fMailbox

/-- Hub address of the engine ports of bench `n` (R481). -/
def eportBase (n : BenchId) : Nat := 0x130000 + 0x40 * n.val
/-- Does an address lie in the engine ports of bench `n`? -/
def ownPort (n : BenchId) (a : Nat) : Bool := eportBase n ≤ a && a < eportBase n + 0x40

/-- What an address of LDB and STB is: a bench offset of the thread's own range, an offset of its own engine port, or a fault
code with what the fault counts. -/
inductive Place where
  | bench (o : Nat) | port (o : Nat) | bad (code : Nat)
deriving DecidableEq, Repr

/-- Where an internal address lies (R275). [DEDUCED, log 55, unsafe] -/
def placeOf (n : BenchId) (a k : Nat) : Place :=
  if a % k ≠ 0 then .bad fAlign
  else match ownOffset n a with
    | some o => .bench o
    | none =>
      if ownPort n a then .port (a - eportBase n)
      else .bad (if foreign n a then fIsolation else fAddr)

/-- A fault at an address, with the tally or event that counts it. [DEDUCED, log 54, unsafe] -/
def Bench.addrFault (b : Bench) (n : BenchId) (i code a : Nat) : Bench :=
  let b := if code = fAddr then b.tick (T.ADDR_MISS 0) else if code = fIsolation then b.isolation n a else b
  b.faultThread i code a

/-- A read at the bench's engine port (R314, R481): the value, or the fault. [DEDUCED, log 55, unsafe] -/
def eportRead (n : BenchId) (o k : Nat) (h : Hub) (b : Bench) : Except Nat (Nat × Hub × Bench) :=
  let e := h.eport n.val
  let word := fun (v : Nat) => Except.ok (getBits v (8 * (o % 4)) (8 * k), h, b)
  if o < 0x10 then
    if o = 8 && k = 8 then
      match e.fromFm with
      | [] => .ok (0, h, b.tick T.MBOX_EMPTY_READ)
      | x :: l => .ok (x.toNat + 2 ^ 32, h.setEport n.val { e with fromFm := l }, b)
    else .error fClass
  else if 0x24 ≤ o then .error fAddr
  else
    let v := fun (x : Nat) => match x with
      | 0x10 => e.toFm.length + 2 ^ 8 * e.fromFm.length
      | 0x14 => e.dbFm
      | 0x18 => e.maskFm
      | 0x1C => e.dbBench
      | _ => e.maskBench
    if k = 8 then (if o + 4 < 0x24 then .ok (v o + 2 ^ 32 * v (o + 4), h, b) else .error fAddr) else word (v (o / 4 * 4))

/-- Unmasked DB_TO_BENCH bits move into the DOORBELL notice (R481). -/
def Hub.ringBench (h : Hub) (n : BenchId) (b : Bench) : Hub × Bench :=
  let e := h.eport n.val
  let go := Nat.land e.dbBench (2 ^ 32 - 1 - e.maskBench)
  if go = 0 then (h, b)
  else (h.setEport n.val { e with dbBench := e.dbBench - go }, { b with eng := { b.eng with doorSlot := Nat.lor b.eng.doorSlot go } })

/-- A write of one word at the bench's engine port by a thread. -/
def eportWord (n : BenchId) (o v : Nat) (h : Hub) (b : Bench) : Hub × Bench :=
  let e := h.eport n.val
  match o with
  | 0x14 => (h.setEport n.val { e with dbFm := Nat.lor e.dbFm v }, b)
  | 0x1C => (h.setEport n.val { e with dbBench := e.dbBench - Nat.land e.dbBench v }, b)
  | 0x20 => (h.setEport n.val { e with maskBench := v }).ringBench n b
  | _ => (h.tick (T.RSVD_WRITE 3), b)

/-- A write at the bench's engine port: the fault, or the state. -/
def eportWrite (n : BenchId) (o k v : Nat) (h : Hub) (b : Bench) : Except (Nat × Bench) (Hub × Bench) :=
  let e := h.eport n.val
  if o < 0x10 then
    if o = 0 && k = 4 then
      if 16 ≤ e.toFm.length then .error (fMailbox, b.tick T.MBOX_REFUSED)
      else .ok (h.setEport n.val { e with toFm := e.toFm ++ [BitVec.ofNat 32 v] }, b)
    else .error (fClass, b)
  else if 0x24 ≤ o || (k = 8 && 0x24 ≤ o + 4) then .error (fAddr, b)
  else if k = 8 then
    let r := eportWord n o (v % 2 ^ 32) h b
    .ok (eportWord n (o + 4) (v / 2 ^ 32) r.1 r.2)
  else .ok (eportWord n (o / 4 * 4) (v * 2 ^ (8 * (o % 4))) h b)

/-- The core whose inbound mailbox lies at a bench offset (R320). [DEDUCED, log 55, unsafe] -/
def coreMbx (o : Nat) : Option Nat :=
  if 0x81D00 ≤ o && o < 0x81D80 && o % 0x10 < 8 then some ((o - 0x81D00) / 0x10) else none

/-- Slots that an access of LDB or STB at a bench offset costs beyond the first (R273). -/
def Bench.slotCost (b : Bench) (o k : Nat) : Nat :=
  match b.regionOf o k with
  | .scratch | .buffer => 1
  | .regs | .rings | .claims | .retired | .records => 3
  | _ => 2

/-- LDB (R273 to R275). [DEDUCED, log 54, unsafe] -/
def doLdb (n : BenchId) : Meaning := fun i w ecc h b =>
  let a := b.eff i w
  let k := iSize w
  match placeOf n a k with
  | .bad code => (h, b.addrFault n i code a)
  | .port o =>
    match eportRead n o k h b with
    | .ok (v, h, b) => (h, (b.cost i 4).fin i w (loaded w v))
    | .error code => (if code = fAddr then h.tick (T.ADDR_MISS 3) else h, b.faultThread i code a)
  | .bench o =>
    match coreMbx o with
    | some c =>
      if k ≠ 8 || c ≠ i / 8 then (h, b.faultThread i fClass a)
      else
        match sparseGet (fun _ => ([] : List Word)) b.eng.mbx c with
        | [] => (h, ((b.tick T.MBOX_EMPTY_READ).cost i 3).fin i w 0)
        | x :: l =>
          let m := sparseSet (fun _ => ([] : List Word)) b.eng.mbx c l
          (h, ({ b with eng := { b.eng with mbx := m } }.cost i 3).fin i w (BitVec.ofNat 64 (x.toNat + 2 ^ 32)))
    | none =>
      if b.dramUp && b.regionOf o k = .dram then (h, b.faultThread i fClass a)
      else
        let r := busRead n (.thread i) o k ecc h b
        match r.err with
        | some e => (r.hub, r.bench.faultThread i e.code a)
        | none => (r.hub, (r.bench.cost i (b.slotCost o k)).fin i w (loaded w r.val))
/-- LDB. -/
def execLdb (n : BenchId) (c t : Nat) (ecc : Ecc) (s : State) : Host.Outcome State Fault Refusal :=
  s.issue n c t ecc 0x12 true (doLdb n)

/-- STB (R273 to R275): a store that a bench register refuses, such as one to another requester's snapshot pair (R534), is counted and
does not fault. [DEDUCED, log 54, unsafe] -/
def doStb (n : BenchId) : Meaning := fun i w ecc h b =>
  let a := b.eff i w
  let k := iSize w
  let v := (b.rdv i w).toNat % 2 ^ (8 * k)
  match placeOf n a k with
  | .bad code => (h, b.addrFault n i code a)
  | .port o =>
    match eportWrite n o k v h b with
    | .ok (h, b) => (h, (b.cost i 4).fin0 i)
    | .error (code, b) => (if code = fAddr then h.tick (T.ADDR_MISS 3) else h, b.faultThread i code a)
  | .bench o =>
    if (coreMbx o).isSome && k ≠ 4 then (h, b.faultThread i fClass a)
    else if b.dramUp && b.regionOf o k = .dram then (h, b.faultThread i fClass a)
    else
      let r := busWrite n (.thread i) o k v ecc h b
      let own := (benchReg? (o / 4 * 4)).isSome && (benchReg? ((o + k - 1) / 4 * 4)).isSome
      match r.err with
      | some e => (r.hub, if e = .addr && own then (r.bench.cost i 3).fin0 i else r.bench.faultThread i e.code a)
      | none => (r.hub, (r.bench.cost i (b.slotCost o k)).fin0 i)
/-- STB. -/
def execStb (n : BenchId) (c t : Nat) (ecc : Ecc) (s : State) : Host.Outcome State Fault Refusal :=
  s.issue n c t ecc 0x13 true (doStb n)

/-! ## DRAM (R276, R277) -/

/-- The DRAM view offset of `k` bytes at an internal address, or the fault code (R276). -/
def Bench.dramPlace (b : Bench) (n : BenchId) (a k : Nat) : Except Nat Nat :=
  if a % k ≠ 0 then .error fAlign
  else match ownOffset n a with
    | some o =>
      if dramBase ≤ o then (if b.dramUp && b.regionOf o k = .dram then .ok (o - dramBase) else .error fAddr)
      else if b.regionOf o k = .none then .error fAddr else .error fClass
    | none => .error (if ownPort n a then fClass else if foreign n a then fIsolation else fAddr)

/-- A request of a thread. -/
def DramReq.fresh (use : DramUse) (write : Bool) (addr len : Nat) (data : List Byte) (held sx : Bool) : DramReq :=
  { use := use, write := write, addr := addr, len := len, data := data, held := held, queued := false, sx := sx, since := 0
    issued := false, reread := false, done := false, bad := false }

/-- Stores in the write queue of core `c` (R276). -/
def Bench.writeQueue (b : Bench) (c : Nat) : Nat :=
  (b.dram.reqs.filter (fun r => r.write && !r.queued && !r.held && r.use.core = some c &&
    (match r.use with | .store _ => true | _ => false))).length

/-- Held stores enter their core's write queue while it has room; their threads go on. [DESIGN CHOICE, log 56, unsafe] -/
def Bench.releaseHeld : Nat → Bench → Bench
  | 0, b => b
  | fuel + 1, b =>
    match b.dram.reqs.find? (fun r => r.held && (match r.use with | .store i => b.writeQueue (i / 8) < 16 | _ => false)) with
    | some r =>
      let b := b.setReqs (b.dram.reqs.map (fun (x : DramReq) => if x = r then { x with held := false } else x))
      let b := match r.use with | .store i => b.unblock i [] | _ => b
      Bench.releaseHeld fuel b.fillQueue
    | none => b

/-- LDD: the thread blocks until its data returns. -/
def Bench.doLdd (n : BenchId) (i w : Nat) (_ : Ecc) (b : Bench) : Bench :=
  let a := b.eff i w
  match b.dramPlace n a (iSize w) with
  | .error code => b.addrFault n i code a
  | .ok x => ((b.block i .dram (iRD w) 0).addReq (DramReq.fresh (.load i) false x (iSize w) [] false (bit w 13)))
/-- LDD. -/
def execLdd (n : BenchId) (c t : Nat) (ecc : Ecc) (s : State) : Host.Outcome State Fault Refusal :=
  s.issue n c t ecc 0x14 true (onCore (Bench.doLdd n))

/-- STD: posted; a thread that finds its core's write queue of 16 full waits. -/
def Bench.doStd (n : BenchId) (i w : Nat) (_ : Ecc) (b : Bench) : Bench :=
  let a := b.eff i w
  match b.dramPlace n a (iSize w) with
  | .error code => b.addrFault n i code a
  | .ok x =>
    let full := 16 ≤ b.writeQueue (i / 8)
    let r := DramReq.fresh (.store i) true x (iSize w) (leBytes (iSize w) (b.rdv i w).toNat) full false
    if full then (b.block i .dram 0 0).addReq r else (b.fin0 i).addReq r
/-- STD. -/
def execStd (n : BenchId) (c t : Nat) (ecc : Ecc) (s : State) : Host.Outcome State Fault Refusal :=
  s.issue n c t ecc 0x15 true (onCore (Bench.doStd n))

/-- A ticketed copy of 64 bytes: `g` makes the request from the ticket, with the view offset and the slice offset. -/
def Bench.doTicket (n : BenchId) (kind : Nat) (i w : Nat) (ecc : Ecc) (b : Bench) : Bench :=
  let a := (b.ra i w).toNat
  let l := (b.rb i w).toNat
  if a % 64 ≠ 0 then b.faultThread i fAlign a
  else if l % 64 ≠ 0 then b.faultThread i fAlign l
  else if 0x3FFF < l then b.faultThread i fLocal l
  else match b.dramPlace n a 64 with
    | .error code => b.addrFault n i code a
    | .ok x =>
      match (b.thr i).freeTicket with
      | none => b.fin i w (BitVec.ofNat 64 (2 ^ 63))
      | some k =>
        let o := sliceAddr i + l
        let tk : Ticket := { kind := kind, addr := a, slot := l, done := none, ecc := false }
        if kind = 0 then
          ((b.updThr i (fun t => t.putTicket k tk)).fin i w (BitVec.ofNat 64 k)).addReq
            (DramReq.fresh (.ticketLoad i k) false x 64 [] false false)
        else
          let b := b.correctable (memCounter o) (ecc.cor o (o + 64))
          if ecc.unc o (o + 64) then (b.engineEcc (ecc.lastUnc o (o + 64))).faultThread i fEcc l
          else ((b.updThr i (fun t => t.putTicket k tk)).fin i w (BitVec.ofNat 64 k)).addReq
            (DramReq.fresh (.ticketStore i k) true x 64 (b.bytes o 64) false false)
/-- LDDL. -/
def execLddl (n : BenchId) (c t : Nat) (ecc : Ecc) (s : State) : Host.Outcome State Fault Refusal :=
  s.issue n c t ecc 0x16 true (onCore (Bench.doTicket n 0))
/-- STDL. -/
def execStdl (n : BenchId) (c t : Nat) (ecc : Ecc) (s : State) : Host.Outcome State Fault Refusal :=
  s.issue n c t ecc 0x17 true (onCore (Bench.doTicket n 1))

/-- DRAM_REQUEST_ISSUE: a request issues; committed posted stores leave (R438, R439). -/
def execDramRequestIssue (n : BenchId) (ecc : Ecc) (s : State) : Host.Outcome State Fault Refusal :=
  s.onBench n (fun b => ((b.issueDram ecc).releaseHeld 64).pump)

/-- DRAM_LOAD_RETURN: the data of the oldest LDD that has come back reaches its thread; an unreadable or poisoned line faults
(R276). -/
def execDramLoadReturn (n : BenchId) (s : State) : Host.Outcome State Fault Refusal :=
  s.onBench n (fun b =>
    match b.dram.reqs.find? (fun r => r.done && (match r.use with | .load _ => true | _ => false)) with
    | some r =>
      let b := b.setReqs (b.dram.reqs.filter (fun x => x ≠ r))
      match r.use with
      | .load i =>
        let t := b.thr i
        if r.bad then (b.faultThread i fEcc (benchBase n + dramBase + r.addr)).pump
        else
          let v := BitVec.ofNat 64 (leNat r.data)
          (b.unblock i [(t.destReg, if r.sx then extSigned v 0 (8 * r.len) else v)]).pump
      | _ => b
    | none => b)

/-- TICKET_COMPLETE: the oldest ticketed LDDL or STDL that the controller has carried out completes its ticket (R277). A haul
command's ticket completes as its completion leaves the collector. -/
def execTicketComplete (n : BenchId) (s : State) : Host.Outcome State Fault Refusal :=
  s.onBench n (fun b =>
    match b.dram.reqs.find? (fun r => r.done && (match r.use with | .ticketLoad _ _ | .ticketStore _ _ => true | _ => false)) with
    | some r =>
      let b := b.setReqs (b.dram.reqs.filter (fun x => x ≠ r))
      match r.use with
      | .ticketLoad i k =>
        if r.bad then (b.endTicket i k 0 0 true).pump
        else
          let l := (((b.thr i).ticket? k).map (·.slot)).getD 0
          ((b.setBytes (sliceAddr i + l) r.data).endTicket i k 0 64 false).pump
      | .ticketStore i k => (b.endTicket i k 0 64 false).pump
      | _ => b
    | none => b)

/-- WAITC (R277). -/
def Bench.doWaitc (i w : Nat) (_ : Ecc) (b : Bench) : Bench :=
  let v := (b.ra i w).toNat
  if 8 ≤ v || ((b.thr i).ticket? v).isNone then b.faultThread i fTicket 0
  else b.block i (.waitc v) (iRD w) 0
/-- WAITC. -/
def execWaitc (n : BenchId) (c t : Nat) (ecc : Ecc) (s : State) : Host.Outcome State Fault Refusal :=
  s.issue n c t ecc 0x3B true (onCore Bench.doWaitc)

/-! ## Atomics (R282) -/

/-- An atomic on an aligned scratch word: `f` makes the word stored from the old word. -/
def Bench.doAtomic (n : BenchId) (f : Bench → Nat → Nat → DWord → DWord) (i w : Nat) (ecc : Ecc) (b : Bench) : Bench :=
  let a := (b.ra i w).toNat
  if iX5 w ≠ 0 || iFN w ≠ 0 then b.faultThread i fIllegal 0
  else if a % 8 ≠ 0 then b.faultThread i fAlign a
  else match ownOffset n a with
    | some o =>
      if b.regionOf o 8 ≠ .scratch then b.faultThread i fClass a
      else
        let b := b.wordCor ecc o
        if ecc.wordBad o then (b.engineEcc o).faultThread i fEcc a
        else
          let old := BitVec.ofNat 64 (b.le o 8)
          ((b.setLe o 8 (f b i w old).toNat).cost i 1).fin i w old
    | none => (if ownPort n a then b else b.isolation n a).faultThread i fClass a
/-- AADD. -/
def execAadd (n : BenchId) (c t : Nat) (ecc : Ecc) (s : State) : Host.Outcome State Fault Refusal :=
  s.issue n c t ecc 0x18 true (onCore (Bench.doAtomic n (fun b i w old => old + b.rb i w)))
/-- ACAS. -/
def execAcas (n : BenchId) (c t : Nat) (ecc : Ecc) (s : State) : Host.Outcome State Fault Refusal :=
  s.issue n c t ecc 0x19 true (onCore (Bench.doAtomic n (fun b i w old => if old = b.rdv i w then b.rb i w else old)))

/-! ## Branches and jumps (R279) -/

/-- Move to a word index, or fault with PC_RANGE; `ws` are the registers written. -/
def Bench.goto (b : Bench) (i : Nat) (ws : List (Nat × DWord)) (pc : DWord) : Bench :=
  if pcMax < pc.toNat then b.faultThread i fPc 0 else b.complete i ws pc.toNat

/-- The PC as a 64-bit number. -/
def Bench.pcv (b : Bench) (i : Nat) : DWord := BitVec.ofNat 64 (b.thr i).pc

/-- A branch of format B: its registers stand in the places of RD and RA. -/
def Bench.doBranch (p : DWord → DWord → Bool) (i w : Nat) (_ : Ecc) (b : Bench) : Bench :=
  b.goto i [] (b.pcv i + if p (b.rdv i w) (b.ra i w) then iSimm w else 1)
/-- BEQ. -/
def execBeq (n : BenchId) (c t : Nat) (ecc : Ecc) (s : State) : Host.Outcome State Fault Refusal :=
  s.issue n c t ecc 0x20 false (onCore (Bench.doBranch (fun x y => x = y)))
/-- BNE. -/
def execBne (n : BenchId) (c t : Nat) (ecc : Ecc) (s : State) : Host.Outcome State Fault Refusal :=
  s.issue n c t ecc 0x21 false (onCore (Bench.doBranch (fun x y => x ≠ y)))
/-- BLT. -/
def execBlt (n : BenchId) (c t : Nat) (ecc : Ecc) (s : State) : Host.Outcome State Fault Refusal :=
  s.issue n c t ecc 0x22 false (onCore (Bench.doBranch (fun x y => x.slt y)))
/-- BGE. -/
def execBge (n : BenchId) (c t : Nat) (ecc : Ecc) (s : State) : Host.Outcome State Fault Refusal :=
  s.issue n c t ecc 0x23 false (onCore (Bench.doBranch (fun x y => !x.slt y)))
/-- BLTU. -/
def execBltu (n : BenchId) (c t : Nat) (ecc : Ecc) (s : State) : Host.Outcome State Fault Refusal :=
  s.issue n c t ecc 0x24 false (onCore (Bench.doBranch (fun x y => x.ult y)))
/-- BGEU. -/
def execBgeu (n : BenchId) (c t : Nat) (ecc : Ecc) (s : State) : Host.Outcome State Fault Refusal :=
  s.issue n c t ecc 0x25 false (onCore (Bench.doBranch (fun x y => !x.ult y)))

/-- JAL. -/
def Bench.doJal (i w : Nat) (_ : Ecc) (b : Bench) : Bench :=
  b.goto i [(iRD w, b.pcv i + 1)] (b.pcv i + (BitVec.ofNat 21 w).signExtend 64)
/-- JAL. -/
def execJal (n : BenchId) (c t : Nat) (ecc : Ecc) (s : State) : Host.Outcome State Fault Refusal :=
  s.issue n c t ecc 0x26 false (onCore Bench.doJal)
/-- JALR. -/
def Bench.doJalr (i w : Nat) (_ : Ecc) (b : Bench) : Bench := b.goto i [(iRD w, b.pcv i + 1)] (b.ra i w + iSimm w)
/-- JALR. -/
def execJalr (n : BenchId) (c t : Nat) (ecc : Ecc) (s : State) : Host.Outcome State Fault Refusal :=
  s.issue n c t ecc 0x27 false (onCore Bench.doJalr)

/-! ## Channels (R300 to R306) -/

/-- CHRD. -/
def Bench.doChrd (i w : Nat) (_ : Ecc) (b : Bench) : Bench :=
  let k := getBits w 8 8
  if getBits w 0 8 ≠ 0 then b.faultThread i fIllegal 0
  else if !b.mayRead i k then b.faultThread i fOperand 0
  else b.block i (.chrd k) (iRD w) (iRA w)
/-- CHRD. -/
def execChrd (n : BenchId) (c t : Nat) (ecc : Ecc) (s : State) : Host.Outcome State Fault Refusal :=
  s.issue n c t ecc 0x30 true (onCore Bench.doChrd)

/-- CHWR: without END the word is staged; with END the message commits when the channel has room. [DEDUCED, log 57, unsafe] -/
def Bench.doChwr (i w : Nat) (_ : Ecc) (b : Bench) : Bench :=
  let k := getBits w 8 8
  let t := b.thr i
  let m := t.staged ++ [b.rdv i w]
  if getBits w 1 7 ≠ 0 || iRA w ≠ 0 then b.faultThread i fIllegal 0
  else if !b.mayWrite k || (t.staged ≠ [] && t.stagedCh ≠ k) || 16 < m.length then b.faultThread i fOperand 0
  else if !bit w 0 then (b.setThr i { t with staged := m, stagedCh := k }).fin0 i
  else if k ≠ 2 && b.chDepth k < m.length then b.faultThread i fOperand 0
  else if k = 2 && !b.tmSendOk i m then b.faultThread i fOperand (tsHandle m)
  else
    let b := b.setThr i { t with staged := m, stagedCh := k }
    if b.roomFor k m.length then (b.commitMsg i k).fin0 i else b.block i (.chwr k) 0 0
/-- CHWR. -/
def execChwr (n : BenchId) (c t : Nat) (ecc : Ecc) (s : State) : Host.Outcome State Fault Refusal :=
  s.issue n c t ecc 0x31 true (onCore Bench.doChwr)

/-! ## Threads and wedges (R297 to R299, R307 to R309) -/

/-- FORK. -/
def Bench.doFork (i w : Nat) (_ : Ecc) (b : Bench) : Bench :=
  let pc := (b.pcv i + iSimm w).toNat
  let c := i / 8
  if pcMax < pc then b.faultThread i fPc 0
  else match (List.range 8).find? (fun u => (b.thr (8 * c + u)).st = 0) with
    | none => (b.tick (T.FORK_REFUSED c)).fin i w (BitVec.ofNat 64 (2 ^ 63))
    | some u =>
      let clr := fun x => Nat.land x (255 - 2 ^ u)
      let a := b.ra i w
      let b := b.updThr i (fun t => { t with halted := clr t.halted, termed := clr t.termed })
      let first := (b.thr i).next + (u + 8 - i % 8) % 8
      let child : Thread := { Thread.free with st := 1, pc := pc, parent := some i, next := first }
      ((b.stallZero.setThr (8 * c + u) (child.setG 1 a)).tick (T.FORKS c)).fin i w (BitVec.ofNat 64 u)
/-- FORK. -/
def execFork (n : BenchId) (c t : Nat) (ecc : Ecc) (s : State) : Host.Outcome State Fault Refusal :=
  s.issue n c t ecc 0x32 true (onCore Bench.doFork)

/-- JOIN. -/
def Bench.doJoin (i w : Nat) (_ : Ecc) (b : Bench) : Bench :=
  let m := (b.ra i w).toNat
  if 256 ≤ m then b.faultThread i fOperand 0 else b.block i (.join m) (iRD w) 0
/-- JOIN. -/
def execJoin (n : BenchId) (c t : Nat) (ecc : Ecc) (s : State) : Host.Outcome State Fault Refusal :=
  s.issue n c t ecc 0x33 true (onCore Bench.doJoin)

/-- WACQ. -/
def Bench.doWacq (i w : Nat) (_ : Ecc) (b : Bench) : Bench :=
  let k := (b.ra i w + iSimm w).toNat
  if 255 < k then b.faultThread i fOperand 0
  else match b.wedge k with
    | none => (b.setWedge k (some { holder := i, waiters := [] })).fin i w 0
    | some x =>
      if x.holder = i then b.fin i w (BitVec.ofNat 64 (2 ^ 63))
      else (b.setWedge k (some { x with waiters := x.waiters ++ [(i, b.engCycle)] })).block i (.wacq k) (iRD w) 0
/-- WACQ. -/
def execWacq (n : BenchId) (c t : Nat) (ecc : Ecc) (s : State) : Host.Outcome State Fault Refusal :=
  s.issue n c t ecc 0x34 true (onCore Bench.doWacq)

/-- WREL. -/
def Bench.doWrel (i w : Nat) (_ : Ecc) (b : Bench) : Bench :=
  let k := (b.ra i w + iSimm w).toNat
  if 255 < k then b.faultThread i fOperand 0
  else if (b.wedge k).map (·.holder) = some i then (b.release k).fin i w 0
  else (b.tick T.WEDGE_BAD_RELEASE).fin i w (BitVec.ofNat 64 (2 ^ 63))
/-- WREL. -/
def execWrel (n : BenchId) (c t : Nat) (ecc : Ecc) (s : State) : Host.Outcome State Fault Refusal :=
  s.issue n c t ecc 0x35 true (onCore Bench.doWrel)

/-! ## Table, hopper and haul (R283 to R285) -/

/-- Thread `i`, which waits on its TOP, enters its operation in the table queue while the queue has room. [DESIGN CHOICE, log 56, unsafe] -/
def Bench.topTry (b : Bench) (i : Nat) : Bench :=
  let w := b.le (b.pcAddr i) 4
  let blk := (b.ra i w).toNat
  let o := sliceAddr i + blk
  if b.mt.opq.any (fun x => x.src = .thread i) then b
  else (b.queueOp { src := .thread i, op := iFN w % 8, slot := b.le (o + 76) 2, dst := b.le (o + 78) 2, image := b.bytes o 64
                    expect := b.bytes (o + 64) 12, blk := blk, res := none }).getD b
/-- Threads whose TOP waits for a place, in the order in which they blocked. -/
def Bench.feedTops (b : Bench) : Bench := b.eng.blocked.foldl (fun b i => if (b.thr i).wait = .top then b.topTry i else b) b

/-- TOP. -/
def Bench.doTop (i w : Nat) (ecc : Ecc) (b : Bench) : Bench :=
  let a := (b.ra i w).toNat
  let o := sliceAddr i + a
  if iFN w % 8 = 7 || a % 16 ≠ 0 then b.faultThread i fOperand (if iFN w % 8 = 7 then 0 else a)
  else if 0x4000 < a + 80 then b.faultThread i fLocal a
  else
    let b := b.correctable (memCounter o) (ecc.cor o (o + 80))
    if ecc.unc o (o + 80) then (b.engineEcc (ecc.lastUnc o (o + 80))).faultThread i fEcc a else (b.block i .top (iRD w) 0).topTry i
/-- TOP. -/
def execTop (n : BenchId) (c t : Nat) (ecc : Ecc) (s : State) : Host.Outcome State Fault Refusal :=
  s.issue n c t ecc 0x38 true (onCore Bench.doTop)

/-- Does a result carry a slot's contents (R156, R283)? -/
def OpResult.carries (r : OpResult) (op : Nat) : Bool := r.code = 1 || r.code = 5 || (r.code = 0 && (op = 0 || op = 1))

/-- A table operation that is over gives its result to whoever issued it (R156, R283), and leaves the queue. [DESIGN CHOICE, log 103, safe] -/
def Bench.opDone (b : Bench) : Bench :=
  match b.mt.opq with
  | [] => b
  | o :: t =>
    match o.res with
    | none => b
    | some r =>
      let b := { b with mt := { b.mt with opq := t } }
      let b := match o.src with
        | .reg => b.postOp r
        | .thread i =>
          let x := b.opSlot r
          let b := x.2
          let b := if r.carries o.op then b.setBytes (sliceAddr i + o.blk) r.bytes else b
          b.unblock i [((b.thr i).destReg, BitVec.ofNat 64 (r.code + 2 ^ 16 * x.1))]
        | .nobody _ => b
      b.feedTops
/-- TABLE_OP_DONE. -/
def execTableOpDone (n : BenchId) (s : State) : Host.Outcome State Fault Refusal := s.onBench n (fun b => b.opDone.pump)

/-- HOP (R284). -/
def Bench.doHop (i w : Nat) (ecc : Ecc) (b : Bench) : Bench :=
  let op := iFN w % 8
  let tag := 0x10 + i / 8
  let a := (b.ra i w).toNat
  let x := (b.rb i w).toNat
  let ret := fun (b : Bench) (code hnd : Nat) => (b.cost i 2).fin i w (BitVec.ofNat 64 ((if code = 0 then hnd else 0) + 2 ^ 32 * code))
  if 6 ≤ op then b.faultThread i fOperand 0
  else if op = 0 then
    let r := b.allocLength .engine tag a (bit w 3) ecc
    ret r.2.2 r.1 (r.2.1.getD 0)
  else if op = 1 then
    let r := b.allocPool .engine tag (iX5 w % 8) ecc
    ret r.2.2 r.1 (r.2.1.getD 0)
  else
    let hnd := a % 2 ^ 32
    let r := b.hopOp op tag hnd (x % 256) (x / 256 % 256) ecc
    ret r.2 r.1 hnd
/-- HOP. -/
def execHop (n : BenchId) (c t : Nat) (ecc : Ecc) (s : State) : Host.Outcome State Fault Refusal :=
  s.issue n c t ecc 0x39 true (onCore Bench.doHop)

/-- HSUB (R285). -/
def Bench.doHsub (i w : Nat) (ecc : Ecc) (b : Bench) : Bench :=
  let a := (b.ra i w).toNat
  let o := sliceAddr i + a
  if a % 64 ≠ 0 then b.faultThread i fOperand a
  else if 0x3FFF < a then b.faultThread i fLocal a
  else
    let b := b.correctable (memCounter o) (ecc.cor o (o + 40))
    if ecc.unc o (o + 40) then (b.engineEcc (ecc.lastUnc o (o + 40))).faultThread i fEcc a else ((b.cost i 1).block i .hsub (iRD w) 0).hsubTry i
/-- HSUB. -/
def execHsub (n : BenchId) (c t : Nat) (ecc : Ecc) (s : State) : Host.Outcome State Fault Refusal :=
  s.issue n c t ecc 0x3A true (onCore Bench.doHsub)

/-! ## Special values, notices, traps and the end (R272, R279, R311) -/

/-- MFS. -/
def Bench.doMfs (n : BenchId) (i w : Nat) (_ : Ecc) (b : Bench) : Bench :=
  match getBits w 0 11 with
  | 0 => b.fin i w (BitVec.ofNat 64 (i % 8))
  | 1 => b.fin i w (BitVec.ofNat 64 (i / 8))
  | 2 => b.fin i w (BitVec.ofNat 64 n.val)
  | 3 => b.fin i w (BitVec.ofNat 64 ((b.thr i).next - 8))
  | 4 => b.fin i w (BitVec.ofNat 64 b.power.profile)
  | _ => b.faultThread i fOperand 0
/-- MFS. -/
def execMfs (n : BenchId) (c t : Nat) (ecc : Ecc) (s : State) : Host.Outcome State Fault Refusal :=
  s.issue n c t ecc 0x3C true (onCore (Bench.doMfs n))

/-- NOTICE. [DEDUCED, log 59, unsafe] -/
def Bench.doNotice (i w : Nat) (_ : Ecc) (b : Bench) : Bench :=
  b.block i (.notice (noticeWord (getBits w 0 8) false i (b.thr i).pc) (b.ra i w)) 0 0
/-- NOTICE. -/
def execNotice (n : BenchId) (c t : Nat) (ecc : Ecc) (s : State) : Host.Outcome State Fault Refusal :=
  s.issue n c t ecc 0x3D true (onCore Bench.doNotice)

/-- TRAP. -/
def execTrap (n : BenchId) (c t : Nat) (ecc : Ecc) (s : State) : Host.Outcome State Fault Refusal :=
  s.issue n c t ecc 0x3E false (onCore (fun i w _ b => b.faultThread i fTrap (getBits w 0 8)))

/-- HALT. -/
def execHalt (n : BenchId) (c t : Nat) (ecc : Ecc) (s : State) : Host.Outcome State Fault Refusal :=
  s.issue n c t ecc 0x3F false (onCore (fun i _ _ b => b.endThread i true))

/-- The opcodes of R279. -/
def listedOps : List Nat :=
  [0x00, 0x01, 0x02, 0x03, 0x04, 0x05, 0x06, 0x07, 0x08, 0x09, 0x0A, 0x0B, 0x10, 0x11, 0x12, 0x13, 0x14, 0x15, 0x16, 0x17, 0x18,
    0x19, 0x20, 0x21, 0x22, 0x23, 0x24, 0x25, 0x26, 0x27, 0x30, 0x31, 0x32, 0x33, 0x34, 0x35, 0x38, 0x39, 0x3A, 0x3B, 0x3C, 0x3D,
    0x3E, 0x3F]
/-- ILLEGAL_INSTRUCTION: an OP that R279 does not list. -/
def execIllegalInstruction (n : BenchId) (c t : Nat) (ecc : Ecc) (s : State) : Host.Outcome State Fault Refusal :=
  s.onLive n (issueOn (8 * (c % 8) + t % 8) ecc (fun o => !listedOps.contains o) false
    (onCore (fun i _ _ b => b.faultThread i fIllegal 0)))

end Sys2Proof.Machine
end

