-- ==== Sys2Proof/Machine/Security.lean ====
section
/-! DEFINITION. Fuses, lifecycle, sealing engine and debug sessions (R493 to R513, R521, R522). -/
namespace Sys2Proof.Machine

/-! ## Fuses (R493 to R495, R500) -/

/-- The lifecycle state that the LC bits spell: 0 BLANK, 1 SECURED, 2 RETURNED, 3 SCRAPPED (R494). -/
def Fuses.state (f : Fuses) : Nat := if f.scrap then 3 else if f.ret then 2 else if f.secure then 1 else 0

/-- What FUSE_READ returns of a field, in the order of R493: secret fields and LC read 0. [DESIGN CHOICE, log 94, unsafe] -/
def Fuses.readField (f : Fuses) (k : Nat) : Nat :=
  match k with
  | 0 => f.vendorId
  | 1 => f.serial
  | 3 => f.kysinBoot
  | 4 => f.kysinDebug
  | 5 => f.ownerBoot
  | 6 => f.ownerDebug
  | 8 => 2 ^ f.svn - 1
  | _ => 0

/-- An owner field's value; none for another field. -/
def Fuses.owner (f : Fuses) (k : Nat) : Option Nat :=
  match k with
  | 5 => some f.ownerBoot
  | 6 => some f.ownerDebug
  | 7 => some f.ownerKek
  | _ => none
/-- Put an owner field. -/
def Fuses.setOwner (f : Fuses) (k v : Nat) : Fuses :=
  match k with
  | 5 => { f with ownerBoot := v }
  | 6 => { f with ownerDebug := v }
  | _ => { f with ownerKek := v }

/-- The number in `n` hub registers from an offset on, low word first. [DESIGN CHOICE, log 94, unsafe] -/
def Hub.wordsAt (h : Hub) (o n : Nat) : Nat := leNat ((List.range n).flatMap (fun w => leBytes 4 (h.reg (o + 4 * w)).toNat))
/-- Put the registers of a run of words to 0. -/
def Hub.zeroWords (h : Hub) (o n : Nat) : Hub := (List.range n).foldl (fun h w => h.setReg (o + 4 * w) 0#32) h


/-- FUSE_PROG_STATUS takes a result: 0 programmed, 1 refused, 2 verify failed. -/
def Hub.fuseStatus (h : Hub) (r : Nat) : Hub := h.postStatus R.dbg_FUSE_PROG_STATUS (2 * r) 16 0 T.HUB_COMMIT_STATUS_LOST

/-- A write of FUSE_PROG_CMD (R495): `port` for the debug port, `flips` the bits in which the read-back differs. [DESIGN CHOICE, log 94, unsafe] -/
def Hub.fuseProg (h : Hub) (port : Bool) (k flips : Nat) : Hub :=
  let v := h.wordsAt (R.dbg_FUSE_PROG_DATA 0) 8
  let got := Nat.xor v flips % 2 ^ 256
  match h.fw.fuses.owner k with
  | none => (h.tick T.FUSE_PROG_REFUSED).fuseStatus 1
  | some old =>
    if !port || h.fw.lc ≠ 0 || !h.flag R.dbg_DBG_SESSION_FULL || old ≠ 0 then (h.tick T.FUSE_PROG_REFUSED).fuseStatus 1
    else
      let h := h.updFw (fun w => { w with
        fuses := w.fuses.setOwner k got, fuseBad := if got = v then w.fuseBad else Nat.lor w.fuseBad (2 ^ (k - 5)) })
      h.fuseStatus (if got = v then 0 else 2)
/-- FUSE_PROG_CMD. -/
def execFuseProgCmd (port : Bool) (k flips : Nat) (s : State) : Host.Outcome State Fault Refusal :=
  s.onHub (fun h => if !h.up then h else h.fuseProg port (k % 16) flips)

/-- A write of BOOT_CTL by the Foreman (R499, R500). [DESIGN CHOICE, log 96, unsafe] -/
def Hub.bootCtl (h : Hub) (v : Nat) : Hub :=
  let h := if bit v 0 then h.updFw (fun w => { w with locked := true }) else h
  if bit v 1 then
    match h.fw.image with
    | some i => h.updFw (fun w => { w with fuses := { w.fuses with svn := min 64 (max w.fuses.svn i.svn) } })
    | none => h
  else h
/-- SVN_ADVANCE. -/
def execSvnAdvance (s : State) : Host.Outcome State Fault Refusal :=
  s.onHub (fun h => if !h.up then h else h.bootCtl 2)

/-! ## Keys (R202, R204, R418, R505) -/

/-- Every key slot of a bench is zeroised, with what R204 and R418 say of the packets and operations that use them. -/
def Bench.clearAllKeys (b : Bench) : Bench := b.xtsCleared.keysCleared

/-- The key port of a bench: it accepts a key for slot `i` of a kind (0 security association, 1 XTS) or refuses it. -/
def keyPort (n : BenchId) (kind i : Nat) (key : List Byte) (h : Hub) (b : Bench) : Bool × Bench :=
  let up := b.power.st = .running && !h.debugOn n
  if kind = 0 then
    if up && b.saState i = 0 && !b.saFlag i 2 then (true, { b with keys := memWrite b.keys (48 * i) key }.setSaFlag i 0 true)
    else (false, b.tick T.KEY_REFUSED)
  else if up && i < 64 && !b.flag (R.storage_XTS_NS_EN i) && !b.flag (R.storage_XTS_NS_DRAINING i) then
    (true, { b with keys := memWrite b.keys (0x100000 + 64 * i) key }.setFld (R.storage_XTS_NS_LOADED i) 1)
  else (false, b.tick T.KEY_REFUSED)

/-- The secrets of the hub go (R496, R513): SEAL_KEY, DEVICE_SEAL, the SECRETS region. [DESIGN CHOICE, log 96, unsafe] -/
def Hub.dropSecrets (h : Hub) : Hub :=
  ((h.zeroWords (R.seal_SEAL_KEY 0) 8).setFld R.seal_SEAL_LOCK_DEVSEAL_LOCK 1).updFw (fun w => { w with secrets := false })

/-- Every key slot of every bench, and the hub's secrets, go at once (R496). -/
def Device.dropKeys (d : Device) : Device :=
  let d := d.runAll (fun _ h b => (h, if b.live then b.clearAllKeys else b))
  { d with hub := d.hub.dropSecrets }

/-! ## The sealing engine (R502 to R505) -/

/-- The blob in UNWRAP_BLOB: 80 bytes. [DESIGN CHOICE, log 94, unsafe] -/
def Hub.blob (h : Hub) : List Byte := leBytes 80 (h.wordsAt (R.seal_UNWRAP_BLOB 0) 20)

/-- What an unwrap of a blob for a kind comes to, up to the delivery: its RESULT and the plaintext (R505). [PRESUMED, log 40, safe] -/
def Hub.unwrap (h : Hub) (kind : Nat) (blob : List Byte) : Nat × List Byte :=
  let n := if kind = 0 then 6 else 8
  if h.fw.lc ≠ 1 || h.fw.pendingLc then (2, [])
  else if slice blob 0 4 ≠ [BitVec.ofNat 8 (kind + 1), 0#8, 0#8, 0#8] || slice blob 4 4 ≠ List.replicate 4 0xA6#8 then (4, [])
  else
    let r := Config.keyUnwrap (BitVec.ofNat 256 h.fw.fuses.ownerKek) (slice blob 8 (8 * (n + 1)))
    let pt := slice r.2 0 (8 * n)
    if leBytes 8 r.1.toNat ≠ slice blob 0 8 || (kind = 0 && slice pt 44 4 ≠ List.replicate 4 0#8) then (1, []) else (0, pt)

/-- The block in SEAL_IN under the key that SRC names. [PRESUMED, log 40, safe] -/
def Hub.sealBlock (h : Hub) (enc src : Bool) : List Word :=
  let key := if src then Config.deviceSeal h.fw.fuses.deviceSecret h.fw.lc else BitVec.ofNat 256 (h.wordsAt (R.seal_SEAL_KEY 0) 8)
  let out := (Config.aes256 enc key (BitVec.ofNat 128 (h.wordsAt (R.seal_SEAL_IN 0) 4))).toNat
  (List.range 4).map (fun w => BitVec.ofNat 32 (out / 2 ^ (32 * w)))

/-- An operation begins: SEAL_OUT is cleared and BUSY set. -/
def Hub.sealStart (h : Hub) (o : SealOp) : Hub :=
  (h.updFw (fun w => { w with sealing := some o, sealRes := [], sealOut := [] })).setFld R.seal_SEAL_STATUS_BUSY 1

/-- A GO that the engine does not take. -/
def Hub.sealRefused (h : Hub) : Hub := h.tick T.SEAL_REFUSED

/-- GO with OP ENCRYPT or DECRYPT (R503, R507). -/
def Hub.sealCrypt (h : Hub) (enc src : Bool) : Hub :=
  if h.fw.sealing.isSome then h.sealRefused
  else
    let op := if enc then 0 else 1
    if src && h.flag R.seal_SEAL_LOCK_DEVSEAL_LOCK then h.sealStart { op := op, result := 5, out := [], key := [] }
    else h.sealStart { op := op, result := 0, out := h.sealBlock enc src, key := [] }

/-- GO with OP UNWRAP (R505). -/
def Hub.sealUnwrap (h : Hub) : Hub :=
  if h.fw.sealing.isSome then h.sealRefused
  else
    let r := h.unwrap (h.fld R.seal_SEAL_TARGET_KIND) h.blob
    h.sealStart { op := 2, result := r.1, out := [], key := r.2 }

/-- A write of SEAL_CTL (R503, R522). [DESIGN CHOICE, log 96, unsafe] -/
def Hub.sealCtl (h : Hub) (v : Nat) : Hub :=
  let op := getBits v 0 2
  if op = 3 then h.sealRefused
  else
    let h := (h.setFld R.seal_SEAL_CTL_OP op).setFld R.seal_SEAL_CTL_SRC (getBits v 2 1)
    if !bit v 3 then h else if op = 2 then h.sealUnwrap else h.sealCrypt (op = 0) (bit v 2)

/-- The sealing block answers while the hub is up. -/
def State.onSeal (s : State) (v : Nat) : Host.Outcome State Fault Refusal := s.onHub (fun h => if !h.up then h else h.sealCtl v)
/-- SEAL_ENCRYPT. -/
def execSealEncrypt (src : Bool) (s : State) : Host.Outcome State Fault Refusal := s.onSeal (8 + (if src then 4 else 0))
/-- SEAL_DECRYPT. -/
def execSealDecrypt (src : Bool) (s : State) : Host.Outcome State Fault Refusal := s.onSeal (9 + (if src then 4 else 0))
/-- SEAL_UNWRAP. -/
def execSealUnwrap (s : State) : Host.Outcome State Fault Refusal := s.onSeal 10

/-- The delivery of an unwrapped key to its bench (R505 step 4): RESULT 0, or 3 REFUSED. -/
def Device.deliverKey (d : Device) (n : BenchId) (kind i : Nat) (key : List Byte) : Nat × Device :=
  (if (keyPort n kind i key d.hub (d.bench n)).1 then 0 else 3,
    d.run n (fun h b => (h, (keyPort n kind i key h b).2)))

/-- An operation ends with a result (R503): its tallies, SEAL_STATUS, SEAL_IN cleared, event 667. -/
def Hub.sealEnd (h : Hub) (o : SealOp) (r : Nat) : Hub :=
  let h := (h.zeroWords (R.seal_SEAL_IN 0) 4).updFw (fun w => { w with sealing := none, sealRes := if r = 0 then o.out else [] })
  let h := if o.op = 2 && r = 0 then h.tick T.UNWRAP_OK else if o.op = 2 && r = 1 then h.tick T.UNWRAP_AUTH_FAIL else h
  (h.postStatus R.seal_SEAL_STATUS (2 * r) 16 16 T.HUB_COMMIT_STATUS_LOST).raise 667

/-- The fixed time of the operation in progress is over. An unwrap in progress when PENDING became 1 delivers nothing: NO_KEK (R496). [DESIGN CHOICE, log 96, unsafe] -/
def Device.sealResult (d : Device) : Device :=
  match d.hub.fw.sealing with
  | none => d
  | some o =>
    let t := d.hub
    let x := if o.op = 2 && t.fw.pendingLc then (2, d)
      else if o.op = 2 && o.result = 0 then
        d.deliverKey (benchOf (t.fld R.seal_SEAL_TARGET_BENCH)) (t.fld R.seal_SEAL_TARGET_KIND) (t.fld R.seal_SEAL_TARGET_INDEX) o.key
      else (o.result, d)
    { x.2 with hub := x.2.hub.sealEnd o x.1 }
/-- SEAL_RESULT. -/
def execSealResult (s : State) : Host.Outcome State Fault Refusal := .next { s with dev := s.dev.sealResult }

/-- A read of SEAL_STATUS releases SEAL_OUT for one read of each word. -/
def Hub.sealStatusRead (h : Hub) : Nat × Hub :=
  let v := (h.reg R.seal_SEAL_STATUS).toNat
  if v % 2 = 1 then
    (v, (h.setReg R.seal_SEAL_STATUS (BitVec.ofNat 32 (16 * getBits v 4 1))).updFw (fun w => { w with
      sealOut := w.sealRes.map some, sealRes := [] }))
  else (16 * getBits v 4 1, h)
/-- Ryuner puts a blob through the sealing engine, for a slot of a bench (R505): GO at an idle engine, its fixed time, and the read of
SEAL_STATUS that takes its RESULT. -/
def Device.sealFor (n : BenchId) (kind i : Nat) (blob : List Byte) (d : Device) : Nat × Device :=
  let h := (List.range (blob.length / 4)).foldl (fun h w =>
    h.setReg (R.seal_UNWRAP_BLOB w) (BitVec.ofNat 32 (leNat (slice blob (4 * w) 4)))) d.hub
  let h := ((h.setFld R.seal_SEAL_TARGET_KIND kind).setFld R.seal_SEAL_TARGET_BENCH n.val).setFld R.seal_SEAL_TARGET_INDEX i
  let d := { d with hub := h.sealCtl 10 }.sealResult
  let r := d.hub.sealStatusRead
  (getBits r.1 1 3, { d with hub := r.2 })
/-- A read of a SEAL_OUT word. -/
def Hub.sealOutRead (h : Hub) (w : Nat) : Nat × Hub :=
  match h.fw.sealOut.getD w none with
  | some v => (v.toNat, h.updFw (fun f => { f with sealOut := f.sealOut.set w none }))
  | none => (0, h.tick T.SEAL_EARLY_READ)

/-! ## Debug sessions (R509 to R513) -/

/-- The token staged in DBG_TOKEN: 160 bytes. -/
def Hub.token (h : Hub) : List Byte := leBytes 160 (h.wordsAt (R.dbg_DBG_TOKEN 0) 40)
def tokType (t : List Byte) : Nat := leNat (slice t 2 1)
def tokBench (t : List Byte) : Nat := leNat (slice t 3 1)

/-- Check 1 of R511: FORMAT, one of the TYPEs of the command, BENCH, reserved bytes. [DEDUCED, log 95, unsafe] -/
def tokShape (t : List Byte) (types : List Nat) : Bool :=
  leNat (slice t 0 2) = 1 && types.contains (tokType t) && slice t 16 16 = List.replicate 16 0#8 &&
    (if tokType t = 1 then decide (tokBench t < 16) else tokBench t = 0xFF)

/-- The hash against which tokens are verified (R497). -/
def Hub.debugHash (h : Hub) : Nat := if h.fw.lc = 1 then h.fw.fuses.ownerDebug else h.fw.fuses.kysinDebug
/-- Check 3 of R511: SERIAL, DEBUG_SEQ, key hash, signature. -/
def Hub.tokAuth (h : Hub) (t : List Byte) : Bool :=
  leNat (slice t 8 8) = h.fw.fuses.serial && leNat (slice t 4 4) = (h.reg R.dbg_DEBUG_SEQ).toNat &&
    (Config.sha256 (slice t 32 64)).toNat = h.debugHash && Config.ecdsaOk (slice t 32 64) (slice t 96 64) (Config.sha256 (slice t 0 96))
/-- A command that reaches check 3 advances DEBUG_SEQ by one. -/
def Hub.nextSeq (h : Hub) : Hub := h.setReg R.dbg_DEBUG_SEQ (h.reg R.dbg_DEBUG_SEQ + 1#32)
/-- A token that fails check 3. -/
def Hub.authFail (h : Hub) : Hub := (h.tick T.DEBUG_AUTH_FAIL).raise 666

/-- A session has opened (R512). -/
def Hub.opened (h : Hub) (full : Bool) : Hub :=
  ((h.tick T.DEBUG_OPENS).updFw (fun w => { w with opened := true, openedFull := w.openedFull || full })).raise 665

/-- An ENGINE session opens on a bench: R204, and the bench joins M. -/
def Device.openEngine (d : Device) (n : BenchId) : Device :=
  let d := d.run n (fun h b => (h, b.clearAllKeys))
  let m := d.hub.fld R.dbg_DBG_SESSION_ENGINE_MASK
  { d with hub := (d.hub.setFld R.dbg_DBG_SESSION_ENGINE_MASK (Nat.lor m (2 ^ n.val))).opened false }

/-- FULL opens (R513). [DESIGN CHOICE, log 96, unsafe] -/
def Device.openFull (d : Device) : Device :=
  let d := d.runAll (fun _ h b => (h, if b.power.st = .running then b.clearAllKeys else b))
  let h := d.hub.dropSecrets
  { d with hub := ((h.setFld R.dbg_DBG_SESSION_ENGINE_MASK 0).setFld R.dbg_DBG_SESSION_FULL 1).opened true }

/-- OPEN with a token (R511): RESULT 0 OK, 1 AUTH_FAIL, 2 WRONG_STATE, 4 BAD_TOKEN. -/
def Device.dbgOpen (d : Device) (t : List Byte) : Nat × Device :=
  let h := d.hub
  let full := h.flag R.dbg_DBG_SESSION_FULL
  let n := benchOf (tokBench t)
  if !tokShape t [1, 2] then (4, d)
  else if full || (if tokType t = 1 then decide ((d.bench n).power.st ≠ .running) else decide (h.fw.lc = 1)) then (2, d)
  else
    let d := { d with hub := h.nextSeq }
    if !h.tokAuth t then (1, { d with hub := d.hub.authFail })
    else if tokType t = 2 then (0, d.openFull)
    else if bit (h.fld R.dbg_DBG_SESSION_ENGINE_MASK) n.val then (0, d) else (0, d.openEngine n)

/-- The threads of a bench that a session stopped resume (R318). -/
def Bench.resumeAll (b : Bench) : Bench :=
  if b.live then ((List.range 64).foldl (fun b i => if (b.thr i).dbg then b.dbgResume i else b) b).pump else b

/-- CLOSE of an ENGINE session, or with 0xF of FULL (R512): RESULT 0, or 3 NOT_FOUND. [DEDUCED, log 95, unsafe] -/
def Device.dbgClose (d : Device) (k : Nat) : Nat × Device :=
  let h := d.hub
  let m := h.fld R.dbg_DBG_SESSION_ENGINE_MASK
  if k = 15 then
    if h.flag R.dbg_DBG_SESSION_FULL then
      (0, { d with hub := (h.setFld R.dbg_DBG_SESSION_FULL 0).raise 665 }.runAll (fun _ h b => (h, b.resumeAll)))
    else (3, d)
  else if bit m k then
    (0, { d with hub := (h.setFld R.dbg_DBG_SESSION_ENGINE_MASK (m - 2 ^ k)).raise 665 }.run (benchOf k) (fun h b => (h, b.resumeAll)))
  else (3, d)

/-- An LC bit is blown (R494, R496): PENDING, event 664. -/
def Hub.blow (h : Hub) (f : Fuses → Fuses) : Hub :=
  (h.updFw (fun w => { w with fuses := f w.fuses, pendingLc := true })).raise 664

/-- LC_SECURE (R496). -/
def Device.lcSecure (d : Device) : Nat × Device :=
  let w := d.hub.fw
  if w.lc = 0 && w.fuses.ownerBoot ≠ 0 && w.fuses.ownerDebug ≠ 0 && w.fuses.ownerKek ≠ 0 && w.fuseBad = 0 then
    (0, { d with hub := d.hub.blow (fun f => { f with secure := true }) })
  else (2, d)

/-- An LC command with a token of a TYPE (R496, R511). -/
def Device.lcToken (d : Device) (type : Nat) (f : Fuses → Fuses) : Nat × Device :=
  let h := d.hub
  let t := h.token
  if !tokShape t [type] then (4, d)
  else if h.fw.lc ≠ 1 then (2, d)
  else
    let d := { d with hub := h.nextSeq }
    if !h.tokAuth t then (1, { d with hub := d.hub.authFail }) else (0, { d with hub := d.hub.blow f }.dropKeys)

/-- LC_RETURN. -/
def Device.lcReturn (d : Device) : Nat × Device := d.lcToken 3 (fun f => { f with ret := true })
/-- LC_SCRAP: a token is asked for in SECURED only. [DEDUCED, log 95, unsafe] -/
def Device.lcScrap (d : Device) : Nat × Device :=
  match d.hub.fw.lc with
  | 1 => d.lcToken 4 (fun f => { f with scrap := true })
  | 3 => (2, d)
  | _ => (0, { d with hub := d.hub.blow (fun f => { f with scrap := true }) }.dropKeys)

/-- DBG_CMD_STATUS takes a result. -/
def Device.dbgStatus (r : Nat × Device) : Device :=
  { r.2 with hub := r.2.hub.postStatus R.dbg_DBG_CMD_STATUS (2 * r.1) 16 16 T.HUB_COMMIT_STATUS_LOST }

/-- Does the debug access block take commands: out of reset, and not SCRAPPED (R497)? -/
def Hub.dbgAnswers (h : Hub) : Bool := h.up && h.fw.lc ≠ 3

/-- A write of DBG_CMD: `port` for the debug port, else the Foreman, which has no lifecycle commands (R496, R511, R522). [DEDUCED, log 95, unsafe] -/
def Device.dbgCmd (d : Device) (port : Bool) (v : Nat) : Device :=
  let lc := fun (r : Nat × Device) => Device.dbgStatus (if port then r else (2, d))
  match v % 8 with
  | 1 => Device.dbgStatus (d.dbgOpen d.hub.token)
  | 2 => Device.dbgStatus (d.dbgClose (getBits v 4 4))
  | 3 => lc d.lcReturn
  | 4 => lc d.lcScrap
  | 5 => lc d.lcSecure
  | _ => { d with hub := d.hub.tick T.DBG_PORT_REFUSED }

/-- A DBG_CMD write while the block answers. -/
def State.onDbg (s : State) (port : Bool) (v : Nat) : Host.Outcome State Fault Refusal :=
  .next { s with dev := if s.dev.hub.dbgAnswers then s.dev.dbgCmd port v else s.dev }
/-- LC_SECURE. -/
def execLcSecure (port : Bool) (s : State) : Host.Outcome State Fault Refusal := s.onDbg port 5
/-- LC_RETURN. -/
def execLcReturn (port : Bool) (s : State) : Host.Outcome State Fault Refusal := s.onDbg port 3
/-- LC_SCRAP. -/
def execLcScrap (port : Bool) (s : State) : Host.Outcome State Fault Refusal := s.onDbg port 4
/-- DBG_CMD_OPEN. -/
def execDbgCmdOpen (port : Bool) (s : State) : Host.Outcome State Fault Refusal := s.onDbg port 1
/-- DBG_CMD_CLOSE. -/
def execDbgCmdClose (port : Bool) (k : Nat) (s : State) : Host.Outcome State Fault Refusal := s.onDbg port (2 + 16 * (k % 16))

end Sys2Proof.Machine
end

