-- ==== Sys2Proof/Machine/MbxAccess.lean ====
section
/-! DEFINITION. Accesses to the mailbox block (R472 to R481): the host's side and the Foreman's side of a mailbox, admin
doorbells, the engine ports' Foreman side, and the pending summary. -/
namespace Sys2Proof.Machine

/-- The bits of `x` that `m` does not mask. -/
def unmasked (x m : Nat) : Nat := Nat.land x (2 ^ 32 - 1 - m)

/-- LIVENESS of mailbox `m` (R16). -/
def mbxLiveness (m : Nat) : Nat := livenessWord m 0 true
/-- MBX_STATUS (R476). -/
def Mailbox.status (b : Mailbox) : Nat :=
  b.inq.length + 2 ^ 8 * b.outq.length + (if b.collided then 2 ^ 16 else 0) + (if b.busy then 2 ^ 17 else 0)
/-- ADMIN_STATUS (R476). -/
def Mailbox.adminStatus (b : Mailbox) : Nat := (if b.admin.isSome then 1 else 0) + (if b.adminErr then 2 else 0)

/-! ## Doorbells (R479) -/

/-- A host sets bits of DB_TO_FM. -/
def Hub.dbToFm (h : Hub) (m v : Nat) : Hub := h.updMbx m (fun b => { b with dbFm := Nat.lor b.dbFm (v % 2 ^ 32) })
/-- DB_TO_HOST_MASK takes a value: a set bit that is unmasked raises the host. -/
def Hub.setHostMask (h : Hub) (m v : Nat) : Hub :=
  let b := h.mbx m
  let h := h.setMbx m { b with maskHost := v % 2 ^ 32 }
  if Nat.land (unmasked b.dbHost v) b.maskHost ≠ 0 then h.mbxInterrupt m else h

/-- The doorbell of an admin pair (R384, R484): a position that fails R370 stops the pair. -/
def AdminPair.sqBad (a : AdminPair) (i l : Nat) : Bool :=
  let c := countOf (2 ^ a.sqSize) false i l a.sqDev.1 a.sqDev.2
  2 ^ a.sqSize ≤ i || c < 0 || (2 ^ a.sqSize : Nat) < c
def AdminPair.cqBad (a : AdminPair) (i l : Nat) : Bool :=
  let c := countOf (2 ^ a.cqSize) false a.cqDev.1 a.cqDev.2 i l
  2 ^ a.cqSize ≤ i || c < 0 || (2 ^ a.cqSize : Nat) < c

/-- A write of ADMIN_SQ_DB: the host's position and bit 31. -/
def Hub.adminSq (h : Hub) (m v : Nat) : Hub :=
  let i := getBits v 0 16
  let l := getBits v 16 1
  let h := h.dbToFm m (2 ^ 31)
  h.updMbx m (fun b => match b.admin with
    | none => b
    | some a => if b.adminErr then b else if a.sqBad i l then { b with adminErr := true } else { b with admin := some { a with sqHost := (i, l) } })
/-- A write of ADMIN_CQ_DB: the host has taken completions. -/
def Hub.adminCq (h : Hub) (m v : Nat) : Hub :=
  let i := getBits v 0 16
  let l := getBits v 16 1
  h.updMbx m (fun b => match b.admin with
    | none => b
    | some a => if b.adminErr then b else if a.cqBad i l then { b with adminErr := true } else { b with admin := some { a with cqHost := (i, l) } })

/-! ## The host's side (R475 to R478) -/

/-- A word for Ryuner: a seventeenth overwrites the newest and collides (R477). -/
def Hub.mbxPush (h : Hub) (m v : Nat) : Hub :=
  let b := h.mbx m
  let w := BitVec.ofNat 32 v
  if b.inq.length < 16 then h.setMbx m { b with inq := b.inq ++ [w] }
  else ((h.setMbx m { b with inq := b.inq.dropLast ++ [w], collided := true }).tick T.MBX_COLLIDED).raise 663
/-- A result word, or 0 where there is none. -/
def Hub.mbxPop (h : Hub) (m : Nat) : Nat × Hub :=
  let b := h.mbx m
  match b.outq with
  | [] => (0, h.tick T.MBX_EMPTY_READ)
  | w :: t => (w.toNat + 2 ^ 32, h.setMbx m { b with outq := t })
/-- The ACK, once. -/
def Hub.mbxAck (h : Hub) (m : Nat) : Nat × Hub :=
  let b := h.mbx m
  match b.ack with
  | none => (0, h.tick T.MBX_EARLY_READ)
  | some w => (w.toNat, h.setMbx m { b with ack := none })

/-- The register of a mailbox page that holds offset `o`: its base, and the size in which alone it may be accessed (0: any within a
word); none for an unused offset. -/
def mbxReg (o : Nat) : Option (Nat × Nat) :=
  if 0x08 ≤ o && o < 0x10 then some (0x08, 4)
  else if 0x10 ≤ o && o < 0x18 then some (0x10, 8)
  else if 0x38 ≤ o && o < 0x40 then some (0x38, 8)
  else if 0x40 ≤ o && o < 0x48 then some (0x40, 8)
  else match o / 4 * 4 with
    | 0x00 => some (0x00, 0)
    | 0x18 => some (0x18, 0)
    | 0x1C => some (0x1C, 4)
    | 0x20 => some (0x20, 4)
    | 0x24 => some (0x24, 0)
    | 0x28 => some (0x28, 4)
    | 0x2C => some (0x2C, 0)
    | 0x30 => some (0x30, 0)
    | 0x48 => some (0x48, 0)
    | _ => none

/-- How an access of `size` bytes at offset `o` stands to the page: the register, or a wrong size, or no register. -/
inductive MbxHit where
  | reg (r : Nat) | badSize | none
deriving DecidableEq, Repr

/-- [DEDUCED, log 80, unsafe] -/
def mbxHit (o size : Nat) : MbxHit :=
  let one := fun (o : Nat) (size : Nat) => match mbxReg o with
    | Option.none => MbxHit.none
    | some (r, k) => if k = 0 then (if size ≤ 4 then .reg r else .badSize) else if o = r && size = k then .reg r else .badSize
  if size = 8 then
    match mbxReg o, mbxReg (o + 4) with
    | some (r, k), some (r', k') => if r = r' && k = 8 && o = r then .reg r else if k ≠ 0 || k' ≠ 0 then .badSize else .none
    | _, _ => .none
  else one o size

/-- A host read of a LIVE mailbox: the value, none for an access that is refused (R472, R475). [DEDUCED, log 80, unsafe] -/
def Hub.mbxHostRead (h : Hub) (m o size : Nat) : Option Nat × Hub :=
  let b := h.mbx m
  let part := fun (v : Nat) => (some (getBits v (8 * (o % 4)) (8 * size)), h)
  match mbxHit o size with
  | .none => (none, h.tick T.MBX_HOST_REFUSED)
  | .badSize => (some 0, h.tick T.MBX_BAD_SIZE)
  | .reg 0x00 => part (mbxLiveness m)
  | .reg 0x10 => (some (h.mbxPop m).1, (h.mbxPop m).2)
  | .reg 0x18 => part b.status
  | .reg 0x1C => (some (h.mbxAck m).1, (h.mbxAck m).2)
  | .reg 0x20 => part b.dbFm
  | .reg 0x24 => part b.maskFm
  | .reg 0x28 => part b.dbHost
  | .reg 0x2C => part b.maskHost
  | .reg 0x30 => part b.hostVec
  | .reg 0x48 => part b.adminStatus
  | .reg _ => (some 0, h)

/-- A write of a hub mailbox register that is RO for its writer. -/
def Hub.mbxRsvd (h : Hub) : Hub := h.tick (T.RSVD_WRITE 3)
/-- A write of 1 to bits outside `m`, which are reserved or RO for their writer, is counted (R14). -/
def Hub.mbxBits (h : Hub) (v m : Nat) : Hub := if unmasked v m % 2 ^ 32 ≠ 0 then h.mbxRsvd else h

/-- A host write to a LIVE mailbox; `false` for an access that is refused. [DEDUCED, log 80, unsafe] -/
def Hub.mbxHostWrite (h : Hub) (m o size v : Nat) : Bool × Hub :=
  let b := h.mbx m
  let whole := fun (old : Nat) => putBits old (8 * (o % 4)) (8 * size) v
  match mbxHit o size with
  | .none => (false, h.tick T.MBX_HOST_REFUSED)
  | .badSize => (true, h.tick T.MBX_BAD_SIZE)
  | .reg 0x08 => (true, h.mbxPush m v)
  | .reg 0x20 => (true, h.dbToFm m v)
  | .reg 0x28 => (true, h.setMbx m { b with
    dbHost := Nat.lor (unmasked b.dbHost v) (if b.notices.isEmpty then 0 else Nat.land b.dbHost 2) })
  | .reg 0x2C => (true, h.setHostMask m (whole b.maskHost))
  | .reg 0x30 =>
    let w := whole b.hostVec
    (true, (h.mbxBits w 0x87FF).setMbx m { b with hostVec := Nat.land w 0x87FF })
  | .reg 0x38 => (true, h.adminSq m v)
  | .reg 0x40 => (true, h.adminCq m v)
  | .reg _ => (true, h.mbxRsvd)

/-- An access of the owner of mailbox `m`, refused while the mailbox is FREE (R474). [DEDUCED, log 80, unsafe] -/
def Hub.mbxOwner (h : Hub) (m : Nat) (f : Hub → Hub) : Hub := if h.mbxLive m then f h else h.tick T.MBX_HOST_REFUSED
/-- A read by the owner of mailbox `m`: its answer. -/
def State.onMbxRead (s : State) (m : Nat) (f : Hub → Nat × Hub) : Host.Outcome State Fault Refusal :=
  let h := s.dev.hub
  .next { s with dev := { s.dev with
    hub := h.mbxOwner m (fun h => (f h).2), answer := if h.mbxLive m then [(f h).1] else [] } }

/-- How many mailboxes there are beside the engine ports (R481). -/
def mbxCount : Nat := 4112

/-- MBX_IN_PUSH. -/
def execMbxInPush (m : Nat) (v : Word) (s : State) : Host.Outcome State Fault Refusal :=
  s.onHub (fun h => h.mbxOwner m (fun h => h.mbxPush m v.toNat))
/-- MBX_OUT_POP. -/
def execMbxOutPop (m : Nat) (s : State) : Host.Outcome State Fault Refusal := s.onMbxRead m (fun h => h.mbxPop m)
/-- MBX_ACK_READ. -/
def execMbxAckRead (m : Nat) (s : State) : Host.Outcome State Fault Refusal := s.onMbxRead m (fun h => h.mbxAck m)
/-- DB_TO_FM_WRITE. -/
def execDbToFmWrite (m : Nat) (v : Word) (s : State) : Host.Outcome State Fault Refusal :=
  s.onHub (fun h => h.mbxOwner m (fun h => h.dbToFm m v.toNat))
/-- DB_TO_HOST_RAISE: Ryuner sets bits of DB_TO_HOST. -/
def execDbToHostRaise (m : Nat) (v : Word) (s : State) : Host.Outcome State Fault Refusal :=
  s.onHub (fun h => h.dbToHost m (v.toNat % 8))
/-- ADMIN_SQ_DOORBELL. -/
def execAdminSqDoorbell (m : Nat) (v : DWord) (s : State) : Host.Outcome State Fault Refusal :=
  s.onHub (fun h => h.mbxOwner m (fun h => h.adminSq m v.toNat))
/-- ADMIN_CQ_DOORBELL. -/
def execAdminCqDoorbell (m : Nat) (v : DWord) (s : State) : Host.Outcome State Fault Refusal :=
  s.onHub (fun h => h.mbxOwner m (fun h => h.adminCq m v.toNat))

/-! ## The Foreman's side (R475, R477, R481) -/

/-- A read of mailbox `m` by the Foreman: the value, none for an offset that holds nothing. [DEDUCED, log 80, unsafe] -/
def Hub.mbxFmRead (h : Hub) (m o size : Nat) : Option Nat × Hub :=
  let b := h.mbx m
  let part := fun (v : Nat) => (some (getBits v (8 * (o % 4)) (8 * size)), h)
  if o = 0x08 && size = 8 then
    match b.inq with
    | [] => (some 0, h.tick T.MBX_EMPTY_READ)
    | w :: t => (some (w.toNat + 2 ^ 32), h.setMbx m { b with inq := t })
  else match mbxReg o with
    | none => (none, h.tick (T.ADDR_MISS 3))
    | some (0x00, _) => part (mbxLiveness m)
    | some (0x18, _) => part b.status
    | some (0x20, _) => part b.dbFm
    | some (0x24, _) => part b.maskFm
    | some (0x28, _) => part 0
    | some (0x2C, _) => part b.maskHost
    | some (0x30, _) => part b.hostVec
    | some (0x48, _) => part b.adminStatus
    | some _ => (some 0, h)

/-- ACK is written: the write makes the result ready, and an unread one is lost (R475, R478). -/
def Hub.mbxSetAck (h : Hub) (m v : Nat) : Hub :=
  let b := h.mbx m
  let h := if b.ack.isSome then h.tick T.HUB_COMMIT_STATUS_LOST else h
  h.setMbx m { b with ack := some (BitVec.ofNat 32 (Nat.lor (Nat.land v 0xFF00FFFF) 0x10000)) }

/-- A write of a word at mailbox `m` by the Foreman. [DEDUCED, log 80, unsafe] -/
def Hub.mbxFmWrite (h : Hub) (m o v : Nat) : Option BusErr × Hub :=
  let b := h.mbx m
  let ok := fun (h : Hub) => ((none : Option BusErr), h)
  match mbxReg o with
  | none => (some .addr, h.tick (T.ADDR_MISS 3))
  | some (0x10, _) =>
    if 16 ≤ b.outq.length then (some .full, h.tick T.MBX_FM_REFUSED) else ok (h.setMbx m { b with outq := b.outq ++ [BitVec.ofNat 32 v] })
  | some (0x18, _) => ok ((h.mbxBits v 0x30000).setMbx m { b with collided := b.collided && !bit v 16, busy := bit v 17 })
  | some (0x1C, _) => ok ((h.mbxBits v 0xFF01FFFF).mbxSetAck m v)
  | some (0x20, _) => ok (h.setMbx m { b with dbFm := unmasked b.dbFm v })
  | some (0x24, _) => ok (h.setMbx m { b with maskFm := v % 2 ^ 32 })
  | some (0x28, _) => ok (h.dbToHost m (v % 8))
  | some (0x48, _) => ok ((h.mbxBits v 3).setMbx m { b with adminErr := bit v 1 })
  | some _ => ok h.mbxRsvd

/-- A read of bench `n`'s engine port by the Foreman. [DEDUCED, log 80, unsafe] -/
def Hub.eportFmRead (h : Hub) (n : Nat) (o size : Nat) : Option Nat × Hub :=
  let e := h.eport n
  let part := fun (v : Nat) => (some (getBits v (8 * (o % 4)) (8 * size)), h)
  if o = 0 && size = 8 then
    match e.toFm with
    | [] => (some 0, h.tick T.MBX_EMPTY_READ)
    | w :: t => (some (w.toNat + 2 ^ 32), h.setEport n { e with toFm := t })
  else match o / 4 * 4 with
    | 0x00 | 0x04 | 0x08 | 0x0C => (some 0, h)
    | 0x10 => part (e.toFm.length + 2 ^ 8 * e.fromFm.length)
    | 0x14 => part e.dbFm
    | 0x18 => part e.maskFm
    | 0x1C => part e.dbBench
    | 0x20 => part e.maskBench
    | _ => (none, h.tick (T.ADDR_MISS 3))

/-- A write of a word at bench `n`'s engine port by the Foreman: a doorbell reaches the bench's notice port at once. [DEDUCED, log 80, unsafe] -/
def eportFmWrite (n : BenchId) (o v : Nat) (h : Hub) (b : Bench) : Option BusErr × Hub × Bench :=
  let e := h.eport n.val
  let ok := fun (h : Hub) => ((none : Option BusErr), h, b)
  match o / 4 * 4 with
  | 0x08 =>
    if 16 ≤ e.fromFm.length then (some .full, h.tick T.MBX_FM_REFUSED, b)
    else ok (h.setEport n.val { e with fromFm := e.fromFm ++ [BitVec.ofNat 32 v] })
  | 0x14 => ok (h.setEport n.val { e with dbFm := unmasked e.dbFm v })
  | 0x18 => ok (h.setEport n.val { e with maskFm := v % 2 ^ 32 })
  | 0x1C =>
    let h := h.setEport n.val { e with dbBench := Nat.lor e.dbBench (v % 2 ^ 32) }
    if b.live then
      let r := h.ringBench n b
      (none, r.1, r.2.pump)
    else ok h
  | 0x00 | 0x04 | 0x0C | 0x10 | 0x20 => ok h.mbxRsvd
  | _ => (some .addr, h.tick (T.ADDR_MISS 3), b)

/-- Does mailbox or engine port `m` have an unmasked doorbell toward the Foreman (R481)? -/
def Hub.pendBit (h : Hub) (m : Nat) : Bool :=
  if m < mbxCount then unmasked (h.mbx m).dbFm (h.mbx m).maskFm ≠ 0
  else unmasked (h.eport (m - mbxCount)).dbFm (h.eport (m - mbxCount)).maskFm ≠ 0
/-- The mailboxes with such a doorbell. -/
def Hub.pendSet (h : Hub) : List Nat :=
  ((h.fw.mbx.map (·.1)) ++ (h.fw.ports.map (fun x => mbxCount + x.1))).filter h.pendBit
/-- PEND_w and PEND_TOP_v. -/
def Hub.pendWord (h : Hub) (w : Nat) : Nat := h.pendSet.foldl (fun x m => if m / 32 = w then Nat.lor x (2 ^ (m % 32)) else x) 0
def Hub.pendTop (h : Hub) (v : Nat) : Nat := h.pendSet.foldl (fun x m => if m / 1024 = v then Nat.lor x (2 ^ (m / 32 % 32)) else x) 0
/-- Is the Foreman's mailbox interrupt raised (R481)? -/
def Hub.mbxIrq (h : Hub) : Bool := !h.pendSet.isEmpty

/-! ## The block (R472) -/

/-- What lies at an offset of the mailbox block. -/
inductive MbxPlace where
  | self (o : Nat) | box (m o : Nat) | port (n : BenchId) (o : Nat) | pend (o : Nat) | none
deriving DecidableEq, Repr

def mbxPlace (x : Nat) : MbxPlace :=
  if x < 0x80 then .self x
  else if 0x20000 ≤ x && x < 0x20800 then .box ((x - 0x20000) / 128) (x % 128)
  else if 0x30000 ≤ x && x < 0x30400 then .port (benchOf ((x - 0x30000) / 0x40)) (x % 0x40)
  else if 0x40000 ≤ x && x < 0x41000 then .pend (x - 0x40000)
  else if 0x80000 ≤ x && x < 0x100000 then .box (16 + (x - 0x80000) / 128) (x % 128)
  else .none

/-- The mailbox of a function through the SELF page (R473): a PF's own, a VF's claim's. -/
def Hub.selfMbx (h : Hub) (key : Nat) : Option Nat :=
  if fnVf key then (h.fw.mbx.find? (fun x => 16 ≤ x.1 && x.2.live && x.2.fn = key)).map (·.1) else some (8 * fnPort key + fnIdx key)

/-- The mailbox that a host access of a function at an offset of the block reaches, and the offset in it. -/
def Hub.hostMbx (h : Hub) (key x : Nat) : Option (Nat × Nat) :=
  let ok := fun (m o : Nat) => if h.mbxLive m && (h.mbx m).fn = key then some (m, o) else Option.none
  match mbxPlace x with
  | .self o => match h.selfMbx key with
    | some m => ok m o
    | Option.none => Option.none
  | .box m o => ok m o
  | _ => Option.none

/-- A host access to the block: the value read; none where it is refused. -/
def Hub.mbxBlockHostRead (h : Hub) (key x size : Nat) : Option Nat × Hub :=
  match h.hostMbx key x with
  | some (m, o) => h.mbxHostRead m o size
  | none => (none, h.tick T.MBX_HOST_REFUSED)
def Hub.mbxBlockHostWrite (h : Hub) (key x size v : Nat) : Bool × Hub :=
  match h.hostMbx key x with
  | some (m, o) => h.mbxHostWrite m o size v
  | none => (false, h.tick T.MBX_HOST_REFUSED)

/-- A Foreman read of the block. -/
def Hub.mbxBlockFmRead (h : Hub) (x size : Nat) : Option Nat × Hub :=
  match mbxPlace x with
  | .box m o => h.mbxFmRead m o size
  | .port n o => h.eportFmRead n.val o size
  | .pend o =>
    if o < 0x204 then (some (getBits (h.pendWord (o / 4)) (8 * (o % 4)) (8 * size)), h)
    else if 0x400 ≤ o && o < 0x414 then (some (getBits (h.pendTop ((o - 0x400) / 4)) (8 * (o % 4)) (8 * size)), h)
    else (none, h.tick (T.ADDR_MISS 3))
  | _ => (none, h.tick (T.ADDR_MISS 3))

/-- A Foreman write of a word to the block. -/
def Device.mbxBlockFmWrite (d : Device) (x v : Nat) : Option BusErr × Device :=
  match mbxPlace x with
  | .box m o =>
    let r := d.hub.mbxFmWrite m o v
    (r.1, { d with hub := r.2 })
  | .port n o => ((eportFmWrite n o v d.hub (d.bench n)).1, d.run n (fun h b => (eportFmWrite n o v h b).2))
  | .pend _ => (none, { d with hub := d.hub.mbxRsvd })
  | _ => (some .addr, { d with hub := d.hub.tick (T.ADDR_MISS 3) })

end Sys2Proof.Machine
end

