-- ==== Sys2Proof/Machine/Side.lean ====
section
/-! DEFINITION. The side port, a smaller face of the same design in the hub (R85), its wake-pattern detector (R86, R518, R519), and
the commands that a port of a bench and the side port share. -/
namespace Sys2Proof.Machine

/-! ## The port (R85, R89) -/

/-- The key of a face tally in hub unit 6, where the side port keeps it (R85, R533). -/
def sideTally (key : Nat) : Nat := key + 5 * 2 ^ 22
/-- Count one spoiled frame of the side port. -/
def Hub.sideSpoil (h : Hub) (code : Nat) : Hub :=
  match spoilTally? code 0 with
  | some k => h.tick (sideTally k)
  | none => h
/-- What the side port keeps beside its registers. -/
def Hub.sidePort (h : Hub) : PortSt := h.fw.side.port
/-- Put what the side port keeps. -/
def Hub.setSidePort (h : Hub) (p : PortSt) : Hub := h.updFw (fun w => { w with side := { w.side with port := p } })
/-- The side port's link state. -/
def Hub.sideSt (h : Hub) : Nat := h.fld R.side_PORT_STATUS_0_STATE
/-- Has the side port power and a clock: with the hub, and from the auxiliary rail while wake is armed in D3cold (R518)? -/
def Hub.sideLive (h : Hub) : Bool := if h.fw.power = .d3cold then h.fw.wakeArmed || h.up else h.up

/-- The side port's link passes to a state, with hub event 650 (R85); the interrupt unit is there while the hub is up. -/
def Hub.sideState (h : Hub) (st : Nat) : Hub :=
  let h := (h.setFld R.side_PORT_STATUS_0_STATE st).setFld R.side_PORT_STATUS_0_LINK_CHANGED 1
  if h.up then h.raise 650 else h

/-- The side port leaves UP (R63, R75): its pause ends and fault ordered sets are sent. -/
def Hub.sideLeaveUp (h : Hub) (st : Nat) : Hub :=
  let h := h.setSidePort { h.sidePort with retrain := st = psTraining, fails := 0, an := 0, faults := true, pauseQuanta := 0, looped := [] }
  (h.setFld R.side_PORT_STATUS_0_PAUSED 0).sideState st

/-- LANE_RESET by the matrix of R61. -/
def Hub.sideLaneReset (h : Hub) : Hub :=
  if h.sideSt = psDisabled then h.setFld R.side_LANE_STATUS_0_FAILED 0
  else if h.sideSt = psFailed then (h.setFld R.side_LANE_STATUS_0_FAILED 0).sideState psWait
  else h.tick T.HUB_CFG_REFUSED
/-- ENABLE by the matrix of R61. -/
def Hub.sideEnable (h : Hub) : Hub :=
  if h.sideSt = psDisabled then h.sideState (if h.flag R.side_LANE_STATUS_0_FAILED then psFailed else psWait)
  else h.tick T.HUB_CFG_REFUSED
/-- DISABLE by the matrix of R61: no frame is ever in transmission between commands. -/
def Hub.sideDisable (h : Hub) : Hub :=
  if h.sideSt = psDisabled then h.tick T.HUB_CFG_REFUSED
  else if h.sideSt = psUp then h.sideLeaveUp psDisabled
  else h.sideState psDisabled

/-- A PORT_CTL write (R61, R85, R90): the side port has two interface classes and no FEC. -/
def Hub.sideCtlWrite (h : Hub) (v : Nat) : Hub :=
  let h := h.setIf (getBits v 1 2 ≠ 3 && getBits v 1 2 ≠ 1) R.side_PORT_CTL_0_IFACE (getBits v 1 2)
  let h := if bit v 3 then h.tick T.HUB_CFG_REFUSED else h
  let h := h.setFld R.side_PORT_CTL_0_AN_EN (getBits v 4 1)
  let h := h.setIf (getBits v 8 8 ≠ 0) R.side_PORT_CTL_0_TRAIN_LIMIT (getBits v 8 8)
  let old := h.flag R.side_PORT_CTL_0_ENABLE
  let h := h.setFld R.side_PORT_CTL_0_ENABLE (v % 2)
  let h := if bit v 5 then h.sideLaneReset else h
  if bit v 0 && !old then h.sideEnable else if !bit v 0 && old then h.sideDisable else h

/-- STATION_CTL commits an entry as one unit (R69). -/
def Hub.sideStationCommit (h : Hub) (e v : Nat) : Hub :=
  let sh : Nat → Word := fun o => sparseGet hubRegReset h.shadow o
  let h := (h.setReg (R.side_STATION_ADDR_LO e) (sh (R.side_STATION_ADDR_LO e))).setReg (R.side_STATION_ADDR_HI e)
    (sh (R.side_STATION_ADDR_HI e))
  (h.setFld (R.side_STATION_CTL_VALID e) v).setFld (R.side_STATION_CTL_PORT_MASK e) (v / 2 ^ 4)

/-- A write of a register of the side port (R85, R89, R90): it disarms the retained copies (R518). [DESIGN CHOICE, log 19, unsafe; DEDUCED, log 20, safe] -/
def Hub.sideWrite (h : Hub) (o v : Nat) : Hub :=
  let h := h.updFw (fun w => { w with side := { w.side with retained := none } })
  let x := o % 0x100000
  if x = 0x100 then h.sideCtlWrite v
  else if x = 0x108 then h.setIf (64 ≤ v % 2 ^ 14 && v % 2 ^ 14 ≤ 9728) R.side_MAX_FRAME_0_BYTES v
  else if x = 0x10C then
    ((h.setIf (v % 4 < 2) R.side_PAUSE_CTL_0_MODE (v % 4)).setFld R.side_PAUSE_CTL_0_PFC_CLASS_EN (v / 2 ^ 8)).setFld
      R.side_PAUSE_CTL_0_QUANTA (v / 2 ^ 16)
  else if x = 0x400 then
    ((h.setFld R.side_LANE_CTL_0_TX_INVERT v).setFld R.side_LANE_CTL_0_RX_INVERT (v / 2)).setIf (v / 4 % 4 ≠ 3)
      R.side_LANE_CTL_0_LOOPBACK (v / 4)
  else if 0x800 ≤ x && x < 0x840 && x % 0x10 = 8 then h.sideStationCommit ((x - 0x800) / 0x10) v
  else h.plainWrite o v

/-! ## Training (R60 to R62) -/

/-- Does the side port run auto-negotiation: backplane with AN_EN = 1 (R60)? -/
def Hub.sideNegotiates (h : Hub) : Bool := h.fld R.side_PORT_CTL_0_IFACE ≠ 0 && h.flag R.side_PORT_CTL_0_AN_EN

/-- Energy on the side port's lane. -/
def Hub.sideSignal (h : Hub) : Hub :=
  let h := h.setFld R.side_LANE_STATUS_0_SIGNAL 1
  if h.sideSt = psWait then (h.setSidePort { h.sidePort with fails := 0, retrain := false, an := 0 }).sideState psTraining else h

/-- Energy below threshold for 5,000 cycles. -/
def Hub.sideSignalLoss (h : Hub) : Hub :=
  let h := (h.setFld R.side_LANE_STATUS_0_SIGNAL 0).setFld R.side_LANE_STATUS_0_LOCKED 0
  if h.sideSt = psUp then h.sideLeaveUp psWait else if h.sideSt = psTraining then h.sideState psWait else h

/-- Lock is lost while energy is present. -/
def Hub.sideLockLoss (h : Hub) : Hub :=
  if h.sideSt = psUp then (h.setFld R.side_LANE_STATUS_0_LOCKED 0).sideLeaveUp psTraining else h

/-- A training attempt reaches lock. -/
def Hub.sideSucceeds (h : Hub) : Hub :=
  if h.sideSt = psTraining && (!h.sideNegotiates || h.sidePort.an = 1) then
    let h := h.setFld R.side_LANE_STATUS_0_LOCKED 1
    let h := if h.sidePort.retrain then h.tick (sideTally (T.LINK_RETRAIN_OK 0)) else h
    (h.setSidePort { h.sidePort with fails := 0, retrain := false, faults := false }).sideState psUp
  else h

/-- A training attempt fails; event 9 is a bench's (R61), and the side port tells of its state by event 650. -/
def Hub.sideFails (h : Hub) : Hub :=
  if h.sideSt = psTraining && !(h.sideNegotiates && h.sidePort.an = 2) then
    let h := h.setFld R.side_PORT_STATUS_0_TRAIN_FAILED 1
    if h.sidePort.fails = 0 then (h.setSidePort { h.sidePort with fails := 1, an := 0 }).tick (sideTally (T.TRAIN_RETRY 0))
    else ((h.setSidePort { h.sidePort with fails := 0, retrain := false }).setFld R.side_LANE_STATUS_0_FAILED 1).sideState psFailed
  else h

/-- The partner's page: the side port's one technology is 10GBASE-R (R60, R85). -/
def Hub.sideAnPage (h : Hub) (offered : List Tech) : Hub :=
  if h.sideSt = psTraining && h.sideNegotiates then
    if offered.contains .g10 then h.setSidePort { h.sidePort with an := 1 }
    else (h.setSidePort { h.sidePort with an := 2 }).tick (sideTally (T.AN_NO_MATCH 0))
  else h

/-! ## Transmission (R73, R76, R85) -/

/-- A frame leaves the side port, padded and counted; near-end loopback brings it to the port's own receiver (R73, R88, R93). [DEDUCED, log 111, unsafe] -/
def Hub.sideSend (h : Hub) (bytes : List Byte) : Hub :=
  let l := pad60 bytes
  match h.fld R.side_LANE_CTL_0_LOOPBACK with
  | 0 =>
    let h := (h.tick (sideTally (T.TX_FRAMES 0))).count (sideTally (T.TX_BYTES 0)) (l.length + 4)
    h.updFw (fun w => { w with side := { w.side with out := w.side.out ++ [{ port := 0, bytes := l, badFcs := false, echo := false }] } })
  | 1 => h.setSidePort { h.sidePort with looped := h.sidePort.looped ++ [(l, false)] }
  | _ => h

/-- A frame of the Foreman enters the transmitter: discarded under TX_LINK_DOWN while the port is not UP (R63), held while the
partner's pause lasts (R75). -/
def Hub.sideTx (h : Hub) (bytes : List Byte) : Hub :=
  if h.sideSt ≠ psUp then h.sideSpoil 0x21
  else if h.flag R.side_PORT_STATUS_0_PAUSED then h
  else h.sideSend bytes

/-- The source address of the side port's pause frames. -/
def Hub.sideSa (h : Hub) : List Byte :=
  leBytes 4 (h.reg R.side_PORT_SA_LO_0).toNat ++ leBytes 2 (h.fld R.side_PORT_SA_HI_0_SA_HI)

/-- A pause frame with a time. -/
def Hub.sidePause (h : Hub) (q : Nat) : Hub :=
  let h := (h.sideSend (macControl h.sideSa 1 (beBytes 2 q))).tick (sideTally (T.PAUSE_TX 0))
  h.setSidePort { h.sidePort with adv := if q = 0 then 0 else 256 }

/-- The side port's link-pause request: its XOFF register alone, since no traffic manager stands behind it (R76). -/
def Hub.sideRequest (h : Hub) : Nat := if h.sidePort.mode = 1 && h.flag R.side_XOFF_0_LINK_XOFF then 256 else 0

/-- The request has risen or fallen: one frame. -/
def Hub.sideRequestChange (h : Hub) : Hub :=
  let r := h.sideRequest
  if r = h.sidePort.reqs then h
  else
    let h := h.setSidePort { h.sidePort with reqs := r }
    if h.sideSt = psUp then h.sidePause (if r = 0 then 0 else h.fld R.side_PAUSE_CTL_0_QUANTA) else h

/-- Half of QUANTA has elapsed since the last frame while the request is high. -/
def Hub.sideRepeat (h : Hub) : Hub :=
  let q := h.fld R.side_PAUSE_CTL_0_QUANTA
  if h.sideSt = psUp && h.sidePort.reqs ≠ 0 && q ≠ 0 then h.sidePause q else h

/-- A written MODE takes effect at the frame boundary. -/
def Hub.sideModeChange (h : Hub) : Hub :=
  let m := h.fld R.side_PAUSE_CTL_0_MODE
  if m = h.sidePort.mode then h
  else
    let h := if h.sideSt = psUp && h.sidePort.adv ≠ 0 then h.sidePause 0 else h
    (h.setSidePort { h.sidePort with mode := m, reqs := 0, adv := 0 }).sideRequestChange

/-- The quanta of the link pause have elapsed (R75). -/
def Hub.sidePauseExpired (h : Hub) : Hub :=
  (h.setSidePort { h.sidePort with pauseQuanta := 0 }).setFld R.side_PORT_STATUS_0_PAUSED 0

/-! ## Reception (R85) -/

/-- The address in station entry `e`, in force. -/
def Hub.sideStation (h : Hub) (e : Nat) : Nat :=
  (h.reg (R.side_STATION_ADDR_LO e)).toNat + 2 ^ 32 * h.fld (R.side_STATION_ADDR_HI_ADDR_HI e)
/-- Does a destination address hit one of the four station entries? -/
def Hub.sideHit (h : Hub) (da : List Byte) : Bool :=
  (List.range 4).any (fun e =>
    h.flag (R.side_STATION_CTL_VALID e) && bit (h.fld (R.side_STATION_CTL_PORT_MASK e)) 0 && decide (leNat da = h.sideStation e))

/-- A MAC control frame of the side port: a pause frame in link-pause mode is obeyed, every other one discarded (R70). -/
def Hub.sideControl (h : Hub) (bytes : List Byte) : Hub :=
  if macObeyed h.sidePort.mode (beNat (slice bytes 14 2)) then
    let q := beNat (slice bytes 16 2)
    ((h.tick (sideTally (T.PAUSE_RX 0))).setSidePort { h.sidePort with pauseQuanta := q }).setFld R.side_PORT_STATUS_0_PAUSED
      (if q = 0 then 0 else 1)
  else h.sideSpoil 0x15

/-- A frame with no error: the station filter, and the way to the Foreman, which is shut in D3 (R86). -/
def Hub.sideDeliver (h : Hub) (bytes : List Byte) (long : Bool) : Hub :=
  let da := slice bytes 0 6
  let hit := h.sideHit da
  let h := if hit then h.tick (sideTally (T.STATION_HIT 0)) else h
  if !hit && da ≠ List.replicate 6 0xFF#8 then h.sideSpoil 0x16
  else if h.fw.power = .d0 then
    h.updFw (fun w => { w with side := { w.side with rx := w.side.rx ++ [(bytes, long)] } })
  else h

/-- A frame on the side port, destination address to FCS: the checks of R65, truncation by R68. [DESIGN CHOICE, log 19, unsafe] -/
def Hub.sideFrame (h : Hub) (bytes : List Byte) (how : RxEnd) (fcsBad : Bool) : Hub :=
  let mf := h.fld R.side_MAX_FRAME_0_BYTES
  let long := decide (mf < bytes.length)
  let h := (h.tick (sideTally (T.RX_FRAMES 0))).count (sideTally (T.RX_BYTES 0)) bytes.length
  let h := if long then h.tick (sideTally (T.RX_OVERSIZE 0)) else h
  let code := if how = .aborted then 0x13 else rxCode (how = .badCode) bytes.length fcsBad
  if code ≠ 0 then h.sideSpoil code
  else if beNat (slice bytes 12 2) = 0x8808 then h.sideControl bytes
  else h.sideDeliver (bytes.take mf) long

/-- A frame at the side port's receiver, with the loopbacks of R93. [DEDUCED, log 111, unsafe] -/
def Hub.sideArrive (h : Hub) (bytes : List Byte) (how : RxEnd) (fcsBad : Bool) : Hub :=
  match h.fld R.side_LANE_CTL_0_LOOPBACK with
  | 0 => h.sideFrame bytes how fcsBad
  | 1 =>
    match h.sidePort.looped with
    | [] => h
    | (l, _) :: t =>
      if bytes.take (bytes.length - 4) = l then (h.setSidePort { h.sidePort with looped := t }).sideFrame bytes how fcsBad
      else h
  | _ =>
    (h.updFw (fun w => { w with side := { w.side with out := w.side.out ++ [{ port := 0, bytes := bytes, badFcs := false, echo := true }] } })).sideFrame
      bytes how fcsBad

/-- SIDE_FRAME_RX: a frame arrives on the side port, whose link is UP. -/
def execSideFrameRx (bytes : List Byte) (how : RxEnd) (fcsBad : Bool) (s : State) : Host.Outcome State Fault Refusal :=
  s.onHub (fun h => if h.up && h.sideSt = psUp then h.sideArrive bytes how fcsBad else h)

/-- A read of a side-port register that is no plain word (R64, R91, R94, R574): the fault bits and the module inputs are what the
outside makes them, and no timestamp is ever held. [DESIGN CHOICE, log 115, safe] -/
def Hub.sideRead (h : Hub) (o w : Nat) : Nat × Hub :=
  let f := h.takeFree
  if o = R.side_PORT_STATUS_0 then
    if h.sideSt = psDisabled then (w, h) else (putBits w 4 2 (f.1.toNat % 4), f.2)
  else if o = R.side_MODULE_CTL_0 then (putBits w 8 2 (f.1.toNat % 4), f.2)
  else if R.side_TX_TS_0 0 ≤ o && o ≤ R.side_TX_TS_TAG_0 then (0, h.tick (sideTally (T.TS_EARLY_READ 0)))
  else (w, h)

/-! ## Wake (R86, R518, R519) -/

/-- The address in station entry 0 as the detector has it: the retained copy once it is armed. None where the entry is not valid. [DESIGN CHOICE, log 19, unsafe] -/
def Hub.wakeAddr (h : Hub) : Option (List Byte) :=
  match h.fw.side.retained with
  | some (lo, hi, _) => if bit hi 16 then some (leBytes 6 (lo % 2 ^ 32 + 2 ^ 32 * (hi % 2 ^ 16))) else none
  | none => if h.flag (R.side_STATION_CTL_VALID 0) then some (leBytes 6 (h.sideStation 0)) else none

/-- Does a frame hold a run of bytes anywhere? -/
def holds (run : List Byte) : List Byte → Bool
  | [] => run.isEmpty
  | x :: t => (x :: t).take run.length == run || holds run t

/-- Does a frame match a pattern of 128 bytes in the bytes that the mask names? [DESIGN CHOICE, log 19, unsafe] -/
def patternFits (pat mask frame : List Byte) : Bool :=
  (List.range 128).all (fun i => !bit (leNat mask) i || (decide (i < frame.length) && slice frame i 1 == slice pat i 1))

/-- The 128 bytes of wake pattern `k`. -/
def Hub.wakePattern (h : Hub) (k : Nat) : List Byte := (List.range 32).flatMap (fun i => leBytes 4 (h.reg (R.side_WAKE_PATTERN k i)).toNat)
/-- The byte mask of wake pattern `k`: bit i names byte i. -/
def Hub.wakeMask (h : Hub) (k : Nat) : List Byte := (List.range 4).flatMap (fun i => leBytes 4 (h.reg (R.side_WAKE_MASK k i)).toNat)

/-- The index of the pattern that a frame matches: 0 to 7 for the programmed ones, 8 for the magic pattern. A pattern whose mask names
no byte is not programmed. [DESIGN CHOICE, log 19, unsafe] -/
def Hub.wakeIndex (h : Hub) (frame : List Byte) : Option Nat :=
  let prog := (List.range 8).find? (fun k => leNat (h.wakeMask k) ≠ 0 && patternFits (h.wakePattern k) (h.wakeMask k) frame)
  match prog with
  | some k => some k
  | none => match h.wakeAddr with
    | some a => if holds (List.replicate 6 0xFF#8 ++ (List.replicate 16 a).flatten) frame then some 8 else none
    | none => none

/-- In D3hot each PF with PME_En sets PME_Status and sends PM_PME on its link. [PRESUMED, log 21, unsafe] -/
def Hub.sendPme (h : Hub) : Hub :=
  (List.range 16).foldl (fun h i =>
    let key := fnKey (i / 8) false (i % 8)
    let f := h.fn key
    if f.pmeEn then
      let h := h.setFn key { f with pmeStatus := true }
      let t : Tlp := { Tlp.blank .message key with tag := 0x18 }
      { h with wire := h.wire ++ [(h.linkOf key, t)] }.tick T.PME_SENT
    else h) h

/-- A match requests wake by the power state. -/
def Hub.requestWake (h : Hub) : Hub :=
  match h.fw.power with
  | .d3hot => h.sendPme
  | .d3cold =>
    let h := if h.up then h.tick T.WAKE_ASSERTED else h
    h.updFw (fun w => { w with wakeN := true })
  | _ => h

/-- A frame with a good FCS reaches the detector. -/
def Hub.wakeFrame (h : Hub) (frame : List Byte) : Hub :=
  match h.wakeIndex frame with
  | none => h
  | some k =>
    let h := (h.setFld R.side_WAKE_STATUS_INDEX k).setFld R.side_WAKE_STATUS_VALID 1
    (if h.up then h.raise 651 else h).requestWake

/-- WAKE_MATCH: the detector runs with the side port, whose link is UP. -/
def execWakeMatch (frame : List Byte) (s : State) : Host.Outcome State Fault Refusal :=
  s.onHub (fun h => if h.sideLive && h.sideSt = psUp then h.wakeFrame frame else h)

/-! ## Commands that a bench's port and the side port share -/

/-- A command on a port: of a live bench, or the side port while it has power. -/
def State.onPort (s : State) (n : Face) (f : Bench → Bench) (g : Hub → Hub) : Host.Outcome State Fault Refusal :=
  match n with
  | .bench n => s.onBench n f
  | .side => s.onHub (fun h => if h.sideLive then g h else h)

/-- SIGNAL_PRESENT (R61). While PWRFAIL_N is low the line lanes are in electrical idle and no port begins to train (R569). [DESIGN CHOICE, log 18, unsafe] -/
def execSignalPresent (n : Face) (p : Nat) (s : State) : Host.Outcome State Fault Refusal :=
  s.onPort n (fun b => if s.dev.hub.fw.pwrfail then b else b.signalPresent p) Hub.sideSignal
/-- SIGNAL_LOSS (R61). -/
def execSignalLoss (n : Face) (p : Nat) (s : State) : Host.Outcome State Fault Refusal :=
  s.onPort n (fun b => b.signalLoss p) Hub.sideSignalLoss
/-- LOCK_LOSS (R61). -/
def execLockLoss (n : Face) (p : Nat) (s : State) : Host.Outcome State Fault Refusal :=
  s.onPort n (fun b => b.lockLoss p) Hub.sideLockLoss
/-- ATTEMPT_SUCCEEDS (R61). -/
def execAttemptSucceeds (n : Face) (p : Nat) (s : State) : Host.Outcome State Fault Refusal :=
  s.onPort n (fun b => b.attemptSucceeds p) Hub.sideSucceeds
/-- ATTEMPT_FAILS (R61, R62). -/
def execAttemptFails (n : Face) (p : Nat) (s : State) : Host.Outcome State Fault Refusal :=
  s.onPort n (fun b => b.attemptFails p) Hub.sideFails
/-- AN_PAGE_RECEIVED (R60). -/
def execAnPageReceived (n : Face) (p : Nat) (offered : List Tech) (s : State) : Host.Outcome State Fault Refusal :=
  s.onPort n (fun b => b.anPage p offered) (fun h => h.sideAnPage offered)
/-- PAUSE_TIMER_EXPIRED (R75). -/
def execPauseTimerExpired (n : Face) (p : Nat) (cls : Option Nat) (s : State) : Host.Outcome State Fault Refusal :=
  s.onPort n (fun b => b.pauseExpired p cls) (fun h => if cls.isNone then h.sidePauseExpired else h)
/-- PAUSE_REQUEST_CHANGE: a transmit request has risen or fallen (R76, R236). -/
def execPauseRequestChange (n : Face) (p : Nat) (s : State) : Host.Outcome State Fault Refusal :=
  s.onPort n (fun b => if b.hasPort p then b.requestChange p else b) Hub.sideRequestChange
/-- PAUSE_REPEAT_TIMER (R76). -/
def execPauseRepeatTimer (n : Face) (p : Nat) (s : State) : Host.Outcome State Fault Refusal :=
  s.onPort n (fun b => b.repeatRequest p) Hub.sideRepeat
/-- PAUSE_MODE_CHANGE (R76). -/
def execPauseModeChange (n : Face) (p : Nat) (s : State) : Host.Outcome State Fault Refusal :=
  s.onPort n (fun b => b.modeChange p) Hub.sideModeChange
/-- TX_FRAME: the frame that the scheduler selected for a port, or a frame of the Foreman on the side port, enters the transmitter. -/
def execTxFrame (n : TxFace) (p phase : Nat) (ecc : Ecc) (s : State) : Host.Outcome State Fault Refusal :=
  match n with
  | .bench n => s.onBench n (fun b => b.txFrame p phase ecc)
  | .side bytes => s.onHub (fun h => if h.sideLive then h.sideTx bytes else h)

end Sys2Proof.Machine
end

