-- ==== Sys2Proof/Machine/HubAccess.lean ====
section
/-! DEFINITION. Accesses to the hub's register blocks and to any internal address (R34, R35, R338, R509, R514): who may reach a
block, what a read returns and consumes, what a write does. -/
namespace Sys2Proof.Machine

/-- What an access to the device does: the value read, the bus error if any, the device after it. -/
structure DevOut where
  val : Nat
  err : Option BusErr
  dev : Device
deriving DecidableEq, Repr

/-- An access that only the hub answers. -/
def DevOut.ofHub (d : Device) (v : Nat) (e : Option BusErr) (h : Hub) : DevOut := { val := v, err := e, dev := { d with hub := h } }

/-! ## Who reaches what (R35, R338, R497, R509) -/

/-- Does an agent have the Foreman's rights: the Foreman, and the debug port while FULL is open? -/
def Hub.fmRights (h : Hub) (ag : Agent) : Bool :=
  match ag with
  | .foreman => true
  | .full | .engineDbg => h.flag R.dbg_DBG_SESSION_FULL
  | _ => false

/-- Is the agent the debug port? -/
def isDebugPort (ag : Agent) : Bool := match ag with | .full | .engineDbg => true | _ => false

/-- The registers that answer at debug level CLOSED (R509), with the fuse command and its status, which R495 answers itself. -/
def closedReg (o : Nat) : Bool :=
  o = 0x700000 || o = 0x700014 || (0x700020 ≤ o && o < 0x7000C8) || o = 0x700120 || o = 0x700124 || o = 0x500000 ||
    o = 0x500100 || o = 0x500108 || o = 0x500110 || (0x500120 ≤ o && o < 0x500140)
/-- The registers of DBG_ACC, which an ENGINE session reaches too. -/
def accReg (o : Nat) : Bool := 0x700200 ≤ o && o < 0x700218

/-- Does the debug access block answer an agent at an offset? A SCRAPPED device answers LIVENESS and LC_STATUS only. [DEDUCED, log 77, unsafe; DEDUCED, log 95, unsafe] -/
def Hub.dbgOk (h : Hub) (ag : Agent) (o : Nat) : Bool :=
  let port := isDebugPort ag
  if h.fw.lc = 3 then o = 0x700000 || o = 0x500000 || o = 0x500100
  else closedReg o || (port && h.flag R.dbg_DBG_SESSION_FULL) ||
    (port && accReg o && h.fld R.dbg_DBG_SESSION_ENGINE_MASK ≠ 0)

/-- The tally unit of the hub block at an offset (R533). -/
def hubUnit (o : Nat) : Nat :=
  match hubBlockBase o with
  | 0x10 => 3
  | 0x20 => 4
  | 0x30 => 1
  | 0x40 => 2
  | 0x50 => 5
  | 0x60 => 6
  | 0x70 => 5
  | _ => 0

/-- Does a hub register answer an agent? The interrupt unit answers host functions, in part. [DEDUCED, log 77, unsafe] -/
def Hub.blockOk (h : Hub) (ag : Agent) (o : Nat) : Bool :=
  match hubBlockBase o with
  | 0x70 => h.dbgOk ag o
  | 0x50 => if isDebugPort ag then h.dbgOk ag o && (o ≠ R.seal_BOOT_CTL) else h.fmRights ag
  | 0x20 => (match ag with | .host _ => true | _ => h.fmRights ag)
  | _ => h.fmRights ag

/-- The debug module of the Foreman cores (R509): the page at offset 0x1000 of the debug block, which a FULL session reaches. [DESIGN CHOICE, log 76, unsafe] -/
def Hub.coreDebug (h : Hub) (ag : Agent) (o : Nat) : Bool := h.blockOk ag o && 0x701000 ≤ o && o < 0x702000

/-- Is the block at an offset one that R35 marks "Foreman only"? -/
def foremanOnly (o : Nat) : Bool := hubBlockBase o = 0x1 || hubBlockBase o = 0x2

/-- An access that is refused: the debug port's counts in DBG_PORT_REFUSED, another's in the block's ADDR_MISS, and both where the
block is marked "Foreman only" (R35, R509). [DEDUCED, log 77, unsafe] -/
def Hub.refuseAccess (h : Hub) (ag : Agent) (o : Nat) : BusErr × Hub :=
  let h := if foremanOnly o && isDebugPort ag then h.tick (T.ADDR_MISS (hubUnit o)) else h
  if isDebugPort ag || hubBlockBase o = 0x70 then (.closed, h.tick T.DBG_PORT_REFUSED) else (.addr, h.tick (T.ADDR_MISS (hubUnit o)))

/-! ## Reads -/

/-- BENCH_STATUS_n (R53): the flags the hub keeps, and the bench's state and what the last START fixed, also while the bench is OFF
or in FAULT. [DESIGN CHOICE, log 106, unsafe] -/
def Device.benchStatus (d : Device) (n : BenchId) : Nat :=
  let p := (d.bench n).power
  let st := match p.st with | .off => 0 | .starting => 1 | .running => 2 | .draining => 3 | .fault => 4
  Nat.land (d.hub.reg (R.pcr_BENCH_STATUS n.val)).toNat 0xF0000 + st + 2 ^ 3 * p.profile + 2 ^ 4 * p.portMode + 2 ^ 8 * p.hostLink

/-- LC_STATUS (R522). -/
def Hub.lcStatus (h : Hub) : Nat :=
  let w := h.fw
  w.lc + (if w.pendingLc then 4 else 0) + (if w.locked then 8 else 0) + 2 ^ 4 * w.fuses.svn + 2 ^ 11 * w.fuseBad

/-- The events of a word of the status registers that are routed to a function (R529). -/
def Hub.routedTo (h : Hub) (key w : Nat) : Nat :=
  (List.range 32).foldl (fun m i => if (h.route? (32 * w + i)).map (·.1) = some key then m + 2 ^ i else m) 0

/-- RC status registers of the hub whose bit 0 is VALID. -/
def hubRcRegs : List Nat :=
  [R.ep_WIN_COMMIT_STATUS 0, R.ep_WIN_COMMIT_STATUS 1, R.dbg_DBG_CMD_STATUS, R.dbg_FUSE_PROG_STATUS, R.dbg_DBG_ACC_STATUS]

/-- A read of FN_EVENT of a port takes the oldest record (R355). -/
def Hub.fnEventRead (h : Hub) (p : Nat) : Nat × Hub :=
  match sparseGet (fun _ => ([] : List FnEvent)) h.fnq p with
  | [] => (0, h)
  | r :: t =>
    (r.idx + (if r.vf then 2 ^ 11 else 0) + 2 ^ 12 * r.link + 2 ^ 13 * r.kind + 2 ^ 16 + 2 ^ 24 * r.seq,
      { h with fnq := sparseSet (fun _ => ([] : List FnEvent)) h.fnq p t })

/-- A read of an RC register of the hub. [DEDUCED, log 74, unsafe] -/
def Hub.rcRead (h : Hub) (o : Nat) : Option (Nat × Hub) :=
  if hubRcRegs.contains o then
    let w := (h.reg o).toNat
    some (if w % 2 = 1 then (w, h.setReg o 0#32) else (0, h))
  else if o = R.seal_SEAL_STATUS then some h.sealStatusRead
  else if R.seal_SEAL_OUT 0 ≤ o && o < R.seal_SEAL_OUT 4 then some (h.sealOutRead ((o - R.seal_SEAL_OUT 0) / 4))
  else if o = R.ep_FN_EVENT 0 then some (h.fnEventRead 0)
  else if o = R.ep_FN_EVENT 1 then some (h.fnEventRead 1)
  else none

/-- A host function's view of the interrupt unit (R529): the HOST_STATUS bits of the events routed to it. [DEDUCED, log 77, unsafe] -/
def Hub.irqHostRead (h : Hub) (key o : Nat) : Nat :=
  if o = 0x200000 then livenessWord 0x20 0 true
  else if R.irq_HOST_STATUS 0 ≤ o && o < R.irq_HOST_STATUS 22 then
    Nat.land (h.reg o).toNat (h.routedTo key ((o - R.irq_HOST_STATUS 0) / 4))
  else 0

/-- The hub tally pair that an agent may use (R534, R535). -/
def hubPair (ag : Agent) : Option Nat := if ag = .foreman then some 0 else if isDebugPort ag then some 1 else none

/-- A read of the hub register at a word offset, outside the mailbox block. -/
def Device.hubWordRead (d : Device) (ag : Agent) (o : Nat) : DevOut :=
  let h := d.hub
  let ret := fun (v : Nat) => DevOut.ofHub d v none h
  match hubReg? o with
  | none =>
    if h.coreDebug ag o then DevOut.ofHub d 0 none h else
    let r := h.refuseAccess .foreman (if hubBlockBase o = 0x70 then 0x500000 else o)
    if h.blockOk ag o then DevOut.ofHub d 0 (some .addr) r.2
    else DevOut.ofHub d 0 (some (h.refuseAccess ag o).1) (h.refuseAccess ag o).2
  | some r =>
    if !h.blockOk ag o then DevOut.ofHub d 0 (some (h.refuseAccess ag o).1) (h.refuseAccess ag o).2
    else match ag with
      | .host key => ret (h.irqHostRead key o)
      | _ =>
        if o % 0x10000 = 0 && hubBlockBase o * 0x10000 = o then ret (livenessWord (o / 0x10000) 0 true)
        else match h.rcRead o with
          | some (v, h) => DevOut.ofHub d v none h
          | none =>
            if R.pcr_TEMP 0 ≤ o && o < R.pcr_TEMP 16 && (d.bench (benchOf ((o - R.pcr_TEMP 0) / 4))).power.st = .off then ret ((h.reg o).toNat % 2 ^ 12)
            else if R.pcr_BENCH_CTL 0 ≤ o && o < R.pcr_BENCH_CTL 16 && o % 0x20 = 4 then ret (d.benchStatus (benchOf ((o - R.pcr_BENCH_CTL 0) / 0x20)))
            else if R.ep_BENCH_INQ 0 0 ≤ o % 0x100000 + 0x300000 && o % 0x100000 + 0x300000 < R.ep_BENCH_INQ 0 32 && (hubBlockBase o = 0x30 || hubBlockBase o = 0x40) then
              let i := (o % 0x100000 - 0x100) / 4
              let q := h.inqOf (17 * (2 * (o / 0x100000 - 3) + i / 16) + i % 16)
              ret (putBits (putBits (h.reg o).toNat 0 7 (inqCount true q)) 8 5 (inqCount false q))
            else if o = R.seal_LC_STATUS then ret h.lcStatus
            else if R.seal_FUSE_READ 0 ≤ o && o < R.seal_FUSE_READ 8 then
              ret (getBits (h.fw.fuses.readField (h.fld R.seal_FUSE_READ_SEL_FIELD)) (8 * (o - R.seal_FUSE_READ 0)) 32)
            else if 0x202100 ≤ o && o < 0x202140 then
              if hubPair ag ≠ some ((o - 0x202100) / 0x20) then DevOut.ofHub d 0 (some .addr) (h.tick (T.ADDR_MISS 4))
              else ret (if o % 0x20 = 0 then 0 else (h.reg o).toNat)
            else if hubBlockBase o = 0x60 then
              let q := h.sideRead o (r.readable (h.reg o).toNat)
              DevOut.ofHub d q.1 none q.2
            else ret (r.readable (h.reg o).toNat)

/-! ## Writes -/

/-- The default of WARN_C by ordering code (R572). -/
def warnReset (p : Part) : Nat := match p with | .fe => 110 | _ => 100

/-- FM_WDOG (R550, R553). -/
def Hub.wdogWrite (h : Hub) (v : Nat) : Hub :=
  let on := h.flag R.pcr_FM_WDOG_EN
  let p := getBits v 0 16
  let h := if p = h.fld R.pcr_FM_WDOG_PERIOD then h else h.setIf (!on && p ≠ 0) R.pcr_FM_WDOG_PERIOD p
  let h := if bit v 16 && !on then (h.setFld R.pcr_FM_WDOG_EN 1).updFw (fun w => { w with wdog := 0 }) else h
  if bit v 17 then h.updFw (fun w => { w with wdog := 0 }) else h

/-- CFG_READY (R553): a 1 sets READY_p, a 0 on a set bit is refused. [DEDUCED, log 79, unsafe] -/
def Hub.cfgReadyWrite (h : Hub) (v : Nat) : Hub :=
  [0, 1].foldl (fun h p => if bit v p then h.setReady p else if h.ready p then h.tick T.HUB_CFG_REFUSED else h) h

/-- FM_MASK takes a value: each set flag that is unmasked raises the Foreman's event interrupt (R527). -/
def Hub.fmMaskWrite (h : Hub) (o v : Nat) : Hub :=
  let w := (o - R.irq_FM_MASK 0) / 4
  let fresh := Nat.land (Nat.land (h.reg (R.irq_FM_STATUS w)).toNat (h.reg o).toNat) (2 ^ 32 - 1 - v)
  let k := ((List.range 32).filter (fun i => bit fresh i)).length
  { h.setReg o (BitVec.ofNat 32 v) with fmInts := h.fmInts + k }

/-- The tally that word 0 of a TALLY_ID names: a hub tally, or a tally of the bench that BENCH names; none where it names none (R532
to R534). [DEDUCED, log 78, unsafe] -/
def Device.tallyOf (d : Device) (id : Nat) : Option Nat :=
  if bit id 31 then
    if hubTallyNamed id then
      some (d.hub.tally (if id / 2 ^ 22 % 32 = 0 && 2 ≤ id / 2 ^ 14 % 256 && id / 2 ^ 14 % 256 < 6 then id % 2 ^ 31 else tallyKeyOf id))
    else none
  else if benchTallyNamed id then some ((d.bench (benchOf (id / 2 ^ 27 % 16))).tally (tallyKeyOf id)) else none

/-- Take a snapshot in a hub pair (R534). [DEDUCED, log 78, unsafe] -/
def Device.hubSnap (d : Device) (r w1 : Nat) : Device :=
  let h := d.hub
  let t := if w1 = 0 then d.tallyOf (h.reg (R.irq_TALLY_SEL r)).toNat else none
  let v := t.getD 0
  let st := (if t.isSome then 1 else 0) + (if v = tallyMax then 2 else 0)
  let h := h.setReg (R.irq_TALLY_SNAP_STATUS r) (BitVec.ofNat 32 st)
  { d with hub := (h.setReg (R.irq_TALLY_SNAP r 0) (BitVec.ofNat 32 v)).setReg (R.irq_TALLY_SNAP r 1) (BitVec.ofNat 32 (v / 2 ^ 32)) }

/-- Is a PF the first of its link (R328)? -/
def Hub.isFirstPf (h : Hub) (p f : Nat) : Bool := f = 0 || (f = 4 && h.split p)

/-- Would FN_CFG and FN_VEC as they stand in `h` break R328 or R340? -/
def Hub.fnBad (h : Hub) : Bool :=
  let all := (List.range 16).map (fun i => (i / 8, i % 8))
  let vfs := fun (x : Nat × Nat) => h.fld (R.ep_FN_CFG_TOTAL_VFS x.1 x.2)
  let sum := (all.map (fun x => h.fld (R.ep_FN_VEC_PF_VECTORS x.1 x.2) + vfs x * h.fld (R.ep_FN_VEC_VF_VECTORS x.1 x.2))).sum
  let link := fun (p k : Nat) => ((all.filter (fun x => x.1 = p && (!h.split p || x.2 / 4 = k))).map vfs).sum
  let limit := fun (p : Nat) => if h.split p then 1024 else 2048
  4096 < sum || all.any (fun x => vfs x ≠ 0 && h.fld (R.ep_FN_VEC_VF_VECTORS x.1 x.2) = 0) ||
    [0, 1].any (fun p => limit p < link p 0 || limit p < link p 1)

/-- A write of FN_CFG_f (R330, R340, R354): frozen fields keep their values once the port is ready; a write that repeats them is one to
HOME_BENCH. [DEDUCED, log 79, unsafe] -/
def Hub.fnCfgWrite (h : Hub) (p f v : Nat) : Hub :=
  let old := (h.reg (R.ep_FN_CFG p f)).toNat
  let frozen := 0x0FFF0061
  if h.ready p then
    let h := h.setFld (R.ep_FN_CFG_HOME_BENCH p f) (getBits v 1 4)
    if Nat.land (Nat.xor old v) frozen ≠ 0 then h.tick T.HUB_CFG_REFUSED else h
  else
    let t := h.setFld (R.ep_FN_CFG_TOTAL_VFS p f) (getBits v 16 12)
    if t.fnBad then h.tick T.HUB_CFG_REFUSED
    else
      let t := t.setFld (R.ep_FN_CFG_HOME_BENCH p f) (getBits v 1 4)
      let t := t.setIf (getBits v 5 2 ≠ 3) (R.ep_FN_CFG_CLASS p f) (getBits v 5 2)
      let t := t.setIf (bit v 0 || !h.isFirstPf p f) (R.ep_FN_CFG_ENABLE p f) (v % 2)
      if !h.flag (R.ep_FN_CFG_ENABLE p f) && t.flag (R.ep_FN_CFG_ENABLE p f) then t.clearMbx (8 * p + f) else t

/-- A write of FN_VEC_f (R330, R340, R354). [DEDUCED, log 79, unsafe] -/
def Hub.fnVecWrite (h : Hub) (p f v : Nat) : Hub :=
  let pv := getBits v 0 12
  let vv := getBits v 16 12
  let t := (h.setFld (R.ep_FN_VEC_PF_VECTORS p f) pv).setFld (R.ep_FN_VEC_VF_VECTORS p f) vv
  if h.ready p then h.tick T.HUB_CFG_REFUSED
  else if pv = 0 || 2048 < pv || 2048 < vv || t.fnBad then h.tick T.HUB_CFG_REFUSED
  else t

/-- A write of a register of an endpoint block (R352 to R355). -/
def Device.epWrite (d : Device) (o v : Nat) : Device :=
  let h := d.hub
  let p := o / 0x100000 - 3
  let x := o % 0x100000
  let on := fun (h : Hub) => { d with hub := h }
  if 0x200 ≤ x && x < 0x280 then
    if x % 0x10 = 0 then on (h.fnCfgWrite p ((x - 0x200) / 0x10) v) else on (h.fnVecWrite p ((x - 0x200) / 0x10) v)
  else if x = 0x3000 then
    let key := fnKey p (bit v 11) (v % 2048)
    d.run (benchOf (h.homeBench key)) (winCommit (benchOf (h.homeBench key)) key)
  else on (h.plainWrite o v)

/-- A write of a register of the sealing block (R503, R507, R521). -/
def Hub.sealWrite (h : Hub) (o v : Nat) : Hub :=
  let put := h.setReg o (BitVec.ofNat 32 v)
  if o = R.seal_SEAL_CTL then h.sealCtl v
  else if o = R.seal_SEAL_LOCK then h.setReg o (BitVec.ofNat 32 (Nat.lor (h.reg o).toNat (v % 4)))
  else if R.seal_SEAL_KEY 0 ≤ o && o < R.seal_SEAL_KEY 8 then (if h.flag R.seal_SEAL_LOCK_KEY_LOCK then h.tick T.SEAL_REFUSED else put)
  else if (R.seal_SEAL_IN 0 ≤ o && o < R.seal_SEAL_IN 4) || (R.seal_UNWRAP_BLOB 0 ≤ o && o < R.seal_UNWRAP_BLOB 20) then put
  else if o = R.seal_BOOT_CTL then h.bootCtl v
  else h.plainWrite o v

/-- A write of a register of the power, clock and reset manager (R51 to R55, R552, R572). -/
def Device.pcrWrite (d : Device) (o v : Nat) : Device :=
  let h := d.hub
  let on := fun (h : Hub) => { d with hub := h }
  if o = R.pcr_HUB_CLK_SRC then on (h.updFw (fun w => { w with hubSrc := v % 4 }))
  else if o = R.pcr_CFG_READY then on (h.cfgReadyWrite v)
  else if o = R.pcr_FM_WDOG then on (h.wdogWrite v)
  else if o = R.pcr_THERM_CTL then on (h.setIf (v % 2 ^ 8 ≤ warnReset h.fw.part) R.pcr_THERM_CTL_WARN_C v)
  else if R.pcr_BENCH_CTL 0 ≤ o && o < R.pcr_BENCH_CTL 16 && o % 0x20 = 0 then
    let n := benchOf ((o - R.pcr_BENCH_CTL 0) / 0x20)
    d.run n (benchCtlWrite n v)
  else on (h.plainWrite o v)

/-- A host function's write to the interrupt unit (R529). [DEDUCED, log 77, unsafe] -/
def Hub.irqHostWrite (h : Hub) (key o v : Nat) : Hub :=
  if R.irq_HOST_STATUS 0 ≤ o && o < R.irq_HOST_STATUS 22 then
    let mine := h.routedTo key ((o - R.irq_HOST_STATUS 0) / 4)
    let h := h.setReg o (BitVec.ofNat 32 (Nat.land (h.reg o).toNat (2 ^ 32 - 1 - Nat.land v mine)))
    if Nat.land v (2 ^ 32 - 1 - mine) ≠ 0 then h.tick T.EVT_FOREIGN else h
  else h.tick T.EVT_FOREIGN

/-- A write of a register of the interrupt unit by the Foreman or a FULL session (R527, R534 to R536). It never clears HOST_STATUS (R528). [DEDUCED, log 150, unsafe] -/
def Device.irqWrite (d : Device) (ag : Agent) (o v : Nat) : DevOut :=
  let h := d.hub
  let on := fun (h : Hub) => DevOut.ofHub d 0 none h
  if R.irq_FM_MASK 0 ≤ o && o < R.irq_FM_MASK 22 then on (h.fmMaskWrite o v)
  else if R.irq_HOST_STATUS 0 ≤ o && o < R.irq_HOST_STATUS 22 then on h
  else if R.irq_HUB_CE_CFG 0 ≤ o && o < R.irq_HUB_CE_CFG 4 then
    let k := (o - R.irq_HUB_CE_CFG 0) / 4
    let h := h.setIf (v % 2 ^ 8 ≠ 0) (R.irq_HUB_CE_CFG_CAPACITY k) v
    let h := h.setIf (10 ≤ getBits v 8 5) (R.irq_HUB_CE_CFG_LEAK_SHIFT k) (v / 2 ^ 8)
    on (if bit v 24 then h.setFld (R.irq_HUB_CE_CFG_OVERFLOW k) 0 else h)
  else if 0x202100 ≤ o && o < 0x202140 then
    let r := (o - 0x202100) / 0x20
    if hubPair ag ≠ some r then DevOut.ofHub d 0 (some .addr) (h.tick (T.ADDR_MISS 4))
    else match o % 0x20 with
      | 0 => on (h.setReg (R.irq_TALLY_SEL r) (BitVec.ofNat 32 v))
      | 4 => { val := 0, err := none, dev := d.hubSnap r v }
      | _ => on (h.tick (T.RSVD_WRITE 4))
  else on (h.plainWrite o v)

/-- A write of a register of the debug access block but DBG_ACC, which the access itself carries out (R509, R521). -/
def Device.dbgWrite (d : Device) (ag : Agent) (o v : Nat) : Device :=
  let h := d.hub
  let port := isDebugPort ag
  let on := fun (h : Hub) => { d with hub := h }
  let put := on (h.setReg o (BitVec.ofNat 32 v))
  if R.dbg_DBG_TOKEN 0 ≤ o && o < R.dbg_DBG_TOKEN 40 then put
  else if o = R.dbg_DBG_CMD then d.dbgCmd port v
  else if R.dbg_FUSE_PROG_DATA 0 ≤ o && o < R.dbg_FUSE_PROG_DATA 8 then put
  else if o = R.dbg_FUSE_PROG_CMD then on (h.fuseProg port (v % 16) 0)
  else if R.dbg_DBG_ADDR 0 ≤ o && o < R.dbg_DBG_ACC then put
  else d

/-- A reserved or read-only bit of a hub register is written (R13, R14); the tally pairs count nothing. [DEDUCED, log 70, unsafe] -/
def Hub.rsvd (h : Hub) (r : RegDesc) (o v : Nat) : Hub :=
  if 0x202100 ≤ o && o < 0x202140 then h else if r.rsvdHit v then h.tick (T.RSVD_WRITE (hubUnit o)) else h

/-- A write of the hub register at a word offset, outside the mailbox block. -/
def Device.hubWordWrite (d : Device) (ag : Agent) (o v : Nat) : DevOut :=
  let h := d.hub
  match hubReg? o with
  | none =>
    if h.coreDebug ag o then DevOut.ofHub d 0 none h else
    let r := h.refuseAccess .foreman (if hubBlockBase o = 0x70 then 0x500000 else o)
    if h.blockOk ag o then DevOut.ofHub d 0 (some .addr) r.2
    else DevOut.ofHub d 0 (some (h.refuseAccess ag o).1) (h.refuseAccess ag o).2
  | some r =>
    if !h.blockOk ag o then DevOut.ofHub d 0 (some (h.refuseAccess ag o).1) (h.refuseAccess ag o).2
    else match ag with
      | .host key => DevOut.ofHub d 0 none (h.irqHostWrite key o v)
      | _ =>
        let d := { d with hub := h.rsvd r o v }
        let done := fun (d : Device) => ({ val := 0, err := none, dev := d } : DevOut)
        if o = 0x10000 * hubBlockBase o then done d
        else match hubBlockBase o with
        | 0x1 => done (d.pcrWrite o v)
        | 0x20 => d.irqWrite ag o v
        | 0x30 => done (d.epWrite o v)
        | 0x40 => done (d.epWrite o v)
        | 0x50 => done { d with hub := d.hub.sealWrite o v }
        | 0x60 => done { d with hub := d.hub.sideWrite o v }
        | 0x70 => done (d.dbgWrite ag o v)
        | _ => done d

/-! ## Any internal address (R34) -/

/-- Where an internal address lies. -/
inductive Where where
  | hub (o : Nat) | sram (o : Nat) | rom (o : Nat) | bench (n : BenchId) (o : Nat) | none
deriving DecidableEq, Repr

def whereIs (a size : Nat) : Where :=
  if a + size ≤ 0x1000000 then .hub a
  else if 0x10000000 ≤ a && a + size ≤ 0x10800000 then .sram a
  else if 0x20000000 ≤ a && a + size ≤ 0x20040000 then .rom (a - 0x20000000)
  else if 0x100000000000 ≤ a && a < 0x200000000000 then .bench (benchOf ((a - 0x100000000000) / 0x10000000000)) (a % 0x10000000000)
  else .none

/-- The SECRETS region (R499) answers the Foreman's cores only. -/
def inSecrets (a : Nat) : Bool := 0x107F0000 ≤ a && a < 0x10800000

/-- Correctable errors of a hub memory feed its counter (R526). -/
def Hub.correctable (h : Hub) (k n : Nat) : Hub :=
  if n = 0 then h else
  let h := h.count (T.HUB_CE_TOTAL k) n
  let lvl := h.fld (R.irq_HUB_CE_CFG_LEVEL k) + n
  if h.fld (R.irq_HUB_CE_CFG_CAPACITY k) < lvl then
    ((((h.setFld (R.irq_HUB_CE_CFG_LEVEL k) 0).setFld (R.irq_HUB_CE_CFG_OVERFLOW k) 1).tick (T.HUB_CE_OVERFLOW k)).setFld
      R.irq_HUB_CE_LOG_COUNTER k).raise 640
  else h.setFld (R.irq_HUB_CE_CFG_LEVEL k) lvl

/-- Is the bench there for its requester: a host finds it RUNNING (R49), the Foreman and debug find it powered and cleared? [DEDUCED, log 34, unsafe] -/
def Bench.answers (b : Bench) (ag : Agent) : Bool :=
  match ag with | .host _ => b.power.st = .running | _ => b.awake

/-- A read of the mailbox block by an agent. -/
def Device.mbxRead (d : Device) (ag : Agent) (x size : Nat) : DevOut :=
  let ans := fun (r : Option Nat × Hub) => DevOut.ofHub d (r.1.getD 0) (if r.1.isSome then none else some .addr) r.2
  match ag with
  | .host key => ans (d.hub.mbxBlockHostRead key x size)
  | _ =>
    if !d.hub.fmRights ag then DevOut.ofHub d 0 (some (d.hub.refuseAccess ag 0x100000).1) (d.hub.refuseAccess ag 0x100000).2
    else ans (d.hub.mbxBlockFmRead x size)
/-- A write of the mailbox block by an agent. -/
def Device.mbxWrite (d : Device) (ag : Agent) (x size v : Nat) : DevOut :=
  match ag with
  | .host key =>
    let r := d.hub.mbxBlockHostWrite key x size v
    DevOut.ofHub d 0 (if r.1 then none else some .addr) r.2
  | _ =>
    if !d.hub.fmRights ag then DevOut.ofHub d 0 (some (d.hub.refuseAccess ag 0x100000).1) (d.hub.refuseAccess ag 0x100000).2
    else
      let r := d.mbxBlockFmWrite x (v % 2 ^ 32)
      if size = 8 && r.1.isNone && (mbxReg (x % 128 + 4)).isSome then
        let q := r.2.mbxBlockFmWrite (x + 4) (v / 2 ^ 32)
        { val := 0, err := q.1, dev := q.2 }
      else { val := 0, err := r.1, dev := r.2 }

/-- A read of hub registers. -/
def Device.hubRead (d : Device) (ag : Agent) (o size : Nat) : DevOut :=
  if hubBlockBase o = 0x10 then d.mbxRead ag (o - 0x100000) size
  else
    let p := d.hubWordRead ag (o / 4 * 4)
    if size = 8 then
      let q := p.dev.hubWordRead ag (o + 4)
      { val := p.val + 2 ^ 32 * q.val, err := if p.err.isSome then p.err else q.err, dev := q.dev }
    else { p with val := getBits p.val (8 * (o % 4)) (8 * size) }

/-- A write of fewer than four bytes keeps the RW bits of the bytes it does not write. [DEDUCED, log 70, unsafe] -/
def Hub.mergeReg (h : Hub) (o size v : Nat) : Nat :=
  let a := o / 4 * 4
  let rw := match hubReg? a with | some r => r.mask .rw | none => 0
  putBits (Nat.land (h.reg a).toNat rw) (8 * (o % 4)) (8 * size) v

/-- A write of hub registers. -/
def Device.hubWrite (d : Device) (ag : Agent) (o size v : Nat) : DevOut :=
  if hubBlockBase o = 0x10 then d.mbxWrite ag (o - 0x100000) size v
  else if size = 8 then
    let p := d.hubWordWrite ag o (v % 2 ^ 32)
    if p.err.isSome then p else p.dev.hubWordWrite ag (o + 4) (v / 2 ^ 32 % 2 ^ 32)
  else d.hubWordWrite ag (o / 4 * 4) (if size = 4 then v % 2 ^ 32 else d.hub.mergeReg o size v)

/-- A refused address outside the hub's blocks. -/
def Device.addrMiss (d : Device) : DevOut := DevOut.ofHub d 0 (some .addr) (d.hub.tick (T.ADDR_MISS 0))

/-- A read of `size` bytes (1, 2, 4 or 8, aligned) at an internal address. [DEDUCED, log 34, unsafe] -/
def Device.busRead (d : Device) (ag : Agent) (a size : Nat) (ecc : Ecc) : DevOut :=
  match whereIs a size with
  | .hub o => d.hubRead ag o size
  | .sram a =>
    if !d.hub.fmRights ag || (inSecrets a && ag ≠ .foreman) then d.addrMiss
    else DevOut.ofHub d (leNat (memBytes d.hub.mem a size)) none (d.hub.correctable 0 (ecc.cor (a / 8 * 8) (a / 8 * 8 + 8)))
  | .rom o =>
    if !d.hub.fmRights ag then d.addrMiss
    else DevOut.ofHub d (leNat ((List.range size).map (fun i => Config.bootRom (o + i)))) none d.hub
  | .bench n o =>
    let b := d.bench n
    if !b.answers ag then DevOut.ofHub d 0 none d.hub
    else
      let r := Machine.busRead n ag o size ecc d.hub b
      { val := r.val, err := r.err, dev := d.run n (fun h b => let r := Machine.busRead n ag o size ecc h b; (r.hub, r.bench)) }
  | .none => d.addrMiss

/-- A write of `size` bytes at an internal address. The boot ROM refuses one as an address that holds nothing to write. [DEDUCED, log 34, unsafe; DESIGN CHOICE, log 107, unsafe] -/
def Device.busWrite (d : Device) (ag : Agent) (a size v : Nat) (ecc : Ecc) : DevOut :=
  match whereIs a size with
  | .hub o => d.hubWrite ag o size v
  | .sram a =>
    if !d.hub.fmRights ag || (inSecrets a && ag ≠ .foreman) then d.addrMiss
    else
      let h := d.hub.correctable 0 (if size < 8 then ecc.cor (a / 8 * 8) (a / 8 * 8 + 8) else 0)
      DevOut.ofHub d 0 none { h with mem := memWrite h.mem a (leBytes size v) }
  | .rom _ => d.addrMiss
  | .bench n o =>
    let b := d.bench n
    if !b.answers ag then DevOut.ofHub d 0 none d.hub
    else
      let r := Machine.busWrite n ag o size v ecc d.hub b
      { val := 0, err := r.err, dev := d.run n (fun h b => let r := Machine.busWrite n ag o size v ecc h b; (r.hub, r.bench)) }
  | .none => d.addrMiss

/-! ## DBG_ACC (R514) -/

/-- DBG_ACC_STATUS takes a result. [DESIGN CHOICE, log 75, unsafe] -/
def Hub.accStatus (h : Hub) (bad : Bool) : Hub :=
  h.postStatus R.dbg_DBG_ACC_STATUS (if bad then 2 else 0) 16 0 T.HUB_COMMIT_STATUS_LOST

/-- May the sessions that are open reach an address? [DESIGN CHOICE, log 75, unsafe] -/
def Hub.accReach (h : Hub) (a size : Nat) : Bool :=
  h.flag R.dbg_DBG_SESSION_FULL ||
    (match whereIs a size with
     | .bench n _ => bit (h.fld R.dbg_DBG_SESSION_ENGINE_MASK) n.val
     | _ => false)

/-- A write of DBG_ACC: one aligned access at DBG_ADDR under the target's rules, as the Foreman's would be. [DESIGN CHOICE, log 75, unsafe] -/
def Device.dbgAcc (d : Device) (v : Nat) (ecc : Ecc) : Device :=
  let h := d.hub
  let a := h.wordsAt (R.dbg_DBG_ADDR 0) 2 % 2 ^ 48
  let size := 2 ^ getBits v 2 2
  let rd := bit v 0
  let wr := bit v 1
  let fin := fun (d : Device) (bad : Bool) => { d with hub := d.hub.accStatus bad }
  if !rd && !wr then d
  else if rd && wr then fin d true
  else if a % size ≠ 0 then fin d true
  else if !h.accReach a size then fin { d with hub := h.tick T.DBG_PORT_REFUSED } true
  else if rd then
    let r := d.busRead .full a size ecc
    let g := r.dev.hub
    let g := if r.err.isSome then g
      else (g.setReg (R.dbg_DBG_DATA 0) (BitVec.ofNat 32 r.val)).setReg (R.dbg_DBG_DATA 1) (BitVec.ofNat 32 (r.val / 2 ^ 32))
    fin { r.dev with hub := g } r.err.isSome
  else
    let r := d.busWrite .full a size (h.wordsAt (R.dbg_DBG_DATA 0) 2 % 2 ^ (8 * size)) ecc
    fin r.dev r.err.isSome
/-- DBG_ACC: `port` for the debug port; the Foreman's write is refused (R509). -/
def execDbgAcc (port : Bool) (v : Word) (ecc : Ecc) (s : State) : Host.Outcome State Fault Refusal :=
  let h := s.dev.hub
  let ag : Agent := if port then .engineDbg else .foreman
  .next { s with dev :=
    if !h.up then s.dev
    else if h.dbgOk ag R.dbg_DBG_ACC then s.dev.dbgAcc v.toNat ecc
    else { s.dev with hub := h.tick T.DBG_PORT_REFUSED } }

/-! ## REG_WRITE and RC_REGISTER_READ -/

/-- An agent as the open sessions make it: the debug port has FULL rights only while FULL is open. -/
def Hub.agentNow (h : Hub) (ag : Agent) : Agent :=
  if isDebugPort ag then (if h.flag R.dbg_DBG_SESSION_FULL then .full else .engineDbg) else ag

/-- A write of `size` bytes at an internal address, with DBG_ACC carried out. -/
def Device.write (d : Device) (ag : Agent) (a size v : Nat) (ecc : Ecc) : DevOut :=
  let ag := d.hub.agentNow ag
  if a = R.dbg_DBG_ACC && d.hub.dbgOk ag a then { val := 0, err := none, dev := d.dbgAcc v ecc }
  else if ag = .engineDbg && (whereIs a size) ≠ .hub a then DevOut.ofHub d 0 (some .closed) (d.hub.tick T.DBG_PORT_REFUSED)
  else d.busWrite ag a size v ecc

/-- May an agent make an access of its own at an internal address? A thread stays in its bench, a host goes through its windows. -/
def ownPath (ag : Agent) : Bool := match ag with | .foreman | .full | .engineDbg => true | _ => false

/-- REG_WRITE: an agent writes a register word at an internal address. -/
def execRegWrite (ag : Agent) (a : Nat) (v : Word) (ecc : Ecc) (s : State) : Host.Outcome State Fault Refusal :=
  .next { s with dev :=
    if !s.dev.hub.up || !ownPath ag then s.dev else (s.dev.write ag (a / 4 * 4 % 2 ^ 48) 4 v.toNat ecc).dev }

/-- RC_REGISTER_READ: an agent reads an RC register, of 4 or 8 bytes. -/
def execRcRegisterRead (ag : Agent) (a : Nat) (wide : Bool) (s : State) : Host.Outcome State Fault Refusal :=
  let size := if wide then 8 else 4
  let g := s.dev.hub.agentNow ag
  let r := if g = .engineDbg && (whereIs a size) ≠ .hub a then DevOut.ofHub s.dev 0 (some .closed) (s.dev.hub.tick T.DBG_PORT_REFUSED)
    else s.dev.busRead g (a / size * size % 2 ^ 48) size []
  .next { s with dev :=
    if !s.dev.hub.up || !ownPath ag then s.dev else { r.dev with answer := if r.err.isSome then [] else [r.val] } }

/-- TALLY_SNAPSHOT: TALLY_SEL word 1 of the agent's own pair is written with `w1` behind word 0: of bench `n`, or of the hub.
The debug port reaches a pair in a FULL session (R509). -/
def execTallySnapshot (ag : Agent) (n : Option BenchId) (id w1 : Word) (s : State) : Host.Outcome State Fault Refusal :=
  let d := s.dev
  .next { s with dev :=
    if !d.hub.up then d
    else if d.hub.agentNow ag = .engineDbg then { d with hub := d.hub.tick T.DBG_PORT_REFUSED }
    else match n with
    | some n => d.run n (fun h b => (h, if !b.awake then b else match agentPair ag with
        | some r => (b.setReg (R.err_TALLY_SEL r) id).tallySnap r w1.toNat
        | none => b.tick (T.ADDR_MISS 0)))
    | none => match hubPair ag with
      | some r => { d with hub := d.hub.setReg (R.irq_TALLY_SEL r) id }.hubSnap r w1.toNat
      | none => { d with hub := d.hub.tick (T.ADDR_MISS 4) } }

end Sys2Proof.Machine
end

