-- ==== Sys2Proof/Machine/HostAccess.lean ====
section
/-! DEFINITION. Host requests in the BARs of a function (R326, R334, R336, R339, R340, R342, R346, R348, R372): windows,
translation, refusals, completions. -/
namespace Sys2Proof.Machine

/-! ## The gate before a BAR (R326, R334, R348, R515, R542) -/

/-- How a host request of a function finds its link and its port: no link to carry it; a function that answers Unsupported
Request; or served. -/
inductive Gate where
  | silent | unsupported | served
deriving DecidableEq, Repr

/-- [DESIGN CHOICE, log 27, unsafe] -/
def Hub.gate (h : Hub) (key : Nat) : Gate :=
  let st := h.linkState (h.linkOf key)
  if st = 0 || st = 3 then .silent
  else if st = 1 || !h.ready (fnPort key) || h.inReset key || h.inD3 key || !h.present key then .unsupported
  else .served

/-- A memory write that a function drops (R339, R348, R515). [DESIGN CHOICE, log 27, unsafe] -/
def Hub.writeDrop (h : Hub) (key : Nat) : Hub := h.tickLink T.WINDOW_WRITE_DROP key

/-- What befalls a TLP in the endpoint's buffer: 1 a correctable ECC error; 2 an uncorrectable one, 3 a malformed TLP, 4 an overflow of
the receiver, with each of which the TLP is discarded (R350, R526). -/
def Hub.bufferEcc (h : Hub) (key buf : Nat) (hdr : List Nat) : Hub :=
  let l := h.linkOf key
  match buf with
  | 0 => h
  | 1 => (h.correctable (1 + fnPort key) 1).logAer (firstPf l) aerCorrected
  | 2 => h.logAer (firstPf l) aerInternal
  | 3 => h.logAer (firstPf l) aerMalformed hdr
  | _ => h.logAer (firstPf l) aerOverflow

/-- A posted request finds its queue full: of a bench, or of the hub (R334). -/
def Device.inqDrop (d : Device) (key : Nat) (n : Option BenchId) (hdr : List Nat) : Device :=
  match n with
  | some n => d.run n (fun h b => (h.logAdvisory key aerAbort hdr, (b.tick T.HOST_REQ_DROP).raise 5))
  | none => { d with hub := ((d.hub.tickLink T.HUB_INQ_DROP key).logAdvisory key aerAbort hdr).raise 661 }

/-! ## Translation (R336, R337) -/

/-- Entry and offset in its page for an offset of the control window; none where the window has no page. -/
def Hub.ctlPage (h : Hub) (key off : Nat) : Nat × Nat :=
  let j := off / 65536
  (if (if fnVf key then 1 else 1024) ≤ j then 0 else h.winEntry (ctlEntryAt key j), off % 65536)
/-- Entry and offset in its page for an offset of the doorbell window. -/
def Hub.dbPage (h : Hub) (key off : Nat) : Nat × Nat :=
  let j := off / 4096
  (if (if fnVf key then 4 else 32) ≤ j then 0 else h.winEntry (dbEntryAt key j), off % 4096)
/-- The internal address of a control-window offset. -/
def ctlAddr (e off : Nat) : Nat := 65536 * getBits e 16 32 + off

/-- The bench whose queue a request in a BAR goes to; none for the hub's queue. -/
def Hub.queueOf (h : Hub) (key bar off : Nat) : Option BenchId :=
  match bar with
  | 0 =>
    let e := (h.ctlPage key off).1
    if bit e 0 then (match whereIs (ctlAddr e 0) 1 with | .bench n _ => some n | _ => none) else none
  | 1 =>
    let e := (h.dbPage key off).1
    if bit e 0 then some (benchOf (getBits e 1 4)) else none
  | _ => none

/-- The aligned pieces of 8, 4, 2 or 1 bytes of an access: offset and size. [DESIGN CHOICE, log 29, unsafe] -/
def pieces : Nat → Nat → Nat → List (Nat × Nat)
  | 0, _, _ => []
  | fuel + 1, a, n =>
    if n = 0 then []
    else
      let k := if a % 8 = 0 && 8 ≤ n then 8 else if a % 4 = 0 && 4 ≤ n then 4 else if a % 2 = 0 && 2 ≤ n then 2 else 1
      (a, k) :: pieces fuel (a + k) (n - k)

/-- The NVMe register page that an address of a bench's DRAM is (R419): bench offset in the page and the controller. -/
def Bench.nvmePageAt (b : Bench) (o : Nat) : Option (Nat × Nat) :=
  b.rings.claims.findSome? (fun c =>
    let lo := dramBase + 65536 * c.2.pageBase
    if c.2.pages ≠ 0 && lo ≤ o && o < lo + 65536 then (b.ctrlOf c.1).map (fun k => (k, o - lo)) else none)

/-- The controller's register page at an address, while its bench runs. -/
def Device.nvmeAt (d : Device) (a : Nat) : Option (BenchId × Nat × Nat) :=
  match whereIs a 1 with
  | .bench n o => if (d.bench n).power.st = .running then ((d.bench n).nvmePageAt o).map (fun x => (n, x.1, x.2)) else none
  | _ => none

/-- One piece of a control-window read. -/
def Device.hostPieceRead (d : Device) (key a size : Nat) (ecc : Ecc) : DevOut :=
  match d.nvmeAt a with
  | some (n, k, off) =>
    let w := fun (o : Nat) => (d.bench n).nvmeWord k (o / 4 * 4)
    let v := if size = 8 then w off + 2 ^ 32 * w (off + 4) else getBits (w off) (8 * (off % 4)) (8 * size)
    { val := v, err := none, dev := d }
  | none => d.busRead (.host key) a size ecc
/-- One piece of a control-window write. -/
def Device.hostPieceWrite (d : Device) (key a size v : Nat) (ecc : Ecc) : DevOut :=
  match d.nvmeAt a with
  | some (n, k, off) =>
    let d := d.run n (fun h b =>
      if size < 4 then (h, b.tick T.NVME_REG_IGNORED)
      else
        let r := nvmeWriteWord n k off (v % 2 ^ 32) h b
        if size = 8 then nvmeWriteWord n k (off + 4) (v / 2 ^ 32) r.1 r.2 else r)
    { val := 0, err := none, dev := d }
  | none => d.busWrite (.host key) a size v ecc

/-! ## The MSI-X window (R340, R348) -/

/-- A word of the MSI-X table or of the PBA. -/
def Hub.msixWord (h : Hub) (key o : Nat) : Nat :=
  if o < 0x8000 then
    let e := h.msixAt key (o / 16)
    if h.tableSize key ≤ o / 16 then 0
    else match o % 16 / 4 with
      | 0 => e.addr % 2 ^ 32
      | 1 => e.addr / 2 ^ 32
      | 2 => e.data
      | _ => if e.mask then 1 else 0
  else
    let base := 8 * (o - 0x8000)
    (h.fn key).pend.foldl (fun m v => if base ≤ v.1 && v.1 < base + 32 then Nat.lor m (2 ^ (v.1 - base)) else m) 0
/-- Does a word of the MSI-X window lie beyond the function's table? -/
def Hub.msixBeyond (h : Hub) (key o : Nat) : Bool := 0x8000 ≤ o || h.tableSize key ≤ o / 16
/-- A word of the MSI-X table is written; one beyond Table Size is ignored. The PBA is read-only. -/
def Hub.msixWrite (h : Hub) (key o v : Nat) : Hub :=
  if h.msixBeyond key o then h
  else
    let e := h.msixAt key (o / 16)
    let e : MsixEnt := match o % 16 / 4 with
      | 0 => { e with addr := v + 2 ^ 32 * (e.addr / 2 ^ 32) }
      | 1 => { e with addr := e.addr % 2 ^ 32 + 2 ^ 32 * v }
      | 2 => { e with data := v }
      | _ => { e with mask := bit v 0 }
    (h.setMsix key (o / 16) e).sendPending key

/-! ## Reads (HOST_MEM_READ) -/

/-- A completion goes to the window of the bench that holds the target, or of the function's HOME_BENCH (R30, R332). -/
def Device.complete (d : Device) (n : Option BenchId) (t : Tlp) : Device :=
  match n with
  | some n => if (d.bench n).live then d.run n (fun h b => (h, { b with tlps := b.tlps ++ [t] })) else { d with hub := d.hub.queueTlp t }
  | none => { d with hub := d.hub.queueTlp t }

/-- What a read comes to: its status (0 SC, 1 UR, 2 CA), EP, its bytes, the device. -/
structure HostOut where
  st : Nat
  ep : Bool
  data : List Byte
  dev : Device
deriving DecidableEq, Repr

/-- A read of a mapped control page, piece by piece: refused by the target under rule 4, poisoned under rule 5. [DESIGN CHOICE, log 29, unsafe] -/
def Device.ctlRead (d : Device) (key a size : Nat) (ecc : Ecc) : HostOut :=
  (pieces size a size).foldl (fun (r : HostOut) p =>
    if r.st ≠ 0 then r
    else
      let x := r.dev.hostPieceRead key p.1 p.2 ecc
      match x.err with
      | none => { r with data := r.data ++ leBytes p.2 x.val, dev := x.dev }
      | some .ecc => { r with ep := true, data := r.data ++ leBytes p.2 0, dev := x.dev }
      | some _ => { r with st := 2, dev := x.dev })
    { st := 0, ep := false, data := [], dev := d }

/-- A host read in a BAR that is served (R339). -/
def Device.barRead (d : Device) (key bar off size : Nat) (ecc : Ecc) : HostOut :=
  let h := d.hub
  let no := fun (st : Nat) => ({ st := st, ep := false, data := [], dev := d } : HostOut)
  let zeros : HostOut := { st := 0, ep := false, data := List.replicate size 0#8, dev := d }
  match bar with
  | 0 =>
    let p := h.ctlPage key off
    if !bit p.1 0 then no 1
    else if 64 < size || 64 < off % 64 + size then no 2
    else d.ctlRead key (ctlAddr p.1 p.2) size ecc
  | 1 => if bit (h.dbPage key off).1 0 then zeros else no 1
  | _ => { zeros with data := (List.range size).map (fun i =>
      BitVec.ofNat 8 (h.msixWord key ((off + i) / 4 * 4 % 65536) / 2 ^ (8 * ((off + i) % 4)))) }

/-- A host read is answered: the completion, its error logged, its answer kept. [DEDUCED, log 28, unsafe] -/
def Device.hostAnswer (q : Option BenchId) (key : Nat) (hdr : List Nat) (r : HostOut) : Device :=
  let h := r.dev.hub
  let h := match r.st with
    | 0 => if r.ep then h.tickLink T.POISON_TX key else h
    | 1 => h.logAer key aerUnsupported hdr
    | _ => h.logAer key aerAbort hdr
  let d := { r.dev with hub := h }.complete q (cplTlp key r.st (if r.st = 0 then r.data else []) r.ep)
  { d with answer := r.st :: (if r.st = 0 then r.data.map (·.toNat) else []) }

/-- HOST_MEM_READ: a function is read at an offset of a BAR (0 control, 1 doorbell, 2 MSI-X). `full`: its queue had no room; `buf`:
an ECC error in the endpoint's buffer. -/
def execHostMemRead (key bar off size : Nat) (full : Bool) (buf : Nat) (ecc : Ecc) (s : State) : Host.Outcome State Fault Refusal :=
  let h := s.dev.hub
  match h.gate key with
  | .silent => .next { s with dev := { s.dev with answer := [] } }
  | g =>
    let hdr := tlpHeader 0 bar off size
    let d := { s.dev with hub := h.bufferEcc key buf hdr }
    if 2 ≤ buf then .next { s with dev := { d with answer := [] } }
    else if g = .unsupported then
      let h := if h.inReset key || h.inD3 key then d.hub.logAer key aerUnsupported hdr else d.hub
      .next { s with dev := { { d with hub := h.queueTlp (cplTlp key 1 [] false) } with answer := [1] } }
    else
      let q := h.queueOf key bar off
      let e := d.hub.inqEnter key q false full 0
      let d := { d with hub := e.2 }
      if e.1 then .next { s with dev := Device.hostAnswer q key hdr { st := 2, ep := false, data := [], dev := d } }
      else .next { s with dev := Device.hostAnswer q key hdr (d.barRead key bar off size ecc) }

/-! ## Writes (HOST_MEM_WRITE, DOORBELL_WRITE) -/

/-- The bench of an internal address that is not RUNNING: a host write to it is ignored and counted once (R49). -/
def Device.offBench (d : Device) (a : Nat) : Option BenchId :=
  match whereIs a 1 with
  | .bench n _ => if (d.bench n).power.st = .running then none else some n
  | _ => none
/-- A write of a mapped control page, piece by piece; one that is refused ends it (rule 4). [DESIGN CHOICE, log 29, unsafe] -/
def Device.ctlWrite (d : Device) (key a : Nat) (l : List Byte) (ecc : Ecc) : Bool × Device :=
  match d.offBench a with
  | some n => (true, { d with hub := d.hub.offAccess n })
  | none => (pieces l.length a l.length).foldl (fun (r : Bool × Device) p =>
    if !r.1 then r
    else
      let x := r.2.hostPieceWrite key p.1 p.2 (leNat (slice l (p.1 - a) p.2)) ecc
      (x.err.isNone, x.dev)) (true, d)

/-- A doorbell write of `size` bytes at an offset of the doorbell window (R337, R339, R372). -/
def Device.dbWindow (d : Device) (key off size v : Nat) (pasid : Option Nat) : Device :=
  let p := d.hub.dbPage key off
  let n := benchOf (getBits p.1 1 4)
  if !bit p.1 0 then { d with hub := (d.hub.writeDrop key).logAdvisory key aerUnsupported (tlpHeader 1 1 off size) }
  else d.run n (fun h b => if b.power.st ≠ .running then (h.offAccess n, b) else dbWrite n key pasid (getBits p.1 5 14) p.2 size v h b)

/-- A host write in a BAR that is served (R339). -/
def Device.barWrite (d : Device) (key bar off : Nat) (l : List Byte) (ecc : Ecc) : Device :=
  let h := d.hub
  let hdr := tlpHeader 1 bar off l.length
  let abort := fun (d : Device) => { d with hub := d.hub.logAdvisory key aerAbort hdr }
  match bar with
  | 0 =>
    let p := h.ctlPage key off
    if !bit p.1 0 || !bit p.1 1 then { d with hub := (h.writeDrop key).logAdvisory key aerUnsupported hdr }
    else if 64 < l.length || 64 < off % 64 + l.length then abort d
    else
      let r := d.ctlWrite key (ctlAddr p.1 p.2) l ecc
      if r.1 then r.2 else abort r.2
  | 1 => d.dbWindow key off l.length (leNat l) none
  | _ =>
    let ps := pieces l.length off l.length
    let miss := ps.any (fun p => h.msixBeyond key p.1 || (p.2 = 8 && h.msixBeyond key (p.1 + 4)))
    ps.foldl (fun d p =>
      let v := leNat (slice l (p.1 - off) p.2)
      let h := d.hub
      let old := h.msixWord key (p.1 / 4 * 4)
      let h := h.msixWrite key (p.1 / 4 * 4) (if p.2 < 4 then putBits old (8 * (p.1 % 4)) (8 * p.2) v else v % 2 ^ 32)
      { d with hub := if p.2 = 8 then h.msixWrite key (p.1 + 4) (v / 2 ^ 32) else h }) { d with hub := if miss then h.tickLink T.MSIX_MISS key else h }

/-- A host write on its way: its link, its queue, poison, and then what it does. -/
def Device.hostWrite (d : Device) (key bar off len : Nat) (poisoned full : Bool) (buf : Nat) (f : Device → Device) : Device :=
  let h := d.hub
  let hdr := tlpHeader 1 bar off len
  match h.gate key with
  | .silent => d
  | g =>
    let d := { d with hub := h.bufferEcc key buf hdr }
    if 2 ≤ buf then d
    else if g = .unsupported then { d with hub := d.hub.writeDrop key }
    else
      let q := h.queueOf key bar off
      let e := d.hub.inqEnter key q true full len
      let d := { d with hub := e.2 }
      if e.1 then d.inqDrop key q hdr
      else if poisoned then { d with hub := d.hub.logAer key aerPoison hdr }
      else f d

/-- HOST_MEM_WRITE: bytes are written at an offset of a BAR of a function. -/
def execHostMemWrite (key bar off : Nat) (l : List Byte) (poisoned full : Bool) (buf : Nat) (ecc : Ecc) (s : State) :
    Host.Outcome State Fault Refusal :=
  .next { s with dev := s.dev.hostWrite key bar off l.length poisoned full buf (fun d => d.barWrite key bar off l ecc) }

/-- DOORBELL_WRITE: a function writes `size` bytes at an offset of its doorbell window, with the PASID the write carries. -/
def execDoorbellWrite (key off size v : Nat) (pasid : Option Nat) (full : Bool) (s : State) : Host.Outcome State Fault Refusal :=
  .next { s with dev := s.dev.hostWrite key 1 off size false full 0 (fun d => d.dbWindow key off size v pasid) }

end Sys2Proof.Machine
end

