-- ==== Sys2Proof/Machine/Sceune.lean ====
section
/-! DEFINITION. Sceune commands (R482 to R488): how Ryuner takes a command, whose turn it is, what every command is checked for,
and how it ends. -/
namespace Sys2Proof.Machine

/-! ## The table of R486 -/

/-- Who may send a command: a manager PF; any enabled PF; a PF or a claim; a manager PF or a claim acting on itself. -/
inductive Callers where
  | m | p | pc | mc
deriving DecidableEq, Repr

/-- A row of R486: operand words, callers, where the bench number stands in word 1 (none: the command names no bench), the first of the
two words of HADDR and of RBUF, and whether it returns more than two result words. -/
structure CmdRow where
  words : Nat
  callers : Callers
  benchAt : Option Nat
  haddr : Option Nat
  rbuf : Option Nat
  long : Bool
deriving DecidableEq, Repr

/-- The row of an opcode. -/
def cmdRow (op : Nat) : Option CmdRow :=
  let row := fun (n : Nat) (c : Callers) (b ha rb : Option Nat) (l : Bool) => some (CmdRow.mk n c b ha rb l)
  match op with
  | 0x001 => row 0 .pc none none none true
  | 0x002 => row 0 .pc none none none true
  | 0x003 => row 5 .pc none none none false
  | 0x004 => row 0 .pc none none none false
  | 0x005 => row 1 .m none none none false
  | 0x006 => row 3 .m none none none false
  | 0x007 => row 5 .m none none (some 3) true
  | 0x010 => row 13 .m (some 0) none none false
  | 0x011 => row 2 .m (some 0) none none false
  | 0x012 => row 1 .m (some 0) none none true
  | 0x020 => row 5 .m (some 0) (some 1) none false
  | 0x021 => row 4 .m (some 0) (some 2) none false
  | 0x022 => row 1 .m (some 0) none none false
  | 0x023 => row 4 .m (some 0) (some 2) none false
  | 0x024 => row 7 .m (some 0) none none false
  | 0x025 => row 3 .m (some 0) none none false
  | 0x030 => row 6 .m (some 0) none none false
  | 0x031 => row 5 .m (some 0) (some 3) none false
  | 0x032 => row 8 .m (some 0) (some 2) none false
  | 0x033 => row 5 .m (some 0) none none false
  | 0x040 => row 5 .m (some 0) (some 2) none false
  | 0x041 => row 4 .m (some 0) (some 2) none false
  | 0x042 => row 8 .m none (some 1) none false
  | 0x043 => row 1 .m none none none false
  | 0x044 => row 6 .p none none (some 4) true
  | 0x050 => row 4 .m (some 0) (some 1) none false
  | 0x051 => row 2 .m (some 0) none none false
  | 0x060 => row 6 .m (some 0) none none false
  | 0x061 => row 1 .mc (some 8) none none false
  | 0x062 => row 1 .m (some 8) none none false
  | 0x063 => row 1 .mc (some 8) none none false
  | 0x064 => row 1 .m (some 8) none none false
  | 0x065 => row 2 .m (some 8) none none false
  | 0x066 => row 3 .m none none none false
  | 0x070 => row 5 .mc (some 16) none none false
  | 0x071 => row 1 .mc (some 16) none none false
  | 0x072 => row 1 .mc (some 16) none none false
  | 0x073 => row 1 .mc (some 16) none none false
  | 0x074 => row 1 .m (some 16) none none false
  | 0x080 => row 1 .m (some 8) none none false
  | 0x081 => row 1 .m (some 8) none none false
  | 0x082 => row 4 .m (some 0) none none false
  | 0x083 => row 2 .m (some 0) none none false
  | _ => none

/-- Operand word `i`. -/
def Sceune.w (c : Sceune) (i : Nat) : Nat := c.ops.getD i 0
/-- A 64-bit operand, low word first. -/
def Sceune.w64 (c : Sceune) (i : Nat) : Nat := c.w i + 2 ^ 32 * c.w (i + 1)
/-- The bench whose turn a command waits for (R488). -/
def Sceune.benchNo (c : Sceune) : Option Nat :=
  if c.opcode = 0x042 && getBits (c.w 0) 4 2 = 1 then some (getBits (c.w 0) 0 4)
  else if c.opcode = 0x043 && getBits (c.w 0) 0 4 ≠ 15 then some (getBits (c.w 0) 0 4)
  else match cmdRow c.opcode with
    | some r => r.benchAt.map (fun k => getBits (c.w 0) k 4)
    | none => none
/-- That bench; bench 0 for a command that names none. -/
def Sceune.bench (c : Sceune) : BenchId := benchOf (c.benchNo.getD 0)
/-- The result buffer; 0 for none. -/
def Sceune.rbuf (c : Sceune) : Nat :=
  match cmdRow c.opcode with
  | some r => (r.rbuf.map c.w64).getD 0
  | none => 0

/-! ## What every command is checked for (R485, R486) -/

/-- May the caller of a command send it? A claim may name only itself, or rings inside its range. -/
def Device.mayCall (d : Device) (c : Sceune) (r : CmdRow) : Bool :=
  let pf := c.mbx < 16
  let manager := pf && d.hub.fw.managers.contains (fnKey (c.mbx / 8) false (c.mbx % 8))
  let k := c.mbx - 16
  let own := if r.benchAt = some 8 then c.w 0 % 4096 = k
    else getBits (c.w 0) 16 4 = k / 256 && (match (d.bench (benchOf (k / 256))).claim? (k % 256) with
      | some x => x.owns (getBits (c.w 0) 0 14)
      | none => false)
  match r.callers with
  | .m => manager
  | .p => pf
  | .pc => true
  | .mc => manager || (!pf && own)

/-- Does a value set a bit of a bench register that a write may not set (R13)? -/
def regBitsBad (o v : Nat) : Bool :=
  match benchReg? o with
  | some r => Nat.land v (2 ^ 32 - 1 - r.writable) ≠ 0
  | none => true
/-- Does a word set a bit outside a mask? -/
def outside (v m : Nat) : Bool := Nat.land v (2 ^ 32 - 1 - m) ≠ 0

/-- How many instances each KIND of TM_WRITE has: meters, queues, classes, shapers (32 of classes, then 4 of ports), mirror sessions (0 is
none), station entries, pools. [DESIGN CHOICE, log 87, unsafe] -/
def tmKindSize (k : Nat) : Nat :=
  match k with | 0 => 32768 | 1 => 8192 | 2 => 32 | 3 => 36 | 4 => 8 | 5 => 32 | _ => 4

/-- Operands out of range, or a reserved bit set, as the operand words alone show it (R486, R487). -/
def Sceune.bad (c : Sceune) : Bool :=
  let w := c.w
  let bn := outside (w 0) 0xF
  match c.opcode with
  | 0x003 => outside (w 4) 0x7FFFF || getBits (w 4) 0 4 < 3 || 12 < getBits (w 4) 0 4 || getBits (w 4) 4 4 < 3 || 12 < getBits (w 4) 4 4 ||
      w 0 % 4096 ≠ 0 || w 2 % 4096 ≠ 0
  | 0x005 => outside (w 0) 0x1F
  | 0x006 => outside (w 0) 0x3FF || outside (w 1) 0x1FFF || outside (w 2) 0x800007FF
  | 0x007 => outside (w 2) 0xF || w 2 = 0 || 8 < w 2
  | 0x010 => bn || outside (w 1) 0x3F75 || regBitsBad R.dram_DRAM_CFG (w 2) || regBitsBad R.dram_RANK_MAP (w 3) ||
      (List.range 5).any (fun k => regBitsBad (R.dram_XOR_MASK k) (w (4 + k))) ||
      regBitsBad R.hopper_DPOOL_BASE (w 11) || regBitsBad R.hopper_DPOOL_COUNT (w 12)
  | 0x011 => bn || outside (w 1) 0xFFFFFF
  | 0x020 => bn || outside (w 4) 1
  | 0x021 => bn || outside (w 1) 0x03FF0103 || (getBits (w 1) 0 2 = 0 && 256 ≤ getBits (w 1) 16 10) ||
      (2 ≤ getBits (w 1) 0 2 && getBits (w 1) 16 10 ≠ 0)
  | 0x023 => bn || 7 ≤ w 1
  | 0x024 => bn || 3 ≤ w 1 || outside (w 2) 0xFFFF || (List.range 4).any (fun k => outside (w (3 + k)) 0x1FFF)
  | 0x025 => bn || outside (w 1) 1
  | 0x030 => bn || 4 ≤ w 1 || regBitsBad (R.face_PORT_CTL 0) (w 2) || regBitsBad (R.face_MAX_FRAME 0) (w 3) ||
      regBitsBad (R.face_PAUSE_CTL 0) (w 4) || regBitsBad (R.face_MODULE_CTL 0) (w 5) || getBits (w 2) 1 2 = 3 ||
      getBits (w 2) 8 8 = 0 || getBits (w 4) 0 2 = 3
  | 0x031 => bn || 7 ≤ w 1 || tmKindSize (w 1) ≤ w 2 || (w 1 = 4 && w 2 = 0)
  | 0x032 => bn || 4 ≤ w 1 || outside (w 4) 0x7FF
  | 0x033 => bn || w 1 = 0 || 4 ≤ w 1 || (w 1 = 2 && 1000000000 ≤ w 2 % 2 ^ 30)
  | 0x040 => bn || outside (w 1) 0x00013FFF || w 4 ≠ (if bit (w 1) 16 then 80 else 64) || (bit (w 1) 16 && 64 ≤ getBits (w 1) 0 14)
  | 0x041 => bn || outside (w 1) 0x3FFF
  | 0x042 => outside (w 0) 0x3F || getBits (w 0) 4 2 = 0 || getBits (w 0) 4 2 = 3 || (List.range 5).any (fun k => w (3 + k) ≠ 0)
  | 0x044 => c.rbuf = 0
  | 0x051 => bn || outside (w 1) 0xFFFF || Nat.land (getBits (w 1) 0 8) (getBits (w 1) 8 8) ≠ 0
  | 0x060 => false
  | 0x061 => outside (w 0) 0xFFFF0FFF
  | 0x066 => outside (w 0) 0xFFFF || (bit (w 0) 4 && 32 ≤ getBits (w 0) 5 10)
  | 0x070 => false
  | 0x071 => outside (w 0) 0x800F3FFF
  | 0x072 | 0x073 => outside (w 0) 0xF3FFF
  | 0x074 => outside (w 0) 0x1F0F3FFF
  | 0x082 => bn || outside (w 1) 0x7F || c.w64 2 = 0
  | 0x083 => bn || outside (w 1) 0x3F
  | 0x062 | 0x063 | 0x064 | 0x065 | 0x080 | 0x081 => outside (w 0) 0xFFF
  | 0x001 | 0x002 | 0x004 => false
  | _ => bn

/-- How many bytes a command reads at HADDR: an image's LENGTH, or the size of the block it names (R116, R123, R171, R176, R193, R232, R283,
R290, R506, R510). [DESIGN CHOICE, log 87, unsafe] -/
def Sceune.need (c : Sceune) : Nat :=
  match c.opcode with
  | 0x020 | 0x050 => c.w 3
  | 0x021 => match getBits (c.w 1) 0 2 with | 0 => 32 | 1 => 128 | _ => 4
  | 0x023 => 80
  | 0x031 => match c.w 1 with | 0 | 1 => 32 | 3 => 8 | 5 => 12 | _ => 4
  | 0x032 => 8 * min 1024 (c.w 4)
  | 0x040 => c.w 4
  | 0x041 => 64
  | 0x042 => 160
  | _ => 0

/-- The general code with which a command ends before it has any effect: NOT_PERMITTED, BAD_OPERAND, or HOST_ERROR where it cannot read or
one of its reads failed. [DEDUCED, log 81, unsafe; DEDUCED, log 83, unsafe; DEDUCED, log 84, unsafe] -/
def Device.generalCode (d : Device) (c : Sceune) (r : CmdRow) : Option Nat :=
  if c.asked = 0 && !d.mayCall c r then some rcNotPermitted
  else if c.asked = 0 && (c.bad || (c.admin && r.long && c.rbuf = 0 && !(c.opcode = 0x033 && c.w 1 ≠ 1))) then some rcBadOperand
  else if c.failed || ((c.rbuf ≠ 0 || c.asked < c.need) && d.hub.mbxMute c.mbx) then some rcHostError
  else none

/-! ## Taking a command (R483, R484, R488) -/

/-- The words of a command as Ryuner reads them: header and operands. -/
def sceuneOfWords (m : Nat) (admin : Bool) (pos : Nat × Nat) (ws : List Nat) : Sceune :=
  let h := ws.headD 0
  { id := 0, mbx := m, admin := admin, cmdId := getBits h 16 8, opcode := getBits h 0 12, ops := (ws.drop 1).take (getBits h 12 4)
    asked := 0, parts := [], failed := false, data := [], sqPos := pos, begun := false, dead := false }

/-- A command that ends when Ryuner takes it: its inbound words are drained. -/
def Hub.refuseGo (h : Hub) (m code : Nat) : Hub :=
  let h := h.updMbx m (fun b => { b with inq := [], collided := if code = rcCollided then false else b.collided })
  h.sceuneEnd (sceuneOfWords m false (0, 0) []) code [] 0

/-- A command is accepted (R488): it takes its place behind those accepted before it. -/
def Hub.accept (h : Hub) (c : Sceune) : Hub :=
  h.updFw (fun w => { w with cmds := w.cmds ++ [{ c with id := w.cmdNo }], cmdNo := w.cmdNo + 1 })

/-- Ryuner takes a GO of mailbox `m` (R483): the checks of step 3, then the command is accepted. DB_TO_FM bits 1 to 30 have no use and are
cleared and counted (R479). [DEDUCED, log 81, unsafe] -/
def Hub.mbxGo (h : Hub) (m : Nat) : Hub :=
  let b := h.mbx m
  let unused := b.dbFm / 2 % 2 ^ 30
  let h := if unused = 0 then h else
    (h.count T.MBX_DB_UNUSED ((List.range 30).filter (bit unused)).length).updMbx m (fun b => { b with dbFm := b.dbFm - 2 * unused })
  if !bit (unmasked b.dbFm b.maskFm) 0 || b.busy then h
  else
    let h := h.updMbx m (fun b => { b with dbFm := b.dbFm - 1, busy := true })
    let ws := b.inq.map BitVec.toNat
    let c := sceuneOfWords m false (0, 0) ws
    let n := getBits (ws.headD 0) 12 4
    if b.collided then h.refuseGo m rcCollided
    else if ws.length ≠ 1 + n then h.refuseGo m rcBadLength
    else match cmdRow c.opcode with
      | none => h.refuseGo m rcBadOpcode
      | some r =>
        if n ≠ r.words then h.refuseGo m rcBadLength
        else if getBits (ws.headD 0) 24 8 ≠ 0 then h.refuseGo m rcBadOperand
        else
          let h := h.count T.MBX_OUT_DISCARD b.outq.length
          let h := h.updMbx m (fun b => { b with inq := [], outq := [] })
          h.accept c
/-- MBX_GO. -/
def execMbxGo (m : Nat) (s : State) : Host.Outcome State Fault Refusal :=
  s.onHub (fun h => if h.ryuner && m < mbxCount && h.mbxLive m then h.mbxGo m else h)

/-- The submission entries that wait in an admin pair. -/
def AdminPair.waiting (a : AdminPair) : Int := countOf (2 ^ a.sqSize) false a.sqHost.1 a.sqHost.2 a.sqDev.1 a.sqDev.2
/-- The completion entries that the host has not taken. -/
def AdminPair.unread (a : AdminPair) : Int := countOf (2 ^ a.cqSize) false a.cqDev.1 a.cqDev.2 a.cqHost.1 a.cqHost.2

/-- An admin command that ends when Ryuner takes it. -/
def Hub.refuseAdmin (h : Hub) (m : Nat) (c : Sceune) (code : Nat) : Hub := h.adminComplete m c code []

/-- Ryuner takes the words of the next entry of mailbox `m`'s admin queue (R384, R484): a PHASE that mismatches stops the pair unless the
entry has not been read again. -/
def Hub.adminTake (h : Hub) (m : Nat) (a : AdminPair) (ws : List Nat) : Hub :=
  let put := fun (h : Hub) (a : AdminPair) => h.updMbx m (fun b => { b with admin := some { a with entry := .idle } })
  if getBits (ws.getD 15 0) 31 1 ≠ a.sqDev.2 then
    if a.reread then (put h a).updMbx m (fun b => { b with adminErr := true }) else put h { a with reread := true }
  else
    let pos := adminNext a.sqSize a.sqDev
    let h := put h { a with sqDev := pos, reread := false }
    let c := sceuneOfWords m true pos ws
    let n := getBits (ws.headD 0) 12 4
    match cmdRow c.opcode with
    | none => h.refuseAdmin m c rcBadOpcode
    | some r =>
      if n ≠ r.words then h.refuseAdmin m c rcBadLength
      else if getBits (ws.headD 0) 24 8 ≠ 0 then h.refuseAdmin m c rcBadOperand
      else h.accept c

/-- The bench in whose window, and with whose tags, Ryuner reads for a mailbox's caller (R332). -/
def Hub.readBench (h : Hub) (m : Nat) : BenchId := benchOf (h.homeBench (h.mbx m).fn)

/-- Ryuner asks for the next entry of mailbox `m`'s admin queue: 64 bytes, RETRY_OK = 1 (R343, R484). -/
def Device.adminAsk (d : Device) (m : Nat) (a : AdminPair) : Device :=
  d.run (d.hub.readBench m) (fun h b =>
    let x := h.mbx m
    if b.roomToRead h x.fn 64 then
      (h.updFw (fun w => { w with cmdNo := w.cmdNo + 1 }) |>.setMbx m { x with admin := some { a with entry := .asked h.fw.cmdNo } },
        b.ryunerRead h x.fn x.pasid (a.sqBase + 64 * a.sqDev.1) 64 (.entry m h.fw.cmdNo))
    else (h, b))

/-- Ryuner is at an admin queue: bit 31 of DB_TO_FM goes, and while the completion queue has room the next entry is asked for, or taken
once it is there; one whose PHASE mismatched is asked for again when 1 µs has passed (`again`); a read that fails stops the pair
(R371, R484). [DEDUCED, log 83, unsafe] -/
def Device.adminCommand (d : Device) (m : Nat) (again : Bool) : Device :=
  if !(d.hub.ryuner && m < mbxCount && d.hub.mbxLive m) then d
  else
    let d := d.runHub (fun h => h.updMbx m (fun b => { b with dbFm := b.dbFm % 2 ^ 31 }))
    let b := d.hub.mbx m
    match b.admin with
    | none => d
    | some a =>
      let running := (d.hub.fw.cmds.filter (fun c => c.mbx = m && c.admin)).length
      if b.adminErr || d.hub.mbxMute m || a.waiting ≤ 0 || (2 ^ a.cqSize : Nat) ≤ a.unread + running + a.held.length then d
      else match a.entry with
        | .idle => if a.reread && !again then d else d.adminAsk m a
        | .asked _ => d
        | .got ws => d.runHub (fun h => h.adminTake m a ws)
        | .failed => d.runHub (fun h => h.updMbx m (fun b => { b with admin := some { a with entry := .idle }, adminErr := true }))
/-- ADMIN_COMMAND. -/
def execAdminCommand (m : Nat) (again : Bool) (s : State) : Host.Outcome State Fault Refusal :=
  .next { s with dev := s.dev.adminCommand m again }

/-! ## Running a command -/

/-- What a command did: its return code, result words, the device, and whether it goes on until an event ends it. -/
structure Ran where
  code : Nat
  res : List Nat
  dev : Device
  wait : Bool
deriving DecidableEq, Repr

/-- A command that ends with a code and changes nothing. -/
def Ran.refuse (code : Nat) (d : Device) : Ran := ⟨code, [], d, false⟩
/-- A command that is done. -/
def Ran.done (d : Device) : Ran := ⟨0, [], d, false⟩
/-- A command that goes on. -/
def Ran.going (d : Device) : Ran := ⟨0, [], d, true⟩

/-- The hub and the bench as a command's part leaves them. -/
def CmdOut.both (o : CmdOut) : Hub × Bench := (o.hub, o.bench)
/-- A command that acts on one bench and the hub. -/
def Device.onCmd (d : Device) (n : BenchId) (f : Hub → Bench → CmdOut) : Ran :=
  let r := f d.hub (d.bench n)
  ⟨r.code, r.res, d.run n (fun h b => (f h b).both), r.wait⟩
/-- A command that needs its bench RUNNING or DRAINING. [DEDUCED, log 85, unsafe] -/
def Device.onLiveCmd (d : Device) (n : BenchId) (f : Hub → Bench → CmdOut) : Ran :=
  d.onCmd n (fun h b => if b.live then f h b else .refuse rcWrongState h b)
/-- A command that acts on the hub alone. -/
def Device.onHubCmd (d : Device) (f : Hub → Nat × List Nat × Hub) : Ran :=
  ⟨(f d.hub).1, (f d.hub).2.1, { d with hub := (f d.hub).2.2 }, false⟩

/-- The command of an opcode from mailbox `m` whose turn has come: no command for its bench was accepted before it (R488). [DESIGN CHOICE, log 82, unsafe] -/
def Hub.turn (h : Hub) (m op : Nat) : Option Sceune :=
  match h.fw.cmds.find? (fun c => c.mbx = m && c.opcode = op) with
  | none => none
  | some c =>
    if c.benchNo.isSome && (h.fw.cmds.takeWhile (· ≠ c)).any (fun x => x.benchNo = c.benchNo) then none else some c

/-- A command goes on: it has begun, and keeps what it read. -/
def Hub.sceuneBegun (h : Hub) (c : Sceune) (data : List Byte) : Hub :=
  h.updFw (fun w => { w with cmds := w.cmds.map (fun x => if x = c then { x with begun := true, data := data } else x) })

/-- Ryuner asks for as much of HADDR as tags and completion buffer allow, from byte `asked` on: what has then been asked for, and the bench
(R33, R335). -/
def Bench.ask (h : Hub) (fn : Nat) (pasid : Option Nat) (id addr need : Nat) : Nat → Nat → Bench → Nat × Bench
  | 0, asked, b => (asked, b)
  | fuel + 1, asked, b =>
    let k := firstPiece (h.fn fn).mrrsBytes (addr + asked) (need - asked)
    if k ≠ 0 && b.roomToRead h fn k then
      Bench.ask h fn pasid id addr need fuel (asked + k) (b.ryunerRead h fn pasid (addr + asked) k (.command id asked))
    else (asked, b)
/-- What a command still has to read is asked for, in its caller's HOME_BENCH window (R332, R482). -/
def Device.askMore (d : Device) (c : Sceune) (addr : Nat) : Device :=
  d.run (d.hub.readBench c.mbx) (fun h b =>
    let x := h.mbx c.mbx
    let q := Bench.ask h x.fn x.pasid c.id addr c.need 1024 c.asked b
    (h.updFw (fun w => { w with cmds := w.cmds.map (fun y => if y = c then { y with asked := q.1 } else y) }), q.2))

/-- Has a command what it reads at HADDR: all its parts, without a failed one? -/
def Sceune.readDone (c : Sceune) : Bool := !c.failed && c.arrived = c.need

/-- Ryuner carries out the command of an opcode from mailbox `m`, or goes on with it: first it reads what lies at HADDR, then `f` acts.
`late` says that the bound of R488 has passed: the command ends with TIMEOUT. A command that `hold`s waits before it acts. [DESIGN CHOICE, log 82, unsafe; DEDUCED, log 97, safe] -/
def Device.sceune (d : Device) (m op : Nat) (late : Bool) (hold : Sceune → Device → Bool) (f : Sceune → List Byte → Device → Ran) :
    Device :=
  if !d.hub.ryuner then d
  else match d.hub.turn m op, cmdRow op with
    | some c, some r =>
      let fin := fun (x : Ran) => { x.dev with hub := x.dev.hub.sceuneEnd c x.code x.res c.rbuf }
      let act := fun (l : List Byte) =>
        let x := f c l d
        if x.wait then { x.dev with hub := x.dev.hub.sceuneBegun c l } else fin x
      if late then fin (.refuse rcTimeout d)
      else if c.begun then act c.data
      else match d.generalCode c r, r.haddr with
        | some code, _ => fin (.refuse code d)
        | none, none => if hold c d then d else act []
        | none, some k => if !c.readDone then d.askMore c (c.w64 k) else if hold c d then d else act c.block
    | _, _ => d

/-- The next state of a Sceune command. [DESIGN CHOICE, log 101, safe] -/
def State.onSceune (s : State) (m op : Nat) (late : Bool) (f : Sceune → List Byte → Device → Ran) :
    Host.Outcome State Fault Refusal := .next { s with dev := s.dev.sceune m op late (fun _ _ => false) f }
/-- The same of one that may have to wait before it acts. -/
def State.onSceuneHeld (s : State) (m op : Nat) (late : Bool) (hold : Sceune → Device → Bool) (f : Sceune → List Byte → Device → Ran) :
    Host.Outcome State Fault Refusal := .next { s with dev := s.dev.sceune m op late hold f }

/-! ## Ryuner's register accesses -/

/-- Ryuner writes registers of a bench, in order. -/
def fmWrites (n : BenchId) (l : List (Nat × Nat)) (q : Hub × Bench) : Hub × Bench :=
  l.foldl (fun q x => let r := regWrite n .foreman x.1 x.2 [] q.1 q.2; (r.hub, r.bench)) q
/-- Ryuner reads a register of a bench. -/
def fmRead (n : BenchId) (o : Nat) (q : Hub × Bench) : Nat × Hub × Bench :=
  let r := regRead n .foreman o q.1 q.2
  (r.val, r.hub, r.bench)
/-- The words of a block of bytes. -/
def wordsOf (l : List Byte) (n : Nat) : List Nat := (List.range n).map (fun w => leNat (slice l (4 * w) 4))
/-- The writes that put words into registers from an offset on. -/
def blockWrites (o : Nat) (ws : List Nat) : List (Nat × Nat) := ws.mapIdx (fun i v => (o + 4 * i, v))

/-- Ryuner commits a staged block and reads its status: HW_REFUSED where the RESULT, `w` bits from bit 1, is not 0. -/
def fmCommit (n : BenchId) (l : List (Nat × Nat)) (status w : Nat) (h : Hub) (b : Bench) : CmdOut :=
  let r := fmRead n status (fmWrites n l (h, b))
  ⟨if getBits r.1 1 w = 0 then 0 else rcHwRefused, [r.1], r.2.1, r.2.2, false⟩

end Sys2Proof.Machine
end

