-- ==== Sys2Proof/Machine/SceuneBench.lean ====
section
/-! DEFINITION. Sceune commands that act on a bench: start and stop, rule sets, tables, learning policy, ports, traffic manager, time, keys,
engine images, namespaces and the key archive (R486 to R491, R506, R508). -/
namespace Sys2Proof.Machine

/-! ## BENCH_START, BENCH_STOP, BENCH_STATUS -/

/-- Does a bench keep a key archive (R508): DRAM_EN = 1 and DRAM_RETAIN = 1? -/
def Hub.archives (h : Hub) (n : BenchId) (b : Bench) : Bool := b.power.dramEn && h.flag (R.pcr_BENCH_CTL_DRAM_RETAIN n.val)
/-- DRAM view offset of the archive: the last 2 MiB of the installed capacity. -/
def Bench.archiveBase (b : Bench) : Nat := b.capacity - 0x200000
/-- DRAM view offset of the archive record of a key slot: KIND 0 security association, 1 XTS. [DESIGN CHOICE, log 89, unsafe] -/
def Bench.archiveAt (b : Bench) (kind i : Nat) : Nat := b.archiveBase + (if kind = 0 then 64 * i else 0x100000 + 128 * i)

/-- The refusals of BENCH_START before anything starts (R45, R508, R571). [DEDUCED, log 85, unsafe] -/
def Sceune.startRefusal (c : Sceune) (h : Hub) (b : Bench) : Option Nat :=
  let v := c.w 1
  let link := getBits v 8 2
  let cap := (b.setReg R.dram_DRAM_CFG (BitVec.ofNat 32 (c.w 2))).capacity
  if !(b.power.st = .off || b.power.st = .fault) || h.flag R.pcr_THERM_STATUS_TRIPPED then some rcWrongState
  else if bit v 11 && h.fw.part = .nf then some rcNotPresent
  else if !modeAllowed (getBits v 2 1) (getBits v 4 3) || !(link % 2 = 0 || h.split (link / 2)) then some rcBadOperand
  else if bit v 10 && bit v 13 && c.w 12 ≠ 0 && cap - 0x200000 < 65536 * (c.w 11 + c.w 12) then some rcBadOperand
  else none

/-- The DRAM configuration of a BENCH_START (R435), then GO. -/
def Sceune.dramWrites (c : Sceune) : List (Nat × Nat) :=
  [(R.dram_DRAM_CFG, c.w 2), (R.dram_RANK_MAP, c.w 3)] ++ (List.range 5).map (fun k => (R.dram_XOR_MASK k, c.w (4 + k))) ++ [(R.dram_DRAM_CTL, 1)]
/-- The carve of a BENCH_START (R247), then ENABLE. A pool 0 of 65,536 is written as 0. [DEDUCED, log 85, unsafe] -/
def Sceune.hopperWrites (c : Sceune) (ctl : Nat) : List (Nat × Nat) :=
  let p0 := getBits (c.w 9) 0 16
  [(R.hopper_POOL_COUNT 0, if p0 = 0 then 65536 else p0), (R.hopper_POOL_COUNT 1, getBits (c.w 9) 16 16),
    (R.hopper_POOL_COUNT 2, getBits (c.w 10) 0 16), (R.hopper_POOL_COUNT 3, getBits (c.w 10) 16 16), (R.hopper_DPOOL_BASE, c.w 11),
    (R.hopper_DPOOL_COUNT, c.w 12), (R.hopper_HOPPER_CTL, Nat.lor ctl 1)]

/-- A start that hardware refuses ends with HW_REFUSED and a status word; Ryuner abandons it by STOP. [DEDUCED, log 85, unsafe] -/
def Ran.startFailed (d : Device) (n : BenchId) (status : Nat) : Ran := ⟨rcHwRefused, [status], d.run n (benchStop n), false⟩

/-- BENCH_START, one step: START at first; in WAIT_CFG the DRAM configuration; once RUNNING the carve; it ends when the hopper is READY. -/
def Device.benchStartCmd (c : Sceune) (_ : List Byte) (d : Device) : Ran :=
  let n := c.bench
  let b := d.bench n
  if !c.begun then
    match c.startRefusal d.hub b with
    | some code => .refuse code d
    | none => .going (d.run n (benchCtlWrite n (putBits (c.w 1) 0 2 1)))
  else match b.power.st with
    | .off => if d.hub.starts.any (fun x => x.1 = n.val) then .going d else .startFailed d n (d.benchStatus n)
    | .starting =>
      if b.dramState = dramWaitCfg then
        let d' := d.run n (fun h b => fmWrites n c.dramWrites (h, b))
        if (d'.bench n).dramState = dramWaitCfg then .startFailed d' n (d'.bench n |>.reg R.dram_DRAM_STATUS).toNat else .going d'
      else .going d
    | .running =>
      if b.flag R.hopper_HOPPER_CTL_ENABLE then (if b.flag R.hopper_HOPPER_CTL_READY then .done d else .going d)
      else
        let d' := d.run n (fun h b => fmWrites n (c.hopperWrites (b.reg R.hopper_HOPPER_CTL).toNat) (h, b))
        if (d'.bench n).flag R.hopper_HOPPER_CTL_ENABLE then .going d' else .startFailed d' n (d'.benchStatus n)
    | _ => .startFailed d n (d.benchStatus n)
/-- BENCH_START. -/
def execBenchStart (m : Nat) (late : Bool) (s : State) : Host.Outcome State Fault Refusal :=
  s.onSceune m 0x010 late Device.benchStartCmd

/-- BENCH_STOP, one step: BENCH_DRAIN_LIMIT and STOP at first; it ends at OFF. [DEDUCED, log 85, unsafe] -/
def Device.benchStopCmd (c : Sceune) (_ : List Byte) (d : Device) : Ran :=
  let n := c.bench
  let st := (d.bench n).power.st
  if !c.begun then
    if st = .off || st = .draining then .refuse rcWrongState d
    else
      let d := d.run n (fun h b => benchStop n (h.setFld (R.pcr_BENCH_DRAIN_LIMIT_LIMIT_US n.val) (c.w 1)) b)
      if (d.bench n).power.st = .off then .done d else .going d
  else match st with
    | .off => .done d
    | .draining => .going d
    | _ => ⟨rcHwRefused, [d.benchStatus n], d, false⟩
/-- BENCH_STOP. -/
def execBenchStop (m : Nat) (late : Bool) (s : State) : Host.Outcome State Fault Refusal :=
  s.onSceune m 0x011 late Device.benchStopCmd

/-- The learning policy of a bench; FIRMWARE until LEARN_POLICY sets another. -/
def LearnPolicy.reset : LearnPolicy := { policy := 0, pinMs := 0, queues := [0, 0, 0, 0], inserted := 0, ignored := 0, changed := [] }
def Hub.policy (h : Hub) (n : BenchId) : LearnPolicy := sparseGet (fun _ => LearnPolicy.reset) h.fw.policies n.val
def Hub.setPolicy (h : Hub) (n : BenchId) (p : LearnPolicy) : Hub :=
  h.updFw (fun w => { w with policies := sparseSet (fun _ => LearnPolicy.reset) w.policies n.val p })

/-- BENCH_STATUS (R489). -/
def execBenchStatus (m : Nat) (s : State) : Host.Outcome State Fault Refusal :=
  s.onSceune m 0x012 false (fun c _ d =>
    let n := c.bench
    let b := d.bench n
    let p := d.hub.policy n
    ⟨0, [d.benchStatus n, (b.reg R.dram_DRAM_STATUS).toNat, (b.reg (R.storage_FLASH_STATUS 0)).toNat,
      (b.reg (R.storage_FLASH_STATUS 1)).toNat, p.inserted % 2 ^ 32, p.ignored % 2 ^ 32], d, false⟩)

/-! ## GRAPH_LOAD (R116) -/

/-- CRC32C of an image with the four bytes at `o` taken as 0. -/
def imageCrc (l : List Byte) (o : Nat) : Nat := Nat.xor (crc32c 0xFFFFFFFF (putAt l o (List.replicate 4 0#8))) 0xFFFFFFFF

/-- NODE_COUNT, START, and record `j`'s image index and node. -/
def giCount (l : List Byte) : Nat := leNat (slice l 6 2)
def giStart (l : List Byte) : Nat := leNat (slice l 8 1)
def giIndex (l : List Byte) (j : Nat) : Nat := leNat (slice l (32 + 68 * j) 1)
def giNode (l : List Byte) (j : Nat) : Nat := leNat (slice l (36 + 68 * j) 64)
/-- The transitions of a node that name a next node: bit position of NEXT, and whether it is valid. -/
def ndNexts (d : Nat) : List (Nat × Bool) := (96, ndDefaultValid d) :: (List.range 4).map (fun k => (288 + 64 * k, bit d (296 + 64 * k)))

/-- Is a graph image refused with IMAGE_BAD (R116)? [DEDUCED, log 86, unsafe] -/
def graphImageBad (l : List Byte) : Bool :=
  let k := giCount l
  let idx := (List.range k).map (giIndex l)
  leNat (slice l 0 4) ≠ 0x47545543 || leNat (slice l 4 2) ≠ 1 || leNat (slice l 16 4) ≠ imageCrc l 16 || k = 0 || 256 < k ||
    l.length ≠ 32 + 68 * k || !idx.Nodup || !idx.contains (giStart l) ||
    (List.range k).any (fun j => ndCheck (giNode l j) ≠ 0 ||
      (ndNexts (giNode l j)).any (fun x => x.2 && !idx.contains (getBits (giNode l j) x.1 8)))

/-- Where the nodes of an image go (R116 step 1): image index, node index, in ascending order of both. [DEDUCED, log 86, unsafe] -/
def Bench.placeGraph (b : Bench) (g : Nat) (l : List Byte) : List (Nat × Nat) :=
  let free := (List.range 256).filter (fun i => ndGen (b.node i) = 0 || ndGen (b.node i) = 2 ^ g)
  let idx := (List.range 256).filter (fun i => ((List.range (giCount l)).map (giIndex l)).contains i)
  idx.zip free

/-- A node with its indices rewritten and its GEN_MASK set (R116 steps 2 and 3). -/
def placeNode (place : List (Nat × Nat)) (g d : Nat) : Nat :=
  putBits ((ndNexts d).foldl (fun e x => putBits e x.1 8 ((place.lookup (getBits d x.1 8)).getD (getBits d x.1 8))) d) 0 2 (2 ^ g)

/-- The writes that load an image. -/
def graphWrites (place : List (Nat × Nat)) (g : Nat) (arm : Bool) (l : List Byte) : List (Nat × Nat) :=
  (List.range (giCount l)).flatMap (fun j =>
    blockWrites (R.graph_NODE_STAGE 0) (wordsOf (leBytes 64 (placeNode place g (giNode l j))) 16) ++
      [(R.graph_NODE_COMMIT, (place.lookup (giIndex l j)).getD 0)]) ++
    [(R.graph_START_NODE g, (place.lookup (giStart l)).getD 0), (R.graph_EXC_CLASS g, leNat (slice l 12 4))] ++
    (if arm then [(R.graph_GRAPH_CTL, 1)] else [])

/-- GRAPH_LOAD on its bench: into the generation that is not GEN_ACTIVE. NODE_COMMIT_STATUS is read once, after the last commit. [DEDUCED, log 86, unsafe; DESIGN CHOICE, log 119, unsafe] -/
def graphLoad (n : BenchId) (arm : Bool) (l : List Byte) (h : Hub) (b : Bench) : CmdOut :=
  let g := 1 - b.genActive
  if !b.writable g then .refuse rcWrongState h b
  else if graphImageBad l then .refuse rcImageBad h b
  else
    let place := b.placeGraph g l
    if place.length < giCount l then .refuse rcNoResource h b
    else
      let q := fmRead n R.graph_NODE_COMMIT_STATUS (fmWrites n (graphWrites place g arm l) (h, b))
      .done q.2.1 q.2.2
/-- GRAPH_LOAD. -/
def execGraphLoad (m : Nat) (late : Bool) (s : State) : Host.Outcome State Fault Refusal :=
  s.onSceune m 0x020 late (fun c l d => d.onLiveCmd c.bench (graphLoad c.bench (bit (c.w 4) 0) l))

/-! ## RULE_WRITE, GEN_SWAP -/

/-- RULE_WRITE on its bench (R123, R171, R176). [DESIGN CHOICE, log 87, unsafe] -/
def ruleWrite (n : BenchId) (w : Nat) (l : List Byte) (h : Hub) (b : Bench) : CmdOut :=
  let g := getBits w 8 1
  let i := getBits w 16 10
  let put := fun (ws : List (Nat × Nat)) =>
    if b.writable g then
      let q := fmWrites n ws (h, b)
      ({ code := 0, res := [0], hub := q.1, bench := q.2, wait := false } : CmdOut)
    else .refuse rcWrongState h b
  match getBits w 0 2 with
  | 0 => put (blockWrites (R.match_RECIPE (2048 * g + 8 * i)) (wordsOf l 8))
  | 1 => fmCommit n (blockWrites (R.action_TPL_STAGE 0) (wordsOf l 32) ++ [(R.action_TPL_COMMIT, i)]) R.action_TPL_COMMIT_STATUS 3 h b
  | 2 => put [(R.graph_START_NODE g, leNat (slice l 0 4))]
  | _ => put [(R.graph_EXC_CLASS g, leNat (slice l 0 4))]
/-- RULE_WRITE. -/
def execRuleWrite (m : Nat) (late : Bool) (s : State) : Host.Outcome State Fault Refusal :=
  s.onSceune m 0x021 late (fun c l d => d.onLiveCmd c.bench (ruleWrite c.bench (c.w 1) l))

/-- GEN_SWAP (R180). [DESIGN CHOICE, log 87, unsafe] -/
def execGenSwap (m : Nat) (s : State) : Host.Outcome State Fault Refusal :=
  s.onSceune m 0x022 false (fun c _ d => d.onLiveCmd c.bench (fun h b =>
    if b.flag R.action_GEN_STATUS_OLD_GEN_IDLE then .done h b.genSwap else .refuse rcWrongState h b))

/-! ## TABLE_OP, TABLE_SWEEP -/

/-- TABLE_OP, one step (R136, R283): the operation enters the queue; when its status is there the command ends, and slot contents go back to
HADDR. [DESIGN CHOICE, log 87, unsafe] -/
def Device.tableOpCmd (c : Sceune) (l : List Byte) (d : Device) : Ran :=
  let n := c.bench
  let b := d.bench n
  if !b.live then .refuse rcWrongState d
  else if !c.begun then
    let ws := blockWrites (R.match_OP_ENTRY 0) (wordsOf l 16) ++ blockWrites (R.match_OP_EXPECT 0) (wordsOf (l.drop 64) 3) ++
      [(R.match_OP_DST, leNat (slice l 78 2)), (R.match_OP_CMD, c.w 1 + 2 ^ 16 * leNat (slice l 76 2))]
    .going (d.run n (fun h b => let q := fmRead n R.match_OP_STATUS (h, b); fmWrites n ws q.2))
  else if (b.reg R.match_OP_STATUS).toNat % 2 = 0 then .going d
  else
    let st := (fmRead n R.match_OP_STATUS (d.hub, b)).1
    let r := getBits st 1 4
    let d := d.run n (fun h b => (fmRead n R.match_OP_STATUS (h, b)).2)
    let back := r = 1 || r = 5 || (r = 0 && c.w 1 < 2)
    let x := d.hub.mbx c.mbx
    let img := (List.range 16).flatMap (fun w => leBytes 4 (b.reg (R.match_OP_RESULT w)).toNat)
    ⟨0, [r + 2 ^ 16 * getBits st 8 16], if back then { d with hub := d.hub.hostWrite x.fn x.pasid (c.w64 2) img } else d, false⟩
/-- TABLE_OP. While the operation queue is full the command waits before it acts. -/
def execTableOp (m : Nat) (_ : Unit) (late : Bool) (s : State) : Host.Outcome State Fault Refusal :=
  s.onSceuneHeld m 0x023 late (fun c d => (d.bench c.bench).live && 16 ≤ (d.bench c.bench).mt.opq.length) Device.tableOpCmd

/-- TABLE_SWEEP (R142): ends at START. -/
def execTableSweep (m : Nat) (s : State) : Host.Outcome State Fault Refusal :=
  s.onSceune m 0x025 false (fun c _ d => d.onLiveCmd c.bench (fun h b =>
    if b.sweepSt ≠ 0 then .refuse rcWrongState h b
    else
      let q := fmWrites c.bench [(R.match_SEED_NEXT, c.w 2), (R.match_SWEEP_CTL, 1 + 4 * c.w 1)] (h, b)
      .done q.1 q.2))

/-! ## Learning policy (R491) -/

/-- LEARN_POLICY on its bench. -/
def learnPolicy (n : BenchId) (c : Sceune) (h : Hub) (b : Bench) : CmdOut :=
  let dest := if c.w 1 = 0 then 0 else 1
  if dest ≠ b.fld R.match_LEARN_CTL_DEST && !b.mt.learnq.isEmpty then .refuse rcWrongState h b
  else
    let q := fmWrites n [(R.match_LEARN_CTL, b.fld R.match_LEARN_CTL_HOLDOFF_US + 2 ^ 20 * dest)] (h, b)
    let p := q.1.policy n
    .done (q.1.setPolicy n { p with policy := c.w 1, pinMs := c.w 2, queues := (List.range 4).map (fun k => c.w (3 + k)) }) q.2
/-- LEARN_POLICY. -/
def execLearnPolicy (m : Nat) (s : State) : Host.Outcome State Fault Refusal :=
  s.onSceune m 0x024 false (fun c _ d => d.onLiveCmd c.bench (learnPolicy c.bench c))

/-- Ryuner carries out one table operation through the operation registers, and reads its status (R136, R156). [DESIGN CHOICE, log 88, unsafe] -/
def Bench.ryunerOp (b : Bench) (op slot : Nat) (image expect : List Byte) (ecc : Ecc) : OpResult × Bench :=
  let b := (List.range 16).foldl (fun b w => b.setReg (R.match_OP_ENTRY w) (BitVec.ofNat 32 (leNat (slice image (4 * w) 4)))) b
  let b := (List.range 3).foldl (fun b w => b.setReg (R.match_OP_EXPECT w) (BitVec.ofNat 32 (leNat (slice expect (4 * w) 4)))) b
  let r := b.tableOp op slot 0 image expect ecc
  (r.1, (r.2.postOp r.1).setReg R.match_OP_STATUS 0#32)

/-- Whole nanoseconds of a time stamp. -/
def Stamp.nanos (t : Stamp) : Nat := t.sec * 1000000000 + t.ns
/-- W0 of a learned entry: DISP PORT with the flow queue of the record's port. -/
def LearnPolicy.w0 (p : LearnPolicy) (source : Nat) : Nat := 1 + 8 * p.queues.getD (source % 4) 0
/-- The entry that a NEW record makes. -/
def LearnPolicy.entry (p : LearnPolicy) (r : LearnRec) : List Byte :=
  r.key ++ List.replicate (48 - r.key.length) 0#8 ++ leBytes 4 (p.w0 r.source) ++ List.replicate 8 0#8 ++
    leBytes 4 (6 + 8 * (r.table % 16) + 128 * r.key.length + 2 ^ 14 + 2 ^ 16 * r.source)

/-- A record that the policy ignores. [DESIGN CHOICE, log 88, unsafe] -/
def LearnPolicy.ignore (p : LearnPolicy) : LearnPolicy := { p with ignored := p.ignored + 1 }
/-- An entry's last learned change. -/
def LearnPolicy.note (p : LearnPolicy) (slot : Nat) (t : Stamp) : LearnPolicy :=
  { p with changed := (slot, t) :: p.changed.filter (fun x => x.1 ≠ slot) }

/-- What a policy does with a record (R491). [DESIGN CHOICE, log 88, unsafe] -/
def LearnPolicy.apply (p : LearnPolicy) (r : LearnRec) (ecc : Ecc) (b : Bench) : LearnPolicy × Bench :=
  if 32768 ≤ r.source then (p.ignore, b)
  else if !r.moved then
    let x := b.ryunerOp 2 0 (p.entry r) [] ecc
    (if x.1.code = 0 then { p.note (x.1.slot.getD 0) r.ts with inserted := p.inserted + 1 } else p, x.2)
  else if p.policy = 1 then (p.ignore, b)
  else
    let pinned : Bool := match p.changed.lookup r.slot with
      | some t => decide (r.ts.nanos < t.nanos + 1000000 * p.pinMs)
      | none => false
    if pinned then (p.ignore, b)
    else
      let e := b.slot r.slot
      let img := putAt (putAt e 48 (leBytes 4 (p.w0 r.source))) 60 (leBytes 4 (putBits (slCtl e) 16 16 r.source))
      let x := b.ryunerOp 3 r.slot img (slAction e) ecc
      (if x.1.code = 0 then p.note r.slot r.ts else if x.1.code = 5 then p.ignore else p, x.2)

/-- LEARN_POLICY_APPLY: Ryuner pops a record and does what the policy says (R150, R491). -/
def learnApply (n : BenchId) (ecc : Ecc) (h : Hub) (b : Bench) : Hub × Bench :=
  let p := h.policy n
  if p.policy = 0 || !b.mt.opq.isEmpty || !b.flag R.match_LEARN_CTL_DEST then (h, b)
  else match b.takeLearn with
    | none => (h, b)
    | some (r, _) =>
      let x := p.apply r ecc (b.learnPop.setReg R.match_LEARN_REC_STATUS 0#32)
      (h.setPolicy n x.1, x.2)
/-- LEARN_POLICY_APPLY. -/
def execLearnPolicyApply (n : BenchId) (ecc : Ecc) (s : State) : Host.Outcome State Fault Refusal :=
  s.onLive n (fun h b => if h.ryuner then learnApply n ecc h b else (h, b))

/-! ## PORT_SET, TM_WRITE, GATE_LOAD, TIME_CMD -/

/-- PORT_SET (R89 to R94). [DESIGN CHOICE, log 87, unsafe] -/
def execPortSet (m : Nat) (s : State) : Host.Outcome State Fault Refusal :=
  s.onSceune m 0x030 false (fun c _ d => d.onLiveCmd c.bench (fun h b =>
    let p := c.w 1
    if !b.hasPort p then .refuse rcWrongState h b
    else
      let q := fmWrites c.bench [(R.face_PORT_CTL p, c.w 2), (R.face_MAX_FRAME p, c.w 3), (R.face_PAUSE_CTL p, c.w 4),
        (R.face_MODULE_CTL p, c.w 5)] (h, b)
      .done q.1 q.2))

/-- TM_WRITE on its bench: one block of a KIND, its words read from HADDR. [DESIGN CHOICE, log 87, unsafe] -/
def tmWriteCmd (n : BenchId) (kind i : Nat) (l : List Byte) (h : Hub) (b : Bench) : CmdOut :=
  let word := leNat (slice l 0 4)
  let word1 := leNat (slice l 4 4)
  let plain := fun (ws : List (Nat × Nat)) =>
    let q := fmWrites n ws (h, b)
    ({ code := 0, res := [0], hub := q.1, bench := q.2, wait := false } : CmdOut)
  match kind with
  | 0 => fmCommit n (blockWrites (R.tm_MTR_STAGE 0) (wordsOf l 8) ++ [(R.tm_MTR_COMMIT, i)]) R.tm_MTR_COMMIT_STATUS 2 h b
  | 1 => fmCommit n (blockWrites (R.tm_QCTX_STAGE 0) (wordsOf l 8) ++ [(R.tm_QCTX_COMMIT, i)]) R.tm_QCTX_COMMIT_STATUS 2 h b
  | 2 => plain [(R.tm_CLASS_CFG (i / 8) (i % 8), word)]
  | 3 => if i < 32 then plain [(R.tm_CLASS_SHAPE_RATE (i / 8) (i % 8), word), (R.tm_CLASS_SHAPE_BURST (i / 8) (i % 8), word1)]
         else plain [(R.tm_PORT_SHAPE_RATE (i - 32), word), (R.tm_PORT_SHAPE_BURST (i - 32), word1)]
  | 4 => plain [(R.action_MIRROR (i - 1), word)]
  | 5 => plain [(R.face_STATION_ADDR_LO i, word), (R.face_STATION_ADDR_HI i, word1), (R.face_STATION_CTL i, leNat (slice l 8 4))]
  | _ => plain [(R.hopper_POOL_RESERVE i, word)]
/-- TM_WRITE. -/
def execTmWrite (m : Nat) (late : Bool) (s : State) : Host.Outcome State Fault Refusal :=
  s.onSceune m 0x031 late (fun c l d => d.onLiveCmd c.bench (tmWriteCmd c.bench (c.w 1) (c.w 2) l))

/-- GATE_LOAD on its bench (R232): the shadow list of 8-byte entries, its length, the start time, COMMIT. -/
def gateLoad (n : BenchId) (c : Sceune) (l : List Byte) (h : Hub) (b : Bench) : CmdOut :=
  let p := c.w 1
  if !b.hasPort p then .refuse rcBadOperand h b
  else
    let b := if b.gatePending p then b else b.setBytes (gateShadow p) (slice l 0 (8 * min 1024 (c.w 4)))
    fmCommit n ((R.tm_GATE_SHADOW_LEN p, c.w 4) :: blockWrites (R.tm_GATE_START p 0) [c.w 5, c.w 6, c.w 7] ++ [(R.tm_GATE_CTL p, 1)])
      (R.tm_GATE_COMMIT_STATUS p) 2 h b
/-- GATE_LOAD. -/
def execGateLoad (m : Nat) (late : Bool) (s : State) : Host.Outcome State Fault Refusal :=
  s.onSceune m 0x032 late (fun c l d => d.onLiveCmd c.bench (gateLoad c.bench c l))

/-- TIME_CMD (R78): 1 SNAP, 2 LOAD, 3 ADJUST. [DEDUCED, log 84, unsafe] -/
def execTimeCmd (m : Nat) (s : State) : Host.Outcome State Fault Refusal :=
  s.onSceune m 0x033 false (fun c _ d => d.onLiveCmd c.bench (fun h b =>
    let ws := match c.w 1 with
      | 2 => blockWrites (R.face_TIME_SET 0) [c.w 2, c.w 3, c.w 4]
      | 3 => [(R.face_TIME_ADJ, c.w 2)]
      | _ => []
    let q := fmWrites c.bench (ws ++ [(R.face_TIME_CMD, c.w 1)]) (h, b)
    let snap := (List.range 3).map (fun w => (q.2.reg (R.face_TIME_SNAP w)).toNat)
    { code := 0, res := if c.w 1 = 1 then snap else [], hub := q.1, bench := q.2, wait := false }))

/-! ## Keys (R195, R506, R508) -/

/-- The record of a key in the archive takes bytes, where the bench keeps an archive. -/
def Hub.archive (h : Hub) (n : BenchId) (kind i : Nat) (l : List Byte) (b : Bench) : Bench :=
  if h.archives n b && b.dramUp then b.writeDram (b.archiveAt kind i) l [] else b

/-- KEY_LOAD: the blob goes through the sealing engine into its slot, and into the archive. [DESIGN CHOICE, log 89, unsafe] -/
def Device.keyLoad (c : Sceune) (l : List Byte) (d : Device) : Ran :=
  let n := c.bench
  let kind := getBits (c.w 1) 16 1
  let i := getBits (c.w 1) 0 14
  let blob := slice l 0 (c.w 4)
  let u := d.sealFor n kind i blob
  match u.1 with
  | 0 => .done (u.2.run n (fun h b => (h, h.archive n kind i blob b)))
  | 1 => .refuse rcAuthFail { u.2 with hub := u.2.hub.raise 666 }
  | 4 => .refuse rcBadOperand u.2
  | _ => .refuse rcWrongState u.2
/-- KEY_LOAD. It waits while the sealing engine is at another operation. -/
def execKeyLoad (m : Nat) (late : Bool) (s : State) : Host.Outcome State Fault Refusal :=
  s.onSceuneHeld m 0x040 late (fun _ d => d.hub.fw.sealing.isSome) Device.keyLoad

/-- SA_WRITE on its bench (R195); a commit to INACTIVE zeroes the archive record. [DESIGN CHOICE, log 89, unsafe] -/
def saWriteCmd (n : BenchId) (i : Nat) (l : List Byte) (h : Hub) (b : Bench) : CmdOut :=
  let r := fmCommit n (blockWrites (R.cipher_SA_STAGE 0) (wordsOf l 16) ++ [(R.cipher_SA_COMMIT, i)]) R.cipher_SA_COMMIT_STATUS 2 h b
  if r.code = 0 && leNat (slice l 0 4) % 4 = 0 then { r with bench := r.hub.archive n 0 i (List.replicate 64 0#8) r.bench } else r
/-- SA_WRITE. -/
def execSaWrite (m : Nat) (late : Bool) (s : State) : Host.Outcome State Fault Refusal :=
  s.onSceune m 0x041 late (fun c l d => d.onLiveCmd c.bench (saWriteCmd c.bench (c.w 1) l))

/-- One archive record is unwrapped into its slot (R508); one that cannot be read is passed over. [DESIGN CHOICE, log 89, unsafe] -/
def Device.restoreOne (n : BenchId) (d : Device) (x : Nat × Nat) : Device :=
  let b := d.bench n
  let r := b.readDram (b.archiveAt x.1 x.2) (if x.1 = 0 then 64 else 80) []
  let d := d.run n (fun h _ => (h, r.2))
  match r.1 with
  | none => d
  | some blob => if leNat (slice blob 0 1) = 0 then d else (d.sealFor n x.1 x.2 blob).2

/-- KEY_ARCHIVE_RESTORE: after a retained start every archived key goes back to its slot, then a BENCH_STATE notice is queued (R508). It waits while the sealing engine is at another operation. [DEDUCED, log 49, unsafe; DESIGN CHOICE, log 89, unsafe] -/
def Device.restoreKeys (d : Device) (n : BenchId) : Device :=
  let b := d.bench n
  if d.hub.ryuner && b.live && d.hub.archives n b && b.dramUp && b.flag R.dram_DRAM_STATUS_RETAINED &&
      d.hub.fw.sealing.isNone then
    let d := ((List.range 16384).map (fun i => (0, i)) ++ (List.range 64).map (fun i => (1, i))).foldl (Device.restoreOne n) d
    { d with hub := d.hub.noticeManagers 2 n.val }
  else d
/-- KEY_ARCHIVE_RESTORE. -/
def execKeyArchiveRestore (n : BenchId) (s : State) : Host.Outcome State Fault Refusal := .next { s with dev := s.dev.restoreKeys n }

/-! ## ENGINE_LOAD, ENGINE_CTL (R288 to R292) -/

/-- A section of an engine image: KIND, reserved bytes, TARGET, LENGTH, FILE_OFFSET (R290). -/
structure EngSection where
  kind : Nat
  rsvd : Nat
  target : Nat
  len : Nat
  off : Nat
deriving DecidableEq, Repr
def eiSection (l : List Byte) (j : Nat) : EngSection :=
  let f := fun (o n : Nat) => leNat (slice l (48 + 16 * j + o) n)
  ⟨f 0 1, f 1 3, f 4 4, f 8 4, f 12 4⟩
def eiSections (l : List Byte) : List EngSection := (List.range (leNat (slice l 6 2))).map (eiSection l)
def eiMask (l : List Byte) : Nat := leNat (slice l 8 1)
def eiEntry (l : List Byte) (c : Nat) : Nat := leNat (slice l (16 + 4 * c) 4)
/-- Bench offset and size of the memory of a KIND. -/
def engMemory (kind : Nat) : Nat × Nat :=
  match kind with
  | 1 => (0x7000000, 0x80000)
  | 2 => (0x6000000, 0x200000)
  | _ => (0x8000000, 0x100000)

/-- Is an engine image refused with IMAGE_BAD (R291)? -/
def engineImageBad (l : List Byte) : Bool :=
  let k := leNat (slice l 6 2)
  let ss := eiSections l
  let mask := eiMask l
  leNat (slice l 0 4) ≠ 0x49474E45 || leNat (slice l 4 2) ≠ 1 || leNat (slice l 12 4) ≠ imageCrc l 12 || k = 0 || 16 < k ||
    leNat (slice l 9 3) ≠ 0 || l.length < 48 + 16 * k ||
    (List.range 8).any (fun c => 2 ^ 17 ≤ eiEntry l c) ||
    ss.any (fun x => x.kind = 0 || 3 < x.kind || x.rsvd ≠ 0 || (engMemory x.kind).2 < x.target + x.len || l.length < x.off + x.len ||
      (x.kind = 1 && (x.target % 4 ≠ 0 || x.len % 4 ≠ 0))) ||
    (List.range k).any (fun i => (List.range i).any (fun j => (eiSection l i).kind = (eiSection l j).kind &&
      rangesMeet (eiSection l i).target (eiSection l i).len (eiSection l j).target (eiSection l j).len)) ||
    (List.range 8).any (fun c => bit mask c && !ss.any (fun x => x.kind = 1 && x.target ≤ 4 * eiEntry l c && 4 * eiEntry l c < x.target + x.len)) ||
    (mask ≠ 0 && !bit mask 0)

/-- The writes that load an image into the stopped cores, and start the cores it names (R292). [DESIGN CHOICE, log 90, unsafe] -/
def engineLoadNow (n : BenchId) (l : List Byte) (q : Hub × Bench) : Hub × Bench :=
  let b := (eiSections l).foldl (fun (b : Bench) x => b.setBytes ((engMemory x.kind).1 + x.target) (slice l x.off x.len)) q.2
  let cs := (List.range 8).filter (bit (eiMask l))
  fmWrites n (cs.map (fun c => (R.engine_CORE_ENTRY c, eiEntry l c)) ++ cs.map (fun c => (R.engine_CORE_CTL c, 1))) (q.1, b)

/-- ENGINE_LOAD, one step: cores 1 to 7 are stopped, then core 0; once all are STOPPED the image is loaded. [DESIGN CHOICE, log 90, unsafe] -/
def engineLoad (n : BenchId) (begun : Bool) (l : List Byte) (h : Hub) (b : Bench) : CmdOut :=
  if !begun && engineImageBad l then .refuse rcImageBad h b
  else
    let stops := (List.range 8).filter (fun c => b.coreState c = 1 &&
      (c ≠ 0 || (List.range 7).all (fun d => b.coreState (d + 1) = 0)))
    let q := fmWrites n (stops.map (fun c => (R.engine_CORE_CTL c, 2))) (h, b)
    if (List.range 8).all (fun c => q.2.coreState c = 0) then
      let q := engineLoadNow n l q
      .done q.1 q.2
    else { code := 0, res := [], hub := q.1, bench := q.2, wait := true }
/-- ENGINE_LOAD. -/
def execEngineLoad (m : Nat) (_ : Unit) (late : Bool) (s : State) : Host.Outcome State Fault Refusal :=
  s.onSceune m 0x050 late (fun c l d => d.onLiveCmd c.bench (engineLoad c.bench c.begun l))

/-- ENGINE_CTL on its bench: refused whole where R288 refuses one of its starts or stops. [DESIGN CHOICE, log 90, unsafe] -/
def engineCtl (n : BenchId) (start stop : Nat) (h : Hub) (b : Bench) : CmdOut :=
  let others := (List.range 7).map (· + 1)
  let bad := (List.range 8).any (fun c => bit start c && b.coreState c ≠ 0) || (List.range 8).any (fun c => bit stop c && b.coreState c ≠ 1) ||
    (others.any (bit start) && b.coreState 0 ≠ 1 && !bit start 0) ||
    (bit stop 0 && others.any (fun c => b.coreState c ≠ 0 || bit start c))
  if bad then .refuse rcWrongState h b
  else
    let one := fun (mask v : Nat) => ((List.range 8).filter (bit mask)).map (fun c => (R.engine_CORE_CTL c, v))
    let q := fmWrites n (one start 1 ++ one stop 2) (h, b)
    .done q.1 q.2
/-- ENGINE_CTL. -/
def execEngineCtl (m : Nat) (s : State) : Host.Outcome State Fault Refusal :=
  s.onSceune m 0x051 false (fun c _ d => d.onLiveCmd c.bench (engineCtl c.bench (getBits (c.w 1) 0 8) (getBits (c.w 1) 8 8)))

/-! ## Namespaces (R5, R418, R422, R486) -/

/-- NS_CREATE. [DEDUCED, log 92, unsafe] -/
def execNsCreate (m : Nat) (s : State) : Host.Outcome State Fault Refusal :=
  s.onSceune m 0x082 false (fun c _ d =>
    let n := c.bench
    let b := d.bench n
    let key := 64 * n.val + getBits (c.w 1) 0 6
    let remote := bit (c.w 1) 6
    if !b.live then .refuse rcWrongState d
    else if !remote && (d.hub.fw.part = .nf || !b.power.flashEn) then .refuse rcNotPresent d
    else if d.hub.fw.names.any (fun x => x.1 = key) then .refuse rcExists d
    else .done { d with hub := d.hub.updFw (fun w => { w with names := w.names ++ [(key, remote, c.w64 2)] }) })

/-- NS_DELETE: the namespace goes, its XTS slot is cleared and its archive record zeroed. [DESIGN CHOICE, log 89, unsafe] -/
def execNsDelete (m : Nat) (s : State) : Host.Outcome State Fault Refusal :=
  s.onSceune m 0x083 false (fun c _ d =>
    let n := c.bench
    let ns := getBits (c.w 1) 0 6
    let key := 64 * n.val + ns
    if !d.hub.fw.names.any (fun x => x.1 = key) then .refuse rcNotFound d
    else
      let d := { d with hub := d.hub.updFw (fun w => { w with names := w.names.filter (fun x => x.1 ≠ key) }) }
      .done (d.run n (fun h b => if b.live then (h, h.archive n 1 ns (List.replicate 128 0#8) (b.xtsWrite ns false)) else (h, b))))

end Sys2Proof.Machine
end

