-- ==== Sys2Proof/Machine/SceuneCmds.lean ====
section
/-! DEFINITION. Sceune commands of the device as a whole (identity, notices, admin pairs, managers, events, tallies, debug, attestation,
windows), and of claims, rings and NVMe controllers (R486, R487, R489, R490). -/
namespace Sys2Proof.Machine

/-- A command on the hub alone. -/
def State.onSceuneHub (s : State) (m op : Nat) (f : Sceune → Hub → Nat × List Nat × Hub) : Host.Outcome State Fault Refusal :=
  s.onSceune m op false (fun c _ d => d.onHubCmd (f c))

/-! ## IDENTIFY, NOTICE_GET (R489, R490) -/

/-- The ordering code in ASCII, padded to 16 bytes (R4, R489). -/
def Part.ascii (p : Part) : List Byte :=
  [0x49#8, 0x4C#8, 0x55#8, 0x36#8, 0x34#8, 0x31#8, 0x36#8, 0x2D#8, 0x42#8, 0x30#8, 0x2D#8] ++
    (match p with | .fc => [0x46#8, 0x43#8] | .fe => [0x46#8, 0x45#8] | .nf => [0x4E#8, 0x46#8]) ++ [0#8, 0#8, 0#8]

/-- The eight words of IDENTIFY for the caller in mailbox `m`. -/
def Device.identify (d : Device) (m : Nat) : List Nat :=
  let w := d.hub.fw
  let manager := m < 16 && w.managers.contains (fnKey (m / 8) false (m % 8))
  wordsOf w.part.ascii 4 ++
    [0xB0 + 2 ^ 8 * 0x0302, (w.image.map (·.version)).getD 0,
      ((List.finRange 16).filter (fun n => (d.bench n).power.st = .running)).foldl (fun x n => x + 2 ^ n.val) 0,
      w.lc + (if manager then 4 else 0) + (if m < 16 then 0 else 8 + 16 * (m - 16))]
/-- IDENTIFY. -/
def execIdentify (m : Nat) (s : State) : Host.Outcome State Fault Refusal :=
  s.onSceune m 0x001 false (fun c _ d => ⟨0, d.identify c.mbx, d, false⟩)

/-- The oldest notice of a mailbox, and the hub without it: KIND 0 where there is none. [DEDUCED, log 93, unsafe] -/
def Hub.noticeGet (h : Hub) (m : Nat) : List Nat × Hub :=
  let b := h.mbx m
  match b.notices with
  | [] => ([0, 0, 0, 0], h)
  | r :: t => ((r.headD 0 + (if b.noticeLost then 256 else 0)) :: r.drop 1, h.setMbx m { b with notices := t, noticeLost := false })
/-- NOTICE_GET. -/
def execNoticeGet (m : Nat) (s : State) : Host.Outcome State Fault Refusal :=
  s.onSceuneHub m 0x002 (fun c h => (0, h.noticeGet c.mbx))

/-! ## Admin pairs, managers (R484, R486) -/

/-- ADMIN_CREATE. -/
def adminCreate (c : Sceune) (h : Hub) : Nat × List Nat × Hub :=
  let b := h.mbx c.mbx
  if b.admin.isSome then (rcExists, [], h)
  else if h.tableSize b.fn ≤ getBits (c.w 4) 8 11 then (rcBadOperand, [], h)
  else
    let a : AdminPair :=
      { sqBase := c.w64 0, cqBase := c.w64 2, sqSize := getBits (c.w 4) 0 4, cqSize := getBits (c.w 4) 4 4
        vector := getBits (c.w 4) 8 11, entry := .idle, sqHost := (0, 1), sqDev := (0, 1), cqHost := (0, 1), cqDev := (0, 1)
        reread := false, held := [] }
    (0, [], h.setMbx c.mbx { b with admin := some a, adminErr := false })
/-- ADMIN_CREATE. -/
def execAdminCreate (m : Nat) (s : State) : Host.Outcome State Fault Refusal := s.onSceuneHub m 0x003 adminCreate

/-- ADMIN_DESTROY: from the mailbox only. [DEDUCED, log 83, unsafe] -/
def adminDestroy (c : Sceune) (h : Hub) : Nat × List Nat × Hub :=
  let b := h.mbx c.mbx
  if c.admin then (rcNotPermitted, [], h)
  else if b.admin.isNone then (rcNotFound, [], h)
  else (0, [], h.setMbx c.mbx { b with admin := none, adminErr := false })
/-- ADMIN_DESTROY. -/
def execAdminDestroy (m : Nat) (s : State) : Host.Outcome State Fault Refusal := s.onSceuneHub m 0x004 adminDestroy

/-- MANAGER_SET: a revocation that would leave no manager is refused. -/
def managerSet (c : Sceune) (h : Hub) : Nat × List Nat × Hub :=
  let key := fnKey (getBits (c.w 0) 0 1) false (getBits (c.w 0) 1 3)
  let l := h.fw.managers
  let put := fun (l : List Nat) => (0, [], h.updFw (fun w => { w with managers := l }))
  if !h.fnExists key then (rcBadOperand, [], h)
  else if bit (c.w 0) 4 then put (if l.contains key then l else l ++ [key])
  else if (l.filter (· ≠ key)).isEmpty then (rcWrongState, [], h)
  else put (l.filter (· ≠ key))
/-- MANAGER_SET. -/
def execManagerSet (m : Nat) (s : State) : Host.Outcome State Fault Refusal := s.onSceuneHub m 0x005 managerSet

/-! ## EVENT_ROUTE, TALLY_READ (R529, R534) -/

/-- The key that a FUNCTION word names (R487). -/
def functionWord (w : Nat) : Nat := fnKey (getBits w 0 1) (bit w 1) (getBits w 2 11)

/-- EVENT_ROUTE writes EVT_ROUTE_e. [DEDUCED, log 92, unsafe] -/
def eventRoute (c : Sceune) (h : Hub) : Nat × List Nat × Hub :=
  let e := c.w 0
  let key := functionWord (c.w 1)
  let vec := getBits (c.w 2) 0 11
  if 704 ≤ e then (rcBadOperand, [], h)
  else if bit (c.w 2) 31 then (0, [], (h.setReg (R.irq_EVT_ROUTE e) 0#32).setFld (hostFlag e) 0)
  else if !h.fnExists key || h.tableSize key ≤ vec then (rcBadOperand, [], h)
  else (0, [], h.setReg (R.irq_EVT_ROUTE e) (BitVec.ofNat 32 (1 + 2 * getBits (c.w 1) 0 1 + 4 * getBits (c.w 1) 1 1 +
    8 * getBits (c.w 1) 2 11 + 2 ^ 14 * vec)))
/-- EVENT_ROUTE. -/
def execEventRoute (m : Nat) (s : State) : Host.Outcome State Fault Refusal := s.onSceuneHub m 0x006 eventRoute

/-- TALLY_READ: COUNT tallies with consecutive INSTANCE values. [DEDUCED, log 92, unsafe] -/
def tallyReadCmd (c : Sceune) (d : Device) : Ran :=
  let l := (List.range (c.w 2)).map (fun i => if c.w 0 % 2 ^ 14 + i < 2 ^ 14 then d.tallyOf (c.w 0 + i) else none)
  if c.w 1 ≠ 0 then .refuse rcBadOperand d
  else if l.any (·.isNone) then .refuse rcNotFound d
  else ⟨0, l.flatMap (fun v => [v.getD 0 % 2 ^ 32, v.getD 0 / 2 ^ 32]), d, false⟩
/-- TALLY_READ. -/
def execTallyRead (m : Nat) (s : State) : Host.Outcome State Fault Refusal :=
  s.onSceune m 0x007 false (fun c _ d => tallyReadCmd c d)

/-! ## DEBUG_OPEN, DEBUG_CLOSE, ATTEST (R501, R511, R512) -/

/-- The return code of a debug command's RESULT. -/
def debugCode (r : Nat) : Nat :=
  match r with | 0 => rcOk | 1 => rcAuthFail | 2 => rcWrongState | 3 => rcNotFound | _ => rcBadOperand

/-- Ryuner reads the RESULT of its DBG_CMD from DBG_CMD_STATUS (R511, R522), and its command ends with that. -/
def Device.dbgDone (r : Nat × Device) : Ran :=
  let d := Device.dbgStatus r
  ⟨debugCode r.1, [], { d with hub := d.hub.setReg R.dbg_DBG_CMD_STATUS 0#32 }, false⟩
/-- DEBUG_OPEN: the token goes to DBG_TOKEN, and DBG_CMD opens the session. [DEDUCED, log 91, unsafe] -/
def Device.debugOpenCmd (c : Sceune) (l : List Byte) (d : Device) : Ran :=
  let t := slice l 0 160
  let h := (List.range 40).foldl (fun h w => h.setReg (R.dbg_DBG_TOKEN w) (BitVec.ofNat 32 (leNat (slice t (4 * w) 4)))) d.hub
  let d := { d with hub := h }
  let lvl := getBits (c.w 0) 4 2
  if !d.hub.dbgAnswers then .refuse rcWrongState d
  else if tokType t ≠ lvl || (lvl = 1 && tokBench t ≠ getBits (c.w 0) 0 4) then .refuse rcBadOperand d
  else
    Device.dbgDone (d.dbgOpen t)
/-- DEBUG_OPEN. -/
def execDebugOpen (m : Nat) (late : Bool) (s : State) : Host.Outcome State Fault Refusal :=
  s.onSceune m 0x042 late Device.debugOpenCmd

/-- DEBUG_CLOSE. -/
def execDebugClose (m : Nat) (s : State) : Host.Outcome State Fault Refusal :=
  s.onSceune m 0x043 false (fun c _ d =>
    Device.dbgDone (d.dbgClose (c.w 0)))

/-- The attestation report of R501. [PRESUMED, log 40, safe] -/
def Hub.report (h : Hub) (nonce : List Nat) : List Byte :=
  let f := h.fw.fuses
  let img := h.fw.image.getD { svn := 0, version := 0, measurement := 0 }
  let mask := h.fld R.dbg_DBG_SESSION_ENGINE_MASK
  let dbg := (if h.flag R.dbg_DBG_SESSION_FULL then 1 else 0) + (if mask ≠ 0 then 2 else 0) + (if h.fw.opened then 4 else 0)
  let body := [1#8, BitVec.ofNat 8 h.fw.lc, BitVec.ofNat 8 dbg, BitVec.ofNat 8 f.svn] ++ leBytes 2 mask ++ [0#8, 0#8] ++
    leBytes 4 (h.reg R.dbg_DEBUG_SEQ).toNat ++ leBytes 4 img.version ++ nonce.flatMap (leBytes 4) ++ leBytes 32 img.measurement ++
    leBytes 64 (Config.aliasKey f.deviceSecret img.measurement).toNat ++ leBytes 64 (Config.aliasEndorse f.deviceSecret img.measurement).toNat
  body ++ leBytes 64 (Config.aliasSign f.deviceSecret img.measurement (Config.sha256 body)).toNat
/-- ATTEST. [DEDUCED, log 91, unsafe] -/
def execAttest (m : Nat) (s : State) : Host.Outcome State Fault Refusal :=
  s.onSceuneHub m 0x044 (fun c h =>
    if h.fw.openedFull || !h.fw.secrets then (rcWrongState, [], h)
    else (0, wordsOf (h.report [c.w 0, c.w 1, c.w 2, c.w 3]) 64, h))

/-! ## Claims (R360 to R365, R508) -/

/-- The claim that word 1 names: its index in its bench. -/
def Sceune.claim (c : Sceune) : Nat := c.w 0 % 256

/-- CLAIM_CREATE: claim pages that overlap the key archive are refused (R508). -/
def claimCreateCmd (c : Sceune) (h : Hub) (b : Bench) : CmdOut :=
  if h.archives c.bench b && c.w 5 ≠ 0 && b.archiveBase < 65536 * (c.w 4 + c.w 5) then .refuse rcBadOperand h b
  else claimCreate c.bench c.ops h b
/-- CLAIM_CREATE. -/
def execClaimCreate (m : Nat) (s : State) : Host.Outcome State Fault Refusal :=
  s.onSceune m 0x060 false (fun c _ d => d.onLiveCmd c.bench (claimCreateCmd c))
/-- CLAIM_QUIESCE: it begins, and ends when the claim is QUIESCED. -/
def execClaimQuiesce (m : Nat) (late : Bool) (s : State) : Host.Outcome State Fault Refusal :=
  s.onSceune m 0x061 late (fun c _ d =>
    if c.begun then .going d else d.onLiveCmd c.bench (claimQuiesce c.claim (getBits (c.w 0) 16 16)))
/-- CLAIM_RESUME. -/
def execClaimResume (m : Nat) (s : State) : Host.Outcome State Fault Refusal :=
  s.onSceune m 0x062 false (fun c _ d => d.onLiveCmd c.bench (claimResume c.claim))
/-- CLAIM_RESET: it begins, and ends when the claim is QUIESCED. -/
def execClaimReset (m : Nat) (late : Bool) (s : State) : Host.Outcome State Fault Refusal :=
  s.onSceune m 0x063 late (fun c _ d => if c.begun then .going d else d.onLiveCmd c.bench (claimReset c.claim))
/-- CLAIM_REMOVE. -/
def execClaimRemove (m : Nat) (s : State) : Host.Outcome State Fault Refusal :=
  s.onSceune m 0x064 false (fun c _ d => d.onLiveCmd c.bench (claimRemove c.bench c.claim))
/-- CLAIM_SET_SHARE. -/
def execClaimSetShare (m : Nat) (s : State) : Host.Outcome State Fault Refusal :=
  s.onSceune m 0x065 false (fun c _ d => d.onLiveCmd c.bench (claimSetShare c.claim (c.w 1)))

/-! ## Windows (R338) -/

/-- WINDOW_SET: a shadow entry of a PF's tables, and a commit where COMMIT is 1. [DEDUCED, log 92, unsafe] -/
def windowSet (n : BenchId) (c : Sceune) (h : Hub) (b : Bench) : CmdOut :=
  let key := fnKey (getBits (c.w 0) 0 1) false (getBits (c.w 0) 1 3)
  let page := getBits (c.w 0) 5 10
  let o := if bit (c.w 0) 4 then dbEntryAt key page else ctlEntryAt key page
  let sh := sparseSet hubRegReset (sparseSet hubRegReset h.shadow o (BitVec.ofNat 32 (c.w 1))) (o + 4) (BitVec.ofNat 32 (c.w 2))
  let h := { h with shadow := sh }
  if bit (c.w 0) 15 then
    let q := winCommit n key h b
    let st := (q.1.reg (R.ep_WIN_COMMIT_STATUS (fnPort key))).toNat
    ⟨if winCheck n key h b = 0 then 0 else rcHwRefused, [st], q.1.setReg (R.ep_WIN_COMMIT_STATUS (fnPort key)) 0#32, q.2, false⟩
  else ⟨0, [0], h, b, false⟩
/-- WINDOW_SET. -/
def execWindowSet (m : Nat) (s : State) : Host.Outcome State Fault Refusal :=
  s.onSceune m 0x066 false (fun c _ d =>
    let n := benchOf (d.hub.homeBench (fnKey (getBits (c.w 0) 0 1) false (getBits (c.w 0) 1 3)))
    d.onCmd n (windowSet n c))

/-! ## Rings (R72, R362, R383) -/

/-- The ring that word 1 names. -/
def Sceune.ring (c : Sceune) : Nat := getBits (c.w 0) 0 14

/-- RING_CREATE. -/
def execRingCreate (m : Nat) (s : State) : Host.Outcome State Fault Refusal :=
  s.onSceune m 0x070 false (fun c _ d => d.onLiveCmd c.bench (ringCreate c.ops))
/-- RING_START. -/
def execRingStart (m : Nat) (s : State) : Host.Outcome State Fault Refusal :=
  s.onSceune m 0x071 false (fun c _ d => d.onLiveCmd c.bench (ringStart c.bench c.ring (bit (c.w 0) 31)))
/-- RING_STOP. -/
def execRingStop (m : Nat) (s : State) : Host.Outcome State Fault Refusal :=
  s.onSceune m 0x072 false (fun c _ d => d.onLiveCmd c.bench (ringStop c.ring))
/-- RING_DESTROY. -/
def execRingDestroy (m : Nat) (s : State) : Host.Outcome State Fault Refusal :=
  s.onSceune m 0x073 false (fun c _ d => d.onLiveCmd c.bench (ringDestroy c.ring))
/-- RING_SET_STEP. -/
def execRingSetStep (m : Nat) (s : State) : Host.Outcome State Fault Refusal :=
  s.onSceune m 0x074 false (fun c _ d => d.onLiveCmd c.bench (ringSetStep c.ring (getBits (c.w 0) 24 5)))

/-! ## NVMe controllers (R419) -/

/-- Is page 0 of a claim mapped: by the VF's control page, or by an entry in force of its PF's control table? -/
def Hub.page0Mapped (h : Hub) (n : BenchId) (c : Claim) : Bool :=
  let a := benchBase n + dramBase + 65536 * c.pageBase
  let entry := fun (o : Nat) => (h.reg o).toNat + 2 ^ 32 * (h.reg (o + 4)).toNat
  let pages := if fnVf c.fn then 1 else 1024
  c.pages ≠ 0 && (List.range pages).any (fun j => bit (entry (ctlEntryAt c.fn j)) 0 && 65536 * getBits (entry (ctlEntryAt c.fn j)) 16 32 = a)

/-- NVME_GRANT: a free controller; the spec does not say which. [DEDUCED, log 92, unsafe; DESIGN CHOICE, log 98, safe] -/
def nvmeGrant (n : BenchId) (i : Nat) (h : Hub) (b : Bench) : CmdOut :=
  match b.claim? i with
  | none => .refuse rcWrongState h b
  | some c =>
    let nvme := match h.pfOf c.fn with
      | some f => decide (h.fld (R.ep_FN_CFG_CLASS (fnPort c.fn) f) = 1)
      | none => false
    if !nvme || !h.page0Mapped n c || (b.ctrlOf i).isSome then .refuse rcWrongState h b
    else match b.anyOf ((List.range 64).filter (fun k => !b.flag (R.storage_NVME_CTRL_VALID k))) with
      | none => .refuse rcNoResource h b
      | some k =>
        let b := b.spent.setReg (R.storage_NVME_CTRL k) (BitVec.ofNat 32 (i + 256))
        { code := 0, res := [k], hub := h, bench := b.setNpage k NvmePage.blank, wait := false }
/-- NVME_GRANT. -/
def execNvmeGrant (m : Nat) (s : State) : Host.Outcome State Fault Refusal :=
  s.onSceune m 0x080 false (fun c _ d => d.onLiveCmd c.bench (nvmeGrant c.bench c.claim))

/-- NVME_REMOVE. -/
def execNvmeRemove (m : Nat) (s : State) : Host.Outcome State Fault Refusal :=
  s.onSceune m 0x081 false (fun c _ d => d.onLiveCmd c.bench (fun h b =>
    match b.ctrlOf c.claim with
    | none => .refuse rcNotFound h b
    | some k => .done h ((b.setReg (R.storage_NVME_CTRL k) 0#32).setNpage k NvmePage.blank)))

end Sys2Proof.Machine
end

