-- ==== Sys2Proof/Machine/StartUp.lean ====
section
/-! DEFINITION. Start-up and reset (R498, R499, R538 to R550), PLL unlock (R42), power fail (R426, R569), thermal warnings and trips
(R570 to R573), and the leak of the error counters (R526). -/
namespace Sys2Proof.Machine

/-! ## Forced off (R44, R426, R546, R571) -/

/-- Every bench that is not OFF is forced off; a running power-fail flush ends, its remaining entries counted. -/
def Device.forceAll (d : Device) : Device := d.runAll (fun n h b => benchForced n h b.flushUndone)

/-! ## Hub fault reset (R42, R546, R547) -/

/-- The firmware's state that a hub fault reset leaves: the part, its fuses, and what its pins show; HUB_CLK_SRC as last written. [DESIGN CHOICE, log 10, safe] -/
def Firmware.afterFault (w : Firmware) : Firmware :=
  { Firmware.blank w.part w.fuses with perst := w.perst, pwrfail := w.pwrfail, hubSrc := w.hubSrc }

/-- The hub that a hub fault reset leaves: at reset but for RESET_CAUSE, which records the fault, and the straps. [DEDUCED, log 9, safe; DEDUCED, log 11, unsafe] -/
def Hub.afterFault (h : Hub) (cause : Nat) : Hub :=
  let r : Hub := { Hub.blank h.fw.afterFault with free := h.free }
  let r := (r.setReg R.pcr_RESET_CAUSE (h.reg R.pcr_RESET_CAUSE)).setReg R.pcr_STRAP_STATUS (h.reg R.pcr_STRAP_STATUS)
  ((r.setFld R.pcr_RESET_CAUSE_IMAGE_OK 0).setFld R.pcr_RESET_CAUSE_HUB_FAULT 1).setFld R.pcr_RESET_CAUSE_HUB_FAULT_CAUSE cause

/-- The device enters hub fault reset: 1 PLL_UNLOCK, 2 SRAM_ECC, 3 SUPPLY, 4 IMAGE_CHANGED. It is held until POR_RELEASE. A
bench with DRAM_RETAIN = 1 keeps its DRAM in self-refresh (R546). [DEDUCED, log 9, safe] -/
def Device.hubFault (d : Device) (cause : Nat) : Device :=
  let keep := fun (n : BenchId) (h : Hub) (b : Bench) =>
    (h, if b.power.st = .off then b
      else { b with power := { b.power with retain := h.flag (R.pcr_BENCH_CTL_DRAM_RETAIN n.val) } })
  let d := ((d.runAll keep).forceAll.resetPort 0).resetPort 1
  { d with hub := d.hub.afterFault cause }

/-- HUB_FAULT_RESET: an uncorrectable Foreman SRAM error, a trip of the hub supply monitor, or a PLL unlock. -/
def execHubFaultReset (cause : Nat) (s : State) : Host.Outcome State Fault Refusal :=
  .next { s with dev := if s.dev.hub.fw.por || cause = 0 || 3 < cause then s.dev else s.dev.hubFault cause }

/-- PLL_UNLOCK: of a bench island, or, with no bench, of the hub or the Foreman (R42). -/
def execPllUnlock (n : Option BenchId) (s : State) : Host.Outcome State Fault Refusal :=
  match n with
  | some n => s.onBoth n (benchFails n (R.pcr_BENCH_STATUS_PLL_UNLOCK n.val) (some 2))
  | none => .next { s with dev := if s.dev.hub.up then s.dev.hubFault 1 else s.dev }

/-! ## Power-on reset (R538, R539, R541, R518) -/

/-- What the AUX domain keeps of the hub's registers and functions: the side port's block, PME_En and PME_Status (R518). -/
def Hub.auxRegs (h : Hub) : List (Nat × Word) := h.regs.filter (fun x => 0x600000 ≤ x.1 && x.1 < 0x700000)
def Hub.auxFns (h : Hub) : List (Nat × FnSt) :=
  (List.range 16).foldl (fun l i =>
    let key := fnKey (i / 8) false (i % 8)
    let f := h.fn key
    sparseSet (fun _ => FnSt.reset) l key { FnSt.reset with pmeEn := f.pmeEn, pmeStatus := f.pmeStatus }) []

/-- The firmware's state in power-on reset: with `aux` the AUX domain goes on. -/
def Firmware.inPor (w : Firmware) (aux : Bool) : Firmware :=
  let r := { Firmware.blank w.part w.fuses with perst := w.perst, pwrfail := w.pwrfail }
  if aux then { r with side := { w.side with rx := [] }, wakeArmed := true, wakeN := w.wakeN, power := w.power } else r

/-- The hub in power-on reset. [DEDUCED, log 11, unsafe] -/
def Hub.inPor (h : Hub) (aux : Bool) : Hub :=
  let r : Hub := { Hub.blank (h.fw.inPor aux) with free := h.free }
  if aux then { r with regs := h.auxRegs, fns := h.auxFns } else r

/-- Power-on reset holds, or begins: every bench is off and empty. -/
def Device.porAssert (d : Device) (aux : Bool) : Device :=
  { hub := d.hub.inPor (d.hub.fw.wakeArmed && aux)
    benches := d.benches.map (fun b => Bench.blank Power.off b.free)
    answer := d.answer }
/-- POR_ASSERT: `aux` says that VDD_AUX stays in range. -/
def execPorAssert (aux : Bool) (s : State) : Host.Outcome State Fault Refusal := .next { s with dev := s.dev.porAssert aux }

/-- Design latency of a hub crossing (R40). -/
def hubXingLat (k : Nat) : Nat := if k < 4 then 3 else 2
/-- Is the destination or source island of hub crossing `k` on an unlocked clock (R41)? -/
def Hub.unlocked (h : Hub) (k : Nat) : Bool :=
  if k < 2 then false else if k < 4 then h.flag R.pcr_HUB_CLK_SRC_SIDE_SRC else h.flag R.pcr_HUB_CLK_SRC_DBG_SRC

/-- One hub crossing trains: FIXED at its latency, or FAILED with event 641. One on an unlocked clock is never trained: it reads
UNLOCKED and its nominal latency (R41, R56). -/
def Hub.trainCrossing (failed : List (Fin 6)) (h : Hub) (k : Fin 6) : Hub :=
  if h.unlocked k.val then
    (h.setFld (R.pcr_XING_LAT_HUB_UNLOCKED k.val) 1).setFld (R.pcr_XING_LAT_HUB_LAT k.val) (hubXingLat k.val)
  else if failed.contains k then (h.setFld (R.pcr_XING_LAT_HUB_XSTATE k.val) 3).raise 641
  else (h.setFld (R.pcr_XING_LAT_HUB_XSTATE k.val) 2).setFld (R.pcr_XING_LAT_HUB_LAT k.val) (hubXingLat k.val)
/-- Has a hub crossing failed? It holds the hub in reset until the next power-on reset (R541). -/
def Hub.crossFailed (h : Hub) : Bool := (List.range 6).any (fun k => h.fld (R.pcr_XING_LAT_HUB_XSTATE k) = 3)

/-- The hub and Foreman PLLs lock, or not; the crossings train, and unless one fails the hub is up. -/
def Hub.lockTry (h : Hub) (locked : Bool) (failed : List (Fin 6)) : Hub :=
  if !locked then h
  else
    let h := (List.finRange 6).foldl (Hub.trainCrossing failed) h
    h.updFw (fun w => { w with hubUp := !h.crossFailed })

/-- The first PF of each link is enabled at reset (R354), and the manager's commands come from those (R474). -/
def Hub.firstPfs (h : Hub) : Hub :=
  let l := ((List.range 4).filter h.hasLink).map firstPf
  (l.foldl (fun h k => h.setFld (R.ep_FN_CFG_ENABLE (fnPort k) (fnIdx k)) 1) h).updFw (fun w => { w with managers := l })

/-- The side port's registers read the retained copies (R518). -/
def Hub.restoreWake (h : Hub) : Hub :=
  match h.fw.side.retained with
  | some (lo, hi, _) =>
    ((h.setReg (R.side_STATION_ADDR_LO 0) (BitVec.ofNat 32 lo)).setFld (R.side_STATION_ADDR_HI_ADDR_HI 0) hi).setFld
      (R.side_STATION_CTL_VALID 0) (hi / 2 ^ 16)
  | none => h
/-- The clock sources in force: as last written before a hub fault reset, else the reset values; SIDE_SRC from the retained copy. [DESIGN CHOICE, log 10, safe] -/
def Hub.clockSources (h : Hub) : Hub :=
  let src := match h.fw.side.retained with
    | some (_, _, side) => putBits h.fw.hubSrc 0 1 (if side then 1 else 0)
    | none => h.fw.hubSrc
  (h.setReg R.pcr_HUB_CLK_SRC (BitVec.ofNat 32 src)).updFw (fun w => { w with hubSrc := src })

/-- Power-on reset, or the hold of a hub fault reset, ends: time 0 of R541. [DESIGN CHOICE, log 8, safe; DEDUCED, log 9, safe; DESIGN CHOICE, log 12, safe] -/
def Hub.porRelease (h : Hub) (split0 split1 : Bool) : Hub :=
  let h := if h.fld R.pcr_RESET_CAUSE_HUB_FAULT_CAUSE ≠ 0 then h
    else (h.setFld R.pcr_STRAP_STATUS_PCIE_SPLIT_0 (if split0 then 1 else 0)).setFld R.pcr_STRAP_STATUS_PCIE_SPLIT_1 (if split1 then 1 else 0)
  let h := h.updFw (fun w => { w with por := false, power := .d0, wakeArmed := false, lc := w.fuses.state, pendingLc := false })
  let h := h.setReg R.dbg_DEBUG_SEQ ((Config.freeValue h.free).setWidth 32)
  let h : Hub := { h with free := h.free + 1 }
  let h := h.setFld R.pcr_THERM_CTL_WARN_C (warnReset h.fw.part)
  h.restoreWake.clockSources.firstPfs
/-- POR_RELEASE: 1 ms after the last condition is met; `locked` and `failed` are what the PLLs and the crossings come to. [DESIGN CHOICE, log 8, safe] -/
def execPorRelease (split0 split1 locked : Bool) (failed : List (Fin 6)) (s : State) : Host.Outcome State Fault Refusal :=
  s.onHub (fun h => if h.fw.por && !h.fw.pwrfail then (h.porRelease split0 split1).lockTry locked failed else h)

/-- HUB_PLL_LOCK_RETRY: the next attempt to lock, 10 ms later (R541). -/
def execHubPllLockRetry (locked : Bool) (failed : List (Fin 6)) (s : State) : Host.Outcome State Fault Refusal :=
  s.onHub (fun h => if !h.fw.por && !h.fw.hubUp && !h.crossFailed then h.lockTry locked failed else h)

/-! ## Secure boot (R498, R499, R540, R541) -/

/-- The hash against which Ryuner images are verified; none for a SCRAPPED part (R497). -/
def Hub.bootHash (h : Hub) : Option Nat :=
  match h.fw.lc with
  | 1 => some h.fw.fuses.ownerBoot
  | 3 => none
  | _ => some h.fw.fuses.kysinBoot

/-- BODY_LENGTH of an image. -/
def imgLen (l : List Byte) : Nat := leNat (slice l 12 4)
/-- The body of an image. -/
def imgBody (l : List Byte) : List Byte := slice l 176 (imgLen l)
/-- The MEASUREMENT of an image (R498). -/
def imgMeas (l : List Byte) : Nat := (Config.sha256 (slice l 0 176)).toNat

/-- The first check of R498 that a slot fails: 0 for none, 7 where it cannot be read. [DEDUCED, log 13, unsafe; DESIGN CHOICE, log 14, safe] -/
def Hub.slotCause (h : Hub) (slot : Option (List Byte)) : Nat :=
  match slot with
  | none => 7
  | some l =>
    if l.length < 176 then 7
    else if leNat (slice l 0 4) ≠ 0x524E5952 || leNat (slice l 4 2) ≠ 1 || leNat (slice l 7 1) ≠ 0 then 1
    else if h.bootHash ≠ some (Config.sha256 (slice l 48 64)).toNat then 2
    else if !Config.ecdsaOk (slice l 48 64) (slice l 112 64) (Config.sha256 (slice l 0 112)) then 3
    else if leNat (slice l 6 1) < h.fw.fuses.svn then 4
    else if imgLen l < 4 || 7340032 < imgLen l then 5
    else if l.length < 176 + imgLen l then 7
    else if (Config.sha256 (imgBody l)).toNat ≠ beNat (slice l 16 32) then 6
    else 0

/-- Ryuner's image is loaded into Foreman SRAM and started. -/
def Hub.startImage (h : Hub) (l : List Byte) : Hub :=
  let i : Image := { svn := leNat (slice l 6 1), version := leNat (slice l 8 4), measurement := imgMeas l }
  { h with mem := memWrite h.mem 0x10000000 (imgBody l) }.updFw (fun w => { w with image := some i })

/-- The boot ROM starts the image of a slot (R499): SECRETS filled, BOOT_LOCK set, BOOT_MEAS and IMAGE_OK; the links may train (R542). -/
def Hub.bootImage (h : Hub) (l : List Byte) : Hub :=
  let h := (h.startImage l).updFw (fun w => { w with locked := true, secrets := true })
  let h := (List.range 8).foldl (fun h w =>
    h.setReg (R.pcr_BOOT_MEAS w) (BitVec.ofNat 32 (leNat (slice (beBytes 32 (imgMeas l)) (4 * w) 4)))) h
  ((h.setFld R.pcr_RESET_CAUSE_IMAGE_OK 1).trainPort 0).trainPort 1

/-- The boot ROM checks slot A, then slot B (R498). -/
def Hub.boot (h : Hub) (a b : Option (List Byte)) : Hub :=
  let ca := h.slotCause a
  let h1 := h.setFld R.seal_BOOT_STATUS_A_CAUSE ca
  if ca = 0 then h1.bootImage (a.getD [])
  else
    let cb := h.slotCause b
    let h2 := h1.setFld R.seal_BOOT_STATUS_B_CAUSE cb
    if cb = 0 then (h2.setFld R.seal_BOOT_STATUS_SLOT_B 1).bootImage (b.getD []) else h2
/-- BOOT_SLOT_CHECK: `a` and `b` are the bytes of the slots, none where a read fails. -/
def execBootSlotCheck (a b : Option (List Byte)) (s : State) : Host.Outcome State Fault Refusal :=
  s.onHub (fun h => if h.up && !h.fw.locked then h.boot a b else h)

/-! ## Foreman reset (R549, R550) -/

/-- Does a slot pass R498 with the MEASUREMENT in BOOT_MEAS? -/
def Hub.slotMatches (h : Hub) (slot : Option (List Byte)) : Bool :=
  h.slotCause slot = 0 && leBytes 32 (h.wordsAt (R.pcr_BOOT_MEAS 0) 8) == beBytes 32 (imgMeas (slot.getD []))

/-- The Foreman's part of its reset: SRAM outside SECRETS zeroed, mailboxes cleared, commands in progress lost with no ACK. [DESIGN CHOICE, log 15, unsafe] -/
def Hub.foremanCleared (h : Hub) : Hub :=
  let h := h.clearMailboxes (fun _ => true)
  let h : Hub := { h with mem := h.mem.filter (fun c => !(0x10000000 ≤ c.1 && c.1 < 0x107F0000)) }
  let h := h.updFw (fun w => { w with cmds := [], wdog := 0, image := none })
  ((h.setFld R.pcr_FM_WDOG_EN 0).setFld R.pcr_RESET_CAUSE_FM_RESET 1).tick T.FM_WDOG_RESETS

/-- A Foreman reset: the first slot that matches runs; with none the device enters hub fault reset. [DESIGN CHOICE, log 15, unsafe] -/
def Device.foremanReset (d : Device) (a b : Option (List Byte)) : Device :=
  let h := d.hub.foremanCleared
  if h.slotMatches a then { d with hub := h.startImage (a.getD []) }
  else if h.slotMatches b then { d with hub := h.startImage (b.getD []) }
  else { d with hub := h }.hubFault 4
/-- FOREMAN_RESET: the ndmreset of the Foreman debug module in a FULL session. [DESIGN CHOICE, log 16, safe] -/
def execForemanReset (a b : Option (List Byte)) (s : State) : Host.Outcome State Fault Refusal :=
  let h := s.dev.hub
  .next { s with dev := if h.up && h.flag R.dbg_DBG_SESSION_FULL then s.dev.foremanReset a b else s.dev }

/-- FM_WDOG_KICK: a write of FM_WDOG with KICK = 1 and the other fields of `v`. -/
def execFmWdogKick (v : Word) (s : State) : Host.Outcome State Fault Refusal :=
  s.onHub (fun h => if h.up then h.wdogWrite (putBits v.toNat 17 1 1) else h)

/-- Ticks of a millisecond. -/
def ticksPerMs : Nat := 1250000
/-- FM_WDOG_EXPIRE: PERIOD milliseconds without a KICK. [DESIGN CHOICE, log 16, safe] -/
def execFmWdogExpire (a b : Option (List Byte)) (s : State) : Host.Outcome State Fault Refusal :=
  let h := s.dev.hub
  .next { s with dev :=
    if h.up && h.flag R.pcr_FM_WDOG_EN && h.fld R.pcr_FM_WDOG_PERIOD * ticksPerMs ≤ h.fw.wdog then s.dev.foremanReset a b else s.dev }

/-! ## Power fail (R426, R569) -/

/-- A bench sheds its load: the armed flush begins, its ports leave UP. [DESIGN CHOICE, log 18, unsafe] -/
def Bench.shedLoad (b : Bench) : Bench :=
  let b := b.powerFailing
  if b.live then
    (List.range 4).foldl (fun b p =>
      if b.isUp p then b.leaveUp p psWait
      else if b.hasPort p && b.portSt p = psTraining then b.setPortSt p psWait else b) b
  else b
/-- Every link is lost, and no link trains. -/
def Device.dropLinks (d : Device) : Device :=
  let d := (List.range 4).foldl (fun (d : Device) l => if d.hub.linkState l = 0 then d else d.linkDown l 0) d
  { d with hub := (List.range 4).foldl (fun (h : Hub) l => h.setLink l { h.link l with training := false }) d.hub }
/-- PWRFAIL_N falls while the device runs. -/
def Device.powerFall (d : Device) : Device :=
  ({ d with hub := d.hub.raise 662 }.runAll (fun _ h b => (h, b.shedLoad))).dropLinks
/-- PWRFAIL_FALL: in power-on reset the fall holds the reset (R538). -/
def execPwrfailFall (s : State) : Host.Outcome State Fault Refusal :=
  let d := { s.dev with hub := s.dev.hub.updFw (fun w => { w with pwrfail := true }) }
  .next { s with dev := if s.dev.hub.fw.pwrfail then s.dev else if s.dev.hub.up then d.powerFall else d }

/-- FLUSH_WINDOW_END: 25 ms after the fall PWRFAIL_N is still low. -/
def execFlushWindowEnd (s : State) : Host.Outcome State Fault Refusal :=
  .next { s with dev := if s.dev.hub.fw.pwrfail && s.dev.hub.up then s.dev.forceAll else s.dev }

/-- A bench takes its load back: RECOVERED, enabled ports wait for their signal. [DESIGN CHOICE, log 18, unsafe] -/
def Bench.loadBack (b : Bench) : Bench :=
  if b.live then
    (List.range 4).foldl (fun b p =>
      if b.hasPort p && b.flag (R.face_PORT_CTL_ENABLE p) && b.portSt p ≠ psWait && b.portSt p ≠ psFailed then b.setPortSt p psWait
      else b) b.powerBack
  else b
/-- PWRFAIL_RISE. -/
def execPwrfailRise (s : State) : Host.Outcome State Fault Refusal :=
  let d := { s.dev with hub := s.dev.hub.updFw (fun w => { w with pwrfail := false }) }
  .next { s with dev :=
    if s.dev.hub.fw.pwrfail && s.dev.hub.up then
      let d := d.runAll (fun _ h b => (h, b.loadBack))
      { d with hub := (d.hub.trainPort 0).trainPort 1 }
    else d }

/-! ## Thermal (R570 to R573) -/

/-- The trip point in °C. [DESIGN CHOICE, log 17, unsafe] -/
def tripPoint (p : Part) : Nat := match p with | .fe => 125 | _ => 115

/-- The sensors that read: the hub's, and those of benches that are not OFF. [DESIGN CHOICE, log 17, unsafe] -/
def Device.sensorOn (d : Device) (s : Nat) : Bool := s = 16 || (d.bench (benchOf s)).power.st ≠ .off
/-- A reading in quarter degrees. -/
def reading (temps : List (BitVec 12)) (s : Nat) : Int := (temps.getD s 0#12).toInt

/-- The sensors' readings go to TEMP. -/
def Device.putTemps (d : Device) (temps : List (BitVec 12)) : Device :=
  { d with hub := (List.range 17).foldl (fun h s =>
      if d.sensorOn s then (h.setFld (R.pcr_TEMP_F s) (temps.getD s 0#12).toNat).setFld (R.pcr_TEMP_VALID s) 1
      else h.setFld (R.pcr_TEMP_VALID s) 0) d.hub }

/-- The sensors that read at or above a temperature in °C. [DESIGN CHOICE, log 17, unsafe] -/
def Device.hot (d : Device) (temps : List (BitVec 12)) (c : Nat) : List Nat :=
  (List.range 17).filter (fun s => d.sensorOn s && decide ((4 * c : Int) ≤ reading temps s))
/-- Do all sensors that read lie at least `k` °C below a temperature? -/
def Device.below (d : Device) (temps : List (BitVec 12)) (c k : Nat) : Bool :=
  (List.range 17).all (fun s => !d.sensorOn s || decide (reading temps s ≤ 4 * (c : Int) - 4 * (k : Int)))

/-- A warning: event 642 once until every sensor has fallen 5 °C below WARN_C. -/
def Device.thermWarn (d : Device) (temps : List (BitVec 12)) : Device :=
  let h := d.hub
  let c := h.fld R.pcr_THERM_CTL_WARN_C
  match d.hot temps c with
  | s :: _ =>
    if h.fw.warnArmed then
      let h := ((h.setFld R.pcr_THERM_STATUS_WARN 1).setFld R.pcr_THERM_STATUS_SOURCE s).updFw (fun w => { w with warnArmed := false })
      { d with hub := (h.tick T.THERMAL_WARNS).raise 642 }
    else d
  | [] => if d.below temps c 5 then { d with hub := h.updFw (fun w => { w with warnArmed := true }) } else d

/-- A trip: every bench forced off, THERMTRIP_N low, then event 643; or, cool again, its end. [DESIGN CHOICE, log 17, unsafe] -/
def Device.thermTrip (d : Device) (temps : List (BitVec 12)) : Device :=
  let h := d.hub
  match d.hot temps (tripPoint h.fw.part) with
  | s :: _ =>
    let d := d.forceAll
    if h.flag R.pcr_THERM_STATUS_TRIPPED then d
    else
      let h := ((d.hub.setFld R.pcr_THERM_STATUS_TRIPPED 1).setFld R.pcr_THERM_STATUS_SOURCE s).updFw (fun w => { w with thermTrip := true })
      { d with hub := (h.tick T.THERMAL_TRIPS).raise 643 }
  | [] =>
    if h.flag R.pcr_THERM_STATUS_TRIPPED && d.below temps (h.fld R.pcr_THERM_CTL_WARN_C) 10 then
      { d with hub := (h.setFld R.pcr_THERM_STATUS_TRIPPED 0).updFw (fun w => { w with thermTrip := false }) }
    else d
/-- THERMAL_SENSOR_READ: the seventeen sensors, benches 0 to 15, then the hub. -/
def execThermalSensorRead (temps : List (BitVec 12)) (s : State) : Host.Outcome State Fault Refusal :=
  .next { s with dev := if s.dev.hub.up then ((s.dev.putTemps temps).thermWarn temps).thermTrip temps else s.dev }

/-! ## The leak of the error counters (R526) -/

/-- Does a leak fall due in this cycle: is the count of an island, of `num / den` cycles to a pipeline cycle, at a multiple of 2^`shift`, or
has it passed one since the pipeline cycle before? -/
def leakDue (num den shift cyc : Nat) : Bool := cyc = 0 || (cyc - 1) * num / den / 2 ^ shift < cyc * num / den / 2 ^ shift

/-- The clock of the island of a bench counter against the pipeline's 1.25 GHz: the engines' 1.5 GHz, the DRAM controller's quarter of its
data rate, from 4,800 MT/s up (R37, R434). -/
def Bench.islandClock (b : Bench) (k : Nat) : Nat × Nat :=
  if k < 7 then (1, 1) else if k < 10 then (6, 5) else (4800 + 400 * b.fld R.dram_DRAM_CFG_RATE, 5000)
/-- Is a leak of a bench counter due? -/
def Bench.leakDue (b : Bench) (k : Nat) : Bool :=
  k < 11 && Machine.leakDue (b.islandClock k).1 (b.islandClock k).2 (b.fld (R.err_CE_CFG_LEAK_SHIFT k)) b.cyc
/-- Is a leak of a hub counter due: the Foreman's island at 1.2 GHz, the hub's at 1 GHz? -/
def Hub.leakDue (h : Hub) (k : Nat) : Bool :=
  k < 4 && Machine.leakDue (if k = 0 then 24 else 20) 25 (h.fld (R.irq_HUB_CE_CFG_LEAK_SHIFT k)) h.cyc

/-- A bench counter leaks when it is due. -/
def Bench.leak (b : Bench) (k : Nat) : Bench :=
  if b.leakDue k then b.setFld (R.err_CE_CFG_LEVEL k) (b.fld (R.err_CE_CFG_LEVEL k) - 1) else b
/-- A hub counter leaks when it is due. -/
def Hub.leak (h : Hub) (k : Nat) : Hub :=
  if h.up && h.leakDue k then h.setFld (R.irq_HUB_CE_CFG_LEVEL k) (h.fld (R.irq_HUB_CE_CFG_LEVEL k) - 1) else h
/-- LEAK_TICK: a leak of counter `k` of a bench, or of the hub, falls due; in a cycle in which none does nothing happens. [DESIGN CHOICE, log 149, unsafe] -/
def execLeakTick (n : Option BenchId) (k : Nat) (s : State) : Host.Outcome State Fault Refusal :=
  match n with
  | some n => s.onBench n (fun b => b.leak k)
  | none => s.onHub (fun h => h.leak k)

end Sys2Proof.Machine
end

