-- ==== Sys2Proof/Machine/Dispatch.lean ====
section
/-! DEFINITION. The dispatch: one arm per command, one direct call of its meaning. -/
namespace Sys2Proof.Machine

/-- What a command does to everything but the queue. -/
def exec (i : Instr) (s : State) : Host.Outcome State Fault Refusal :=
  match i with
  | .benchCtlStart n v => Sys2Proof.Machine.execBenchCtlStart n v s
  | .benchCtlStop n v => Sys2Proof.Machine.execBenchCtlStop n v s
  | .benchRailsRamped n => Sys2Proof.Machine.execBenchRailsRamped n s
  | .benchPllsLocked n ok => Sys2Proof.Machine.execBenchPllsLocked n ok s
  | .crossingTrained n k ok => Sys2Proof.Machine.execCrossingTrained n k ok s
  | .benchClearDone n => Sys2Proof.Machine.execBenchClearDone n s
  | .benchRunning n => Sys2Proof.Machine.execBenchRunning n s
  | .drainLimitExpired n => Sys2Proof.Machine.execDrainLimitExpired n s
  | .drainComplete n => Sys2Proof.Machine.execDrainComplete n s
  | .pllUnlock n => Sys2Proof.Machine.execPllUnlock n s
  | .supplyFail n => Sys2Proof.Machine.execSupplyFail n s
  | .benchSwitchTurn => Sys2Proof.Machine.execBenchSwitchTurn s
  | .hostWindowStart p k n => Sys2Proof.Machine.execHostWindowStart p k n s
  | .flitReplay p k => Sys2Proof.Machine.execFlitReplay p k s
  | .regWrite ag a v ecc => Sys2Proof.Machine.execRegWrite ag a v ecc s
  | .portEnable n p v => Sys2Proof.Machine.execPortEnable n p v s
  | .portDisable n p v => Sys2Proof.Machine.execPortDisable n p v s
  | .laneReset n p v => Sys2Proof.Machine.execLaneReset n p v s
  | .disableFrameEnd n p => Sys2Proof.Machine.execDisableFrameEnd n p s
  | .signalPresent n p => Sys2Proof.Machine.execSignalPresent n p s
  | .signalLoss n p => Sys2Proof.Machine.execSignalLoss n p s
  | .lockLoss n p => Sys2Proof.Machine.execLockLoss n p s
  | .attemptSucceeds n p => Sys2Proof.Machine.execAttemptSucceeds n p s
  | .attemptFails n p => Sys2Proof.Machine.execAttemptFails n p s
  | .rxFrameStart n p bytes phase => Sys2Proof.Machine.execRxFrameStart n p bytes phase s
  | .rxHeaderPresent n p => Sys2Proof.Machine.execRxHeaderPresent n p s
  | .rxEndStatus n p codeErr fcsBad fecCorr fecUncorr => Sys2Proof.Machine.execRxEndStatus n p codeErr fcsBad fecCorr fecUncorr s
  | .stationCommit n e v => Sys2Proof.Machine.execStationCommit n e v s
  | .pauseFrameRx n p quanta => Sys2Proof.Machine.execPauseFrameRx n p quanta s
  | .pfcFrameRx n p vec times => Sys2Proof.Machine.execPfcFrameRx n p vec times s
  | .pauseTimerExpired n p cls => Sys2Proof.Machine.execPauseTimerExpired n p cls s
  | .txFrame n p phase ecc => Sys2Proof.Machine.execTxFrame n p phase ecc s
  | .txUnderrun n p sent => Sys2Proof.Machine.execTxUnderrun n p sent s
  | .pauseRequestChange n p => Sys2Proof.Machine.execPauseRequestChange n p s
  | .pauseRepeatTimer n p => Sys2Proof.Machine.execPauseRepeatTimer n p s
  | .pauseModeChange n p => Sys2Proof.Machine.execPauseModeChange n p s
  | .timeSnap n => Sys2Proof.Machine.execTimeSnap n s
  | .timeLoad n => Sys2Proof.Machine.execTimeLoad n s
  | .timeAdjust n => Sys2Proof.Machine.execTimeAdjust n s
  | .timeIncrWrite n frac v => Sys2Proof.Machine.execTimeIncrWrite n frac v s
  | .freqCountDone n count => Sys2Proof.Machine.execFreqCountDone n count s
  | .ppsInEdge n => Sys2Proof.Machine.execPpsInEdge n s
  | .ppsOutRise n => Sys2Proof.Machine.execPpsOutRise n s
  | .ppsOutFall n => Sys2Proof.Machine.execPpsOutFall n s
  | .calComplete n p => Sys2Proof.Machine.execCalComplete n p s
  | .txTsRead n p w => Sys2Proof.Machine.execTxTsRead n p w s
  | .ppsInTsRead n w => Sys2Proof.Machine.execPpsInTsRead n w s
  | .freqCntRead n => Sys2Proof.Machine.execFreqCntRead n s
  | .sideFrameRx bytes how fcsBad => Sys2Proof.Machine.execSideFrameRx bytes how fcsBad s
  | .wakeMatch frame => Sys2Proof.Machine.execWakeMatch frame s
  | .firstCutAdmit n p ecc => Sys2Proof.Machine.execFirstCutAdmit n p ecc s
  | .secondCutAdmit n ecc => Sys2Proof.Machine.execSecondCutAdmit n ecc s
  | .hostEntryAdmit n ecc => Sys2Proof.Machine.execHostEntryAdmit n ecc s
  | .graphArm n v => Sys2Proof.Machine.execGraphArm n v s
  | .nodeCommit n j => Sys2Proof.Machine.execNodeCommit n j s
  | .startNodeWrite n g v => Sys2Proof.Machine.execStartNodeWrite n g v s
  | .excClassWrite n g v => Sys2Proof.Machine.execExcClassWrite n g v s
  | .recipeWrite n w v => Sys2Proof.Machine.execRecipeWrite n w v s
  | .hitBitmapRead n off size => Sys2Proof.Machine.execHitBitmapRead n off size s
  | .tableLookup n ecc => Sys2Proof.Machine.execTableLookup n ecc s
  | .tableRead n ecc => Sys2Proof.Machine.execTableRead n ecc s
  | .tableInsert n ecc => Sys2Proof.Machine.execTableInsert n ecc s
  | .tableUpdate n ecc => Sys2Proof.Machine.execTableUpdate n ecc s
  | .tableDelete n ecc => Sys2Proof.Machine.execTableDelete n ecc s
  | .tableMove n ecc => Sys2Proof.Machine.execTableMove n ecc s
  | .tableClear n => Sys2Proof.Machine.execTableClear n s
  | .tableOpDone n => Sys2Proof.Machine.execTableOpDone n s
  | .sweepStart n v => Sys2Proof.Machine.execSweepStart n v s
  | .sweepStep n ecc => Sys2Proof.Machine.execSweepStep n ecc s
  | .sweepResume n v => Sys2Proof.Machine.execSweepResume n v s
  | .learnRecordReady n => Sys2Proof.Machine.execLearnRecordReady n s
  | .learnPop n => Sys2Proof.Machine.execLearnPop n s
  | .genCtlSwap n => Sys2Proof.Machine.execGenCtlSwap n s
  | .templateCommit n j => Sys2Proof.Machine.execTemplateCommit n j s
  | .cipherBodyStep n enc => Sys2Proof.Machine.execCipherBodyStep n enc s
  | .cipherVerdict n enc mismatch => Sys2Proof.Machine.execCipherVerdict n enc mismatch s
  | .cipherRestart n => Sys2Proof.Machine.execCipherRestart n s
  | .cipherSelftestDone n ok => Sys2Proof.Machine.execCipherSelftestDone n ok s
  | .saCommit n j => Sys2Proof.Machine.execSaCommit n j s
  | .saKeyZeroised n j => Sys2Proof.Machine.execSaKeyZeroised n j s
  | .sideEnqueue n ecc => Sys2Proof.Machine.execSideEnqueue n ecc s
  | .schedDecision n p lead => Sys2Proof.Machine.execSchedDecision n p lead s
  | .meterRefresh n ecc => Sys2Proof.Machine.execMeterRefresh n ecc s
  | .mtrCommit n m => Sys2Proof.Machine.execMtrCommit n m s
  | .qctxCommit n q => Sys2Proof.Machine.execQctxCommit n q s
  | .qctxClearHwm n q => Sys2Proof.Machine.execQctxClearHwm n q s
  | .gateCommit n p => Sys2Proof.Machine.execGateCommit n p s
  | .gateCancel n p => Sys2Proof.Machine.execGateCancel n p s
  | .gateTakeover n p => Sys2Proof.Machine.execGateTakeover n p s
  | .gateEntryAdvance n p => Sys2Proof.Machine.execGateEntryAdvance n p s
  | .hostDeliveryTake n => Sys2Proof.Machine.execHostDeliveryTake n s
  | .hopperEnable n v => Sys2Proof.Machine.execHopperEnable n v s
  | .hopperReady n => Sys2Proof.Machine.execHopperReady n s
  | .hopAllocLength n pkt => Sys2Proof.Machine.execHopAllocLength n pkt s
  | .hopAllocPool n pool => Sys2Proof.Machine.execHopAllocPool n pool s
  | .hopShare n ecc => Sys2Proof.Machine.execHopShare n ecc s
  | .hopRelease n ecc => Sys2Proof.Machine.execHopRelease n ecc s
  | .hopFree n ecc => Sys2Proof.Machine.execHopFree n ecc s
  | .hopGive n ecc => Sys2Proof.Machine.execHopGive n ecc s
  | .alu n c t ecc => Sys2Proof.Machine.execAlu n c t ecc s
  | .addi n c t ecc => Sys2Proof.Machine.execAddi n c t ecc s
  | .andi n c t ecc => Sys2Proof.Machine.execAndi n c t ecc s
  | .ori n c t ecc => Sys2Proof.Machine.execOri n c t ecc s
  | .xori n c t ecc => Sys2Proof.Machine.execXori n c t ecc s
  | .slti n c t ecc => Sys2Proof.Machine.execSlti n c t ecc s
  | .sltiu n c t ecc => Sys2Proof.Machine.execSltiu n c t ecc s
  | .shi n c t ecc => Sys2Proof.Machine.execShi n c t ecc s
  | .movw n c t ecc => Sys2Proof.Machine.execMovw n c t ecc s
  | .ext n c t ecc => Sys2Proof.Machine.execExt n c t ecc s
  | .exts n c t ecc => Sys2Proof.Machine.execExts n c t ecc s
  | .ins n c t ecc => Sys2Proof.Machine.execIns n c t ecc s
  | .ldl n c t ecc => Sys2Proof.Machine.execLdl n c t ecc s
  | .stl n c t ecc => Sys2Proof.Machine.execStl n c t ecc s
  | .ldb n c t ecc => Sys2Proof.Machine.execLdb n c t ecc s
  | .stb n c t ecc => Sys2Proof.Machine.execStb n c t ecc s
  | .ldd n c t ecc => Sys2Proof.Machine.execLdd n c t ecc s
  | .std n c t ecc => Sys2Proof.Machine.execStd n c t ecc s
  | .lddl n c t ecc => Sys2Proof.Machine.execLddl n c t ecc s
  | .stdl n c t ecc => Sys2Proof.Machine.execStdl n c t ecc s
  | .aadd n c t ecc => Sys2Proof.Machine.execAadd n c t ecc s
  | .acas n c t ecc => Sys2Proof.Machine.execAcas n c t ecc s
  | .beq n c t ecc => Sys2Proof.Machine.execBeq n c t ecc s
  | .bne n c t ecc => Sys2Proof.Machine.execBne n c t ecc s
  | .blt n c t ecc => Sys2Proof.Machine.execBlt n c t ecc s
  | .bge n c t ecc => Sys2Proof.Machine.execBge n c t ecc s
  | .bltu n c t ecc => Sys2Proof.Machine.execBltu n c t ecc s
  | .bgeu n c t ecc => Sys2Proof.Machine.execBgeu n c t ecc s
  | .jal n c t ecc => Sys2Proof.Machine.execJal n c t ecc s
  | .jalr n c t ecc => Sys2Proof.Machine.execJalr n c t ecc s
  | .chrd n c t ecc => Sys2Proof.Machine.execChrd n c t ecc s
  | .chwr n c t ecc => Sys2Proof.Machine.execChwr n c t ecc s
  | .fork n c t ecc => Sys2Proof.Machine.execFork n c t ecc s
  | .join n c t ecc => Sys2Proof.Machine.execJoin n c t ecc s
  | .wacq n c t ecc => Sys2Proof.Machine.execWacq n c t ecc s
  | .wrel n c t ecc => Sys2Proof.Machine.execWrel n c t ecc s
  | .top n c t ecc => Sys2Proof.Machine.execTop n c t ecc s
  | .hop n c t ecc => Sys2Proof.Machine.execHop n c t ecc s
  | .hsub n c t ecc => Sys2Proof.Machine.execHsub n c t ecc s
  | .waitc n c t ecc => Sys2Proof.Machine.execWaitc n c t ecc s
  | .mfs n c t ecc => Sys2Proof.Machine.execMfs n c t ecc s
  | .notice n c t ecc => Sys2Proof.Machine.execNotice n c t ecc s
  | .trap n c t ecc => Sys2Proof.Machine.execTrap n c t ecc s
  | .halt n c t ecc => Sys2Proof.Machine.execHalt n c t ecc s
  | .illegalInstruction n c t ecc => Sys2Proof.Machine.execIllegalInstruction n c t ecc s
  | .dramLoadReturn n => Sys2Proof.Machine.execDramLoadReturn n s
  | .ticketComplete n => Sys2Proof.Machine.execTicketComplete n s
  | .coreStart n c => Sys2Proof.Machine.execCoreStart n c s
  | .coreStop n c => Sys2Proof.Machine.execCoreStop n c s
  | .coreStopWalk n c => Sys2Proof.Machine.execCoreStopWalk n c s
  | .threadTerminate n c t => Sys2Proof.Machine.execThreadTerminate n c t s
  | .threadResume n c t => Sys2Proof.Machine.execThreadResume n c t s
  | .chanCfgWrite n k v => Sys2Proof.Machine.execChanCfgWrite n k v s
  | .inboxDeliver n c => Sys2Proof.Machine.execInboxDeliver n c s
  | .stallWatch n => Sys2Proof.Machine.execStallWatch n s
  | .dbgStop n session c mask => Sys2Proof.Machine.execDbgStop n session c mask s
  | .dbgResume n session c mask => Sys2Proof.Machine.execDbgResume n session c mask s
  | .dbgStep n session c mask => Sys2Proof.Machine.execDbgStep n session c mask s
  | .linkTrainingStart p => Sys2Proof.Machine.execLinkTrainingStart p s
  | .linkL0 p k flit rate width ph nph pd npd => Sys2Proof.Machine.execLinkL0 p k flit rate width ph nph pd npd s
  | .linkRecovery p k back => Sys2Proof.Machine.execLinkRecovery p k back s
  | .linkLoss p k => Sys2Proof.Machine.execLinkLoss p k s
  | .configRead key x => Sys2Proof.Machine.execConfigRead key x s
  | .configWrite key x v => Sys2Proof.Machine.execConfigWrite key x v s
  | .bmeClear key => Sys2Proof.Machine.execBmeClear key s
  | .bmeSet key => Sys2Proof.Machine.execBmeSet key s
  | .flrStart key => Sys2Proof.Machine.execFlrStart key s
  | .flrDone key => Sys2Proof.Machine.execFlrDone key s
  | .hostMemRead key bar off size full buf ecc => Sys2Proof.Machine.execHostMemRead key bar off size full buf ecc s
  | .hostMemWrite key bar off l poisoned full buf ecc => Sys2Proof.Machine.execHostMemWrite key bar off l poisoned full buf ecc s
  | .hostCompletion n key tag data status ep => Sys2Proof.Machine.execHostCompletion n key tag data status ep s
  | .readTimeout n key tag => Sys2Proof.Machine.execReadTimeout n key tag s
  | .tagQuarantineEnd n key tag => Sys2Proof.Machine.execTagQuarantineEnd n key tag s
  | .winCommit p idx vf => Sys2Proof.Machine.execWinCommit p idx vf s
  | .vectorUnmask key vec => Sys2Proof.Machine.execVectorUnmask key vec s
  | .cfgReadySet p => Sys2Proof.Machine.execCfgReadySet p s
  | .readyForced p => Sys2Proof.Machine.execReadyForced p s
  | .pfD3hot key => Sys2Proof.Machine.execPfD3hot key s
  | .pfD0 key => Sys2Proof.Machine.execPfD0 key s
  | .pmeTurnOff p k done aux => Sys2Proof.Machine.execPmeTurnOff p k done aux s
  | .perstAssert p => Sys2Proof.Machine.execPerstAssert p s
  | .perstRelease p => Sys2Proof.Machine.execPerstRelease p s
  | .doorbellWrite key off size v pasid full => Sys2Proof.Machine.execDoorbellWrite key off size v pasid full s
  | .ringFetch n => Sys2Proof.Machine.execRingFetch n s
  | .descArrive n r => Sys2Proof.Machine.execDescArrive n r s
  | .descRefetch n r => Sys2Proof.Machine.execDescRefetch n r s
  | .completionWrite n => Sys2Proof.Machine.execCompletionWrite n s
  | .cqIntTimer n q => Sys2Proof.Machine.execCqIntTimer n q s
  | .claimDrained n j => Sys2Proof.Machine.execClaimDrained n j s
  | .quiesceLimitExpired n j => Sys2Proof.Machine.execQuiesceLimitExpired n j s
  | .claimResetDone n j => Sys2Proof.Machine.execClaimResetDone n j s
  | .haulSubmit n => Sys2Proof.Machine.execHaulSubmit n s
  | .haulCommandStart n c ecc => Sys2Proof.Machine.execHaulCommandStart n c ecc s
  | .haulReadRequest n c ecc => Sys2Proof.Machine.execHaulReadRequest n c ecc s
  | .haulWriteChunk n c ecc => Sys2Proof.Machine.execHaulWriteChunk n c ecc s
  | .haulCommandDone n c => Sys2Proof.Machine.execHaulCommandDone n c s
  | .collectorExit n => Sys2Proof.Machine.execCollectorExit n s
  | .flashIdentifyDone n c page planes blocks pages dies => Sys2Proof.Machine.execFlashIdentifyDone n c page planes blocks pages dies s
  | .flashTrain n c => Sys2Proof.Machine.execFlashTrain n c s
  | .flashTrainDone n c ok => Sys2Proof.Machine.execFlashTrainDone n c ok s
  | .flashDb n c v => Sys2Proof.Machine.execFlashDb n c v s
  | .flashRingReset n c => Sys2Proof.Machine.execFlashRingReset n c s
  | .flashEntryReread n c => Sys2Proof.Machine.execFlashEntryReread n c s
  | .flashOpFetch n c => Sys2Proof.Machine.execFlashOpFetch n c s
  | .flashRead n c d => Sys2Proof.Machine.execFlashRead n c d s
  | .flashProgram n c d ecc => Sys2Proof.Machine.execFlashProgram n c d ecc s
  | .flashErase n c d => Sys2Proof.Machine.execFlashErase n c d s
  | .flashReadRaw n c d => Sys2Proof.Machine.execFlashReadRaw n c d s
  | .flashGetFeature n c d => Sys2Proof.Machine.execFlashGetFeature n c d s
  | .flashSetFeature n c d => Sys2Proof.Machine.execFlashSetFeature n c d s
  | .flashReadId n c d => Sys2Proof.Machine.execFlashReadId n c d s
  | .flashReadParam n c d => Sys2Proof.Machine.execFlashReadParam n c d s
  | .flashRetire n c d => Sys2Proof.Machine.execFlashRetire n c d s
  | .flashResetLun n c d => Sys2Proof.Machine.execFlashResetLun n c d s
  | .dieReady n c d pass data ecc => Sys2Proof.Machine.execDieReady n c d pass data ecc s
  | .codewordDecoded n c d cw ok bits l ecc => Sys2Proof.Machine.execCodewordDecoded n c d cw ok bits l ecc s
  | .dieOpTimeout n c d => Sys2Proof.Machine.execDieOpTimeout n c d s
  | .flashDoneMsg n c d => Sys2Proof.Machine.execFlashDoneMsg n c d s
  | .xtsEnable n ns => Sys2Proof.Machine.execXtsEnable n ns s
  | .xtsDisable n ns => Sys2Proof.Machine.execXtsDisable n ns s
  | .xtsSlotZeroised n ns => Sys2Proof.Machine.execXtsSlotZeroised n ns s
  | .nvmeRegAccess n k off v => Sys2Proof.Machine.execNvmeRegAccess n k off v s
  | .nvmeCcWrite n k v => Sys2Proof.Machine.execNvmeCcWrite n k v s
  | .nvmeSqDoorbell n k y v => Sys2Proof.Machine.execNvmeSqDoorbell n k y v s
  | .nvmeCqDoorbell n k y v => Sys2Proof.Machine.execNvmeCqDoorbell n k y v s
  | .nvmeSqFetch n => Sys2Proof.Machine.execNvmeSqFetch n s
  | .nvmeCplCommit n core t v => Sys2Proof.Machine.execNvmeCplCommit n core t v s
  | .pwrfailFall => Sys2Proof.Machine.execPwrfailFall s
  | .flushDone n ecc => Sys2Proof.Machine.execFlushDone n ecc s
  | .flushWindowEnd => Sys2Proof.Machine.execFlushWindowEnd s
  | .pwrfailRise => Sys2Proof.Machine.execPwrfailRise s
  | .dramGo n => Sys2Proof.Machine.execDramGo n s
  | .dramTrainDone n ok => Sys2Proof.Machine.execDramTrainDone n ok s
  | .dramFillDone n => Sys2Proof.Machine.execDramFillDone n s
  | .dramRequestIssue n ecc => Sys2Proof.Machine.execDramRequestIssue n ecc s
  | .dramReadComplete n ecc => Sys2Proof.Machine.execDramReadComplete n ecc s
  | .dramRefresh n hot => Sys2Proof.Machine.execDramRefresh n hot s
  | .dramSrEntry n => Sys2Proof.Machine.execDramSrEntry n s
  | .dramAlert n x again => Sys2Proof.Machine.execDramAlert n x again s
  | .dramRetire n slot => Sys2Proof.Machine.execDramRetire n slot s
  | .dramMigStep n ecc => Sys2Proof.Machine.execDramMigStep n ecc s
  | .mbxInPush m v => Sys2Proof.Machine.execMbxInPush m v s
  | .mbxOutPop m => Sys2Proof.Machine.execMbxOutPop m s
  | .mbxAckRead m => Sys2Proof.Machine.execMbxAckRead m s
  | .dbToFmWrite m v => Sys2Proof.Machine.execDbToFmWrite m v s
  | .dbToHostRaise m v => Sys2Proof.Machine.execDbToHostRaise m v s
  | .adminSqDoorbell m v => Sys2Proof.Machine.execAdminSqDoorbell m v s
  | .adminCqDoorbell m v => Sys2Proof.Machine.execAdminCqDoorbell m v s
  | .mbxGo m => Sys2Proof.Machine.execMbxGo m s
  | .adminCommand m again => Sys2Proof.Machine.execAdminCommand m again s
  | .identify m => Sys2Proof.Machine.execIdentify m s
  | .noticeGet m => Sys2Proof.Machine.execNoticeGet m s
  | .adminCreate m => Sys2Proof.Machine.execAdminCreate m s
  | .adminDestroy m => Sys2Proof.Machine.execAdminDestroy m s
  | .managerSet m => Sys2Proof.Machine.execManagerSet m s
  | .eventRoute m => Sys2Proof.Machine.execEventRoute m s
  | .tallyRead m => Sys2Proof.Machine.execTallyRead m s
  | .benchStart m late => Sys2Proof.Machine.execBenchStart m late s
  | .benchStop m late => Sys2Proof.Machine.execBenchStop m late s
  | .benchStatus m => Sys2Proof.Machine.execBenchStatus m s
  | .graphLoad m late => Sys2Proof.Machine.execGraphLoad m late s
  | .ruleWrite m late => Sys2Proof.Machine.execRuleWrite m late s
  | .genSwap m => Sys2Proof.Machine.execGenSwap m s
  | .tableOp m u late => Sys2Proof.Machine.execTableOp m u late s
  | .learnPolicy m => Sys2Proof.Machine.execLearnPolicy m s
  | .learnPolicyApply n ecc => Sys2Proof.Machine.execLearnPolicyApply n ecc s
  | .tableSweep m => Sys2Proof.Machine.execTableSweep m s
  | .portSet m => Sys2Proof.Machine.execPortSet m s
  | .tmWrite m late => Sys2Proof.Machine.execTmWrite m late s
  | .gateLoad m late => Sys2Proof.Machine.execGateLoad m late s
  | .timeCmd m => Sys2Proof.Machine.execTimeCmd m s
  | .keyLoad m late => Sys2Proof.Machine.execKeyLoad m late s
  | .saWrite m late => Sys2Proof.Machine.execSaWrite m late s
  | .debugOpen m late => Sys2Proof.Machine.execDebugOpen m late s
  | .debugClose m => Sys2Proof.Machine.execDebugClose m s
  | .attest m => Sys2Proof.Machine.execAttest m s
  | .engineLoad m u late => Sys2Proof.Machine.execEngineLoad m u late s
  | .engineCtl m => Sys2Proof.Machine.execEngineCtl m s
  | .claimCreate m => Sys2Proof.Machine.execClaimCreate m s
  | .claimQuiesce m late => Sys2Proof.Machine.execClaimQuiesce m late s
  | .claimResume m => Sys2Proof.Machine.execClaimResume m s
  | .claimReset m late => Sys2Proof.Machine.execClaimReset m late s
  | .claimRemove m => Sys2Proof.Machine.execClaimRemove m s
  | .claimSetShare m => Sys2Proof.Machine.execClaimSetShare m s
  | .windowSet m => Sys2Proof.Machine.execWindowSet m s
  | .ringCreate m => Sys2Proof.Machine.execRingCreate m s
  | .ringStart m => Sys2Proof.Machine.execRingStart m s
  | .ringStop m => Sys2Proof.Machine.execRingStop m s
  | .ringDestroy m => Sys2Proof.Machine.execRingDestroy m s
  | .ringSetStep m => Sys2Proof.Machine.execRingSetStep m s
  | .nvmeGrant m => Sys2Proof.Machine.execNvmeGrant m s
  | .nvmeRemove m => Sys2Proof.Machine.execNvmeRemove m s
  | .nsCreate m => Sys2Proof.Machine.execNsCreate m s
  | .nsDelete m => Sys2Proof.Machine.execNsDelete m s
  | .keyArchiveRestore n => Sys2Proof.Machine.execKeyArchiveRestore n s
  | .fuseProgCmd port k flips => Sys2Proof.Machine.execFuseProgCmd port k flips s
  | .lcSecure port => Sys2Proof.Machine.execLcSecure port s
  | .lcReturn port => Sys2Proof.Machine.execLcReturn port s
  | .lcScrap port => Sys2Proof.Machine.execLcScrap port s
  | .dbgCmdOpen port => Sys2Proof.Machine.execDbgCmdOpen port s
  | .dbgCmdClose port k => Sys2Proof.Machine.execDbgCmdClose port k s
  | .dbgAcc port v ecc => Sys2Proof.Machine.execDbgAcc port v ecc s
  | .svnAdvance => Sys2Proof.Machine.execSvnAdvance s
  | .sealEncrypt src => Sys2Proof.Machine.execSealEncrypt src s
  | .sealDecrypt src => Sys2Proof.Machine.execSealDecrypt src s
  | .sealUnwrap => Sys2Proof.Machine.execSealUnwrap s
  | .sealResult => Sys2Proof.Machine.execSealResult s
  | .leakTick n k => Sys2Proof.Machine.execLeakTick n k s
  | .tallySnapshot ag n id w1 => Sys2Proof.Machine.execTallySnapshot ag n id w1 s
  | .porAssert aux => Sys2Proof.Machine.execPorAssert aux s
  | .porRelease split0 split1 locked failed => Sys2Proof.Machine.execPorRelease split0 split1 locked failed s
  | .bootSlotCheck a b => Sys2Proof.Machine.execBootSlotCheck a b s
  | .hubFaultReset cause => Sys2Proof.Machine.execHubFaultReset cause s
  | .foremanReset a b => Sys2Proof.Machine.execForemanReset a b s
  | .fmWdogKick v => Sys2Proof.Machine.execFmWdogKick v s
  | .fmWdogExpire a b => Sys2Proof.Machine.execFmWdogExpire a b s
  | .thermalSensorRead temps => Sys2Proof.Machine.execThermalSensorRead temps s
  | .anPageReceived n p offered => Sys2Proof.Machine.execAnPageReceived n p offered s
  | .rcRegisterRead ag a wide => Sys2Proof.Machine.execRcRegisterRead ag a wide s
  | .hubPllLockRetry locked failed => Sys2Proof.Machine.execHubPllLockRetry locked failed s

end Sys2Proof.Machine
end

