-- ==== Sys2Proof/Machine/Tick.lean ====
section
/-! DEFINITION. What one pipeline cycle (0.8 ns) does while no command waits: the counters that count cycles. -/
namespace Sys2Proof.Machine

/-- Does thread `t` of core `c` leave its slot in engine cycle `e` unused (R270)? It has not issued in it, and is free, stopped, faulted
or blocked, or the slot is one that its last instruction costs beyond the first. While PWRFAIL_N is low no core issues (R569). -/
def Bench.slotIdle (b : Bench) (low : Bool) (c t e : Nat) : Bool :=
  let x := b.thr (8 * c + t)
  !b.eng.used.contains (8 * c + t, e) &&
    (low || e < x.next || !(b.coreState c = 1 && x.st = 1 && !x.dbg && x.wait = .none))

/-- One engine cycle `e`: each core whose thread e mod 8 leaves its slot unused counts an idle slot (R269, R270). [DEDUCED, log 58, unsafe] -/
def Bench.idleSlots (b : Bench) (low : Bool) (e : Nat) : Bench :=
  let b := (List.range 8).foldl (fun b c => if b.slotIdle low c (e % 8) e then b.tick (T.IDLE_SLOTS c) else b) b
  { b with eng := { b.eng with used := b.eng.used.filter (fun x => e < x.2) } }

/-- The stall watch counts the engine cycles in which its condition holds (R313); STALL_WATCH sets it to 4,096. -/
def Bench.watchStall (b : Bench) (k : Nat) : Bench :=
  if b.stallCond && !b.flag R.engine_STALL_STATUS_STALLED then
    b.setFld R.engine_STALL_STATUS_COUNT (min 4095 (b.fld R.engine_STALL_STATUS_COUNT + k))
  else b

/-- The engine cycles that begin within the next pipeline cycle: 1.5 GHz against 1.25 GHz. -/
def Bench.engineCycles (b : Bench) : List Nat :=
  (List.range 2).map (· + b.engCycle) |>.filter (fun e => e < (b.cyc + 1) * 6 / 5)

/-- Every channel that waits for a chunk counts the cycle (R391). -/
def Bench.countWaits (b : Bench) : Bench :=
  ((List.range 64).filter b.waitsChunk).foldl (fun b c => b.tick (T.STAGE_WAIT c)) b

/-- One pipeline cycle of a live bench: time (R77), idle slots, the stall watch, a full host entry queue (R99), fetches held back (R378),
channels that wait for staging (R391). [DESIGN CHOICE, log 1, unsafe] -/
def Bench.cycle (low : Bool) (b : Bench) : Bench :=
  let es := b.engineCycles
  let b := (es.foldl (fun b e => b.idleSlots low e) b).watchStall es.length
  let b := if 8 ≤ b.hostEntries then b.tick T.HOST_ENTRY_FULL else b
  let b := if b.rings.held.isEmpty then b else b.tick T.CQ_STALL_CYCLES
  let b := if b.haul.cmds.isEmpty then b else b.countWaits
  { b.advanceTime with cyc := b.cyc + 1 }

/-- One cycle of the hub: the queues of host requests drain (R334), the Foreman watchdog counts (R550); out of power-on reset the hub's own
count goes on (R526). [DESIGN CHOICE, log 1, unsafe] -/
def Hub.cycle (h : Hub) : Hub :=
  let h := h.inqDrain
  let h := if h.fw.por then h else { h with cyc := h.cyc + 1 }
  if h.up && h.flag R.pcr_FM_WDOG_EN then { h with fw := { h.fw with wdog := h.fw.wdog + 1 } } else h

/-- One pipeline cycle of the device. [DESIGN CHOICE, log 1, unsafe] -/
def Device.cycle (d : Device) : Device :=
  { d with hub := d.hub.cycle, benches := d.benches.map (fun b => if b.live then b.cycle d.hub.fw.pwrfail else b) }

end Sys2Proof.Machine
end

