-- ==== Sys2Proof/Machine/Step.lean ====
section
/-! DEFINITION. The step: the command at the front of the queue, or, on an empty queue, one cycle. -/
namespace Sys2Proof.Machine

/-- One step: the front command is taken off the queue and acts on the rest; with no command waiting the block's cycle counters count. [DESIGN CHOICE, log 1, unsafe; DESIGN CHOICE, log 100, safe] -/
def step (s : State) : Host.Outcome State Fault Refusal :=
  match s.pending with
  | c :: t => exec c { s with pending := t }
  | [] => .next { s with dev := s.dev.cycle }

/-- The state with the command that a word spells put at the front of its queue; no word spells one. [DESIGN CHOICE, log 3, safe] -/
def State.withFetchWord (s : State) (nbits w : Nat) : State :=
  match decodeTableWord nbits w with
  | some c => { s with pending := c :: s.pending }
  | none => s

end Sys2Proof.Machine
end

