-- ==== Sys2Proof/Machine/Pins.lean ====
section
/-! DEFINITION. What the output pins show their partners (R59, R64, R79, R409, R517, R551, R571), read from State. -/
namespace Sys2Proof.Machine

/-- The level of an output pin: driven low, driven high, or high-impedance (an open-drain pin that is released). -/
inductive Pin where
  | low | high | hiZ
deriving DecidableEq, Repr

/-- A driven pin. -/
def Pin.drive (x : Bool) : Pin := if x then .high else .low
/-- An open-drain pin that is pulled low. -/
def Pin.pull (x : Bool) : Pin := if x then .low else .hiZ

/-- MOD_RESET_N_n_p: RELEASE drives it high while the bench is RUNNING (R64, R94). [DEDUCED, log 99, safe] -/
def Bench.modReset (b : Bench) (p : Nat) : Pin :=
  if b.power.st = .running then Pin.drive (b.flag (R.face_MODULE_CTL_RELEASE p)) else .hiZ
/-- MOD_RUN_n_p: RUN drives it high while the bench is RUNNING (R64, R94). [DEDUCED, log 99, safe] -/
def Bench.modRun (b : Bench) (p : Nat) : Pin :=
  if b.power.st = .running then Pin.drive (b.flag (R.face_MODULE_CTL_RUN p)) else .hiZ
/-- PPS_OUT_n (R79). -/
def Bench.ppsPin (b : Bench) : Pin := if b.power.st = .running then Pin.drive b.time.ppsOut else .hiZ
/-- WP_N of flash channel `c`: high only while the channel is UP, high-impedance while it is OFF (R409). -/
def Bench.nandWp (b : Bench) (c : Nat) : Pin :=
  let st := b.fld (R.storage_FLASH_STATUS_STATE c)
  if st = 0 then .hiZ else Pin.drive (st = fsUp)
/-- Is lane `l` of the bench in electrical idle (R59, R64, R93, R551, R569)? Outside RUNNING and DRAINING, on a lane that no enabled port
uses, on one under near-end loopback, and while PWRFAIL_N is low. [DEDUCED, log 99, safe] -/
def Bench.laneIdle (b : Bench) (pwrfail : Bool) (l : Nat) : Bool :=
  pwrfail || !(b.power.st = .running || b.power.st = .draining) || b.fld (R.face_LANE_CTL_LOOPBACK l) = 1 ||
    (List.range 4).all (fun p => !b.hasPort p || !(b.lanes p).contains l || b.portSt p = psDisabled || b.portSt p = psFailed)
/-- Does port `p` send the fault ordered sets of its PCS: from the moment it left UP until it is UP again (R63)? -/
def Bench.faultSets (b : Bench) (p : Nat) : Bool := b.hasPort p && (b.port p).faults && b.portSt p ≠ psDisabled
/-- The auto-negotiation page that port `p` shows its partner in TRAINING: one technology (R60). -/
def Bench.anTech (b : Bench) (p : Nat) : Option Tech :=
  if b.hasPort p && b.portSt p = psTraining && b.negotiates p && (b.port p).an ≠ 1 then some (techOf b.power.portMode) else none
/-- Does port `p` run the link-training protocol: copper cable or backplane, once auto-negotiation has matched or is off (R60, R90)? -/
def Bench.linkTraining (b : Bench) (p : Nat) : Bool :=
  b.hasPort p && b.portSt p = psTraining && b.fld (R.face_PORT_CTL_IFACE p) ≠ 0 && (!b.negotiates p || (b.port p).an = 1)
/-- The transmit taps PRE, MAIN and POST that TX_EQ sets on lane `l` of port `p`: chip-to-module only (R60, R89). -/
def Bench.txTaps (b : Bench) (p l : Nat) : Option (Int × Int × Int) :=
  if b.fld (R.face_PORT_CTL_IFACE p) = 0 then
    some (signed 6 (b.fld (R.face_TX_EQ_PRE l)), signed 6 (b.fld (R.face_TX_EQ_MAIN l)), signed 6 (b.fld (R.face_TX_EQ_POST l)))
  else none
/-- A bit at lane `l`'s balls: inverted by TX_INVERT on the way out, by RX_INVERT on the way in (R93). -/
def Bench.txBit (b : Bench) (l : Nat) (x : Bool) : Bool := xor x (b.flag (R.face_LANE_CTL_TX_INVERT l))
def Bench.rxBit (b : Bench) (l : Nat) (x : Bool) : Bool := xor x (b.flag (R.face_LANE_CTL_RX_INVERT l))
/-- Do the endpoints show a receiver? Not in reset, before IMAGE_OK, or once SCRAPPED, whose part runs no image (R497, R542, R551). -/
def Hub.receiver (h : Hub) : Bool := h.up && h.flag R.pcr_RESET_CAUSE_IMAGE_OK && !h.fw.pwrfail
/-- WAKE_N, open-drain (R519, R551). -/
def Hub.wakePin (h : Hub) : Pin := Pin.pull h.fw.wakeN
/-- THERMTRIP_N, open-drain (R571). -/
def Hub.thermPin (h : Hub) : Pin := Pin.pull h.fw.thermTrip

end Sys2Proof.Machine
end

