-- ==== Sys2Proof/Safety.lean ====
section
/-! DEFINITION. What the statements about the machine speak of: that a command completes, what it leaves as it was, and
the bench it leaves. -/
namespace Sys2Proof.Machine

/-! ## Frames -/

/-- The firmware's state is as it was, but for the mailboxes, into whose queues a notice may have gone (R490). -/
def FwKept (h h' : Hub) : Prop := ∃ x, h'.fw = { h.fw with mbx := x }

/-- What a command of bench `n` that uses the hub for nothing but its events leaves as it was: the queue, the firmware's
state, the hub's memory and its registers below the interrupt unit, and every other bench (R25). -/
def OnlyBench (n : BenchId) (s t : State) : Prop :=
  t.pending = s.pending ∧ FwKept s.dev.hub t.dev.hub ∧ t.dev.hub.mem = s.dev.hub.mem ∧
    (∀ o, o < 0x200000 → t.dev.hub.reg o = s.dev.hub.reg o) ∧ ∀ m, m ≠ n → t.dev.bench m = s.dev.bench m

/-- What every command of bench `n` leaves as it was: the queue and every other bench (R25). -/
def OthersKept (n : BenchId) (s t : State) : Prop :=
  t.pending = s.pending ∧ t.dev.answer = s.dev.answer ∧ ∀ m, m ≠ n → t.dev.bench m = s.dev.bench m

/-- What a command of the hub alone leaves as it was: the queue, the last answer and every bench. -/
def HubOnly (s t : State) : Prop :=
  t.pending = s.pending ∧ t.dev.answer = s.dev.answer ∧ t.dev.benches = s.dev.benches

/-! ## Completion -/

/-- The command completes: it answers a next state, and `P` holds of that state. -/
def Completes (c : Instr) (s : State) (P : State → Prop) : Prop := ∃ t, exec c s = .next t ∧ P t

/-- The command completes on bench `n` alone, with no answer to anyone, and `P` holds of the bench it leaves. -/
def Runs (c : Instr) (n : BenchId) (s : State) (P : Bench → Prop) : Prop :=
  Completes c s (fun t => OnlyBench n s t ∧ t.dev.answer = s.dev.answer ∧ P (t.dev.bench n))

/-- The command completes and leaves bench `n` exactly as `b`, its events handed to the interrupt unit and the interrupt
writes they caused waiting with its TLPs (R30, R527). -/
def Leaves (c : Instr) (n : BenchId) (s : State) (b : Bench) : Prop :=
  Runs c n s (fun x => ∃ l, x = b.afterEvents l)

/-- The reading command completes on bench `n` alone, answers the list `a`, and leaves the bench exactly as `b`. -/
def Answers (c : Instr) (n : BenchId) (s : State) (a : List Nat) (b : Bench) : Prop :=
  Completes c s (fun t => OnlyBench n s t ∧ t.dev.answer = a ∧ ∃ l, t.dev.bench n = b.afterEvents l)

/-- The command completes on bench `n` and the hub, and `P` holds of the hub and the bench it leaves. -/
def RunsBoth (c : Instr) (n : BenchId) (s : State) (P : Hub → Bench → Prop) : Prop :=
  Completes c s (fun t => OthersKept n s t ∧ P t.dev.hub (t.dev.bench n))

/-- The command completes on the hub alone and leaves it exactly as `h`. -/
def LeavesHub (c : Instr) (s : State) (h : Hub) : Prop := exec c s = .next { s with dev := { s.dev with hub := h } }

/-- The command completes and leaves the hub as `h` and bench `n` as `b`, the events that `b` raised handed to the interrupt
unit in their order (R527); every other bench, the queue and the last answer are as before. -/
def LeavesBoth (c : Instr) (n : BenchId) (s : State) (h : Hub) (b : Bench) : Prop :=
  exec c s = .next { s with dev := s.dev.run n (fun _ _ => (h, b)) }

/-- The command changes nothing. -/
def Idles (c : Instr) (s : State) : Prop := exec c s = .next s

/-- The command completes on the hub alone, and `P` holds of the hub it leaves. -/
def RunsHub (c : Instr) (s : State) (P : Hub → Prop) : Prop :=
  Completes c s (fun t => HubOnly s t ∧ P t.dev.hub)

/-! ## Parts of a bench that a command does not touch -/

/-- Every byte of memory outside the addresses of `S` reads as before. -/
def MemKept (S : Nat → Prop) (b b' : Bench) : Prop := ∀ a, ¬ S a → memByte b'.mem a = memByte b.mem a
/-- Every register outside `S` reads as before. -/
def RegsKept (S : Nat → Prop) (b b' : Bench) : Prop := ∀ o, ¬ S o → b'.reg o = b.reg o
/-- Every tally outside `S` reads as before. -/
def TalliesKept (S : Nat → Prop) (b b' : Bench) : Prop := ∀ k, ¬ S k → b'.tally k = b.tally k

/-- Of bench state a port's command leaves memory, packets, transmitted frames and every register but the port's own PORT_CTL, PORT_STATUS
and the LANE_STATUS of its lanes as they were. -/
def PortOnly (p : Nat) (b b' : Bench) : Prop :=
  b'.mem = b.mem ∧ b'.pkts = b.pkts ∧ b'.out = b.out ∧
    RegsKept (fun o => o = R.face_PORT_CTL p ∨ o = R.face_PORT_STATUS p ∨ ∃ k ∈ b.lanes p, o = R.face_LANE_STATUS k) b b'

/-! ## Engine threads (R269 to R287) -/

/-- Nothing waits in the engine cluster: no thread is blocked and no notice is on its way. -/
def Bench.quiet (b : Bench) : Prop :=
  b.eng.blocked = [] ∧ b.eng.faultSlots = [] ∧ b.eng.stallSlot = [] ∧ b.eng.doorSlot = 0

/-- Thread number of thread `t` of core `c`. -/
def tid (c t : Nat) : Nat := 8 * (c % 8) + t % 8

/-- The word `w` stands at the PC of thread `i` of live bench `n`, the thread may issue, and another word follows. -/
def AtWord (s : State) (n : BenchId) (i w : Nat) : Prop :=
  (s.dev.bench n).live = true ∧ s.dev.hub.fw.pwrfail = false ∧ (s.dev.bench n).canIssue i = true ∧
    (s.dev.bench n).le ((s.dev.bench n).pcAddr i) 4 = w ∧ ((s.dev.bench n).thr i).pc < pcMax

/-- A thread after an instruction: its registers written in order, its PC at `pc`, its next slot from engine cycle `e` on; a stepped
thread is stopped again. -/
def Thread.after (t : Thread) (ws : List (Nat × DWord)) (pc e : Nat) : Thread :=
  { ws.foldl (fun (t : Thread) w => t.setG w.1 w.2) t with pc := pc, wait := .none, dbg := t.dbg || t.stepped || t.step, step := false, stepped := false, next := e }

/-- A thread after a fault (R286): FAULTED, its PC and its registers as they were. -/
def Thread.faulted (t : Thread) (e : Nat) : Thread :=
  { t with st := 2, wait := .none, dbg := t.dbg || t.stepped || t.step, step := false, stepped := false, next := e }

/-- The instruction completes: thread `i` has written the registers `ws` and goes on at `pc`, `k` slots after the one in which it
issued, and nothing else of it has changed; in a quiet cluster every byte of memory outside `S`, every other thread, every packet and every register but the
stall watch's is as before. -/
def Retires (c : Instr) (n : BenchId) (i : Nat) (s : State) (ws : List (Nat × DWord)) (pc : Nat) (S : Nat → Prop)
    (k : Nat := 1) : Prop :=
  RunsBoth c n s (fun h b => h.fw = s.dev.hub.fw ∧ b.thr i = ((s.dev.bench n).thr i).after ws pc ((s.dev.bench n).slotOf i + 8 * k) ∧
    ((s.dev.bench n).quiet → MemKept S (s.dev.bench n) b ∧ (∀ j, j ≠ i → b.thr j = (s.dev.bench n).thr j) ∧
      b.pkts = (s.dev.bench n).pkts ∧ RegsKept (fun o => o = R.engine_STALL_STATUS) (s.dev.bench n) b))

/-- The instruction completes by a fault of thread `i` (R286): the thread is FAULTED with its PC and its registers as they
were; in a quiet cluster memory and every other thread are as before and the fault is counted once, under its code. -/
def Faults (c : Instr) (n : BenchId) (i : Nat) (s : State) (code : Nat) : Prop :=
  RunsBoth c n s (fun h b => h.fw = s.dev.hub.fw ∧ b.thr i = ((s.dev.bench n).thr i).faulted ((s.dev.bench n).slotOf i + 8) ∧
    ((s.dev.bench n).quiet → b.mem = (s.dev.bench n).mem ∧ (∀ j, j ≠ i → b.thr j = (s.dev.bench n).thr j) ∧
      b.tally (T.FAULT code) = min tallyMax ((s.dev.bench n).tally (T.FAULT code) + 1)))

/-! ## Sceune commands (R482 to R488) -/

/-- The mailbox and the opcode of a Sceune command, and whether its bound has passed (R486, R488). -/
def sceuneCmd : Instr → Option (Nat × Nat × Bool)
  | .identify m => some (m, 0x001, false)
  | .noticeGet m => some (m, 0x002, false)
  | .adminCreate m => some (m, 0x003, false)
  | .adminDestroy m => some (m, 0x004, false)
  | .managerSet m => some (m, 0x005, false)
  | .eventRoute m => some (m, 0x006, false)
  | .tallyRead m => some (m, 0x007, false)
  | .benchStart m late => some (m, 0x010, late)
  | .benchStop m late => some (m, 0x011, late)
  | .benchStatus m => some (m, 0x012, false)
  | .graphLoad m late => some (m, 0x020, late)
  | .ruleWrite m late => some (m, 0x021, late)
  | .genSwap m => some (m, 0x022, false)
  | .tableOp m _ late => some (m, 0x023, late)
  | .learnPolicy m => some (m, 0x024, false)
  | .tableSweep m => some (m, 0x025, false)
  | .portSet m => some (m, 0x030, false)
  | .tmWrite m late => some (m, 0x031, late)
  | .gateLoad m late => some (m, 0x032, late)
  | .timeCmd m => some (m, 0x033, false)
  | .keyLoad m late => some (m, 0x040, late)
  | .saWrite m late => some (m, 0x041, late)
  | .debugOpen m late => some (m, 0x042, late)
  | .debugClose m => some (m, 0x043, false)
  | .attest m => some (m, 0x044, false)
  | .engineLoad m _ late => some (m, 0x050, late)
  | .engineCtl m => some (m, 0x051, false)
  | .claimCreate m => some (m, 0x060, false)
  | .claimQuiesce m late => some (m, 0x061, late)
  | .claimResume m => some (m, 0x062, false)
  | .claimReset m late => some (m, 0x063, late)
  | .claimRemove m => some (m, 0x064, false)
  | .claimSetShare m => some (m, 0x065, false)
  | .windowSet m => some (m, 0x066, false)
  | .ringCreate m => some (m, 0x070, false)
  | .ringStart m => some (m, 0x071, false)
  | .ringStop m => some (m, 0x072, false)
  | .ringDestroy m => some (m, 0x073, false)
  | .ringSetStep m => some (m, 0x074, false)
  | .nvmeGrant m => some (m, 0x080, false)
  | .nvmeRemove m => some (m, 0x081, false)
  | .nsCreate m => some (m, 0x082, false)
  | .nsDelete m => some (m, 0x083, false)
  | _ => none

/-- Ryuner comes to the command `c` with an opcode from mailbox `m`, which is new, the general checks of R485 and R486 pass, and what it reads
at HADDR, if its row has one, has arrived: the bytes `l`. -/
def Taken (s : State) (m op : Nat) (l : List Byte) (c : Sceune) : Prop :=
  s.dev.hub.ryuner = true ∧ s.dev.hub.turn m op = some c ∧ c.begun = false ∧
    ∀ r, cmdRow op = some r → s.dev.generalCode c r = none ∧
      (if r.haddr.isSome then c.readDone = true ∧ l = c.block else l = [])
/-- Ryuner comes back to the command `c` with an opcode from mailbox `m`, which has begun (R488). -/
def Resumed (s : State) (m op : Nat) (c : Sceune) : Prop :=
  s.dev.hub.ryuner = true ∧ s.dev.hub.turn m op = some c ∧ c.begun = true

/-- The command completes: it leaves the device as `d`, and the Sceune command `c` ends with a code and result words. -/
def Ends (i : Instr) (s : State) (c : Sceune) (d : Device) (code : Nat) (res : List Nat) : Prop :=
  exec i s = .next { s with dev := { d with hub := d.hub.sceuneEnd c code res c.rbuf } }
/-- The command completes: it leaves the device as `d`, and the Sceune command `c` has begun and goes on with what it read. -/
def Goes (i : Instr) (s : State) (c : Sceune) (d : Device) (data : List Byte) : Prop :=
  exec i s = .next { s with dev := { d with hub := d.hub.sceuneBegun c data } }

/-- The device with the hub and bench `n` put, the events that the bench raised handed to the interrupt unit (R527). -/
def Device.put (d : Device) (n : BenchId) (q : Hub × Bench) : Device := d.run n (fun _ _ => q)

/-! ## Hits in the exact-match table (R127, R128, R130) -/

/-- Slot `i` holds a hit for a key of `table` under generation `g`: the five conditions of R130 on the slot's bytes, whose control word
lies at byte 60 and whose key starts at byte 0. -/
def Bench.hitAt (b : Bench) (g table : Nat) (key : List Byte) (i : Nat) : Prop :=
  let ctl := b.le (0x2000000 + 64 * i + 60) 4
  bit ctl 0 = true ∧ bit ctl (1 + g) = true ∧ getBits ctl 3 4 = table ∧ getBits ctl 7 6 = key.length ∧
    b.bytes (0x2000000 + 64 * i) key.length = key

/-! ## Isolation of the benches (R25) -/

/-- The bench that a command acts on, for the commands that act on one bench alone, or on one bench and the hub (R25). -/
def benchCmd : Instr → Option BenchId
  | .benchCtlStart n _ => some n
  | .benchCtlStop n _ => some n
  | .benchRailsRamped n => some n
  | .benchPllsLocked n _ => some n
  | .crossingTrained n _ _ => some n
  | .benchClearDone n => some n
  | .benchRunning n => some n
  | .drainLimitExpired n => some n
  | .drainComplete n => some n
  | .supplyFail n => some n
  | .portEnable n _ _ => some n
  | .portDisable n _ _ => some n
  | .laneReset n _ _ => some n
  | .disableFrameEnd n _ => some n
  | .signalPresent n _ => n.bench?
  | .signalLoss n _ => n.bench?
  | .lockLoss n _ => n.bench?
  | .attemptSucceeds n _ => n.bench?
  | .attemptFails n _ => n.bench?
  | .rxFrameStart n _ _ _ => some n
  | .rxHeaderPresent n _ => some n
  | .rxEndStatus n _ _ _ _ _ => some n
  | .stationCommit n _ _ => some n
  | .pauseFrameRx n _ _ => some n
  | .pfcFrameRx n _ _ _ => some n
  | .pauseTimerExpired n _ _ => n.bench?
  | .txFrame n _ _ _ => n.bench?
  | .txUnderrun n _ _ => some n
  | .pauseRequestChange n _ => n.bench?
  | .pauseRepeatTimer n _ => n.bench?
  | .pauseModeChange n _ => n.bench?
  | .timeSnap n => some n
  | .timeLoad n => some n
  | .timeAdjust n => some n
  | .timeIncrWrite n _ _ => some n
  | .freqCountDone n _ => some n
  | .ppsInEdge n => some n
  | .ppsOutRise n => some n
  | .ppsOutFall n => some n
  | .calComplete n _ => some n
  | .txTsRead n _ _ => some n
  | .ppsInTsRead n _ => some n
  | .freqCntRead n => some n
  | .firstCutAdmit n _ _ => some n
  | .secondCutAdmit n _ => some n
  | .hostEntryAdmit n _ => some n
  | .graphArm n _ => some n
  | .nodeCommit n _ => some n
  | .startNodeWrite n _ _ => some n
  | .excClassWrite n _ _ => some n
  | .recipeWrite n _ _ => some n
  | .hitBitmapRead n _ _ => some n
  | .tableLookup n _ => some n
  | .tableRead n _ => some n
  | .tableInsert n _ => some n
  | .tableUpdate n _ => some n
  | .tableDelete n _ => some n
  | .tableMove n _ => some n
  | .tableClear n => some n
  | .tableOpDone n => some n
  | .sweepStart n _ => some n
  | .sweepStep n _ => some n
  | .sweepResume n _ => some n
  | .learnRecordReady n => some n
  | .learnPop n => some n
  | .genCtlSwap n => some n
  | .templateCommit n _ => some n
  | .cipherBodyStep n _ => some n
  | .cipherVerdict n _ _ => some n
  | .cipherRestart n => some n
  | .cipherSelftestDone n _ => some n
  | .saCommit n _ => some n
  | .saKeyZeroised n _ => some n
  | .sideEnqueue n _ => some n
  | .schedDecision n _ _ => some n
  | .meterRefresh n _ => some n
  | .mtrCommit n _ => some n
  | .qctxCommit n _ => some n
  | .qctxClearHwm n _ => some n
  | .gateCommit n _ => some n
  | .gateCancel n _ => some n
  | .gateTakeover n _ => some n
  | .gateEntryAdvance n _ => some n
  | .hostDeliveryTake n => some n
  | .hopperEnable n _ => some n
  | .hopperReady n => some n
  | .hopAllocLength n _ => some n
  | .hopAllocPool n _ => some n
  | .hopShare n _ => some n
  | .hopRelease n _ => some n
  | .hopFree n _ => some n
  | .hopGive n _ => some n
  | .alu n _ _ _ => some n
  | .addi n _ _ _ => some n
  | .andi n _ _ _ => some n
  | .ori n _ _ _ => some n
  | .xori n _ _ _ => some n
  | .slti n _ _ _ => some n
  | .sltiu n _ _ _ => some n
  | .shi n _ _ _ => some n
  | .movw n _ _ _ => some n
  | .ext n _ _ _ => some n
  | .exts n _ _ _ => some n
  | .ins n _ _ _ => some n
  | .ldl n _ _ _ => some n
  | .stl n _ _ _ => some n
  | .ldb n _ _ _ => some n
  | .stb n _ _ _ => some n
  | .ldd n _ _ _ => some n
  | .std n _ _ _ => some n
  | .lddl n _ _ _ => some n
  | .stdl n _ _ _ => some n
  | .aadd n _ _ _ => some n
  | .acas n _ _ _ => some n
  | .beq n _ _ _ => some n
  | .bne n _ _ _ => some n
  | .blt n _ _ _ => some n
  | .bge n _ _ _ => some n
  | .bltu n _ _ _ => some n
  | .bgeu n _ _ _ => some n
  | .jal n _ _ _ => some n
  | .jalr n _ _ _ => some n
  | .chrd n _ _ _ => some n
  | .chwr n _ _ _ => some n
  | .fork n _ _ _ => some n
  | .join n _ _ _ => some n
  | .wacq n _ _ _ => some n
  | .wrel n _ _ _ => some n
  | .top n _ _ _ => some n
  | .hop n _ _ _ => some n
  | .hsub n _ _ _ => some n
  | .waitc n _ _ _ => some n
  | .mfs n _ _ _ => some n
  | .notice n _ _ _ => some n
  | .trap n _ _ _ => some n
  | .halt n _ _ _ => some n
  | .illegalInstruction n _ _ _ => some n
  | .dramLoadReturn n => some n
  | .ticketComplete n => some n
  | .coreStart n _ => some n
  | .coreStop n _ => some n
  | .coreStopWalk n _ => some n
  | .threadTerminate n _ _ => some n
  | .threadResume n _ _ => some n
  | .chanCfgWrite n _ _ => some n
  | .inboxDeliver n _ => some n
  | .stallWatch n => some n
  | .dbgStop n _ _ _ => some n
  | .dbgResume n _ _ _ => some n
  | .dbgStep n _ _ _ => some n
  | .hostCompletion n _ _ _ _ _ => some n
  | .readTimeout n _ _ => some n
  | .tagQuarantineEnd n _ _ => some n
  | .ringFetch n => some n
  | .descArrive n _ => some n
  | .descRefetch n _ => some n
  | .completionWrite n => some n
  | .cqIntTimer n _ => some n
  | .claimDrained n _ => some n
  | .quiesceLimitExpired n _ => some n
  | .claimResetDone n _ => some n
  | .haulSubmit n => some n
  | .haulCommandStart n _ _ => some n
  | .haulReadRequest n _ _ => some n
  | .haulWriteChunk n _ _ => some n
  | .haulCommandDone n _ => some n
  | .collectorExit n => some n
  | .flashIdentifyDone n _ _ _ _ _ _ => some n
  | .flashTrain n _ => some n
  | .flashTrainDone n _ _ => some n
  | .flashDb n _ _ => some n
  | .flashRingReset n _ => some n
  | .flashEntryReread n _ => some n
  | .flashOpFetch n _ => some n
  | .flashRead n _ _ => some n
  | .flashProgram n _ _ _ => some n
  | .flashErase n _ _ => some n
  | .flashReadRaw n _ _ => some n
  | .flashGetFeature n _ _ => some n
  | .flashSetFeature n _ _ => some n
  | .flashReadId n _ _ => some n
  | .flashReadParam n _ _ => some n
  | .flashRetire n _ _ => some n
  | .flashResetLun n _ _ => some n
  | .dieReady n _ _ _ _ _ => some n
  | .codewordDecoded n _ _ _ _ _ _ _ => some n
  | .dieOpTimeout n _ _ => some n
  | .flashDoneMsg n _ _ => some n
  | .xtsEnable n _ => some n
  | .xtsDisable n _ => some n
  | .xtsSlotZeroised n _ => some n
  | .nvmeCcWrite n _ _ => some n
  | .nvmeSqDoorbell n _ _ _ => some n
  | .nvmeCqDoorbell n _ _ _ => some n
  | .nvmeSqFetch n => some n
  | .nvmeCplCommit n _ _ _ => some n
  | .flushDone n _ => some n
  | .dramGo n => some n
  | .dramTrainDone n _ => some n
  | .dramFillDone n => some n
  | .dramRequestIssue n _ => some n
  | .dramReadComplete n _ => some n
  | .dramRefresh n _ => some n
  | .dramSrEntry n => some n
  | .dramAlert n _ _ => some n
  | .dramRetire n _ => some n
  | .dramMigStep n _ => some n
  | .learnPolicyApply n _ => some n
  | .anPageReceived n _ _ => n.bench?
  | _ => none

/-- No event waits in a bench: each one has reached the interrupt unit within the command that raised it (R30, R527). -/
def State.eventsHandedOver (s : State) : Prop := ∀ n : BenchId, (s.dev.bench n).evq = []

/-! ## Expected parts of a bench -/

/-- The operation `o` at the head of the table operation queue carries the result `r`, `t` behind it (R136). -/
def Bench.headDone (b : Bench) (o : TableOp) (t : List TableOp) (r : OpResult) : Bench :=
  let m : MatchSt := { b.mt with opq := { o with res := some r } :: t }
  { b with mt := m }

/-- The head of the learn queue is taken by one that reads the LEARN registers (R150): the queue is one shorter, the record
stands in LEARN_REC, and LEARN_REC_STATUS holds VALID and its number. -/
def Bench.learnRead (b : Bench) (r : LearnRec) (t : List LearnRec) : Bench :=
  let m : MatchSt := { b.mt with learnq := t }
  let b := { b with mt := m }.countLearn
  ((List.range 20).foldl (fun b w => b.setReg (R.match_LEARN_REC w)
    (BitVec.ofNat 32 (leNat (slice r.bytes (4 * w) 4)))) b).setReg R.match_LEARN_REC_STATUS (BitVec.ofNat 32 (1 + 65536 * r.seq))

end Sys2Proof.Machine
end

