-- ==== Sys2Proof/Certificates/Slice0/Obligations.lean ====
section
/-! DEFINITION. The statements about the machine, for the provers: each one a proposition under its own name. -/
open Sys2Proof Sys2Proof.Machine

/-- A step runs the command at the front of the queue on the rest. Rests on spec/00_scope.md. -/
def Obligations.StepRunsFrontCommand : Prop :=
  ∀ (c : Instr) (s : State), step { s with pending := c :: s.pending } = exec c s

/-- With no command waiting a step is one pipeline cycle: live benches count it and their time counters advance (log 1, the model's choice; R77). Rests on spec/02_face_ports_and_mac.md. -/
def Obligations.EmptyQueueCountsOneCycle : Prop :=
  ∀ s : State, s.pending = [] → ∃ t, step s = .next t ∧ t.pending = [] ∧ ∀ n : BenchId,
    ((s.dev.bench n).live = false → t.dev.bench n = s.dev.bench n) ∧
    ((s.dev.bench n).live = true →
      (t.dev.bench n).cyc = (s.dev.bench n).cyc + 1 ∧
      (t.dev.bench n).time.frac = ((s.dev.bench n).time.frac + ((s.dev.bench n).reg R.face_TIME_INCR_FRAC).toNat) % 2 ^ 32 ∧
      (t.dev.bench n).pkts = (s.dev.bench n).pkts ∧ (t.dev.bench n).mem = (s.dev.bench n).mem)

/-- At reset every bench is OFF and empty, every tally is 0, no command and no event waits. Rests on spec/01_benches_and_hub.md spec/20_start_up_and_reset.md spec/19_errors_and_tallies.md. -/
def Obligations.ResetHoldsEverythingOff : Prop :=
  State.reset.pending = [] ∧ State.reset.dev.hub.fw.por = true ∧ State.reset.dev.hub.up = false ∧
    (∀ k, State.reset.dev.hub.tally k = 0) ∧ (∀ o, State.reset.dev.hub.reg o = hubRegReset o) ∧
    ∀ n : BenchId, (State.reset.dev.bench n).power = Power.off ∧ (State.reset.dev.bench n).pkts = [] ∧
      (∀ a, memByte (State.reset.dev.bench n).mem a = 0) ∧ (∀ k, (State.reset.dev.bench n).tally k = 0) ∧
      (∀ o, (State.reset.dev.bench n).reg o = benchRegReset o) ∧ State.reset.eventsHandedOver

/-- BENCH_CTL: START and STOP in every state of a bench, a refused and a held START, and the switch turn. Rests on spec/01_benches_and_hub.md spec/20_start_up_and_reset.md spec/16_cycle_ledger.md. -/
def Obligations.BenchControl : Prop :=
  (∀ (n : BenchId) (v : Word) (s : State), s.dev.hub.up = true → ((s.dev.bench n).power.st = .off ∨ (s.dev.bench n).power.st = .fault) →
    s.dev.hub.switchBusy = false → s.dev.hub.starts = [] →
    (s.dev.hub.benchCtlFields n false (putBits v.toNat 0 2 1)).startValid n = true →
    RunsBoth (.benchCtlStart n v) n s (fun h b => h.switchBusy = true ∧ FwKept s.dev.hub h ∧
      b.power.st = .starting ∧ b.power.profile = getBits v.toNat 2 1 ∧ b.power.portMode = getBits v.toNat 4 3 ∧
      b.power.hostLink = getBits v.toNat 8 2 ∧ b.power.dramEn = bit v.toNat 10 ∧ b.power.flashEn = bit v.toNat 11 ∧
      b.power.cleared = false ∧ b.pkts = [] ∧ (∀ k, b.tally k = 0) ∧ ∀ o, b.reg o = benchRegReset o)) ∧
  (∀ (n : BenchId) (v : Word) (s : State), s.dev.hub.up = true → ((s.dev.bench n).power.st = .off ∨ (s.dev.bench n).power.st = .fault) →
    s.dev.hub.switchBusy = false → s.dev.hub.starts = [] →
    (s.dev.hub.benchCtlFields n false (putBits v.toNat 0 2 1)).startValid n = false →
    LeavesBoth (.benchCtlStart n v) n s
      ((s.dev.hub.benchCtlFields n false (putBits v.toNat 0 2 1)).tick (T.BENCH_START_REFUSED n.val)) ((s.dev.bench n).raise 3)) ∧
  (∀ (n : BenchId) (v : Word) (s : State), s.dev.hub.up = true → ((s.dev.bench n).live = true ∨ (s.dev.bench n).power.st = .starting) →
    LeavesBoth (.benchCtlStart n v) n s
      ((s.dev.hub.benchCtlFields n true (putBits v.toNat 0 2 1)).tick (T.BENCH_CMD_IGNORED n.val)) (s.dev.bench n)) ∧
  (∀ (n : BenchId) (v : Word) (s : State), s.dev.hub.up = true → ((s.dev.bench n).power.st = .off ∨ (s.dev.bench n).power.st = .fault) →
    (s.dev.hub.switchBusy = true ∨ s.dev.hub.starts ≠ []) →
    LeavesBoth (.benchCtlStart n v) n s
      { s.dev.hub with starts := s.dev.hub.starts ++ [(n.val, putBits v.toNat 0 2 1)] } (s.dev.bench n)) ∧
  (∀ (n : BenchId) (v : Word) (s : State), s.dev.hub.up = true → (s.dev.bench n).power.st = .running →
    RunsBoth (.benchCtlStop n v) n s (fun h b => FwKept s.dev.hub h ∧ h.mem = s.dev.hub.mem ∧
      b.power.st = .draining ∧ b.power.retain = bit v.toNat 13 ∧ b.flag R.graph_GRAPH_CTL_ARMED = false ∧ b.rings.claims = (s.dev.bench n).rings.claims ∧
      (s.dev.hub.fld (R.pcr_BENCH_DRAIN_LIMIT_LIMIT_US n.val) ≠ 0 → b.pkts = (s.dev.bench n).pkts ∧ b.mem = (s.dev.bench n).mem ∧
        RegsKept (fun o => o = R.graph_GRAPH_CTL ∨ o = R.ring_BACKPRESSURE) (s.dev.bench n) b) ∧
      (s.dev.hub.fld (R.pcr_BENCH_DRAIN_LIMIT_LIMIT_US n.val) = 0 → ∀ k ∈ b.pkts, ∀ q, k.loc ≠ .flow q))) ∧
  (∀ (n : BenchId) (v : Word) (s : State), s.dev.hub.up = true →
    ((s.dev.bench n).power.st = .off ∨ (s.dev.bench n).power.st = .draining) →
    LeavesBoth (.benchCtlStop n v) n s
      ((s.dev.hub.benchCtlFields n (!((s.dev.bench n).power.st = .off)) (putBits v.toNat 0 2 2)).tick (T.BENCH_CMD_IGNORED n.val)) (s.dev.bench n)) ∧
  (∀ (n : BenchId) (v : Word) (s : State), s.dev.hub.up = true →
    ((s.dev.bench n).power.st = .starting ∨ (s.dev.bench n).power.st = .fault) →
    RunsBoth (.benchCtlStop n v) n s (fun _ b => b.power.st = .off ∧ b.pkts = [] ∧ ∀ o, b.reg o = benchRegReset o)) ∧
  (∀ s : State, s.dev.hub.starts = [] → LeavesHub (.benchSwitchTurn) s { s.dev.hub with switchBusy := false }) ∧
  (∀ (n : BenchId) (v : Nat) (s : State), s.dev.hub.starts = [(n.val, v)] → (s.dev.bench n).power.st = .off →
    bit v 0 = true → bit v 1 = false → (s.dev.hub.benchCtlFields n false v).startValid n = true →
    Completes (.benchSwitchTurn) s (fun t => OthersKept n s t ∧ t.dev.hub.starts = [] ∧ t.dev.hub.switchBusy = true ∧
      (t.dev.bench n).power.st = .starting))

/-- The steps of a bench start: rails, PLLs, crossings, clear, RUNNING, and a PLL or crossing that fails. Rests on spec/01_benches_and_hub.md spec/02_face_ports_and_mac.md. -/
def Obligations.StepsOfAStart : Prop :=
  (∀ (n : BenchId) (s : State), (s.dev.bench n).power.st = .starting →
    Leaves (.benchRailsRamped n) n s
      { s.dev.bench n with power := { (s.dev.bench n).power with railsUp := true } }) ∧
  (∀ (n : BenchId) (s : State), (s.dev.bench n).power.st = .starting → (s.dev.bench n).power.railsUp = true →
    (s.dev.bench n).power.pllsUp = false →
    Runs (.benchPllsLocked n true) n s (fun b => b.power = { (s.dev.bench n).power with pllsUp := true } ∧
      (∀ k, k < 12 → b.fld (R.bench_XING_LAT_XSTATE k) = 1) ∧ b.mem = (s.dev.bench n).mem ∧
      b.tal = (s.dev.bench n).tal ∧
      RegsKept (fun o => ∃ k, k < 12 ∧ o = R.bench_XING_LAT k) (s.dev.bench n) b)) ∧
  (∀ (n : BenchId) (s : State), (s.dev.bench n).power.st = .starting → (s.dev.bench n).power.railsUp = true →
    (s.dev.bench n).power.pllsUp = false →
    RunsBoth (.benchPllsLocked n false) n s (fun h b => h.fld (R.pcr_BENCH_STATUS_PLL_UNLOCK n.val) = 1 ∧ b.power.st = .fault)) ∧
  (∀ (n : BenchId) (k : Nat) (s : State), (s.dev.bench n).power.st = .starting → k < 12 →
    (s.dev.bench n).fld (R.bench_XING_LAT_XSTATE k) = 1 →
    Leaves (.crossingTrained n k true) n s
      (((s.dev.bench n).setFld (R.bench_XING_LAT_XSTATE k) 2).setFld (R.bench_XING_LAT_LAT k) (xingLat k))) ∧
  (∀ (n : BenchId) (k : Nat) (s : State), (s.dev.bench n).power.st = .starting → k < 12 →
    (s.dev.bench n).fld (R.bench_XING_LAT_XSTATE k) = 1 →
    RunsBoth (.crossingTrained n k false) n s (fun h b => h.fld (R.pcr_BENCH_STATUS_XING_FAIL n.val) = 1 ∧ b.power.st = .fault ∧
      b.fld (R.bench_XING_LAT_XSTATE k) = 3)) ∧
  (∀ (n : BenchId) (s : State), (s.dev.bench n).power.st = .starting → (s.dev.bench n).crossed = true →
    (s.dev.bench n).power.cleared = false →
    Runs (.benchClearDone n) n s (fun b => b.power = { (s.dev.bench n).power with cleared := true } ∧
      (∀ a, memByte b.mem a = if a < 0x8000000000 then 0 else memByte (s.dev.bench n).mem a) ∧
      ((s.dev.bench n).power.dramEn = true → b.fld R.dram_DRAM_STATUS_STATE = 1) ∧
      ((s.dev.bench n).power.flashEn = true → b.fld (R.storage_FLASH_STATUS_STATE 0) = 1 ∧ b.fld (R.storage_FLASH_STATUS_STATE 1) = 1))) ∧
  (∀ (n : BenchId) (s : State), (s.dev.bench n).power.st = .starting → (s.dev.bench n).startDone = true →
    Runs (.benchRunning n) n s (fun b => b.power = { (s.dev.bench n).power with st := .running } ∧
      b.cyc = 0 ∧ b.time.sec = 0 ∧ b.time.ns = 0 ∧ b.time.frac = 0 ∧ b.mem = (s.dev.bench n).mem ∧
      ∀ p, p < portCount (s.dev.bench n).power.portMode →
        b.fld (R.face_PORT_CTL_FEC_EN p) = if (s.dev.bench n).power.portMode = 5 then 0 else 1))

/-- The end of a drain, and the failures that put a bench in FAULT. Rests on spec/01_benches_and_hub.md spec/12_claims_and_rings.md. -/
def Obligations.DrainAndFailure : Prop :=
  (∀ (n : BenchId) (s : State), (s.dev.bench n).power.st = .draining →
    Runs (.drainLimitExpired n) n s (fun b => b.power = { (s.dev.bench n).power with drainCut := true } ∧
      ∀ k ∈ b.pkts, ∀ q, k.loc ≠ .flow q)) ∧
  (∀ (n : BenchId) (s : State), (s.dev.bench n).power.st = .draining → (s.dev.bench n).drained = true →
    RunsBoth (.drainComplete n) n s (fun _ b => b.power.st = .off ∧ b.rings.claims = [] ∧
      (∀ k, k ≠ T.DRAM_SR_ENTRIES → b.tally k = (s.dev.bench n).tally k) ∧ ∀ o, b.reg o = benchRegReset o)) ∧
  (∀ (n : BenchId) (s : State), (s.dev.bench n).up = true →
    RunsBoth (.supplyFail n) n s (fun h b => h.fld (R.pcr_BENCH_STATUS_SUPPLY_FAIL n.val) = 1 ∧
      b.power.st = .fault ∧ b.rings.claims = [] ∧ b.pkts = [] ∧ ∀ o, b.reg o = benchRegReset o)) ∧
  (∀ (n : BenchId) (s : State), (s.dev.bench n).up = true →
    RunsBoth (.pllUnlock (some n)) n s (fun h b => h.fld (R.pcr_BENCH_STATUS_PLL_UNLOCK n.val) = 1 ∧
      b.power.st = .fault ∧ b.rings.claims = [] ∧ b.pkts = [] ∧ ∀ o, b.reg o = benchRegReset o)) ∧
  (∀ (n : BenchId) (s : State), (s.dev.bench n).power.st = .off →
    Leaves (.supplyFail n) n s (s.dev.bench n) ∧ Leaves (.pllUnlock (some n)) n s (s.dev.bench n))

/-- Power-on reset, its release, the PLL retry, the boot ROM's check of slots A and B, and a hub fault reset. Rests on spec/20_start_up_and_reset.md spec/18_security_debug_power.md spec/01_benches_and_hub.md. -/
def Obligations.PowerOnAndBoot : Prop :=
  (∀ (aux : Bool) (s : State), Completes (.porAssert aux) s (fun t => t.pending = s.pending ∧
    t.dev.hub.fw.por = true ∧ t.dev.hub.up = false ∧ t.dev.hub.mem = [] ∧ t.dev.hub.fw.fuses = s.dev.hub.fw.fuses ∧
    ∀ n, t.dev.bench n = Bench.blank Power.off (s.dev.bench n).free)) ∧
  (∀ (x y : Bool) (s : State), s.dev.hub.fw.por = true → s.dev.hub.fw.pwrfail = false → s.dev.hub.crossFailed = false →
    RunsHub (.porRelease x y true []) s (fun h => h.up = true ∧ h.fw.por = false ∧
      ∀ k, k < 6 → h.fld (R.pcr_XING_LAT_HUB_LAT k) = hubXingLat k ∧
        (h.unlocked k = false → h.fld (R.pcr_XING_LAT_HUB_XSTATE k) = 2) ∧ (h.unlocked k = true → h.flag (R.pcr_XING_LAT_HUB_UNLOCKED k) = true))) ∧
  (∀ (x y : Bool) (l : List (Fin 6)) (s : State), s.dev.hub.fw.por = true → s.dev.hub.fw.pwrfail = false → s.dev.hub.fw.hubUp = false →
    RunsHub (.porRelease x y false l) s (fun h => h.up = false ∧ h.fw.por = false)) ∧
  (∀ s : State, s.dev.hub.fw.por = false → s.dev.hub.fw.hubUp = false → s.dev.hub.crossFailed = false →
    RunsHub (.hubPllLockRetry true []) s (fun h => h.up = true ∧ h.mem = s.dev.hub.mem ∧
      ∀ k, k < 6 → h.fld (R.pcr_XING_LAT_HUB_LAT k) = hubXingLat k ∧
        (h.unlocked k = false → h.fld (R.pcr_XING_LAT_HUB_XSTATE k) = 2) ∧ (h.unlocked k = true → h.flag (R.pcr_XING_LAT_HUB_UNLOCKED k) = true))) ∧
  (∀ (a b : Option (List Byte)) (s : State), s.dev.hub.up = true → s.dev.hub.fw.locked = false →
    RunsHub (.bootSlotCheck a b) s (fun h =>
      (∀ l, a = some l → s.dev.hub.slotCause a = 0 → h.fw.locked = true ∧ h.fw.secrets = true ∧
        h.fld R.seal_BOOT_STATUS_A_CAUSE = 0 ∧ h.fld R.pcr_RESET_CAUSE_IMAGE_OK = 1 ∧
        h.fw.image = some { svn := leNat (slice l 6 1), version := leNat (slice l 8 4), measurement := imgMeas l }) ∧
      (∀ l, b = some l → s.dev.hub.slotCause a ≠ 0 → s.dev.hub.slotCause b = 0 → h.fw.locked = true ∧
        h.fld R.seal_BOOT_STATUS_A_CAUSE = s.dev.hub.slotCause a ∧ h.fld R.seal_BOOT_STATUS_B_CAUSE = 0 ∧
        h.fld R.seal_BOOT_STATUS_SLOT_B = 1 ∧ h.fld R.pcr_RESET_CAUSE_IMAGE_OK = 1 ∧
        h.fw.image = some { svn := leNat (slice l 6 1), version := leNat (slice l 8 4), measurement := imgMeas l }) ∧
      (s.dev.hub.slotCause a ≠ 0 → s.dev.hub.slotCause b ≠ 0 → h.fw = s.dev.hub.fw ∧
        h.fld R.seal_BOOT_STATUS_A_CAUSE = s.dev.hub.slotCause a ∧ h.fld R.seal_BOOT_STATUS_B_CAUSE = s.dev.hub.slotCause b))) ∧
  (∀ (cause : Nat) (s : State), s.dev.hub.fw.por = false → 1 ≤ cause → cause ≤ 3 →
    Completes (.hubFaultReset cause) s (fun t => t.pending = s.pending ∧ t.dev.hub.fw.por = true ∧ t.dev.hub.up = false ∧
      t.dev.hub.fld R.pcr_RESET_CAUSE_HUB_FAULT = 1 ∧ t.dev.hub.fld R.pcr_RESET_CAUSE_HUB_FAULT_CAUSE = cause ∧
      ∀ n, (t.dev.bench n).power.st = .off)) ∧
  (∀ s : State, s.dev.hub.up = true →
    Completes (.pllUnlock none) s (fun t => t.pending = s.pending ∧ t.dev.hub.fw.por = true ∧
      t.dev.hub.fld R.pcr_RESET_CAUSE_HUB_FAULT_CAUSE = 1 ∧ ∀ n, (t.dev.bench n).power.st = .off))

/-- A Foreman reset leaves every bench running; the watchdog resets the Foreman at its period and a KICK restarts it. Rests on spec/20_start_up_and_reset.md. -/
def Obligations.ForemanAndItsWatchdog : Prop :=
  (∀ (c : Instr) (l : List Byte) (b : Option (List Byte)) (s : State), s.dev.hub.up = true →
    (c = .foremanReset (some l) b ∧ s.dev.hub.flag R.dbg_DBG_SESSION_FULL = true) ∨
      (c = .fmWdogExpire (some l) b ∧ s.dev.hub.flag R.pcr_FM_WDOG_EN = true ∧
        s.dev.hub.fld R.pcr_FM_WDOG_PERIOD * ticksPerMs ≤ s.dev.hub.fw.wdog) →
    Completes c s (fun t => t.pending = s.pending ∧
      (s.dev.hub.foremanCleared.slotMatches (some l) = true → HubOnly s t ∧ t.dev.hub.fw.cmds = [] ∧ t.dev.hub.fw.wdog = 0 ∧
        t.dev.hub.fld R.pcr_RESET_CAUSE_FM_RESET = 1 ∧ t.dev.hub.fld R.pcr_FM_WDOG_EN = 0 ∧
        t.dev.hub.fw.image = some { svn := leNat (slice l 6 1), version := leNat (slice l 8 4), measurement := imgMeas l } ∧
        t.dev.hub.tally T.FM_WDOG_RESETS = min tallyMax (s.dev.hub.tally T.FM_WDOG_RESETS + 1)) ∧
      (s.dev.hub.foremanCleared.slotMatches (some l) = false → s.dev.hub.foremanCleared.slotMatches b = false →
        t.dev.hub.fw.por = true ∧ t.dev.hub.fld R.pcr_RESET_CAUSE_HUB_FAULT_CAUSE = 4 ∧ ∀ n, (t.dev.bench n).power.st = .off))) ∧
  (∀ (a b : Option (List Byte)) (s : State), s.dev.hub.fw.wdog < s.dev.hub.fld R.pcr_FM_WDOG_PERIOD * ticksPerMs →
    RunsHub (.fmWdogExpire a b) s (fun h => h = s.dev.hub)) ∧
  (∀ (v : Word) (s : State), s.dev.hub.up = true →
    RunsHub (.fmWdogKick v) s (fun h => h.fw = { s.dev.hub.fw with wdog := 0 } ∧ h.mem = s.dev.hub.mem ∧
      ∀ o, o ≠ R.pcr_FM_WDOG → h.reg o = s.dev.hub.reg o))

/-- Sensor readings reach TEMP; a trip forces every bench off; the error counters leak at the multiples of their interval. Rests on spec/21_package_and_electrical.md spec/19_errors_and_tallies.md. -/
def Obligations.ThermalAndErrorCounters : Prop :=
  (∀ (temps : List (BitVec 12)) (s : State), s.dev.hub.up = true →
    Completes (.thermalSensorRead temps) s (fun t => t.pending = s.pending ∧ ∀ k, k < 17 →
      (s.dev.sensorOn k = true → t.dev.hub.fld (R.pcr_TEMP_VALID k) = 1 ∧ t.dev.hub.fld (R.pcr_TEMP_F k) = (temps.getD k 0#12).toNat) ∧
      (s.dev.sensorOn k = false → t.dev.hub.fld (R.pcr_TEMP_VALID k) = 0))) ∧
  (∀ (temps : List (BitVec 12)) (s : State), s.dev.hub.up = true → s.dev.hub.flag R.pcr_THERM_STATUS_TRIPPED = false →
    s.dev.hot temps (tripPoint s.dev.hub.fw.part) ≠ [] →
    Completes (.thermalSensorRead temps) s (fun t => t.pending = s.pending ∧ t.dev.hub.fw.thermTrip = true ∧ t.dev.hub.thermPin = .low ∧
      t.dev.hub.fld R.pcr_THERM_STATUS_TRIPPED = 1 ∧ ∀ n, (t.dev.bench n).power.st = .off)) ∧
  (∀ (n : BenchId) (k : Nat) (s : State), (s.dev.bench n).live = true → k < 7 →
    (s.dev.bench n).cyc % 2 ^ (s.dev.bench n).fld (R.err_CE_CFG_LEAK_SHIFT k) = 0 →
    Leaves (.leakTick (some n) k) n s
      ((s.dev.bench n).setFld (R.err_CE_CFG_LEVEL k) ((s.dev.bench n).fld (R.err_CE_CFG_LEVEL k) - 1))) ∧
  (∀ (n : BenchId) (k : Nat) (s : State), (s.dev.bench n).live = true → k < 7 →
    (s.dev.bench n).cyc % 2 ^ (s.dev.bench n).fld (R.err_CE_CFG_LEAK_SHIFT k) ≠ 0 →
    Leaves (.leakTick (some n) k) n s (s.dev.bench n)) ∧
  (∀ (n : BenchId) (k : Nat) (s : State), (s.dev.bench n).live = true → (s.dev.bench n).leakDue k = true →
    Leaves (.leakTick (some n) k) n s
      ((s.dev.bench n).setFld (R.err_CE_CFG_LEVEL k) ((s.dev.bench n).fld (R.err_CE_CFG_LEVEL k) - 1))) ∧
  (∀ (k : Nat) (s : State), s.dev.hub.up = true → s.dev.hub.leakDue k = true →
    LeavesHub (.leakTick none k) s
      (s.dev.hub.setFld (R.irq_HUB_CE_CFG_LEVEL k) (s.dev.hub.fld (R.irq_HUB_CE_CFG_LEVEL k) - 1)))

/-- PWRFAIL_N: its fall drops every link and sheds the ports, the end of the window forces every bench off, its rise ends it. Rests on spec/14_flash_and_storage.md spec/21_package_and_electrical.md. -/
def Obligations.PowerFail : Prop :=
  (∀ s : State, s.dev.hub.up = true → s.dev.hub.fw.pwrfail = false →
    Completes (.pwrfailFall) s (fun t => t.pending = s.pending ∧ t.dev.hub.fw.pwrfail = true ∧
      (∀ l, l < 4 → (t.dev.hub.link l).training = false) ∧
      ∀ (n : BenchId) (p : Nat), (s.dev.bench n).live = true → p < 4 → (s.dev.bench n).hasPort p = true →
        (t.dev.bench n).portSt p ≠ psUp ∧ (t.dev.bench n).portSt p ≠ psTraining)) ∧
  (∀ s : State, s.dev.hub.up = false → s.dev.hub.fw.pwrfail = false →
    LeavesHub (.pwrfailFall) s { s.dev.hub with fw := { s.dev.hub.fw with pwrfail := true } }) ∧
  (∀ s : State, s.dev.hub.up = true → s.dev.hub.fw.pwrfail = true →
    Completes (.flushWindowEnd) s (fun t => t.pending = s.pending ∧ ∀ n, (t.dev.bench n).power.st = .off)) ∧
  (∀ s : State, s.dev.hub.up = true → s.dev.hub.fw.pwrfail = false → Completes (.flushWindowEnd) s (fun t => t = s)) ∧
  (∀ s : State, s.dev.hub.up = true → s.dev.hub.fw.pwrfail = true →
    Completes (.pwrfailRise) s (fun t => t.pending = s.pending ∧ t.dev.hub.fw.pwrfail = false ∧
      ∀ n, (t.dev.bench n).power = (s.dev.bench n).power))

/-- The side port: its link, its frames in and out, its pause, and the wake match. Rests on spec/02_face_ports_and_mac.md spec/18_security_debug_power.md. -/
def Obligations.SidePortAndWake : Prop :=
  (∀ (bytes : List Byte) (s : State), s.dev.hub.up = true → s.dev.hub.sideSt = psUp → s.dev.hub.fld R.side_LANE_CTL_0_LOOPBACK = 0 →
    64 ≤ bytes.length → bytes.length ≤ s.dev.hub.fld R.side_MAX_FRAME_0_BYTES → beNat (slice bytes 12 2) ≠ 0x8808 →
    slice bytes 0 6 = List.replicate 6 0xFF#8 → s.dev.hub.fw.power = .d0 →
    RunsHub (.sideFrameRx bytes .whole false) s (fun h =>
      h.fw = { s.dev.hub.fw with side := { s.dev.hub.fw.side with rx := s.dev.hub.fw.side.rx ++ [(bytes, false)] } } ∧
      h.tally (sideTally (T.RX_FRAMES 0)) = min tallyMax (s.dev.hub.tally (sideTally (T.RX_FRAMES 0)) + 1) ∧ h.regs = s.dev.hub.regs)) ∧
  (∀ (bytes : List Byte) (s : State), s.dev.hub.up = true → s.dev.hub.sideSt = psUp → s.dev.hub.fld R.side_LANE_CTL_0_LOOPBACK = 0 →
    64 ≤ bytes.length →
    RunsHub (.sideFrameRx bytes .whole true) s (fun h => h.fw = s.dev.hub.fw ∧ h.regs = s.dev.hub.regs ∧
      h.tally (sideTally (T.RX_FRAMES 0)) = min tallyMax (s.dev.hub.tally (sideTally (T.RX_FRAMES 0)) + 1) ∧
      h.tally (sideTally (tallyKey 1 2 0)) = min tallyMax (s.dev.hub.tally (sideTally (tallyKey 1 2 0)) + 1))) ∧
  (∀ (frame : List Byte) (k : Nat) (s : State), s.dev.hub.up = true → s.dev.hub.sideSt = psUp → s.dev.hub.fw.power = .d0 →
    s.dev.hub.wakeIndex frame = some k →
    RunsHub (.wakeMatch frame) s (fun h => h.fld R.side_WAKE_STATUS_INDEX = k % 16 ∧ h.flag R.side_WAKE_STATUS_VALID = true ∧
      h.fw = s.dev.hub.fw ∧ h.mem = s.dev.hub.mem)) ∧
  (∀ (frame : List Byte) (s : State), s.dev.hub.wakeIndex frame = none → LeavesHub (.wakeMatch frame) s s.dev.hub) ∧
  (∀ (p : Nat) (s : State), s.dev.hub.sideLive = true → s.dev.hub.sideSt = psWait →
    RunsHub (.signalPresent .side p) s (fun h => h.sideSt = psTraining ∧ h.fld R.side_LANE_STATUS_0_SIGNAL = 1 ∧
      h.sidePort = { s.dev.hub.sidePort with fails := 0, retrain := false, an := 0 })) ∧
  (∀ (p : Nat) (s : State), s.dev.hub.sideLive = true → (s.dev.hub.sideSt = psTraining ∨ s.dev.hub.sideSt = psUp) →
    RunsHub (.signalLoss .side p) s (fun h => h.sideSt = psWait ∧ h.fld R.side_LANE_STATUS_0_SIGNAL = 0 ∧
      h.fld R.side_LANE_STATUS_0_LOCKED = 0)) ∧
  (∀ (p : Nat) (s : State), s.dev.hub.sideLive = true → s.dev.hub.sideSt = psUp →
    RunsHub (.lockLoss .side p) s (fun h => h.sideSt = psTraining ∧ h.fld R.side_LANE_STATUS_0_LOCKED = 0 ∧
      h.fld R.side_PORT_STATUS_0_PAUSED = 0 ∧ h.sidePort.retrain = true)) ∧
  (∀ (p : Nat) (s : State), s.dev.hub.sideLive = true → s.dev.hub.sideSt = psTraining → (s.dev.hub.sideNegotiates = false ∨ s.dev.hub.sidePort.an = 1) →
    RunsHub (.attemptSucceeds .side p) s (fun h => h.sideSt = psUp ∧ h.fld R.side_LANE_STATUS_0_LOCKED = 1 ∧
      h.sidePort = { s.dev.hub.sidePort with fails := 0, retrain := false, faults := false })) ∧
  (∀ (p : Nat) (s : State), s.dev.hub.sideLive = true → s.dev.hub.sideSt = psTraining → (s.dev.hub.sideNegotiates = false ∨ s.dev.hub.sidePort.an ≠ 2) →
    s.dev.hub.sidePort.fails = 0 →
    RunsHub (.attemptFails .side p) s (fun h => h.sideSt = psTraining ∧ h.fld R.side_PORT_STATUS_0_TRAIN_FAILED = 1 ∧
      h.sidePort = { s.dev.hub.sidePort with fails := 1, an := 0 } ∧
      h.tally (sideTally (T.TRAIN_RETRY 0)) = min tallyMax (s.dev.hub.tally (sideTally (T.TRAIN_RETRY 0)) + 1))) ∧
  (∀ (p : Nat) (s : State), s.dev.hub.sideLive = true → s.dev.hub.sideSt = psTraining → (s.dev.hub.sideNegotiates = false ∨ s.dev.hub.sidePort.an ≠ 2) →
    s.dev.hub.sidePort.fails ≠ 0 →
    RunsHub (.attemptFails .side p) s (fun h => h.sideSt = psFailed ∧ h.fld R.side_LANE_STATUS_0_FAILED = 1)) ∧
  (∀ (p : Nat) (offered : List Tech) (s : State), s.dev.hub.sideLive = true → s.dev.hub.sideSt = psTraining → s.dev.hub.sideNegotiates = true →
    Tech.g10 ∈ offered →
    LeavesHub (.anPageReceived .side p offered) s (s.dev.hub.setSidePort { s.dev.hub.sidePort with an := 1 })) ∧
  (∀ (p : Nat) (offered : List Tech) (s : State), s.dev.hub.sideLive = true → s.dev.hub.sideSt = psTraining → s.dev.hub.sideNegotiates = true →
    Tech.g10 ∉ offered →
    LeavesHub (.anPageReceived .side p offered) s
      ((s.dev.hub.setSidePort { s.dev.hub.sidePort with an := 2 }).tick (sideTally (T.AN_NO_MATCH 0)))) ∧
  (∀ (bytes : List Byte) (p phase : Nat) (s : State), s.dev.hub.sideLive = true → s.dev.hub.sideSt = psUp →
    s.dev.hub.flag R.side_PORT_STATUS_0_PAUSED = false → s.dev.hub.fld R.side_LANE_CTL_0_LOOPBACK = 0 →
    RunsHub (.txFrame (.side bytes) p phase []) s (fun h => h.regs = s.dev.hub.regs ∧
      h.fw.side.out = s.dev.hub.fw.side.out ++ [{ port := 0, bytes := pad60 bytes, badFcs := false, echo := false }] ∧
      h.tally (sideTally (T.TX_FRAMES 0)) = min tallyMax (s.dev.hub.tally (sideTally (T.TX_FRAMES 0)) + 1))) ∧
  (∀ (bytes : List Byte) (p phase : Nat) (s : State), s.dev.hub.sideLive = true → s.dev.hub.sideSt ≠ psUp →
    LeavesHub (.txFrame (.side bytes) p phase []) s (s.dev.hub.sideSpoil 0x21)) ∧
  (∀ (p : Nat) (s : State), s.dev.hub.sideLive = true → s.dev.hub.sideSt = psUp → s.dev.hub.sidePort.mode = 1 →
    s.dev.hub.flag R.side_XOFF_0_LINK_XOFF = true → s.dev.hub.sidePort.reqs = 0 →
    LeavesHub (.pauseRequestChange .side p) s
      ((s.dev.hub.setSidePort { s.dev.hub.sidePort with reqs := 256 }).sidePause (s.dev.hub.fld R.side_PAUSE_CTL_0_QUANTA))) ∧
  (∀ (p : Nat) (s : State), s.dev.hub.sideLive = true → s.dev.hub.sideSt = psUp → s.dev.hub.sidePort.reqs ≠ 0 → s.dev.hub.fld R.side_PAUSE_CTL_0_QUANTA ≠ 0 →
    LeavesHub (.pauseRepeatTimer .side p) s (s.dev.hub.sidePause (s.dev.hub.fld R.side_PAUSE_CTL_0_QUANTA))) ∧
  (∀ (p : Nat) (s : State), s.dev.hub.sideLive = true → s.dev.hub.fld R.side_PAUSE_CTL_0_MODE ≠ s.dev.hub.sidePort.mode → s.dev.hub.sidePort.adv = 0 →
    LeavesHub (.pauseModeChange .side p) s
      (s.dev.hub.setSidePort { s.dev.hub.sidePort with mode := s.dev.hub.fld R.side_PAUSE_CTL_0_MODE, reqs := 0, adv := 0 }).sideRequestChange) ∧
  (∀ (p : Nat) (s : State), s.dev.hub.sideLive = true →
    LeavesHub (.pauseTimerExpired .side p none) s
      ((s.dev.hub.setSidePort { s.dev.hub.sidePort with pauseQuanta := 0 }).setFld R.side_PORT_STATUS_0_PAUSED 0))

/-- The link states of a bench's ports: PORT_CTL writes, signal, lock, auto-negotiation, attempts and calibration. Rests on spec/02_face_ports_and_mac.md. -/
def Obligations.PortLinkStates : Prop :=
  (∀ (n : BenchId) (p : Nat) (v : Word) (s : State), (s.dev.bench n).live = true → (s.dev.bench n).hasPort p = true → (s.dev.bench n).portSt p = psDisabled → (s.dev.bench n).flag (R.face_PORT_CTL_ENABLE p) = false →
    (s.dev.bench n).laneFailed p = false →
    Runs (.portEnable n p v) n s (fun b => b.portSt p = psWait ∧ b.fld (R.face_PORT_CTL_ENABLE p) = 1 ∧
      b.fld (R.face_PORT_STATUS_LINK_CHANGED p) = 1 ∧ PortOnly p (s.dev.bench n) b)) ∧
  (∀ (n : BenchId) (p : Nat) (v : Word) (s : State), (s.dev.bench n).live = true → (s.dev.bench n).hasPort p = true → (s.dev.bench n).portSt p = psDisabled → (s.dev.bench n).flag (R.face_PORT_CTL_ENABLE p) = false →
    (s.dev.bench n).laneFailed p = true → bit v.toNat 5 = false →
    Runs (.portEnable n p v) n s (fun b => b.portSt p = psFailed ∧ b.fld (R.face_PORT_CTL_ENABLE p) = 1 ∧ PortOnly p (s.dev.bench n) b)) ∧
  (∀ (n : BenchId) (p : Nat) (v : Word) (s : State), (s.dev.bench n).live = true → (s.dev.bench n).hasPort p = true → (s.dev.bench n).portSt p ≠ psDisabled → (s.dev.bench n).flag (R.face_PORT_CTL_ENABLE p) = false →
    bit v.toNat 5 = false →
    Runs (.portEnable n p v) n s (fun b => b.portSt p = (s.dev.bench n).portSt p ∧ b.fld (R.face_PORT_CTL_ENABLE p) = 1 ∧
      min tallyMax ((s.dev.bench n).tally T.CFG_REFUSED + 1) ≤ b.tally T.CFG_REFUSED ∧ PortOnly p (s.dev.bench n) b)) ∧
  (∀ (n : BenchId) (p : Nat) (v : Word) (s : State), (s.dev.bench n).live = true → (s.dev.bench n).hasPort p = false →
    Leaves (.portEnable n p v) n s (((s.dev.bench n).rsvd (R.face_PORT_CTL p) v.toNat).tick T.CFG_REFUSED) ∧
    Leaves (.portDisable n p v) n s (((s.dev.bench n).rsvd (R.face_PORT_CTL p) v.toNat).tick T.CFG_REFUSED) ∧
    Leaves (.laneReset n p v) n s (((s.dev.bench n).rsvd (R.face_PORT_CTL p) v.toNat).tick T.CFG_REFUSED)) ∧
  (∀ (n : BenchId) (p : Nat) (v : Word) (s : State), (s.dev.bench n).live = true → (s.dev.bench n).hasPort p = true → (s.dev.bench n).flag (R.face_PORT_CTL_ENABLE p) = true →
    ((s.dev.bench n).portSt p = psWait ∨ (s.dev.bench n).portSt p = psTraining) →
    Runs (.portDisable n p v) n s (fun b => b.portSt p = psDisabled ∧ b.fld (R.face_PORT_CTL_ENABLE p) = 0 ∧
      b.fld (R.face_PORT_STATUS_LINK_CHANGED p) = 1 ∧ PortOnly p (s.dev.bench n) b)) ∧
  (∀ (n : BenchId) (p : Nat) (v : Word) (s : State), (s.dev.bench n).live = true → (s.dev.bench n).hasPort p = true → (s.dev.bench n).flag (R.face_PORT_CTL_ENABLE p) = true →
    (s.dev.bench n).portSt p = psFailed → bit v.toNat 5 = false →
    Runs (.portDisable n p v) n s (fun b => b.portSt p = psDisabled ∧ b.laneFailed p = (s.dev.bench n).laneFailed p ∧ PortOnly p (s.dev.bench n) b)) ∧
  (∀ (n : BenchId) (p : Nat) (v : Word) (s : State), (s.dev.bench n).live = true → (s.dev.bench n).isUp p = true → (s.dev.bench n).flag (R.face_PORT_CTL_ENABLE p) = true →
    ((s.dev.bench n).port p).txPid.isSome = true →
    Runs (.portDisable n p v) n s (fun b => b.portSt p = psUp ∧ (b.port p).disabling = true ∧ PortOnly p (s.dev.bench n) b)) ∧
  (∀ (n : BenchId) (p : Nat) (v : Word) (s : State), (s.dev.bench n).live = true → (s.dev.bench n).isUp p = true → (s.dev.bench n).flag (R.face_PORT_CTL_ENABLE p) = true →
    ((s.dev.bench n).port p).txPid = none →
    Runs (.portDisable n p v) n s (fun b => b.portSt p = psDisabled ∧ (b.port p).rxPid = none)) ∧
  (∀ (n : BenchId) (p : Nat) (s : State), (s.dev.bench n).live = true → ((s.dev.bench n).port p).disabling = true → ((s.dev.bench n).port p).txPid = none →
    Leaves (.disableFrameEnd n p) n s ((s.dev.bench n).leaveUp p psDisabled)) ∧
  (∀ (n : BenchId) (p : Nat) (v : Word) (s : State), (s.dev.bench n).live = true → (s.dev.bench n).hasPort p = true → (s.dev.bench n).portSt p = psFailed →
    bit v.toNat 0 = (s.dev.bench n).flag (R.face_PORT_CTL_ENABLE p) →
    Runs (.laneReset n p v) n s (fun b => b.portSt p = psWait ∧ b.laneFailed p = false ∧ PortOnly p (s.dev.bench n) b)) ∧
  (∀ (n : BenchId) (p : Nat) (v : Word) (s : State), (s.dev.bench n).live = true → (s.dev.bench n).hasPort p = true → (s.dev.bench n).portSt p = psDisabled →
    bit v.toNat 0 = (s.dev.bench n).flag (R.face_PORT_CTL_ENABLE p) →
    Runs (.laneReset n p v) n s (fun b => b.portSt p = psDisabled ∧ b.laneFailed p = false ∧ PortOnly p (s.dev.bench n) b)) ∧
  (∀ (n : BenchId) (p : Nat) (s : State), (s.dev.bench n).live = true → (s.dev.bench n).hasPort p = true → (s.dev.bench n).portSt p = psWait → s.dev.hub.fw.pwrfail = false →
    Runs (.signalPresent (.bench n) p) n s (fun b => b.portSt p = psTraining ∧ (b.port p).fails = 0 ∧ (b.port p).retrain = false ∧
      (∀ k ∈ (s.dev.bench n).lanes p, b.fld (R.face_LANE_STATUS_SIGNAL k) = 1) ∧ PortOnly p (s.dev.bench n) b)) ∧
  (∀ (n : BenchId) (p : Nat) (s : State), (s.dev.bench n).live = true → (s.dev.bench n).hasPort p = true → (s.dev.bench n).portSt p = psTraining →
    Runs (.signalLoss (.bench n) p) n s (fun b => b.portSt p = psWait ∧
      (∀ k ∈ (s.dev.bench n).lanes p, b.fld (R.face_LANE_STATUS_SIGNAL k) = 0 ∧ b.fld (R.face_LANE_STATUS_LOCKED k) = 0) ∧ PortOnly p (s.dev.bench n) b)) ∧
  (∀ (n : BenchId) (p : Nat) (s : State), (s.dev.bench n).live = true → (s.dev.bench n).isUp p = true →
    Leaves (.signalLoss (.bench n) p) n s
      ((((s.dev.bench n).setLanes p R.face_LANE_STATUS_SIGNAL 0).setLanes p R.face_LANE_STATUS_LOCKED 0).leaveUp p psWait)) ∧
  (∀ (n : BenchId) (p : Nat) (s : State), (s.dev.bench n).live = true → (s.dev.bench n).isUp p = true →
    Leaves (.lockLoss (.bench n) p) n s (((s.dev.bench n).setLanes p R.face_LANE_STATUS_LOCKED 0).leaveUp p psTraining)) ∧
  (∀ (n : BenchId) (p : Nat) (s : State), (s.dev.bench n).live = true → (s.dev.bench n).hasPort p = true → (s.dev.bench n).portSt p = psTraining → ((s.dev.bench n).negotiates p = false ∨ ((s.dev.bench n).port p).an = 1) →
    Runs (.attemptSucceeds (.bench n) p) n s (fun b => b.portSt p = psUp ∧ b.fld (R.face_PORT_STATUS_CAL p) = 0 ∧
      (b.port p).fails = 0 ∧ (b.port p).retrain = false ∧ (b.port p).faults = false ∧
      (∀ k ∈ (s.dev.bench n).lanes p, b.fld (R.face_LANE_STATUS_LOCKED k) = 1) ∧ PortOnly p (s.dev.bench n) b ∧
      b.tally (T.LINK_RETRAIN_OK p) =
        if ((s.dev.bench n).port p).retrain then min tallyMax ((s.dev.bench n).tally (T.LINK_RETRAIN_OK p) + 1) else (s.dev.bench n).tally (T.LINK_RETRAIN_OK p))) ∧
  (∀ (n : BenchId) (p : Nat) (s : State), (s.dev.bench n).live = true → (s.dev.bench n).negotiates p = true → ((s.dev.bench n).port p).an ≠ 1 → Leaves (.attemptSucceeds (.bench n) p) n s (s.dev.bench n)) ∧
  (∀ (n : BenchId) (p : Nat) (s : State), (s.dev.bench n).live = true → (s.dev.bench n).hasPort p = true → (s.dev.bench n).portSt p = psTraining → ((s.dev.bench n).port p).fails = 0 →
    ((s.dev.bench n).negotiates p = false ∨ ((s.dev.bench n).port p).an ≠ 2) →
    Runs (.attemptFails (.bench n) p) n s (fun b => b.portSt p = psTraining ∧ (b.port p).fails = 1 ∧
      b.fld (R.face_PORT_STATUS_TRAIN_FAILED p) = 1 ∧ PortOnly p (s.dev.bench n) b ∧
      b.tally (T.TRAIN_RETRY p) = min tallyMax ((s.dev.bench n).tally (T.TRAIN_RETRY p) + 1))) ∧
  (∀ (n : BenchId) (p : Nat) (s : State), (s.dev.bench n).live = true → (s.dev.bench n).hasPort p = true → (s.dev.bench n).portSt p = psTraining → ((s.dev.bench n).port p).fails ≠ 0 →
    ((s.dev.bench n).negotiates p = false ∨ ((s.dev.bench n).port p).an ≠ 2) →
    Runs (.attemptFails (.bench n) p) n s (fun b => b.portSt p = psFailed ∧ PortOnly p (s.dev.bench n) b ∧
      ∀ k ∈ (s.dev.bench n).lanes p, b.fld (R.face_LANE_STATUS_FAILED k) = 1)) ∧
  (∀ (n : BenchId) (p : Nat) (s : State), (s.dev.bench n).live = true → (s.dev.bench n).negotiates p = true → ((s.dev.bench n).port p).an = 2 → Leaves (.attemptFails (.bench n) p) n s (s.dev.bench n)) ∧
  (∀ (n : BenchId) (p : Nat) (offered : List Tech) (s : State), (s.dev.bench n).live = true → (s.dev.bench n).hasPort p = true → (s.dev.bench n).portSt p = psTraining → (s.dev.bench n).negotiates p = true →
    techOf (s.dev.bench n).power.portMode ∈ offered →
    Leaves (.anPageReceived (.bench n) p offered) n s ((s.dev.bench n).setPort p { (s.dev.bench n).port p with an := 1 })) ∧
  (∀ (n : BenchId) (p : Nat) (offered : List Tech) (s : State), (s.dev.bench n).live = true → (s.dev.bench n).hasPort p = true → (s.dev.bench n).portSt p = psTraining → (s.dev.bench n).negotiates p = true →
    techOf (s.dev.bench n).power.portMode ∉ offered →
    Leaves (.anPageReceived (.bench n) p offered) n s (((s.dev.bench n).setPort p { (s.dev.bench n).port p with an := 2 }).tick (T.AN_NO_MATCH p))) ∧
  (∀ (n : BenchId) (p : Nat) (s : State), (s.dev.bench n).live = true → (s.dev.bench n).isUp p = true → (s.dev.bench n).power.profile = 1 →
    Leaves (.calComplete n p) n s ((s.dev.bench n).setFld (R.face_PORT_STATUS_CAL p) 1))

/-- A port that leaves UP holds no frame, no pause and no calibration, whatever stood on it. Rests on spec/02_face_ports_and_mac.md. -/
def Obligations.LeavingUpStopsTheTransmitter : Prop :=
  ∀ (b : Bench) (p st : Nat), p < 4 → st < 8 →
    (b.leaveUp p st).portSt p = (if (b.port p).disabling then psDisabled else st) ∧ ((b.leaveUp p st).port p).rxPid = none ∧
      ((b.leaveUp p st).port p).txPid = none ∧
      ((b.leaveUp p st).port p).pauseQuanta = 0 ∧ ((b.leaveUp p st).port p).pfcQuanta = [] ∧
      ((b.leaveUp p st).port p).fails = 0 ∧ ((b.leaveUp p st).port p).disabling = false ∧
      ((b.leaveUp p st).port p).owed = 0 ∧ ((b.leaveUp p st).port p).faults = true ∧
      (b.leaveUp p st).fld (R.face_PORT_STATUS_PAUSED p) = 0 ∧ (b.leaveUp p st).fld (R.face_PORT_STATUS_PFC_PAUSED p) = 0 ∧
      (b.leaveUp p st).fld (R.face_PORT_STATUS_CAL p) = 0

/-- Reception: a frame's start, its header, its end status, MAC control frames, and a station entry's commit. Rests on spec/02_face_ports_and_mac.md. -/
def Obligations.ReceptionAndStations : Prop :=
  (∀ (n : BenchId) (p : Nat) (bytes : List Byte) (phase h : Nat) (s : State), (s.dev.bench n).power.st = .running → (s.dev.bench n).isUp p = true →
    ((s.dev.bench n).port p).rxPid = none → (s.dev.bench n).loopOf p = 0 →
    (((s.dev.bench n).fromLine p).allocPacket .face ((s.dev.bench n).flag R.hopper_HOPPER_CTL_FACE_SPILL)
      (bytes.take ((s.dev.bench n).fld (R.face_MAX_FRAME_BYTES p))).length ((s.dev.bench n).fld (R.face_MAX_FRAME_BYTES p)) 1).1 = some h →
    Runs (.rxFrameStart n p bytes phase) n s (fun b => (b.port p).rxPid = some (s.dev.bench n).nextPid ∧ b.nextPid = (s.dev.bench n).nextPid + 1 ∧
      ∃ k, b.pkts = (s.dev.bench n).pkts ++ [k] ∧ k.id = (s.dev.bench n).nextPid ∧ k.loc = .receiving ∧ k.port = p ∧ k.handle = h ∧
        k.rxLen = bytes.length ∧ k.len = min ((s.dev.bench n).fld (R.face_MAX_FRAME_BYTES p)) bytes.length ∧
        k.oversize = decide ((s.dev.bench n).fld (R.face_MAX_FRAME_BYTES p) < bytes.length))) ∧
  (∀ (n : BenchId) (p : Nat) (bytes : List Byte) (phase : Nat) (s : State), (s.dev.bench n).power.st = .running → (s.dev.bench n).isUp p = true →
    ((s.dev.bench n).port p).rxPid = none → (s.dev.bench n).loopOf p = 0 →
    (((s.dev.bench n).fromLine p).allocPacket .face ((s.dev.bench n).flag R.hopper_HOPPER_CTL_FACE_SPILL)
      (bytes.take ((s.dev.bench n).fld (R.face_MAX_FRAME_BYTES p))).length ((s.dev.bench n).fld (R.face_MAX_FRAME_BYTES p)) 1).1 = none →
    Runs (.rxFrameStart n p bytes phase) n s (fun b => b.pkts = (s.dev.bench n).pkts ∧ b.nextPid = (s.dev.bench n).nextPid ∧ (b.port p).rxPid = none ∧
      ∃ l, b = ((((((s.dev.bench n).fromLine p).allocPacket .face ((s.dev.bench n).flag R.hopper_HOPPER_CTL_FACE_SPILL)
        (bytes.take ((s.dev.bench n).fld (R.face_MAX_FRAME_BYTES p))).length ((s.dev.bench n).fld (R.face_MAX_FRAME_BYTES p)) 1).2.countRx p bytes.length
          (decide ((s.dev.bench n).fld (R.face_MAX_FRAME_BYTES p) < bytes.length))).spoilTick 0x14 p)).afterEvents l)) ∧
  (∀ (n : BenchId) (p : Nat) (k : Pkt) (s : State), (s.dev.bench n).live = true → (s.dev.bench n).pkts.find? (fun k => k.presentable p) = some k →
    (s.dev.bench n).isMacControl k = false → (s.dev.bench n).pkts.any (fun j => j.loc = .entry && j.port = p) = false →
    Runs (.rxHeaderPresent n p) n s (fun b => b.mem = (s.dev.bench n).mem ∧ b.regs = (s.dev.bench n).regs ∧
      b.pkts = (s.dev.bench n).pkts.map (fun x => if x.id = k.id then
        { x with loc := .entry, present := (s.dev.bench n).cyc, stHit := ((s.dev.bench n).stationHit p ((s.dev.bench n).pktBytes k 0 6)).isSome,
                 stIdx := ((s.dev.bench n).stationHit p ((s.dev.bench n).pktBytes k 0 6)).getD 0 } else x))) ∧
  (∀ (n : BenchId) (p id : Nat) (k : Pkt) (codeErr fcsBad : Bool) (x y : Nat) (s : State), (s.dev.bench n).live = true →
    ((s.dev.bench n).port p).rxPid = some id → (s.dev.bench n).pkt? id = some k → (s.dev.bench n).isMacControl k = false →
    Leaves (.rxEndStatus n p codeErr fcsBad x y) n s
      (((((((((s.dev.bench n).count (T.FEC_CORRECTED p) x).count (T.FEC_UNCORRECTED p) y).setPort p { (s.dev.bench n).port p with rxPid := none }).countRx p
        k.rxLen k.oversize).assignCode p (rxCode codeErr k.rxLen (fcsBad || ((s.dev.bench n).port p).loopBad))).updSharers id
          (fun j => { j with fcs := if k.oversize then 0 else min 4 j.len })).endStatus id
            (rxCode codeErr k.rxLen (fcsBad || ((s.dev.bench n).port p).loopBad))).goOnAll)) ∧
  (∀ (n : BenchId) (p id : Nat) (k : Pkt) (x y : Nat) (s : State), (s.dev.bench n).live = true →
    ((s.dev.bench n).port p).rxPid = some id → (s.dev.bench n).pkt? id = some k → (s.dev.bench n).isMacControl k = true → k.loc = .receiving → 64 ≤ k.rxLen →
    ((s.dev.bench n).port p).loopBad = false → macObeyed ((s.dev.bench n).port p).mode (beNat ((s.dev.bench n).pktBytes k 14 2)) = true →
    Leaves (.rxEndStatus n p false false x y) n s
      ((((((((s.dev.bench n).count (T.FEC_CORRECTED p) x).count (T.FEC_UNCORRECTED p) y).setPort p { (s.dev.bench n).port p with rxPid := none }).countRx p
        k.rxLen k.oversize).assignCode p 0).updSharers id
          (fun j => { j with fcs := if k.oversize then 0 else min 4 j.len })).endPkt { k with ended := true } 0 Stamp.none)) ∧
  (∀ (n : BenchId) (p id : Nat) (k : Pkt) (x y : Nat) (s : State), (s.dev.bench n).live = true →
    ((s.dev.bench n).port p).rxPid = some id → (s.dev.bench n).pkt? id = some k → (s.dev.bench n).isMacControl k = true → k.loc = .receiving → 64 ≤ k.rxLen →
    ((s.dev.bench n).port p).loopBad = false → macObeyed ((s.dev.bench n).port p).mode (beNat ((s.dev.bench n).pktBytes k 14 2)) = false →
    Leaves (.rxEndStatus n p false false x y) n s
      ((((((((s.dev.bench n).count (T.FEC_CORRECTED p) x).count (T.FEC_UNCORRECTED p) y).setPort p { (s.dev.bench n).port p with rxPid := none }).countRx p
        k.rxLen k.oversize).assignCode p 0).updSharers id
          (fun j => { j with fcs := if k.oversize then 0 else min 4 j.len })).discardAt { k with ended := true } 0x15 p)) ∧
  (∀ (n : BenchId) (e : Nat) (v : Word) (s : State), (s.dev.bench n).live = true → e < 32 →
    Runs (.stationCommit n e v) n s (fun b =>
      b.reg (R.face_STATION_ADDR_LO e) = sparseGet benchRegReset (s.dev.bench n).shadow (R.face_STATION_ADDR_LO e) ∧
      b.reg (R.face_STATION_ADDR_HI e) = sparseGet benchRegReset (s.dev.bench n).shadow (R.face_STATION_ADDR_HI e) ∧
      b.fld (R.face_STATION_CTL_VALID e) = getBits v.toNat 0 1 ∧ b.fld (R.face_STATION_CTL_PORT_MASK e) = getBits v.toNat 4 4 ∧
      b.mem = (s.dev.bench n).mem ∧
      RegsKept (fun o => o = R.face_STATION_ADDR_LO e ∨ o = R.face_STATION_ADDR_HI e ∨ o = R.face_STATION_CTL e) (s.dev.bench n) b))

/-- Pause and PFC of a bench's port: received times, timers, changed and repeated requests, a mode change. Rests on spec/02_face_ports_and_mac.md. -/
def Obligations.PauseAndPfc : Prop :=
  (∀ (n : BenchId) (p q : Nat) (s : State), (s.dev.bench n).live = true → (s.dev.bench n).isUp p = true → ((s.dev.bench n).port p).mode = 1 →
    Leaves (.pauseFrameRx n p q) n s
      ((((s.dev.bench n).setPort p { (s.dev.bench n).port p with pauseQuanta := q }).setFld (R.face_PORT_STATUS_PAUSED p)
        (if q = 0 then 0 else 1)).tick (T.PAUSE_RX p))) ∧
  (∀ (n : BenchId) (p c : Nat) (times : List Nat) (s : State), (s.dev.bench n).live = true → (s.dev.bench n).isUp p = true → ((s.dev.bench n).port p).mode = 2 → c < 8 →
    bit ((s.dev.bench n).fld (R.face_PAUSE_CTL_PFC_CLASS_EN p)) c = true → times.getD c 0 ≠ 0 →
    Leaves (.pfcFrameRx n p (2 ^ c) times) n s
      ((((s.dev.bench n).tick (T.PFC_RX (8 * p + c))).setPort p { (s.dev.bench n).port p with
        pfcQuanta := ((s.dev.bench n).port p).pfcQuanta.filter (fun x => x.1 ≠ c) ++ [(c, times.getD c 0)] }).setFld
          (R.face_PORT_STATUS_PFC_PAUSED p) (putBits ((s.dev.bench n).fld (R.face_PORT_STATUS_PFC_PAUSED p)) c 1 1))) ∧
  (∀ (n : BenchId) (p c : Nat) (times : List Nat) (s : State), (s.dev.bench n).live = true → (s.dev.bench n).isUp p = true → ((s.dev.bench n).port p).mode = 2 → c < 8 →
    bit ((s.dev.bench n).fld (R.face_PAUSE_CTL_PFC_CLASS_EN p)) c = true → times.getD c 0 = 0 →
    Leaves (.pfcFrameRx n p (2 ^ c) times) n s
      ((((s.dev.bench n).tick (T.PFC_RX (8 * p + c))).setPort p { (s.dev.bench n).port p with
        pfcQuanta := ((s.dev.bench n).port p).pfcQuanta.filter (fun x => x.1 ≠ c) }).setFld
          (R.face_PORT_STATUS_PFC_PAUSED p) (putBits ((s.dev.bench n).fld (R.face_PORT_STATUS_PFC_PAUSED p)) c 1 0))) ∧
  (∀ (n : BenchId) (p c : Nat) (times : List Nat) (s : State), (s.dev.bench n).live = true → (s.dev.bench n).isUp p = true → ((s.dev.bench n).port p).mode = 2 → c < 8 →
    bit ((s.dev.bench n).fld (R.face_PAUSE_CTL_PFC_CLASS_EN p)) c = false →
    Leaves (.pfcFrameRx n p (2 ^ c) times) n s (((s.dev.bench n).tick (T.PFC_RX (8 * p + c))).tick (T.PFC_IGNORED p))) ∧
  (∀ (n : BenchId) (p : Nat) (s : State), (s.dev.bench n).live = true →
    Leaves (.pauseTimerExpired (.bench n) p none) n s
      (((s.dev.bench n).setPort p { (s.dev.bench n).port p with pauseQuanta := 0 }).setFld (R.face_PORT_STATUS_PAUSED p) 0)) ∧
  (∀ (n : BenchId) (p c : Nat) (s : State), (s.dev.bench n).live = true →
    Leaves (.pauseTimerExpired (.bench n) p (some c)) n s
      (((s.dev.bench n).setPort p { (s.dev.bench n).port p with pfcQuanta := ((s.dev.bench n).port p).pfcQuanta.filter (fun x => x.1 ≠ c) }).setFld
          (R.face_PORT_STATUS_PFC_PAUSED p) (putBits ((s.dev.bench n).fld (R.face_PORT_STATUS_PFC_PAUSED p)) c 1 0))) ∧
  (∀ (n : BenchId) (p : Nat) (s : State), (s.dev.bench n).live = true → (s.dev.bench n).isUp p = true → ((s.dev.bench n).port p).mode = 1 → (s.dev.bench n).requests p ≠ ((s.dev.bench n).port p).reqs →
    ((s.dev.bench n).port p).txPid = none → ((s.dev.bench n).port p).disabling = false → ((s.dev.bench n).port p).owed = 0 →
    Leaves (.pauseRequestChange (.bench n) p) n s
      (((s.dev.bench n).setPort p { (s.dev.bench n).port p with
          reqs := (s.dev.bench n).requests p, fell := Nat.land (Nat.lor ((s.dev.bench n).port p).fell ((s.dev.bench n).port p).reqs) (511 - (s.dev.bench n).requests p % 512) }).sendPause p
        (if (s.dev.bench n).requests p = 0 then 0 else (s.dev.bench n).fld (R.face_PAUSE_CTL_QUANTA p)))) ∧
  (∀ (n : BenchId) (p : Nat) (s : State), (s.dev.bench n).live = true → (s.dev.bench n).isUp p = true → ((s.dev.bench n).port p).mode = 2 → (s.dev.bench n).requests p ≠ ((s.dev.bench n).port p).reqs →
    ((s.dev.bench n).port p).txPid = none → ((s.dev.bench n).port p).disabling = false → ((s.dev.bench n).port p).owed = 0 →
    Leaves (.pauseRequestChange (.bench n) p) n s
      (((s.dev.bench n).setPort p { (s.dev.bench n).port p with
          reqs := (s.dev.bench n).requests p, fell := Nat.land (Nat.lor ((s.dev.bench n).port p).fell ((s.dev.bench n).port p).reqs) (511 - (s.dev.bench n).requests p % 512) }).sendPfc p
        ((s.dev.bench n).requests p) (Nat.land (Nat.lor ((s.dev.bench n).port p).fell ((s.dev.bench n).port p).reqs) (511 - (s.dev.bench n).requests p % 512)))) ∧
  (∀ (n : BenchId) (p : Nat) (s : State), (s.dev.bench n).live = true → (s.dev.bench n).isUp p = true → (s.dev.bench n).requests p ≠ ((s.dev.bench n).port p).reqs →
    ((s.dev.bench n).port p).txPid.isSome = true → ((s.dev.bench n).port p).disabling = false →
    Leaves (.pauseRequestChange (.bench n) p) n s
      ((s.dev.bench n).setPort p { (s.dev.bench n).port p with owed := ((s.dev.bench n).port p).owed + 1, reqs := (s.dev.bench n).requests p, fell := Nat.land (Nat.lor ((s.dev.bench n).port p).fell ((s.dev.bench n).port p).reqs) (511 - (s.dev.bench n).requests p % 512) })) ∧
  (∀ (n : BenchId) (p : Nat) (s : State), (s.dev.bench n).live = true → (s.dev.bench n).hasPort p = true → (s.dev.bench n).isUp p = false → (s.dev.bench n).requests p ≠ ((s.dev.bench n).port p).reqs →
    Leaves (.pauseRequestChange (.bench n) p) n s
      ((s.dev.bench n).setPort p { (s.dev.bench n).port p with reqs := (s.dev.bench n).requests p, fell := Nat.land (Nat.lor ((s.dev.bench n).port p).fell ((s.dev.bench n).port p).reqs) (511 - (s.dev.bench n).requests p % 512) })) ∧
  (∀ (n : BenchId) (p : Nat) (s : State), (s.dev.bench n).live = true → (s.dev.bench n).isUp p = true → ((s.dev.bench n).port p).mode = 1 → ((s.dev.bench n).port p).reqs ≠ 0 → (s.dev.bench n).fld (R.face_PAUSE_CTL_QUANTA p) ≠ 0 →
    ((s.dev.bench n).port p).txPid = none → ((s.dev.bench n).port p).disabling = false → ((s.dev.bench n).port p).owed = 0 →
    Leaves (.pauseRepeatTimer (.bench n) p) n s ((s.dev.bench n).sendPause p ((s.dev.bench n).fld (R.face_PAUSE_CTL_QUANTA p)))) ∧
  (∀ (n : BenchId) (p : Nat) (s : State), (s.dev.bench n).live = true → (s.dev.bench n).hasPort p = true → (s.dev.bench n).fld (R.face_PAUSE_CTL_MODE p) ≠ ((s.dev.bench n).port p).mode → ((s.dev.bench n).port p).adv = 0 →
    ((s.dev.bench n).port p).txPid = none → ((s.dev.bench n).port p).disabling = false →
    Leaves (.pauseModeChange (.bench n) p) n s
      ((((s.dev.bench n).setPort p { (s.dev.bench n).port p with mode := (s.dev.bench n).fld (R.face_PAUSE_CTL_MODE p), reqs := 0, adv := 0, tmReqs := 0, fell := 0, owed := 0 }).judgeReqs p).requestChange p)) ∧
  (∀ (n : BenchId) (p : Nat) (s : State), (s.dev.bench n).live = true → (s.dev.bench n).isUp p = true → (s.dev.bench n).fld (R.face_PAUSE_CTL_MODE p) ≠ ((s.dev.bench n).port p).mode → ((s.dev.bench n).port p).adv ≠ 0 →
    ((s.dev.bench n).port p).mode = 1 → ((s.dev.bench n).port p).txPid = none → ((s.dev.bench n).port p).disabling = false →
    Leaves (.pauseModeChange (.bench n) p) n s
      (((((s.dev.bench n).sendPause p 0).setPort p { ((s.dev.bench n).sendPause p 0).port p with mode := (s.dev.bench n).fld (R.face_PAUSE_CTL_MODE p), reqs := 0, adv := 0, tmReqs := 0, fell := 0, owed := 0 }).judgeReqs p).requestChange p))

/-- A pause frame that the face sends is 60 bytes: the reserved address, the port's own, 0x8808, opcode 1, the time, zeros. Rests on spec/02_face_ports_and_mac.md. -/
def Obligations.APauseFrameOnTheWire : Prop :=
  ∀ (b : Bench) (p q : Nat), b.loopOf p = 0 →
    ∃ l : List Byte, (b.sendPause p q).out = b.out ++ [{ port := p, bytes := l, badFcs := false, echo := false }] ∧
    l.length = 60 ∧ l.take 6 = [0x01#8, 0x80#8, 0xC2#8, 0#8, 0#8, 1#8] ∧ (l.drop 6).take 6 = b.portSa p ∧
    (l.drop 12).take 4 = [0x88#8, 0x08#8, 0#8, 1#8] ∧ (l.drop 16).take 2 = beBytes 2 q ∧
    (∀ x ∈ l.drop 18, x = 0#8) ∧ (b.sendPause p q).mem = b.mem ∧ (b.sendPause p q).pkts = b.pkts ∧
    (b.sendPause p q).regs = b.regs

/-- Transmission: a selected frame leaves whole, is cut through or is discarded; a starved one is cut; time stamps are read once. Rests on spec/02_face_ports_and_mac.md. -/
def Obligations.Transmission : Prop :=
  (∀ (n : BenchId) (p phase : Nat) (k : Pkt) (s : State), (s.dev.bench n).live = true → (s.dev.bench n).isUp p = true → (s.dev.bench n).pktAt? (.selected p) = some k → ((s.dev.bench n).port p).txPid = none →
    ((s.dev.bench n).port p).disabling = false → (s.dev.bench n).loopOf p = 0 → k.oversize = false → k.ring = none → k.tx.capture = false → k.tx.ptpOp = 0 →
    k.ended = true → k.verdictPending = false → k.spoil = 0 →
    Leaves (.txFrame (.bench n) p phase []) n s
      (((((s.dev.bench n).sendFrame p ((s.dev.bench n).frameBytes k) false).setPort p { (s.dev.bench n).port p with txPid := none }).endPkt k 0 Stamp.none).boundary p)) ∧
  (∀ (n : BenchId) (p phase : Nat) (k : Pkt) (s : State), (s.dev.bench n).live = true → (s.dev.bench n).isUp p = true → (s.dev.bench n).pktAt? (.selected p) = some k → ((s.dev.bench n).port p).txPid = none →
    ((s.dev.bench n).port p).disabling = false → k.ring = none → k.tx.capture = false → (k.ended = false ∨ (k.verdictPending = true ∧ k.oversize = false)) →
    Runs (.txFrame (.bench n) p phase []) n s (fun b => (b.port p).txPid = some k.id ∧ b.out = (s.dev.bench n).out ∧ b.mem = (s.dev.bench n).mem ∧
      ∀ j ∈ b.pkts, j.id = k.id → j.loc = .sending p)) ∧
  (∀ (n : BenchId) (p phase : Nat) (k : Pkt) (s : State), (s.dev.bench n).live = true → (s.dev.bench n).isUp p = false → (s.dev.bench n).pktAt? (.selected p) = some k → ((s.dev.bench n).port p).txPid = none →
    ((s.dev.bench n).port p).disabling = false →
    Leaves (.txFrame (.bench n) p phase []) n s ((s.dev.bench n).discardAt k 0x21 p)) ∧
  (∀ (n : BenchId) (p phase : Nat) (k : Pkt) (s : State), (s.dev.bench n).live = true → (s.dev.bench n).isUp p = true → (s.dev.bench n).pktAt? (.selected p) = some k → ((s.dev.bench n).port p).txPid = none →
    ((s.dev.bench n).port p).disabling = false → k.ended = true → k.oversize = true →
    Leaves (.txFrame (.bench n) p phase []) n s ((s.dev.bench n).discardAt k 0x22 p)) ∧
  (∀ (n : BenchId) (p phase r : Nat) (k : Pkt) (s : State), (s.dev.bench n).live = true → (s.dev.bench n).isUp p = true → (s.dev.bench n).pktAt? (.selected p) = some k → ((s.dev.bench n).port p).txPid = none →
    ((s.dev.bench n).port p).disabling = false → k.oversize = false → k.ring = some r → (s.dev.bench n).fld (R.face_MAX_FRAME_BYTES p) < k.dataLen + 4 →
    Leaves (.txFrame (.bench n) p phase []) n s ((s.dev.bench n).discardAt k 0x23 p)) ∧
  (∀ (n : BenchId) (p sent id r : Nat) (k : Pkt) (s : State), (s.dev.bench n).live = true → ((s.dev.bench n).port p).txPid = some id → (s.dev.bench n).pkt? id = some k → k.ring = some r → k.ended = false →
    Leaves (.txUnderrun n p sent) n s
      (((((((s.dev.bench n).setPort p { (s.dev.bench n).port p with txPid := none }).sendFrame p ((s.dev.bench n).pktBytes k 0 (min sent k.len)) true).raise 10).raiseStep
        r).discardAt k 0x20 p).boundary p)) ∧
  (∀ (n : BenchId) (p tag : Nat) (x : Stamp) (q : List (Stamp × Nat)) (s : State), (s.dev.bench n).live = true → (s.dev.bench n).hasPort p = true → ((s.dev.bench n).port p).tsq = (x, tag) :: q →
    Answers (.txTsRead n p 0) n s [x.words.getD 0 0] ((s.dev.bench n).setPort p { (s.dev.bench n).port p with
      tsq := q, tsHeld := [none, some (x.words.getD 1 0), some (x.words.getD 2 0), some tag] })) ∧
  (∀ (n : BenchId) (p : Nat) (s : State), (s.dev.bench n).live = true → (s.dev.bench n).hasPort p = true → ((s.dev.bench n).port p).tsq = [] →
    Answers (.txTsRead n p 0) n s [0] ((s.dev.bench n).tick (T.TS_EARLY_READ p))) ∧
  (∀ (n : BenchId) (p w v : Nat) (s : State), (s.dev.bench n).live = true → (s.dev.bench n).hasPort p = true → w ≠ 0 → ((s.dev.bench n).port p).tsHeld[w]? = some (some v) →
    Answers (.txTsRead n p w) n s [v] ((s.dev.bench n).setPort p { (s.dev.bench n).port p with tsHeld := ((s.dev.bench n).port p).tsHeld.set w none })) ∧
  (∀ (n : BenchId) (p w : Nat) (s : State), (s.dev.bench n).live = true → (s.dev.bench n).hasPort p = true → w ≠ 0 → ((s.dev.bench n).port p).tsHeld[w]? = some none →
    Answers (.txTsRead n p w) n s [0] ((s.dev.bench n).tick (T.TS_EARLY_READ p)))

/-- The time counter: SNAP, LOAD, ADJUST, increments, 1PPS in and out, the frequency count, and their reads. Rests on spec/02_face_ports_and_mac.md. -/
def Obligations.TimeCounterAndPps : Prop :=
  (∀ (n : BenchId) (s : State), (s.dev.bench n).live = true →
    Runs (.timeSnap n) n s (fun b =>
      (∀ i, i < 3 → b.reg (R.face_TIME_SNAP i) =
        BitVec.ofNat 32 ((Stamp.ofSixteenths (s.dev.bench n).time.sixteenths false 0).words.getD i 0)) ∧
      b.mem = (s.dev.bench n).mem ∧ b.tal = (s.dev.bench n).tal ∧ b.time = (s.dev.bench n).time ∧
      RegsKept (fun o => ∃ i, i < 3 ∧ o = R.face_TIME_SNAP i) (s.dev.bench n) b)) ∧
  (∀ (n : BenchId) (s : State), (s.dev.bench n).live = true → getBits ((s.dev.bench n).reg (R.face_TIME_SET 0)).toNat 0 30 < 1000000000 →
    Leaves (.timeLoad n) n s ({ (s.dev.bench n) with time := { (s.dev.bench n).time with
      sec := ((s.dev.bench n).reg (R.face_TIME_SET 1)).toNat + 2 ^ 32 * getBits ((s.dev.bench n).reg (R.face_TIME_SET 2)).toNat 0 16
      ns := getBits ((s.dev.bench n).reg (R.face_TIME_SET 0)).toNat 0 30
      frac := getBits ((s.dev.bench n).reg (R.face_TIME_SET 2)).toNat 16 4 * 2 ^ 28 } } : Bench).gateStep) ∧
  (∀ (n : BenchId) (s : State), (s.dev.bench n).live = true → (∀ p, p < 4 → (s.dev.bench n).gateOn p = false ∧ (s.dev.bench n).gatePending p = false) →
    getBits ((s.dev.bench n).reg (R.face_TIME_SET 0)).toNat 0 30 < 1000000000 →
    Runs (.timeLoad n) n s (fun b => b.time.ns = getBits ((s.dev.bench n).reg (R.face_TIME_SET 0)).toNat 0 30 ∧
      b.time.sec = ((s.dev.bench n).reg (R.face_TIME_SET 1)).toNat + 2 ^ 32 * getBits ((s.dev.bench n).reg (R.face_TIME_SET 2)).toNat 0 16 ∧
      b.time.frac = getBits ((s.dev.bench n).reg (R.face_TIME_SET 2)).toNat 16 4 * 2 ^ 28 ∧
      b.mem = (s.dev.bench n).mem ∧ b.regs = (s.dev.bench n).regs ∧ b.tal = (s.dev.bench n).tal)) ∧
  (∀ (n : BenchId) (s : State), (s.dev.bench n).live = true → 1000000000 ≤ getBits ((s.dev.bench n).reg (R.face_TIME_SET 0)).toNat 0 30 → Leaves (.timeLoad n) n s ((s.dev.bench n).tick T.CFG_REFUSED)) ∧
  (∀ (n : BenchId) (s : State), (s.dev.bench n).live = true → Leaves (.timeAdjust n) n s
    ({ (s.dev.bench n) with time := (s.dev.bench n).time.put (((s.dev.bench n).time.nanos : Int) + signed 32 ((s.dev.bench n).reg R.face_TIME_ADJ).toNat) } : Bench).gateStep) ∧
  (∀ (n : BenchId) (s : State), (s.dev.bench n).live = true → (∀ p, p < 4 → (s.dev.bench n).gateOn p = false ∧ (s.dev.bench n).gatePending p = false) →
    Leaves (.timeAdjust n) n s
      { (s.dev.bench n) with time := (s.dev.bench n).time.put (((s.dev.bench n).time.nanos : Int) + signed 32 ((s.dev.bench n).reg R.face_TIME_ADJ).toNat) }) ∧
  (∀ (n : BenchId) (v : Word) (s : State), (s.dev.bench n).live = true → Leaves (.timeIncrWrite n true v) n s ((s.dev.bench n).setReg R.face_TIME_INCR_FRAC v)) ∧
  (∀ (n : BenchId) (v : Word) (s : State), (s.dev.bench n).live = true →
    Leaves (.timeIncrWrite n false v) n s (((s.dev.bench n).rsvd R.face_TIME_INCR_NS v.toNat).setFld R.face_TIME_INCR_NS_NS v.toNat)) ∧
  (∀ (n : BenchId) (k : Nat) (s : State), (s.dev.bench n).live = true → Leaves (.freqCountDone n k) n s { (s.dev.bench n) with time := { (s.dev.bench n).time with freq := some (k % 2 ^ 32) } }) ∧
  (∀ (n : BenchId) (s : State), (s.dev.bench n).live = true → (s.dev.bench n).time.pps = none →
    Leaves (.ppsInEdge n) n s { (s.dev.bench n) with time := { (s.dev.bench n).time with
      pps := some (Stamp.ofSixteenths (s.dev.bench n).time.sixteenths false 0) } }) ∧
  (∀ (n : BenchId) (x : Stamp) (s : State), (s.dev.bench n).live = true → (s.dev.bench n).time.pps = some x →
    Leaves (.ppsInEdge n) n s { (s.dev.bench n).tick T.PPS_IN_OVERRUN with time := { (s.dev.bench n).time with
      pps := some (Stamp.ofSixteenths (s.dev.bench n).time.sixteenths false 0) } }) ∧
  (∀ (n : BenchId) (s : State), (s.dev.bench n).live = true → (s.dev.bench n).ppsDue = true →
    Leaves (.ppsOutRise n) n s { (s.dev.bench n) with time := { (s.dev.bench n).time with ppsOut := true, ppsAt := (s.dev.bench n).cyc } }) ∧
  (∀ (n : BenchId) (s : State), (s.dev.bench n).live = true → (s.dev.bench n).ppsDue = false → Leaves (.ppsOutRise n) n s (s.dev.bench n)) ∧
  (∀ (n : BenchId) (s : State), (s.dev.bench n).live = true → 1250 * (s.dev.bench n).fld R.face_PPS_WIDTH_US ≤ (s.dev.bench n).cyc - (s.dev.bench n).time.ppsAt →
    Leaves (.ppsOutFall n) n s { (s.dev.bench n) with time := { (s.dev.bench n).time with ppsOut := false } }) ∧
  (∀ (n : BenchId) (s : State), (s.dev.bench n).live = true → (s.dev.bench n).cyc - (s.dev.bench n).time.ppsAt < 1250 * (s.dev.bench n).fld R.face_PPS_WIDTH_US → Leaves (.ppsOutFall n) n s (s.dev.bench n)) ∧
  (∀ (n : BenchId) (x : Stamp) (s : State), (s.dev.bench n).live = true → (s.dev.bench n).time.pps = some x →
    Answers (.ppsInTsRead n 0) n s [x.words.getD 0 0] { (s.dev.bench n) with time := { (s.dev.bench n).time with
      pps := none, ppsHeld := [none, some (x.words.getD 1 0), some (x.words.getD 2 0)] } }) ∧
  (∀ (n : BenchId) (s : State), (s.dev.bench n).live = true → (s.dev.bench n).time.pps = none → Answers (.ppsInTsRead n 0) n s [0] ((s.dev.bench n).tick T.TIME_EARLY_READ)) ∧
  (∀ (n : BenchId) (w v : Nat) (s : State), (s.dev.bench n).live = true → w ≠ 0 → (s.dev.bench n).time.ppsHeld[w]? = some (some v) →
    Answers (.ppsInTsRead n w) n s [v] { (s.dev.bench n) with time := { (s.dev.bench n).time with ppsHeld := (s.dev.bench n).time.ppsHeld.set w none } }) ∧
  (∀ (n : BenchId) (v : Nat) (s : State), (s.dev.bench n).live = true → (s.dev.bench n).time.freq = some v →
    Answers (.freqCntRead n) n s [v] { (s.dev.bench n) with time := { (s.dev.bench n).time with freq := none } }) ∧
  (∀ (n : BenchId) (s : State), (s.dev.bench n).live = true → (s.dev.bench n).time.freq = none → Answers (.freqCntRead n) n s [0] ((s.dev.bench n).tick T.TIME_EARLY_READ))

/-- The three admissions to the cut graph: port entry, second cut, host entry. Rests on spec/03_cut_graph.md spec/05_actions_tunnels_second_cut.md. -/
def Obligations.Admissions : Prop :=
  (∀ (n : BenchId) (p : Nat) (ecc : Ecc) (k : Pkt) (s : State), (s.dev.bench n).live = true → (s.dev.bench n).pkts.find? (fun k => k.loc = .entry && k.port = p) = some k →
    (s.dev.bench n).faceTurn p = true → (s.dev.bench n).armed = false →
    Leaves (.firstCutAdmit n p ecc) n s
      (({ (s.dev.bench n).tick T.FIRST_CUTS with wheel := ⟨some (s.dev.bench n).cyc, some (s.dev.bench n).cyc⟩ } : Bench).discard k 0x30 ecc)) ∧
  (∀ (n : BenchId) (p : Nat) (ecc : Ecc) (k q : Pkt) (s : State), (s.dev.bench n).live = true → (s.dev.bench n).pkts.find? (fun k => k.loc = .entry && k.port = p) = some k →
    (s.dev.bench n).faceTurn p = true → (s.dev.bench n).armed = true →
    q = { k with gen := (s.dev.bench n).genActive, loc := .loop, second := false, wstart := 0, admitAt := (s.dev.bench n).cyc, seen := Stamp.ofSixteenths (s.dev.bench n).time.sixteenths false 0 } →
    Leaves (.firstCutAdmit n p ecc) n s
      (((({ (s.dev.bench n).tick T.FIRST_CUTS with wheel := ⟨some (s.dev.bench n).cyc, some (s.dev.bench n).cyc⟩ } : Bench).updPkt k.id (fun _ => q)).addInflight
        (s.dev.bench n).genActive 1).cut q (wheelWait (s.dev.bench n).power.portMode p k.present) ecc)) ∧
  (∀ (n : BenchId) (p : Nat) (ecc : Ecc) (s : State), (s.dev.bench n).live = true → (s.dev.bench n).faceTurn p = false → Leaves (.firstCutAdmit n p ecc) n s (s.dev.bench n)) ∧
  (∀ (n : BenchId) (ecc : Ecc) (k q : Pkt) (s : State), (s.dev.bench n).live = true → (s.dev.bench n).loopHead = some k → (s.dev.bench n).loopTurn k = true → q = { k with second := true } →
    Leaves (.secondCutAdmit n ecc) n s
      ((({ (s.dev.bench n).tick T.SECOND_CUTS with wheel := { (s.dev.bench n).wheel with last := some (s.dev.bench n).cyc } } : Bench).updPkt k.id (fun _ => q)).cut q
        (k.loopDue - (k.admitAt + 112)) ecc)) ∧
  (∀ (n : BenchId) (ecc : Ecc) (k : Pkt) (s : State), (s.dev.bench n).live = true → (s.dev.bench n).loopHead = some k → (s.dev.bench n).loopTurn k = false → Leaves (.secondCutAdmit n ecc) n s (s.dev.bench n)) ∧
  (∀ (b : Bench) (k : Pkt), b.loopHead = some k →
    k ∈ b.pkts ∧ k.loc = .loop ∧ (∀ j ∈ b.pkts, j.loc = .loop → k.admitAt ≤ j.admitAt)) ∧
  (∀ (n : BenchId) (ecc : Ecc) (k : Pkt) (s : State), (s.dev.bench n).live = true → (s.dev.bench n).pktAt? .hostEntry = some k → (s.dev.bench n).hostTurn = true →
    Leaves (.hostEntryAdmit n ecc) n s ((s.dev.bench n).hostCut k ecc)) ∧
  (∀ (n : BenchId) (ecc : Ecc) (k q : Pkt) (b : Bench) (s : State), (s.dev.bench n).live = true → (s.dev.bench n).pktAt? .hostEntry = some k → (s.dev.bench n).hostTurn = true → (s.dev.bench n).armed = true →
    q = { k with gen := (s.dev.bench n).genActive, loc := .loop, second := false, wstart := 0, admitAt := (s.dev.bench n).cyc, seen := Stamp.ofSixteenths (s.dev.bench n).time.sixteenths false 0 } →
    b = (((({ (s.dev.bench n).tick T.FIRST_CUTS with wheel := ⟨some (s.dev.bench n).cyc, some (s.dev.bench n).cyc⟩ } : Bench).updPkt k.id (fun _ => q)).addInflight
      (s.dev.bench n).genActive 1).cut q (min 7 ((s.dev.bench n).cyc - k.present)) ecc).countHostEntry → b.waitingHost = none →
    Leaves (.hostEntryAdmit n ecc) n s b) ∧
  (∀ (n : BenchId) (ecc : Ecc) (s : State), (s.dev.bench n).live = true → (s.dev.bench n).hostTurn = false → Leaves (.hostEntryAdmit n ecc) n s (s.dev.bench n))

/-- The writes that load and arm a graph: accepted in a writable generation, else refused, counted and reported. Rests on spec/03_cut_graph.md spec/04_match_tables_and_learning.md spec/05_actions_tunnels_second_cut.md. -/
def Obligations.GraphAndGenerationWrites : Prop :=
  (∀ (n : BenchId) (v : Word) (s : State), (s.dev.bench n).live = true → bit v.toNat 0 = true →
    Leaves (.graphArm n v) n s (((s.dev.bench n).rsvd R.graph_GRAPH_CTL v.toNat).setFld R.graph_GRAPH_CTL_ARMED 1)) ∧
  (∀ (n : BenchId) (v : Word) (s : State), (s.dev.bench n).live = true → bit v.toNat 0 = false → (s.dev.bench n).armed = true →
    Leaves (.graphArm n v) n s (((s.dev.bench n).rsvd R.graph_GRAPH_CTL v.toNat).tick T.GRAPH_WRITE_REFUSED)) ∧
  (∀ (n : BenchId) (v : Word) (s : State), (s.dev.bench n).live = true → bit v.toNat 0 = false → (s.dev.bench n).armed = false →
    Leaves (.graphArm n v) n s ((s.dev.bench n).rsvd R.graph_GRAPH_CTL v.toNat)) ∧
  (∀ (n : BenchId) (g : Nat) (v : Word) (s : State), (s.dev.bench n).live = true → g < 2 → (s.dev.bench n).writable g = true →
    Leaves (.startNodeWrite n g v) n s (((s.dev.bench n).rsvd (R.graph_START_NODE g) v.toNat).setFld (R.graph_START_NODE_NODE g) v.toNat)) ∧
  (∀ (n : BenchId) (g : Nat) (v : Word) (s : State), (s.dev.bench n).live = true → g < 2 → (s.dev.bench n).writable g = false →
    Leaves (.startNodeWrite n g v) n s (((s.dev.bench n).rsvd (R.graph_START_NODE g) v.toNat).tick T.GRAPH_WRITE_REFUSED)) ∧
  (∀ (n : BenchId) (g : Nat) (v : Word) (s : State), (s.dev.bench n).live = true → g < 2 → (s.dev.bench n).writable g = true →
    Leaves (.excClassWrite n g v) n s
      (((s.dev.bench n).rsvd (R.graph_EXC_CLASS g) v.toNat).setReg (R.graph_EXC_CLASS g) (BitVec.ofNat 32 (v.toNat % 2 ^ 24)))) ∧
  (∀ (n : BenchId) (g : Nat) (v : Word) (s : State), (s.dev.bench n).live = true → g < 2 → (s.dev.bench n).writable g = false →
    Leaves (.excClassWrite n g v) n s (((s.dev.bench n).rsvd (R.graph_EXC_CLASS g) v.toNat).tick T.GRAPH_WRITE_REFUSED)) ∧
  (∀ (n : BenchId) (w : Nat) (v : Word) (s : State), (s.dev.bench n).live = true → w < 4096 → (s.dev.bench n).writable (w / 2048) = true →
    Leaves (.recipeWrite n w v) n s ((s.dev.bench n).setReg (R.match_RECIPE w) v)) ∧
  (∀ (n : BenchId) (w : Nat) (v : Word) (s : State), (s.dev.bench n).live = true → w < 4096 → (s.dev.bench n).writable (w / 2048) = false →
    Leaves (.recipeWrite n w v) n s ((s.dev.bench n).tick T.GRAPH_WRITE_REFUSED)) ∧
  (∀ (n : BenchId) (i : Nat) (s : State), (s.dev.bench n).live = true → i < 256 → (s.dev.bench n).nodeResult i (s.dev.bench n).nodeStaged = 0 →
    Leaves (.nodeCommit n i) n s
      (((s.dev.bench n).setLe (nodeAddr i) 64 (s.dev.bench n).nodeStaged).postStatus R.graph_NODE_COMMIT_STATUS (256 * i) 16 16)) ∧
  (∀ (n : BenchId) (i r : Nat) (s : State), (s.dev.bench n).live = true → i < 256 → (s.dev.bench n).nodeResult i (s.dev.bench n).nodeStaged = r → r ≠ 0 →
    Leaves (.nodeCommit n i) n s
      (((s.dev.bench n).tick T.GRAPH_WRITE_REFUSED).postStatus R.graph_NODE_COMMIT_STATUS (2 * r + 256 * i) 16 16)) ∧
  (∀ (n : BenchId) (i : Nat) (s : State), (s.dev.bench n).live = true → i < 1024 → (s.dev.bench n).tplResult i (s.dev.bench n).tplStaged = 0 →
    Leaves (.templateCommit n i) n s
      (((s.dev.bench n).setBytes (tplAddr i) (s.dev.bench n).tplStaged).postStatus R.action_TPL_COMMIT_STATUS (16 * i) 16 16)) ∧
  (∀ (n : BenchId) (i r : Nat) (s : State), (s.dev.bench n).live = true → i < 1024 → (s.dev.bench n).tplResult i (s.dev.bench n).tplStaged = r → r ≠ 0 →
    Leaves (.templateCommit n i) n s
      (((s.dev.bench n).tick T.GRAPH_WRITE_REFUSED).postStatus R.action_TPL_COMMIT_STATUS (2 * r + 16 * i) 16 16)) ∧
  (∀ (n : BenchId) (s : State), (s.dev.bench n).live = true → (s.dev.bench n).flag R.action_GEN_STATUS_OLD_GEN_IDLE = true →
    Leaves (.genCtlSwap n) n s ((((s.dev.bench n).setFld R.graph_GRAPH_CTL_GEN_ACTIVE (1 - (s.dev.bench n).genActive)).setFld
      R.action_GEN_STATUS_GEN_ACTIVE (1 - (s.dev.bench n).genActive)).tick T.GEN_SWAPS).judgeIdle) ∧
  (∀ (n : BenchId) (s : State), (s.dev.bench n).live = true → (s.dev.bench n).flag R.action_GEN_STATUS_OLD_GEN_IDLE = false →
    Leaves (.genCtlSwap n) n s ((s.dev.bench n).tick T.GEN_SWAP_REFUSED)) ∧
  (∀ (n : BenchId) (off size : Nat) (s : State), (s.dev.bench n).live = true → off + size ≤ 8192 → off % size = 0 →
    Answers (.hitBitmapRead n off size) n s [(s.dev.bench n).le (0x2400000 + off) size] ((s.dev.bench n).setLe (0x2400000 + off) size 0))

/-- A packet's lookup hits a probed slot exactly when R130's five conditions hold of one. Formalises R130. -/
def Obligations.AHitIsAMatchingSlot : Prop :=
  (∀ (b : Bench) (g table i : Nat) (key : List Byte), g < 2 → (b.holds table (2 ^ g) key i = true ↔ b.hitAt g table key i)) ∧
  (∀ (b : Bench) (g table i : Nat) (key : List Byte), g < 2 → b.findKey table (2 ^ g) key = some i →
    i ∈ slotsOf (b.probes table key) ∧ b.hitAt g table key i) ∧
  (∀ (b : Bench) (g table : Nat) (key : List Byte), g < 2 → b.findKey table (2 ^ g) key = none →
    ∀ i ∈ slotsOf (b.probes table key), ¬ b.hitAt g table key i) ∧
  (∀ (b : Bench) (p : Pkt) (fv : List Byte) (i : Nat), p.gen < 2 → (b.matchStage p fv []).1.hit = some i →
    let ctl := b.recipe p.gen (leNat (slice fv 80 1)) 0
    let key := keyOf fv ([4, 5, 6, 7].map (b.recipe p.gen (leNat (slice fv 80 1)))) 0
    i ∈ slotsOf (b.probes (getBits ctl 3 4) key) ∧ b.hitAt p.gen (getBits ctl 3 4) key i) ∧
  (∀ (b : Bench) (p : Pkt) (fv : List Byte), p.gen < 2 → (b.matchStage p fv []).1.hit = none → (b.matchStage p fv []).1.spoil = 0 →
    bit (b.recipe p.gen (leNat (slice fv 80 1)) 0) 1 = true →
    let ctl := b.recipe p.gen (leNat (slice fv 80 1)) 0
    let key := keyOf fv ([4, 5, 6, 7].map (b.recipe p.gen (leNat (slice fv 80 1)))) 0
    ∀ i ∈ slotsOf (b.probes (getBits ctl 3 4) key), ¬ b.hitAt p.gen (getBits ctl 3 4) key i)

/-- The seven table operations at the head of the operation queue, and the end of one. Rests on spec/04_match_tables_and_learning.md. -/
def Obligations.TableOperations : Prop :=
  (∀ (n : BenchId) (o : TableOp) (t : List TableOp) (i : Nat) (s : State), (s.dev.bench n).live = true → (s.dev.bench n).mt.opq = o :: t → o.res = none → o.op = 0 →
    keyImageOk o.image = true → (s.dev.bench n).findKey (slTable o.image) (slGen o.image) (slKey o.image) = some i →
    Leaves (.tableLookup n []) n s ((s.dev.bench n).headDone o t { code := 0, slot := some i, bytes := (s.dev.bench n).slot i })) ∧
  (∀ (n : BenchId) (o : TableOp) (t : List TableOp) (s : State), (s.dev.bench n).live = true → (s.dev.bench n).mt.opq = o :: t → o.res = none → o.op = 0 →
    keyImageOk o.image = true → (s.dev.bench n).findKey (slTable o.image) (slGen o.image) (slKey o.image) = none →
    Leaves (.tableLookup n []) n s ((s.dev.bench n).headDone o t (OpResult.plain 2 none))) ∧
  (∀ (n : BenchId) (o : TableOp) (t : List TableOp) (s : State), (s.dev.bench n).live = true → (s.dev.bench n).mt.opq = o :: t → o.res = none → o.op = 0 → keyImageOk o.image = false →
    Leaves (.tableLookup n []) n s ((s.dev.bench n).headDone o t (OpResult.plain 7 none))) ∧
  (∀ (n : BenchId) (o : TableOp) (t : List TableOp) (s : State), (s.dev.bench n).live = true → (s.dev.bench n).mt.opq = o :: t → o.res = none → o.op = 1 →
    Leaves (.tableRead n []) n s ((s.dev.bench n).headDone o t { code := 0, slot := none, bytes := (s.dev.bench n).slot o.slot })) ∧
  (∀ (n : BenchId) (o : TableOp) (t : List TableOp) (i : Nat) (s : State), (s.dev.bench n).live = true → (s.dev.bench n).mt.opq = o :: t → o.res = none → o.op = 2 →
    imageOk o.image = true → (s.dev.bench n).findKey (slTable o.image) (slGen o.image) (slKey o.image) = none →
    (s.dev.bench n).fld (R.match_TABLE_COUNT_COUNT (slTable o.image)) < (s.dev.bench n).fld (R.match_TABLE_CFG_LIMIT (slTable o.image)) →
    (if (s.dev.bench n).freeSlots 0 ((s.dev.bench n).candidate 0 (slTable o.image) (slKey o.image)) <
        (s.dev.bench n).freeSlots 1 ((s.dev.bench n).candidate 1 (slTable o.image) (slKey o.image))
      then (s.dev.bench n).freeSlot 1 ((s.dev.bench n).candidate 1 (slTable o.image) (slKey o.image))
      else (s.dev.bench n).freeSlot 0 ((s.dev.bench n).candidate 0 (slTable o.image) (slKey o.image))) = some i → (s.dev.bench n).frozen o.image = false →
    Leaves (.tableInsert n []) n s
      (((s.dev.bench n).placeSlot i (putAt o.image 60 (leBytes 4 (putBits (slCtl o.image) 0 1 1))) false).headDone o t
        (OpResult.plain 0 (some i)))) ∧
  (∀ (n : BenchId) (o : TableOp) (t : List TableOp) (s : State), (s.dev.bench n).live = true → (s.dev.bench n).mt.opq = o :: t → o.res = none → o.op = 2 →
    imageOk o.image = true → (s.dev.bench n).findKey (slTable o.image) (slGen o.image) (slKey o.image) = none →
    (s.dev.bench n).fld (R.match_TABLE_COUNT_COUNT (slTable o.image)) < (s.dev.bench n).fld (R.match_TABLE_CFG_LIMIT (slTable o.image)) →
    (s.dev.bench n).freeSlot 0 ((s.dev.bench n).candidate 0 (slTable o.image) (slKey o.image)) = none →
    (s.dev.bench n).freeSlots 1 ((s.dev.bench n).candidate 1 (slTable o.image) (slKey o.image)) = 0 →
    Leaves (.tableInsert n []) n s (((s.dev.bench n).tick T.INSERT_NO_ROOM).headDone o t
      { code := 3, slot := none, bytes := leBytes 4 ((s.dev.bench n).candidate 0 (slTable o.image) (slKey o.image) + 65536 * (s.dev.bench n).candidate 1 (slTable o.image) (slKey o.image)) ++ List.replicate 60 0#8 })) ∧
  (∀ (n : BenchId) (o : TableOp) (t : List TableOp) (s : State), (s.dev.bench n).live = true → (s.dev.bench n).mt.opq = o :: t → o.res = none → o.op = 2 → imageOk o.image = false →
    Leaves (.tableInsert n []) n s ((s.dev.bench n).headDone o t (OpResult.plain 7 none))) ∧
  (∀ (n : BenchId) (o : TableOp) (t : List TableOp) (i : Nat) (s : State), (s.dev.bench n).live = true → (s.dev.bench n).mt.opq = o :: t → o.res = none → o.op = 2 →
    imageOk o.image = true → (s.dev.bench n).findKey (slTable o.image) (slGen o.image) (slKey o.image) = some i →
    Leaves (.tableInsert n []) n s ((s.dev.bench n).headDone o t { code := 1, slot := some i, bytes := (s.dev.bench n).slot i })) ∧
  (∀ (n : BenchId) (o : TableOp) (t : List TableOp) (s : State), (s.dev.bench n).live = true → (s.dev.bench n).mt.opq = o :: t → o.res = none → o.op = 2 →
    imageOk o.image = true → (s.dev.bench n).findKey (slTable o.image) (slGen o.image) (slKey o.image) = none →
    (s.dev.bench n).fld (R.match_TABLE_CFG_LIMIT (slTable o.image)) ≤ (s.dev.bench n).fld (R.match_TABLE_COUNT_COUNT (slTable o.image)) →
    Leaves (.tableInsert n []) n s ((s.dev.bench n).headDone o t (OpResult.plain 4 none))) ∧
  (∀ (n : BenchId) (o : TableOp) (t : List TableOp) (s : State), (s.dev.bench n).live = true → (s.dev.bench n).mt.opq = o :: t → o.res = none → o.op = 3 → imageOk o.image = true →
    slValid ((s.dev.bench n).slot o.slot) = true → slTable ((s.dev.bench n).slot o.slot) = slTable o.image → slKey ((s.dev.bench n).slot o.slot) = slKey o.image →
    slAction ((s.dev.bench n).slot o.slot) = o.expect →
    ((s.dev.bench n).keySlots o.image).find? (fun j => j ≠ o.slot && (s.dev.bench n).holds (slTable o.image) (slGen o.image) (slKey o.image) j) = none →
    (s.dev.bench n).frozen ((s.dev.bench n).slot o.slot) = false →
    Leaves (.tableUpdate n []) n s
      (((s.dev.bench n).setBytes (slotAddr o.slot + 48) (slAction o.image ++ leBytes 4 (putBits (slCtl o.image) 0 1 1))).headDone o t
        (OpResult.plain 0 none))) ∧
  (∀ (n : BenchId) (o : TableOp) (t : List TableOp) (s : State), (s.dev.bench n).live = true → (s.dev.bench n).mt.opq = o :: t → o.res = none → o.op = 3 → imageOk o.image = true →
    slValid ((s.dev.bench n).slot o.slot) = true → slTable ((s.dev.bench n).slot o.slot) = slTable o.image → slKey ((s.dev.bench n).slot o.slot) = slKey o.image →
    slAction ((s.dev.bench n).slot o.slot) ≠ o.expect →
    Leaves (.tableUpdate n []) n s ((s.dev.bench n).headDone o t { code := 5, slot := none, bytes := (s.dev.bench n).slot o.slot })) ∧
  (∀ (n : BenchId) (o : TableOp) (t : List TableOp) (s : State), (s.dev.bench n).live = true → (s.dev.bench n).mt.opq = o :: t → o.res = none → o.op = 3 → imageOk o.image = true →
    (slValid ((s.dev.bench n).slot o.slot) = false ∨ slTable ((s.dev.bench n).slot o.slot) ≠ slTable o.image ∨ slKey ((s.dev.bench n).slot o.slot) ≠ slKey o.image) →
    Leaves (.tableUpdate n []) n s ((s.dev.bench n).headDone o t (OpResult.plain 2 none))) ∧
  (∀ (n : BenchId) (o : TableOp) (t : List TableOp) (i : Nat) (s : State), (s.dev.bench n).live = true → (s.dev.bench n).mt.opq = o :: t → o.res = none → o.op = 4 →
    keyImageOk o.image = true → (s.dev.bench n).findKey (slTable o.image) (slGen o.image) (slKey o.image) = some i →
    (s.dev.bench n).frozen ((s.dev.bench n).slot i) = false →
    Leaves (.tableDelete n []) n s (((s.dev.bench n).clearSlot i).headDone o t (OpResult.plain 0 (some i)))) ∧
  (∀ (n : BenchId) (o : TableOp) (t : List TableOp) (i : Nat) (s : State), (s.dev.bench n).live = true → (s.dev.bench n).mt.opq = o :: t → o.res = none → o.op = 4 →
    keyImageOk o.image = true → (s.dev.bench n).findKey (slTable o.image) (slGen o.image) (slKey o.image) = some i →
    (s.dev.bench n).frozen ((s.dev.bench n).slot i) = true →
    Leaves (.tableDelete n []) n s ((s.dev.bench n).takeFree.2.headDone o t (OpResult.plain ((s.dev.bench n).takeFree.1.toNat % 16) none))) ∧
  (∀ (n : BenchId) (o : TableOp) (t : List TableOp) (s : State), (s.dev.bench n).live = true → (s.dev.bench n).mt.opq = o :: t → o.res = none → o.op = 4 →
    keyImageOk o.image = true → (s.dev.bench n).findKey (slTable o.image) (slGen o.image) (slKey o.image) = none →
    Leaves (.tableDelete n []) n s ((s.dev.bench n).headDone o t (OpResult.plain 2 none))) ∧
  (∀ (n : BenchId) (o : TableOp) (t : List TableOp) (s : State), (s.dev.bench n).live = true → (s.dev.bench n).mt.opq = o :: t → o.res = none → o.op = 1 →
    Leaves (.tableRead n [(slotAddr o.slot, true)]) n s ((((s.dev.bench n).tick T.TABLE_OP_ECC).setFld R.match_ECC_LOG_SLOT
      o.slot).headDone o t (OpResult.plain 8 none))) ∧
  (∀ (n : BenchId) (o : TableOp) (t : List TableOp) (s : State), (s.dev.bench n).live = true → (s.dev.bench n).mt.opq = o :: t → o.res = none → o.op = 5 →
    slValid ((s.dev.bench n).slot o.slot) = true → slValid ((s.dev.bench n).slot o.dst) = false →
    (s.dev.bench n).candidate (o.dst / 32768) (slTable ((s.dev.bench n).slot o.slot)) (slKey ((s.dev.bench n).slot o.slot)) = o.dst / 4 % 8192 →
    Leaves (.tableMove n []) n s (((s.dev.bench n).moveSlot o.slot o.dst).headDone o t (OpResult.plain 0 none))) ∧
  (∀ (n : BenchId) (o : TableOp) (t : List TableOp) (s : State), (s.dev.bench n).live = true → (s.dev.bench n).mt.opq = o :: t → o.res = none → o.op = 5 →
    slValid ((s.dev.bench n).slot o.slot) = false →
    Leaves (.tableMove n []) n s ((s.dev.bench n).headDone o t (OpResult.plain 6 none))) ∧
  (∀ (n : BenchId) (o : TableOp) (t : List TableOp) (s : State), (s.dev.bench n).live = true → (s.dev.bench n).mt.opq = o :: t → o.res = none → o.op = 6 →
    (slValid ((s.dev.bench n).slot o.slot) = false ∨ (s.dev.bench n).frozen ((s.dev.bench n).slot o.slot) = false) →
    Leaves (.tableClear n) n s (((s.dev.bench n).clearSlot o.slot).headDone o t (OpResult.plain 0 none))) ∧
  (∀ (n : BenchId) (o : TableOp) (t : List TableOp) (r : OpResult) (s : State), (s.dev.bench n).live = true → (s.dev.bench n).mt.opq = o :: t → o.res = some r → o.src = .reg → (s.dev.bench n).quiet →
    Runs (.tableOpDone n) n s (fun b => b.mt.opq = t ∧ b.mem = (s.dev.bench n).mem ∧
      (∀ w, w < 16 → b.reg (R.match_OP_RESULT w) = BitVec.ofNat 32 (leNat (slice r.bytes (4 * w) 4))) ∧
      (b.reg R.match_OP_STATUS).toNat % 2 = 1 ∧ getBits (b.reg R.match_OP_STATUS).toNat 1 7 = r.code % 128 ∧
      (∀ i, r.slot = some i → r.code < 16 → getBits (b.reg R.match_OP_STATUS).toNat 8 16 = i % 65536)))

/-- The rehash sweep starts, resumes and steps; learn records become readable and are read. Rests on spec/04_match_tables_and_learning.md. -/
def Obligations.SweepAndLearning : Prop :=
  (∀ (n : BenchId) (v : Word) (s : State), (s.dev.bench n).live = true → v.toNat < 8 → bit v.toNat 0 = false → bit v.toNat 1 = false → (s.dev.bench n).sweepSt = 0 →
    Leaves (.sweepStart n v) n s (((((s.dev.bench n).setFld R.match_SWEEP_CTL_BANK (getBits v.toNat 2 1)).setFld
      R.match_SWEEP_STATUS_STATE 1).setFld R.match_SWEEP_STATUS_BANK (getBits v.toNat 2 1)).setFld
        R.match_SWEEP_STATUS_BUCKET 0)) ∧
  (∀ (n : BenchId) (s : State), (s.dev.bench n).live = true → (s.dev.bench n).sweepSt ≠ 0 → (s.dev.bench n).fld R.match_SWEEP_CTL_BANK = 0 →
    Leaves (.sweepStart n 0#32) n s ((s.dev.bench n).tick T.CFG_REFUSED)) ∧
  (∀ (n : BenchId) (s : State), (s.dev.bench n).live = true → (s.dev.bench n).sweepSt ≠ 0 → (s.dev.bench n).fld R.match_SWEEP_CTL_BANK = 1 →
    Leaves (.sweepStart n 0#32) n s (((s.dev.bench n).tick T.CFG_REFUSED).tick T.CFG_REFUSED)) ∧
  (∀ (n : BenchId) (s : State), (s.dev.bench n).live = true → (s.dev.bench n).sweepSt = 2 → (s.dev.bench n).fld R.match_SWEEP_CTL_BANK = 0 →
    Leaves (.sweepResume n 0#32) n s ((s.dev.bench n).setFld R.match_SWEEP_STATUS_STATE 1)) ∧
  (∀ (n : BenchId) (s : State), (s.dev.bench n).live = true → (s.dev.bench n).sweepSt ≠ 2 → (s.dev.bench n).fld R.match_SWEEP_CTL_BANK = 0 →
    Runs (.sweepResume n 0#32) n s (fun b => b.sweepSt = (s.dev.bench n).sweepSt ∧ b.mem = (s.dev.bench n).mem ∧
      b.tally T.CFG_REFUSED = min tallyMax ((s.dev.bench n).tally T.CFG_REFUSED + 1))) ∧
  (∀ (n : BenchId) (s : State), (s.dev.bench n).live = true → (s.dev.bench n).sweepSt = 1 → (s.dev.bench n).fld R.match_SWEEP_STATUS_BUCKET < 8191 →
    (∀ k, k < 4 → slValid ((s.dev.bench n).slot (slotIdx (s.dev.bench n).sweepBank ((s.dev.bench n).fld R.match_SWEEP_STATUS_BUCKET) k)) = false) →
    Leaves (.sweepStep n []) n s ((s.dev.bench n).setFld R.match_SWEEP_STATUS_BUCKET ((s.dev.bench n).fld R.match_SWEEP_STATUS_BUCKET + 1))) ∧
  (∀ (n : BenchId) (s : State), (s.dev.bench n).live = true → (s.dev.bench n).sweepSt = 1 → (s.dev.bench n).fld R.match_SWEEP_STATUS_BUCKET = 8191 →
    (∀ k, k < 4 → slValid ((s.dev.bench n).slot (slotIdx (s.dev.bench n).sweepBank 8191 k)) = false) →
    Leaves (.sweepStep n []) n s ((((s.dev.bench n).setReg (if (s.dev.bench n).sweepBank = 0 then R.match_SEED_0 else R.match_SEED_1)
      ((s.dev.bench n).reg R.match_SEED_NEXT)).setFld R.match_SWEEP_STATUS_STATE 0).setFld R.match_SWEEP_STATUS_DONE 1)) ∧
  (∀ (n : BenchId) (r : LearnRec) (t : List LearnRec) (s : State), (s.dev.bench n).live = true → (s.dev.bench n).mt.learnq = r :: t → r.pkt.isSome = true → r.wait = false →
    ((s.dev.bench n).fld R.match_LEARN_CTL_HOLDOFF_US = 0 ∨ ((s.dev.bench n).mt.filter.filter (fun f => (s.dev.bench n).cyc < f.expiry)).any (fun f => f.same r) = false) →
    (s.dev.bench n).quiet →
    Runs (.learnRecordReady n) n s (fun b => b.mem = (s.dev.bench n).mem ∧ b.mt.learnSeq = ((s.dev.bench n).mt.learnSeq + 1) % 65536 ∧
      b.mt.learnq = { r with pkt := none, wait := false, seq := ((s.dev.bench n).mt.learnSeq + 1) % 65536 } :: t)) ∧
  (∀ (n : BenchId) (r : LearnRec) (t : List LearnRec) (s : State), (s.dev.bench n).live = true → (s.dev.bench n).mt.learnq = r :: t → r.pkt.isSome = true → r.wait = false →
    (s.dev.bench n).fld R.match_LEARN_CTL_HOLDOFF_US ≠ 0 → ((s.dev.bench n).mt.filter.filter (fun f => (s.dev.bench n).cyc < f.expiry)).any (fun f => f.same r) = true →
    (s.dev.bench n).quiet →
    Runs (.learnRecordReady n) n s (fun b => b.mem = (s.dev.bench n).mem ∧ b.mt.learnq = t ∧ b.mt.learnSeq = (s.dev.bench n).mt.learnSeq ∧
      b.tally T.LEARN_SUPPRESSED = min tallyMax ((s.dev.bench n).tally T.LEARN_SUPPRESSED + 1))) ∧
  (∀ (n : BenchId) (r : LearnRec) (t : List LearnRec) (s : State), (s.dev.bench n).live = true → (s.dev.bench n).mt.learnq = r :: t → r.pkt.isSome = true → r.wait = true → (s.dev.bench n).quiet →
    Runs (.learnRecordReady n) n s (fun b => b.mem = (s.dev.bench n).mem ∧ b.mt.learnq = r :: t)) ∧
  (∀ (n : BenchId) (r : LearnRec) (t : List LearnRec) (s : State), (s.dev.bench n).live = true → (s.dev.bench n).mt.learnq = r :: t → r.pkt = none →
    (s.dev.bench n).flag R.match_LEARN_CTL_DEST = true → Leaves (.learnPop n) n s ((s.dev.bench n).learnRead r t)) ∧
  (∀ (n : BenchId) (s : State), (s.dev.bench n).live = true → (s.dev.bench n).flag R.match_LEARN_CTL_DEST = true → (s.dev.bench n).takeLearn = none →
    Leaves (.learnPop n) n s ((s.dev.bench n).setFld R.match_LEARN_REC_STATUS_VALID 0)) ∧
  (∀ (n : BenchId) (s : State), (s.dev.bench n).live = true → (s.dev.bench n).flag R.match_LEARN_CTL_DEST = false → Leaves (.learnPop n) n s ((s.dev.bench n).tick T.CFG_REFUSED)) ∧
  (∀ (n : BenchId) (r : LearnRec) (t : List LearnRec) (s : State), (s.dev.bench n).live = true → s.dev.hub.ryuner = true → (s.dev.hub.policy n).policy ≠ 0 → (s.dev.bench n).mt.opq = [] →
    (s.dev.bench n).flag R.match_LEARN_CTL_DEST = true → (s.dev.bench n).mt.learnq = r :: t → r.pkt = none → 32768 ≤ r.source →
    RunsBoth (.learnPolicyApply n []) n s (fun h b => h.policy n = (s.dev.hub.policy n).ignore ∧ h.mem = s.dev.hub.mem ∧
      ∃ l, b = (((s.dev.bench n).learnRead r t).setReg R.match_LEARN_REC_STATUS 0#32).afterEvents l))

/-- A walk evaluates at most 16 nodes, whatever graph is loaded, and a bounded walk ends with one reason. Rests on spec/03_cut_graph.md. -/
def Obligations.AWalkIsBounded : Prop :=
  ∀ (w : WalkIn) (f i cur : Nat) (r : Walk),
    (walk w f i cur r).hops ≤ r.hops + f ∧ (0 < f → r.hops < (walk w f i cur r).hops) ∧
      (walk w f i cur r).firstFrags ≤ r.firstFrags + f ∧
      ((walk w f i cur r).spoil = r.spoil ∨ (walk w f i cur r).spoil = 0x31 ∨ (walk w f i cur r).spoil = 0x32)

/-- The inline cipher: body steps, verdicts, restart, self-test, association commits, zeroised key slots. Rests on spec/06_inline_cipher.md. -/
def Obligations.CipherCommands : Prop :=
  (∀ (n : BenchId) (enc : Bool) (p : Pkt) (j : CipherJob) (r : CipherJob × Bench) (s : State), (s.dev.bench n).live = true → (s.dev.bench n).flag R.cipher_CIPHER_STATUS_HALTED = false →
    ((s.dev.bench n).working enc).head?.bind ((s.dev.bench n).jobOf enc) = some (p, j) → (s.dev.bench n).stepAllowed p j = true →
    r = (s.dev.bench n).cipherTo p.handle j (min (j.stepEnd p) (j.stop p)) →
    Leaves (.cipherBodyStep n enc) n s ((r.2.updJob enc p.id (fun _ => { r.1 with steps := j.steps + 1 })).countCipher)) ∧
  (∀ (n : BenchId) (enc : Bool) (p : Pkt) (j : CipherJob) (s : State), (s.dev.bench n).live = true →
    ((s.dev.bench n).working enc).head?.bind ((s.dev.bench n).jobOf enc) = some (p, j) → (s.dev.bench n).stepAllowed p j = false →
    Leaves (.cipherBodyStep n enc) n s (s.dev.bench n)) ∧
  (∀ (n : BenchId) (enc : Bool) (s : State), (s.dev.bench n).live = true → (s.dev.bench n).flag R.cipher_CIPHER_STATUS_HALTED = true → Leaves (.cipherBodyStep n enc) n s (s.dev.bench n)) ∧
  (∀ (n : BenchId) (id : Nat) (p : Pkt) (j : CipherJob) (s : State), (s.dev.bench n).live = true → (s.dev.bench n).ci.queue.find? (fun x => x.1 = true) = some (true, id) →
    (s.dev.bench n).jobOf true id = some (p, j) → p.ended = true → stepsLeft (p, j) = false → p.decPending = false →
    Leaves (.cipherVerdict n true false) n s
      (((((s.dev.bench n).cipherAgree true).countGood j (p.start + p.netLen - j.payload)).sealTail p j).setVerdict true p.id 0)) ∧
  (∀ (n : BenchId) (id : Nat) (p : Pkt) (j : CipherJob) (k : CipherJob × Bench) (b : Bench) (r : Nat × Nat) (s : State), (s.dev.bench n).live = true →
    (s.dev.bench n).ci.queue.find? (fun x => x.1 = false) = some (false, id) →
    (s.dev.bench n).jobOf false id = some (p, j) → p.ended = true → stepsLeft (p, j) = false →
    k = ((s.dev.bench n).cipherAgree false).cipherTo p.handle j (j.stop p) → b = k.2.updJob false p.id (fun _ => k.1) → r = b.openTail p k.1 →
    Leaves (.cipherVerdict n false false) n s
      (if r.1 = 0 then
        (let b := (b.countGood j (r.2 - j.payload)).updSharers p.id (fun k => k.endAt r.2)
         if scReplay j.ctl || b.saSeq j.sa < j.seq then b.moveWindow j.sa j.seq else b).setVerdict false p.id 0
      else if r.1 = 0x65 then (b.tick (T.SA_AUTH_FAIL j.sa)).setVerdict false p.id 0x65
      else if r.1 = 0x64 then (b.tick (T.SA_REPLAY j.sa)).setVerdict false p.id 0x64
      else b.setVerdict false p.id r.1) ∧
    (r.1 = 0 → k.1.icv.getD (b.chainBytes p.handle (k.1.stop p) 16) = k.1.tagOf)) ∧
  (∀ (n : BenchId) (enc : Bool) (id : Nat) (p : Pkt) (j : CipherJob) (d : Nat) (s : State), (s.dev.bench n).live = true → (s.dev.bench n).ci.queue.find? (fun x => x.1 = enc) = some (enc, id) →
    (s.dev.bench n).jobOf enc id = some (p, j) → p.ended = true → stepsLeft (p, j) = false → (enc && p.decPending) = false →
    d = (if enc then 0 else 1) →
    Leaves (.cipherVerdict n enc true) n s
      (let b := (((s.dev.bench n).setFld R.cipher_CIPHER_STATUS_MISMATCH 1).raise 23).setVerdict enc p.id 0x6B
       if b.ci.lastBad.contains d then
        (({ b with ci := { b.ci with lastBad := [] } }.setFld R.cipher_CIPHER_STATUS_HALTED 1).raise 24).failAll 0x6B
       else { b with ci := { b.ci with lastBad := b.ci.lastBad ++ [d] } })) ∧
  (∀ (n : BenchId) (s : State), (s.dev.bench n).live = true → (s.dev.bench n).flag R.cipher_CIPHER_STATUS_HALTED = false → Leaves (.cipherRestart n) n s (s.dev.bench n)) ∧
  (∀ (n : BenchId) (s : State), (s.dev.bench n).live = true → (s.dev.bench n).flag R.cipher_CIPHER_STATUS_HALTED = true →
    Leaves (.cipherRestart n) n s { (s.dev.bench n) with ci := { (s.dev.bench n).ci with restarting := true } }) ∧
  (∀ (n : BenchId) (s : State), (s.dev.bench n).live = true → (s.dev.bench n).ci.restarting = true →
    Leaves (.cipherSelftestDone n true) n s
      ({ (s.dev.bench n) with ci := { (s.dev.bench n).ci with restarting := false } }.setFld R.cipher_CIPHER_STATUS_HALTED 0) ∧
    Leaves (.cipherSelftestDone n false) n s
      ({ (s.dev.bench n) with ci := { (s.dev.bench n).ci with restarting := false } }.setFld R.cipher_CIPHER_STATUS_SELFTEST_FAIL 1)) ∧
  (∀ (n : BenchId) (i : Nat) (s : State), (s.dev.bench n).live = true → i < 16384 → (s.dev.bench n).saResult i (s.dev.bench n).saStaged = 0 →
    Leaves (.saCommit n i) n s (((s.dev.bench n).saWrite i (s.dev.bench n).saStaged).postStatus R.cipher_SA_COMMIT_STATUS 0 16 16)) ∧
  (∀ (n : BenchId) (i r : Nat) (s : State), (s.dev.bench n).live = true → i < 16384 → (s.dev.bench n).saResult i (s.dev.bench n).saStaged = r → r ≠ 0 →
    Leaves (.saCommit n i) n s (((s.dev.bench n).tick T.SA_WRITE_REFUSED).postStatus R.cipher_SA_COMMIT_STATUS (2 * r) 16 16)) ∧
  (∀ (n : BenchId) (i : Nat) (s : State), (s.dev.bench n).live = true → i < 16384 → (s.dev.bench n).saFlag i 2 = true → (s.dev.bench n).saInUse i = false →
    Leaves (.saKeyZeroised n i) n s
      ({ (s.dev.bench n) with keys := memWrite (s.dev.bench n).keys (48 * i) (List.replicate 48 0#8) }.setSaFlag i 2 false)) ∧
  (∀ (n : BenchId) (i : Nat) (s : State), (s.dev.bench n).live = true → (s.dev.bench n).saInUse i = true → Leaves (.saKeyZeroised n i) n s (s.dev.bench n))

/-- The side lane, the refresher, meter and queue commits, the scheduler's decision, the host delivery's take. Rests on spec/07_traffic_manager.md. -/
def Obligations.TrafficManagerCommands : Prop :=
  (∀ (n : BenchId) (ecc : Ecc) (id : Nat) (t : List Nat) (p : Pkt) (s : State), (s.dev.bench n).live = true → (s.dev.bench n).tm.side = id :: t → (s.dev.bench n).pkt? id = some p →
    Leaves (.sideEnqueue n ecc) n s
      ((({ (s.dev.bench n) with tm := { (s.dev.bench n).tm with side := t } } : Bench).countQueues.lane p none p.tm.queue ecc).pump)) ∧
  (∀ (n : BenchId) (s : State), (s.dev.bench n).live = true →
    Leaves (.meterRefresh n []) n s
      (({ (s.dev.bench n) with tm := { (s.dev.bench n).tm with refresh := ((s.dev.bench n).tm.refresh + 1) % 32768 } } : Bench).setBuckets (s.dev.bench n).tm.refresh
        ((s.dev.bench n).refilled (s.dev.bench n).tm.refresh))) ∧
  (∀ (n : BenchId) (s : State), (s.dev.bench n).live = true →
    Leaves (.meterRefresh n [(meterAddr (s.dev.bench n).tm.refresh, true)]) n s
      (({ (s.dev.bench n) with tm := { (s.dev.bench n).tm with refresh := ((s.dev.bench n).tm.refresh + 1) % 32768 } } : Bench).tmEcc 0 (s.dev.bench n).tm.refresh)) ∧
  (∀ (n : BenchId) (m : Nat) (s : State), (s.dev.bench n).live = true → m < 32768 → meterBad (s.dev.bench n).meterStaged = false →
    Leaves (.mtrCommit n m) n s (((s.dev.bench n).meterWrite m (s.dev.bench n).meterStaged).postStatus R.tm_MTR_COMMIT_STATUS 0 16 16)) ∧
  (∀ (n : BenchId) (m : Nat) (s : State), (s.dev.bench n).live = true → m < 32768 → meterBad (s.dev.bench n).meterStaged = true →
    Leaves (.mtrCommit n m) n s (((s.dev.bench n).tick T.TM_WRITE_REFUSED).postStatus R.tm_MTR_COMMIT_STATUS 4 16 16)) ∧
  (∀ (n : BenchId) (q : Nat) (s : State), (s.dev.bench n).live = true → q < 8192 → (s.dev.bench n).qctxResult q (s.dev.bench n).qctxStaged = 0 →
    Leaves (.qctxCommit n q) n s (((s.dev.bench n).qctxWrite q (s.dev.bench n).qctxStaged).postStatus R.tm_QCTX_COMMIT_STATUS 0 16 16)) ∧
  (∀ (n : BenchId) (q : Nat) (s : State), (s.dev.bench n).live = true → q < 8192 → (s.dev.bench n).qctxResult q (s.dev.bench n).qctxStaged = 1 →
    Leaves (.qctxCommit n q) n s (((s.dev.bench n).tick T.WEIGHT_REFUSED).postStatus R.tm_QCTX_COMMIT_STATUS 2 16 16)) ∧
  (∀ (n : BenchId) (q r : Nat) (s : State), (s.dev.bench n).live = true → q < 8192 → (s.dev.bench n).qctxResult q (s.dev.bench n).qctxStaged = r → 1 < r →
    Leaves (.qctxCommit n q) n s (((s.dev.bench n).tick T.TM_WRITE_REFUSED).postStatus R.tm_QCTX_COMMIT_STATUS (2 * r) 16 16)) ∧
  (∀ (n : BenchId) (q : Nat) (s : State), (s.dev.bench n).live = true → q < 8192 →
    Leaves (.qctxClearHwm n q) n s
      (((s.dev.bench n).setMbits (qAddr q) 320 25 ((s.dev.bench n).qOcc q)).postStatus R.tm_QCTX_COMMIT_STATUS 0 16 16)) ∧
  (∀ (n : BenchId) (p lead : Nat) (b : Bench) (x : Nat × Cand) (s : State), (s.dev.bench n).live = true → (s.dev.bench n).hasPort p = true →
    b = ((List.range 9).foldl (fun b c => b.refreshShaper p c) ((s.dev.bench n).commitWeights p)).dropOversize p →
    b.flag (R.face_PORT_STATUS_PAUSED p) = false → b.conforms p 8 = true → b.pktAt? (.selected p) = none →
    b.chooseClass p ((List.range 8).filterMap (fun c =>
      if bit (b.fld (R.face_PORT_STATUS_PFC_PAUSED p)) c || !b.conforms p c then none
      else (b.classHead p c lead (b.portQueues p)).map (fun x => (c, x)))) = some x →
    Leaves (.schedDecision n p lead) n s ((b.select p x).dropOversize p)) ∧
  (∀ (n : BenchId) (p lead : Nat) (b : Bench) (s : State), (s.dev.bench n).live = true → (s.dev.bench n).hasPort p = true →
    b = ((List.range 9).foldl (fun b c => b.refreshShaper p c) ((s.dev.bench n).commitWeights p)).dropOversize p →
    b.chooseClass p ((List.range 8).filterMap (fun c =>
      if bit (b.fld (R.face_PORT_STATUS_PFC_PAUSED p)) c || !b.conforms p c then none
      else (b.classHead p c lead (b.portQueues p)).map (fun x => (c, x)))) = none →
    Leaves (.schedDecision n p lead) n s b) ∧
  (∀ (n : BenchId) (p lead : Nat) (b : Bench) (s : State), (s.dev.bench n).live = true → (s.dev.bench n).hasPort p = true →
    b = ((List.range 9).foldl (fun b c => b.refreshShaper p c) ((s.dev.bench n).commitWeights p)).dropOversize p →
    (b.flag (R.face_PORT_STATUS_PAUSED p) = true ∨ b.conforms p 8 = false ∨ (b.pktAt? (.selected p)).isSome = true) →
    Leaves (.schedDecision n p lead) n s b) ∧
  (∀ (n : BenchId) (id : Nat) (t : List Nat) (p : Pkt) (s : State), (s.dev.bench n).live = true → (s.dev.bench n).tm.hostQ = id :: t → (s.dev.bench n).pkt? id = some p → p.ended = true →
    p.verdictPending = false → p.fix = [] → ((s.dev.bench n).chanCmds 1).length < 16 →
    RunsBoth (.hostDeliveryTake n) n s (fun h b => h.fw = s.dev.hub.fw ∧ h.mem = s.dev.hub.mem ∧
      ∃ l, b = (Bench.deliver s.dev.hub (s.dev.bench n) p).afterEvents l)) ∧
  (∀ (n : BenchId) (id : Nat) (t : List Nat) (p : Pkt) (s : State), (s.dev.bench n).live = true → (s.dev.bench n).tm.hostQ = id :: t → (s.dev.bench n).pkt? id = some p →
    (p.ended = false ∨ p.verdictPending = true ∨ p.fix ≠ [] ∨ 16 ≤ ((s.dev.bench n).chanCmds 1).length) →
    Leaves (.hostDeliveryTake n) n s (s.dev.bench n))

/-- Time gates: a commit waits for its start, a takeover puts the list in force, a cancel drops it. Rests on spec/07_traffic_manager.md. -/
def Obligations.GateLists : Prop :=
  (∀ (n : BenchId) (p : Nat) (s : State), (s.dev.bench n).live = true → (s.dev.bench n).hasPort p = true → (s.dev.bench n).gatePending p = false → (s.dev.bench n).gateBad p = false → (s.dev.bench n).time.ticks < (s.dev.bench n).gateStart p →
    Runs (.gateCommit n p) n s (fun b => b.gatePending p = true ∧ (b.gate p).start = (s.dev.bench n).gateStart p ∧
      (b.gate p).origin = ((s.dev.bench n).gate p).origin ∧ (b.gate p).atOnce = false ∧ b.gateOn p = (s.dev.bench n).gateOn p ∧ b.mem = (s.dev.bench n).mem ∧ b.pkts = (s.dev.bench n).pkts ∧
      getBits (b.reg (R.tm_GATE_COMMIT_STATUS p)).toNat 0 16 = 1)) ∧
  (∀ (n : BenchId) (p : Nat) (s : State), (s.dev.bench n).live = true → (s.dev.bench n).hasPort p = true → (s.dev.bench n).gatePending p = false → (s.dev.bench n).gateBad p = false → (s.dev.bench n).gateStart p ≤ (s.dev.bench n).time.ticks →
    Runs (.gateCommit n p) n s (fun b => b.gatePending p = true ∧ b.flag (R.tm_GATE_STATUS_START_PAST p) = true ∧
      (b.gate p).start = (if (s.dev.bench n).gateOn p then (s.dev.bench n).nextCycle p (s.dev.bench n).time.ticks else (s.dev.bench n).gateStart p) ∧
      (b.gate p).atOnce = !(s.dev.bench n).gateOn p ∧ b.mem = (s.dev.bench n).mem ∧ b.pkts = (s.dev.bench n).pkts ∧
      getBits (b.reg (R.tm_GATE_COMMIT_STATUS p)).toNat 0 16 = 1)) ∧
  (∀ (n : BenchId) (p : Nat) (s : State), (s.dev.bench n).live = true → (s.dev.bench n).hasPort p = true → (s.dev.bench n).gatePending p = false → (s.dev.bench n).gateBad p = true →
    Leaves (.gateCommit n p) n s (((s.dev.bench n).tick T.GATE_WRITE_REFUSED).postStatus (R.tm_GATE_COMMIT_STATUS p) 4 16 16)) ∧
  (∀ (n : BenchId) (p : Nat) (s : State), (s.dev.bench n).live = true → (s.dev.bench n).hasPort p = true → (s.dev.bench n).gatePending p = true →
    Leaves (.gateCommit n p) n s (((s.dev.bench n).tick T.GATE_WRITE_REFUSED).postStatus (R.tm_GATE_COMMIT_STATUS p) 2 16 16)) ∧
  (∀ (n : BenchId) (p : Nat) (s : State), (s.dev.bench n).live = true → (s.dev.bench n).hasPort p = true →
    Leaves (.gateCancel n p) n s ((s.dev.bench n).setFld (R.tm_GATE_STATUS_PENDING p) 0)) ∧
  (∀ (n : BenchId) (p : Nat) (s : State), (s.dev.bench n).live = true → (s.dev.bench n).hasPort p = false →
    Leaves (.gateCommit n p) n s ((s.dev.bench n).tick T.CFG_REFUSED) ∧ Leaves (.gateCancel n p) n s ((s.dev.bench n).tick T.CFG_REFUSED)) ∧
  (∀ (n : BenchId) (p : Nat) (s : State), (s.dev.bench n).live = true → (s.dev.bench n).hasPort p = true → (s.dev.bench n).gatePending p = true → (s.dev.bench n).gateStartAt p ≤ (s.dev.bench n).time.ticks →
    Leaves (.gateTakeover n p) n s ((s.dev.bench n).gateTake p)) ∧
  (∀ (n : BenchId) (p : Nat) (s : State), (s.dev.bench n).live = true → (s.dev.bench n).hasPort p = true → (s.dev.bench n).gatePending p = true → (s.dev.bench n).gateStartAt p ≤ (s.dev.bench n).time.ticks →
    (s.dev.bench n).pkts = [] → (s.dev.bench n).tm.flow = [] →
    Runs (.gateTakeover n p) n s (fun b => b.gatePending p = false ∧ b.gateOn p = true ∧
      (b.gate p).origin = (s.dev.bench n).gateStartAt p ∧ b.bytes (gateActive p) 0x2000 = (s.dev.bench n).bytes (gateShadow p) 0x2000 ∧
      MemKept (fun a => gateActive p ≤ a ∧ a < gateActive p + 0x2000) (s.dev.bench n) b ∧
      b.tally T.GATE_TAKEOVER = min tallyMax ((s.dev.bench n).tally T.GATE_TAKEOVER + 1))) ∧
  (∀ (n : BenchId) (p : Nat) (s : State), (s.dev.bench n).live = true → ((s.dev.bench n).gatePending p = false ∨ (s.dev.bench n).time.ticks < (s.dev.bench n).gateStartAt p) → Leaves (.gateTakeover n p) n s (s.dev.bench n)) ∧
  (∀ (n : BenchId) (p : Nat) (s : State), (s.dev.bench n).live = true → (s.dev.bench n).hasPort p = true → (s.dev.bench n).gateOn p = true →
    Leaves (.gateEntryAdvance n p) n s
      ((s.dev.bench n).setGate p { (s.dev.bench n).gate p with entry := (((s.dev.bench n).activeList p).when ((s.dev.bench n).gate p).origin (s.dev.bench n).time.ticks).1 })) ∧
  (∀ (n : BenchId) (p : Nat) (s : State), (s.dev.bench n).live = true → (s.dev.bench n).gateOn p = false → Leaves (.gateEntryAdvance n p) n s (s.dev.bench n))

/-- The hopper: enable, build, and the six operations of HOP_CMD with their results. Rests on spec/08_hopper.md. -/
def Obligations.HopperCommands : Prop :=
  (∀ (n : BenchId) (v : Word) (s : State), (s.dev.bench n).live = true → (s.dev.bench n).flag R.hopper_HOPPER_CTL_ENABLE = false → (s.dev.bench n).carveOk (s.dev.bench n).dramUp (s.dev.bench n).capacity = true →
    Leaves (.hopperEnable n v) n s
      { (((((s.dev.bench n).rsvd R.hopper_HOPPER_CTL v.toNat).setFld R.hopper_HOPPER_CTL_FACE_SPILL (getBits v.toNat 2 1)).setFld
          R.hopper_HOPPER_CTL_ALLOC_SPILL (getBits v.toNat 3 1)).setFld R.hopper_HOPPER_CTL_ENABLE 1) with
        hop := { (s.dev.bench n).hop with building := true } }) ∧
  (∀ (n : BenchId) (v : Word) (s : State), (s.dev.bench n).live = true → (s.dev.bench n).flag R.hopper_HOPPER_CTL_ENABLE = false → (s.dev.bench n).carveOk (s.dev.bench n).dramUp (s.dev.bench n).capacity = false →
    Leaves (.hopperEnable n v) n s
      (((((s.dev.bench n).rsvd R.hopper_HOPPER_CTL v.toNat).setFld R.hopper_HOPPER_CTL_FACE_SPILL (getBits v.toNat 2 1)).setFld
          R.hopper_HOPPER_CTL_ALLOC_SPILL (getBits v.toNat 3 1)).tick T.CFG_REFUSED)) ∧
  (∀ (n : BenchId) (v : Word) (s : State), (s.dev.bench n).live = true → (s.dev.bench n).flag R.hopper_HOPPER_CTL_ENABLE = true →
    Leaves (.hopperEnable n v) n s
      ((((s.dev.bench n).rsvd R.hopper_HOPPER_CTL v.toNat).setFld R.hopper_HOPPER_CTL_FACE_SPILL (getBits v.toNat 2 1)).setFld
          R.hopper_HOPPER_CTL_ALLOC_SPILL (getBits v.toNat 3 1))) ∧
  (∀ (n : BenchId) (s : State), (s.dev.bench n).live = true → (s.dev.bench n).hop.building = true →
    Runs (.hopperReady n) n s (fun b => b.fld R.hopper_HOPPER_CTL_READY = 1 ∧ b.hop = { (s.dev.bench n).hop with building := false } ∧
      (∀ k, k < 5 → b.freeCount k = (s.dev.bench n).poolCount k % 2 ^ (R.hopper_POOL_FREE_FREE k).w) ∧ b.mem = (s.dev.bench n).mem ∧
      b.tal = (s.dev.bench n).tal)) ∧
  (∀ (n : BenchId) (pkt : Bool) (k i : Nat) (s : State), (s.dev.bench n).live = true →
    poolFor (((s.dev.bench n).reg R.hopper_HOP_ARG2).toNat % 2 ^ 17 + if pkt then 152 else 0) 4 0 = some k →
    (s.dev.bench n).flag R.hopper_HOPPER_CTL_ALLOC_SPILL = false → (s.dev.bench n).mayTake .ryuner k = true →
    (s.dev.bench n).pickFree k = some i →
    Leaves (.hopAllocLength n pkt) n s (((s.dev.bench n).grant k 4).2.postHop 0
      (some ((s.dev.bench n).bufOff k i + 2 ^ 24 * k + 2 ^ 27 * (((s.dev.bench n).recGen (recordAddr k ((s.dev.bench n).bufOff k i)) + 1) % 32))))) ∧
  (∀ (n : BenchId) (k i : Nat) (s : State), (s.dev.bench n).live = true → k < 5 → (s.dev.bench n).mayTake .ryuner k = true → (s.dev.bench n).pickFree k = some i →
    Leaves (.hopAllocPool n k) n s (((s.dev.bench n).grant k 4).2.postHop 0
      (some ((s.dev.bench n).bufOff k i + 2 ^ 24 * k + 2 ^ 27 * (((s.dev.bench n).recGen (recordAddr k ((s.dev.bench n).bufOff k i)) + 1) % 32))))) ∧
  (∀ (n : BenchId) (k : Nat) (s : State), (s.dev.bench n).live = true → k < 5 → (s.dev.bench n).mayTake .ryuner k = false →
    Leaves (.hopAllocPool n k) n s (((s.dev.bench n).tick (T.EMPTY_RYUNER k)).postHop 1 none)) ∧
  (∀ (n : BenchId) (k : Nat) (s : State), (s.dev.bench n).live = true → 4 < k → (s.dev.bench n).carved = true → Leaves (.hopAllocPool n k) n s (((s.dev.bench n).hopRefuse 3 1 4 0).postHop 3 none)) ∧
  (∀ (n : BenchId) (k : Nat) (s : State), (s.dev.bench n).live = true → 4 < k → (s.dev.bench n).carved = false → Leaves (.hopAllocPool n k) n s ((s.dev.bench n).postHop 1 none)) ∧
  (∀ (n : BenchId) (pkt : Bool) (k : Nat) (s : State), (s.dev.bench n).live = true →
    poolFor (((s.dev.bench n).reg R.hopper_HOP_ARG2).toNat % 2 ^ 17 + if pkt then 152 else 0) 4 0 = some k →
    (s.dev.bench n).flag R.hopper_HOPPER_CTL_ALLOC_SPILL = false → (s.dev.bench n).mayTake .ryuner k = false →
    Leaves (.hopAllocLength n pkt) n s (((s.dev.bench n).tick (T.EMPTY_RYUNER k)).postHop 1 none)) ∧
  (∀ (n : BenchId) (pkt : Bool) (s : State), (s.dev.bench n).live = true → poolFor (((s.dev.bench n).reg R.hopper_HOP_ARG2).toNat % 2 ^ 17 + if pkt then 152 else 0) 4 0 = none →
    Leaves (.hopAllocLength n pkt) n s ((s.dev.bench n).postHop (if (s.dev.bench n).carved then 2 else 1) none)) ∧
  (∀ (n : BenchId) (h a x : Nat) (s : State), (s.dev.bench n).live = true → ((s.dev.bench n).reg R.hopper_HOP_ARG).toNat = h → recordAddr (hPool h) (hOff h) = a →
    ((s.dev.bench n).reg R.hopper_HOP_ARG2).toNat = x → (s.dev.bench n).checkHandle h = 0 → (s.dev.bench n).recState a = 1 → (s.dev.bench n).recOwner a = 4 →
    (hopArgsOk opShare (x % 256) (x / 256 % 256) = true →
      Leaves (.hopShare n []) n s
        (((s.dev.bench n).setRec a 2 4 (x % 256) (x / 256 % 256) ((s.dev.bench n).recGen a) (if (s.dev.bench n).recNextValid a then 1 else 0)).postHop 0 none)) ∧
    Leaves (.hopFree n []) n s (((s.dev.bench n).freeChain h).postHop 0 none) ∧
    (hopArgsOk opGive (x % 256) 0 = true →
      Leaves (.hopGive n []) n s
        (((s.dev.bench n).setRec a 1 (x % 256) 0 0 ((s.dev.bench n).recGen a) (if (s.dev.bench n).recNextValid a then 1 else 0)).postHop 0 none))) ∧
  (∀ (n : BenchId) (h a x : Nat) (s : State), (s.dev.bench n).live = true → ((s.dev.bench n).reg R.hopper_HOP_ARG).toNat = h → recordAddr (hPool h) (hOff h) = a →
    ((s.dev.bench n).reg R.hopper_HOP_ARG2).toNat = x → (s.dev.bench n).checkHandle h = 0 → (s.dev.bench n).recState a = 2 → (s.dev.bench n).recLast a = 4 → x % 256 = 4 →
    x / 256 % 256 ≠ 0 → (s.dev.bench n).recRefs a + x / 256 % 256 ≤ 255 →
    Leaves (.hopShare n []) n s
      (((s.dev.bench n).setRec a 2 ((s.dev.bench n).recOwner a) 4 ((s.dev.bench n).recRefs a + x / 256 % 256) ((s.dev.bench n).recGen a)
        (if (s.dev.bench n).recNextValid a then 1 else 0)).postHop 0 none)) ∧
  (∀ (n : BenchId) (h a : Nat) (s : State), (s.dev.bench n).live = true → ((s.dev.bench n).reg R.hopper_HOP_ARG).toNat = h → recordAddr (hPool h) (hOff h) = a →
    (s.dev.bench n).checkHandle h = 0 → (s.dev.bench n).recState a = 2 → (s.dev.bench n).recLast a ≠ 4 →
    Leaves (.hopRelease n []) n s
      ((if (s.dev.bench n).recRefs a - 1 ≠ 0 then (s.dev.bench n).setRec a 2 ((s.dev.bench n).recOwner a) ((s.dev.bench n).recLast a) ((s.dev.bench n).recRefs a - 1) ((s.dev.bench n).recGen a)
          (if (s.dev.bench n).recNextValid a then 1 else 0)
        else if (s.dev.bench n).recLast a = 7 then (s.dev.bench n).freeChain h
        else (s.dev.bench n).setRec a 1 ((s.dev.bench n).recLast a) 0 0 ((s.dev.bench n).recGen a) (if (s.dev.bench n).recNextValid a then 1 else 0)).postHop 0 none)) ∧
  (∀ (n : BenchId) (op h a x c : Nat) (i : Instr) (s : State), (s.dev.bench n).live = true →
    ((op = opShare ∧ i = .hopShare n []) ∨ (op = opRelease ∧ i = .hopRelease n []) ∨ (op = opFree ∧ i = .hopFree n []) ∨
      (op = opGive ∧ i = .hopGive n [])) →
    ((s.dev.bench n).reg R.hopper_HOP_ARG).toNat = h → recordAddr (hPool h) (hOff h) = a → ((s.dev.bench n).reg R.hopper_HOP_ARG2).toNat = x →
    c = (if (s.dev.bench n).checkHandle h (hopArgsOk op (x % 256) (x / 256 % 256)) ≠ 0 then (s.dev.bench n).checkHandle h (hopArgsOk op (x % 256) (x / 256 % 256))
      else (s.dev.bench n).hopMatrix op 4 a (x % 256) (x / 256 % 256)) → c ≠ 0 →
    Leaves i n s (((s.dev.bench n).hopRefuse c op 4 h).postHop c none)) ∧
  (∀ (n : BenchId) (s : State), (s.dev.bench n).live = true → (s.dev.bench n).checkHandle ((s.dev.bench n).reg R.hopper_HOP_ARG).toNat = 5 →
    Leaves (.hopFree n []) n s (((s.dev.bench n).hopRefuse 5 opFree 4 ((s.dev.bench n).reg R.hopper_HOP_ARG).toNat).postHop 5 none))

/-- The ALU functions: each FN gives the RD that R280 lists, arithmetic wraps, and any other FN is ILLEGAL. Formalises R280. -/
def Obligations.AluFunctions : Prop :=
  (∀ (n : BenchId) (c t w : Nat) (s : State), AtWord s n (tid c t) w → iOp w = 0x00 → iX5 w = 0 →
    ∀ (a b : DWord), a = ((s.dev.bench n).thr (tid c t)).greg (iRA w) → b = ((s.dev.bench n).thr (tid c t)).greg (iRB w) → ∀ x ∈ ([(0x00, a + b), (0x01, a - b), (0x02, a &&& b), (0x03, a ||| b),
      (0x04, a ^^^ b), (0x05, a &&& ~~~b), (0x06, a <<< (b.toNat % 64)), (0x07, a >>> (b.toNat % 64)),
      (0x08, a.sshiftRight (b.toNat % 64)), (0x09, BitVec.ofNat 64 (a.toNat * b.toNat % 2 ^ 64)),
      (0x0A, BitVec.ofNat 64 (a.toNat * b.toNat / 2 ^ 64)), (0x0B, if a.toInt < b.toInt then 1 else 0),
      (0x0C, if a.toNat < b.toNat then 1 else 0), (0x0D, BitVec.ofNat 64 (min a.toNat b.toNat)),
      (0x0E, BitVec.ofNat 64 (max a.toNat b.toNat)),
      (0x0F, BitVec.ofNat 64 (((List.range 64).find? (fun j => a.getLsbD (63 - j))).getD 64)),
      (0x10, BitVec.ofNat 64 ((List.range 64).filter (fun j => a.getLsbD j)).length),
      (0x11, BitVec.ofNat 64 (leNat (leBytes 8 a.toNat).reverse)), (0x12, BitVec.ofNat 64 (leNat (leBytes 4 a.toNat).reverse)),
      (0x13, BitVec.ofNat 64 (leNat (leBytes 2 a.toNat).reverse)),
      (0x14, BitVec.ofNat 64 ((leBytes 8 b.toNat).foldl crcByte (a.toNat % 2 ^ 32))),
      (0x15, BitVec.ofNat 64 (crcByte (a.toNat % 2 ^ 32) (BitVec.ofNat 8 b.toNat)))] : List (Nat × DWord)),
      iFN w = x.1 → Retires (.alu n c t []) n (tid c t) s [(iRD w, x.2)] (((s.dev.bench n).thr (tid c t)).pc + 1) (fun _ => False)) ∧
  (∀ (n : BenchId) (c t w : Nat) (s : State), AtWord s n (tid c t) w → iOp w = 0x00 → iX5 w = 0 → 0x15 < iFN w → Faults (.alu n c t []) n (tid c t) s 1)

/-- MOVW writes one halfword, Z clears or keeps the others; EXT, EXTS and INS past bit 63 are ILLEGAL. Formalises R281. -/
def Obligations.MovwAndFieldRange : Prop :=
  (∀ (n : BenchId) (v : DWord) (c t w : Nat) (s : State), AtWord s n (tid c t) w → iOp w = 0x08 → getBits (iRA w) 2 2 = 0 →
    (∀ k, k < 64 → v.getLsbD k = (if k / 16 = iRA w % 4 then (BitVec.ofNat 16 w).getLsbD (k % 16)
      else (!bit (iRA w) 4 && (((s.dev.bench n).thr (tid c t)).greg (iRD w)).getLsbD k))) →
    Retires (.movw n c t []) n (tid c t) s [(iRD w, v)] (((s.dev.bench n).thr (tid c t)).pc + 1) (fun _ => False)) ∧
  (∀ (n : BenchId) (c t w : Nat) (s : State), AtWord s n (tid c t) w → iOp w = 0x08 → getBits (iRA w) 2 2 ≠ 0 → Faults (.movw n c t []) n (tid c t) s 1) ∧
  (∀ (n : BenchId) (c t w : Nat) (s : State), AtWord s n (tid c t) w → 63 < iPos w + (iWidth w - 1) →
    (iOp w = 0x09 → Faults (.ext n c t []) n (tid c t) s 1) ∧ (iOp w = 0x0A → Faults (.exts n c t []) n (tid c t) s 1) ∧
    (iOp w = 0x0B → Faults (.ins n c t []) n (tid c t) s 1)) ∧
  (∀ x d v0 v1 v2 v3 : DWord,
    (∀ k, k < 64 → v0.getLsbD k = if k / 16 = 0 then x.getLsbD k else d.getLsbD k) →
    (∀ k, k < 64 → v1.getLsbD k = if k / 16 = 1 then x.getLsbD k else v0.getLsbD k) →
    (∀ k, k < 64 → v2.getLsbD k = if k / 16 = 2 then x.getLsbD k else v1.getLsbD k) →
    (∀ k, k < 64 → v3.getLsbD k = if k / 16 = 3 then x.getLsbD k else v2.getLsbD k) → v3 = x)

/-- The immediate, shift and field instructions retire with the RD that R279 lists. Rests on spec/09_engine_cores.md. -/
def Obligations.ImmediateAndFieldInstructions : Prop :=
  (∀ (n : BenchId) (c t w : Nat) (s : State), AtWord s n (tid c t) w → iOp w = 0x01 →
    Retires (.addi n c t []) n (tid c t) s [(iRD w, ((s.dev.bench n).thr (tid c t)).greg (iRA w) + (BitVec.ofNat 16 w).signExtend 64)] (((s.dev.bench n).thr (tid c t)).pc + 1) (fun _ => False)) ∧
  (∀ (n : BenchId) (c t w : Nat) (s : State), AtWord s n (tid c t) w → iOp w = 0x02 →
    Retires (.andi n c t []) n (tid c t) s [(iRD w, ((s.dev.bench n).thr (tid c t)).greg (iRA w) &&& (BitVec.ofNat 16 w).setWidth 64)] (((s.dev.bench n).thr (tid c t)).pc + 1) (fun _ => False)) ∧
  (∀ (n : BenchId) (c t w : Nat) (s : State), AtWord s n (tid c t) w → iOp w = 0x03 →
    Retires (.ori n c t []) n (tid c t) s [(iRD w, ((s.dev.bench n).thr (tid c t)).greg (iRA w) ||| (BitVec.ofNat 16 w).setWidth 64)] (((s.dev.bench n).thr (tid c t)).pc + 1) (fun _ => False)) ∧
  (∀ (n : BenchId) (c t w : Nat) (s : State), AtWord s n (tid c t) w → iOp w = 0x04 →
    Retires (.xori n c t []) n (tid c t) s [(iRD w, ((s.dev.bench n).thr (tid c t)).greg (iRA w) ^^^ (BitVec.ofNat 16 w).setWidth 64)] (((s.dev.bench n).thr (tid c t)).pc + 1) (fun _ => False)) ∧
  (∀ (n : BenchId) (c t w : Nat) (s : State), AtWord s n (tid c t) w → iOp w = 0x05 →
    Retires (.slti n c t []) n (tid c t) s [(iRD w, if (((s.dev.bench n).thr (tid c t)).greg (iRA w)).toInt < (BitVec.ofNat 16 w).toInt then 1 else 0)] (((s.dev.bench n).thr (tid c t)).pc + 1)
      (fun _ => False)) ∧
  (∀ (n : BenchId) (c t w : Nat) (s : State), AtWord s n (tid c t) w → iOp w = 0x06 →
    Retires (.sltiu n c t []) n (tid c t) s
      [(iRD w, if (((s.dev.bench n).thr (tid c t)).greg (iRA w)).toNat < ((BitVec.ofNat 16 w).signExtend 64).toNat then 1 else 0)] (((s.dev.bench n).thr (tid c t)).pc + 1) (fun _ => False)) ∧
  (∀ (n : BenchId) (c t w : Nat) (s : State), AtWord s n (tid c t) w → iOp w = 0x07 → getBits w 8 8 = 0 →
    (getBits w 6 2 = 0 → Retires (.shi n c t []) n (tid c t) s [(iRD w, ((s.dev.bench n).thr (tid c t)).greg (iRA w) <<< (w % 64))] (((s.dev.bench n).thr (tid c t)).pc + 1) (fun _ => False)) ∧
    (getBits w 6 2 = 1 → Retires (.shi n c t []) n (tid c t) s [(iRD w, ((s.dev.bench n).thr (tid c t)).greg (iRA w) >>> (w % 64))] (((s.dev.bench n).thr (tid c t)).pc + 1) (fun _ => False)) ∧
    (getBits w 6 2 = 2 →
      Retires (.shi n c t []) n (tid c t) s [(iRD w, (((s.dev.bench n).thr (tid c t)).greg (iRA w)).sshiftRight (w % 64))] (((s.dev.bench n).thr (tid c t)).pc + 1) (fun _ => False)) ∧
    (getBits w 6 2 = 3 → Faults (.shi n c t []) n (tid c t) s 2)) ∧
  (∀ (n : BenchId) (c t w : Nat) (s : State), AtWord s n (tid c t) w → getBits w 0 4 = 0 → iPos w + iWidth w ≤ 64 →
    (iOp w = 0x09 → Retires (.ext n c t []) n (tid c t) s [(iRD w, ((((s.dev.bench n).thr (tid c t)).greg (iRA w)).extractLsb' (iPos w) (iWidth w)).setWidth 64)] (((s.dev.bench n).thr (tid c t)).pc + 1)
      (fun _ => False)) ∧
    (iOp w = 0x0A → Retires (.exts n c t []) n (tid c t) s
      [(iRD w, ((((s.dev.bench n).thr (tid c t)).greg (iRA w)).extractLsb' (iPos w) (iWidth w)).signExtend 64)] (((s.dev.bench n).thr (tid c t)).pc + 1) (fun _ => False)) ∧
    (∀ v : DWord, iOp w = 0x0B →
      (∀ k, k < 64 → v.getLsbD k = (if iPos w ≤ k ∧ k < iPos w + iWidth w then (((s.dev.bench n).thr (tid c t)).greg (iRA w)).getLsbD (k - iPos w)
        else (((s.dev.bench n).thr (tid c t)).greg (iRD w)).getLsbD k)) →
      Retires (.ins n c t []) n (tid c t) s [(iRD w, v)] (((s.dev.bench n).thr (tid c t)).pc + 1) (fun _ => False)))

/-- Loads, stores and atomics of a thread: local slice, bench memory, scratch words, DRAM requests and tickets. Rests on spec/09_engine_cores.md. -/
def Obligations.EngineLoadsAndStores : Prop :=
  (∀ (n : BenchId) (a : Nat) (c t w : Nat) (s : State), AtWord s n (tid c t) w → iOp w = 0x10 → a = (((s.dev.bench n).thr (tid c t)).greg (iRA w) + iOff w).toNat → a % iSize w = 0 → a ≤ 0x3FFF →
    Retires (.ldl n c t []) n (tid c t) s [(iRD w, loaded w ((s.dev.bench n).le (sliceAddr (tid c t) + a) (iSize w)))] (((s.dev.bench n).thr (tid c t)).pc + 1) (fun _ => False)) ∧
  (∀ (n : BenchId) (a : Nat) (c t w : Nat) (s : State), AtWord s n (tid c t) w → iOp w = 0x11 → a = (((s.dev.bench n).thr (tid c t)).greg (iRA w) + iOff w).toNat → a % iSize w = 0 → a ≤ 0x3FFF →
    Retires (.stl n c t []) n (tid c t) s [] (((s.dev.bench n).thr (tid c t)).pc + 1)
      (fun x => sliceAddr (tid c t) + a ≤ x ∧ x < sliceAddr (tid c t) + a + iSize w) ∧
    ((s.dev.bench n).quiet → RunsBoth (.stl n c t []) n s (fun _ b =>
      b.le (sliceAddr (tid c t) + a) (iSize w) = (((s.dev.bench n).thr (tid c t)).greg (iRD w)).toNat % 2 ^ (8 * iSize w)))) ∧
  (∀ (n : BenchId) (a o : Nat) (c t w : Nat) (s : State), AtWord s n (tid c t) w → iOp w = 0x12 → a = (((s.dev.bench n).thr (tid c t)).greg (iRA w) + iOff w).toNat → a % iSize w = 0 → ownOffset n a = some o →
    (s.dev.bench n).regionOf o (iSize w) = .scratch →
    Retires (.ldb n c t []) n (tid c t) s [(iRD w, loaded w ((s.dev.bench n).le o (iSize w)))] (((s.dev.bench n).thr (tid c t)).pc + 1) (fun _ => False) 2) ∧
  (∀ (n : BenchId) (a o : Nat) (c t w : Nat) (s : State), AtWord s n (tid c t) w → iOp w = 0x13 → a = (((s.dev.bench n).thr (tid c t)).greg (iRA w) + iOff w).toNat → a % iSize w = 0 → ownOffset n a = some o →
    (s.dev.bench n).regionOf o (iSize w) = .scratch →
    Retires (.stb n c t []) n (tid c t) s [] (((s.dev.bench n).thr (tid c t)).pc + 1) (fun x => o ≤ x ∧ x < o + iSize w) 2 ∧
    ((s.dev.bench n).quiet → RunsBoth (.stb n c t []) n s (fun _ b => b.le o (iSize w) = (((s.dev.bench n).thr (tid c t)).greg (iRD w)).toNat % 2 ^ (8 * iSize w)))) ∧
  (∀ (n : BenchId) (o : Nat) (old : DWord) (c t w : Nat) (s : State), AtWord s n (tid c t) w → iX5 w = 0 → iFN w = 0 → (((s.dev.bench n).thr (tid c t)).greg (iRA w)).toNat % 8 = 0 → ownOffset n (((s.dev.bench n).thr (tid c t)).greg (iRA w)).toNat = some o →
    (s.dev.bench n).regionOf o 8 = .scratch → old = BitVec.ofNat 64 ((s.dev.bench n).le o 8) →
    (iOp w = 0x18 → Retires (.aadd n c t []) n (tid c t) s [(iRD w, old)] (((s.dev.bench n).thr (tid c t)).pc + 1) (fun x => o ≤ x ∧ x < o + 8) 2 ∧
      ((s.dev.bench n).quiet → RunsBoth (.aadd n c t []) n s (fun _ b => b.le o 8 = (old + ((s.dev.bench n).thr (tid c t)).greg (iRB w)).toNat))) ∧
    (iOp w = 0x19 → Retires (.acas n c t []) n (tid c t) s [(iRD w, old)] (((s.dev.bench n).thr (tid c t)).pc + 1) (fun x => o ≤ x ∧ x < o + 8) 2 ∧
      ((s.dev.bench n).quiet → RunsBoth (.acas n c t []) n s (fun _ b =>
        b.le o 8 = (if old = ((s.dev.bench n).thr (tid c t)).greg (iRD w) then ((s.dev.bench n).thr (tid c t)).greg (iRB w) else old).toNat)))) ∧
  (∀ (n : BenchId) (x : Nat) (c t w : Nat) (s : State), AtWord s n (tid c t) w → iOp w = 0x14 → (s.dev.bench n).dramPlace n (((s.dev.bench n).thr (tid c t)).greg (iRA w) + iOff w).toNat (iSize w) = .ok x →
    RunsBoth (.ldd n c t []) n s (fun h b => h.fw = s.dev.hub.fw ∧ (b.thr (tid c t)).wait = .dram ∧ (b.thr (tid c t)).pc = ((s.dev.bench n).thr (tid c t)).pc ∧
      (b.thr (tid c t)).regs = ((s.dev.bench n).thr (tid c t)).regs ∧ (b.thr (tid c t)).destReg = iRD w ∧
      ∃ r ∈ b.dram.reqs, r.use = .load (tid c t) ∧ r.write = false ∧ r.addr = x ∧ r.len = iSize w ∧ r.sx = bit w 13)) ∧
  (∀ (n : BenchId) (x : Nat) (c t w : Nat) (s : State), AtWord s n (tid c t) w → iOp w = 0x15 → (s.dev.bench n).dramPlace n (((s.dev.bench n).thr (tid c t)).greg (iRA w) + iOff w).toNat (iSize w) = .ok x →
    (s.dev.bench n).writeQueue ((tid c t) / 8) < 16 →
    RunsBoth (.std n c t []) n s (fun h b => h.fw = s.dev.hub.fw ∧ b.thr (tid c t) = ((s.dev.bench n).thr (tid c t)).after [] (((s.dev.bench n).thr (tid c t)).pc + 1) ((s.dev.bench n).slotOf (tid c t) + 8) ∧
      ∃ r ∈ b.dram.reqs, r.use = .store (tid c t) ∧ r.write = true ∧ r.addr = x ∧
        r.data = leBytes (iSize w) (((s.dev.bench n).thr (tid c t)).greg (iRD w)).toNat ∧ r.held = false)) ∧
  (∀ (n : BenchId) (x k : Nat) (e : Ticket) (c t w : Nat) (s : State), AtWord s n (tid c t) w → (((s.dev.bench n).thr (tid c t)).greg (iRA w)).toNat % 64 = 0 → (((s.dev.bench n).thr (tid c t)).greg (iRB w)).toNat % 64 = 0 → (((s.dev.bench n).thr (tid c t)).greg (iRB w)).toNat ≤ 0x3FFF →
    (s.dev.bench n).dramPlace n (((s.dev.bench n).thr (tid c t)).greg (iRA w)).toNat 64 = .ok x → ((s.dev.bench n).thr (tid c t)).freeTicket = some k →
    (iOp w = 0x16 → e = { kind := 0, addr := (((s.dev.bench n).thr (tid c t)).greg (iRA w)).toNat, slot := (((s.dev.bench n).thr (tid c t)).greg (iRB w)).toNat, done := none, ecc := false } →
      RunsBoth (.lddl n c t []) n s (fun h b => h.fw = s.dev.hub.fw ∧
        b.thr (tid c t) = (((s.dev.bench n).thr (tid c t)).putTicket k e).after [(iRD w, BitVec.ofNat 64 k)] (((s.dev.bench n).thr (tid c t)).pc + 1) ((s.dev.bench n).slotOf (tid c t) + 8) ∧
        ∃ r ∈ b.dram.reqs, r.use = .ticketLoad (tid c t) k ∧ r.write = false ∧ r.addr = x ∧ r.len = 64)) ∧
    (iOp w = 0x17 → e = { kind := 1, addr := (((s.dev.bench n).thr (tid c t)).greg (iRA w)).toNat, slot := (((s.dev.bench n).thr (tid c t)).greg (iRB w)).toNat, done := none, ecc := false } →
      RunsBoth (.stdl n c t []) n s (fun h b => h.fw = s.dev.hub.fw ∧
        b.thr (tid c t) = (((s.dev.bench n).thr (tid c t)).putTicket k e).after [(iRD w, BitVec.ofNat 64 k)] (((s.dev.bench n).thr (tid c t)).pc + 1) ((s.dev.bench n).slotOf (tid c t) + 8) ∧
        ∃ r ∈ b.dram.reqs, r.use = .ticketStore (tid c t) k ∧ r.write = true ∧ r.addr = x ∧
          r.data = (s.dev.bench n).bytes (sliceAddr (tid c t) + (((s.dev.bench n).thr (tid c t)).greg (iRB w)).toNat) 64)))

/-- Branches and jumps go to the word index that R279 gives and write only the link register. Rests on spec/09_engine_cores.md. -/
def Obligations.BranchesAndJumps : Prop :=
  (∀ (n : BenchId) (take : Bool) (pc : Nat) (c t w : Nat) (s : State), AtWord s n (tid c t) w →
    (iOp w = 0x20 ∧ take = decide (((s.dev.bench n).thr (tid c t)).greg (iRD w) = ((s.dev.bench n).thr (tid c t)).greg (iRA w)) ∨ iOp w = 0x21 ∧ take = decide (((s.dev.bench n).thr (tid c t)).greg (iRD w) ≠ ((s.dev.bench n).thr (tid c t)).greg (iRA w)) ∨
      iOp w = 0x22 ∧ take = decide ((((s.dev.bench n).thr (tid c t)).greg (iRD w)).toInt < (((s.dev.bench n).thr (tid c t)).greg (iRA w)).toInt) ∨ iOp w = 0x23 ∧ take = decide ((((s.dev.bench n).thr (tid c t)).greg (iRA w)).toInt ≤ (((s.dev.bench n).thr (tid c t)).greg (iRD w)).toInt) ∨
      iOp w = 0x24 ∧ take = decide ((((s.dev.bench n).thr (tid c t)).greg (iRD w)).toNat < (((s.dev.bench n).thr (tid c t)).greg (iRA w)).toNat) ∨
      iOp w = 0x25 ∧ take = decide ((((s.dev.bench n).thr (tid c t)).greg (iRA w)).toNat ≤ (((s.dev.bench n).thr (tid c t)).greg (iRD w)).toNat)) →
    ((pc : Int) = if take then (((s.dev.bench n).thr (tid c t)).pc : Int) + (BitVec.ofNat 16 w).toInt else ((s.dev.bench n).thr (tid c t)).pc + 1) → pc ≤ pcMax →
    (iOp w = 0x20 → Retires (.beq n c t []) n (tid c t) s [] pc (fun _ => False)) ∧
    (iOp w = 0x21 → Retires (.bne n c t []) n (tid c t) s [] pc (fun _ => False)) ∧
    (iOp w = 0x22 → Retires (.blt n c t []) n (tid c t) s [] pc (fun _ => False)) ∧
    (iOp w = 0x23 → Retires (.bge n c t []) n (tid c t) s [] pc (fun _ => False)) ∧
    (iOp w = 0x24 → Retires (.bltu n c t []) n (tid c t) s [] pc (fun _ => False)) ∧
    (iOp w = 0x25 → Retires (.bgeu n c t []) n (tid c t) s [] pc (fun _ => False))) ∧
  (∀ (n : BenchId) (pc : Int) (c t w : Nat) (s : State), AtWord s n (tid c t) w → pc = (((s.dev.bench n).thr (tid c t)).pc : Int) + (BitVec.ofNat 16 w).toInt → (pc < 0 ∨ (pcMax : Int) < pc) →
    (iOp w = 0x20 → ((s.dev.bench n).thr (tid c t)).greg (iRD w) = ((s.dev.bench n).thr (tid c t)).greg (iRA w) → Faults (.beq n c t []) n (tid c t) s 12) ∧
    (iOp w = 0x21 → ((s.dev.bench n).thr (tid c t)).greg (iRD w) ≠ ((s.dev.bench n).thr (tid c t)).greg (iRA w) → Faults (.bne n c t []) n (tid c t) s 12) ∧
    (iOp w = 0x22 → (((s.dev.bench n).thr (tid c t)).greg (iRD w)).toInt < (((s.dev.bench n).thr (tid c t)).greg (iRA w)).toInt → Faults (.blt n c t []) n (tid c t) s 12) ∧
    (iOp w = 0x23 → (((s.dev.bench n).thr (tid c t)).greg (iRA w)).toInt ≤ (((s.dev.bench n).thr (tid c t)).greg (iRD w)).toInt → Faults (.bge n c t []) n (tid c t) s 12) ∧
    (iOp w = 0x24 → (((s.dev.bench n).thr (tid c t)).greg (iRD w)).toNat < (((s.dev.bench n).thr (tid c t)).greg (iRA w)).toNat → Faults (.bltu n c t []) n (tid c t) s 12) ∧
    (iOp w = 0x25 → (((s.dev.bench n).thr (tid c t)).greg (iRA w)).toNat ≤ (((s.dev.bench n).thr (tid c t)).greg (iRD w)).toNat → Faults (.bgeu n c t []) n (tid c t) s 12)) ∧
  (∀ (n : BenchId) (pc : Int) (c t w : Nat) (s : State), AtWord s n (tid c t) w → iOp w = 0x26 → pc = (((s.dev.bench n).thr (tid c t)).pc : Int) + (BitVec.ofNat 21 w).toInt → (pc < 0 ∨ (pcMax : Int) < pc) →
    Faults (.jal n c t []) n (tid c t) s 12) ∧
  (∀ (n : BenchId) (c t w : Nat) (s : State), AtWord s n (tid c t) w → iOp w = 0x27 → pcMax < (((s.dev.bench n).thr (tid c t)).greg (iRA w) + (BitVec.ofNat 16 w).signExtend 64).toNat → Faults (.jalr n c t []) n (tid c t) s 12) ∧
  (∀ (n : BenchId) (pc : Nat) (c t w : Nat) (s : State), AtWord s n (tid c t) w → iOp w = 0x26 → (pc : Int) = (((s.dev.bench n).thr (tid c t)).pc : Int) + (BitVec.ofNat 21 w).toInt → pc ≤ pcMax →
    Retires (.jal n c t []) n (tid c t) s [(iRD w, BitVec.ofNat 64 (((s.dev.bench n).thr (tid c t)).pc + 1))] pc (fun _ => False)) ∧
  (∀ (n : BenchId) (pc : Nat) (c t w : Nat) (s : State), AtWord s n (tid c t) w → iOp w = 0x27 → pc = (((s.dev.bench n).thr (tid c t)).greg (iRA w) + (BitVec.ofNat 16 w).signExtend 64).toNat → pc ≤ pcMax →
    Retires (.jalr n c t []) n (tid c t) s [(iRD w, BitVec.ofNat 64 (((s.dev.bench n).thr (tid c t)).pc + 1))] pc (fun _ => False))

/-- CHRD, CHWR, FORK, JOIN, WACQ, WREL, WAITC, MFS and NOTICE: completion at once, or the wait. Rests on spec/10_threads_channels_wedges.md spec/09_engine_cores.md. -/
def Obligations.ChannelsThreadsAndWedges : Prop :=
  (∀ (n : BenchId) (k : Nat) (x : DWord) (m : List DWord) (more : List (List DWord)) (c t w : Nat) (s : State), AtWord s n (tid c t) w → iOp w = 0x30 → getBits w 0 8 = 0 →
    k = getBits w 8 8 → 16 ≤ k → 0 < (s.dev.bench n).chDepth k → (s.dev.bench n).quiet → ((s.dev.bench n).thr (tid c t)).reading.find? (fun r => r.1 = k) = none →
    (s.dev.bench n).chMsgs k = (x :: m) :: more →
    RunsBoth (.chrd n c t []) n s (fun h b => h.fw = s.dev.hub.fw ∧ b.mem = (s.dev.bench n).mem ∧ (b.thr (tid c t)).pc = ((s.dev.bench n).thr (tid c t)).pc + 1 ∧
      (b.thr (tid c t)).wait = .none ∧ b.chMsgs k = more ∧
      (b.thr (tid c t)).greg (iRA w) = (if iRA w = 0 then 0 else if m = [] then 1 else 0) ∧
      (iRD w ≠ iRA w → (b.thr (tid c t)).greg (iRD w) = if iRD w = 0 then 0 else x))) ∧
  (∀ (n : BenchId) (k : Nat) (c t w : Nat) (s : State), AtWord s n (tid c t) w → iOp w = 0x30 → getBits w 0 8 = 0 → k = getBits w 8 8 → 16 ≤ k → 0 < (s.dev.bench n).chDepth k → (s.dev.bench n).quiet →
    ((s.dev.bench n).thr (tid c t)).reading.find? (fun r => r.1 = k) = none → (s.dev.bench n).chMsgs k = [] →
    RunsBoth (.chrd n c t []) n s (fun h b => h.fw = s.dev.hub.fw ∧ b.mem = (s.dev.bench n).mem ∧ (b.thr (tid c t)).wait = .chrd k ∧
      (b.thr (tid c t)).pc = ((s.dev.bench n).thr (tid c t)).pc ∧ (b.thr (tid c t)).regs = ((s.dev.bench n).thr (tid c t)).regs)) ∧
  (∀ (n : BenchId) (k : Nat) (c t w : Nat) (s : State), AtWord s n (tid c t) w → iOp w = 0x31 → getBits w 1 7 = 0 → iRA w = 0 → k = getBits w 8 8 → 16 ≤ k → 0 < (s.dev.bench n).chDepth k →
    (s.dev.bench n).quiet → ((s.dev.bench n).thr (tid c t)).staged = [] → bit w 0 = false →
    RunsBoth (.chwr n c t []) n s (fun h b => h.fw = s.dev.hub.fw ∧ b.mem = (s.dev.bench n).mem ∧ (b.thr (tid c t)).pc = ((s.dev.bench n).thr (tid c t)).pc + 1 ∧
      (b.thr (tid c t)).staged = [((s.dev.bench n).thr (tid c t)).greg (iRD w)] ∧ (b.thr (tid c t)).stagedCh = k ∧ b.chMsgs k = (s.dev.bench n).chMsgs k)) ∧
  (∀ (n : BenchId) (k : Nat) (c t w : Nat) (s : State), AtWord s n (tid c t) w → iOp w = 0x31 → getBits w 1 7 = 0 → iRA w = 0 → k = getBits w 8 8 → 16 ≤ k → (s.dev.bench n).quiet →
    ((s.dev.bench n).thr (tid c t)).staged = [] → bit w 0 = true → (s.dev.bench n).chWords k + 1 ≤ (s.dev.bench n).chDepth k →
    RunsBoth (.chwr n c t []) n s (fun h b => h.fw = s.dev.hub.fw ∧ b.mem = (s.dev.bench n).mem ∧ (b.thr (tid c t)).pc = ((s.dev.bench n).thr (tid c t)).pc + 1 ∧
      (b.thr (tid c t)).wait = .none ∧ (b.thr (tid c t)).staged = [] ∧ b.chMsgs k = (s.dev.bench n).chMsgs k ++ [[((s.dev.bench n).thr (tid c t)).greg (iRD w)]])) ∧
  (∀ (n : BenchId) (u pc : Nat) (c t w : Nat) (s : State), AtWord s n (tid c t) w → iOp w = 0x32 → (List.range 8).find? (fun u => ((s.dev.bench n).thr (8 * ((tid c t) / 8) + u)).st = 0) = some u →
    (pc : Int) = (((s.dev.bench n).thr (tid c t)).pc : Int) + (BitVec.ofNat 16 w).toInt → pc ≤ pcMax →
    RunsBoth (.fork n c t []) n s (fun h b => h.fw = s.dev.hub.fw ∧ (b.thr (tid c t)).pc = ((s.dev.bench n).thr (tid c t)).pc + 1 ∧
      (b.thr (tid c t)).greg (iRD w) = (if iRD w = 0 then 0 else BitVec.ofNat 64 u) ∧ (b.thr (8 * ((tid c t) / 8) + u)).st = 1 ∧
      (b.thr (8 * ((tid c t) / 8) + u)).pc = pc ∧ (b.thr (8 * ((tid c t) / 8) + u)).parent = some (tid c t) ∧
      (b.thr (8 * ((tid c t) / 8) + u)).greg 1 = ((s.dev.bench n).thr (tid c t)).greg (iRA w))) ∧
  (∀ (n : BenchId) (c t w : Nat) (s : State), AtWord s n (tid c t) w → iOp w = 0x33 → (((s.dev.bench n).thr (tid c t)).greg (iRA w)).toNat < 256 → (s.dev.bench n).quiet →
    (∀ u, u < 8 → bit (((s.dev.bench n).thr (tid c t)).greg (iRA w)).toNat u = true → (s.dev.bench n).liveChild (tid c t) u = false) →
    RunsBoth (.join n c t []) n s (fun h b => h.fw = s.dev.hub.fw ∧ b.mem = (s.dev.bench n).mem ∧ (b.thr (tid c t)).pc = ((s.dev.bench n).thr (tid c t)).pc + 1 ∧
      (b.thr (tid c t)).wait = .none ∧ (b.thr (tid c t)).halted = Nat.land ((s.dev.bench n).thr (tid c t)).halted (255 - (((s.dev.bench n).thr (tid c t)).greg (iRA w)).toNat) ∧
      (b.thr (tid c t)).greg (iRD w) = (if iRD w = 0 then 0
        else BitVec.ofNat 64 (Nat.land ((s.dev.bench n).thr (tid c t)).halted (((s.dev.bench n).thr (tid c t)).greg (iRA w)).toNat + 256 * Nat.land ((s.dev.bench n).thr (tid c t)).termed (((s.dev.bench n).thr (tid c t)).greg (iRA w)).toNat)))) ∧
  (∀ (n : BenchId) (k : Nat) (c t w : Nat) (s : State), AtWord s n (tid c t) w → iOp w = 0x34 → k = (((s.dev.bench n).thr (tid c t)).greg (iRA w) + iSimm w).toNat → k ≤ 255 → (s.dev.bench n).wedge k = none →
    Retires (.wacq n c t []) n (tid c t) s [(iRD w, 0)] (((s.dev.bench n).thr (tid c t)).pc + 1) (fun _ => False) ∧
    ((s.dev.bench n).quiet → RunsBoth (.wacq n c t []) n s (fun _ b => b.wedge k = some { holder := (tid c t), waiters := [] }))) ∧
  (∀ (n : BenchId) (k : Nat) (x : Wedge) (c t w : Nat) (s : State), AtWord s n (tid c t) w → iOp w = 0x34 → k = (((s.dev.bench n).thr (tid c t)).greg (iRA w) + iSimm w).toNat → k ≤ 255 → (s.dev.bench n).wedge k = some x →
    x.holder ≠ (tid c t) → (s.dev.bench n).quiet →
    RunsBoth (.wacq n c t []) n s (fun h b => h.fw = s.dev.hub.fw ∧ b.mem = (s.dev.bench n).mem ∧ (b.thr (tid c t)).wait = .wacq k ∧
      (b.thr (tid c t)).pc = ((s.dev.bench n).thr (tid c t)).pc ∧ b.wedge k = some { x with waiters := x.waiters ++ [((tid c t), (s.dev.bench n).engCycle)] })) ∧
  (∀ (n : BenchId) (k : Nat) (c t w : Nat) (s : State), AtWord s n (tid c t) w → iOp w = 0x35 → k = (((s.dev.bench n).thr (tid c t)).greg (iRA w) + iSimm w).toNat → k ≤ 255 →
    (s.dev.bench n).wedge k = some { holder := (tid c t), waiters := [] } →
    Retires (.wrel n c t []) n (tid c t) s [(iRD w, 0)] (((s.dev.bench n).thr (tid c t)).pc + 1) (fun _ => False) ∧
    ((s.dev.bench n).quiet → RunsBoth (.wrel n c t []) n s (fun _ b => b.wedge k = none))) ∧
  (∀ (n : BenchId) (k : Nat) (c t w : Nat) (s : State), AtWord s n (tid c t) w → iOp w = 0x35 → k = (((s.dev.bench n).thr (tid c t)).greg (iRA w) + iSimm w).toNat → k ≤ 255 → (s.dev.bench n).wedge k = none →
    Retires (.wrel n c t []) n (tid c t) s [(iRD w, BitVec.ofNat 64 (2 ^ 63))] (((s.dev.bench n).thr (tid c t)).pc + 1) (fun _ => False)) ∧
  (∀ (n : BenchId) (k st cnt : Nat) (x : Ticket) (c t w : Nat) (s : State), AtWord s n (tid c t) w → iOp w = 0x3B → (((s.dev.bench n).thr (tid c t)).greg (iRA w)).toNat = k → k < 8 → ((s.dev.bench n).thr (tid c t)).ticket? k = some x →
    x.done = some (st, cnt) → x.ecc = false → (s.dev.bench n).quiet →
    RunsBoth (.waitc n c t []) n s (fun h b => h.fw = s.dev.hub.fw ∧ b.mem = (s.dev.bench n).mem ∧ (b.thr (tid c t)).pc = ((s.dev.bench n).thr (tid c t)).pc + 1 ∧
      (b.thr (tid c t)).wait = .none ∧ (b.thr (tid c t)).ticket? k = none ∧
      (b.thr (tid c t)).greg (iRD w) = (if iRD w = 0 then 0 else BitVec.ofNat 64 (st % 256 + 2 ^ 32 * cnt)))) ∧
  (∀ (n : BenchId) (c t w : Nat) (s : State), AtWord s n (tid c t) w → iOp w = 0x3C → ∀ x ∈ ([(0, (tid c t) % 8), (1, (tid c t) / 8), (2, n.val), (3, (s.dev.bench n).slotOf (tid c t)), (4, (s.dev.bench n).power.profile)] :
      List (Nat × Nat)), getBits w 0 11 = x.1 →
    Retires (.mfs n c t []) n (tid c t) s [(iRD w, BitVec.ofNat 64 x.2)] (((s.dev.bench n).thr (tid c t)).pc + 1) (fun _ => False)) ∧
  (∀ (n : BenchId) (c t w : Nat) (s : State), AtWord s n (tid c t) w → iOp w = 0x3D → (s.dev.bench n).quiet → (s.dev.bench n).eng.notices.length < 64 →
    RunsBoth (.notice n c t []) n s (fun h b => h.fw = s.dev.hub.fw ∧ b.mem = (s.dev.bench n).mem ∧ (b.thr (tid c t)).pc = ((s.dev.bench n).thr (tid c t)).pc + 1 ∧
      (b.thr (tid c t)).wait = .none ∧ (b.thr (tid c t)).regs = ((s.dev.bench n).thr (tid c t)).regs ∧
      b.eng.notices = (s.dev.bench n).eng.notices ++ [(noticeWord (getBits w 0 8) false (tid c t) ((s.dev.bench n).thr (tid c t)).pc, ((s.dev.bench n).thr (tid c t)).greg (iRA w))]))

/-- TOP, HOP and HSUB hand over their operations; TRAP and an OP not listed fault; HALT ends the thread. Rests on spec/09_engine_cores.md spec/10_threads_channels_wedges.md. -/
def Obligations.OperationsAndEndsOfThreads : Prop :=
  (∀ (n : BenchId) (c t w : Nat) (s : State), AtWord s n (tid c t) w → iOp w = 0x38 → iFN w % 8 ≠ 7 → (((s.dev.bench n).thr (tid c t)).greg (iRA w)).toNat % 16 = 0 → (((s.dev.bench n).thr (tid c t)).greg (iRA w)).toNat + 80 ≤ 0x4000 → (s.dev.bench n).quiet →
    (s.dev.bench n).mt.opq.length < 16 → (∀ x ∈ (s.dev.bench n).mt.opq, x.src ≠ .thread (tid c t)) →
    RunsBoth (.top n c t []) n s (fun h b => h.fw = s.dev.hub.fw ∧ b.mem = (s.dev.bench n).mem ∧ (b.thr (tid c t)).wait = .top ∧
      (b.thr (tid c t)).pc = ((s.dev.bench n).thr (tid c t)).pc ∧ (b.thr (tid c t)).destReg = iRD w ∧ ∃ o, b.mt.opq = (s.dev.bench n).mt.opq ++ [o] ∧ o.src = .thread (tid c t) ∧
        o.op = iFN w % 8 ∧ o.image = (s.dev.bench n).bytes (sliceAddr (tid c t) + (((s.dev.bench n).thr (tid c t)).greg (iRA w)).toNat) 64 ∧
        o.expect = (s.dev.bench n).bytes (sliceAddr (tid c t) + (((s.dev.bench n).thr (tid c t)).greg (iRA w)).toNat + 64) 12 ∧ o.slot = (s.dev.bench n).le (sliceAddr (tid c t) + (((s.dev.bench n).thr (tid c t)).greg (iRA w)).toNat + 76) 2 ∧
        o.dst = (s.dev.bench n).le (sliceAddr (tid c t) + (((s.dev.bench n).thr (tid c t)).greg (iRA w)).toNat + 78) 2 ∧ o.blk = (((s.dev.bench n).thr (tid c t)).greg (iRA w)).toNat ∧ o.res = none)) ∧
  (∀ (n : BenchId) (hd a : Nat) (c t w : Nat) (s : State), AtWord s n (tid c t) w → iOp w = 0x39 → iFN w % 8 = 4 → hd = (((s.dev.bench n).thr (tid c t)).greg (iRA w)).toNat % 2 ^ 32 → a = recordAddr (hPool hd) (hOff hd) →
    (s.dev.bench n).checkHandle hd = 0 → (s.dev.bench n).recState a = 1 → (s.dev.bench n).recOwner a = 0x10 + (tid c t) / 8 →
    RunsBoth (.hop n c t []) n s (fun h b => h.fw = s.dev.hub.fw ∧
      b.thr (tid c t) = ((s.dev.bench n).thr (tid c t)).after [(iRD w, BitVec.ofNat 64 hd)] (((s.dev.bench n).thr (tid c t)).pc + 1) ((s.dev.bench n).slotOf (tid c t) + 24) ∧ ((s.dev.bench n).quiet → b.mem = ((s.dev.bench n).freeChain hd).mem))) ∧
  (∀ (n : BenchId) (hd : Nat) (c t w : Nat) (s : State), AtWord s n (tid c t) w → iOp w = 0x39 → iFN w % 8 = 4 → hd = (((s.dev.bench n).thr (tid c t)).greg (iRA w)).toNat % 2 ^ 32 → (s.dev.bench n).checkHandle hd = 5 →
    RunsBoth (.hop n c t []) n s (fun h b => h.fw = s.dev.hub.fw ∧
      b.thr (tid c t) = ((s.dev.bench n).thr (tid c t)).after [(iRD w, BitVec.ofNat 64 (2 ^ 32 * 5))] (((s.dev.bench n).thr (tid c t)).pc + 1) ((s.dev.bench n).slotOf (tid c t) + 24) ∧ ((s.dev.bench n).quiet → b.mem = (s.dev.bench n).mem))) ∧
  (∀ (n : BenchId) (c t w : Nat) (s : State), AtWord s n (tid c t) w → iOp w = 0x39 → iFN w % 8 = 1 → iX5 w % 8 < 5 → (s.dev.bench n).mayTake .engine (iX5 w % 8) = false →
    RunsBoth (.hop n c t []) n s (fun h b => h.fw = s.dev.hub.fw ∧
      b.thr (tid c t) = ((s.dev.bench n).thr (tid c t)).after [(iRD w, BitVec.ofNat 64 (2 ^ 32))] (((s.dev.bench n).thr (tid c t)).pc + 1) ((s.dev.bench n).slotOf (tid c t) + 24) ∧ ((s.dev.bench n).quiet → b.mem = (s.dev.bench n).mem))) ∧
  (∀ (n : BenchId) (k ch : Nat) (c t w : Nat) (s : State), AtWord s n (tid c t) w → iOp w = 0x3A → (((s.dev.bench n).thr (tid c t)).greg (iRA w)).toNat % 64 = 0 → (((s.dev.bench n).thr (tid c t)).greg (iRA w)).toNat ≤ 0x3FFF → ((s.dev.bench n).thr (tid c t)).freeTicket = some k →
    ch = getBits ((s.dev.bench n).le (sliceAddr (tid c t) + (((s.dev.bench n).thr (tid c t)).greg (iRA w)).toNat) 4) 12 6 → 8 ≤ ch → (s.dev.bench n).flag (R.haul_HAUL_CH_CFG_EN (ch - 8)) = true →
    (s.dev.bench n).fld (R.haul_HAUL_CH_CFG_CORE (ch - 8)) = (tid c t) / 8 → ((s.dev.bench n).chanCmds ch).length < 16 → (s.dev.bench n).quiet →
    RunsBoth (.hsub n c t []) n s (fun h b => h.fw = s.dev.hub.fw ∧ b.mem = (s.dev.bench n).mem ∧ (b.thr (tid c t)).pc = ((s.dev.bench n).thr (tid c t)).pc + 1 ∧
      (b.thr (tid c t)).wait = .none ∧ (b.thr (tid c t)).greg (iRD w) = (if iRD w = 0 then 0 else BitVec.ofNat 64 k) ∧
      (b.thr (tid c t)).ticket? k = some { kind := 2, addr := 0, slot := (((s.dev.bench n).thr (tid c t)).greg (iRA w)).toNat, done := none, ecc := false } ∧
      (b.chanCmds ch).length = ((s.dev.bench n).chanCmds ch).length + 1)) ∧
  (∀ (n : BenchId) (c t w : Nat) (s : State), AtWord s n (tid c t) w → iOp w = 0x3E → Faults (.trap n c t []) n (tid c t) s 14) ∧
  (∀ (n : BenchId) (c t w : Nat) (s : State), AtWord s n (tid c t) w → listedOps.contains (iOp w) = false → Faults (.illegalInstruction n c t []) n (tid c t) s 1) ∧
  (∀ (n : BenchId) (p : Nat) (c t w : Nat) (s : State), AtWord s n (tid c t) w → iOp w = 0x3F → (s.dev.bench n).quiet → ((s.dev.bench n).thr (tid c t)).reading = [] → ((s.dev.bench n).thr (tid c t)).parent = some p → p ≠ (tid c t) →
    (∀ x ∈ (s.dev.bench n).eng.wedges, x.2.map (·.holder) ≠ some (tid c t)) →
    RunsBoth (.halt n c t []) n s (fun h b => h.fw = s.dev.hub.fw ∧ b.mem = (s.dev.bench n).mem ∧ b.pkts = (s.dev.bench n).pkts ∧
      b.thr (tid c t) = Thread.free ∧ (b.thr p).halted = Nat.lor ((s.dev.bench n).thr p).halted (2 ^ ((tid c t) % 8)))) ∧
  (∀ (n : BenchId) (c t w : Nat) (s : State), AtWord s n (tid c t) w → iOp w = 0x3F → (s.dev.bench n).quiet → ((s.dev.bench n).thr (tid c t)).reading = [] → ((s.dev.bench n).thr (tid c t)).parent = none →
    (∀ x ∈ (s.dev.bench n).eng.wedges, x.2.map (·.holder) ≠ some (tid c t)) →
    RunsBoth (.halt n c t []) n s (fun h b => h.fw = s.dev.hub.fw ∧ b.mem = (s.dev.bench n).mem ∧ b.pkts = (s.dev.bench n).pkts ∧ b.thr (tid c t) = Thread.free))

/-- Operands out of range fault under their codes of R286, with no register, store or operation. Rests on spec/09_engine_cores.md. -/
def Obligations.FaultsHaveNoEffect : Prop :=
  (∀ (n : BenchId) (a : Nat) (c t w : Nat) (s : State), AtWord s n (tid c t) w → a = (((s.dev.bench n).thr (tid c t)).greg (iRA w) + iOff w).toNat → a % iSize w ≠ 0 →
    (iOp w = 0x10 → Faults (.ldl n c t []) n (tid c t) s 4) ∧ (iOp w = 0x11 → Faults (.stl n c t []) n (tid c t) s 4) ∧
    (iOp w = 0x12 → Faults (.ldb n c t []) n (tid c t) s 4) ∧ (iOp w = 0x13 → Faults (.stb n c t []) n (tid c t) s 4) ∧
    (iOp w = 0x14 → Faults (.ldd n c t []) n (tid c t) s 4) ∧ (iOp w = 0x15 → Faults (.std n c t []) n (tid c t) s 4)) ∧
  (∀ (n : BenchId) (a : Nat) (c t w : Nat) (s : State), AtWord s n (tid c t) w → a = (((s.dev.bench n).thr (tid c t)).greg (iRA w) + iOff w).toNat → a % iSize w = 0 → 0x3FFF < a →
    (iOp w = 0x10 → Faults (.ldl n c t []) n (tid c t) s 3) ∧ (iOp w = 0x11 → Faults (.stl n c t []) n (tid c t) s 3)) ∧
  (∀ (n : BenchId) (a : Nat) (c t w : Nat) (s : State), AtWord s n (tid c t) w → a = (((s.dev.bench n).thr (tid c t)).greg (iRA w) + iOff w).toNat → a % iSize w = 0 → 0x200000000000 ≤ a →
    (iOp w = 0x12 → Faults (.ldb n c t []) n (tid c t) s 5) ∧ (iOp w = 0x13 → Faults (.stb n c t []) n (tid c t) s 5) ∧
    (iOp w = 0x14 → Faults (.ldd n c t []) n (tid c t) s 5) ∧ (iOp w = 0x15 → Faults (.std n c t []) n (tid c t) s 5)) ∧
  (∀ (n : BenchId) (a : Nat) (c t w : Nat) (s : State), AtWord s n (tid c t) w → a = (((s.dev.bench n).thr (tid c t)).greg (iRA w) + iOff w).toNat → a % iSize w = 0 → a < 0x200000000000 → ownOffset n a = none →
    (a < eportBase n ∨ eportBase n + 0x40 ≤ a) →
    (iOp w = 0x12 → Faults (.ldb n c t []) n (tid c t) s 6) ∧ (iOp w = 0x13 → Faults (.stb n c t []) n (tid c t) s 6) ∧
    (iOp w = 0x14 → Faults (.ldd n c t []) n (tid c t) s 6) ∧ (iOp w = 0x15 → Faults (.std n c t []) n (tid c t) s 6)) ∧
  (∀ (n : BenchId) (c t w : Nat) (s : State), AtWord s n (tid c t) w → iX5 w = 0 → iFN w = 0 → (((s.dev.bench n).thr (tid c t)).greg (iRA w)).toNat % 8 ≠ 0 →
    (iOp w = 0x18 → Faults (.aadd n c t []) n (tid c t) s 4) ∧ (iOp w = 0x19 → Faults (.acas n c t []) n (tid c t) s 4)) ∧
  (∀ (n : BenchId) (o : Nat) (c t w : Nat) (s : State), AtWord s n (tid c t) w → iX5 w = 0 → iFN w = 0 → (((s.dev.bench n).thr (tid c t)).greg (iRA w)).toNat % 8 = 0 → ownOffset n (((s.dev.bench n).thr (tid c t)).greg (iRA w)).toNat = some o →
    (s.dev.bench n).regionOf o 8 ≠ .scratch →
    (iOp w = 0x18 → Faults (.aadd n c t []) n (tid c t) s 7) ∧ (iOp w = 0x19 → Faults (.acas n c t []) n (tid c t) s 7)) ∧
  (∀ (n : BenchId) (c t w : Nat) (s : State), AtWord s n (tid c t) w → iOp w = 0x3B → (8 ≤ (((s.dev.bench n).thr (tid c t)).greg (iRA w)).toNat ∨ ((s.dev.bench n).thr (tid c t)).ticket? (((s.dev.bench n).thr (tid c t)).greg (iRA w)).toNat = none) → Faults (.waitc n c t []) n (tid c t) s 11) ∧
  (∀ (n : BenchId) (c t w : Nat) (s : State), AtWord s n (tid c t) w → iOp w = 0x3C → 4 < getBits w 0 11 → Faults (.mfs n c t []) n (tid c t) s 2) ∧
  (∀ (n : BenchId) (c t w : Nat) (s : State), AtWord s n (tid c t) w → 255 < (((s.dev.bench n).thr (tid c t)).greg (iRA w) + iSimm w).toNat →
    (iOp w = 0x34 → Faults (.wacq n c t []) n (tid c t) s 2) ∧ (iOp w = 0x35 → Faults (.wrel n c t []) n (tid c t) s 2))

/-- DRAM data and tickets return; cores start and stop; threads end, resume, stop and step; channels are sized. Rests on spec/09_engine_cores.md spec/10_threads_channels_wedges.md. -/
def Obligations.ReturnsAndThreadControl : Prop :=
  (∀ (n : BenchId) (i : Nat) (r : DramReq) (l : List DramReq) (s : State), (s.dev.bench n).live = true → (s.dev.bench n).dram.reqs = r :: l → r.done = true → r.use = .load i → r.bad = false →
    Runs (.dramLoadReturn n) n s (fun b => b.thr i = { ((s.dev.bench n).thr i).setG ((s.dev.bench n).thr i).destReg
      (if r.sx then ((BitVec.ofNat 64 (leNat r.data)).extractLsb' 0 (8 * r.len)).signExtend 64 else BitVec.ofNat 64 (leNat r.data)) with
        pc := ((s.dev.bench n).thr i).pc + 1, wait := .none, dbg := ((s.dev.bench n).thr i).dbg || ((s.dev.bench n).thr i).stepped, stepped := false,
        next := max ((s.dev.bench n).thr i).next ((s.dev.bench n).engCycle + 1) })) ∧
  (∀ (n : BenchId) (i k : Nat) (x : Ticket) (r : DramReq) (l : List DramReq) (s : State), (s.dev.bench n).live = true → (s.dev.bench n).dram.reqs = r :: l → r.done = true →
    r.bad = false → ((s.dev.bench n).thr i).ticket? k = some x → ((s.dev.bench n).thr i).wait = .none → (s.dev.bench n).quiet →
    (r.use = .ticketStore i k → Runs (.ticketComplete n) n s (fun b => b.mem = (s.dev.bench n).mem ∧ r ∉ b.dram.reqs ∧
      (b.thr i).ticket? k = some { x with done := some (0, 64), ecc := false })) ∧
    (r.use = .ticketLoad i k → Runs (.ticketComplete n) n s (fun b => r ∉ b.dram.reqs ∧
      b.mem = ((s.dev.bench n).setBytes (sliceAddr i + x.slot) r.data).mem ∧
      (b.thr i).ticket? k = some { x with done := some (0, 64), ecc := false }))) ∧
  (∀ (n : BenchId) (c : Nat) (s : State), (s.dev.bench n).live = true → c < 8 → (s.dev.bench n).coreState c = 0 → (c = 0 ∨ (s.dev.bench n).coreState 0 = 1) → (s.dev.bench n).quiet →
    Runs (.coreStart n c) n s (fun b => b.coreState c = 1 ∧ b.mem = (s.dev.bench n).mem ∧
      b.thr (8 * c) = { Thread.free with st := 1, pc := (s.dev.bench n).fld (R.engine_CORE_ENTRY_ENTRY c) } ∧
      (∀ t, 0 < t → t < 8 → b.thr (8 * c + t) = Thread.free) ∧
      ∀ j, j / 8 ≠ c → b.thr j = (s.dev.bench n).thr j)) ∧
  (∀ (n : BenchId) (c : Nat) (s : State), (s.dev.bench n).live = true → c < 8 → (s.dev.bench n).coreState c = 0 → c ≠ 0 → (s.dev.bench n).coreState 0 ≠ 1 → (s.dev.bench n).eng.threads = [] → (s.dev.bench n).quiet →
    Leaves (.coreStart n c) n s ((s.dev.bench n).tick T.CFG_REFUSED)) ∧
  (∀ (n : BenchId) (c : Nat) (s : State), (s.dev.bench n).live = true → c < 8 → c ≠ 0 → (s.dev.bench n).coreState c = 1 → (s.dev.bench n).quiet → (s.dev.bench n).eng.wedges = [] →
    Runs (.coreStop n c) n s (fun b => b.coreState c = 2 ∧ ∀ t, t < 8 → (b.thr (8 * c + t)).st = 0)) ∧
  (∀ (n : BenchId) (c : Nat) (s : State), (s.dev.bench n).live = true → c < 8 → (s.dev.bench n).coreState c = 2 →
    Leaves (.coreStopWalk n c) n s
      (if (s.dev.bench n).coreIdle c = true then ((s.dev.bench n).stopWalk c).setFld (R.engine_CORE_STATUS_STATE c) 0 else (s.dev.bench n))) ∧
  (∀ (n : BenchId) (c t p : Nat) (s : State), (s.dev.bench n).live = true → c < 8 → t < 8 → ((s.dev.bench n).thr (8 * c + t)).st ≠ 0 → (s.dev.bench n).quiet → (s.dev.bench n).eng.wedges = [] →
    ((s.dev.bench n).thr (8 * c + t)).parent = some p → p ≠ 8 * c + t →
    Runs (.threadTerminate n c t) n s (fun b => b.thr (8 * c + t) = Thread.free ∧ b.mem = (s.dev.bench n).mem ∧
      (b.thr p).termed = Nat.lor ((s.dev.bench n).thr p).termed (2 ^ t))) ∧
  (∀ (n : BenchId) (c t : Nat) (s : State), (s.dev.bench n).live = true → c < 8 → t < 8 → ((s.dev.bench n).thr (8 * c + t)).st = 2 → (s.dev.bench n).quiet →
    Runs (.threadResume n c t) n s (fun b => b.thr (8 * c + t) = { (s.dev.bench n).thr (8 * c + t) with st := 1, next := max ((s.dev.bench n).thr (8 * c + t)).next ((s.dev.bench n).engCycle + 1) } ∧
      b.mem = (s.dev.bench n).mem ∧
      ∀ j, j ≠ 8 * c + t → b.thr j = (s.dev.bench n).thr j)) ∧
  (∀ (n : BenchId) (k base depth : Nat) (s : State), (s.dev.bench n).live = true → 16 ≤ k → k < 256 → base < 512 → depth < 1024 → base + depth ≤ 512 → (s.dev.bench n).chWords k = 0 →
    (s.dev.bench n).eng.blocked = [] →
    (∀ j, 16 ≤ j → j < 256 → j ≠ k → (s.dev.bench n).chDepth j = 0 ∨ (s.dev.bench n).chBase j + (s.dev.bench n).chDepth j ≤ 8 * base ∨
      8 * base + 8 * depth ≤ (s.dev.bench n).chBase j) →
    Leaves (.chanCfgWrite n k (BitVec.ofNat 32 (base + 2 ^ 16 * depth))) n s
      (((s.dev.bench n).setFld (R.engine_CHAN_CFG_BASE (k - 16)) base).setFld (R.engine_CHAN_CFG_DEPTH (k - 16)) depth)) ∧
  (∀ (n : BenchId) (c : Nat) (k : Pkt) (s : State), (s.dev.bench n).live = true → c < 8 → (s.dev.bench n).pkts = [k] → k.loc = .inbox c → k.ended = true → k.spoil = 0 →
    k.verdictPending = false → (s.dev.bench n).eng.inboxMsgs = [] → (s.dev.bench n).eng.threads = [] → (s.dev.bench n).quiet → (s.dev.bench n).rings.sends = [] →
    Runs (.inboxDeliver n c) n s (fun b => b.eng.inboxMsgs = [(c, k.id, (s.dev.bench n).inboxWords k)] ∧ b.pkts = [k])) ∧
  (∀ (n : BenchId) (s : State), (s.dev.bench n).live = true → (s.dev.bench n).stallCond = true → (s.dev.bench n).flag R.engine_STALL_STATUS_STALLED = false →
    (∀ i ∈ (s.dev.bench n).eng.blocked, ∃ w, ((s.dev.bench n).thr i).wait = .wacq w) →
    Runs (.stallWatch n) n s (fun b => b.fld R.engine_STALL_STATUS_FIRED = 1 ∧
      b.tally T.STALL_WATCH = min tallyMax ((s.dev.bench n).tally T.STALL_WATCH + 1))) ∧
  (∀ (n : BenchId) (c t : Nat) (s : State), (s.dev.bench n).live = true → c < 8 → t < 8 → s.dev.hub.debugOn n = true → (s.dev.bench n).quiet → ((s.dev.bench n).thr (8 * c + t)).st = 1 →
    ((s.dev.bench n).thr (8 * c + t)).wait = .none →
    RunsBoth (.dbgStop n true c (2 ^ t)) n s (fun h b => h.fw = s.dev.hub.fw ∧ b.mem = (s.dev.bench n).mem ∧
      b.thr (8 * c + t) = { (s.dev.bench n).thr (8 * c + t) with dbg := true, step := false, stepped := false } ∧
      ∀ j, j ≠ 8 * c + t → b.thr j = (s.dev.bench n).thr j) ∧
    RunsBoth (.dbgResume n true c (2 ^ t)) n s (fun h b => h.fw = s.dev.hub.fw ∧ b.mem = (s.dev.bench n).mem ∧
      b.thr (8 * c + t) =
        { (s.dev.bench n).thr (8 * c + t) with dbg := false, step := false, stepped := false, next := max ((s.dev.bench n).thr (8 * c + t)).next ((s.dev.bench n).engCycle + 1) } ∧
      ∀ j, j ≠ 8 * c + t → b.thr j = (s.dev.bench n).thr j) ∧
    (((s.dev.bench n).thr (8 * c + t)).dbg = true →
      RunsBoth (.dbgStep n true c (2 ^ t)) n s (fun h b => h.fw = s.dev.hub.fw ∧ b.mem = (s.dev.bench n).mem ∧
        b.thr (8 * c + t) =
          { (s.dev.bench n).thr (8 * c + t) with dbg := false, step := true, next := max ((s.dev.bench n).thr (8 * c + t)).next ((s.dev.bench n).engCycle + 1) } ∧
        ∀ j, j ≠ 8 * c + t → b.thr j = (s.dev.bench n).thr j))) ∧
  (∀ (n : BenchId) (c m : Nat) (i : Instr) (s : State), (s.dev.bench n).live = true → (i = .dbgStop n false c m ∨ i = .dbgResume n false c m ∨ i = .dbgStep n false c m) →
    RunsBoth i n s (fun h b => h.fw = s.dev.hub.fw ∧ ∃ l, b = ((s.dev.bench n).tick T.DBG_REFUSED).afterEvents l))

/-- Links train, reach L0, enter Recovery and return from it, replay a flit, and are lost. Rests on spec/11_host_endpoint.md spec/20_start_up_and_reset.md. -/
def Obligations.LinkStates : Prop :=
  (∀ (p : HostPort) (s : State), s.dev.hub.flag R.pcr_RESET_CAUSE_IMAGE_OK = true → s.dev.hub.fw.perst.contains p.val = false →
    s.dev.hub.split p.val = false →
    LeavesHub (.linkTrainingStart p) s (s.dev.hub.setLink (2 * p.val) { s.dev.hub.link (2 * p.val) with training := true })) ∧
  (∀ (p : HostPort) (s : State), s.dev.hub.flag R.pcr_RESET_CAUSE_IMAGE_OK = true → s.dev.hub.fw.perst.contains p.val = false →
    s.dev.hub.split p.val = true →
    LeavesHub (.linkTrainingStart p) s
      ((s.dev.hub.setLink (2 * p.val) { s.dev.hub.link (2 * p.val) with training := true }).setLink (2 * p.val + 1)
        { s.dev.hub.link (2 * p.val + 1) with training := true })) ∧
  (∀ (p : HostPort) (s : State), s.dev.hub.flag R.pcr_RESET_CAUSE_IMAGE_OK = false → LeavesHub (.linkTrainingStart p) s s.dev.hub) ∧
  (∀ (p : HostPort) (k : Fin 2) (rate width ph nph pd npd : Nat) (s : State),
    (s.dev.hub.link (2 * p.val + k.val)).training = true → s.dev.hub.linkState (2 * p.val + k.val) = 0 →
    LeavesHub (.linkL0 p k false rate width ph nph pd npd) s
      ((s.dev.hub.setFld (R.ep_LINK_STATUS_NO_FLIT p.val k.val) 1).tick (T.NO_FLIT p.val k.val))) ∧
  (∀ (p : HostPort) (k : Fin 2) (rate width ph nph pd npd : Nat) (s : State), rate < 4 → width < 3 →
    (s.dev.hub.link (2 * p.val + k.val)).training = true → s.dev.hub.linkState (2 * p.val + k.val) = 0 →
    RunsHub (.linkL0 p k true rate width ph nph pd npd) s (fun h =>
      h.linkState (2 * p.val + k.val) = (if rate = 0 ∨ width = 0 then 1 else 2) ∧
      h.fld (R.ep_LINK_STATUS_RATE p.val k.val) = rate ∧ h.fld (R.ep_LINK_STATUS_WIDTH p.val k.val) = width ∧
      h.fld (R.ep_LINK_STATUS_LINK_CHANGED p.val k.val) = 1 ∧
      h.fld (R.ep_LINK_STATUS_CREDIT_SHORT p.val k.val) =
        (if (ph ≠ 0 ∧ ph < 16) ∨ (nph ≠ 0 ∧ nph < 16) ∨ (pd ≠ 0 ∧ pd < 8192) ∨ (npd ≠ 0 ∧ npd < 8192) then 1 else 0) ∧
      h.link (2 * p.val + k.val) = { s.dev.hub.link (2 * p.val + k.val) with ph := ph, nph := nph, pd := pd, npd := npd } ∧
      h.fw = s.dev.hub.fw ∧ h.mem = s.dev.hub.mem)) ∧
  (∀ (p : HostPort) (k : Fin 2) (s : State), s.dev.hub.linkState (2 * p.val + k.val) = 1 ∨ s.dev.hub.linkState (2 * p.val + k.val) = 2 →
    LeavesHub (.linkRecovery p k none) s (s.dev.hub.setLinkState (2 * p.val + k.val) 3)) ∧
  (∀ (p : HostPort) (k : Fin 2) (rate width : Nat) (s : State), s.dev.hub.linkState (2 * p.val + k.val) = 3 →
    (s.dev.hub.link (2 * p.val + k.val)).retrain = false →
    1 ≤ s.dev.hub.fld (R.ep_LINK_STATUS_RATE p.val k.val) → s.dev.hub.fld (R.ep_LINK_STATUS_RATE p.val k.val) ≤ rate →
    1 ≤ s.dev.hub.fld (R.ep_LINK_STATUS_WIDTH p.val k.val) → s.dev.hub.fld (R.ep_LINK_STATUS_WIDTH p.val k.val) ≤ width →
    RunsHub (.linkRecovery p k (some (rate, width))) s (fun h => h.linkState (2 * p.val + k.val) = 2 ∧
      h.fld (R.ep_LINK_STATUS_RATE p.val k.val) = s.dev.hub.fld (R.ep_LINK_STATUS_RATE p.val k.val) ∧
      h.fld (R.ep_LINK_STATUS_WIDTH p.val k.val) = s.dev.hub.fld (R.ep_LINK_STATUS_WIDTH p.val k.val) ∧
      h.tally (T.LINK_RECOVERY p.val k.val) = min tallyMax (s.dev.hub.tally (T.LINK_RECOVERY p.val k.val) + 1))) ∧
  (∀ (p : HostPort) (k : Fin 2) (rate width : Nat) (s : State), s.dev.hub.linkState (2 * p.val + k.val) = 3 →
    (s.dev.hub.link (2 * p.val + k.val)).retrain = false → 1 ≤ rate → rate < s.dev.hub.fld (R.ep_LINK_STATUS_RATE p.val k.val) →
    1 ≤ s.dev.hub.fld (R.ep_LINK_STATUS_WIDTH p.val k.val) → s.dev.hub.fld (R.ep_LINK_STATUS_WIDTH p.val k.val) ≤ width →
    RunsHub (.linkRecovery p k (some (rate, width))) s (fun h => h.linkState (2 * p.val + k.val) = 2 ∧
      h.fld (R.ep_LINK_STATUS_RATE p.val k.val) = rate ∧ h.fld (R.ep_LINK_STATUS_DEGRADED p.val k.val) = 1 ∧
      h.tally (T.LINK_DEGRADED p.val k.val) = min tallyMax (s.dev.hub.tally (T.LINK_DEGRADED p.val k.val) + 1))) ∧
  (∀ (p : HostPort) (k : Fin 2) (rate width : Nat) (s : State), s.dev.hub.linkState (2 * p.val + k.val) = 3 →
    (s.dev.hub.link (2 * p.val + k.val)).retrain = true → 1 ≤ rate → rate < 4 → 1 ≤ width → width < 3 →
    RunsHub (.linkRecovery p k (some (rate, width))) s (fun h => h.linkState (2 * p.val + k.val) = 2 ∧
      h.fld (R.ep_LINK_STATUS_RATE p.val k.val) = rate ∧ h.fld (R.ep_LINK_STATUS_WIDTH p.val k.val) = width ∧
      (h.link (2 * p.val + k.val)).retrain = false)) ∧
  (∀ (p : HostPort) (k : Fin 2) (w : LinkFault) (row : Nat) (s : State), s.dev.hub.linkState (2 * p.val + k.val) ≠ 0 →
    (w, row) ∈ [(LinkFault.badFlit, aerReplay), (.replayTimeout, aerReplayTimeout), (.replayRollover, aerRollover)] →
    LeavesHub (.flitReplay p ⟨k, w⟩) s ((s.dev.hub.tick (T.REPLAY p.val k.val)).logAer (firstPf (2 * p.val + k.val)) row)) ∧
  (∀ (p : HostPort) (k : Fin 2) (w : LinkFault) (row : Nat) (s : State), s.dev.hub.linkState (2 * p.val + k.val) ≠ 0 →
    (w, row) ∈ [(LinkFault.dataLinkProtocol, aerDataLink), (.flowControlProtocol, aerFlowControl)] →
    LeavesHub (.flitReplay p ⟨k, w⟩) s (s.dev.hub.logAer (firstPf (2 * p.val + k.val)) row)) ∧
  (∀ (p : HostPort) (e : LinkErr) (s : State), s.dev.hub.linkState (2 * p.val + e.link.val) = 0 → LeavesHub (.flitReplay p e) s s.dev.hub) ∧
  (∀ (p : HostPort) (k : Fin 2) (s : State), s.dev.hub.linkState (2 * p.val + k.val) ≠ 0 →
    Completes (.linkLoss p k) s (fun t => t.pending = s.pending ∧ t.dev.answer = s.dev.answer ∧
      t.dev.hub.linkState (2 * p.val + k.val) = 0 ∧ t.dev.hub.fld (R.ep_LINK_STATUS_RATE p.val k.val) = 0 ∧
      t.dev.hub.fld (R.ep_LINK_STATUS_WIDTH p.val k.val) = 0 ∧
      ∀ key, s.dev.hub.onLink (2 * p.val + k.val) key = true → t.dev.hub.fn key = FnSt.reset)) ∧
  (∀ (p : HostPort) (k : Fin 2) (s : State), s.dev.hub.linkState (2 * p.val + k.val) = 0 → Idles (.linkLoss p k) s)

/-- A host window sends what its bench has ready, in order and as far as it fits; an idle window that may be lent goes to the next bound bench. Rests on spec/01_benches_and_hub.md spec/11_host_endpoint.md. -/
def Obligations.HostWindows : Prop :=
  (∀ (p : HostPort) (k : Fin 2) (n : BenchId) (out : List Tlp) (own : Nat) (s : State),
    s.dev.hub.linkState (2 * p.val + k.val) = 1 ∨ s.dev.hub.linkState (2 * p.val + k.val) = 2 ∧ s.dev.windowTlps (2 * p.val + k.val) n ≠ [] →
    out = (sendFit ((s.dev.hub.creditsBack (2 * p.val + k.val) n).windowRoom (2 * p.val + k.val) n)
      (s.dev.windowTlps (2 * p.val + k.val) n)).1 →
    own = min out.length ((s.dev.bench n).tlps.filter (s.dev.hub.carriesTlp (2 * p.val + k.val))).length →
    Completes (.hostWindowStart p k n) s (fun t => OthersKept n s t ∧
      t.dev.hub.wire = s.dev.hub.wire ++ ((out.take own).map ((s.dev.bench n).onWire n) ++ out.drop own).map (fun x => (2 * p.val + k.val, x)) ∧
      t.dev.hub.regs = s.dev.hub.regs ∧ t.dev.hub.fns = s.dev.hub.fns ∧ t.dev.hub.fw = s.dev.hub.fw ∧
      t.dev.bench n = { (s.dev.bench n) with tlps := (t.dev.bench n).tlps, reads := ((s.dev.bench n).readsSent s.dev.hub (out.take own)).reads } ∧
      s.dev.windowTlps (2 * p.val + k.val) n = out ++ t.dev.windowTlps (2 * p.val + k.val) n)) ∧
  (∀ (p : HostPort) (k : Fin 2) (n : BenchId) (s : State), s.dev.hub.linkState (2 * p.val + k.val) = 2 →
    s.dev.windowTlps (2 * p.val + k.val) n = [] → (s.dev.bench n).bound (2 * p.val + k.val) = true →
    s.dev.hub.flag (R.pcr_BENCH_CTL_LEND_OK n.val) = false → Idles (.hostWindowStart p k n) s) ∧
  (∀ (p : HostPort) (k : Fin 2) (n m : BenchId) (out : List Tlp) (own : Nat) (s : State),
    s.dev.hub.linkState (2 * p.val + k.val) = 2 → s.dev.windowTlps (2 * p.val + k.val) n = [] →
    (s.dev.bench n).bound (2 * p.val + k.val) = false ∨ s.dev.hub.flag (R.pcr_BENCH_CTL_LEND_OK n.val) = true →
    s.dev.borrower (2 * p.val + k.val) n = some m → (s.dev.bench n).evq = [] → (s.dev.bench m).evq = [] →
    out = (sendFit ((s.dev.hub.creditsBack (2 * p.val + k.val) m).windowRoom (2 * p.val + k.val) m)
      (s.dev.windowTlps (2 * p.val + k.val) m)).1 →
    own = min out.length ((s.dev.bench m).tlps.filter (s.dev.hub.carriesTlp (2 * p.val + k.val))).length →
    Completes (.hostWindowStart p k n) s (fun t => t.pending = s.pending ∧ t.dev.answer = s.dev.answer ∧
      t.dev.hub.wire = s.dev.hub.wire ++ ((out.take own).map ((s.dev.bench m).onWire m) ++ out.drop own).map (fun x => (2 * p.val + k.val, x)) ∧
      (t.dev.hub.link (2 * p.val + k.val)).borrower = m.val ∧
      t.dev.bench n = (s.dev.bench n).tick T.WHEEL_LENT ∧
      (t.dev.bench m).tally T.WHEEL_BORROWED = min tallyMax ((s.dev.bench m).tally T.WHEEL_BORROWED + 1) ∧
      ∀ j, j ≠ n → j ≠ m → t.dev.bench j = s.dev.bench j)) ∧
  (∀ (p : HostPort) (k : Fin 2) (n : BenchId) (s : State), s.dev.hub.linkState (2 * p.val + k.val) = 0 ∨ s.dev.hub.linkState (2 * p.val + k.val) = 3 →
    Idles (.hostWindowStart p k n) s)

/-- Configuration requests: retry before readiness, Unsupported Request for no function, else the field read or written. Rests on spec/11_host_endpoint.md spec/20_start_up_and_reset.md. -/
def Obligations.ConfigurationRequests : Prop :=
  (∀ (key : Nat) (x : CfgField) (s : State), s.dev.hub.linkState (s.dev.hub.linkOf key) ≠ 0 → s.dev.hub.linkState (s.dev.hub.linkOf key) ≠ 3 →
    s.dev.hub.ready (fnPort key) = true → s.dev.hub.inReset key = false → s.dev.hub.present key = true → inqFull false 0 (s.dev.hub.inqOf (s.dev.hub.inqKey key none)) = false →
    exec (.configRead key x) s = .next { s with dev := { s.dev with
      hub := (s.dev.hub.inqPush (s.dev.hub.inqKey key none) false 0).queueTlp (cplTlp key 0 (leBytes 8 (s.dev.hub.cfgValue key x)) false), answer := [0, s.dev.hub.cfgValue key x] } }) ∧
  (∀ (key : Nat) (x : CfgField) (s : State), s.dev.hub.linkState (s.dev.hub.linkOf key) ≠ 0 → s.dev.hub.linkState (s.dev.hub.linkOf key) ≠ 3 →
    s.dev.hub.ready (fnPort key) = true → s.dev.hub.inReset key = false → s.dev.hub.present key = false → inqFull false 0 (s.dev.hub.inqOf (s.dev.hub.inqKey key none)) = false →
    exec (.configRead key x) s = .next { s with dev := { s.dev with
      hub := (s.dev.hub.inqPush (s.dev.hub.inqKey key none) false 0).queueTlp (cplTlp key 1 [] false), answer := [1, 0] } }) ∧
  (∀ (key : Nat) (x : CfgField) (s : State), s.dev.hub.linkState (s.dev.hub.linkOf key) ≠ 0 → s.dev.hub.linkState (s.dev.hub.linkOf key) ≠ 3 →
    s.dev.hub.ready (fnPort key) = false ∨ s.dev.hub.inReset key = true → inqFull false 0 (s.dev.hub.inqOf (s.dev.hub.inqKey key none)) = false →
    exec (.configRead key x) s = .next { s with dev := { s.dev with
      hub := (s.dev.hub.inqPush (s.dev.hub.inqKey key none) false 0).queueTlp (cplTlp key 3 [] false), answer := [3, 0] } }) ∧
  (∀ (key : Nat) (x : CfgField) (v : Nat) (s : State), s.dev.hub.linkState (s.dev.hub.linkOf key) ≠ 0 → s.dev.hub.linkState (s.dev.hub.linkOf key) ≠ 3 →
    s.dev.hub.ready (fnPort key) = false ∨ s.dev.hub.inReset key = true → inqFull false 0 (s.dev.hub.inqOf (s.dev.hub.inqKey key none)) = false →
    exec (.configWrite key x v) s = .next { s with dev := { s.dev with
      hub := (s.dev.hub.inqPush (s.dev.hub.inqKey key none) false 0).queueTlp (cplTlp key 3 [] false), answer := [3] } }) ∧
  (∀ (key v : Nat) (s : State), s.dev.hub.linkState (s.dev.hub.linkOf key) ≠ 0 → s.dev.hub.linkState (s.dev.hub.linkOf key) ≠ 3 →
    s.dev.hub.ready (fnPort key) = true → s.dev.hub.inReset key = false → s.dev.hub.present key = true → inqFull false 0 (s.dev.hub.inqOf (s.dev.hub.inqKey key none)) = false → (s.dev.hub.fn key).pend = [] →
    s.dev.hub.fw.mbx = [] →
    exec (.configWrite key .maxPayload v) s = .next { s with dev := { s.dev with
      hub := (((s.dev.hub.inqPush (s.dev.hub.inqKey key none) false 0).setFn key { s.dev.hub.fn key with mps := v % 8 }).setFn key { s.dev.hub.fn key with mps := v % 8 }).queueTlp
        (cplTlp key 0 [] false), answer := [0] } }) ∧
  (∀ (key : Nat) (x : CfgField) (v : Nat) (s : State), s.dev.hub.linkState (s.dev.hub.linkOf key) ≠ 0 → s.dev.hub.linkState (s.dev.hub.linkOf key) ≠ 3 →
    inqFull false 0 (s.dev.hub.inqOf (s.dev.hub.inqKey key none)) = true →
    exec (.configRead key x) s = .next { s with dev := { s.dev with
      hub := (s.dev.hub.logAer key aerAbort).queueTlp (cplTlp key 2 [] false), answer := [2, 0] } } ∧
    exec (.configWrite key x v) s = .next { s with dev := { s.dev with
      hub := (s.dev.hub.logAer key aerAbort).queueTlp (cplTlp key 2 [] false), answer := [2] } }) ∧
  (∀ (key : Nat) (x : CfgField) (v : Nat) (s : State), s.dev.hub.linkState (s.dev.hub.linkOf key) = 0 ∨ s.dev.hub.linkState (s.dev.hub.linkOf key) = 3 →
    exec (.configRead key x) s = .next { s with dev := { s.dev with answer := [] } } ∧
    exec (.configWrite key x v) s = .next { s with dev := { s.dev with answer := [] } }) ∧
  (∀ (p : HostPort) (s : State), s.dev.hub.up = true → LeavesHub (.cfgReadySet p) s
    (s.dev.hub.setFld R.pcr_CFG_READY_READY (Nat.lor (s.dev.hub.fld R.pcr_CFG_READY_READY) (2 ^ p.val)))) ∧
  (∀ (p : HostPort) (s : State), s.dev.hub.ready p.val = false → s.dev.hub.fw.perst.contains p.val = false → s.dev.hub.fw.por = false →
    LeavesHub (.readyForced p) s ((s.dev.hub.setFld R.pcr_CFG_READY_READY
        (Nat.lor (s.dev.hub.fld R.pcr_CFG_READY_READY) (2 ^ p.val))).setFld R.pcr_RESET_CAUSE_READY_FORCED
      (Nat.lor (s.dev.hub.fld R.pcr_RESET_CAUSE_READY_FORCED) (2 ^ p.val)))) ∧
  (∀ (p : HostPort) (idx : Nat) (vf : Bool) (n : BenchId) (s : State), idx < 2048 → s.dev.hub.up = true →
    n = benchOf (s.dev.hub.homeBench (fnKey p.val vf idx)) → winCheck n (fnKey p.val vf idx) s.dev.hub (s.dev.bench n) = 0 →
    LeavesBoth (.winCommit p idx vf) n s ((s.dev.hub.switchWin (fnKey p.val vf idx)).postStatus
      (R.ep_WIN_COMMIT_STATUS p.val) 0 16 16 T.HUB_COMMIT_STATUS_LOST) (s.dev.bench n)) ∧
  (∀ (p : HostPort) (idx r : Nat) (vf : Bool) (n : BenchId) (s : State), idx < 2048 → s.dev.hub.up = true →
    n = benchOf (s.dev.hub.homeBench (fnKey p.val vf idx)) → winCheck n (fnKey p.val vf idx) s.dev.hub (s.dev.bench n) = r → r ≠ 0 →
    LeavesBoth (.winCommit p idx vf) n s ((s.dev.hub.tick T.HUB_CFG_REFUSED).postStatus
      (R.ep_WIN_COMMIT_STATUS p.val) (2 * r) 16 16 T.HUB_COMMIT_STATUS_LOST) (s.dev.bench n))

/-- Bus Master Enable, function-level reset, D3hot and D0, unmasked vectors, PME_Turn_Off and PERST#. Rests on spec/11_host_endpoint.md spec/18_security_debug_power.md spec/20_start_up_and_reset.md. -/
def Obligations.FunctionsSilencedAndReset : Prop :=
  (∀ (key : Nat) (s : State), (s.dev.hub.fn key).bme = true →
    Completes (.bmeClear key) s (fun t => t.pending = s.pending ∧ t.dev.answer = s.dev.answer ∧
      (t.dev.hub.fn key).bme = false ∧ (∀ v ∈ (s.dev.hub.fn key).pend, v ∈ (t.dev.hub.fn key).pend) ∧
      ((sparseGet (fun _ => ([] : List FnEvent)) s.dev.hub.fnq (fnPort key)).length < 64 →
        ∃ r, sparseGet (fun _ => ([] : List FnEvent)) t.dev.hub.fnq (fnPort key) =
            sparseGet (fun _ => ([] : List FnEvent)) s.dev.hub.fnq (fnPort key) ++ [r] ∧
          r.idx = fnIdx key ∧ r.vf = fnVf key ∧ r.kind = 0))) ∧
  (∀ (key : Nat) (s : State), (s.dev.hub.fn key).bme = false →
    Completes (.bmeSet key) s (fun t => HubOnly s t ∧ (t.dev.hub.fn key).bme = true)) ∧
  (∀ (key : Nat) (s : State), (s.dev.hub.fn key).bme = true → Idles (.bmeSet key) s) ∧
  (∀ (key : Nat) (s : State), s.dev.hub.inReset key = false →
    Completes (.flrStart key) s (fun t => t.pending = s.pending ∧ t.dev.answer = s.dev.answer ∧
      (t.dev.hub.fn key).flr = true ∧ (t.dev.hub.fn key).bme = false ∧ (t.dev.hub.fn key).vfEnable = false)) ∧
  (∀ (key : Nat) (s : State), (s.dev.hub.fn key).flr = true →
    RunsHub (.flrDone key) s (fun h => h.fn key = FnSt.reset ∧ (∀ v, v < 2048 → h.msixAt key v = MsixEnt.reset) ∧
      h.fw = s.dev.hub.fw ∧ h.mem = s.dev.hub.mem)) ∧
  (∀ (key : Nat) (s : State), fnVf key = false → (s.dev.hub.fn key).d3hot = false → s.dev.hub.present key = true →
    Completes (.pfD3hot key) s (fun t => t.pending = s.pending ∧ t.dev.answer = s.dev.answer ∧
      (t.dev.hub.fn key).d3hot = true)) ∧
  (∀ (key : Nat) (s : State), fnVf key = false → (s.dev.hub.fn key).d3hot = true →
    (s.dev.hub.fn key).flr = false →
    Completes (.pfD0 key) s (fun t => t.pending = s.pending ∧ t.dev.answer = s.dev.answer ∧
      (t.dev.hub.fn key).d3hot = false ∧ (t.dev.hub.fn key).flr = true ∧ (t.dev.hub.fn key).bme = false)) ∧
  (∀ (key vec : Nat) (s : State), (s.dev.hub.fn key).msixEn = true → vec < s.dev.hub.tableSize key →
    RunsHub (.vectorUnmask key vec) s (fun h => h.msixAt key vec = { s.dev.hub.msixAt key vec with mask := false } ∧
      ((s.dev.hub.fn key).bme = true → (s.dev.hub.fn key).fnMask = false → (h.fn key).pend.all (fun v => v.1 ≠ vec)) ∧ h.regs = s.dev.hub.regs ∧ h.fw = s.dev.hub.fw)) ∧
  (∀ (p : HostPort) (k : Fin 2) (j : Nat) (aux : Bool) (s : State), s.dev.hub.linkState (2 * p.val + k.val) ≠ 0 →
    2 * p.val + k.val ∉ s.dev.hub.fw.turnOff → j < 4 → j ≠ 2 * p.val + k.val → s.dev.hub.linkState j ≠ 0 → j ∉ s.dev.hub.fw.turnOff →
    LeavesHub (.pmeTurnOff p k false aux) s
      { s.dev.hub with fw := { s.dev.hub.fw with turnOff := s.dev.hub.fw.turnOff ++ [2 * p.val + k.val] } }) ∧
  (∀ (p : HostPort) (k : Fin 2) (aux : Bool) (s : State), s.dev.hub.linkState (2 * p.val + k.val) ≠ 0 →
    2 * p.val + k.val ∈ s.dev.hub.fw.turnOff → (∀ j, j < 4 → s.dev.hub.linkState j ≠ 0 → j ∈ s.dev.hub.fw.turnOff) →
    Completes (.pmeTurnOff p k true aux) s (fun t => t.pending = s.pending ∧ t.dev.answer = s.dev.answer ∧
      t.dev.hub.fw.power = .d3cold ∧ t.dev.hub.fw.secrets = false ∧ t.dev.hub.fw.turnOff = [] ∧
      ∀ m, (t.dev.bench m).power.st = .off)) ∧
  (∀ (p : HostPort) (k : Fin 2) (aux : Bool) (n : BenchId) (s : State), s.dev.hub.linkState (2 * p.val + k.val) ≠ 0 →
    2 * p.val + k.val ∈ s.dev.hub.fw.turnOff → (∀ j, j < 4 → s.dev.hub.linkState j ≠ 0 → j ∈ s.dev.hub.fw.turnOff) →
    (s.dev.bench n).power.st = .running →
    Completes (.pmeTurnOff p k false aux) s (fun t => t.pending = s.pending ∧ t.dev.answer = s.dev.answer ∧
      (t.dev.bench n).power.st = .draining)) ∧
  (∀ (p : HostPort) (s : State), s.dev.hub.fw.perst.contains p.val = false →
    Completes (.perstAssert p) s (fun t => t.pending = s.pending ∧ t.dev.answer = s.dev.answer ∧
      t.dev.hub.fw.perst = s.dev.hub.fw.perst ++ [p.val] ∧ t.dev.hub.linkState (2 * p.val) = 0 ∧
      t.dev.hub.linkState (2 * p.val + 1) = 0 ∧ t.dev.hub.ready p.val = false)) ∧
  (∀ (p : HostPort) (s : State), LeavesHub (.perstRelease p) s
    (({ s.dev.hub with fw := { s.dev.hub.fw with perst := s.dev.hub.fw.perst.filter (· ≠ p.val), wakeN := false } } : Hub).trainPort p.val))

/-- Completions of device reads, their time-outs and their quarantine. Rests on spec/11_host_endpoint.md. -/
def Obligations.CompletionsOfDeviceReads : Prop :=
  (∀ (n : BenchId) (key tag : Nat) (data : List Byte) (r : HostRead) (s : State), (s.dev.bench n).live = true → (s.dev.bench n).sentRead n key tag = some r → r.quarantine = false →
    r.dead = false → r.len ≤ r.got.length + data.length → r.retried = false →
    LeavesBoth (.hostCompletion n key tag data 0 false) n s (s.dev.hub.ryunerGot r.use (some ((r.got ++ data).take r.len)))
      (((((s.dev.bench n).freeRead r).deliverRead n r ((r.got ++ data).take r.len)).judgeHeld).pump)) ∧
  (∀ (n : BenchId) (key tag : Nat) (data : List Byte) (r : HostRead) (s : State), (s.dev.bench n).live = true → (s.dev.bench n).sentRead n key tag = some r → r.quarantine = false →
    r.dead = false → r.len ≤ r.got.length + data.length → r.retried = true →
    LeavesBoth (.hostCompletion n key tag data 0 false) n s
      ((s.dev.hub.tickLink T.HOST_RETRY_OK key).ryunerGot r.use (some ((r.got ++ data).take r.len)))
      (((((s.dev.bench n).freeRead r).deliverRead n r ((r.got ++ data).take r.len)).judgeHeld).pump)) ∧
  (∀ (n : BenchId) (key tag : Nat) (data : List Byte) (r : HostRead) (s : State), (s.dev.bench n).live = true → (s.dev.bench n).sentRead n key tag = some r → r.quarantine = false →
    r.dead = false → r.got.length + data.length < r.len →
    LeavesBoth (.hostCompletion n key tag data 0 false) n s s.dev.hub
      ((((s.dev.bench n).updRead r (fun x => { x with got := r.got ++ data })).judgeHeld).pump)) ∧
  (∀ (n : BenchId) (key tag status : Nat) (data : List Byte) (ep : Bool) (s : State), (s.dev.bench n).live = true → (s.dev.bench n).sentRead n key tag = none →
    LeavesBoth (.hostCompletion n key tag data status ep) n s
      ((s.dev.hub.tickLink T.UNEXPECTED_CPL key).logAdvisory key aerUnexpected (tlpHeader 2 status tag data.length)) ((s.dev.bench n).judgeHeld).pump) ∧
  (∀ (n : BenchId) (key tag : Nat) (data : List Byte) (r : HostRead) (s : State), (s.dev.bench n).live = true → (s.dev.bench n).sentRead n key tag = some r → r.quarantine = false →
    r.dead = false → r.len ≤ r.got.length + data.length →
    LeavesBoth (.hostCompletion n key tag data 0 true) n s
      (((s.dev.hub.tickLink T.POISON_RX key).logAdvisory key aerPoison (tlpHeader 2 0 tag data.length)).ryunerGot r.use none)
      (((((s.dev.bench n).freeRead r).failRead r 0x92).judgeHeld).pump)) ∧
  (∀ (n : BenchId) (key tag status : Nat) (data : List Byte) (ep : Bool) (r : HostRead) (s : State), (s.dev.bench n).live = true → (s.dev.bench n).sentRead n key tag = some r →
    r.quarantine = false → r.dead = false → status ≠ 0 →
    LeavesBoth (.hostCompletion n key tag data status ep) n s (s.dev.hub.ryunerGot r.use none)
      (((((s.dev.bench n).freeRead r).failRead r 0x93).judgeHeld).pump)) ∧
  (∀ (n : BenchId) (key tag : Nat) (r : HostRead) (s : State), (s.dev.bench n).live = true → (s.dev.bench n).sentRead n key tag = some r → r.quarantine = false → r.dead = false →
    r.retryOk = true → r.retried = false → (s.dev.bench n).reads.length < 1024 →
    ((s.dev.bench n).freeTag (s.dev.hub.fn key).tag14 key (s.dev.hub.fn key).tagCount).isSome = true →
    LeavesBoth (.readTimeout n key tag) n s s.dev.hub
      ((((s.dev.bench n).updRead r (fun x => { x with quarantine := true, dead := true })).sendRead s.dev.hub { r with got := [], retried := true, cto := 0 }).judgeHeld)) ∧
  (∀ (n : BenchId) (key tag : Nat) (r : HostRead) (s : State), (s.dev.bench n).live = true → (s.dev.bench n).sentRead n key tag = some r → r.quarantine = false → r.dead = false →
    (r.retryOk && !r.retried) = false →
    LeavesBoth (.readTimeout n key tag) n s (((s.dev.hub.tickLink T.CPL_TIMEOUT key).logAer key aerTimeout).ryunerGot r.use none)
      (((s.dev.bench n).updRead r (fun x => { x with quarantine := true, dead := true })).failRead r 0x91).judgeHeld) ∧
  (∀ (n : BenchId) (key tag : Nat) (s : State), (s.dev.bench n).live = true →
    Leaves (.tagQuarantineEnd n key tag) n s
      { (s.dev.bench n) with reads := (s.dev.bench n).reads.filter (fun r => !(r.fn = key && r.wireTag n = tag && r.quarantine)) })

/-- Host reads and writes in the BARs of a function: served, refused or not carried. Rests on spec/11_host_endpoint.md spec/12_claims_and_rings.md. -/
def Obligations.HostAccessesInBars : Prop :=
  (∀ (key bar off size buf : Nat) (full : Bool) (ecc : Ecc) (s : State), s.dev.hub.gate key = .silent →
    exec (.hostMemRead key bar off size full buf ecc) s = .next { s with dev := { s.dev with answer := [] } }) ∧
  (∀ (key bar off size : Nat) (full : Bool) (ecc : Ecc) (s : State), s.dev.hub.gate key = .unsupported →
    exec (.hostMemRead key bar off size full 0 ecc) s = .next { s with dev := { s.dev with
      hub := (if (s.dev.hub.inReset key || s.dev.hub.inD3 key) = true then s.dev.hub.logAer key aerUnsupported (tlpHeader 0 bar off size) else s.dev.hub).queueTlp (cplTlp key 1 [] false), answer := [1] } }) ∧
  (∀ (key off size : Nat) (ecc : Ecc) (s : State), s.dev.hub.gate key = .served → bit (s.dev.hub.ctlPage key off).1 0 = false →
    inqFull false 0 (s.dev.hub.inqOf (s.dev.hub.inqKey key none)) = false →
    Completes (.hostMemRead key 0 off size false 0 ecc) s (fun t => HubOnly { s with dev := { s.dev with answer := [1] } } t ∧
      t.dev.hub = ((s.dev.hub.inqPush (s.dev.hub.inqKey key none) false 0).logAer key aerUnsupported (tlpHeader 0 0 off size)).queueTlp
        (cplTlp key 1 [] false))) ∧
  (∀ (key bar off size : Nat) (full : Bool) (ecc : Ecc) (s : State), s.dev.hub.gate key = .served → s.dev.hub.queueOf key bar off = none →
    full = true ∨ inqFull false 0 (s.dev.hub.inqOf (s.dev.hub.inqKey key none)) = true →
    Completes (.hostMemRead key bar off size full 0 ecc) s (fun t => HubOnly { s with dev := { s.dev with answer := [2] } } t ∧
      t.dev.hub = (s.dev.hub.logAer key aerAbort (tlpHeader 0 bar off size)).queueTlp (cplTlp key 2 [] false))) ∧
  (∀ (key off size : Nat) (ecc : Ecc) (s : State), s.dev.hub.gate key = .served → bit (s.dev.hub.dbPage key off).1 0 = true →
    inqFull false 0 (s.dev.hub.inqOf (s.dev.hub.inqKey key (s.dev.hub.queueOf key 1 off))) = false →
    Completes (.hostMemRead key 1 off size false 0 ecc) s (fun t => t.pending = s.pending ∧
      t.dev.answer = 0 :: List.replicate size 0 ∧ ∀ m, (t.dev.bench m).mem = (s.dev.bench m).mem)) ∧
  (∀ (key off size : Nat) (ecc : Ecc) (s : State), s.dev.hub.gate key = .served → inqFull false 0 (s.dev.hub.inqOf (s.dev.hub.inqKey key none)) = false →
    Completes (.hostMemRead key 2 off size false 0 ecc) s (fun t => t.pending = s.pending ∧ t.dev.benches = s.dev.benches ∧
      t.dev.answer = 0 :: (List.range size).map (fun i =>
        s.dev.hub.msixWord key ((off + i) / 4 * 4 % 65536) / 2 ^ (8 * ((off + i) % 4)) % 256))) ∧
  (∀ (key off size : Nat) (ecc : Ecc) (s : State), s.dev.hub.gate key = .served → bit (s.dev.hub.ctlPage key off).1 0 = true →
    s.dev.hub.queueOf key 0 off = none → inqFull false 0 (s.dev.hub.inqOf (s.dev.hub.inqKey key none)) = false → size ≤ 64 → off % 64 + size ≤ 64 →
    exec (.hostMemRead key 0 off size false 0 ecc) s = .next { s with dev := Device.hostAnswer none key (tlpHeader 0 0 off size) (({ s.dev with hub := (s.dev.hub.inqPush (s.dev.hub.inqKey key none) false 0) } : Device).ctlRead key (ctlAddr (s.dev.hub.ctlPage key off).1 (s.dev.hub.ctlPage key off).2) size ecc) }) ∧
  (∀ (key bar off : Nat) (l : List Byte) (p full : Bool) (ecc : Ecc) (s : State), s.dev.hub.gate key = .silent →
    Idles (.hostMemWrite key bar off l p full 0 ecc) s) ∧
  (∀ (key bar off : Nat) (l : List Byte) (p full : Bool) (ecc : Ecc) (s : State), s.dev.hub.gate key = .unsupported →
    LeavesHub (.hostMemWrite key bar off l p full 0 ecc) s (s.dev.hub.tickLink T.WINDOW_WRITE_DROP key)) ∧
  (∀ (key off : Nat) (l : List Byte) (ecc : Ecc) (s : State), s.dev.hub.gate key = .served → bit (s.dev.hub.ctlPage key off).1 0 = false →
    inqFull true l.length (s.dev.hub.inqOf (s.dev.hub.inqKey key none)) = false →
    LeavesHub (.hostMemWrite key 0 off l false false 0 ecc) s
      (((s.dev.hub.inqPush (s.dev.hub.inqKey key none) true l.length).tickLink T.WINDOW_WRITE_DROP key).logAdvisory key aerUnsupported
        (tlpHeader 1 0 off l.length))) ∧
  (∀ (key bar off : Nat) (l : List Byte) (p full : Bool) (ecc : Ecc) (s : State), s.dev.hub.gate key = .served →
    s.dev.hub.queueOf key bar off = none → full = true ∨ inqFull true l.length (s.dev.hub.inqOf (s.dev.hub.inqKey key none)) = true →
    LeavesHub (.hostMemWrite key bar off l p full 0 ecc) s
      (((s.dev.hub.tickLink T.HUB_INQ_DROP key).logAdvisory key aerAbort (tlpHeader 1 bar off l.length)).raise 661)) ∧
  (∀ (key off : Nat) (l : List Byte) (ecc : Ecc) (s : State), s.dev.hub.gate key = .served → s.dev.hub.queueOf key 0 off = none →
    inqFull true l.length (s.dev.hub.inqOf (s.dev.hub.inqKey key none)) = false →
    LeavesHub (.hostMemWrite key 0 off l true false 0 ecc) s
      ((s.dev.hub.inqPush (s.dev.hub.inqKey key none) true l.length).logAer key aerPoison (tlpHeader 1 0 off l.length))) ∧
  (∀ (key off v : Nat) (ecc : Ecc) (s : State), s.dev.hub.gate key = .served → inqFull true 4 (s.dev.hub.inqOf (s.dev.hub.inqKey key none)) = false → off % 4 = 0 → v < 2 ^ 32 →
    LeavesHub (.hostMemWrite key 2 off (leBytes 4 v) false false 0 ecc) s
      (if s.dev.hub.msixBeyond key off = true then (s.dev.hub.inqPush (s.dev.hub.inqKey key none) true 4).tickLink T.MSIX_MISS key
        else (s.dev.hub.inqPush (s.dev.hub.inqKey key none) true 4).msixWrite key off v)) ∧
  (∀ (key off size v : Nat) (pasid : Option Nat) (s : State), s.dev.hub.gate key = .served →
    bit (s.dev.hub.dbPage key off).1 0 = false → inqFull true size (s.dev.hub.inqOf (s.dev.hub.inqKey key none)) = false →
    LeavesHub (.doorbellWrite key off size v pasid false) s
      (((s.dev.hub.inqPush (s.dev.hub.inqKey key none) true size).tickLink T.WINDOW_WRITE_DROP key).logAdvisory key aerUnsupported
        (tlpHeader 1 1 off size))) ∧
  (∀ (n : BenchId) (key off v r : Nat) (c : Claim) (h' : Hub) (s : State), s.dev.hub.gate key = .served →
    bit (s.dev.hub.dbPage key off).1 0 = true → n = benchOf (getBits (s.dev.hub.dbPage key off).1 1 4) → (s.dev.bench n).power.st = .running →
    (s.dev.hub.dbPage key off).2 % 8 = 0 → r = getBits (s.dev.hub.dbPage key off).1 5 14 + (s.dev.hub.dbPage key off).2 / 8 → v < 2 ^ 32 →
    (s.dev.bench n).ringKind r = 1 ∨ (s.dev.bench n).ringKind r = 2 → (s.dev.bench n).claim? ((s.dev.bench n).ringClaim r) = some c → c.fn = key → c.owns r = true →
    (s.dev.bench n).badDoorbell r (dbIndex v) (dbLap v) = false → inqFull true 4 (s.dev.hub.inqOf (s.dev.hub.inqKey key (some n))) = false →
    h' = (s.dev.hub.inqPush (s.dev.hub.inqKey key (some n)) true 4).inqMark key (some n) true (inqCount true (s.dev.hub.inqOf (s.dev.hub.inqKey key (some n))) + 1) →
    exec (.doorbellWrite key off 4 v none false) s = .next { s with dev := { s.dev with hub := h' }.run n (fun _ _ => (h',
      (((s.dev.bench n).setMbits (ringAddr r) 128 16 (dbIndex v)).setMbits (ringAddr r) 144 1 (dbLap v)).judgeHeld)) })

/-- Descriptors are fetched and taken, completions are written, and a completion ring's timer raises its vector. Rests on spec/12_claims_and_rings.md. -/
def Obligations.RingFetchesAndCompletions : Prop :=
  (∀ (n : BenchId) (w : Bid) (s : State), (s.dev.bench n).power.st = .running → bestBid (Bench.bids s.dev.hub (s.dev.bench n) false) = some w →
    Runs (.ringFetch n) n s (fun b => b.rings.lastClaim = w.claim ∧ b.rings.claims = (s.dev.bench n).rings.claims ∧
      b.rings.fetches = (s.dev.bench n).rings.fetches ++ [{ ring := w.ring, count := w.cost / entrySize ((s.dev.bench n).ringKind w.ring), size := entrySize ((s.dev.bench n).ringKind w.ring), got := none, again := false, waiting := false }])) ∧
  (∀ (n : BenchId) (s : State), (s.dev.bench n).power.st = .running → bestBid (Bench.bids s.dev.hub (s.dev.bench n) false) = none →
    Leaves (.ringFetch n) n s (s.dev.bench n).judgeHeld) ∧
  (∀ (n : BenchId) (w : Bid) (s : State), (s.dev.bench n).power.st = .running → bestBid (Bench.bids s.dev.hub (s.dev.bench n) true) = some w →
    Runs (.nvmeSqFetch n) n s (fun b => b.rings.lastClaim = w.claim ∧ b.rings.claims = (s.dev.bench n).rings.claims ∧
      b.rings.fetches = (s.dev.bench n).rings.fetches ++ [{ ring := w.ring, count := w.cost / entrySize ((s.dev.bench n).ringKind w.ring), size := entrySize ((s.dev.bench n).ringKind w.ring), got := none, again := false, waiting := false }])) ∧
  (∀ (n : BenchId) (r : Nat) (f : Fetch) (l : List Byte) (s : State), (s.dev.bench n).live = true → (s.dev.bench n).rings.fetches.find? (fun f => f.ring = r) = some f → f.got = some l →
    Leaves (.descArrive n r) n s (((((s.dev.bench n).descArrive f l).feedSends 16).judgeHeld).pump)) ∧
  (∀ (n : BenchId) (r : Nat) (s : State), (s.dev.bench n).live = true → (s.dev.bench n).rings.fetches.find? (fun f => f.ring = r) = none → Leaves (.descArrive n r) n s (s.dev.bench n)) ∧
  (∀ (n : BenchId) (r : Nat) (f : Fetch) (s : State), (s.dev.bench n).live = true → (s.dev.bench n).rings.fetches.find? (fun f => f.ring = r && f.waiting) = some f → (s.dev.bench n).fetchable r = true →
    Bench.mayIssue s.dev.hub (s.dev.bench n) ((s.dev.bench n).ringClaim r) (f.count * f.size) = true →
    Runs (.descRefetch n r) n s (fun b => b.mem = (s.dev.bench n).mem ∧ b.reads.length = (s.dev.bench n).reads.length + 1 ∧
      b.rings.fetches = (s.dev.bench n).rings.fetches.map (fun x => if x = f then { x with waiting := false } else x) ∧
      b.creditOf ((s.dev.bench n).ringClaim r) = (s.dev.bench n).creditOf ((s.dev.bench n).ringClaim r) - f.count * f.size)) ∧
  (∀ (n : BenchId) (r : Nat) (f : Fetch) (s : State), (s.dev.bench n).live = true → (s.dev.bench n).rings.fetches.find? (fun f => f.ring = r && f.waiting) = some f → (s.dev.bench n).fetchable r = false →
    Leaves (.descRefetch n r) n s ((s.dev.bench n).dropFetch f)) ∧
  (∀ (n : BenchId) (r : Nat) (s : State), (s.dev.bench n).live = true → (s.dev.bench n).rings.fetches.find? (fun f => f.ring = r && f.waiting) = none →
    Leaves (.descRefetch n r) n s (s.dev.bench n)) ∧
  (∀ (n : BenchId) (c : Cpl) (k : Claim) (t : Bench) (rest : List Cpl) (s : State), (s.dev.bench n).live = true → (s.dev.bench n).rings.cpls = c :: rest → c.out = true →
    (s.dev.bench n).ringCpl c.cq = true → (s.dev.bench n).ringState c.cq = 2 → 0 < (s.dev.bench n).ringFree c.cq → (s.dev.bench n).ringOvf c.cq = 0 →
    (s.dev.bench n).claim? ((s.dev.bench n).ringClaim c.cq) = some k → (s.dev.bench n).ringArmed c.cq = false →
    t = (({ (s.dev.bench n) with rings := { (s.dev.bench n).rings with cpls := rest } } : Bench).addOwed c.cq (-1)).tallyCmd 2 0 (entrySize ((s.dev.bench n).ringKind c.cq)) →
    LeavesBoth (.completionWrite n) n s s.dev.hub
      ((((Bench.hostWrite s.dev.hub t k (t.ringBase c.cq + entrySize (t.ringKind c.cq) * t.devIndex c.cq)
        (t.cqeBytes c.cq c.words) false none).devAdvance c.cq 1).setSince c.cq
          (t.sinceArm c.cq + 1)).judgeHeld)) ∧
  (∀ (n : BenchId) (s : State), (s.dev.bench n).live = true → (s.dev.bench n).rings.cpls = [] → LeavesBoth (.completionWrite n) n s s.dev.hub (s.dev.bench n).judgeHeld) ∧
  (∀ (n : BenchId) (q : Nat) (k : Claim) (b' : Bench) (s : State), (s.dev.bench n).live = true → (s.dev.bench n).ringCpl q = true → (s.dev.bench n).ringArmed q = true → (s.dev.bench n).sinceArm q ≠ 0 →
    (s.dev.bench n).ringHeld q ≠ 0 → (s.dev.bench n).claim? ((s.dev.bench n).ringClaim q) = some k → (s.dev.bench n).ringVector q < s.dev.hub.tableSize k.fn →
    b' = ((s.dev.bench n).setMbits (ringAddr q) 208 1 0).setSince q 0 →
    LeavesBoth (.cqIntTimer n q) n s 
      (benchVector n s.dev.hub b' k.fn (b'.ringVector q)).1 (benchVector n s.dev.hub b' k.fn (b'.ringVector q)).2)

/-- A quiescing claim that has drained is QUIESCED; one still QUIESCING at its limit is reset; a claim reset ends at QUIESCED. Rests on spec/12_claims_and_rings.md. -/
def Obligations.ClaimsDrainAndReset : Prop :=
  (∀ (n : BenchId) (i : Nat) (c : Claim) (s : State), (s.dev.bench n).live = true → (s.dev.bench n).claim? i = some c → c.st = 2 → c.resetting = false →
    ((s.dev.bench n).returnRecvs c).claimDrained i c = true →
    RunsBoth (.claimDrained n i) n s (fun _ b => b.claim? i = some { c with st := 3, resetting := false } ∧
      ∀ j, j ≠ i → b.claim? j = (s.dev.bench n).claim? j)) ∧
  (∀ (n : BenchId) (i : Nat) (c : Claim) (s : State), (s.dev.bench n).live = true → (s.dev.bench n).claim? i = some c → c.st ≠ 2 →
    LeavesBoth (.claimDrained n i) n s s.dev.hub (s.dev.bench n)) ∧
  (∀ (n : BenchId) (i : Nat) (c : Claim) (s : State), (s.dev.bench n).live = true → (s.dev.bench n).claim? i = some c → c.st = 2 → c.resetting = false →
    RunsBoth (.quiesceLimitExpired n i) n s (fun _ b => b.claim? i = some
        { c with resetting := true, mustReset := c.rings.filter (fun r => (s.dev.bench n).ringKind r ≠ 0) } ∧
      ∀ j, j ≠ i → b.claim? j = (s.dev.bench n).claim? j)) ∧
  (∀ (n : BenchId) (i : Nat) (c : Claim) (s : State), (s.dev.bench n).live = true → (s.dev.bench n).claim? i = some c → c.st ≠ 2 →
    LeavesBoth (.quiesceLimitExpired n i) n s s.dev.hub (s.dev.bench n)) ∧
  (∀ (n : BenchId) (i : Nat) (c : Claim) (s : State), (s.dev.bench n).live = true → (s.dev.bench n).claim? i = some c → c.resetting = true →
    RunsBoth (.claimResetDone n i) n s (fun _ b => b.claim? i = some { c with st := 3, resetting := false } ∧
      b.mem = (c.rings.filter (fun r => (s.dev.bench n).ringKind r ≠ 0)).foldl (fun m r => (({ (s.dev.bench n) with mem := m } : Bench).setRingState r 1).mem) (s.dev.bench n).mem ∧
      ∀ j, j ≠ i → b.claim? j = (s.dev.bench n).claim? j))

/-- A haul command is submitted, starts, is read chunk by chunk, written, ends, and leaves the collector. Rests on spec/13_haul_engines.md spec/16_cycle_ledger.md. -/
def Obligations.HaulCommands : Prop :=
  (∀ (n : BenchId) (s : State), (s.dev.bench n).live = true → ((s.dev.bench n).chanCmds 6).length < 16 →
    Leaves (.haulSubmit n) n s ((s.dev.bench n).queueCmd 6 4 none 0
      ((List.range 10).map (fun w => ((s.dev.bench n).reg (R.haul_HAUL_CMD w)).toNat)) none)) ∧
  (∀ (n : BenchId) (s : State), (s.dev.bench n).live = true → 16 ≤ ((s.dev.bench n).chanCmds 6).length → Leaves (.haulSubmit n) n s ((s.dev.bench n).tick T.HAUL_CMD_REFUSED)) ∧
  (∀ (n : BenchId) (c : Nat) (ecc : Ecc) (k : HaulCmd) (s : State), (s.dev.bench n).live = true → (s.dev.bench n).nextStart c = some k →
    Leaves (.haulCommandStart n c ecc) n s ((Bench.startCmd n s.dev.hub ecc k (s.dev.bench n)).countHaul c)) ∧
  (∀ (n : BenchId) (c : Nat) (ecc : Ecc) (s : State), (s.dev.bench n).live = true → (s.dev.bench n).nextStart c = none → Leaves (.haulCommandStart n c ecc) n s (s.dev.bench n)) ∧
  (∀ (n : BenchId) (c : Nat) (ecc : Ecc) (k : HaulCmd) (s : State), (s.dev.bench n).live = true → (s.dev.bench n).nextRead c = some k → k.tabs = [] → k.op = 2 → 0 < (s.dev.bench n).mayStage k.chan →
    turnOf (Bench.readReady s.dev.hub (s.dev.bench n)) (s.dev.bench n).haul.rdTurn = some c →
    Leaves (.haulReadRequest n c ecc) n s
      ((({ (s.dev.bench n) with haul := { (s.dev.bench n).haul with rdTurn := c } } : Bench).stage k.id k.nextChunk.1 (List.replicate k.nextChunk.2 0#8) 0 0).countHaul c)) ∧
  (∀ (n : BenchId) (c : Nat) (ecc : Ecc) (s : State), (s.dev.bench n).live = true → turnOf (Bench.readReady s.dev.hub (s.dev.bench n)) (s.dev.bench n).haul.rdTurn ≠ some c →
    Leaves (.haulReadRequest n c ecc) n s (s.dev.bench n)) ∧
  (∀ (n : BenchId) (c : Nat) (ecc : Ecc) (k : HaulCmd) (s : State), (s.dev.bench n).live = true → (s.dev.bench n).nextRead c = some k → turnOf (Bench.readReady s.dev.hub (s.dev.bench n)) (s.dev.bench n).haul.rdTurn = some c →
    Leaves (.haulReadRequest n c ecc) n s
      ((Bench.readRequest n s.dev.hub ecc k { (s.dev.bench n) with haul := { (s.dev.bench n).haul with rdTurn := c } }).countHaul c)) ∧
  (∀ (n : BenchId) (c : Nat) (k : HaulCmd) (x : Chunk) (l : List Byte) (s : State), (s.dev.bench n).live = true → (s.dev.bench n).nextWrite c = some (k, x) → x.bad = 0 →
    x.data = some l → 6 ≤ k.chan → k.dstSpace = 0 → k.crcEn = false → k.csumEn = false →
    turnOf (fun d => ((s.dev.bench n).nextWrite d).isSome) (s.dev.bench n).haul.wrTurn = some c →
    Leaves (.haulWriteChunk n c []) n s
      (((Bench.scatter n [] (subPieces k.dst x.off l.length) l { (s.dev.bench n) with haul := { (s.dev.bench n).haul with wrTurn := c } }).updCmd k.id (fun q =>
        { q with all := k.all, wr := q.wr + l.length, chunks := q.chunks.tail })).countHaul c)) ∧
  (∀ (n : BenchId) (c : Nat) (ecc : Ecc) (s : State), (s.dev.bench n).live = true → (s.dev.bench n).nextWrite c = none → Leaves (.haulWriteChunk n c ecc) n s (s.dev.bench n)) ∧
  (∀ (n : BenchId) (c st : Nat) (k : HaulCmd) (s : State), (s.dev.bench n).live = true → ((s.dev.bench n).chanCmds c).head? = some k → (s.dev.bench n).doneStatus k = some st →
    Leaves (.haulCommandDone n c) n s
      ((((((s.dev.bench n).killReads k.id).endCmd k st).countHaul c).feedSends 16).feedHsubs).pump) ∧
  (∀ (n : BenchId) (c : Nat) (s : State), (s.dev.bench n).live = true → ((s.dev.bench n).chanCmds c).head? = none → Leaves (.haulCommandDone n c) n s (s.dev.bench n).pump) ∧
  (∀ (n : BenchId) (c : Cpl) (rest : List Cpl) (s : State), (s.dev.bench n).live = true → (s.dev.bench n).rings.cpls = c :: rest → c.out = false →
    (∀ x, x < 24 → (s.dev.bench n).slotBusy x = true → x = c.slot) → c.slot < 24 → (s.dev.bench n).quiet →
    Runs (.collectorExit n) n s (fun b => b.haul.turn = c.slot ∧ b.rings.cpls = { c with out := true } :: rest ∧
      b.mem = (s.dev.bench n).mem)) ∧
  (∀ (n : BenchId) (c : HaulCmd) (rest : List HaulCmd) (s : State), (s.dev.bench n).live = true → (s.dev.bench n).rings.cpls = [] → (s.dev.bench n).haul.cmds = c :: rest → c.ended = true →
    c.chan = 6 → (∀ x, x < 24 → (s.dev.bench n).slotBusy x = true → x = c.slot) → (s.dev.bench n).quiet →
    Runs (.collectorExit n) n s (fun b => b.haul.turn = 13 ∧ b.haul.cmds = rest.filter (fun k => k.id ≠ c.id) ∧
      b.reg R.haul_HAUL_COUNT = BitVec.ofNat 32 c.wr ∧ b.mem = (s.dev.bench n).mem))

/-- Flash channels identify, train, and read their operation rings. Rests on spec/14_flash_and_storage.md. -/
def Obligations.FlashChannelsAndRings : Prop :=
  (∀ (n : BenchId) (c page planes blocks pages : Nat) (dies : List (Nat × Bool)) (s : State), (s.dev.bench n).awake = true → c < 2 →
    (s.dev.bench n).flashState c = fsIdentify → (∀ d ∈ dies, d.1 < 16) →
    Runs (.flashIdentifyDone n c page planes blocks pages dies) n s (fun b => b.flashState c = fsReady ∧
      (b.fchan c).page = page ∧ b.mem = (s.dev.bench n).mem ∧
      b.fld (R.storage_GEOMETRY_BLOCKS c) = blocks % 2 ^ (R.storage_GEOMETRY_BLOCKS c).w)) ∧
  (∀ (n : BenchId) (c : Nat) (s : State), (s.dev.bench n).live = true → c < 2 → (s.dev.bench n).flashState c = fsReady → (s.dev.bench n).fld (R.storage_FLASH_STATUS_DIES c) ≠ 0 →
    Leaves (.flashTrain n c) n s ((s.dev.bench n).setFld (R.storage_FLASH_STATUS_STATE c) fsTraining)) ∧
  (∀ (n : BenchId) (c : Nat) (s : State), (s.dev.bench n).live = true → c < 2 → (s.dev.bench n).flashState c ≠ fsReady → Leaves (.flashTrain n c) n s ((s.dev.bench n).tick T.CFG_REFUSED)) ∧
  (∀ (n : BenchId) (c : Nat) (s : State), (s.dev.bench n).live = true → c < 2 → (s.dev.bench n).flashState c = fsTraining → (s.dev.bench n).cwPerPage c ≠ 0 →
    Leaves (.flashTrainDone n c true) n s
      (((s.dev.bench n).setFld (R.storage_GEOMETRY_CW_PER_PAGE c) ((s.dev.bench n).cwPerPage c)).setFld (R.storage_FLASH_STATUS_STATE c) fsUp)) ∧
  (∀ (n : BenchId) (c : Nat) (s : State), (s.dev.bench n).live = true → c < 2 → (s.dev.bench n).flashState c = fsTraining →
    Runs (.flashTrainDone n c false) n s (fun b => b.flashState c = fsReady ∧
      b.fld (R.storage_FLASH_STATUS_TRAIN_FAIL c) = 1 ∧ b.mem = (s.dev.bench n).mem ∧
      ((s.dev.bench n).sto.log.length < 32 → b.sto.log.length = (s.dev.bench n).sto.log.length + 1))) ∧
  (∀ (n : BenchId) (c : Nat) (v : Word) (k : Int) (s : State), (s.dev.bench n).live = true → c < 2 → dbIndex v.toNat < (s.dev.bench n).fringN c →
    k = countOf ((s.dev.bench n).fringN c) false (dbIndex v.toNat) (dbLap v.toNat) ((s.dev.bench n).fringIdx c) ((s.dev.bench n).fringLap c) → 0 ≤ k →
    k ≤ ((s.dev.bench n).fringN c : Int) →
    Leaves (.flashDb n c v) n s ((s.dev.bench n).setFchan c { (s.dev.bench n).fchan c with prod := (dbIndex v.toNat, dbLap v.toNat) })) ∧
  (∀ (n : BenchId) (c : Nat) (v : Word) (s : State), (s.dev.bench n).live = true → c < 2 → (s.dev.bench n).fringN c ≤ dbIndex v.toNat →
    Runs (.flashDb n c v) n s (fun b => (b.fchan c).stopped = true ∧ b.fld (R.storage_FLASH_STATUS_RING_ERROR c) = 1 ∧
      b.mem = (s.dev.bench n).mem)) ∧
  (∀ (n : BenchId) (c : Nat) (s : State), (s.dev.bench n).live = true → c < 2 →
    Runs (.flashRingReset n c) n s (fun b => (b.fchan c).prod = (0, 1) ∧ (b.fchan c).stopped = false ∧
      b.fringIdx c = 0 ∧ b.fringLap c = 1 ∧ b.sto.ops = (s.dev.bench n).sto.ops ∧ b.mem = (s.dev.bench n).mem)) ∧
  (∀ (n : BenchId) (c : Nat) (s : State), (s.dev.bench n).live = true → c < 2 → (s.dev.bench n).fringWork c = true → ((s.dev.bench n).fchan c).reread = false →
    feBits ((s.dev.bench n).fentry c) 60 31 1 = (s.dev.bench n).fringLap c → (s.dev.bench n).dieRoom c (feDie ((s.dev.bench n).fentry c)) = true →
    Runs (.flashOpFetch n c) n s (fun b => b.mem = (s.dev.bench n).mem ∧
      (∃ o, b.sto.ops = (s.dev.bench n).sto.ops ++ [o] ∧ o.chan = c ∧ o.entry = (s.dev.bench n).fentry c ∧ o.index = (s.dev.bench n).fringIdx c ∧
        o.started = false ∧ o.status = none) ∧
      ((s.dev.bench n).fringIdx c + 1 < (s.dev.bench n).fringN c → (s.dev.bench n).fringIdx c < 255 → b.fringIdx c = (s.dev.bench n).fringIdx c + 1 ∧ b.fringLap c = (s.dev.bench n).fringLap c) ∧
      ((s.dev.bench n).fringIdx c + 1 = (s.dev.bench n).fringN c → b.fringIdx c = 0 ∧ b.fringLap c = 1 - (s.dev.bench n).fringLap c))) ∧
  (∀ (n : BenchId) (c : Nat) (s : State), (s.dev.bench n).live = true → c < 2 → (s.dev.bench n).fringWork c = true → ((s.dev.bench n).fchan c).reread = false →
    feBits ((s.dev.bench n).fentry c) 60 31 1 ≠ (s.dev.bench n).fringLap c →
    Leaves (.flashOpFetch n c) n s ((s.dev.bench n).setFchan c { (s.dev.bench n).fchan c with reread := true })) ∧
  (∀ (n : BenchId) (c : Nat) (s : State), (s.dev.bench n).live = true → c < 2 → (s.dev.bench n).fringWork c = true → ((s.dev.bench n).fchan c).reread = true →
    feBits ((s.dev.bench n).fentry c) 60 31 1 ≠ (s.dev.bench n).fringLap c →
    Runs (.flashEntryReread n c) n s (fun b => (b.fchan c).stopped = true ∧
      b.fld (R.storage_FLASH_STATUS_RING_ERROR c) = 1 ∧ b.sto.ops = (s.dev.bench n).sto.ops ∧ b.mem = (s.dev.bench n).mem)) ∧
  (∀ (n : BenchId) (c : Nat) (s : State), (s.dev.bench n).live = true → c < 2 → (s.dev.bench n).fringWork c = true → ((s.dev.bench n).fchan c).reread = true →
    feBits ((s.dev.bench n).fentry c) 60 31 1 = (s.dev.bench n).fringLap c → (s.dev.bench n).dieRoom c (feDie ((s.dev.bench n).fentry c)) = true →
    Leaves (.flashEntryReread n c) n s ((s.dev.bench n).fetchOp c ((s.dev.bench n).fentry c)))

/-- The flash operations start under their checks, end with their status, and are answered. Rests on spec/14_flash_and_storage.md. -/
def Obligations.FlashOperations : Prop :=
  (∀ (n : BenchId) (c d : Nat) (o : FlashOp) (s : State), (s.dev.bench n).live = true → (s.dev.bench n).dieOp? c d = some o → o.started = false → (s.dev.bench n).opCheck c o.entry = 0 →
    (feOp o.entry = 1 → Leaves (.flashRead n c d) n s
      (((s.dev.bench n).onBus c d 1 (feRow o.entry) [] (fePlanes o.entry)).putOp o { o with started := true, busy := true })) ∧
    (feOp o.entry = 3 → Leaves (.flashErase n c d) n s
      (((s.dev.bench n).onBus c d 3 (feRow o.entry) [] (fePlanes o.entry)).putOp o { o with started := true, busy := true })) ∧
    (feOp o.entry = 4 → Leaves (.flashReadRaw n c d) n s
      (((s.dev.bench n).onBus c d 4 (feRow o.entry) [] (fePlanes o.entry)).putOp o { o with started := true, busy := true })) ∧
    (feOp o.entry = 5 → Leaves (.flashGetFeature n c d) n s
      (((s.dev.bench n).onBus c d 5 (feFeature o.entry) [] (fePlanes o.entry)).putOp o { o with started := true, busy := true })) ∧
    (feOp o.entry = 6 → Leaves (.flashSetFeature n c d) n s
      (((s.dev.bench n).onBus c d 6 (feFeature o.entry) (feParams o.entry) (fePlanes o.entry)).putOp o { o with started := true, busy := true })) ∧
    (feOp o.entry = 7 → Leaves (.flashReadId n c d) n s
      (((s.dev.bench n).onBus c d 7 (feFeature o.entry) [] (fePlanes o.entry)).putOp o { o with started := true, busy := true })) ∧
    (feOp o.entry = 8 → Leaves (.flashReadParam n c d) n s
      (((s.dev.bench n).onBus c d 8 (feRow o.entry) [] (fePlanes o.entry)).putOp o { o with started := true, busy := true })) ∧
    (feOp o.entry = 10 → Leaves (.flashResetLun n c d) n s
      (((s.dev.bench n).onBus c d 10 (feRow o.entry) [] (fePlanes o.entry)).putOp o { o with started := true, busy := true })) ∧
    (feOp o.entry = 9 → Leaves (.flashRetire n c d) n s
      (((s.dev.bench n).retire c d ((s.dev.bench n).rowBlock c (feRow o.entry))).opOver o { o with started := true } 0)) ∧
    (feOp o.entry = 2 → Leaves (.flashProgram n c d []) n s ((s.dev.bench n).startProgram n o []))) ∧
  (∀ (n : BenchId) (c d k : Nat) (ecc : Ecc) (o : FlashOp) (s : State), (s.dev.bench n).live = true → (s.dev.bench n).dieOp? c d = some o → o.started = false → (s.dev.bench n).opCheck c o.entry = k →
    k ≠ 0 →
    (feOp o.entry = 0 ∨ feOp o.entry = 1 → Leaves (.flashRead n c d) n s ((s.dev.bench n).opOver o o k)) ∧
    (feOp o.entry = 2 → Leaves (.flashProgram n c d ecc) n s ((s.dev.bench n).opOver o o k)) ∧
    (feOp o.entry = 3 → Leaves (.flashErase n c d) n s ((s.dev.bench n).opOver o o k)) ∧
    (feOp o.entry = 9 → Leaves (.flashRetire n c d) n s ((s.dev.bench n).opOver o o k))) ∧
  (∀ (n : BenchId) (c d : Nat) (o : FlashOp) (s : State), (s.dev.bench n).live = true → (s.dev.bench n).dieOp? c d = some o → 2 ≤ feOp o.entry → feOp o.entry ≤ 10 →
    Leaves (.flashRead n c d) n s (s.dev.bench n)) ∧
  (∀ (n : BenchId) (c d : Nat) (o : FlashOp) (s : State), (s.dev.bench n).live = true → (s.dev.bench n).dieOp? c d = some o → o.chan = c → feDie o.entry = d → o.started = false →
    (s.dev.bench n).opCheck c o.entry = 0 → feOp o.entry = 9 →
    Runs (.flashRetire n c d) n s (fun b => b.retired c d ((s.dev.bench n).rowBlock c (feRow o.entry)) = true ∧ b.sto.bus = (s.dev.bench n).sto.bus ∧
      MemKept (fun a => a = retiredAt c d ((s.dev.bench n).rowBlock c (feRow o.entry))) (s.dev.bench n) b)) ∧
  (∀ (n : BenchId) (c d : Nat) (data : List Byte) (ecc : Ecc) (o : FlashOp) (s : State), (s.dev.bench n).live = true → (s.dev.bench n).dieOp? c d = some o → o.busy = true →
    (feOp o.entry = 2 → Leaves (.dieReady n c d true data ecc) n s ((s.dev.bench n).opOver o o 0)) ∧
    (feOp o.entry = 2 → Leaves (.dieReady n c d false data ecc) n s ((s.dev.bench n).writeFailed o o 0xB5 2)) ∧
    (feOp o.entry = 3 → o.fails = 0 → Leaves (.dieReady n c d true data ecc) n s ((s.dev.bench n).opOver o o 0)) ∧
    (feOp o.entry = 3 → o.fails = 0 → Leaves (.dieReady n c d false data ecc) n s
      (((s.dev.bench n).onBus o.chan (feDie o.entry) 3 (feRow o.entry) [] (fePlanes o.entry)).putOp o { o with fails := 1 })) ∧
    (feOp o.entry = 3 → o.fails ≠ 0 → Leaves (.dieReady n c d false data ecc) n s ((s.dev.bench n).writeFailed o o 0xB6 3)) ∧
    (feOp o.entry = 5 → Leaves (.dieReady n c d true data ecc) n s
      ((s.dev.bench n).opOver o { o with word2 := leNat (slice data 0 4) } 0)) ∧
    (feOp o.entry = 1 → Leaves (.dieReady n c d true data ecc) n s ((s.dev.bench n).putOp o { o with busy := false, bad := [] }))) ∧
  (∀ (n : BenchId) (c d : Nat) (data : List Byte) (ecc : Ecc) (p : Bool) (s : State), (s.dev.bench n).live = true → (s.dev.bench n).dieOp? c d = none →
    Leaves (.dieReady n c d p data ecc) n s (s.dev.bench n)) ∧
  (∀ (n : BenchId) (c d cw bits : Nat) (l : List Byte) (ecc : Ecc) (o : FlashOp) (s : State), (s.dev.bench n).live = true → (s.dev.bench n).dieOp? c d = some o → feOp o.entry = 1 →
    o.busy = false → o.started = true → cw ∈ cwNamed (feMask o.entry) → cw ∉ o.good → cw ∉ o.bad →
    o.good.length + o.bad.length + 1 < (cwNamed (feMask o.entry)).length →
    Leaves (.codewordDecoded n c d cw false bits l ecc) n s ((s.dev.bench n).putOp o { o with bad := o.bad ++ [cw] }) ∧
    (((s.dev.bench n).cwGood n o cw bits l ecc).2.1 = none →
      Leaves (.codewordDecoded n c d cw true bits l ecc) n s
        (((s.dev.bench n).cwGood n o cw bits l ecc).2.2.putOp o ((s.dev.bench n).cwGood n o cw bits l ecc).1))) ∧
  (∀ (n : BenchId) (c d cw bits : Nat) (l : List Byte) (ecc : Ecc) (o : FlashOp) (s : State), (s.dev.bench n).live = true → (s.dev.bench n).dieOp? c d = some o → feOp o.entry = 1 →
    o.busy = false → o.started = true → cw ∈ cwNamed (feMask o.entry) → cw ∉ o.good → cw ∉ o.bad →
    o.good.length + o.bad.length + 1 = (cwNamed (feMask o.entry)).length →
    o.step < (s.dev.bench n).fld (R.storage_FLASH_CTL_LADDER_LEN o.chan) →
    Leaves (.codewordDecoded n c d cw false bits l ecc) n s
      ((((s.dev.bench n).setLevels o (o.step + 1)).onBus o.chan (feDie o.entry) 1 (feRow o.entry) []).putOp o
        { o with step := o.step + 1, busy := true, bad := [] })) ∧
  (∀ (n : BenchId) (c d : Nat) (o : FlashOp) (s : State), (s.dev.bench n).live = true → (s.dev.bench n).dieOp? c d = some o → o.busy = true → feOp o.entry = 1 → o.timeouts = 0 →
    ((s.dev.bench n).fchan o.chan).late.contains (feDie o.entry) = false →
    Leaves (.dieOpTimeout n c d) n s
      ((((s.dev.bench n).onBus o.chan (feDie o.entry) 10 0 []).onBus o.chan (feDie o.entry) 1 (feRow o.entry) []).putOp o
        { o with timeouts := 1 })) ∧
  (∀ (n : BenchId) (c d : Nat) (o : FlashOp) (s : State), (s.dev.bench n).live = true → (s.dev.bench n).dieOp? c d = some o → o.busy = true → o.timeouts ≠ 0 →
    Leaves (.dieOpTimeout n c d) n s
      ((((((s.dev.bench n).setFld (R.storage_DIE_INFO_INFO o.chan (feDie o.entry)) 3).countDies o.chan).opOver o
        { o with timeouts := o.timeouts + 1 } 0xB2).mediaLog 4 o.chan (feDie o.entry) (feRow o.entry)))) ∧
  (∀ (n : BenchId) (c d st : Nat) (o : FlashOp) (s : State), (s.dev.bench n).live = true → (s.dev.bench n).sto.ops.find? (fun o => o.chan = c && feDie o.entry = d) = some o →
    o.status = some st → (s.dev.bench n).doneRoom = true → (s.dev.bench n).quiet →
    Runs (.flashDoneMsg n c d) n s (fun b => b.sto.ops = (s.dev.bench n).sto.ops.filter (· ≠ o) ∧ b.mem = (s.dev.bench n).mem ∧
      b.chMsgs 5 = (s.dev.bench n).chMsgs 5 ++ [o.message st])) ∧
  (∀ (n : BenchId) (c d : Nat) (o : FlashOp) (s : State), (s.dev.bench n).live = true → (s.dev.bench n).sto.ops.find? (fun o => o.chan = c && feDie o.entry = d) = some o →
    o.status = none ∨ (s.dev.bench n).doneRoom = false → Leaves (.flashDoneMsg n c d) n s (s.dev.bench n))

/-- XTS slots, the NVMe controllers' registers and doorbells, their completions, and the flush. Rests on spec/14_flash_and_storage.md. -/
def Obligations.XtsSlotsAndNvmePages : Prop :=
  (∀ (n : BenchId) (k : Nat) (s : State), (s.dev.bench n).live = true → k < 64 → (s.dev.bench n).flag (R.storage_XTS_NS_LOADED k) = true →
    Leaves (.xtsEnable n k) n s ((s.dev.bench n).setFld (R.storage_XTS_NS_EN k) 1)) ∧
  (∀ (n : BenchId) (k : Nat) (s : State), (s.dev.bench n).live = true → k < 64 → (s.dev.bench n).flag (R.storage_XTS_NS_LOADED k) = false →
    Leaves (.xtsEnable n k) n s ((s.dev.bench n).tick T.CFG_REFUSED)) ∧
  (∀ (n : BenchId) (k : Nat) (s : State), (s.dev.bench n).live = true → k < 64 →
    Leaves (.xtsDisable n k) n s (((s.dev.bench n).setFld (R.storage_XTS_NS_EN k) 0).setFld (R.storage_XTS_NS_DRAINING k) 1)) ∧
  (∀ (n : BenchId) (k : Nat) (s : State), (s.dev.bench n).live = true → k < 64 → (s.dev.bench n).flag (R.storage_XTS_NS_DRAINING k) = true →
    (s.dev.bench n).sto.ops.any (fun o => o.started && o.status.isNone && feXts o.entry && feNs o.entry = k) = false →
    Runs (.xtsSlotZeroised n k) n s (fun b => b.fld (R.storage_XTS_NS_LOADED k) = 0 ∧
      b.fld (R.storage_XTS_NS_DRAINING k) = 0 ∧ (∀ i, i < 64 → memByte b.keys (0x100000 + 64 * k + i) = 0#8) ∧
      (∀ a, a < 0x100000 + 64 * k ∨ 0x100000 + 64 * k + 64 ≤ a → memByte b.keys a = memByte (s.dev.bench n).keys a) ∧ b.mem = (s.dev.bench n).mem)) ∧
  (∀ (n : BenchId) (k off : Nat) (s : State), (s.dev.bench n).live = true → (s.dev.bench n).flag (R.storage_NVME_CTRL_VALID k) = true →
    Answers (.nvmeRegAccess n k off none) n s [(s.dev.bench n).nvmeWord k off] (s.dev.bench n)) ∧
  (∀ (n : BenchId) (k off : Nat) (s : State), (s.dev.bench n).live = true → (s.dev.bench n).flag (R.storage_NVME_CTRL_VALID k) = false →
    Answers (.nvmeRegAccess n k off none) n s [0] (s.dev.bench n)) ∧
  (∀ (n : BenchId) (k : Nat) (v : Word) (s : State), (s.dev.bench n).live = true → (s.dev.bench n).flag (R.storage_NVME_CTRL_VALID k) = true → bit ((s.dev.bench n).npage k).cc 0 = false →
    Leaves (.nvmeRegAccess n k 0x24 (some v)) n s ((s.dev.bench n).setNpage k { (s.dev.bench n).npage k with aqa := v.toNat })) ∧
  (∀ (n : BenchId) (k : Nat) (v : Word) (s : State), (s.dev.bench n).live = true → (s.dev.bench n).flag (R.storage_NVME_CTRL_VALID k) = true → bit ((s.dev.bench n).npage k).cc 0 = true →
    Leaves (.nvmeRegAccess n k 0x24 (some v)) n s ((s.dev.bench n).tick T.NVME_REG_IGNORED)) ∧
  (∀ (n : BenchId) (k : Nat) (v : Word) (s : State), (s.dev.bench n).live = true → (s.dev.bench n).flag (R.storage_NVME_CTRL_VALID k) = true → (s.dev.bench n).quiet → (s.dev.bench n).sto.msgs = [] →
    ((s.dev.bench n).chMsgs 4).length < 256 →
    Runs (.nvmeCcWrite n k v) n s (fun b => (b.npage k).cc = v.toNat ∧ b.mem = (s.dev.bench n).mem ∧
      b.chMsgs 4 = (s.dev.bench n).chMsgs 4 ++ [[storageWord 1 ((s.dev.bench n).fld (R.storage_NVME_CTRL_CLAIM k)) 0 0, BitVec.ofNat 64 v.toNat, BitVec.ofNat 64 ((s.dev.bench n).npage k).aqa, BitVec.ofNat 64 ((s.dev.bench n).npage k).asq, BitVec.ofNat 64 ((s.dev.bench n).npage k).acq, 0, 0, 0, 0, 0]])) ∧
  (∀ (n : BenchId) (k y r : Nat) (v : Word) (c : Claim) (s : State), (s.dev.bench n).live = true → (s.dev.bench n).flag (R.storage_NVME_CTRL_VALID k) = true → y < 64 →
    (s.dev.bench n).claim? ((s.dev.bench n).fld (R.storage_NVME_CTRL_CLAIM k)) = some c → r = c.ringBase + 2 * y → c.owns r = true →
    (s.dev.bench n).ringKind r = 4 → bit ((s.dev.bench n).npage k).cc 0 = true → v.toNat % 65536 < (s.dev.bench n).ringN r →
    LeavesBoth (.nvmeSqDoorbell n k y v) n s s.dev.hub
      ((((s.dev.bench n).setMbits (ringAddr r) 128 16 (v.toNat % 65536)).setMbits (ringAddr r) 144 1 ((s.dev.bench n).hostLap r)).judgeHeld)) ∧
  (∀ (n : BenchId) (k y r : Nat) (v : Word) (c : Claim) (s : State), (s.dev.bench n).live = true → (s.dev.bench n).flag (R.storage_NVME_CTRL_VALID k) = true → y < 64 →
    (s.dev.bench n).claim? ((s.dev.bench n).fld (R.storage_NVME_CTRL_CLAIM k)) = some c → r = c.ringBase + 2 * y → (s.dev.bench n).ringKind r ≠ 4 →
    Leaves (.nvmeSqDoorbell n k y v) n s ((s.dev.bench n).tick T.NVME_DB_IGNORED)) ∧
  (∀ (n : BenchId) (k y r : Nat) (v : Word) (c : Claim) (s : State), (s.dev.bench n).live = true → (s.dev.bench n).flag (R.storage_NVME_CTRL_VALID k) = true → y < 64 →
    (s.dev.bench n).claim? ((s.dev.bench n).fld (R.storage_NVME_CTRL_CLAIM k)) = some c → r = c.ringBase + 2 * y + 1 → c.owns r = true →
    (s.dev.bench n).ringKind r = 5 → bit ((s.dev.bench n).npage k).cc 0 = true → v.toNat % 65536 < (s.dev.bench n).ringN r →
    (v.toNat % 65536 + (s.dev.bench n).ringN r - (s.dev.bench n).hostIndex r) % (s.dev.bench n).ringN r ≤ ((s.dev.bench n).ringCount r).toNat →
    LeavesBoth (.nvmeCqDoorbell n k y v) n s (ringDoorbell n s.dev.hub (s.dev.bench n) r (v.toNat % 65536) ((s.dev.bench n).hostLap r) true).1
      ((ringDoorbell n s.dev.hub (s.dev.bench n) r (v.toNat % 65536) ((s.dev.bench n).hostLap r) true).2.judgeHeld)) ∧
  (∀ (n : BenchId) (k y r : Nat) (v : Word) (c : Claim) (s : State), (s.dev.bench n).live = true → (s.dev.bench n).flag (R.storage_NVME_CTRL_VALID k) = true → y < 64 →
    (s.dev.bench n).claim? ((s.dev.bench n).fld (R.storage_NVME_CTRL_CLAIM k)) = some c → r = c.ringBase + 2 * y + 1 → (s.dev.bench n).ringKind r ≠ 5 →
    Leaves (.nvmeCqDoorbell n k y v) n s ((s.dev.bench n).tick T.NVME_DB_IGNORED)) ∧
  (∀ (n : BenchId) (core t q r sqid : Nat) (v : Word) (c : Claim) (s : State), (s.dev.bench n).live = true → core < 8 → t < 8 →
    q = getBits ((s.dev.bench n).reg (R.storage_NVME_CPL core t)).toNat 0 14 → r = getBits ((s.dev.bench n).reg (R.storage_NVME_CPL core t)).toNat 16 14 →
    (s.dev.bench n).ringKind q = 5 → (s.dev.bench n).ringKind r = 4 → (s.dev.bench n).ringClaim q = (s.dev.bench n).ringClaim r → (s.dev.bench n).ringCq r = q →
    (s.dev.bench n).claim? ((s.dev.bench n).ringClaim r) = some c → sqid = (r - c.ringBase) / 2 →
    Leaves (.nvmeCplCommit n core t v) n s ((s.dev.bench n).postCpl 22 q [((s.dev.bench n).reg (R.storage_NVME_CPL1 core t)).toNat,
      ((s.dev.bench n).reg (R.storage_NVME_CPL2 core t)).toNat, (s.dev.bench n).devIndex r + 2 ^ 16 * sqid,
      getBits v.toNat 0 16 + 2 ^ 17 * getBits v.toNat 16 15])) ∧
  (∀ (n : BenchId) (core t : Nat) (v : Word) (s : State), (s.dev.bench n).live = true → core < 8 → t < 8 →
    (s.dev.bench n).ringKind (getBits ((s.dev.bench n).reg (R.storage_NVME_CPL core t)).toNat 0 14) ≠ 5 →
    Leaves (.nvmeCplCommit n core t v) n s ((s.dev.bench n).tick T.NVME_CPL_REFUSED)) ∧
  (∀ (n : BenchId) (s : State), (s.dev.bench n).live = true → (s.dev.bench n).flag R.storage_FLUSH_STATUS_RUNNING = true → (s.dev.bench n).fld R.storage_FLUSH_CTL_FLUSH_LEN = 0 →
    Runs (.flushDone n []) n s (fun b => b.fld R.storage_FLUSH_STATUS_RUNNING = 0 ∧ b.fld R.storage_FLUSH_STATUS_DONE = 1 ∧
      b.fld R.storage_FLUSH_COUNT_PROGRAMMED = 0 ∧ b.fld R.storage_FLUSH_COUNT_SKIPPED = 0 ∧ b.mem = (s.dev.bench n).mem)) ∧
  (∀ (n : BenchId) (ecc : Ecc) (r : Nat × Nat × Bench) (s : State), (s.dev.bench n).live = true → (s.dev.bench n).flag R.storage_FLUSH_STATUS_RUNNING = true →
    r = Bench.flushRun ecc ((s.dev.bench n).fld R.storage_FLUSH_CTL_FLUSH_LEN) 0 none 0 0 (s.dev.bench n) →
    Leaves (.flushDone n ecc) n s
      ((((r.2.2.setFld R.storage_FLUSH_COUNT_PROGRAMMED r.1).setFld R.storage_FLUSH_COUNT_SKIPPED r.2.1).setFld
        R.storage_FLUSH_STATUS_RUNNING 0).setFld R.storage_FLUSH_STATUS_DONE 1 |>.mediaLog 8 0 0 r.1))

/-- The DRAM subchannel starts, serves its queue, refreshes, sleeps, and answers a lasting fault. Rests on spec/15_dram.md. -/
def Obligations.DramStartAndRequests : Prop :=
  (∀ (n : BenchId) (s : State), (s.dev.bench n).awake = true → (s.dev.bench n).dramState = dramWaitCfg → (s.dev.bench n).dramGoBad = false →
    Runs (.dramGo n) n s (fun b => b.dramState = dramTraining ∧ ((s.dev.bench n).dram.retained = false → b.mem = (s.dev.bench n).mem) ∧
      b.fld R.dram_DRAM_LAT_READ_LAT = 2 * dramTiming ((s.dev.bench n).fld R.dram_DRAM_CFG_RATE) + 10 ∧
      b.fld R.dram_DRAM_LAT_WRITE_LAT = 2 * dramTiming ((s.dev.bench n).fld R.dram_DRAM_CFG_RATE) + 5 ∧ b.dram.kept = (s.dev.bench n).dramCfg)) ∧
  (∀ (n : BenchId) (s : State), (s.dev.bench n).awake = true → (s.dev.bench n).dramState ≠ dramWaitCfg ∨ (s.dev.bench n).dramGoBad = true →
    Leaves (.dramGo n) n s ((s.dev.bench n).tick T.CFG_REFUSED)) ∧
  (∀ (n : BenchId) (s : State), (s.dev.bench n).awake = true → (s.dev.bench n).dramState = dramTraining →
    Runs (.dramTrainDone n false) n s (fun b => b.dramState = dramFailed ∧ b.fld R.dram_DRAM_STATUS_TRAIN_FAIL = 1 ∧
      b.mem = (s.dev.bench n).mem) ∧
    ((s.dev.bench n).dram.retained = false → (s.dev.bench n).flag R.dram_DRAM_CFG_FILL = true →
      Leaves (.dramTrainDone n true) n s ((s.dev.bench n).setFld R.dram_DRAM_STATUS_STATE dramFill)) ∧
    ((s.dev.bench n).dram.retained = true ∨ (s.dev.bench n).flag R.dram_DRAM_CFG_FILL = false →
      Runs (.dramTrainDone n true) n s (fun b => b.dramState = dramReady ∧ b.mem = (s.dev.bench n).mem))) ∧
  (∀ (n : BenchId) (s : State), (s.dev.bench n).awake = true → (s.dev.bench n).dramState = dramFill →
    Runs (.dramFillDone n) n s (fun b => b.dramState = dramReady ∧ b.dram.poison = [] ∧ b.dram.lost = [] ∧
      ∀ a, memByte b.mem a = if a < dramBase then memByte (s.dev.bench n).mem a else 0#8)) ∧
  (∀ (n : BenchId) (s : State), (s.dev.bench n).live = true → eligibleAt [] (s.dev.bench n).dram.reqs ≠ [] → (s.dev.bench n).quiet →
    (∀ x ∈ eligibleAt [] (s.dev.bench n).dram.reqs, x.2.1.write = true → x.2.1.data.length = 64 ∧ (s.dev.bench n).slotFailed ((s.dev.bench n).slotAt x.2.1.addr) = false) →
    Runs (.dramRequestIssue n []) n s (fun b => ∃ x ∈ eligibleAt [] (s.dev.bench n).dram.reqs, (x.2.1.write = false → b.mem = (s.dev.bench n).mem) ∧
      (x.2.1.write = true → MemKept (fun a => dramBase + x.2.1.addr ≤ a ∧ a < dramBase + x.2.1.addr + 64) (s.dev.bench n) b ∧
        (∀ i, i < 64 → memByte b.mem (dramBase + x.2.1.addr + i) = x.2.1.data.getD i 0#8) ∧
        b.tally T.DRAM_WRITES = min tallyMax ((s.dev.bench n).tally T.DRAM_WRITES + 1)))) ∧
  (∀ (n : BenchId) (ecc : Ecc) (s : State), (s.dev.bench n).live = true → eligibleAt [] (s.dev.bench n).dram.reqs = [] → (s.dev.bench n).quiet → Leaves (.dramRequestIssue n ecc) n s (s.dev.bench n)) ∧
  (∀ (n : BenchId) (pre post : List DramReq) (r : DramReq) (s : State), (s.dev.bench n).live = true → splitReturning [] (s.dev.bench n).dram.reqs = some (pre, r, post) → r.use.ended = false →
    (s.dev.bench n).slotFailed ((s.dev.bench n).slotAt r.addr) = false → r.addr / 64 ∉ (s.dev.bench n).dram.poison → r.addr / 64 ∉ (s.dev.bench n).dram.lost →
    (s.dev.bench n).dram.checks = [] →
    Leaves (.dramReadComplete n []) n s
      (((s.dev.bench n).tick T.DRAM_READS).setReqs (pre ++ [{ r with done := true, bad := false, reread := false }] ++ post))) ∧
  (∀ (n : BenchId) (pre post : List DramReq) (r : DramReq) (ecc : Ecc) (s : State), (s.dev.bench n).live = true → splitReturning [] (s.dev.bench n).dram.reqs = some (pre, r, post) →
    r.use.ended = false → (s.dev.bench n).slotFailed ((s.dev.bench n).slotAt r.addr) = true → ecc = [] → (s.dev.bench n).dram.checks = [] →
    Leaves (.dramReadComplete n ecc) n s
      (((s.dev.bench n).tick T.DRAM_READS).setReqs (pre ++ [{ r with done := true, bad := true, reread := false }] ++ post))) ∧
  (∀ (n : BenchId) (pre post : List DramReq) (r : DramReq) (ecc : Ecc) (s : State), (s.dev.bench n).live = true → splitReturning [] (s.dev.bench n).dram.reqs = some (pre, r, post) →
    r.use.ended = true → Leaves (.dramReadComplete n ecc) n s (((s.dev.bench n).readLine r.addr ecc).2.setReqs (pre ++ post))) ∧
  (∀ (n : BenchId) (hot : Bool) (s : State), (s.dev.bench n).live = true → (s.dev.bench n).dramState = dramReady ∨ (s.dev.bench n).dramState = dramFill →
    Runs (.dramRefresh n hot) n s (fun b => b.dram.refresh = ((s.dev.bench n).dram.refresh + 1) % 4 ∧ b.mem = (s.dev.bench n).mem ∧
      b.flag R.dram_DRAM_STATUS_HOT = hot ∧ b.tally T.DRAM_REFRESH = min tallyMax ((s.dev.bench n).tally T.DRAM_REFRESH + 1))) ∧
  (∀ (n : BenchId) (s : State), (s.dev.bench n).live = true → (s.dev.bench n).dramState = dramReady → (s.dev.bench n).fld R.dram_SR_IDLE_US ≠ 0 → (s.dev.bench n).dram.reqs = [] →
    Leaves (.dramSrEntry n) n s (((s.dev.bench n).setFld R.dram_DRAM_STATUS_STATE dramSelfRefresh).tick T.DRAM_SR_ENTRIES)) ∧
  (∀ (n : BenchId) (s : State), (s.dev.bench n).live = true → (s.dev.bench n).dramState = dramReady → (s.dev.bench n).fld R.dram_SR_IDLE_US = 0 → Leaves (.dramSrEntry n) n s (s.dev.bench n)) ∧
  (∀ (n : BenchId) (x : Nat) (s : State), (s.dev.bench n).live = true → (s.dev.bench n).dramUp = true → x < (s.dev.bench n).capacity →
    Leaves (.dramAlert n x false) n s ((s.dev.bench n).tick T.DRAM_ALERT_OK)) ∧
  (∀ (n : BenchId) (x : Nat) (s : State), (s.dev.bench n).live = true → (s.dev.bench n).dramUp = true → x < (s.dev.bench n).capacity →
    Runs (.dramAlert n x true) n s (fun b => x / 64 ∈ b.dram.lost ∧ b.mem = (s.dev.bench n).mem)) ∧
  (∀ (n : BenchId) (k : Nat) (s : State), (s.dev.bench n).live = true → (s.dev.bench n).dramState = dramReady → k < (s.dev.bench n).slots → k < 4 → (s.dev.bench n).slotFailed k = false →
    (s.dev.bench n).flag R.dram_DRAM_STATUS_MIG_ACTIVE = false → (s.dev.bench n).flag R.dram_DRAM_STATUS_SPARE_USED = false →
    (s.dev.bench n).flag R.dram_DRAM_CFG_SPARE_EN = true →
    Runs (.dramRetire n k) n s (fun b => b.migrating k = true ∧ b.fld R.dram_MIG_LINE_LINE = 0 ∧ b.mem = (s.dev.bench n).mem)) ∧
  (∀ (n : BenchId) (k : Nat) (s : State), (s.dev.bench n).live = true → (s.dev.bench n).dramState = dramReady → k < (s.dev.bench n).slots → k < 4 → (s.dev.bench n).slotFailed k = false →
    (s.dev.bench n).flag R.dram_DRAM_STATUS_MIG_ACTIVE = false → (s.dev.bench n).flag R.dram_DRAM_CFG_SPARE_EN = false →
    Runs (.dramRetire n k) n s (fun b => b.slotFailed k = true ∧ b.mem = (s.dev.bench n).mem)) ∧
  (∀ (n : BenchId) (k x : Nat) (s : State), (s.dev.bench n).live = true → (s.dev.bench n).flag R.dram_DRAM_STATUS_MIG_ACTIVE = true → k = (s.dev.bench n).fld R.dram_MIG_LINE_LINE →
    x = (s.dev.bench n).fld R.dram_DRAM_STATUS_MIG_SLOT * (s.dev.bench n).rankBytes + 64 * k → k + 1 < (s.dev.bench n).rankBytes / 64 →
    (s.dev.bench n).slotFailed ((s.dev.bench n).slotAt x) = false → x / 64 ∉ (s.dev.bench n).dram.poison → x / 64 ∉ (s.dev.bench n).dram.lost → (s.dev.bench n).dram.checks = [] →
    Leaves (.dramMigStep n []) n s (((((s.dev.bench n).tick T.DRAM_READS).plainLine x).tick T.DRAM_WRITES).setFld R.dram_MIG_LINE_LINE (k + 1)))

/-- The mailbox registers of a LIVE mailbox, its doorbells, and Ryuner taking a command from it. Rests on spec/17_foreman_and_mailboxes.md. -/
def Obligations.Mailboxes : Prop :=
  (∀ (m : Nat) (v : Word) (s : State), s.dev.hub.mbxLive m = true → (s.dev.hub.mbx m).inq.length < 16 →
    LeavesHub (.mbxInPush m v) s (s.dev.hub.setMbx m { s.dev.hub.mbx m with inq := (s.dev.hub.mbx m).inq ++ [v] })) ∧
  (∀ (m : Nat) (v : Word) (s : State), s.dev.hub.mbxLive m = true → 16 ≤ (s.dev.hub.mbx m).inq.length →
    RunsHub (.mbxInPush m v) s (fun h => (h.mbx m).inq = (s.dev.hub.mbx m).inq.dropLast ++ [v] ∧ (h.mbx m).collided = true ∧
      h.tally T.MBX_COLLIDED = min tallyMax (s.dev.hub.tally T.MBX_COLLIDED + 1) ∧ h.mem = s.dev.hub.mem)) ∧
  (∀ (m : Nat) (v : Word) (s : State), s.dev.hub.mbxLive m = false →
    LeavesHub (.mbxInPush m v) s (s.dev.hub.tick T.MBX_HOST_REFUSED)) ∧
  (∀ (m : Nat) (w : Word) (l : List Word) (s : State), s.dev.hub.mbxLive m = true → (s.dev.hub.mbx m).outq = w :: l →
    exec (.mbxOutPop m) s = .next { s with dev := { s.dev with hub := s.dev.hub.setMbx m { s.dev.hub.mbx m with outq := l }, answer := [w.toNat + 2 ^ 32] } }) ∧
  (∀ (m : Nat) (s : State), s.dev.hub.mbxLive m = true → (s.dev.hub.mbx m).outq = [] →
    exec (.mbxOutPop m) s = .next { s with dev := { s.dev with hub := s.dev.hub.tick T.MBX_EMPTY_READ, answer := [0] } }) ∧
  (∀ (m : Nat) (w : Word) (s : State), s.dev.hub.mbxLive m = true → (s.dev.hub.mbx m).ack = some w →
    exec (.mbxAckRead m) s = .next { s with dev := { s.dev with hub := s.dev.hub.setMbx m { s.dev.hub.mbx m with ack := none }, answer := [w.toNat] } }) ∧
  (∀ (m : Nat) (s : State), s.dev.hub.mbxLive m = true → (s.dev.hub.mbx m).ack = none →
    exec (.mbxAckRead m) s = .next { s with dev := { s.dev with hub := s.dev.hub.tick T.MBX_EARLY_READ, answer := [0] } }) ∧
  (∀ (m : Nat) (v : Word) (s : State), s.dev.hub.mbxLive m = true →
    LeavesHub (.dbToFmWrite m v) s (s.dev.hub.setMbx m { s.dev.hub.mbx m with dbFm := Nat.lor (s.dev.hub.mbx m).dbFm v.toNat })) ∧
  (∀ (m : Nat) (v : Word) (s : State), Nat.land (v.toNat % 8) (0xFFFFFFFF - (s.dev.hub.mbx m).maskHost) = 0 →
    LeavesHub (.dbToHostRaise m v) s (s.dev.hub.setMbx m { s.dev.hub.mbx m with dbHost := Nat.lor (s.dev.hub.mbx m).dbHost (v.toNat % 8) })) ∧
  (∀ (m : Nat) (v : Word) (s : State), Nat.land (v.toNat % 8) (0xFFFFFFFF - (s.dev.hub.mbx m).maskHost) ≠ 0 →
    LeavesHub (.dbToHostRaise m v) s
      ((s.dev.hub.setMbx m { s.dev.hub.mbx m with dbHost := Nat.lor (s.dev.hub.mbx m).dbHost (v.toNat % 8) }).mbxInterrupt m)) ∧
  (∀ (m : Nat) (v : DWord) (a : AdminPair) (s : State), s.dev.hub.mbxLive m = true → (s.dev.hub.mbx m).admin = some a →
    (s.dev.hub.mbx m).adminErr = false →
    RunsHub (.adminSqDoorbell m v) s (fun h => bit (h.mbx m).dbFm 31 = true ∧ h.mem = s.dev.hub.mem ∧ h.regs = s.dev.hub.regs ∧
      (a.sqBad (getBits v.toNat 0 16) (getBits v.toNat 16 1) = false →
        (h.mbx m).admin = some { a with sqHost := (getBits v.toNat 0 16, getBits v.toNat 16 1) } ∧ (h.mbx m).adminErr = false) ∧
      (a.sqBad (getBits v.toNat 0 16) (getBits v.toNat 16 1) = true →
        (h.mbx m).admin = some a ∧ (h.mbx m).adminErr = true))) ∧
  (∀ (m : Nat) (v : DWord) (a : AdminPair) (s : State), s.dev.hub.mbxLive m = true → (s.dev.hub.mbx m).admin = some a →
    (s.dev.hub.mbx m).adminErr = false →
    RunsHub (.adminCqDoorbell m v) s (fun h => h.mem = s.dev.hub.mem ∧ h.regs = s.dev.hub.regs ∧
      (a.cqBad (getBits v.toNat 0 16) (getBits v.toNat 16 1) = false →
        (h.mbx m).admin = some { a with cqHost := (getBits v.toNat 0 16, getBits v.toNat 16 1) } ∧ (h.mbx m).adminErr = false) ∧
      (a.cqBad (getBits v.toNat 0 16) (getBits v.toNat 16 1) = true →
        (h.mbx m).admin = some a ∧ (h.mbx m).adminErr = true))) ∧
  (∀ (m : Nat) (w : Word) (l : List Word) (r : CmdRow) (s : State), s.dev.hub.ryuner = true → m < 4112 → s.dev.hub.mbxLive m = true →
    bit (unmasked (s.dev.hub.mbx m).dbFm (s.dev.hub.mbx m).maskFm) 0 = true → (s.dev.hub.mbx m).busy = false → (s.dev.hub.mbx m).collided = false →
    (s.dev.hub.mbx m).inq = w :: l → l.length = getBits w.toNat 12 4 → cmdRow (getBits w.toNat 0 12) = some r →
    getBits w.toNat 12 4 = r.words → getBits w.toNat 24 8 = 0 →
    RunsHub (.mbxGo m) s (fun h => h.fw.cmds = s.dev.hub.fw.cmds ++ [{ sceuneOfWords m false (0, 0) ((w :: l).map BitVec.toNat) with id := s.dev.hub.fw.cmdNo }] ∧
      (h.mbx m).busy = true ∧ (h.mbx m).dbFm = (s.dev.hub.mbx m).dbFm - 2 * ((s.dev.hub.mbx m).dbFm / 2 % 2 ^ 30) - 1 ∧
      (h.mbx m).inq = [] ∧ (h.mbx m).outq = [] ∧ h.mem = s.dev.hub.mem ∧ h.regs = s.dev.hub.regs)) ∧
  (∀ (m : Nat) (s : State), s.dev.hub.ryuner = true → m < 4112 → s.dev.hub.mbxLive m = true →
    bit (unmasked (s.dev.hub.mbx m).dbFm (s.dev.hub.mbx m).maskFm) 0 = true → (s.dev.hub.mbx m).busy = false → (s.dev.hub.mbx m).collided = true →
    RunsHub (.mbxGo m) s (fun h => (h.mbx m).busy = false ∧ (h.mbx m).collided = false ∧ (h.mbx m).inq = [] ∧
      (h.mbx m).ack = some (BitVec.ofNat 32 (rcCollided + 2 ^ 16 + 2 ^ 24 * (((s.dev.hub.mbx m).seq + 1) % 256))))) ∧
  (∀ (m : Nat) (again : Bool) (a : AdminPair) (s : State), s.dev.hub.ryuner = true → m < 4112 →
    s.dev.hub.mbxLive m = true → (s.dev.hub.mbx m).admin = some a → (s.dev.hub.mbx m).adminErr = false → s.dev.hub.mbxMute m = false → 0 < a.waiting →
    a.unread + (s.dev.hub.fw.cmds.filter (fun c => c.mbx = m && c.admin)).length + a.held.length < 2 ^ a.cqSize →
    a.entry = .idle → a.reread = false ∨ again = true → (s.dev.bench (s.dev.hub.readBench m)).roomToRead s.dev.hub (s.dev.hub.mbx m).fn 64 = true →
    Completes (.adminCommand m again) s (fun t => t.pending = s.pending ∧ t.dev.answer = s.dev.answer ∧
      (t.dev.hub.mbx m).admin = some { a with entry := .asked s.dev.hub.fw.cmdNo } ∧ t.dev.hub.fw.cmdNo = s.dev.hub.fw.cmdNo + 1 ∧
      (t.dev.bench (s.dev.hub.readBench m)).reads.length = (s.dev.bench (s.dev.hub.readBench m)).reads.length + 1 ∧
      ∀ j, j ≠ s.dev.hub.readBench m → t.dev.bench j = s.dev.bench j)) ∧
  (∀ (m : Nat) (again : Bool) (a : AdminPair) (w : Nat) (l : List Nat) (r : CmdRow) (s : State), s.dev.hub.ryuner = true → m < 4112 →
    s.dev.hub.mbxLive m = true → (s.dev.hub.mbx m).admin = some a → (s.dev.hub.mbx m).adminErr = false → s.dev.hub.mbxMute m = false → 0 < a.waiting →
    a.unread + (s.dev.hub.fw.cmds.filter (fun c => c.mbx = m && c.admin)).length + a.held.length < 2 ^ a.cqSize →
    a.entry = .got (w :: l) → getBits ((w :: l).getD 15 0) 31 1 = a.sqDev.2 → cmdRow (getBits w 0 12) = some r →
    getBits w 12 4 = r.words → getBits w 24 8 = 0 →
    RunsHub (.adminCommand m again) s (fun h =>
      h.fw.cmds = s.dev.hub.fw.cmds ++ [{ sceuneOfWords m true (adminNext a.sqSize a.sqDev) (w :: l) with id := s.dev.hub.fw.cmdNo }] ∧
      (h.mbx m).admin = some { a with sqDev := adminNext a.sqSize a.sqDev, reread := false, entry := .idle } ∧ h.mem = s.dev.hub.mem)) ∧
  (∀ (m : Nat) (again : Bool) (a : AdminPair) (ws : List Nat) (s : State), s.dev.hub.ryuner = true → m < 4112 →
    s.dev.hub.mbxLive m = true → (s.dev.hub.mbx m).admin = some a → (s.dev.hub.mbx m).adminErr = false → s.dev.hub.mbxMute m = false → 0 < a.waiting →
    a.unread + (s.dev.hub.fw.cmds.filter (fun c => c.mbx = m && c.admin)).length + a.held.length < 2 ^ a.cqSize →
    a.entry = .got ws → getBits (ws.getD 15 0) 31 1 ≠ a.sqDev.2 →
    RunsHub (.adminCommand m again) s (fun h => h.fw.cmds = s.dev.hub.fw.cmds ∧ h.mem = s.dev.hub.mem ∧ (h.mbx m).adminErr = a.reread ∧
      (h.mbx m).admin = some { a with entry := .idle, reread := true })) ∧
  (∀ (m : Nat) (again : Bool) (a : AdminPair) (s : State), s.dev.hub.ryuner = true → m < 4112 →
    s.dev.hub.mbxLive m = true → (s.dev.hub.mbx m).admin = some a → (s.dev.hub.mbx m).adminErr = false → s.dev.hub.mbxMute m = false → 0 < a.waiting →
    a.unread + (s.dev.hub.fw.cmds.filter (fun c => c.mbx = m && c.admin)).length + a.held.length < 2 ^ a.cqSize →
    a.entry = .failed →
    RunsHub (.adminCommand m again) s (fun h => h.fw.cmds = s.dev.hub.fw.cmds ∧ h.mem = s.dev.hub.mem ∧ (h.mbx m).adminErr = true ∧
      (h.mbx m).admin = some { a with entry := .idle }))

/-- Whatever Sceune command Ryuner comes to, a general check that fails ends it with its code and no other effect; its data is read first. Rests on spec/17_foreman_and_mailboxes.md. -/
def Obligations.GeneralRefusalsChangeNothing : Prop :=
  (∀ (i : Instr) (m op k : Nat) (c : Sceune) (r : CmdRow) (s : State),
    sceuneCmd i = some (m, op, false) → s.dev.hub.ryuner = true → s.dev.hub.turn m op = some c → c.begun = false → cmdRow op = some r →
    s.dev.generalCode c r = some k → Ends i s c s.dev k []) ∧
  (∀ (i : Instr) (m op : Nat) (c : Sceune) (r : CmdRow) (s : State),
    sceuneCmd i = some (m, op, true) → s.dev.hub.ryuner = true → s.dev.hub.turn m op = some c → cmdRow op = some r →
    Ends i s c s.dev rcTimeout []) ∧
  (∀ (i : Instr) (m op k : Nat) (c : Sceune) (r : CmdRow) (s : State),
    sceuneCmd i = some (m, op, false) → s.dev.hub.ryuner = true → s.dev.hub.turn m op = some c → c.begun = false → cmdRow op = some r →
    s.dev.generalCode c r = none → r.haddr = some k → c.readDone = false →
    exec i s = .next { s with dev := s.dev.askMore c (c.w64 k) }) ∧
  (∀ (i : Instr) (m op : Nat) (late : Bool) (s : State),
    sceuneCmd i = some (m, op, late) → s.dev.hub.ryuner = false ∨ s.dev.hub.turn m op = none → Idles i s)

/-- Sceune commands of the device: identity, notices, admin pairs, managers, events, tallies, debug, attestation, keys. Rests on spec/17_foreman_and_mailboxes.md spec/18_security_debug_power.md spec/19_errors_and_tallies.md spec/20_start_up_and_reset.md. -/
def Obligations.SceuneCommandsOfTheDevice : Prop :=
  (∀ (m : Nat) (c : Sceune) (s : State), Taken s m 0x001 [] c → Ends (.identify m) s c s.dev 0 (s.dev.identify c.mbx)) ∧
  (∀ (m : Nat) (c : Sceune) (r : List Nat) (t : List (List Nat)) (s : State), Taken s m 0x002 [] c →
    (s.dev.hub.mbx c.mbx).notices = r :: t →
    Ends (.noticeGet m) s c { s.dev with hub := s.dev.hub.setMbx c.mbx { s.dev.hub.mbx c.mbx with notices := t, noticeLost := false } } 0
      ((r.headD 0 + if (s.dev.hub.mbx c.mbx).noticeLost = true then 256 else 0) :: r.drop 1)) ∧
  (∀ (m : Nat) (c : Sceune) (s : State), Taken s m 0x002 [] c → (s.dev.hub.mbx c.mbx).notices = [] →
    Ends (.noticeGet m) s c s.dev 0 [0, 0, 0, 0]) ∧
  (∀ (m : Nat) (c : Sceune) (s : State), Taken s m 0x003 [] c → (s.dev.hub.mbx c.mbx).admin = none →
    getBits (c.w 4) 8 11 < s.dev.hub.tableSize (s.dev.hub.mbx c.mbx).fn →
    Ends (.adminCreate m) s c { s.dev with hub := s.dev.hub.setMbx c.mbx { s.dev.hub.mbx c.mbx with adminErr := false, admin := some { sqBase := c.w64 0, cqBase := c.w64 2, sqSize := getBits (c.w 4) 0 4, cqSize := getBits (c.w 4) 4 4, vector := getBits (c.w 4) 8 11, entry := .idle, sqHost := (0, 1), sqDev := (0, 1), cqHost := (0, 1), cqDev := (0, 1), reread := false, held := [] } } } 0 []) ∧
  (∀ (m : Nat) (c : Sceune) (a : AdminPair) (s : State), Taken s m 0x003 [] c → (s.dev.hub.mbx c.mbx).admin = some a →
    Ends (.adminCreate m) s c s.dev rcExists []) ∧
  (∀ (m : Nat) (c : Sceune) (a : AdminPair) (s : State), Taken s m 0x004 [] c → c.admin = false → (s.dev.hub.mbx c.mbx).admin = some a →
    Ends (.adminDestroy m) s c { s.dev with hub := s.dev.hub.setMbx c.mbx { s.dev.hub.mbx c.mbx with admin := none, adminErr := false } } 0 []) ∧
  (∀ (m key : Nat) (c : Sceune) (s : State), Taken s m 0x005 [] c →
    key = fnKey (getBits (c.w 0) 0 1) false (getBits (c.w 0) 1 3) → s.dev.hub.fnExists key = true → bit (c.w 0) 4 = true →
    key ∉ s.dev.hub.fw.managers →
    Ends (.managerSet m) s c { s.dev with hub := { s.dev.hub with fw := { s.dev.hub.fw with managers := s.dev.hub.fw.managers ++ [key] } } } 0 []) ∧
  (∀ (m key : Nat) (c : Sceune) (s : State), Taken s m 0x005 [] c →
    key = fnKey (getBits (c.w 0) 0 1) false (getBits (c.w 0) 1 3) → s.dev.hub.fnExists key = true → bit (c.w 0) 4 = false →
    (∀ k ∈ s.dev.hub.fw.managers, k = key) → Ends (.managerSet m) s c s.dev rcWrongState []) ∧
  (∀ (m : Nat) (c : Sceune) (s : State), Taken s m 0x006 [] c → c.w 0 < 704 → bit (c.w 2) 31 = false →
    s.dev.hub.fnExists (functionWord (c.w 1)) = true → getBits (c.w 2) 0 11 < s.dev.hub.tableSize (functionWord (c.w 1)) →
    Ends (.eventRoute m) s c { s.dev with hub := s.dev.hub.setReg (R.irq_EVT_ROUTE (c.w 0)) (BitVec.ofNat 32 (1 + 2 * getBits (c.w 1) 0 1 + 4 * getBits (c.w 1) 1 1 + 8 * getBits (c.w 1) 2 11 + 2 ^ 14 * getBits (c.w 2) 0 11)) } 0 []) ∧
  (∀ (m v : Nat) (c : Sceune) (s : State), Taken s m 0x007 [] c → c.w 1 = 0 → c.w 2 = 1 →
    s.dev.tallyOf (c.w 0) = some v → Ends (.tallyRead m) s c s.dev 0 [v % 2 ^ 32, v / 2 ^ 32]) ∧
  (∀ (m : Nat) (c : Sceune) (s : State), Taken s m 0x007 [] c → c.w 1 = 0 → c.w 2 = 1 → s.dev.tallyOf (c.w 0) = none →
    Ends (.tallyRead m) s c s.dev rcNotFound []) ∧
  (∀ (m : Nat) (c : Sceune) (l : List Byte) (h' : Hub) (s : State), Taken s m 0x042 l c →
    h' = (List.range 40).foldl (fun h w => h.setReg (R.dbg_DBG_TOKEN w) (BitVec.ofNat 32 (leNat (slice (slice l 0 160) (4 * w) 4)))) s.dev.hub →
    h'.dbgAnswers = true → tokType (slice l 0 160) = 2 → getBits (c.w 0) 4 2 = 2 →
    Ends (.debugOpen m false) s c (Device.dbgDone (({ s.dev with hub := h' } : Device).dbgOpen (slice l 0 160))).dev
      (debugCode (({ s.dev with hub := h' } : Device).dbgOpen (slice l 0 160)).1) []) ∧
  (∀ (m : Nat) (c : Sceune) (s : State), Taken s m 0x043 [] c → c.w 0 = 15 → s.dev.hub.flag R.dbg_DBG_SESSION_FULL = false →
    Ends (.debugClose m) s c (Device.dbgDone (s.dev.dbgClose 15)).dev rcNotFound []) ∧
  (∀ (m k : Nat) (c : Sceune) (s : State), Taken s m 0x043 [] c → c.w 0 = k → k < 15 →
    bit (s.dev.hub.fld R.dbg_DBG_SESSION_ENGINE_MASK) k = true →
    Ends (.debugClose m) s c (Device.dbgDone (s.dev.dbgClose k)).dev 0 []) ∧
  (∀ (m : Nat) (c : Sceune) (s : State), Taken s m 0x044 [] c → s.dev.hub.fw.openedFull = false → s.dev.hub.fw.secrets = true →
    Ends (.attest m) s c s.dev 0 (wordsOf (s.dev.hub.report [c.w 0, c.w 1, c.w 2, c.w 3]) 64)) ∧
  (∀ (m : Nat) (c : Sceune) (s : State), Taken s m 0x044 [] c → s.dev.hub.fw.openedFull = true →
    Ends (.attest m) s c s.dev rcWrongState []) ∧
  (∀ (m : Nat) (c : Sceune) (l : List Byte) (s : State), Taken s m 0x040 l c → s.dev.hub.fw.sealing.isSome = true →
    Idles (.keyLoad m false) s) ∧
  (∀ (m kind i : Nat) (c : Sceune) (l : List Byte) (r : Nat × Device) (s : State), Taken s m 0x040 l c →
    s.dev.hub.fw.sealing = none → kind = getBits (c.w 1) 16 1 → i = getBits (c.w 1) 0 14 →
    r = s.dev.sealFor c.bench kind i (slice l 0 (c.w 4)) →
    (r.1 = 0 → Ends (.keyLoad m false) s c
      (r.2.run c.bench (fun h b => (h, h.archive c.bench kind i (slice l 0 (c.w 4)) b))) 0 []) ∧
    (r.1 = 1 → Ends (.keyLoad m false) s c { r.2 with hub := r.2.hub.raise 666 } rcAuthFail []) ∧
    (r.1 = 2 ∨ r.1 = 3 → Ends (.keyLoad m false) s c r.2 rcWrongState []) ∧
    (r.1 = 4 → Ends (.keyLoad m false) s c r.2 rcBadOperand [])) ∧
  (∀ (m key : Nat) (c : Sceune) (s : State), Taken s m 0x082 [] c → (s.dev.bench c.bench).live = true →
    bit (c.w 1) 6 = true ∨ (s.dev.hub.fw.part ≠ .nf ∧ (s.dev.bench c.bench).power.flashEn = true) → key = 64 * c.bench.val + getBits (c.w 1) 0 6 → (∀ x ∈ s.dev.hub.fw.names, x.1 ≠ key) →
    Ends (.nsCreate m) s c { s.dev with hub := { s.dev.hub with fw := { s.dev.hub.fw with names := s.dev.hub.fw.names ++ [(key, bit (c.w 1) 6, c.w64 2)] } } } 0 []) ∧
  (∀ (m key : Nat) (c : Sceune) (x : Nat × Bool × Nat) (s : State), Taken s m 0x083 [] c →
    key = 64 * c.bench.val + getBits (c.w 1) 0 6 → x ∈ s.dev.hub.fw.names → x.1 = key →
    Ends (.nsDelete m) s c (({ s.dev with hub := { s.dev.hub with fw := { s.dev.hub.fw with names := s.dev.hub.fw.names.filter (fun x => x.1 ≠ key) } } } : Device).run c.bench (fun h b => if b.live = true then (h, h.archive c.bench 1 (getBits (c.w 1) 0 6) (List.replicate 128 0#8) (b.xtsWrite (getBits (c.w 1) 0 6) false)) else (h, b))) 0 []) ∧
  (∀ (m key : Nat) (c : Sceune) (s : State), Taken s m 0x083 [] c → key = 64 * c.bench.val + getBits (c.w 1) 0 6 →
    (∀ x ∈ s.dev.hub.fw.names, x.1 ≠ key) → Ends (.nsDelete m) s c s.dev rcNotFound [])

/-- Sceune commands that act on a bench: start, stop, status, rule sets, tables, learning, ports, traffic manager, time, keys, engines. Rests on spec/17_foreman_and_mailboxes.md spec/03_cut_graph.md spec/04_match_tables_and_learning.md spec/09_engine_cores.md. -/
def Obligations.SceuneCommandsOfABench : Prop :=
  (∀ (m : Nat) (c : Sceune) (k : Nat) (s : State), Taken s m 0x010 [] c →
    c.startRefusal s.dev.hub (s.dev.bench c.bench) = some k → Ends (.benchStart m false) s c s.dev k []) ∧
  (∀ (m : Nat) (c : Sceune) (s : State), Taken s m 0x010 [] c →
    c.startRefusal s.dev.hub (s.dev.bench c.bench) = none →
    Goes (.benchStart m false) s c
      (s.dev.put c.bench (benchCtlWrite c.bench (putBits (c.w 1) 0 2 1) s.dev.hub (s.dev.bench c.bench))) []) ∧
  (∀ (m : Nat) (c : Sceune) (s : State), Resumed s m 0x010 c → (s.dev.bench c.bench).power.st = .running →
    (s.dev.bench c.bench).flag R.hopper_HOPPER_CTL_ENABLE = true → (s.dev.bench c.bench).flag R.hopper_HOPPER_CTL_READY = true →
    Ends (.benchStart m false) s c s.dev 0 []) ∧
  (∀ (m : Nat) (c : Sceune) (s : State), Resumed s m 0x010 c → Ends (.benchStart m true) s c s.dev rcTimeout []) ∧
  (∀ (m : Nat) (c : Sceune) (s : State), Taken s m 0x011 [] c → (s.dev.bench c.bench).power.st = .off →
    Ends (.benchStop m false) s c s.dev rcWrongState []) ∧
  (∀ (m : Nat) (c : Sceune) (s : State), Taken s m 0x011 [] c → (s.dev.bench c.bench).power.st = .running →
    Goes (.benchStop m false) s c (s.dev.put c.bench (s.dev.hub.setFld (R.pcr_BENCH_DRAIN_LIMIT_LIMIT_US c.bench.val) (c.w 1),
      (s.dev.bench c.bench).setSt .draining)) []) ∧
  (∀ (m : Nat) (c : Sceune) (s : State), Resumed s m 0x011 c → (s.dev.bench c.bench).power.st = .off →
    Ends (.benchStop m false) s c s.dev 0 []) ∧
  (∀ (m : Nat) (c : Sceune) (s : State), Taken s m 0x012 [] c →
    Ends (.benchStatus m) s c s.dev 0 [s.dev.benchStatus c.bench, ((s.dev.bench c.bench).reg R.dram_DRAM_STATUS).toNat,
      ((s.dev.bench c.bench).reg (R.storage_FLASH_STATUS 0)).toNat, ((s.dev.bench c.bench).reg (R.storage_FLASH_STATUS 1)).toNat,
      (s.dev.hub.policy c.bench).inserted % 2 ^ 32, (s.dev.hub.policy c.bench).ignored % 2 ^ 32]) ∧
  (∀ (m : Nat) (c : Sceune) (l img : List Byte) (pl : List (Nat × Nat)) (q : Nat × Hub × Bench) (n : BenchId) (s : State),
    Taken s m 0x020 l c → n = c.bench → (s.dev.bench n).live = true → img = slice l 0 (c.w 3) → (s.dev.bench n).writable (1 - (s.dev.bench n).genActive) = true →
    graphImageBad img = false → pl = (s.dev.bench n).placeGraph (1 - (s.dev.bench n).genActive) img → giCount img ≤ pl.length →
    q = fmRead n R.graph_NODE_COMMIT_STATUS (fmWrites n (graphWrites pl (1 - (s.dev.bench n).genActive) (bit (c.w 4) 0) img) (s.dev.hub, (s.dev.bench n))) →
    Ends (.graphLoad m false) s c (s.dev.put n q.2) 0 []) ∧
  (∀ (m : Nat) (c : Sceune) (l : List Byte) (n : BenchId) (s : State), Taken s m 0x020 l c → n = c.bench → (s.dev.bench n).live = true →
    (s.dev.bench n).writable (1 - (s.dev.bench n).genActive) = true → graphImageBad (slice l 0 (c.w 3)) = true →
    Ends (.graphLoad m false) s c (s.dev.put n (s.dev.hub, (s.dev.bench n))) rcImageBad []) ∧
  (∀ (m : Nat) (c : Sceune) (l : List Byte) (n : BenchId) (s : State), Taken s m 0x021 l c → n = c.bench → (s.dev.bench n).live = true →
    getBits (c.w 1) 0 2 = 2 → (s.dev.bench n).writable (getBits (c.w 1) 8 1) = true →
    Ends (.ruleWrite m false) s c
      (s.dev.put n (fmWrites n [(R.graph_START_NODE (getBits (c.w 1) 8 1), leNat (slice l 0 4))] (s.dev.hub, (s.dev.bench n)))) 0 [0]) ∧
  (∀ (m : Nat) (c : Sceune) (l : List Byte) (n : BenchId) (s : State), Taken s m 0x021 l c → n = c.bench → (s.dev.bench n).live = true →
    getBits (c.w 1) 0 2 ≠ 1 → (s.dev.bench n).writable (getBits (c.w 1) 8 1) = false →
    Ends (.ruleWrite m false) s c (s.dev.put n (s.dev.hub, (s.dev.bench n))) rcWrongState []) ∧
  (∀ (m : Nat) (c : Sceune) (n : BenchId) (s : State), Taken s m 0x022 [] c → n = c.bench → (s.dev.bench n).live = true →
    (s.dev.bench n).flag R.action_GEN_STATUS_OLD_GEN_IDLE = true → Ends (.genSwap m) s c (s.dev.put n (s.dev.hub, (s.dev.bench n).genSwap)) 0 []) ∧
  (∀ (m : Nat) (c : Sceune) (n : BenchId) (s : State), Taken s m 0x022 [] c → n = c.bench → (s.dev.bench n).live = false →
    Ends (.genSwap m) s c (s.dev.put n (s.dev.hub, (s.dev.bench n))) rcWrongState []) ∧
  (∀ (m : Nat) (c : Sceune) (l : List Byte) (ws : List (Nat × Nat)) (n : BenchId) (s : State), Taken s m 0x023 l c →
    n = c.bench → (s.dev.bench n).live = true → (s.dev.bench n).mt.opq.length < 16 →
    ws = blockWrites (R.match_OP_ENTRY 0) (wordsOf l 16) ++ blockWrites (R.match_OP_EXPECT 0) (wordsOf (l.drop 64) 3) ++
      [(R.match_OP_DST, leNat (slice l 78 2)), (R.match_OP_CMD, c.w 1 + 2 ^ 16 * leNat (slice l 76 2))] →
    Goes (.tableOp m () false) s c
      (s.dev.put n (fmWrites n ws (fmRead n R.match_OP_STATUS (s.dev.hub, (s.dev.bench n))).2)) l) ∧
  (∀ (m : Nat) (c : Sceune) (l : List Byte) (n : BenchId) (s : State), Taken s m 0x023 l c → n = c.bench → (s.dev.bench n).live = true → 16 ≤ (s.dev.bench n).mt.opq.length →
    Idles (.tableOp m () false) s) ∧
  (∀ (m v : Nat) (c : Sceune) (n : BenchId) (s : State), Resumed s m 0x023 c → n = c.bench → (s.dev.bench n).live = true →
    v = ((s.dev.bench n).reg R.match_OP_STATUS).toNat → v % 2 = 1 → getBits v 1 4 = 0 → 2 ≤ c.w 1 →
    Ends (.tableOp m () false) s c (s.dev.put n (s.dev.hub, (s.dev.bench n).setReg R.match_OP_STATUS 0#32)) 0 [2 ^ 16 * getBits v 8 16]) ∧
  (∀ (m : Nat) (c : Sceune) (q : Hub × Bench) (n : BenchId) (s : State), Taken s m 0x024 [] c → n = c.bench → (s.dev.bench n).live = true → (s.dev.bench n).mt.learnq = [] →
    q = fmWrites n [(R.match_LEARN_CTL, (s.dev.bench n).fld R.match_LEARN_CTL_HOLDOFF_US + 2 ^ 20 * (if c.w 1 = 0 then 0 else 1))] (s.dev.hub, (s.dev.bench n)) →
    Ends (.learnPolicy m) s c (s.dev.put n (q.1.setPolicy n { q.1.policy n with policy := c.w 1, pinMs := c.w 2, queues := [c.w 3, c.w 4, c.w 5, c.w 6] }, q.2)) 0 []) ∧
  (∀ (m : Nat) (c : Sceune) (n : BenchId) (s : State), Taken s m 0x025 [] c → n = c.bench → (s.dev.bench n).live = true → (s.dev.bench n).sweepSt = 0 →
    Ends (.tableSweep m) s c
      (s.dev.put n (fmWrites n [(R.match_SEED_NEXT, c.w 2), (R.match_SWEEP_CTL, 1 + 4 * c.w 1)] (s.dev.hub, (s.dev.bench n)))) 0 []) ∧
  (∀ (m : Nat) (c : Sceune) (n : BenchId) (s : State), Taken s m 0x030 [] c → n = c.bench → (s.dev.bench n).live = true → (s.dev.bench n).hasPort (c.w 1) = true →
    Ends (.portSet m) s c (s.dev.put n (fmWrites n [(R.face_PORT_CTL (c.w 1), c.w 2), (R.face_MAX_FRAME (c.w 1), c.w 3),
      (R.face_PAUSE_CTL (c.w 1), c.w 4), (R.face_MODULE_CTL (c.w 1), c.w 5)] (s.dev.hub, (s.dev.bench n)))) 0 []) ∧
  (∀ (m : Nat) (c : Sceune) (l : List Byte) (n : BenchId) (s : State), Taken s m 0x031 l c → n = c.bench → (s.dev.bench n).live = true → c.w 1 = 2 →
    Ends (.tmWrite m false) s c
      (s.dev.put n (fmWrites n [(R.tm_CLASS_CFG (c.w 2 / 8) (c.w 2 % 8), leNat (slice l 0 4))] (s.dev.hub, (s.dev.bench n)))) 0 [0]) ∧
  (∀ (m : Nat) (c : Sceune) (l : List Byte) (q : Nat × Hub × Bench) (n : BenchId) (s : State), Taken s m 0x032 l c → n = c.bench →
    (s.dev.bench n).live = true → (s.dev.bench n).hasPort (c.w 1) = true → (s.dev.bench n).gatePending (c.w 1) = false →
    q = fmRead n (R.tm_GATE_COMMIT_STATUS (c.w 1)) (fmWrites n ((R.tm_GATE_SHADOW_LEN (c.w 1), c.w 4) ::
      blockWrites (R.tm_GATE_START (c.w 1) 0) [c.w 5, c.w 6, c.w 7] ++ [(R.tm_GATE_CTL (c.w 1), 1)])
        (s.dev.hub, (s.dev.bench n).setBytes (gateShadow (c.w 1)) (slice l 0 (8 * min 1024 (c.w 4))))) →
    Ends (.gateLoad m false) s c (s.dev.put n q.2) (if getBits q.1 1 2 = 0 then 0 else rcHwRefused) [q.1]) ∧
  (∀ (m : Nat) (c : Sceune) (n : BenchId) (s : State), Taken s m 0x033 [] c → n = c.bench → (s.dev.bench n).live = true → c.w 1 = 2 →
    Ends (.timeCmd m) s c (s.dev.put n (fmWrites n
      (blockWrites (R.face_TIME_SET 0) [c.w 2, c.w 3, c.w 4] ++ [(R.face_TIME_CMD, 2)]) (s.dev.hub, (s.dev.bench n)))) 0 []) ∧
  (∀ (m : Nat) (c : Sceune) (l : List Byte) (q : Nat × Hub × Bench) (n : BenchId) (s : State), Taken s m 0x041 l c → n = c.bench →
    (s.dev.bench n).live = true → leNat (slice l 0 4) % 4 ≠ 0 →
    q = fmRead n R.cipher_SA_COMMIT_STATUS (fmWrites n (blockWrites (R.cipher_SA_STAGE 0) (wordsOf l 16) ++
      [(R.cipher_SA_COMMIT, c.w 1)]) (s.dev.hub, (s.dev.bench n))) →
    Ends (.saWrite m false) s c (s.dev.put n q.2) (if getBits q.1 1 2 = 0 then 0 else rcHwRefused) [q.1]) ∧
  (∀ (m : Nat) (c : Sceune) (l : List Byte) (n : BenchId) (s : State), Taken s m 0x050 l c → n = c.bench → (s.dev.bench n).live = true →
    engineImageBad (slice l 0 (c.w 3)) = false → (∀ k, k < 8 → (s.dev.bench n).coreState k = 0) →
    Ends (.engineLoad m () false) s c (s.dev.put n (engineLoadNow n (slice l 0 (c.w 3)) (s.dev.hub, (s.dev.bench n)))) 0 []) ∧
  (∀ (m : Nat) (c : Sceune) (l : List Byte) (n : BenchId) (s : State), Taken s m 0x050 l c → n = c.bench → (s.dev.bench n).live = true →
    engineImageBad (slice l 0 (c.w 3)) = true →
    Ends (.engineLoad m () false) s c (s.dev.put n (s.dev.hub, (s.dev.bench n))) rcImageBad []) ∧
  (∀ (m : Nat) (c : Sceune) (n : BenchId) (s : State), Taken s m 0x051 [] c → n = c.bench → (s.dev.bench n).live = true → c.w 1 = 1 → (s.dev.bench n).coreState 0 = 0 →
    Ends (.engineCtl m) s c (s.dev.put n (fmWrites n [(R.engine_CORE_CTL 0, 1)] (s.dev.hub, (s.dev.bench n)))) 0 []) ∧
  (∀ (m : Nat) (c : Sceune) (n : BenchId) (s : State), Taken s m 0x051 [] c → n = c.bench → (s.dev.bench n).live = true → c.w 1 = 1 → (s.dev.bench n).coreState 0 ≠ 0 →
    Ends (.engineCtl m) s c (s.dev.put n (s.dev.hub, (s.dev.bench n))) rcWrongState [])

/-- Sceune commands of claims, windows, rings and NVMe controllers: the matrices of R363 and R383. Rests on spec/12_claims_and_rings.md spec/17_foreman_and_mailboxes.md spec/14_flash_and_storage.md spec/11_host_endpoint.md. -/
def Obligations.SceuneCommandsOfClaimsAndRings : Prop :=
  (∀ (m i : Nat) (k : Claim) (h' : Hub) (c : Sceune) (n : BenchId) (s : State), Taken s m 0x060 [] c → n = c.bench → (s.dev.bench n).power.st = .running →
    s.dev.hub.archives n (s.dev.bench n) = false → Bench.claimBad s.dev.hub (s.dev.bench n) c.ops = false → k = claimOf c.ops → s.dev.hub.pairTaken k.fn k.pasid = false →
    (s.dev.bench n).rings.claims.any (fun x => rangesMeet k.ringBase k.ringCount x.2.ringBase x.2.ringCount || rangesMeet k.pageBase k.pages x.2.pageBase x.2.pages) = false →
    (s.dev.bench n).freeClaim = some i → fnVf k.fn = false →
    h' = s.dev.hub.setMbx (16 + (256 * n.val + i)) { Mailbox.reset true k.fn k.pasid with fn := k.fn } →
    Ends (.claimCreate m) s c (s.dev.put n (h', { (s.dev.bench n).spent with rings := { (s.dev.bench n).rings with claims := (s.dev.bench n).rings.claims ++ [(i, k)] } })) 0 [256 * n.val + i]) ∧
  (∀ (m : Nat) (k : Claim) (c : Sceune) (n : BenchId) (s : State), Taken s m 0x061 [] c → n = c.bench → (s.dev.bench n).live = true →
    (s.dev.bench n).claim? c.claim = some k → k.st = 1 → getBits (c.w 0) 16 16 ≠ 0 →
    Goes (.claimQuiesce m false) s c (s.dev.put n (s.dev.hub, ((s.dev.bench n).updClaim c.claim (fun x => { x with st := 2, limit := getBits (c.w 0) 16 16 })).judgeHeld)) []) ∧
  (∀ (m : Nat) (k : Claim) (c : Sceune) (n : BenchId) (s : State), Taken s m 0x061 [] c → n = c.bench → (s.dev.bench n).live = true →
    (s.dev.bench n).claim? c.claim = some k → k.st ≠ 1 → getBits (c.w 0) 16 16 ≠ 0 →
    Ends (.claimQuiesce m false) s c (s.dev.put n (s.dev.hub, (s.dev.bench n).tick T.CLAIM_CMD_REFUSED)) rcWrongState []) ∧
  (∀ (m : Nat) (k : Claim) (c : Sceune) (n : BenchId) (s : State), Taken s m 0x062 [] c → n = c.bench → (s.dev.bench n).live = true →
    (s.dev.bench n).claim? c.claim = some k → k.st = 3 →
    Ends (.claimResume m) s c (s.dev.put n (s.dev.hub, (s.dev.bench n).updClaim c.claim (fun x => { x with st := 1 }))) 0 []) ∧
  (∀ (m : Nat) (k : Claim) (c : Sceune) (n : BenchId) (s : State), Taken s m 0x062 [] c → n = c.bench → (s.dev.bench n).live = true →
    (s.dev.bench n).claim? c.claim = some k → k.st ≠ 3 →
    Ends (.claimResume m) s c (s.dev.put n (s.dev.hub, (s.dev.bench n).tick T.CLAIM_CMD_REFUSED)) rcWrongState []) ∧
  (∀ (m : Nat) (k : Claim) (c : Sceune) (n : BenchId) (s : State), Taken s m 0x063 [] c → n = c.bench → (s.dev.bench n).live = true →
    (s.dev.bench n).claim? c.claim = some k →
    Goes (.claimReset m false) s c (s.dev.put n (resetClaim c.claim s.dev.hub (s.dev.bench n))) []) ∧
  (∀ (m : Nat) (c : Sceune) (s : State), Resumed s m 0x063 c → Goes (.claimReset m false) s c s.dev c.data) ∧
  (∀ (m : Nat) (k : Claim) (c : Sceune) (b' : Bench) (n : BenchId) (s : State), Taken s m 0x064 [] c → n = c.bench → (s.dev.bench n).live = true →
    (s.dev.bench n).claim? c.claim = some k → k.st = 3 → fnVf k.fn = false →
    b' = (k.rings.filter (fun r => (s.dev.bench n).ringKind r ≠ 0)).foldl Bench.freeRing (s.dev.bench n) →
    Ends (.claimRemove m) s c (s.dev.put n (s.dev.hub.freeMbx (16 + 256 * n.val + c.claim), { b' with rings := { b'.rings with claims := b'.rings.claims.filter (fun x => x.1 ≠ c.claim) } })) 0 []) ∧
  (∀ (m : Nat) (k : Claim) (c : Sceune) (n : BenchId) (s : State), Taken s m 0x064 [] c → n = c.bench → (s.dev.bench n).live = true →
    (s.dev.bench n).claim? c.claim = some k → k.st ≠ 3 →
    Ends (.claimRemove m) s c (s.dev.put n (s.dev.hub, (s.dev.bench n).tick T.CLAIM_CMD_REFUSED)) rcWrongState []) ∧
  (∀ (m t f : Nat) (k : Claim) (c : Sceune) (n : BenchId) (s : State), Taken s m 0x065 [] c → n = c.bench → (s.dev.bench n).live = true →
    (s.dev.bench n).claim? c.claim = some k → c.w 1 = t + 2 ^ 16 * f → 1 ≤ t → t ≤ 1024 → 1 ≤ f → f < 256 →
    Ends (.claimSetShare m) s c (s.dev.put n (s.dev.hub, ((s.dev.bench n).updClaim c.claim (fun x => { x with tagLimit := t, weight := f })).judgeHeld)) 0 []) ∧
  (∀ (m o : Nat) (c : Sceune) (n : BenchId) (s : State), Taken s m 0x066 [] c →
    n = benchOf (s.dev.hub.homeBench (fnKey (getBits (c.w 0) 0 1) false (getBits (c.w 0) 1 3))) → bit (c.w 0) 15 = false →
    bit (c.w 0) 4 = false → o = ctlEntryAt (fnKey (getBits (c.w 0) 0 1) false (getBits (c.w 0) 1 3)) (getBits (c.w 0) 5 10) →
    Ends (.windowSet m) s c (s.dev.put n ({ s.dev.hub with shadow := sparseSet hubRegReset (sparseSet hubRegReset s.dev.hub.shadow o (BitVec.ofNat 32 (c.w 1))) (o + 4) (BitVec.ofNat 32 (c.w 2)) }, (s.dev.bench n))) 0 [0]) ∧
  (∀ (m r i : Nat) (k : Claim) (c : Sceune) (n : BenchId) (s : State), Taken s m 0x070 [] c → n = c.bench → (s.dev.bench n).live = true →
    r = getBits (c.w 0) 0 14 → (s.dev.bench n).ringOwner r = some (i, k) → (s.dev.bench n).ringKind r = 0 → Bench.ringBad s.dev.hub (s.dev.bench n) k c.ops = false →
    getBits (c.w 0) 20 4 = 1 →
    Ends (.ringCreate m) s c (s.dev.put n (s.dev.hub, (s.dev.bench n).setBytes (ringAddr r) ([c.w 1, c.w 2,
      1 + 2 ^ 4 * getBits (c.w 0) 24 4 + 2 ^ 8 + 2 ^ 10 * i + 2 ^ 18 * getBits (c.w 4) 16 12,
      getBits (c.w 3) 0 14 + 2 ^ 14 + 2 ^ 19 * getBits (c.w 3) 16 4, 2 ^ 16, 2 ^ 16, 0, 0].flatMap (leBytes 4)))) 0 []) ∧
  (∀ (m r i : Nat) (k : Claim) (c : Sceune) (n : BenchId) (s : State), Taken s m 0x070 [] c → n = c.bench → (s.dev.bench n).live = true →
    r = getBits (c.w 0) 0 14 → (s.dev.bench n).ringOwner r = some (i, k) → (s.dev.bench n).ringKind r ≠ 0 →
    Ends (.ringCreate m) s c (s.dev.put n (s.dev.hub, (s.dev.bench n))) rcExists []) ∧
  (∀ (m i : Nat) (k : Claim) (c : Sceune) (n : BenchId) (s : State), Taken s m 0x071 [] c → n = c.bench → (s.dev.bench n).live = true →
    (s.dev.bench n).ringOwner c.ring = some (i, k) → (s.dev.bench n).ringKind c.ring = 1 ∨ (s.dev.bench n).ringKind c.ring = 2 → (s.dev.bench n).ringState c.ring = 1 → k.st = 1 →
    s.dev.hub.masters k = true → k.mustReset.contains c.ring = false → bit (c.w 0) 31 = false →
    Ends (.ringStart m) s c
      (s.dev.put n (s.dev.hub, ((((s.dev.bench n).setRingState c.ring 2).setMbits (ringAddr c.ring) 188 4 0).startedRing i c.ring).judgeHeld)) 0 []) ∧
  (∀ (m i : Nat) (k : Claim) (c : Sceune) (n : BenchId) (s : State), Taken s m 0x071 [] c → n = c.bench → (s.dev.bench n).live = true →
    (s.dev.bench n).ringOwner c.ring = some (i, k) → (s.dev.bench n).ringState c.ring = 2 →
    Ends (.ringStart m) s c (s.dev.put n (s.dev.hub, (s.dev.bench n).tick T.RING_CMD_REFUSED)) rcWrongState []) ∧
  (∀ (m : Nat) (c : Sceune) (n : BenchId) (s : State), Taken s m 0x072 [] c → n = c.bench → (s.dev.bench n).live = true →
    (s.dev.bench n).ringKind c.ring ≠ 0 → (s.dev.bench n).ringState c.ring = 2 →
    Ends (.ringStop m) s c (s.dev.put n (s.dev.hub, ((s.dev.bench n).setRingState c.ring 1).judgeHeld)) 0 []) ∧
  (∀ (m : Nat) (c : Sceune) (n : BenchId) (s : State), Taken s m 0x072 [] c → n = c.bench → (s.dev.bench n).live = true → (s.dev.bench n).ringState c.ring = 1 →
    Ends (.ringStop m) s c (s.dev.put n (s.dev.hub, (s.dev.bench n).tick T.RING_CMD_REFUSED)) rcWrongState []) ∧
  (∀ (m : Nat) (c : Sceune) (n : BenchId) (s : State), Taken s m 0x073 [] c → n = c.bench → (s.dev.bench n).live = true →
    (s.dev.bench n).ringKind c.ring ≠ 0 → (s.dev.bench n).ringCpl c.ring = false → (s.dev.bench n).ringState c.ring = 1 →
    Ends (.ringDestroy m) s c (s.dev.put n (s.dev.hub, ((s.dev.bench n).freeRing c.ring).judgeHeld)) 0 []) ∧
  (∀ (m : Nat) (c : Sceune) (n : BenchId) (s : State), Taken s m 0x073 [] c → n = c.bench → (s.dev.bench n).live = true → (s.dev.bench n).ringState c.ring = 2 →
    Ends (.ringDestroy m) s c (s.dev.put n (s.dev.hub, (s.dev.bench n).tick T.RING_CMD_REFUSED)) rcWrongState []) ∧
  (∀ (m : Nat) (c : Sceune) (n : BenchId) (s : State), Taken s m 0x074 [] c → n = c.bench → (s.dev.bench n).live = true → 1 ≤ getBits (c.w 0) 24 5 →
    getBits (c.w 0) 24 5 ≤ 19 → (s.dev.bench n).ringKind c.ring = 1 →
    Ends (.ringSetStep m) s c (s.dev.put n (s.dev.hub, (s.dev.bench n).setMbits (ringAddr c.ring) 110 5 (getBits (c.w 0) 24 5))) 0 []) ∧
  (∀ (m : Nat) (c : Sceune) (n : BenchId) (s : State), Taken s m 0x074 [] c → n = c.bench → (s.dev.bench n).live = true → 1 ≤ getBits (c.w 0) 24 5 →
    getBits (c.w 0) 24 5 ≤ 19 → (s.dev.bench n).ringKind c.ring ≠ 1 →
    Ends (.ringSetStep m) s c (s.dev.put n (s.dev.hub, (s.dev.bench n).tick T.RING_CMD_REFUSED)) rcWrongState []) ∧
  (∀ (m f j : Nat) (k : Claim) (c : Sceune) (n : BenchId) (s : State), Taken s m 0x080 [] c → n = c.bench → (s.dev.bench n).live = true →
    (s.dev.bench n).claim? c.claim = some k → s.dev.hub.pfOf k.fn = some f → s.dev.hub.fld (R.ep_FN_CFG_CLASS (fnPort k.fn) f) = 1 →
    s.dev.hub.page0Mapped n k = true → (s.dev.bench n).ctrlOf c.claim = none →
    (s.dev.bench n).anyOf ((List.range 64).filter (fun j => !(s.dev.bench n).flag (R.storage_NVME_CTRL_VALID j))) = some j →
    Ends (.nvmeGrant m) s c (s.dev.put n (s.dev.hub, ((s.dev.bench n).spent.setReg (R.storage_NVME_CTRL j)
      (BitVec.ofNat 32 (c.claim + 256))).setNpage j NvmePage.blank)) 0 [j]) ∧
  (∀ (m j : Nat) (c : Sceune) (n : BenchId) (s : State), Taken s m 0x081 [] c → n = c.bench → (s.dev.bench n).live = true → (s.dev.bench n).ctrlOf c.claim = some j →
    Ends (.nvmeRemove m) s c
      (s.dev.put n (s.dev.hub, ((s.dev.bench n).setReg (R.storage_NVME_CTRL j) 0#32).setNpage j NvmePage.blank)) 0 []) ∧
  (∀ (m : Nat) (c : Sceune) (n : BenchId) (s : State), Taken s m 0x081 [] c → n = c.bench → (s.dev.bench n).live = true → (s.dev.bench n).ctrlOf c.claim = none →
    Ends (.nvmeRemove m) s c (s.dev.put n (s.dev.hub, (s.dev.bench n))) rcNotFound [])

/-- Register writes and reads by the Foreman and the debug port: what lands, what is consumed, what is refused. Rests on spec/01_benches_and_hub.md spec/00_scope.md spec/19_errors_and_tallies.md spec/18_security_debug_power.md. -/
def Obligations.RegisterAccesses : Prop :=
  (∀ (o : Nat) (v : Word) (ecc : List (Nat × Bool)) (n : BenchId) (s : State), s.dev.hub.up = true → (s.dev.bench n).awake = true → o < 0xE0000 → o % 4 = 0 →
    LeavesBoth (.regWrite .foreman (benchBase n + o) v ecc) n s (regWrite n .foreman o v.toNat ecc s.dev.hub (s.dev.bench n)).hub
      (regWrite n .foreman o v.toNat ecc s.dev.hub (s.dev.bench n)).bench) ∧
  (∀ (v : Word) (n : BenchId) (s : State), s.dev.hub.up = true → (s.dev.bench n).awake = true → (s.dev.bench n).sweepSt = 0 →
    LeavesBoth (.regWrite .foreman (benchBase n + R.match_SEED_NEXT) v []) n s s.dev.hub ((s.dev.bench n).setReg R.match_SEED_NEXT v)) ∧
  (∀ (o : Nat) (v : Word) (n : BenchId) (s : State), s.dev.hub.up = true → (s.dev.bench n).awake = true → o < 0xE0000 → o % 4 = 0 → benchReg? o = none →
    LeavesBoth (.regWrite .foreman (benchBase n + o) v []) n s s.dev.hub ((s.dev.bench n).tick (T.ADDR_MISS (benchUnit o)))) ∧
  (∀ (o : Nat) (v : Word) (n : BenchId) (s : State), s.dev.hub.up = true → (s.dev.bench n).awake = false → o < 0x10000000000 → o % 4 = 0 →
    Idles (.regWrite .foreman (benchBase n + o) v []) s) ∧
  (∀ (a : Nat) (v : Word) (s : State), s.dev.hub.up = true → 0x10000000 ≤ a → a + 4 ≤ 0x10800000 → a % 4 = 0 →
    LeavesHub (.regWrite .foreman a v []) s { s.dev.hub with mem := memWrite s.dev.hub.mem a (leBytes 4 v.toNat) }) ∧
  (∀ (ag : Agent) (a : Nat) (v : Word) (ecc : List (Nat × Bool)) (s : State), s.dev.hub.up = false ∨ ownPath ag = false →
    Idles (.regWrite ag a v ecc) s) ∧
  (∀ (o v : Nat) (n : BenchId) (s : State), s.dev.hub.up = true → (s.dev.bench n).awake = true → o ∈ benchRcRegs → v = ((s.dev.bench n).reg o).toNat → v % 2 = 1 →
    exec (.rcRegisterRead .foreman (benchBase n + o) false) s =
      .next { s with dev := { s.dev.put n (s.dev.hub, (s.dev.bench n).setReg o 0#32) with answer := [v] } }) ∧
  (∀ (o : Nat) (n : BenchId) (s : State), s.dev.hub.up = true → (s.dev.bench n).awake = true → o ∈ benchRcRegs → ((s.dev.bench n).reg o).toNat % 2 = 0 →
    exec (.rcRegisterRead .foreman (benchBase n + o) false) s =
      .next { s with dev := { s.dev.put n (s.dev.hub, (s.dev.bench n)) with answer := [0] } }) ∧
  (∀ (id w1 : Word) (n : BenchId) (s : State), (s.dev.bench n).live = true →
    Leaves (.tallySnapshot .foreman (some n) id w1) n s (((s.dev.bench n).setReg (R.err_TALLY_SEL 8) id).tallySnap 8 w1.toNat)) ∧
  (∀ (id : Word) (n : BenchId) (s : State), (s.dev.bench n).live = true → id.toNat / 2 ^ 31 = 0 → benchTallyNamed id.toNat = true →
    Runs (.tallySnapshot .foreman (some n) id 0#32) n s (fun b => b.tal = (s.dev.bench n).tal ∧
      b.reg (R.err_TALLY_SNAP 8 0) = BitVec.ofNat 32 ((s.dev.bench n).tally (tallyKeyOf id.toNat)) ∧
      b.reg (R.err_TALLY_SNAP 8 1) = BitVec.ofNat 32 ((s.dev.bench n).tally (tallyKeyOf id.toNat) / 2 ^ 32))) ∧
  (∀ (id : Word) (v : Nat) (s : State),
    ({ s.dev with hub := s.dev.hub.setReg (R.irq_TALLY_SEL 0) id } : Device).tallyOf id.toNat = some v →
    RunsHub (.tallySnapshot .foreman none id 0#32) s (fun h => h.tal = s.dev.hub.tal ∧ h.mem = s.dev.hub.mem ∧ h.fw = s.dev.hub.fw ∧
      h.reg (R.irq_TALLY_SNAP 0 0) = BitVec.ofNat 32 v ∧ h.reg (R.irq_TALLY_SNAP 0 1) = BitVec.ofNat 32 (v / 2 ^ 32))) ∧
  (∀ (v : Word) (ecc : List (Nat × Bool)) (s : State), s.dev.hub.up = true → s.dev.hub.dbgOk .engineDbg R.dbg_DBG_ACC = true → v.toNat % 4 = 3 →
    LeavesHub (.dbgAcc true v ecc) s (s.dev.hub.accStatus true)) ∧
  (∀ (v : Word) (ecc : List (Nat × Bool)) (s : State), s.dev.hub.up = true → s.dev.hub.dbgOk .engineDbg R.dbg_DBG_ACC = true → v.toNat % 4 = 0 →
    Idles (.dbgAcc true v ecc) s) ∧
  (∀ (v : Word) (ecc : List (Nat × Bool)) (s : State), s.dev.hub.up = true →
    LeavesHub (.dbgAcc false v ecc) s (s.dev.hub.tick T.DBG_PORT_REFUSED)) ∧
  (∀ (a : Nat) (v : Word) (ecc : List (Nat × Bool)) (s : State), s.dev.hub.up = true → s.dev.hub.dbgOk .engineDbg R.dbg_DBG_ACC = true →
    v.toNat % 16 = 9 → a = s.dev.hub.wordsAt (R.dbg_DBG_ADDR 0) 2 % 2 ^ 48 → a % 4 = 0 → s.dev.hub.accReach a 4 = false →
    LeavesHub (.dbgAcc true v ecc) s ((s.dev.hub.tick T.DBG_PORT_REFUSED).accStatus true)) ∧
  (∀ (a : Nat) (v : Word) (s : State), s.dev.hub.up = true → s.dev.hub.fw.lc ≠ 3 → s.dev.hub.flag R.dbg_DBG_SESSION_FULL = true →
    v.toNat % 16 = 10 → a = s.dev.hub.wordsAt (R.dbg_DBG_ADDR 0) 2 % 2 ^ 48 → a % 4 = 0 → 0x10000000 ≤ a → a + 4 ≤ 0x107F0000 →
    LeavesHub (.dbgAcc true v []) s
      (({ s.dev.hub with mem := memWrite s.dev.hub.mem a (leBytes 4 (s.dev.hub.wordsAt (R.dbg_DBG_DATA 0) 2 % 2 ^ 32)) } : Hub).accStatus false)) ∧
  (∀ (a x : Nat) (v : Word) (s : State), s.dev.hub.up = true → s.dev.hub.fw.lc ≠ 3 → s.dev.hub.flag R.dbg_DBG_SESSION_FULL = true →
    v.toNat % 16 = 9 → a = s.dev.hub.wordsAt (R.dbg_DBG_ADDR 0) 2 % 2 ^ 48 → a % 4 = 0 → 0x10000000 ≤ a → a + 4 ≤ 0x107F0000 →
    x = leNat (memBytes s.dev.hub.mem a 4) →
    LeavesHub (.dbgAcc true v []) s
      (((s.dev.hub.setReg (R.dbg_DBG_DATA 0) (BitVec.ofNat 32 x)).setReg (R.dbg_DBG_DATA 1) 0#32).accStatus false))

/-- Fuses, lifecycle commands, debug sessions, the sealing engine and the key archive. Rests on spec/18_security_debug_power.md spec/20_start_up_and_reset.md. -/
def Obligations.SecurityCommands : Prop :=
  (∀ (k v : Nat) (s : State), s.dev.hub.up = true → k < 16 → s.dev.hub.fw.fuses.owner k = some 0 → s.dev.hub.fw.lc = 0 →
    s.dev.hub.flag R.dbg_DBG_SESSION_FULL = true → v = s.dev.hub.wordsAt (R.dbg_FUSE_PROG_DATA 0) 8 →
    LeavesHub (.fuseProgCmd true k 0) s ((s.dev.hub.updFw (fun w => { w with fuses := w.fuses.setOwner k v })).fuseStatus 0)) ∧
  (∀ (k v x f : Nat) (s : State), s.dev.hub.up = true → k < 16 → s.dev.hub.fw.fuses.owner k = some 0 → s.dev.hub.fw.lc = 0 →
    s.dev.hub.flag R.dbg_DBG_SESSION_FULL = true → v = s.dev.hub.wordsAt (R.dbg_FUSE_PROG_DATA 0) 8 → x = Nat.xor v f % 2 ^ 256 → x ≠ v →
    LeavesHub (.fuseProgCmd true k f) s ((s.dev.hub.updFw (fun w => { w with fuses := w.fuses.setOwner k x, fuseBad := Nat.lor w.fuseBad (2 ^ (k - 5)) })).fuseStatus 2)) ∧
  (∀ (port : Bool) (k f : Nat) (s : State), s.dev.hub.up = true →
    (port = false ∨ s.dev.hub.fw.lc ≠ 0 ∨ s.dev.hub.flag R.dbg_DBG_SESSION_FULL = false ∨ s.dev.hub.fw.fuses.owner (k % 16) ≠ some 0) →
    LeavesHub (.fuseProgCmd port k f) s ((s.dev.hub.tick T.FUSE_PROG_REFUSED).fuseStatus 1)) ∧
  (∀ (s : State), s.dev.hub.up = true → s.dev.hub.fw.lc = 0 → s.dev.hub.fw.fuses.ownerBoot ≠ 0 → s.dev.hub.fw.fuses.ownerDebug ≠ 0 →
    s.dev.hub.fw.fuses.ownerKek ≠ 0 → s.dev.hub.fw.fuseBad = 0 →
    LeavesHub (.lcSecure true) s ((s.dev.hub.blow (fun f => { f with secure := true })).postStatus R.dbg_DBG_CMD_STATUS 0 16 16 T.HUB_COMMIT_STATUS_LOST)) ∧
  (∀ (s : State), s.dev.hub.dbgAnswers = true → s.dev.hub.fw.lc ≠ 0 →
    LeavesHub (.lcSecure true) s (s.dev.hub.postStatus R.dbg_DBG_CMD_STATUS 4 16 16 T.HUB_COMMIT_STATUS_LOST)) ∧
  (∀ (c : Instr) (s : State), c = .lcSecure false ∨ c = .lcReturn false ∨ c = .lcScrap false → s.dev.hub.dbgAnswers = true →
    LeavesHub c s (s.dev.hub.postStatus R.dbg_DBG_CMD_STATUS 4 16 16 T.HUB_COMMIT_STATUS_LOST)) ∧
  (∀ (s : State), s.dev.hub.up = true → s.dev.hub.fw.lc = 1 → tokShape s.dev.hub.token [3] = true →
    exec (.lcReturn true) s = .next { s with dev := Device.dbgStatus (if s.dev.hub.tokAuth s.dev.hub.token then
      (0, ({ s.dev with hub := s.dev.hub.nextSeq.blow (fun f => { f with ret := true }) } : Device).dropKeys)
      else (1, { s.dev with hub := s.dev.hub.nextSeq.authFail })) }) ∧
  (∀ (s : State), s.dev.hub.dbgAnswers = true → s.dev.hub.fw.lc ≠ 1 →
    exec (.lcScrap true) s = .next { s with dev := Device.dbgStatus (0, ({ s.dev with hub := s.dev.hub.blow (fun f => { f with scrap := true }) } : Device).dropKeys) }) ∧
  (∀ (s : State), s.dev.hub.up = true → s.dev.hub.fw.lc = 1 → tokShape s.dev.hub.token [4] = false →
    LeavesHub (.lcScrap true) s (s.dev.hub.postStatus R.dbg_DBG_CMD_STATUS 8 16 16 T.HUB_COMMIT_STATUS_LOST)) ∧
  (∀ (port : Bool) (s : State), s.dev.hub.dbgAnswers = true → tokShape s.dev.hub.token [1, 2] = false →
    LeavesHub (.dbgCmdOpen port) s (s.dev.hub.postStatus R.dbg_DBG_CMD_STATUS 8 16 16 T.HUB_COMMIT_STATUS_LOST)) ∧
  (∀ (port : Bool) (s : State), s.dev.hub.dbgAnswers = true → tokShape s.dev.hub.token [1, 2] = true → tokType s.dev.hub.token = 2 → s.dev.hub.fw.lc ≠ 1 →
    s.dev.hub.flag R.dbg_DBG_SESSION_FULL = false →
    exec (.dbgCmdOpen port) s = .next { s with dev := Device.dbgStatus (if s.dev.hub.tokAuth s.dev.hub.token then
      (0, ({ s.dev with hub := s.dev.hub.nextSeq } : Device).openFull) else (1, { s.dev with hub := s.dev.hub.nextSeq.authFail })) }) ∧
  (∀ (port : Bool) (s : State), s.dev.hub.dbgAnswers = true → s.dev.hub.flag R.dbg_DBG_SESSION_FULL = false →
    LeavesHub (.dbgCmdClose port 15) s (s.dev.hub.postStatus R.dbg_DBG_CMD_STATUS 6 16 16 T.HUB_COMMIT_STATUS_LOST)) ∧
  (∀ (port : Bool) (k m : Nat) (s : State), s.dev.hub.dbgAnswers = true → k < 15 → m = s.dev.hub.fld R.dbg_DBG_SESSION_ENGINE_MASK → bit m k = true →
    exec (.dbgCmdClose port k) s = .next { s with dev := Device.dbgStatus (0, ({ s.dev with hub := (s.dev.hub.setFld R.dbg_DBG_SESSION_ENGINE_MASK (m - 2 ^ k)).raise 665 } : Device).run (benchOf k) (fun h b => (h, b.resumeAll))) }) ∧
  (∀ (i : Image) (s : State), s.dev.hub.up = true → s.dev.hub.fw.image = some i →
    LeavesHub (.svnAdvance) s (s.dev.hub.updFw (fun w => { w with fuses := { w.fuses with svn := min 64 (max w.fuses.svn i.svn) } }))) ∧
  (∀ (src : Bool) (h : Hub) (s : State), s.dev.hub.up = true → s.dev.hub.fw.sealing = none →
    h = (s.dev.hub.setFld R.seal_SEAL_CTL_OP 0).setFld R.seal_SEAL_CTL_SRC (if src then 1 else 0) →
    (src && h.flag R.seal_SEAL_LOCK_DEVSEAL_LOCK) = false →
    LeavesHub (.sealEncrypt src) s (h.sealStart { op := 0, result := 0, out := h.sealBlock true src, key := [] })) ∧
  (∀ (h : Hub) (s : State), s.dev.hub.up = true → s.dev.hub.fw.sealing = none →
    h = (s.dev.hub.setFld R.seal_SEAL_CTL_OP 0).setFld R.seal_SEAL_CTL_SRC 1 → h.flag R.seal_SEAL_LOCK_DEVSEAL_LOCK = true →
    LeavesHub (.sealEncrypt true) s (h.sealStart { op := 0, result := 5, out := [], key := [] })) ∧
  (∀ (src : Bool) (h : Hub) (s : State), s.dev.hub.up = true → s.dev.hub.fw.sealing = none →
    h = (s.dev.hub.setFld R.seal_SEAL_CTL_OP 1).setFld R.seal_SEAL_CTL_SRC (if src then 1 else 0) →
    (src && h.flag R.seal_SEAL_LOCK_DEVSEAL_LOCK) = false →
    LeavesHub (.sealDecrypt src) s (h.sealStart { op := 1, result := 0, out := h.sealBlock false src, key := [] })) ∧
  (∀ (src : Bool) (s : State), s.dev.hub.up = true → s.dev.hub.fw.sealing.isSome = true →
    LeavesHub (.sealDecrypt src) s
      ((s.dev.hub.setFld R.seal_SEAL_CTL_OP 1).setFld R.seal_SEAL_CTL_SRC (if src then 1 else 0)).sealRefused) ∧
  (∀ (h : Hub) (s : State), s.dev.hub.up = true → s.dev.hub.fw.sealing = none →
    h = (s.dev.hub.setFld R.seal_SEAL_CTL_OP 2).setFld R.seal_SEAL_CTL_SRC 0 →
    LeavesHub (.sealUnwrap) s (h.sealStart { op := 2, result := (h.unwrap (h.fld R.seal_SEAL_TARGET_KIND) h.blob).1, out := [], key := (h.unwrap (h.fld R.seal_SEAL_TARGET_KIND) h.blob).2 })) ∧
  (∀ (o : SealOp) (s : State), s.dev.hub.fw.sealing = some o → (o.op ≠ 2 ∨ o.result ≠ 0) →
    LeavesHub (.sealResult) s (s.dev.hub.sealEnd o o.result)) ∧
  (∀ (o : SealOp) (x : Nat × Device) (s : State), s.dev.hub.fw.sealing = some o → o.op = 2 → o.result = 0 →
    x = s.dev.deliverKey (benchOf (s.dev.hub.fld R.seal_SEAL_TARGET_BENCH)) (s.dev.hub.fld R.seal_SEAL_TARGET_KIND) (s.dev.hub.fld R.seal_SEAL_TARGET_INDEX) o.key →
    exec (.sealResult) s = .next { s with dev := { x.2 with hub := x.2.hub.sealEnd o x.1 } }) ∧
  (∀ (s : State), s.dev.hub.fw.sealing = none → Idles (.sealResult) s) ∧
  (∀ (n : BenchId) (s : State), (s.dev.hub.ryuner && (s.dev.bench n).live && s.dev.hub.archives n (s.dev.bench n) && (s.dev.bench n).dramUp && (s.dev.bench n).flag R.dram_DRAM_STATUS_RETAINED && s.dev.hub.fw.sealing.isNone) = true →
    Completes (.keyArchiveRestore n) s (fun t => OthersKept n s t)) ∧
  (∀ (n : BenchId) (s : State), (s.dev.hub.ryuner && (s.dev.bench n).live && s.dev.hub.archives n (s.dev.bench n) && (s.dev.bench n).dramUp && (s.dev.bench n).flag R.dram_DRAM_STATUS_RETAINED && s.dev.hub.fw.sealing.isNone) = true →
    (s.dev.bench n).dram.reqs = [] → (∀ k i, k < 2 → i < 16384 → memBytes (s.dev.bench n).mem (dramBase + (s.dev.bench n).archiveAt k i) 1 = [0#8]) →
    Completes (.keyArchiveRestore n) s (fun t => OthersKept n s t ∧ (t.dev.bench n).keys = (s.dev.bench n).keys ∧ (t.dev.bench n).mem = (s.dev.bench n).mem)) ∧
  (∀ (n : BenchId) (s : State), (s.dev.hub.ryuner && (s.dev.bench n).live && s.dev.hub.archives n (s.dev.bench n) && (s.dev.bench n).dramUp && (s.dev.bench n).flag R.dram_DRAM_STATUS_RETAINED && s.dev.hub.fw.sealing.isNone) = false →
    Idles (.keyArchiveRestore n) s)

/-- Every step answers a next state and takes exactly the front command from the queue. Rests on spec/00_scope.md spec/01_benches_and_hub.md. -/
def Obligations.EveryStepTakesOneCommand : Prop :=
  ∀ s : State, ∃ t, step s = .next t ∧ t.pending = s.pending.tail

/-- Every step hands the events it raised to the interrupt unit: none waits in a bench after it. Rests on spec/19_errors_and_tallies.md spec/01_benches_and_hub.md. -/
def Obligations.EveryStepHandsItsEventsOver : Prop :=
  ∀ s t : State, s.eventsHandedOver → step s = .next t → t.eventsHandedOver

/-- A command of one bench neither changes nor depends on any other bench. Rests on spec/01_benches_and_hub.md. -/
def Obligations.BenchesAreIsolated : Prop :=
  ∀ (c : Instr) (n : BenchId) (s t : State), benchCmd c = some n → s.dev.hub = t.dev.hub → s.dev.bench n = t.dev.bench n →
    ∃ s' t', exec c s = .next s' ∧ exec c t = .next t' ∧ s'.dev.hub = t'.dev.hub ∧ s'.dev.bench n = t'.dev.bench n ∧
      s'.pending = s.pending ∧ t'.pending = t.pending ∧
      (∀ m, m ≠ n → s'.dev.bench m = s.dev.bench m) ∧ ∀ m, m ≠ n → t'.dev.bench m = t.dev.bench m
end

