-- ==== Sys2Proof/Laws/Sparse.lean ====
section
/-! SUPPORT. The laws of sparse maps, of bit fields, and of the one read and one write of registers, tallies and memory. -/
namespace Sys2Proof.Machine

/-! ## Sparse maps: a read after a write, and the canonical form -/

theorem sparseGet_drop_self {α : Type} (d : Nat → α) (k : Nat) (l : List (Nat × α)) :
    sparseGet d (sparseDrop k l) k = d k := by
  induction l with
  | nil => rfl
  | cons p t ih =>
    obtain ⟨a, x⟩ := p
    by_cases h : a = k
    · simp [sparseDrop, h, ih]
    · have h' : k ≠ a := fun e => h e.symm
      simp [sparseDrop, sparseGet, h, h', ih]

theorem sparseGet_drop_ne {α : Type} (d : Nat → α) {k j : Nat} (hj : j ≠ k) (l : List (Nat × α)) :
    sparseGet d (sparseDrop k l) j = sparseGet d l j := by
  induction l with
  | nil => rfl
  | cons p t ih =>
    obtain ⟨a, x⟩ := p
    by_cases h : a = k
    · have : j ≠ a := fun e => hj (e.trans h)
      simp only [sparseDrop, h, ↓reduceIte, ih, sparseGet]
      simp [hj]
    · simp only [sparseDrop, h, ↓reduceIte, sparseGet, ih]

theorem sparseGet_insert_ne {α : Type} (d : Nat → α) {k j : Nat} (v : α) (hj : j ≠ k) (l : List (Nat × α)) :
    sparseGet d (sparseInsert k v l) j = sparseGet d l j := by
  induction l with
  | nil => simp [sparseInsert, sparseGet, hj]
  | cons p t ih =>
    obtain ⟨a, x⟩ := p
    by_cases h : k < a
    · simp [sparseInsert, sparseGet, h, hj]
    · simp [sparseInsert, sparseGet, h, ih]

theorem sparseGet_insert_drop {α : Type} (d : Nat → α) (k : Nat) (v : α) (l : List (Nat × α)) :
    sparseGet d (sparseInsert k v (sparseDrop k l)) k = v := by
  induction l with
  | nil => simp [sparseDrop, sparseInsert, sparseGet]
  | cons p t ih =>
    obtain ⟨a, x⟩ := p
    by_cases h : a = k
    · simp only [sparseDrop, h, ↓reduceIte, ih]
    · have h' : k ≠ a := fun e => h e.symm
      by_cases hk : k < a
      · simp [sparseDrop, sparseInsert, sparseGet, h, hk]
      · simp only [sparseDrop, h, ↓reduceIte, sparseInsert, hk, sparseGet, h', ih]

/-- Reading the key just written gives the value written. -/
@[simp] theorem sparseGet_set_self {α : Type} [DecidableEq α] (d : Nat → α) (l : List (Nat × α)) (k : Nat) (v : α) :
    sparseGet d (sparseSet d l k v) k = v := by
  unfold sparseSet
  split
  · rename_i h; rw [sparseGet_drop_self, h]
  · exact sparseGet_insert_drop d k v l

/-- Reading another key gives what it gave before. -/
theorem sparseGet_set_ne {α : Type} [DecidableEq α] (d : Nat → α) (l : List (Nat × α)) {k j : Nat} (v : α) (h : j ≠ k) :
    sparseGet d (sparseSet d l k v) j = sparseGet d l j := by
  unfold sparseSet
  split
  · exact sparseGet_drop_ne d h l
  · rw [sparseGet_insert_ne d v h, sparseGet_drop_ne d h]

/-- A write read at any key. -/
theorem sparseGet_set {α : Type} [DecidableEq α] (d : Nat → α) (l : List (Nat × α)) (k j : Nat) (v : α) :
    sparseGet d (sparseSet d l k v) j = if j = k then v else sparseGet d l j := by
  split
  · rename_i h; rw [h]; exact sparseGet_set_self d l k v
  · rename_i h; exact sparseGet_set_ne d l v h

theorem sparseWfFrom_weaken {α : Type} [DecidableEq α] (d : Nat → α) {a b : Nat} (h : a < b) (l : List (Nat × α))
    (hl : sparseWfFrom d (some b) l = true) : sparseWfFrom d (some a) l = true := by
  cases l with
  | nil => rfl
  | cons p t =>
    obtain ⟨c, v⟩ := p
    simp only [sparseWfFrom, Bool.and_eq_true, decide_eq_true_eq] at hl ⊢
    exact ⟨⟨Nat.lt_trans h hl.1.1, hl.1.2⟩, hl.2⟩

theorem sparseWfFrom_drop {α : Type} [DecidableEq α] (d : Nat → α) (k : Nat) (l : List (Nat × α)) (lo : Option Nat)
    (hl : sparseWfFrom d lo l = true) : sparseWfFrom d lo (sparseDrop k l) = true := by
  induction l generalizing lo with
  | nil => rfl
  | cons p t ih =>
    obtain ⟨a, x⟩ := p
    simp only [sparseWfFrom, Bool.and_eq_true, decide_eq_true_eq] at hl
    by_cases h : a = k
    · simp only [sparseDrop, h, ↓reduceIte]
      refine ih lo ?_
      cases lo with
      | none =>
        cases t with
        | nil => rfl
        | cons q u =>
          obtain ⟨c, y⟩ := q
          have := hl.2
          simp only [sparseWfFrom, Bool.and_eq_true, decide_eq_true_eq] at this ⊢
          exact ⟨⟨trivial, this.1.2⟩, this.2⟩
      | some b =>
        have hb : b < a := by simpa using hl.1.1
        exact sparseWfFrom_weaken d hb t hl.2
    · simp only [sparseDrop, h, ↓reduceIte, sparseWfFrom, Bool.and_eq_true, decide_eq_true_eq]
      exact ⟨hl.1, ih (some a) hl.2⟩

theorem sparseWfFrom_insert {α : Type} [DecidableEq α] (d : Nat → α) (k : Nat) (v : α) (hv : v ≠ d k) (l : List (Nat × α))
    (lo : Option Nat) (hlo : (match lo with | none => true | some b => decide (b < k)) = true)
    (hl : sparseWfFrom d lo (sparseDrop k l) = true) :
    sparseWfFrom d lo (sparseInsert k v (sparseDrop k l)) = true := by
  induction l generalizing lo with
  | nil =>
    simp only [sparseDrop, sparseInsert, sparseWfFrom, Bool.and_eq_true, decide_eq_true_eq, and_true]
    exact ⟨hlo, hv⟩
  | cons p t ih =>
    obtain ⟨a, x⟩ := p
    by_cases h : a = k
    · simp only [sparseDrop, h, ↓reduceIte] at hl ⊢
      exact ih lo hlo hl
    · simp only [sparseDrop, h, ↓reduceIte] at hl ⊢
      simp only [sparseWfFrom, Bool.and_eq_true, decide_eq_true_eq] at hl
      by_cases hk : k < a
      · simp only [sparseInsert, hk, ↓reduceIte, sparseWfFrom, Bool.and_eq_true, decide_eq_true_eq]
        exact ⟨⟨hlo, hv⟩, ⟨trivial, hl.1.2⟩, hl.2⟩
      · simp only [sparseInsert, hk, ↓reduceIte, sparseWfFrom, Bool.and_eq_true, decide_eq_true_eq]
        exact ⟨hl.1, ih (some a) (by simp; omega) hl.2⟩

/-- Every write keeps the canonical form. -/
theorem sparseWf_set {α : Type} [DecidableEq α] (d : Nat → α) (l : List (Nat × α)) (k : Nat) (v : α)
    (h : sparseWf d l = true) : sparseWf d (sparseSet d l k v) = true := by
  unfold sparseWf sparseSet at *
  split
  · exact sparseWfFrom_drop d k l none h
  · rename_i hv
    exact sparseWfFrom_insert d k v hv l none rfl (sparseWfFrom_drop d k l none h)

/-! ## Memory -/

@[simp] theorem memByte_set_self (m : List Host.Cell) (a : Nat) (v : Byte) : memByte (memSet m a v) a = v :=
  sparseGet_set_self _ _ _ _
theorem memByte_set_ne (m : List Host.Cell) {a x : Nat} (v : Byte) (h : x ≠ a) : memByte (memSet m a v) x = memByte m x :=
  sparseGet_set_ne _ _ v h
theorem memSet_wf (m : List Host.Cell) (a : Nat) (v : Byte) (h : Memory.wf m = true) : Memory.wf (memSet m a v) = true :=
  sparseWf_set _ _ _ _ h

/-- A run of bytes written leaves every byte outside it as it was. -/
theorem memByte_write_outside (l : List Byte) (m : List Host.Cell) (a x : Nat) (h : x < a ∨ a + l.length ≤ x) :
    memByte (memWrite m a l) x = memByte m x := by
  induction l generalizing m a with
  | nil => rfl
  | cons b t ih =>
    simp only [memWrite, List.length_cons] at *
    rw [ih _ _ (by omega), memByte_set_ne _ _ (by omega)]

/-- A run of bytes written reads back. -/
theorem memByte_write_inside (l : List Byte) (m : List Host.Cell) (a i : Nat) (h : i < l.length) :
    memByte (memWrite m a l) (a + i) = l[i] := by
  induction l generalizing m a i with
  | nil => simp at h
  | cons b t ih =>
    cases i with
    | zero =>
      simp only [memWrite, Nat.add_zero, List.getElem_cons_zero]
      rw [memByte_write_outside _ _ _ _ (by omega)]; simp
    | succ j =>
      simp only [memWrite, List.getElem_cons_succ]
      have := ih (memSet m a b) (a + 1) j (by simpa using h)
      rw [show a + (j + 1) = a + 1 + j by omega]; exact this

theorem memWrite_wf (l : List Byte) (m : List Host.Cell) (a : Nat) (h : Memory.wf m = true) : Memory.wf (memWrite m a l) = true := by
  induction l generalizing m a with
  | nil => exact h
  | cons b t ih => exact ih _ _ (memSet_wf _ _ _ h)

theorem memBytes_length (m : List Host.Cell) (n a : Nat) : (memBytes m a n).length = n := by
  induction n generalizing a with
  | zero => rfl
  | succ k ih => simp [memBytes, ih]

/-- Bytes from `k` on. -/
theorem memBytes_drop (m : List Host.Cell) (a n k : Nat) : (memBytes m a n).drop k = memBytes m (a + k) (n - k) := by
  induction k generalizing a n with
  | zero => simp
  | succ k ih =>
    cases n with
    | zero => simp [memBytes]
    | succ n => simp [memBytes, ih, Nat.add_assoc, Nat.add_comm 1 k]

/-- The first `k` bytes. -/
theorem memBytes_take (m : List Host.Cell) (a n k : Nat) (h : k ≤ n) : (memBytes m a n).take k = memBytes m a k := by
  induction k generalizing a n with
  | zero => simp [memBytes]
  | succ k ih =>
    cases n with
    | zero => omega
    | succ n => simp [memBytes, ih (a + 1) n (by omega)]

/-- What was written reads back whole. -/
theorem memBytes_write (l : List Byte) (m : List Host.Cell) (a : Nat) : memBytes (memWrite m a l) a l.length = l := by
  induction l generalizing m a with
  | nil => rfl
  | cons b t ih =>
    simp only [memWrite, List.length_cons, memBytes]
    rw [ih, memByte_write_outside _ _ _ _ (by omega), memByte_set_self]

/-! ## Bit fields -/

theorem getBits_lt (x lo w : Nat) : getBits x lo w < 2 ^ w := Nat.mod_lt _ (Nat.two_pow_pos w)

theorem putBits_div (x lo w v : Nat) : putBits x lo w v / 2 ^ lo = v % 2 ^ w + 2 ^ w * (x / 2 ^ (lo + w)) := by
  have h1 : x % 2 ^ lo < 2 ^ lo := Nat.mod_lt _ (Nat.two_pow_pos lo)
  have h : putBits x lo w v = x % 2 ^ lo + 2 ^ lo * (v % 2 ^ w + 2 ^ w * (x / 2 ^ (lo + w))) := by
    unfold putBits; rw [Nat.pow_add]; ring
  rw [h, Nat.add_mul_div_left _ _ (Nat.two_pow_pos lo), Nat.div_eq_of_lt h1, Nat.zero_add]

/-- A field reads what was put into it. -/
@[simp] theorem getBits_putBits_self (x lo w v : Nat) : getBits (putBits x lo w v) lo w = v % 2 ^ w := by
  unfold getBits
  rw [putBits_div, Nat.add_mul_mod_self_left, Nat.mod_mod]

theorem putBits_mod_low (x lo w v lo' w' : Nat) (h : lo' + w' ≤ lo) :
    getBits (putBits x lo w v) lo' w' = getBits x lo' w' := by
  obtain ⟨k, rfl⟩ := Nat.exists_eq_add_of_le h
  unfold getBits
  have e : ∀ y, y / 2 ^ lo' % 2 ^ w' = y % 2 ^ (lo' + w') / 2 ^ lo' := by
    intro y; rw [Nat.pow_add, Nat.mod_mul_right_div_self]
  rw [e, e]
  congr 1
  have : putBits x (lo' + w' + k) w v = x % 2 ^ (lo' + w' + k) + 2 ^ (lo' + w') * (2 ^ k * (v % 2 ^ w + 2 ^ w * (x / 2 ^ (lo' + w' + k + w)))) := by
    unfold putBits; rw [Nat.pow_add _ (lo' + w' + k) w, Nat.pow_add _ (lo' + w') k]; ring
  rw [this, Nat.add_mul_mod_self_left, Nat.mod_mod_of_dvd]
  exact Nat.pow_dvd_pow 2 (Nat.le_add_right _ _)

theorem putBits_div_high (x lo w v : Nat) : putBits x lo w v / 2 ^ (lo + w) = x / 2 ^ (lo + w) := by
  rw [Nat.pow_add, ← Nat.div_div_eq_div_mul, putBits_div, Nat.add_mul_div_left _ _ (Nat.two_pow_pos w),
    Nat.div_eq_of_lt (Nat.mod_lt _ (Nat.two_pow_pos w)), Nat.zero_add, Nat.pow_add]

theorem putBits_mod_high (x lo w v lo' w' : Nat) (h : lo + w ≤ lo') :
    getBits (putBits x lo w v) lo' w' = getBits x lo' w' := by
  obtain ⟨k, rfl⟩ := Nat.exists_eq_add_of_le h
  unfold getBits
  rw [Nat.pow_add 2 (lo + w) k, ← Nat.div_div_eq_div_mul, ← Nat.div_div_eq_div_mul, putBits_div_high]

/-- A field of a register word does not see bits above it cut off. -/
theorem getBits_mod (x lo w n : Nat) (h : lo + w ≤ n) : getBits (x % 2 ^ n) lo w = getBits x lo w := by
  obtain ⟨k, rfl⟩ := Nat.exists_eq_add_of_le h
  unfold getBits
  rw [show lo + w + k = lo + (w + k) by omega, Nat.pow_add, Nat.mod_mul_right_div_self, Nat.mod_mod_of_dvd]
  exact Nat.pow_dvd_pow 2 (Nat.le_add_right _ _)

/-- Two fields share no bit. -/
def Fld.apart (f g : Fld) : Prop := f.off ≠ g.off ∨ f.lo + f.w ≤ g.lo ∨ g.lo + g.w ≤ f.lo

/-! ## Registers -/

@[simp] theorem Bench.reg_setReg_self (b : Bench) (o : Nat) (v : Word) : (b.setReg o v).reg o = v := sparseGet_set_self _ _ _ _
theorem Bench.reg_setReg_ne (b : Bench) {o p : Nat} (v : Word) (h : p ≠ o) : (b.setReg o v).reg p = b.reg p :=
  sparseGet_set_ne _ _ v h
@[simp] theorem Hub.reg_setReg_self (b : Hub) (o : Nat) (v : Word) : (b.setReg o v).reg o = v := sparseGet_set_self _ _ _ _
theorem Hub.reg_setReg_ne (b : Hub) {o p : Nat} (v : Word) (h : p ≠ o) : (b.setReg o v).reg p = b.reg p :=
  sparseGet_set_ne _ _ v h

/-- A field of a bench register reads what was put into it. -/
theorem Bench.fld_setFld_self (b : Bench) (f : Fld) (v : Nat) (h : f.lo + f.w ≤ 32) : (b.setFld f v).fld f = v % 2 ^ f.w := by
  unfold Bench.fld Bench.setFld
  rw [Bench.reg_setReg_self, BitVec.toNat_ofNat, getBits_mod _ _ _ _ h, getBits_putBits_self]
theorem Bench.fld_setFld_apart (b : Bench) (f g : Fld) (v : Nat) (hg : g.lo + g.w ≤ 32) (h : f.apart g) :
    (b.setFld f v).fld g = b.fld g := by
  unfold Bench.fld Bench.setFld
  by_cases e : g.off = f.off
  · rw [e, Bench.reg_setReg_self, BitVec.toNat_ofNat, getBits_mod _ _ _ _ hg]
    rcases h with h | h | h
    · exact absurd e.symm h
    · exact putBits_mod_high _ _ _ _ _ _ h
    · exact putBits_mod_low _ _ _ _ _ _ h
  · rw [Bench.reg_setReg_ne _ _ e]
theorem Hub.fld_setFld_self (b : Hub) (f : Fld) (v : Nat) (h : f.lo + f.w ≤ 32) : (b.setFld f v).fld f = v % 2 ^ f.w := by
  unfold Hub.fld Hub.setFld
  rw [Hub.reg_setReg_self, BitVec.toNat_ofNat, getBits_mod _ _ _ _ h, getBits_putBits_self]
theorem Hub.fld_setFld_apart (b : Hub) (f g : Fld) (v : Nat) (hg : g.lo + g.w ≤ 32) (h : f.apart g) :
    (b.setFld f v).fld g = b.fld g := by
  unfold Hub.fld Hub.setFld
  by_cases e : g.off = f.off
  · rw [e, Hub.reg_setReg_self, BitVec.toNat_ofNat, getBits_mod _ _ _ _ hg]
    rcases h with h | h | h
    · exact absurd e.symm h
    · exact putBits_mod_high _ _ _ _ _ _ h
    · exact putBits_mod_low _ _ _ _ _ _ h
  · rw [Hub.reg_setReg_ne _ _ e]

/-- A bench register outside a field's word is left as it was. -/
theorem Bench.reg_setFld_ne (b : Bench) (f : Fld) (v o : Nat) (h : o ≠ f.off) : (b.setFld f v).reg o = b.reg o :=
  Bench.reg_setReg_ne _ _ h
theorem Hub.reg_setFld_ne (b : Hub) (f : Fld) (v o : Nat) (h : o ≠ f.off) : (b.setFld f v).reg o = b.reg o :=
  Hub.reg_setReg_ne _ _ h

/-! ## Tallies -/

/-- A tally that counts rises by the count and stays at its greatest value (R531). -/
theorem Bench.tally_count_self (b : Bench) (key k : Nat) : (b.count key k).tally key = min tallyMax (b.tally key + k) :=
  sparseGet_set_self _ _ _ _
theorem Bench.tally_count_ne (b : Bench) {key x : Nat} (k : Nat) (h : x ≠ key) : (b.count key k).tally x = b.tally x :=
  sparseGet_set_ne _ _ _ h
theorem Hub.tally_count_self (b : Hub) (key k : Nat) : (b.count key k).tally key = min tallyMax (b.tally key + k) :=
  sparseGet_set_self _ _ _ _
theorem Hub.tally_count_ne (b : Hub) {key x : Nat} (k : Nat) (h : x ≠ key) : (b.count key k).tally x = b.tally x :=
  sparseGet_set_ne _ _ _ h

end Sys2Proof.Machine
end

