-- ==== Sys2Proof/Laws/State.lean ====
section
/-! SUPPORT. One lemma per field and per observation for each update of a bench and of the hub: what the update leaves as it was. -/
namespace Sys2Proof.Machine

/-! ## Benches -/

@[simp] theorem Bench.setReg_power (b : Bench) (o : Nat) (v : Word) : (b.setReg o v).power = b.power := rfl
@[simp] theorem Bench.setReg_cyc (b : Bench) (o : Nat) (v : Word) : (b.setReg o v).cyc = b.cyc := rfl
@[simp] theorem Bench.setReg_shadow (b : Bench) (o : Nat) (v : Word) : (b.setReg o v).shadow = b.shadow := rfl
@[simp] theorem Bench.setReg_mem (b : Bench) (o : Nat) (v : Word) : (b.setReg o v).mem = b.mem := rfl
@[simp] theorem Bench.setReg_keys (b : Bench) (o : Nat) (v : Word) : (b.setReg o v).keys = b.keys := rfl
@[simp] theorem Bench.setReg_tal (b : Bench) (o : Nat) (v : Word) : (b.setReg o v).tal = b.tal := rfl
@[simp] theorem Bench.setReg_seqs (b : Bench) (o : Nat) (v : Word) : (b.setReg o v).seqs = b.seqs := rfl
@[simp] theorem Bench.setReg_ports (b : Bench) (o : Nat) (v : Word) : (b.setReg o v).ports = b.ports := rfl
@[simp] theorem Bench.setReg_time (b : Bench) (o : Nat) (v : Word) : (b.setReg o v).time = b.time := rfl
@[simp] theorem Bench.setReg_pkts (b : Bench) (o : Nat) (v : Word) : (b.setReg o v).pkts = b.pkts := rfl
@[simp] theorem Bench.setReg_nextPid (b : Bench) (o : Nat) (v : Word) : (b.setReg o v).nextPid = b.nextPid := rfl
@[simp] theorem Bench.setReg_out (b : Bench) (o : Nat) (v : Word) : (b.setReg o v).out = b.out := rfl
@[simp] theorem Bench.setReg_wheel (b : Bench) (o : Nat) (v : Word) : (b.setReg o v).wheel = b.wheel := rfl
@[simp] theorem Bench.setReg_mt (b : Bench) (o : Nat) (v : Word) : (b.setReg o v).mt = b.mt := rfl
@[simp] theorem Bench.setReg_ci (b : Bench) (o : Nat) (v : Word) : (b.setReg o v).ci = b.ci := rfl
@[simp] theorem Bench.setReg_tm (b : Bench) (o : Nat) (v : Word) : (b.setReg o v).tm = b.tm := rfl
@[simp] theorem Bench.setReg_hop (b : Bench) (o : Nat) (v : Word) : (b.setReg o v).hop = b.hop := rfl
@[simp] theorem Bench.setReg_eng (b : Bench) (o : Nat) (v : Word) : (b.setReg o v).eng = b.eng := rfl
@[simp] theorem Bench.setReg_rings (b : Bench) (o : Nat) (v : Word) : (b.setReg o v).rings = b.rings := rfl
@[simp] theorem Bench.setReg_haul (b : Bench) (o : Nat) (v : Word) : (b.setReg o v).haul = b.haul := rfl
@[simp] theorem Bench.setReg_sto (b : Bench) (o : Nat) (v : Word) : (b.setReg o v).sto = b.sto := rfl
@[simp] theorem Bench.setReg_dram (b : Bench) (o : Nat) (v : Word) : (b.setReg o v).dram = b.dram := rfl
@[simp] theorem Bench.setReg_reads (b : Bench) (o : Nat) (v : Word) : (b.setReg o v).reads = b.reads := rfl
@[simp] theorem Bench.setReg_tlps (b : Bench) (o : Nat) (v : Word) : (b.setReg o v).tlps = b.tlps := rfl
@[simp] theorem Bench.setReg_evq (b : Bench) (o : Nat) (v : Word) : (b.setReg o v).evq = b.evq := rfl
@[simp] theorem Bench.setReg_free (b : Bench) (o : Nat) (v : Word) : (b.setReg o v).free = b.free := rfl
@[simp] theorem Bench.setReg_tally (b : Bench) (o : Nat) (v : Word) (x : Nat) : (b.setReg o v).tally x = b.tally x := rfl
@[simp] theorem Bench.setReg_seq (b : Bench) (o : Nat) (v : Word) (x : Nat) : (b.setReg o v).seq x = b.seq x := rfl
@[simp] theorem Bench.setReg_port (b : Bench) (o : Nat) (v : Word) (x : Nat) : (b.setReg o v).port x = b.port x := rfl
@[simp] theorem Bench.setReg_bytes (b : Bench) (o : Nat) (v : Word) (x y : Nat) : (b.setReg o v).bytes x y = b.bytes x y := rfl
@[simp] theorem Bench.setReg_live (b : Bench) (o : Nat) (v : Word)  : (b.setReg o v).live  = b.live  := rfl
@[simp] theorem Bench.setReg_thr (b : Bench) (o : Nat) (v : Word) (x : Nat) : (b.setReg o v).thr x = b.thr x := rfl
@[simp] theorem Bench.setReg_hasPort (b : Bench) (o : Nat) (v : Word) (x : Nat) : (b.setReg o v).hasPort x = b.hasPort x := rfl

@[simp] theorem Bench.setFld_power (b : Bench) (f : Fld) (v : Nat) : (b.setFld f v).power = b.power := rfl
@[simp] theorem Bench.setFld_cyc (b : Bench) (f : Fld) (v : Nat) : (b.setFld f v).cyc = b.cyc := rfl
@[simp] theorem Bench.setFld_shadow (b : Bench) (f : Fld) (v : Nat) : (b.setFld f v).shadow = b.shadow := rfl
@[simp] theorem Bench.setFld_mem (b : Bench) (f : Fld) (v : Nat) : (b.setFld f v).mem = b.mem := rfl
@[simp] theorem Bench.setFld_keys (b : Bench) (f : Fld) (v : Nat) : (b.setFld f v).keys = b.keys := rfl
@[simp] theorem Bench.setFld_tal (b : Bench) (f : Fld) (v : Nat) : (b.setFld f v).tal = b.tal := rfl
@[simp] theorem Bench.setFld_seqs (b : Bench) (f : Fld) (v : Nat) : (b.setFld f v).seqs = b.seqs := rfl
@[simp] theorem Bench.setFld_ports (b : Bench) (f : Fld) (v : Nat) : (b.setFld f v).ports = b.ports := rfl
@[simp] theorem Bench.setFld_time (b : Bench) (f : Fld) (v : Nat) : (b.setFld f v).time = b.time := rfl
@[simp] theorem Bench.setFld_pkts (b : Bench) (f : Fld) (v : Nat) : (b.setFld f v).pkts = b.pkts := rfl
@[simp] theorem Bench.setFld_nextPid (b : Bench) (f : Fld) (v : Nat) : (b.setFld f v).nextPid = b.nextPid := rfl
@[simp] theorem Bench.setFld_out (b : Bench) (f : Fld) (v : Nat) : (b.setFld f v).out = b.out := rfl
@[simp] theorem Bench.setFld_wheel (b : Bench) (f : Fld) (v : Nat) : (b.setFld f v).wheel = b.wheel := rfl
@[simp] theorem Bench.setFld_mt (b : Bench) (f : Fld) (v : Nat) : (b.setFld f v).mt = b.mt := rfl
@[simp] theorem Bench.setFld_ci (b : Bench) (f : Fld) (v : Nat) : (b.setFld f v).ci = b.ci := rfl
@[simp] theorem Bench.setFld_tm (b : Bench) (f : Fld) (v : Nat) : (b.setFld f v).tm = b.tm := rfl
@[simp] theorem Bench.setFld_hop (b : Bench) (f : Fld) (v : Nat) : (b.setFld f v).hop = b.hop := rfl
@[simp] theorem Bench.setFld_eng (b : Bench) (f : Fld) (v : Nat) : (b.setFld f v).eng = b.eng := rfl
@[simp] theorem Bench.setFld_rings (b : Bench) (f : Fld) (v : Nat) : (b.setFld f v).rings = b.rings := rfl
@[simp] theorem Bench.setFld_haul (b : Bench) (f : Fld) (v : Nat) : (b.setFld f v).haul = b.haul := rfl
@[simp] theorem Bench.setFld_sto (b : Bench) (f : Fld) (v : Nat) : (b.setFld f v).sto = b.sto := rfl
@[simp] theorem Bench.setFld_dram (b : Bench) (f : Fld) (v : Nat) : (b.setFld f v).dram = b.dram := rfl
@[simp] theorem Bench.setFld_reads (b : Bench) (f : Fld) (v : Nat) : (b.setFld f v).reads = b.reads := rfl
@[simp] theorem Bench.setFld_tlps (b : Bench) (f : Fld) (v : Nat) : (b.setFld f v).tlps = b.tlps := rfl
@[simp] theorem Bench.setFld_evq (b : Bench) (f : Fld) (v : Nat) : (b.setFld f v).evq = b.evq := rfl
@[simp] theorem Bench.setFld_free (b : Bench) (f : Fld) (v : Nat) : (b.setFld f v).free = b.free := rfl
@[simp] theorem Bench.setFld_tally (b : Bench) (f : Fld) (v : Nat) (x : Nat) : (b.setFld f v).tally x = b.tally x := rfl
@[simp] theorem Bench.setFld_seq (b : Bench) (f : Fld) (v : Nat) (x : Nat) : (b.setFld f v).seq x = b.seq x := rfl
@[simp] theorem Bench.setFld_port (b : Bench) (f : Fld) (v : Nat) (x : Nat) : (b.setFld f v).port x = b.port x := rfl
@[simp] theorem Bench.setFld_bytes (b : Bench) (f : Fld) (v : Nat) (x y : Nat) : (b.setFld f v).bytes x y = b.bytes x y := rfl
@[simp] theorem Bench.setFld_live (b : Bench) (f : Fld) (v : Nat)  : (b.setFld f v).live  = b.live  := rfl
@[simp] theorem Bench.setFld_thr (b : Bench) (f : Fld) (v : Nat) (x : Nat) : (b.setFld f v).thr x = b.thr x := rfl
@[simp] theorem Bench.setFld_hasPort (b : Bench) (f : Fld) (v : Nat) (x : Nat) : (b.setFld f v).hasPort x = b.hasPort x := rfl

@[simp] theorem Bench.count_power (b : Bench) (k n : Nat) : (b.count k n).power = b.power := rfl
@[simp] theorem Bench.count_cyc (b : Bench) (k n : Nat) : (b.count k n).cyc = b.cyc := rfl
@[simp] theorem Bench.count_regs (b : Bench) (k n : Nat) : (b.count k n).regs = b.regs := rfl
@[simp] theorem Bench.count_shadow (b : Bench) (k n : Nat) : (b.count k n).shadow = b.shadow := rfl
@[simp] theorem Bench.count_mem (b : Bench) (k n : Nat) : (b.count k n).mem = b.mem := rfl
@[simp] theorem Bench.count_keys (b : Bench) (k n : Nat) : (b.count k n).keys = b.keys := rfl
@[simp] theorem Bench.count_seqs (b : Bench) (k n : Nat) : (b.count k n).seqs = b.seqs := rfl
@[simp] theorem Bench.count_ports (b : Bench) (k n : Nat) : (b.count k n).ports = b.ports := rfl
@[simp] theorem Bench.count_time (b : Bench) (k n : Nat) : (b.count k n).time = b.time := rfl
@[simp] theorem Bench.count_pkts (b : Bench) (k n : Nat) : (b.count k n).pkts = b.pkts := rfl
@[simp] theorem Bench.count_nextPid (b : Bench) (k n : Nat) : (b.count k n).nextPid = b.nextPid := rfl
@[simp] theorem Bench.count_out (b : Bench) (k n : Nat) : (b.count k n).out = b.out := rfl
@[simp] theorem Bench.count_wheel (b : Bench) (k n : Nat) : (b.count k n).wheel = b.wheel := rfl
@[simp] theorem Bench.count_mt (b : Bench) (k n : Nat) : (b.count k n).mt = b.mt := rfl
@[simp] theorem Bench.count_ci (b : Bench) (k n : Nat) : (b.count k n).ci = b.ci := rfl
@[simp] theorem Bench.count_tm (b : Bench) (k n : Nat) : (b.count k n).tm = b.tm := rfl
@[simp] theorem Bench.count_hop (b : Bench) (k n : Nat) : (b.count k n).hop = b.hop := rfl
@[simp] theorem Bench.count_eng (b : Bench) (k n : Nat) : (b.count k n).eng = b.eng := rfl
@[simp] theorem Bench.count_rings (b : Bench) (k n : Nat) : (b.count k n).rings = b.rings := rfl
@[simp] theorem Bench.count_haul (b : Bench) (k n : Nat) : (b.count k n).haul = b.haul := rfl
@[simp] theorem Bench.count_sto (b : Bench) (k n : Nat) : (b.count k n).sto = b.sto := rfl
@[simp] theorem Bench.count_dram (b : Bench) (k n : Nat) : (b.count k n).dram = b.dram := rfl
@[simp] theorem Bench.count_reads (b : Bench) (k n : Nat) : (b.count k n).reads = b.reads := rfl
@[simp] theorem Bench.count_tlps (b : Bench) (k n : Nat) : (b.count k n).tlps = b.tlps := rfl
@[simp] theorem Bench.count_evq (b : Bench) (k n : Nat) : (b.count k n).evq = b.evq := rfl
@[simp] theorem Bench.count_free (b : Bench) (k n : Nat) : (b.count k n).free = b.free := rfl
@[simp] theorem Bench.count_reg (b : Bench) (k n : Nat) (x : Nat) : (b.count k n).reg x = b.reg x := rfl
@[simp] theorem Bench.count_fld (b : Bench) (k n : Nat) (x : Fld) : (b.count k n).fld x = b.fld x := rfl
@[simp] theorem Bench.count_flag (b : Bench) (k n : Nat) (x : Fld) : (b.count k n).flag x = b.flag x := rfl
@[simp] theorem Bench.count_seq (b : Bench) (k n : Nat) (x : Nat) : (b.count k n).seq x = b.seq x := rfl
@[simp] theorem Bench.count_port (b : Bench) (k n : Nat) (x : Nat) : (b.count k n).port x = b.port x := rfl
@[simp] theorem Bench.count_bytes (b : Bench) (k n : Nat) (x y : Nat) : (b.count k n).bytes x y = b.bytes x y := rfl
@[simp] theorem Bench.count_live (b : Bench) (k n : Nat)  : (b.count k n).live  = b.live  := rfl
@[simp] theorem Bench.count_thr (b : Bench) (k n : Nat) (x : Nat) : (b.count k n).thr x = b.thr x := rfl
@[simp] theorem Bench.count_hasPort (b : Bench) (k n : Nat) (x : Nat) : (b.count k n).hasPort x = b.hasPort x := rfl

@[simp] theorem Bench.tick_power (b : Bench) (k : Nat) : (b.tick k).power = b.power := rfl
@[simp] theorem Bench.tick_cyc (b : Bench) (k : Nat) : (b.tick k).cyc = b.cyc := rfl
@[simp] theorem Bench.tick_regs (b : Bench) (k : Nat) : (b.tick k).regs = b.regs := rfl
@[simp] theorem Bench.tick_shadow (b : Bench) (k : Nat) : (b.tick k).shadow = b.shadow := rfl
@[simp] theorem Bench.tick_mem (b : Bench) (k : Nat) : (b.tick k).mem = b.mem := rfl
@[simp] theorem Bench.tick_keys (b : Bench) (k : Nat) : (b.tick k).keys = b.keys := rfl
@[simp] theorem Bench.tick_seqs (b : Bench) (k : Nat) : (b.tick k).seqs = b.seqs := rfl
@[simp] theorem Bench.tick_ports (b : Bench) (k : Nat) : (b.tick k).ports = b.ports := rfl
@[simp] theorem Bench.tick_time (b : Bench) (k : Nat) : (b.tick k).time = b.time := rfl
@[simp] theorem Bench.tick_pkts (b : Bench) (k : Nat) : (b.tick k).pkts = b.pkts := rfl
@[simp] theorem Bench.tick_nextPid (b : Bench) (k : Nat) : (b.tick k).nextPid = b.nextPid := rfl
@[simp] theorem Bench.tick_out (b : Bench) (k : Nat) : (b.tick k).out = b.out := rfl
@[simp] theorem Bench.tick_wheel (b : Bench) (k : Nat) : (b.tick k).wheel = b.wheel := rfl
@[simp] theorem Bench.tick_mt (b : Bench) (k : Nat) : (b.tick k).mt = b.mt := rfl
@[simp] theorem Bench.tick_ci (b : Bench) (k : Nat) : (b.tick k).ci = b.ci := rfl
@[simp] theorem Bench.tick_tm (b : Bench) (k : Nat) : (b.tick k).tm = b.tm := rfl
@[simp] theorem Bench.tick_hop (b : Bench) (k : Nat) : (b.tick k).hop = b.hop := rfl
@[simp] theorem Bench.tick_eng (b : Bench) (k : Nat) : (b.tick k).eng = b.eng := rfl
@[simp] theorem Bench.tick_rings (b : Bench) (k : Nat) : (b.tick k).rings = b.rings := rfl
@[simp] theorem Bench.tick_haul (b : Bench) (k : Nat) : (b.tick k).haul = b.haul := rfl
@[simp] theorem Bench.tick_sto (b : Bench) (k : Nat) : (b.tick k).sto = b.sto := rfl
@[simp] theorem Bench.tick_dram (b : Bench) (k : Nat) : (b.tick k).dram = b.dram := rfl
@[simp] theorem Bench.tick_reads (b : Bench) (k : Nat) : (b.tick k).reads = b.reads := rfl
@[simp] theorem Bench.tick_tlps (b : Bench) (k : Nat) : (b.tick k).tlps = b.tlps := rfl
@[simp] theorem Bench.tick_evq (b : Bench) (k : Nat) : (b.tick k).evq = b.evq := rfl
@[simp] theorem Bench.tick_free (b : Bench) (k : Nat) : (b.tick k).free = b.free := rfl
@[simp] theorem Bench.tick_reg (b : Bench) (k : Nat) (x : Nat) : (b.tick k).reg x = b.reg x := rfl
@[simp] theorem Bench.tick_fld (b : Bench) (k : Nat) (x : Fld) : (b.tick k).fld x = b.fld x := rfl
@[simp] theorem Bench.tick_flag (b : Bench) (k : Nat) (x : Fld) : (b.tick k).flag x = b.flag x := rfl
@[simp] theorem Bench.tick_seq (b : Bench) (k : Nat) (x : Nat) : (b.tick k).seq x = b.seq x := rfl
@[simp] theorem Bench.tick_port (b : Bench) (k : Nat) (x : Nat) : (b.tick k).port x = b.port x := rfl
@[simp] theorem Bench.tick_bytes (b : Bench) (k : Nat) (x y : Nat) : (b.tick k).bytes x y = b.bytes x y := rfl
@[simp] theorem Bench.tick_live (b : Bench) (k : Nat)  : (b.tick k).live  = b.live  := rfl
@[simp] theorem Bench.tick_thr (b : Bench) (k : Nat) (x : Nat) : (b.tick k).thr x = b.thr x := rfl
@[simp] theorem Bench.tick_hasPort (b : Bench) (k : Nat) (x : Nat) : (b.tick k).hasPort x = b.hasPort x := rfl

@[simp] theorem Bench.cfgRefused_power (b : Bench)  : (b.cfgRefused ).power = b.power := rfl
@[simp] theorem Bench.cfgRefused_cyc (b : Bench)  : (b.cfgRefused ).cyc = b.cyc := rfl
@[simp] theorem Bench.cfgRefused_regs (b : Bench)  : (b.cfgRefused ).regs = b.regs := rfl
@[simp] theorem Bench.cfgRefused_shadow (b : Bench)  : (b.cfgRefused ).shadow = b.shadow := rfl
@[simp] theorem Bench.cfgRefused_mem (b : Bench)  : (b.cfgRefused ).mem = b.mem := rfl
@[simp] theorem Bench.cfgRefused_keys (b : Bench)  : (b.cfgRefused ).keys = b.keys := rfl
@[simp] theorem Bench.cfgRefused_seqs (b : Bench)  : (b.cfgRefused ).seqs = b.seqs := rfl
@[simp] theorem Bench.cfgRefused_ports (b : Bench)  : (b.cfgRefused ).ports = b.ports := rfl
@[simp] theorem Bench.cfgRefused_time (b : Bench)  : (b.cfgRefused ).time = b.time := rfl
@[simp] theorem Bench.cfgRefused_pkts (b : Bench)  : (b.cfgRefused ).pkts = b.pkts := rfl
@[simp] theorem Bench.cfgRefused_nextPid (b : Bench)  : (b.cfgRefused ).nextPid = b.nextPid := rfl
@[simp] theorem Bench.cfgRefused_out (b : Bench)  : (b.cfgRefused ).out = b.out := rfl
@[simp] theorem Bench.cfgRefused_wheel (b : Bench)  : (b.cfgRefused ).wheel = b.wheel := rfl
@[simp] theorem Bench.cfgRefused_mt (b : Bench)  : (b.cfgRefused ).mt = b.mt := rfl
@[simp] theorem Bench.cfgRefused_ci (b : Bench)  : (b.cfgRefused ).ci = b.ci := rfl
@[simp] theorem Bench.cfgRefused_tm (b : Bench)  : (b.cfgRefused ).tm = b.tm := rfl
@[simp] theorem Bench.cfgRefused_hop (b : Bench)  : (b.cfgRefused ).hop = b.hop := rfl
@[simp] theorem Bench.cfgRefused_eng (b : Bench)  : (b.cfgRefused ).eng = b.eng := rfl
@[simp] theorem Bench.cfgRefused_rings (b : Bench)  : (b.cfgRefused ).rings = b.rings := rfl
@[simp] theorem Bench.cfgRefused_haul (b : Bench)  : (b.cfgRefused ).haul = b.haul := rfl
@[simp] theorem Bench.cfgRefused_sto (b : Bench)  : (b.cfgRefused ).sto = b.sto := rfl
@[simp] theorem Bench.cfgRefused_dram (b : Bench)  : (b.cfgRefused ).dram = b.dram := rfl
@[simp] theorem Bench.cfgRefused_reads (b : Bench)  : (b.cfgRefused ).reads = b.reads := rfl
@[simp] theorem Bench.cfgRefused_tlps (b : Bench)  : (b.cfgRefused ).tlps = b.tlps := rfl
@[simp] theorem Bench.cfgRefused_evq (b : Bench)  : (b.cfgRefused ).evq = b.evq := rfl
@[simp] theorem Bench.cfgRefused_free (b : Bench)  : (b.cfgRefused ).free = b.free := rfl
@[simp] theorem Bench.cfgRefused_reg (b : Bench)  (x : Nat) : (b.cfgRefused ).reg x = b.reg x := rfl
@[simp] theorem Bench.cfgRefused_fld (b : Bench)  (x : Fld) : (b.cfgRefused ).fld x = b.fld x := rfl
@[simp] theorem Bench.cfgRefused_flag (b : Bench)  (x : Fld) : (b.cfgRefused ).flag x = b.flag x := rfl
@[simp] theorem Bench.cfgRefused_seq (b : Bench)  (x : Nat) : (b.cfgRefused ).seq x = b.seq x := rfl
@[simp] theorem Bench.cfgRefused_port (b : Bench)  (x : Nat) : (b.cfgRefused ).port x = b.port x := rfl
@[simp] theorem Bench.cfgRefused_bytes (b : Bench)  (x y : Nat) : (b.cfgRefused ).bytes x y = b.bytes x y := rfl
@[simp] theorem Bench.cfgRefused_live (b : Bench)   : (b.cfgRefused ).live  = b.live  := rfl
@[simp] theorem Bench.cfgRefused_thr (b : Bench)  (x : Nat) : (b.cfgRefused ).thr x = b.thr x := rfl
@[simp] theorem Bench.cfgRefused_hasPort (b : Bench)  (x : Nat) : (b.cfgRefused ).hasPort x = b.hasPort x := rfl

@[simp] theorem Bench.raise_power (b : Bench) (k : Nat) : (b.raise k).power = b.power := rfl
@[simp] theorem Bench.raise_cyc (b : Bench) (k : Nat) : (b.raise k).cyc = b.cyc := rfl
@[simp] theorem Bench.raise_regs (b : Bench) (k : Nat) : (b.raise k).regs = b.regs := rfl
@[simp] theorem Bench.raise_shadow (b : Bench) (k : Nat) : (b.raise k).shadow = b.shadow := rfl
@[simp] theorem Bench.raise_mem (b : Bench) (k : Nat) : (b.raise k).mem = b.mem := rfl
@[simp] theorem Bench.raise_keys (b : Bench) (k : Nat) : (b.raise k).keys = b.keys := rfl
@[simp] theorem Bench.raise_tal (b : Bench) (k : Nat) : (b.raise k).tal = b.tal := rfl
@[simp] theorem Bench.raise_seqs (b : Bench) (k : Nat) : (b.raise k).seqs = b.seqs := rfl
@[simp] theorem Bench.raise_ports (b : Bench) (k : Nat) : (b.raise k).ports = b.ports := rfl
@[simp] theorem Bench.raise_time (b : Bench) (k : Nat) : (b.raise k).time = b.time := rfl
@[simp] theorem Bench.raise_pkts (b : Bench) (k : Nat) : (b.raise k).pkts = b.pkts := rfl
@[simp] theorem Bench.raise_nextPid (b : Bench) (k : Nat) : (b.raise k).nextPid = b.nextPid := rfl
@[simp] theorem Bench.raise_out (b : Bench) (k : Nat) : (b.raise k).out = b.out := rfl
@[simp] theorem Bench.raise_wheel (b : Bench) (k : Nat) : (b.raise k).wheel = b.wheel := rfl
@[simp] theorem Bench.raise_mt (b : Bench) (k : Nat) : (b.raise k).mt = b.mt := rfl
@[simp] theorem Bench.raise_ci (b : Bench) (k : Nat) : (b.raise k).ci = b.ci := rfl
@[simp] theorem Bench.raise_tm (b : Bench) (k : Nat) : (b.raise k).tm = b.tm := rfl
@[simp] theorem Bench.raise_hop (b : Bench) (k : Nat) : (b.raise k).hop = b.hop := rfl
@[simp] theorem Bench.raise_eng (b : Bench) (k : Nat) : (b.raise k).eng = b.eng := rfl
@[simp] theorem Bench.raise_rings (b : Bench) (k : Nat) : (b.raise k).rings = b.rings := rfl
@[simp] theorem Bench.raise_haul (b : Bench) (k : Nat) : (b.raise k).haul = b.haul := rfl
@[simp] theorem Bench.raise_sto (b : Bench) (k : Nat) : (b.raise k).sto = b.sto := rfl
@[simp] theorem Bench.raise_dram (b : Bench) (k : Nat) : (b.raise k).dram = b.dram := rfl
@[simp] theorem Bench.raise_reads (b : Bench) (k : Nat) : (b.raise k).reads = b.reads := rfl
@[simp] theorem Bench.raise_tlps (b : Bench) (k : Nat) : (b.raise k).tlps = b.tlps := rfl
@[simp] theorem Bench.raise_free (b : Bench) (k : Nat) : (b.raise k).free = b.free := rfl
@[simp] theorem Bench.raise_reg (b : Bench) (k : Nat) (x : Nat) : (b.raise k).reg x = b.reg x := rfl
@[simp] theorem Bench.raise_fld (b : Bench) (k : Nat) (x : Fld) : (b.raise k).fld x = b.fld x := rfl
@[simp] theorem Bench.raise_flag (b : Bench) (k : Nat) (x : Fld) : (b.raise k).flag x = b.flag x := rfl
@[simp] theorem Bench.raise_tally (b : Bench) (k : Nat) (x : Nat) : (b.raise k).tally x = b.tally x := rfl
@[simp] theorem Bench.raise_seq (b : Bench) (k : Nat) (x : Nat) : (b.raise k).seq x = b.seq x := rfl
@[simp] theorem Bench.raise_port (b : Bench) (k : Nat) (x : Nat) : (b.raise k).port x = b.port x := rfl
@[simp] theorem Bench.raise_bytes (b : Bench) (k : Nat) (x y : Nat) : (b.raise k).bytes x y = b.bytes x y := rfl
@[simp] theorem Bench.raise_live (b : Bench) (k : Nat)  : (b.raise k).live  = b.live  := rfl
@[simp] theorem Bench.raise_thr (b : Bench) (k : Nat) (x : Nat) : (b.raise k).thr x = b.thr x := rfl
@[simp] theorem Bench.raise_hasPort (b : Bench) (k : Nat) (x : Nat) : (b.raise k).hasPort x = b.hasPort x := rfl

@[simp] theorem Bench.setBytes_power (b : Bench) (a : Nat) (l : List Byte) : (b.setBytes a l).power = b.power := rfl
@[simp] theorem Bench.setBytes_cyc (b : Bench) (a : Nat) (l : List Byte) : (b.setBytes a l).cyc = b.cyc := rfl
@[simp] theorem Bench.setBytes_regs (b : Bench) (a : Nat) (l : List Byte) : (b.setBytes a l).regs = b.regs := rfl
@[simp] theorem Bench.setBytes_shadow (b : Bench) (a : Nat) (l : List Byte) : (b.setBytes a l).shadow = b.shadow := rfl
@[simp] theorem Bench.setBytes_keys (b : Bench) (a : Nat) (l : List Byte) : (b.setBytes a l).keys = b.keys := rfl
@[simp] theorem Bench.setBytes_tal (b : Bench) (a : Nat) (l : List Byte) : (b.setBytes a l).tal = b.tal := rfl
@[simp] theorem Bench.setBytes_seqs (b : Bench) (a : Nat) (l : List Byte) : (b.setBytes a l).seqs = b.seqs := rfl
@[simp] theorem Bench.setBytes_ports (b : Bench) (a : Nat) (l : List Byte) : (b.setBytes a l).ports = b.ports := rfl
@[simp] theorem Bench.setBytes_time (b : Bench) (a : Nat) (l : List Byte) : (b.setBytes a l).time = b.time := rfl
@[simp] theorem Bench.setBytes_pkts (b : Bench) (a : Nat) (l : List Byte) : (b.setBytes a l).pkts = b.pkts := rfl
@[simp] theorem Bench.setBytes_nextPid (b : Bench) (a : Nat) (l : List Byte) : (b.setBytes a l).nextPid = b.nextPid := rfl
@[simp] theorem Bench.setBytes_out (b : Bench) (a : Nat) (l : List Byte) : (b.setBytes a l).out = b.out := rfl
@[simp] theorem Bench.setBytes_wheel (b : Bench) (a : Nat) (l : List Byte) : (b.setBytes a l).wheel = b.wheel := rfl
@[simp] theorem Bench.setBytes_mt (b : Bench) (a : Nat) (l : List Byte) : (b.setBytes a l).mt = b.mt := rfl
@[simp] theorem Bench.setBytes_ci (b : Bench) (a : Nat) (l : List Byte) : (b.setBytes a l).ci = b.ci := rfl
@[simp] theorem Bench.setBytes_tm (b : Bench) (a : Nat) (l : List Byte) : (b.setBytes a l).tm = b.tm := rfl
@[simp] theorem Bench.setBytes_hop (b : Bench) (a : Nat) (l : List Byte) : (b.setBytes a l).hop = b.hop := rfl
@[simp] theorem Bench.setBytes_eng (b : Bench) (a : Nat) (l : List Byte) : (b.setBytes a l).eng = b.eng := rfl
@[simp] theorem Bench.setBytes_rings (b : Bench) (a : Nat) (l : List Byte) : (b.setBytes a l).rings = b.rings := rfl
@[simp] theorem Bench.setBytes_haul (b : Bench) (a : Nat) (l : List Byte) : (b.setBytes a l).haul = b.haul := rfl
@[simp] theorem Bench.setBytes_sto (b : Bench) (a : Nat) (l : List Byte) : (b.setBytes a l).sto = b.sto := rfl
@[simp] theorem Bench.setBytes_dram (b : Bench) (a : Nat) (l : List Byte) : (b.setBytes a l).dram = b.dram := rfl
@[simp] theorem Bench.setBytes_reads (b : Bench) (a : Nat) (l : List Byte) : (b.setBytes a l).reads = b.reads := rfl
@[simp] theorem Bench.setBytes_tlps (b : Bench) (a : Nat) (l : List Byte) : (b.setBytes a l).tlps = b.tlps := rfl
@[simp] theorem Bench.setBytes_evq (b : Bench) (a : Nat) (l : List Byte) : (b.setBytes a l).evq = b.evq := rfl
@[simp] theorem Bench.setBytes_free (b : Bench) (a : Nat) (l : List Byte) : (b.setBytes a l).free = b.free := rfl
@[simp] theorem Bench.setBytes_reg (b : Bench) (a : Nat) (l : List Byte) (x : Nat) : (b.setBytes a l).reg x = b.reg x := rfl
@[simp] theorem Bench.setBytes_fld (b : Bench) (a : Nat) (l : List Byte) (x : Fld) : (b.setBytes a l).fld x = b.fld x := rfl
@[simp] theorem Bench.setBytes_flag (b : Bench) (a : Nat) (l : List Byte) (x : Fld) : (b.setBytes a l).flag x = b.flag x := rfl
@[simp] theorem Bench.setBytes_tally (b : Bench) (a : Nat) (l : List Byte) (x : Nat) : (b.setBytes a l).tally x = b.tally x := rfl
@[simp] theorem Bench.setBytes_seq (b : Bench) (a : Nat) (l : List Byte) (x : Nat) : (b.setBytes a l).seq x = b.seq x := rfl
@[simp] theorem Bench.setBytes_port (b : Bench) (a : Nat) (l : List Byte) (x : Nat) : (b.setBytes a l).port x = b.port x := rfl
@[simp] theorem Bench.setBytes_live (b : Bench) (a : Nat) (l : List Byte)  : (b.setBytes a l).live  = b.live  := rfl
@[simp] theorem Bench.setBytes_thr (b : Bench) (a : Nat) (l : List Byte) (x : Nat) : (b.setBytes a l).thr x = b.thr x := rfl
@[simp] theorem Bench.setBytes_hasPort (b : Bench) (a : Nat) (l : List Byte) (x : Nat) : (b.setBytes a l).hasPort x = b.hasPort x := rfl

@[simp] theorem Bench.setLe_power (b : Bench) (a n v : Nat) : (b.setLe a n v).power = b.power := rfl
@[simp] theorem Bench.setLe_cyc (b : Bench) (a n v : Nat) : (b.setLe a n v).cyc = b.cyc := rfl
@[simp] theorem Bench.setLe_regs (b : Bench) (a n v : Nat) : (b.setLe a n v).regs = b.regs := rfl
@[simp] theorem Bench.setLe_shadow (b : Bench) (a n v : Nat) : (b.setLe a n v).shadow = b.shadow := rfl
@[simp] theorem Bench.setLe_keys (b : Bench) (a n v : Nat) : (b.setLe a n v).keys = b.keys := rfl
@[simp] theorem Bench.setLe_tal (b : Bench) (a n v : Nat) : (b.setLe a n v).tal = b.tal := rfl
@[simp] theorem Bench.setLe_seqs (b : Bench) (a n v : Nat) : (b.setLe a n v).seqs = b.seqs := rfl
@[simp] theorem Bench.setLe_ports (b : Bench) (a n v : Nat) : (b.setLe a n v).ports = b.ports := rfl
@[simp] theorem Bench.setLe_time (b : Bench) (a n v : Nat) : (b.setLe a n v).time = b.time := rfl
@[simp] theorem Bench.setLe_pkts (b : Bench) (a n v : Nat) : (b.setLe a n v).pkts = b.pkts := rfl
@[simp] theorem Bench.setLe_nextPid (b : Bench) (a n v : Nat) : (b.setLe a n v).nextPid = b.nextPid := rfl
@[simp] theorem Bench.setLe_out (b : Bench) (a n v : Nat) : (b.setLe a n v).out = b.out := rfl
@[simp] theorem Bench.setLe_wheel (b : Bench) (a n v : Nat) : (b.setLe a n v).wheel = b.wheel := rfl
@[simp] theorem Bench.setLe_mt (b : Bench) (a n v : Nat) : (b.setLe a n v).mt = b.mt := rfl
@[simp] theorem Bench.setLe_ci (b : Bench) (a n v : Nat) : (b.setLe a n v).ci = b.ci := rfl
@[simp] theorem Bench.setLe_tm (b : Bench) (a n v : Nat) : (b.setLe a n v).tm = b.tm := rfl
@[simp] theorem Bench.setLe_hop (b : Bench) (a n v : Nat) : (b.setLe a n v).hop = b.hop := rfl
@[simp] theorem Bench.setLe_eng (b : Bench) (a n v : Nat) : (b.setLe a n v).eng = b.eng := rfl
@[simp] theorem Bench.setLe_rings (b : Bench) (a n v : Nat) : (b.setLe a n v).rings = b.rings := rfl
@[simp] theorem Bench.setLe_haul (b : Bench) (a n v : Nat) : (b.setLe a n v).haul = b.haul := rfl
@[simp] theorem Bench.setLe_sto (b : Bench) (a n v : Nat) : (b.setLe a n v).sto = b.sto := rfl
@[simp] theorem Bench.setLe_dram (b : Bench) (a n v : Nat) : (b.setLe a n v).dram = b.dram := rfl
@[simp] theorem Bench.setLe_reads (b : Bench) (a n v : Nat) : (b.setLe a n v).reads = b.reads := rfl
@[simp] theorem Bench.setLe_tlps (b : Bench) (a n v : Nat) : (b.setLe a n v).tlps = b.tlps := rfl
@[simp] theorem Bench.setLe_evq (b : Bench) (a n v : Nat) : (b.setLe a n v).evq = b.evq := rfl
@[simp] theorem Bench.setLe_free (b : Bench) (a n v : Nat) : (b.setLe a n v).free = b.free := rfl
@[simp] theorem Bench.setLe_reg (b : Bench) (a n v : Nat) (x : Nat) : (b.setLe a n v).reg x = b.reg x := rfl
@[simp] theorem Bench.setLe_fld (b : Bench) (a n v : Nat) (x : Fld) : (b.setLe a n v).fld x = b.fld x := rfl
@[simp] theorem Bench.setLe_flag (b : Bench) (a n v : Nat) (x : Fld) : (b.setLe a n v).flag x = b.flag x := rfl
@[simp] theorem Bench.setLe_tally (b : Bench) (a n v : Nat) (x : Nat) : (b.setLe a n v).tally x = b.tally x := rfl
@[simp] theorem Bench.setLe_seq (b : Bench) (a n v : Nat) (x : Nat) : (b.setLe a n v).seq x = b.seq x := rfl
@[simp] theorem Bench.setLe_port (b : Bench) (a n v : Nat) (x : Nat) : (b.setLe a n v).port x = b.port x := rfl
@[simp] theorem Bench.setLe_live (b : Bench) (a n v : Nat)  : (b.setLe a n v).live  = b.live  := rfl
@[simp] theorem Bench.setLe_thr (b : Bench) (a n v : Nat) (x : Nat) : (b.setLe a n v).thr x = b.thr x := rfl
@[simp] theorem Bench.setLe_hasPort (b : Bench) (a n v : Nat) (x : Nat) : (b.setLe a n v).hasPort x = b.hasPort x := rfl

@[simp] theorem Bench.setMbits_power (b : Bench) (a n w v : Nat) : (b.setMbits a n w v).power = b.power := rfl
@[simp] theorem Bench.setMbits_cyc (b : Bench) (a n w v : Nat) : (b.setMbits a n w v).cyc = b.cyc := rfl
@[simp] theorem Bench.setMbits_regs (b : Bench) (a n w v : Nat) : (b.setMbits a n w v).regs = b.regs := rfl
@[simp] theorem Bench.setMbits_shadow (b : Bench) (a n w v : Nat) : (b.setMbits a n w v).shadow = b.shadow := rfl
@[simp] theorem Bench.setMbits_keys (b : Bench) (a n w v : Nat) : (b.setMbits a n w v).keys = b.keys := rfl
@[simp] theorem Bench.setMbits_tal (b : Bench) (a n w v : Nat) : (b.setMbits a n w v).tal = b.tal := rfl
@[simp] theorem Bench.setMbits_seqs (b : Bench) (a n w v : Nat) : (b.setMbits a n w v).seqs = b.seqs := rfl
@[simp] theorem Bench.setMbits_ports (b : Bench) (a n w v : Nat) : (b.setMbits a n w v).ports = b.ports := rfl
@[simp] theorem Bench.setMbits_time (b : Bench) (a n w v : Nat) : (b.setMbits a n w v).time = b.time := rfl
@[simp] theorem Bench.setMbits_pkts (b : Bench) (a n w v : Nat) : (b.setMbits a n w v).pkts = b.pkts := rfl
@[simp] theorem Bench.setMbits_nextPid (b : Bench) (a n w v : Nat) : (b.setMbits a n w v).nextPid = b.nextPid := rfl
@[simp] theorem Bench.setMbits_out (b : Bench) (a n w v : Nat) : (b.setMbits a n w v).out = b.out := rfl
@[simp] theorem Bench.setMbits_wheel (b : Bench) (a n w v : Nat) : (b.setMbits a n w v).wheel = b.wheel := rfl
@[simp] theorem Bench.setMbits_mt (b : Bench) (a n w v : Nat) : (b.setMbits a n w v).mt = b.mt := rfl
@[simp] theorem Bench.setMbits_ci (b : Bench) (a n w v : Nat) : (b.setMbits a n w v).ci = b.ci := rfl
@[simp] theorem Bench.setMbits_tm (b : Bench) (a n w v : Nat) : (b.setMbits a n w v).tm = b.tm := rfl
@[simp] theorem Bench.setMbits_hop (b : Bench) (a n w v : Nat) : (b.setMbits a n w v).hop = b.hop := rfl
@[simp] theorem Bench.setMbits_eng (b : Bench) (a n w v : Nat) : (b.setMbits a n w v).eng = b.eng := rfl
@[simp] theorem Bench.setMbits_rings (b : Bench) (a n w v : Nat) : (b.setMbits a n w v).rings = b.rings := rfl
@[simp] theorem Bench.setMbits_haul (b : Bench) (a n w v : Nat) : (b.setMbits a n w v).haul = b.haul := rfl
@[simp] theorem Bench.setMbits_sto (b : Bench) (a n w v : Nat) : (b.setMbits a n w v).sto = b.sto := rfl
@[simp] theorem Bench.setMbits_dram (b : Bench) (a n w v : Nat) : (b.setMbits a n w v).dram = b.dram := rfl
@[simp] theorem Bench.setMbits_reads (b : Bench) (a n w v : Nat) : (b.setMbits a n w v).reads = b.reads := rfl
@[simp] theorem Bench.setMbits_tlps (b : Bench) (a n w v : Nat) : (b.setMbits a n w v).tlps = b.tlps := rfl
@[simp] theorem Bench.setMbits_evq (b : Bench) (a n w v : Nat) : (b.setMbits a n w v).evq = b.evq := rfl
@[simp] theorem Bench.setMbits_free (b : Bench) (a n w v : Nat) : (b.setMbits a n w v).free = b.free := rfl
@[simp] theorem Bench.setMbits_reg (b : Bench) (a n w v : Nat) (x : Nat) : (b.setMbits a n w v).reg x = b.reg x := rfl
@[simp] theorem Bench.setMbits_fld (b : Bench) (a n w v : Nat) (x : Fld) : (b.setMbits a n w v).fld x = b.fld x := rfl
@[simp] theorem Bench.setMbits_flag (b : Bench) (a n w v : Nat) (x : Fld) : (b.setMbits a n w v).flag x = b.flag x := rfl
@[simp] theorem Bench.setMbits_tally (b : Bench) (a n w v : Nat) (x : Nat) : (b.setMbits a n w v).tally x = b.tally x := rfl
@[simp] theorem Bench.setMbits_seq (b : Bench) (a n w v : Nat) (x : Nat) : (b.setMbits a n w v).seq x = b.seq x := rfl
@[simp] theorem Bench.setMbits_port (b : Bench) (a n w v : Nat) (x : Nat) : (b.setMbits a n w v).port x = b.port x := rfl
@[simp] theorem Bench.setMbits_live (b : Bench) (a n w v : Nat)  : (b.setMbits a n w v).live  = b.live  := rfl
@[simp] theorem Bench.setMbits_thr (b : Bench) (a n w v : Nat) (x : Nat) : (b.setMbits a n w v).thr x = b.thr x := rfl
@[simp] theorem Bench.setMbits_hasPort (b : Bench) (a n w v : Nat) (x : Nat) : (b.setMbits a n w v).hasPort x = b.hasPort x := rfl

@[simp] theorem Bench.setPort_power (b : Bench) (p : Nat) (q : PortSt) : (b.setPort p q).power = b.power := rfl
@[simp] theorem Bench.setPort_cyc (b : Bench) (p : Nat) (q : PortSt) : (b.setPort p q).cyc = b.cyc := rfl
@[simp] theorem Bench.setPort_regs (b : Bench) (p : Nat) (q : PortSt) : (b.setPort p q).regs = b.regs := rfl
@[simp] theorem Bench.setPort_shadow (b : Bench) (p : Nat) (q : PortSt) : (b.setPort p q).shadow = b.shadow := rfl
@[simp] theorem Bench.setPort_mem (b : Bench) (p : Nat) (q : PortSt) : (b.setPort p q).mem = b.mem := rfl
@[simp] theorem Bench.setPort_keys (b : Bench) (p : Nat) (q : PortSt) : (b.setPort p q).keys = b.keys := rfl
@[simp] theorem Bench.setPort_tal (b : Bench) (p : Nat) (q : PortSt) : (b.setPort p q).tal = b.tal := rfl
@[simp] theorem Bench.setPort_seqs (b : Bench) (p : Nat) (q : PortSt) : (b.setPort p q).seqs = b.seqs := rfl
@[simp] theorem Bench.setPort_time (b : Bench) (p : Nat) (q : PortSt) : (b.setPort p q).time = b.time := rfl
@[simp] theorem Bench.setPort_pkts (b : Bench) (p : Nat) (q : PortSt) : (b.setPort p q).pkts = b.pkts := rfl
@[simp] theorem Bench.setPort_nextPid (b : Bench) (p : Nat) (q : PortSt) : (b.setPort p q).nextPid = b.nextPid := rfl
@[simp] theorem Bench.setPort_out (b : Bench) (p : Nat) (q : PortSt) : (b.setPort p q).out = b.out := rfl
@[simp] theorem Bench.setPort_wheel (b : Bench) (p : Nat) (q : PortSt) : (b.setPort p q).wheel = b.wheel := rfl
@[simp] theorem Bench.setPort_mt (b : Bench) (p : Nat) (q : PortSt) : (b.setPort p q).mt = b.mt := rfl
@[simp] theorem Bench.setPort_ci (b : Bench) (p : Nat) (q : PortSt) : (b.setPort p q).ci = b.ci := rfl
@[simp] theorem Bench.setPort_tm (b : Bench) (p : Nat) (q : PortSt) : (b.setPort p q).tm = b.tm := rfl
@[simp] theorem Bench.setPort_hop (b : Bench) (p : Nat) (q : PortSt) : (b.setPort p q).hop = b.hop := rfl
@[simp] theorem Bench.setPort_eng (b : Bench) (p : Nat) (q : PortSt) : (b.setPort p q).eng = b.eng := rfl
@[simp] theorem Bench.setPort_rings (b : Bench) (p : Nat) (q : PortSt) : (b.setPort p q).rings = b.rings := rfl
@[simp] theorem Bench.setPort_haul (b : Bench) (p : Nat) (q : PortSt) : (b.setPort p q).haul = b.haul := rfl
@[simp] theorem Bench.setPort_sto (b : Bench) (p : Nat) (q : PortSt) : (b.setPort p q).sto = b.sto := rfl
@[simp] theorem Bench.setPort_dram (b : Bench) (p : Nat) (q : PortSt) : (b.setPort p q).dram = b.dram := rfl
@[simp] theorem Bench.setPort_reads (b : Bench) (p : Nat) (q : PortSt) : (b.setPort p q).reads = b.reads := rfl
@[simp] theorem Bench.setPort_tlps (b : Bench) (p : Nat) (q : PortSt) : (b.setPort p q).tlps = b.tlps := rfl
@[simp] theorem Bench.setPort_evq (b : Bench) (p : Nat) (q : PortSt) : (b.setPort p q).evq = b.evq := rfl
@[simp] theorem Bench.setPort_free (b : Bench) (p : Nat) (q : PortSt) : (b.setPort p q).free = b.free := rfl
@[simp] theorem Bench.setPort_reg (b : Bench) (p : Nat) (q : PortSt) (x : Nat) : (b.setPort p q).reg x = b.reg x := rfl
@[simp] theorem Bench.setPort_fld (b : Bench) (p : Nat) (q : PortSt) (x : Fld) : (b.setPort p q).fld x = b.fld x := rfl
@[simp] theorem Bench.setPort_flag (b : Bench) (p : Nat) (q : PortSt) (x : Fld) : (b.setPort p q).flag x = b.flag x := rfl
@[simp] theorem Bench.setPort_tally (b : Bench) (p : Nat) (q : PortSt) (x : Nat) : (b.setPort p q).tally x = b.tally x := rfl
@[simp] theorem Bench.setPort_seq (b : Bench) (p : Nat) (q : PortSt) (x : Nat) : (b.setPort p q).seq x = b.seq x := rfl
@[simp] theorem Bench.setPort_bytes (b : Bench) (p : Nat) (q : PortSt) (x y : Nat) : (b.setPort p q).bytes x y = b.bytes x y := rfl
@[simp] theorem Bench.setPort_live (b : Bench) (p : Nat) (q : PortSt)  : (b.setPort p q).live  = b.live  := rfl
@[simp] theorem Bench.setPort_thr (b : Bench) (p : Nat) (q : PortSt) (x : Nat) : (b.setPort p q).thr x = b.thr x := rfl
@[simp] theorem Bench.setPort_hasPort (b : Bench) (p : Nat) (q : PortSt) (x : Nat) : (b.setPort p q).hasPort x = b.hasPort x := rfl

@[simp] theorem Bench.updPkt_power (b : Bench) (i : Nat) (f : Pkt → Pkt) : (b.updPkt i f).power = b.power := rfl
@[simp] theorem Bench.updPkt_cyc (b : Bench) (i : Nat) (f : Pkt → Pkt) : (b.updPkt i f).cyc = b.cyc := rfl
@[simp] theorem Bench.updPkt_regs (b : Bench) (i : Nat) (f : Pkt → Pkt) : (b.updPkt i f).regs = b.regs := rfl
@[simp] theorem Bench.updPkt_shadow (b : Bench) (i : Nat) (f : Pkt → Pkt) : (b.updPkt i f).shadow = b.shadow := rfl
@[simp] theorem Bench.updPkt_mem (b : Bench) (i : Nat) (f : Pkt → Pkt) : (b.updPkt i f).mem = b.mem := rfl
@[simp] theorem Bench.updPkt_keys (b : Bench) (i : Nat) (f : Pkt → Pkt) : (b.updPkt i f).keys = b.keys := rfl
@[simp] theorem Bench.updPkt_tal (b : Bench) (i : Nat) (f : Pkt → Pkt) : (b.updPkt i f).tal = b.tal := rfl
@[simp] theorem Bench.updPkt_seqs (b : Bench) (i : Nat) (f : Pkt → Pkt) : (b.updPkt i f).seqs = b.seqs := rfl
@[simp] theorem Bench.updPkt_ports (b : Bench) (i : Nat) (f : Pkt → Pkt) : (b.updPkt i f).ports = b.ports := rfl
@[simp] theorem Bench.updPkt_time (b : Bench) (i : Nat) (f : Pkt → Pkt) : (b.updPkt i f).time = b.time := rfl
@[simp] theorem Bench.updPkt_nextPid (b : Bench) (i : Nat) (f : Pkt → Pkt) : (b.updPkt i f).nextPid = b.nextPid := rfl
@[simp] theorem Bench.updPkt_out (b : Bench) (i : Nat) (f : Pkt → Pkt) : (b.updPkt i f).out = b.out := rfl
@[simp] theorem Bench.updPkt_wheel (b : Bench) (i : Nat) (f : Pkt → Pkt) : (b.updPkt i f).wheel = b.wheel := rfl
@[simp] theorem Bench.updPkt_mt (b : Bench) (i : Nat) (f : Pkt → Pkt) : (b.updPkt i f).mt = b.mt := rfl
@[simp] theorem Bench.updPkt_ci (b : Bench) (i : Nat) (f : Pkt → Pkt) : (b.updPkt i f).ci = b.ci := rfl
@[simp] theorem Bench.updPkt_tm (b : Bench) (i : Nat) (f : Pkt → Pkt) : (b.updPkt i f).tm = b.tm := rfl
@[simp] theorem Bench.updPkt_hop (b : Bench) (i : Nat) (f : Pkt → Pkt) : (b.updPkt i f).hop = b.hop := rfl
@[simp] theorem Bench.updPkt_eng (b : Bench) (i : Nat) (f : Pkt → Pkt) : (b.updPkt i f).eng = b.eng := rfl
@[simp] theorem Bench.updPkt_rings (b : Bench) (i : Nat) (f : Pkt → Pkt) : (b.updPkt i f).rings = b.rings := rfl
@[simp] theorem Bench.updPkt_haul (b : Bench) (i : Nat) (f : Pkt → Pkt) : (b.updPkt i f).haul = b.haul := rfl
@[simp] theorem Bench.updPkt_sto (b : Bench) (i : Nat) (f : Pkt → Pkt) : (b.updPkt i f).sto = b.sto := rfl
@[simp] theorem Bench.updPkt_dram (b : Bench) (i : Nat) (f : Pkt → Pkt) : (b.updPkt i f).dram = b.dram := rfl
@[simp] theorem Bench.updPkt_reads (b : Bench) (i : Nat) (f : Pkt → Pkt) : (b.updPkt i f).reads = b.reads := rfl
@[simp] theorem Bench.updPkt_tlps (b : Bench) (i : Nat) (f : Pkt → Pkt) : (b.updPkt i f).tlps = b.tlps := rfl
@[simp] theorem Bench.updPkt_evq (b : Bench) (i : Nat) (f : Pkt → Pkt) : (b.updPkt i f).evq = b.evq := rfl
@[simp] theorem Bench.updPkt_free (b : Bench) (i : Nat) (f : Pkt → Pkt) : (b.updPkt i f).free = b.free := rfl
@[simp] theorem Bench.updPkt_reg (b : Bench) (i : Nat) (f : Pkt → Pkt) (x : Nat) : (b.updPkt i f).reg x = b.reg x := rfl
@[simp] theorem Bench.updPkt_fld (b : Bench) (i : Nat) (f : Pkt → Pkt) (x : Fld) : (b.updPkt i f).fld x = b.fld x := rfl
@[simp] theorem Bench.updPkt_flag (b : Bench) (i : Nat) (f : Pkt → Pkt) (x : Fld) : (b.updPkt i f).flag x = b.flag x := rfl
@[simp] theorem Bench.updPkt_tally (b : Bench) (i : Nat) (f : Pkt → Pkt) (x : Nat) : (b.updPkt i f).tally x = b.tally x := rfl
@[simp] theorem Bench.updPkt_seq (b : Bench) (i : Nat) (f : Pkt → Pkt) (x : Nat) : (b.updPkt i f).seq x = b.seq x := rfl
@[simp] theorem Bench.updPkt_port (b : Bench) (i : Nat) (f : Pkt → Pkt) (x : Nat) : (b.updPkt i f).port x = b.port x := rfl
@[simp] theorem Bench.updPkt_bytes (b : Bench) (i : Nat) (f : Pkt → Pkt) (x y : Nat) : (b.updPkt i f).bytes x y = b.bytes x y := rfl
@[simp] theorem Bench.updPkt_live (b : Bench) (i : Nat) (f : Pkt → Pkt)  : (b.updPkt i f).live  = b.live  := rfl
@[simp] theorem Bench.updPkt_thr (b : Bench) (i : Nat) (f : Pkt → Pkt) (x : Nat) : (b.updPkt i f).thr x = b.thr x := rfl
@[simp] theorem Bench.updPkt_hasPort (b : Bench) (i : Nat) (f : Pkt → Pkt) (x : Nat) : (b.updPkt i f).hasPort x = b.hasPort x := rfl

@[simp] theorem Bench.bumpSeq_power (b : Bench) (o : Nat) : (b.bumpSeq o).power = b.power := rfl
@[simp] theorem Bench.bumpSeq_cyc (b : Bench) (o : Nat) : (b.bumpSeq o).cyc = b.cyc := rfl
@[simp] theorem Bench.bumpSeq_regs (b : Bench) (o : Nat) : (b.bumpSeq o).regs = b.regs := rfl
@[simp] theorem Bench.bumpSeq_shadow (b : Bench) (o : Nat) : (b.bumpSeq o).shadow = b.shadow := rfl
@[simp] theorem Bench.bumpSeq_mem (b : Bench) (o : Nat) : (b.bumpSeq o).mem = b.mem := rfl
@[simp] theorem Bench.bumpSeq_keys (b : Bench) (o : Nat) : (b.bumpSeq o).keys = b.keys := rfl
@[simp] theorem Bench.bumpSeq_tal (b : Bench) (o : Nat) : (b.bumpSeq o).tal = b.tal := rfl
@[simp] theorem Bench.bumpSeq_ports (b : Bench) (o : Nat) : (b.bumpSeq o).ports = b.ports := rfl
@[simp] theorem Bench.bumpSeq_time (b : Bench) (o : Nat) : (b.bumpSeq o).time = b.time := rfl
@[simp] theorem Bench.bumpSeq_pkts (b : Bench) (o : Nat) : (b.bumpSeq o).pkts = b.pkts := rfl
@[simp] theorem Bench.bumpSeq_nextPid (b : Bench) (o : Nat) : (b.bumpSeq o).nextPid = b.nextPid := rfl
@[simp] theorem Bench.bumpSeq_out (b : Bench) (o : Nat) : (b.bumpSeq o).out = b.out := rfl
@[simp] theorem Bench.bumpSeq_wheel (b : Bench) (o : Nat) : (b.bumpSeq o).wheel = b.wheel := rfl
@[simp] theorem Bench.bumpSeq_mt (b : Bench) (o : Nat) : (b.bumpSeq o).mt = b.mt := rfl
@[simp] theorem Bench.bumpSeq_ci (b : Bench) (o : Nat) : (b.bumpSeq o).ci = b.ci := rfl
@[simp] theorem Bench.bumpSeq_tm (b : Bench) (o : Nat) : (b.bumpSeq o).tm = b.tm := rfl
@[simp] theorem Bench.bumpSeq_hop (b : Bench) (o : Nat) : (b.bumpSeq o).hop = b.hop := rfl
@[simp] theorem Bench.bumpSeq_eng (b : Bench) (o : Nat) : (b.bumpSeq o).eng = b.eng := rfl
@[simp] theorem Bench.bumpSeq_rings (b : Bench) (o : Nat) : (b.bumpSeq o).rings = b.rings := rfl
@[simp] theorem Bench.bumpSeq_haul (b : Bench) (o : Nat) : (b.bumpSeq o).haul = b.haul := rfl
@[simp] theorem Bench.bumpSeq_sto (b : Bench) (o : Nat) : (b.bumpSeq o).sto = b.sto := rfl
@[simp] theorem Bench.bumpSeq_dram (b : Bench) (o : Nat) : (b.bumpSeq o).dram = b.dram := rfl
@[simp] theorem Bench.bumpSeq_reads (b : Bench) (o : Nat) : (b.bumpSeq o).reads = b.reads := rfl
@[simp] theorem Bench.bumpSeq_tlps (b : Bench) (o : Nat) : (b.bumpSeq o).tlps = b.tlps := rfl
@[simp] theorem Bench.bumpSeq_evq (b : Bench) (o : Nat) : (b.bumpSeq o).evq = b.evq := rfl
@[simp] theorem Bench.bumpSeq_free (b : Bench) (o : Nat) : (b.bumpSeq o).free = b.free := rfl
@[simp] theorem Bench.bumpSeq_reg (b : Bench) (o : Nat) (x : Nat) : (b.bumpSeq o).reg x = b.reg x := rfl
@[simp] theorem Bench.bumpSeq_fld (b : Bench) (o : Nat) (x : Fld) : (b.bumpSeq o).fld x = b.fld x := rfl
@[simp] theorem Bench.bumpSeq_flag (b : Bench) (o : Nat) (x : Fld) : (b.bumpSeq o).flag x = b.flag x := rfl
@[simp] theorem Bench.bumpSeq_tally (b : Bench) (o : Nat) (x : Nat) : (b.bumpSeq o).tally x = b.tally x := rfl
@[simp] theorem Bench.bumpSeq_port (b : Bench) (o : Nat) (x : Nat) : (b.bumpSeq o).port x = b.port x := rfl
@[simp] theorem Bench.bumpSeq_bytes (b : Bench) (o : Nat) (x y : Nat) : (b.bumpSeq o).bytes x y = b.bytes x y := rfl
@[simp] theorem Bench.bumpSeq_live (b : Bench) (o : Nat)  : (b.bumpSeq o).live  = b.live  := rfl
@[simp] theorem Bench.bumpSeq_thr (b : Bench) (o : Nat) (x : Nat) : (b.bumpSeq o).thr x = b.thr x := rfl
@[simp] theorem Bench.bumpSeq_hasPort (b : Bench) (o : Nat) (x : Nat) : (b.bumpSeq o).hasPort x = b.hasPort x := rfl

@[simp] theorem Bench.afterEvents_power (b : Bench) (l : List Tlp) : (b.afterEvents l).power = b.power := rfl
@[simp] theorem Bench.afterEvents_cyc (b : Bench) (l : List Tlp) : (b.afterEvents l).cyc = b.cyc := rfl
@[simp] theorem Bench.afterEvents_regs (b : Bench) (l : List Tlp) : (b.afterEvents l).regs = b.regs := rfl
@[simp] theorem Bench.afterEvents_shadow (b : Bench) (l : List Tlp) : (b.afterEvents l).shadow = b.shadow := rfl
@[simp] theorem Bench.afterEvents_mem (b : Bench) (l : List Tlp) : (b.afterEvents l).mem = b.mem := rfl
@[simp] theorem Bench.afterEvents_keys (b : Bench) (l : List Tlp) : (b.afterEvents l).keys = b.keys := rfl
@[simp] theorem Bench.afterEvents_tal (b : Bench) (l : List Tlp) : (b.afterEvents l).tal = b.tal := rfl
@[simp] theorem Bench.afterEvents_seqs (b : Bench) (l : List Tlp) : (b.afterEvents l).seqs = b.seqs := rfl
@[simp] theorem Bench.afterEvents_ports (b : Bench) (l : List Tlp) : (b.afterEvents l).ports = b.ports := rfl
@[simp] theorem Bench.afterEvents_time (b : Bench) (l : List Tlp) : (b.afterEvents l).time = b.time := rfl
@[simp] theorem Bench.afterEvents_pkts (b : Bench) (l : List Tlp) : (b.afterEvents l).pkts = b.pkts := rfl
@[simp] theorem Bench.afterEvents_nextPid (b : Bench) (l : List Tlp) : (b.afterEvents l).nextPid = b.nextPid := rfl
@[simp] theorem Bench.afterEvents_out (b : Bench) (l : List Tlp) : (b.afterEvents l).out = b.out := rfl
@[simp] theorem Bench.afterEvents_wheel (b : Bench) (l : List Tlp) : (b.afterEvents l).wheel = b.wheel := rfl
@[simp] theorem Bench.afterEvents_mt (b : Bench) (l : List Tlp) : (b.afterEvents l).mt = b.mt := rfl
@[simp] theorem Bench.afterEvents_ci (b : Bench) (l : List Tlp) : (b.afterEvents l).ci = b.ci := rfl
@[simp] theorem Bench.afterEvents_tm (b : Bench) (l : List Tlp) : (b.afterEvents l).tm = b.tm := rfl
@[simp] theorem Bench.afterEvents_hop (b : Bench) (l : List Tlp) : (b.afterEvents l).hop = b.hop := rfl
@[simp] theorem Bench.afterEvents_eng (b : Bench) (l : List Tlp) : (b.afterEvents l).eng = b.eng := rfl
@[simp] theorem Bench.afterEvents_rings (b : Bench) (l : List Tlp) : (b.afterEvents l).rings = b.rings := rfl
@[simp] theorem Bench.afterEvents_haul (b : Bench) (l : List Tlp) : (b.afterEvents l).haul = b.haul := rfl
@[simp] theorem Bench.afterEvents_sto (b : Bench) (l : List Tlp) : (b.afterEvents l).sto = b.sto := rfl
@[simp] theorem Bench.afterEvents_dram (b : Bench) (l : List Tlp) : (b.afterEvents l).dram = b.dram := rfl
@[simp] theorem Bench.afterEvents_reads (b : Bench) (l : List Tlp) : (b.afterEvents l).reads = b.reads := rfl
@[simp] theorem Bench.afterEvents_free (b : Bench) (l : List Tlp) : (b.afterEvents l).free = b.free := rfl
@[simp] theorem Bench.afterEvents_reg (b : Bench) (l : List Tlp) (x : Nat) : (b.afterEvents l).reg x = b.reg x := rfl
@[simp] theorem Bench.afterEvents_fld (b : Bench) (l : List Tlp) (x : Fld) : (b.afterEvents l).fld x = b.fld x := rfl
@[simp] theorem Bench.afterEvents_flag (b : Bench) (l : List Tlp) (x : Fld) : (b.afterEvents l).flag x = b.flag x := rfl
@[simp] theorem Bench.afterEvents_tally (b : Bench) (l : List Tlp) (x : Nat) : (b.afterEvents l).tally x = b.tally x := rfl
@[simp] theorem Bench.afterEvents_seq (b : Bench) (l : List Tlp) (x : Nat) : (b.afterEvents l).seq x = b.seq x := rfl
@[simp] theorem Bench.afterEvents_port (b : Bench) (l : List Tlp) (x : Nat) : (b.afterEvents l).port x = b.port x := rfl
@[simp] theorem Bench.afterEvents_bytes (b : Bench) (l : List Tlp) (x y : Nat) : (b.afterEvents l).bytes x y = b.bytes x y := rfl
@[simp] theorem Bench.afterEvents_live (b : Bench) (l : List Tlp)  : (b.afterEvents l).live  = b.live  := rfl
@[simp] theorem Bench.afterEvents_thr (b : Bench) (l : List Tlp) (x : Nat) : (b.afterEvents l).thr x = b.thr x := rfl
@[simp] theorem Bench.afterEvents_hasPort (b : Bench) (l : List Tlp) (x : Nat) : (b.afterEvents l).hasPort x = b.hasPort x := rfl

@[simp] theorem Bench.setSt_cyc (b : Bench) (q : BenchSt) : (b.setSt q).cyc = b.cyc := rfl
@[simp] theorem Bench.setSt_regs (b : Bench) (q : BenchSt) : (b.setSt q).regs = b.regs := rfl
@[simp] theorem Bench.setSt_shadow (b : Bench) (q : BenchSt) : (b.setSt q).shadow = b.shadow := rfl
@[simp] theorem Bench.setSt_mem (b : Bench) (q : BenchSt) : (b.setSt q).mem = b.mem := rfl
@[simp] theorem Bench.setSt_keys (b : Bench) (q : BenchSt) : (b.setSt q).keys = b.keys := rfl
@[simp] theorem Bench.setSt_tal (b : Bench) (q : BenchSt) : (b.setSt q).tal = b.tal := rfl
@[simp] theorem Bench.setSt_seqs (b : Bench) (q : BenchSt) : (b.setSt q).seqs = b.seqs := rfl
@[simp] theorem Bench.setSt_ports (b : Bench) (q : BenchSt) : (b.setSt q).ports = b.ports := rfl
@[simp] theorem Bench.setSt_time (b : Bench) (q : BenchSt) : (b.setSt q).time = b.time := rfl
@[simp] theorem Bench.setSt_pkts (b : Bench) (q : BenchSt) : (b.setSt q).pkts = b.pkts := rfl
@[simp] theorem Bench.setSt_nextPid (b : Bench) (q : BenchSt) : (b.setSt q).nextPid = b.nextPid := rfl
@[simp] theorem Bench.setSt_out (b : Bench) (q : BenchSt) : (b.setSt q).out = b.out := rfl
@[simp] theorem Bench.setSt_wheel (b : Bench) (q : BenchSt) : (b.setSt q).wheel = b.wheel := rfl
@[simp] theorem Bench.setSt_mt (b : Bench) (q : BenchSt) : (b.setSt q).mt = b.mt := rfl
@[simp] theorem Bench.setSt_ci (b : Bench) (q : BenchSt) : (b.setSt q).ci = b.ci := rfl
@[simp] theorem Bench.setSt_tm (b : Bench) (q : BenchSt) : (b.setSt q).tm = b.tm := rfl
@[simp] theorem Bench.setSt_hop (b : Bench) (q : BenchSt) : (b.setSt q).hop = b.hop := rfl
@[simp] theorem Bench.setSt_eng (b : Bench) (q : BenchSt) : (b.setSt q).eng = b.eng := rfl
@[simp] theorem Bench.setSt_rings (b : Bench) (q : BenchSt) : (b.setSt q).rings = b.rings := rfl
@[simp] theorem Bench.setSt_haul (b : Bench) (q : BenchSt) : (b.setSt q).haul = b.haul := rfl
@[simp] theorem Bench.setSt_sto (b : Bench) (q : BenchSt) : (b.setSt q).sto = b.sto := rfl
@[simp] theorem Bench.setSt_dram (b : Bench) (q : BenchSt) : (b.setSt q).dram = b.dram := rfl
@[simp] theorem Bench.setSt_reads (b : Bench) (q : BenchSt) : (b.setSt q).reads = b.reads := rfl
@[simp] theorem Bench.setSt_tlps (b : Bench) (q : BenchSt) : (b.setSt q).tlps = b.tlps := rfl
@[simp] theorem Bench.setSt_free (b : Bench) (q : BenchSt) : (b.setSt q).free = b.free := rfl
@[simp] theorem Bench.setSt_reg (b : Bench) (q : BenchSt) (x : Nat) : (b.setSt q).reg x = b.reg x := rfl
@[simp] theorem Bench.setSt_fld (b : Bench) (q : BenchSt) (x : Fld) : (b.setSt q).fld x = b.fld x := rfl
@[simp] theorem Bench.setSt_flag (b : Bench) (q : BenchSt) (x : Fld) : (b.setSt q).flag x = b.flag x := rfl
@[simp] theorem Bench.setSt_tally (b : Bench) (q : BenchSt) (x : Nat) : (b.setSt q).tally x = b.tally x := rfl
@[simp] theorem Bench.setSt_seq (b : Bench) (q : BenchSt) (x : Nat) : (b.setSt q).seq x = b.seq x := rfl
@[simp] theorem Bench.setSt_port (b : Bench) (q : BenchSt) (x : Nat) : (b.setSt q).port x = b.port x := rfl
@[simp] theorem Bench.setSt_bytes (b : Bench) (q : BenchSt) (x y : Nat) : (b.setSt q).bytes x y = b.bytes x y := rfl
@[simp] theorem Bench.setSt_thr (b : Bench) (q : BenchSt) (x : Nat) : (b.setSt q).thr x = b.thr x := rfl

@[simp] theorem Bench.addPkt_power (b : Bench) (p : Pkt) : (b.addPkt p).power = b.power := rfl
@[simp] theorem Bench.addPkt_cyc (b : Bench) (p : Pkt) : (b.addPkt p).cyc = b.cyc := rfl
@[simp] theorem Bench.addPkt_regs (b : Bench) (p : Pkt) : (b.addPkt p).regs = b.regs := rfl
@[simp] theorem Bench.addPkt_shadow (b : Bench) (p : Pkt) : (b.addPkt p).shadow = b.shadow := rfl
@[simp] theorem Bench.addPkt_mem (b : Bench) (p : Pkt) : (b.addPkt p).mem = b.mem := rfl
@[simp] theorem Bench.addPkt_keys (b : Bench) (p : Pkt) : (b.addPkt p).keys = b.keys := rfl
@[simp] theorem Bench.addPkt_tal (b : Bench) (p : Pkt) : (b.addPkt p).tal = b.tal := rfl
@[simp] theorem Bench.addPkt_seqs (b : Bench) (p : Pkt) : (b.addPkt p).seqs = b.seqs := rfl
@[simp] theorem Bench.addPkt_ports (b : Bench) (p : Pkt) : (b.addPkt p).ports = b.ports := rfl
@[simp] theorem Bench.addPkt_time (b : Bench) (p : Pkt) : (b.addPkt p).time = b.time := rfl
@[simp] theorem Bench.addPkt_out (b : Bench) (p : Pkt) : (b.addPkt p).out = b.out := rfl
@[simp] theorem Bench.addPkt_wheel (b : Bench) (p : Pkt) : (b.addPkt p).wheel = b.wheel := rfl
@[simp] theorem Bench.addPkt_mt (b : Bench) (p : Pkt) : (b.addPkt p).mt = b.mt := rfl
@[simp] theorem Bench.addPkt_ci (b : Bench) (p : Pkt) : (b.addPkt p).ci = b.ci := rfl
@[simp] theorem Bench.addPkt_tm (b : Bench) (p : Pkt) : (b.addPkt p).tm = b.tm := rfl
@[simp] theorem Bench.addPkt_hop (b : Bench) (p : Pkt) : (b.addPkt p).hop = b.hop := rfl
@[simp] theorem Bench.addPkt_eng (b : Bench) (p : Pkt) : (b.addPkt p).eng = b.eng := rfl
@[simp] theorem Bench.addPkt_rings (b : Bench) (p : Pkt) : (b.addPkt p).rings = b.rings := rfl
@[simp] theorem Bench.addPkt_haul (b : Bench) (p : Pkt) : (b.addPkt p).haul = b.haul := rfl
@[simp] theorem Bench.addPkt_sto (b : Bench) (p : Pkt) : (b.addPkt p).sto = b.sto := rfl
@[simp] theorem Bench.addPkt_dram (b : Bench) (p : Pkt) : (b.addPkt p).dram = b.dram := rfl
@[simp] theorem Bench.addPkt_reads (b : Bench) (p : Pkt) : (b.addPkt p).reads = b.reads := rfl
@[simp] theorem Bench.addPkt_tlps (b : Bench) (p : Pkt) : (b.addPkt p).tlps = b.tlps := rfl
@[simp] theorem Bench.addPkt_evq (b : Bench) (p : Pkt) : (b.addPkt p).evq = b.evq := rfl
@[simp] theorem Bench.addPkt_free (b : Bench) (p : Pkt) : (b.addPkt p).free = b.free := rfl
@[simp] theorem Bench.addPkt_reg (b : Bench) (p : Pkt) (x : Nat) : (b.addPkt p).reg x = b.reg x := rfl
@[simp] theorem Bench.addPkt_fld (b : Bench) (p : Pkt) (x : Fld) : (b.addPkt p).fld x = b.fld x := rfl
@[simp] theorem Bench.addPkt_flag (b : Bench) (p : Pkt) (x : Fld) : (b.addPkt p).flag x = b.flag x := rfl
@[simp] theorem Bench.addPkt_tally (b : Bench) (p : Pkt) (x : Nat) : (b.addPkt p).tally x = b.tally x := rfl
@[simp] theorem Bench.addPkt_seq (b : Bench) (p : Pkt) (x : Nat) : (b.addPkt p).seq x = b.seq x := rfl
@[simp] theorem Bench.addPkt_port (b : Bench) (p : Pkt) (x : Nat) : (b.addPkt p).port x = b.port x := rfl
@[simp] theorem Bench.addPkt_bytes (b : Bench) (p : Pkt) (x y : Nat) : (b.addPkt p).bytes x y = b.bytes x y := rfl
@[simp] theorem Bench.addPkt_live (b : Bench) (p : Pkt)  : (b.addPkt p).live  = b.live  := rfl
@[simp] theorem Bench.addPkt_thr (b : Bench) (p : Pkt) (x : Nat) : (b.addPkt p).thr x = b.thr x := rfl
@[simp] theorem Bench.addPkt_hasPort (b : Bench) (p : Pkt) (x : Nat) : (b.addPkt p).hasPort x = b.hasPort x := rfl

@[simp] theorem Bench.setThr_power (b : Bench) (i : Nat) (t : Thread) : (b.setThr i t).power = b.power := rfl
@[simp] theorem Bench.setThr_cyc (b : Bench) (i : Nat) (t : Thread) : (b.setThr i t).cyc = b.cyc := rfl
@[simp] theorem Bench.setThr_regs (b : Bench) (i : Nat) (t : Thread) : (b.setThr i t).regs = b.regs := rfl
@[simp] theorem Bench.setThr_shadow (b : Bench) (i : Nat) (t : Thread) : (b.setThr i t).shadow = b.shadow := rfl
@[simp] theorem Bench.setThr_mem (b : Bench) (i : Nat) (t : Thread) : (b.setThr i t).mem = b.mem := rfl
@[simp] theorem Bench.setThr_keys (b : Bench) (i : Nat) (t : Thread) : (b.setThr i t).keys = b.keys := rfl
@[simp] theorem Bench.setThr_tal (b : Bench) (i : Nat) (t : Thread) : (b.setThr i t).tal = b.tal := rfl
@[simp] theorem Bench.setThr_seqs (b : Bench) (i : Nat) (t : Thread) : (b.setThr i t).seqs = b.seqs := rfl
@[simp] theorem Bench.setThr_ports (b : Bench) (i : Nat) (t : Thread) : (b.setThr i t).ports = b.ports := rfl
@[simp] theorem Bench.setThr_time (b : Bench) (i : Nat) (t : Thread) : (b.setThr i t).time = b.time := rfl
@[simp] theorem Bench.setThr_pkts (b : Bench) (i : Nat) (t : Thread) : (b.setThr i t).pkts = b.pkts := rfl
@[simp] theorem Bench.setThr_nextPid (b : Bench) (i : Nat) (t : Thread) : (b.setThr i t).nextPid = b.nextPid := rfl
@[simp] theorem Bench.setThr_out (b : Bench) (i : Nat) (t : Thread) : (b.setThr i t).out = b.out := rfl
@[simp] theorem Bench.setThr_wheel (b : Bench) (i : Nat) (t : Thread) : (b.setThr i t).wheel = b.wheel := rfl
@[simp] theorem Bench.setThr_mt (b : Bench) (i : Nat) (t : Thread) : (b.setThr i t).mt = b.mt := rfl
@[simp] theorem Bench.setThr_ci (b : Bench) (i : Nat) (t : Thread) : (b.setThr i t).ci = b.ci := rfl
@[simp] theorem Bench.setThr_tm (b : Bench) (i : Nat) (t : Thread) : (b.setThr i t).tm = b.tm := rfl
@[simp] theorem Bench.setThr_hop (b : Bench) (i : Nat) (t : Thread) : (b.setThr i t).hop = b.hop := rfl
@[simp] theorem Bench.setThr_rings (b : Bench) (i : Nat) (t : Thread) : (b.setThr i t).rings = b.rings := rfl
@[simp] theorem Bench.setThr_haul (b : Bench) (i : Nat) (t : Thread) : (b.setThr i t).haul = b.haul := rfl
@[simp] theorem Bench.setThr_sto (b : Bench) (i : Nat) (t : Thread) : (b.setThr i t).sto = b.sto := rfl
@[simp] theorem Bench.setThr_dram (b : Bench) (i : Nat) (t : Thread) : (b.setThr i t).dram = b.dram := rfl
@[simp] theorem Bench.setThr_reads (b : Bench) (i : Nat) (t : Thread) : (b.setThr i t).reads = b.reads := rfl
@[simp] theorem Bench.setThr_tlps (b : Bench) (i : Nat) (t : Thread) : (b.setThr i t).tlps = b.tlps := rfl
@[simp] theorem Bench.setThr_evq (b : Bench) (i : Nat) (t : Thread) : (b.setThr i t).evq = b.evq := rfl
@[simp] theorem Bench.setThr_free (b : Bench) (i : Nat) (t : Thread) : (b.setThr i t).free = b.free := rfl
@[simp] theorem Bench.setThr_reg (b : Bench) (i : Nat) (t : Thread) (x : Nat) : (b.setThr i t).reg x = b.reg x := rfl
@[simp] theorem Bench.setThr_fld (b : Bench) (i : Nat) (t : Thread) (x : Fld) : (b.setThr i t).fld x = b.fld x := rfl
@[simp] theorem Bench.setThr_flag (b : Bench) (i : Nat) (t : Thread) (x : Fld) : (b.setThr i t).flag x = b.flag x := rfl
@[simp] theorem Bench.setThr_tally (b : Bench) (i : Nat) (t : Thread) (x : Nat) : (b.setThr i t).tally x = b.tally x := rfl
@[simp] theorem Bench.setThr_seq (b : Bench) (i : Nat) (t : Thread) (x : Nat) : (b.setThr i t).seq x = b.seq x := rfl
@[simp] theorem Bench.setThr_port (b : Bench) (i : Nat) (t : Thread) (x : Nat) : (b.setThr i t).port x = b.port x := rfl
@[simp] theorem Bench.setThr_bytes (b : Bench) (i : Nat) (t : Thread) (x y : Nat) : (b.setThr i t).bytes x y = b.bytes x y := rfl
@[simp] theorem Bench.setThr_live (b : Bench) (i : Nat) (t : Thread)  : (b.setThr i t).live  = b.live  := rfl
@[simp] theorem Bench.setThr_hasPort (b : Bench) (i : Nat) (t : Thread) (x : Nat) : (b.setThr i t).hasPort x = b.hasPort x := rfl

@[simp] theorem Bench.setReqs_power (b : Bench) (l : List DramReq) : (b.setReqs l).power = b.power := rfl
@[simp] theorem Bench.setReqs_cyc (b : Bench) (l : List DramReq) : (b.setReqs l).cyc = b.cyc := rfl
@[simp] theorem Bench.setReqs_regs (b : Bench) (l : List DramReq) : (b.setReqs l).regs = b.regs := rfl
@[simp] theorem Bench.setReqs_shadow (b : Bench) (l : List DramReq) : (b.setReqs l).shadow = b.shadow := rfl
@[simp] theorem Bench.setReqs_mem (b : Bench) (l : List DramReq) : (b.setReqs l).mem = b.mem := rfl
@[simp] theorem Bench.setReqs_keys (b : Bench) (l : List DramReq) : (b.setReqs l).keys = b.keys := rfl
@[simp] theorem Bench.setReqs_tal (b : Bench) (l : List DramReq) : (b.setReqs l).tal = b.tal := rfl
@[simp] theorem Bench.setReqs_seqs (b : Bench) (l : List DramReq) : (b.setReqs l).seqs = b.seqs := rfl
@[simp] theorem Bench.setReqs_ports (b : Bench) (l : List DramReq) : (b.setReqs l).ports = b.ports := rfl
@[simp] theorem Bench.setReqs_time (b : Bench) (l : List DramReq) : (b.setReqs l).time = b.time := rfl
@[simp] theorem Bench.setReqs_pkts (b : Bench) (l : List DramReq) : (b.setReqs l).pkts = b.pkts := rfl
@[simp] theorem Bench.setReqs_nextPid (b : Bench) (l : List DramReq) : (b.setReqs l).nextPid = b.nextPid := rfl
@[simp] theorem Bench.setReqs_out (b : Bench) (l : List DramReq) : (b.setReqs l).out = b.out := rfl
@[simp] theorem Bench.setReqs_wheel (b : Bench) (l : List DramReq) : (b.setReqs l).wheel = b.wheel := rfl
@[simp] theorem Bench.setReqs_mt (b : Bench) (l : List DramReq) : (b.setReqs l).mt = b.mt := rfl
@[simp] theorem Bench.setReqs_ci (b : Bench) (l : List DramReq) : (b.setReqs l).ci = b.ci := rfl
@[simp] theorem Bench.setReqs_tm (b : Bench) (l : List DramReq) : (b.setReqs l).tm = b.tm := rfl
@[simp] theorem Bench.setReqs_hop (b : Bench) (l : List DramReq) : (b.setReqs l).hop = b.hop := rfl
@[simp] theorem Bench.setReqs_eng (b : Bench) (l : List DramReq) : (b.setReqs l).eng = b.eng := rfl
@[simp] theorem Bench.setReqs_rings (b : Bench) (l : List DramReq) : (b.setReqs l).rings = b.rings := rfl
@[simp] theorem Bench.setReqs_haul (b : Bench) (l : List DramReq) : (b.setReqs l).haul = b.haul := rfl
@[simp] theorem Bench.setReqs_sto (b : Bench) (l : List DramReq) : (b.setReqs l).sto = b.sto := rfl
@[simp] theorem Bench.setReqs_reads (b : Bench) (l : List DramReq) : (b.setReqs l).reads = b.reads := rfl
@[simp] theorem Bench.setReqs_tlps (b : Bench) (l : List DramReq) : (b.setReqs l).tlps = b.tlps := rfl
@[simp] theorem Bench.setReqs_evq (b : Bench) (l : List DramReq) : (b.setReqs l).evq = b.evq := rfl
@[simp] theorem Bench.setReqs_free (b : Bench) (l : List DramReq) : (b.setReqs l).free = b.free := rfl
@[simp] theorem Bench.setReqs_reg (b : Bench) (l : List DramReq) (x : Nat) : (b.setReqs l).reg x = b.reg x := rfl
@[simp] theorem Bench.setReqs_fld (b : Bench) (l : List DramReq) (x : Fld) : (b.setReqs l).fld x = b.fld x := rfl
@[simp] theorem Bench.setReqs_flag (b : Bench) (l : List DramReq) (x : Fld) : (b.setReqs l).flag x = b.flag x := rfl
@[simp] theorem Bench.setReqs_tally (b : Bench) (l : List DramReq) (x : Nat) : (b.setReqs l).tally x = b.tally x := rfl
@[simp] theorem Bench.setReqs_seq (b : Bench) (l : List DramReq) (x : Nat) : (b.setReqs l).seq x = b.seq x := rfl
@[simp] theorem Bench.setReqs_port (b : Bench) (l : List DramReq) (x : Nat) : (b.setReqs l).port x = b.port x := rfl
@[simp] theorem Bench.setReqs_bytes (b : Bench) (l : List DramReq) (x y : Nat) : (b.setReqs l).bytes x y = b.bytes x y := rfl
@[simp] theorem Bench.setReqs_live (b : Bench) (l : List DramReq)  : (b.setReqs l).live  = b.live  := rfl
@[simp] theorem Bench.setReqs_thr (b : Bench) (l : List DramReq) (x : Nat) : (b.setReqs l).thr x = b.thr x := rfl
@[simp] theorem Bench.setReqs_hasPort (b : Bench) (l : List DramReq) (x : Nat) : (b.setReqs l).hasPort x = b.hasPort x := rfl

/-! ## The hub -/

@[simp] theorem Hub.setReg_shadow (h : Hub) (o : Nat) (v : Word) : (h.setReg o v).shadow = h.shadow := rfl
@[simp] theorem Hub.setReg_mem (h : Hub) (o : Nat) (v : Word) : (h.setReg o v).mem = h.mem := rfl
@[simp] theorem Hub.setReg_tal (h : Hub) (o : Nat) (v : Word) : (h.setReg o v).tal = h.tal := rfl
@[simp] theorem Hub.setReg_seqs (h : Hub) (o : Nat) (v : Word) : (h.setReg o v).seqs = h.seqs := rfl
@[simp] theorem Hub.setReg_fns (h : Hub) (o : Nat) (v : Word) : (h.setReg o v).fns = h.fns := rfl
@[simp] theorem Hub.setReg_msix (h : Hub) (o : Nat) (v : Word) : (h.setReg o v).msix = h.msix := rfl
@[simp] theorem Hub.setReg_links (h : Hub) (o : Nat) (v : Word) : (h.setReg o v).links = h.links := rfl
@[simp] theorem Hub.setReg_fnq (h : Hub) (o : Nat) (v : Word) : (h.setReg o v).fnq = h.fnq := rfl
@[simp] theorem Hub.setReg_fnSeq (h : Hub) (o : Nat) (v : Word) : (h.setReg o v).fnSeq = h.fnSeq := rfl
@[simp] theorem Hub.setReg_inq (h : Hub) (o : Nat) (v : Word) : (h.setReg o v).inq = h.inq := rfl
@[simp] theorem Hub.setReg_tlps (h : Hub) (o : Nat) (v : Word) : (h.setReg o v).tlps = h.tlps := rfl
@[simp] theorem Hub.setReg_wire (h : Hub) (o : Nat) (v : Word) : (h.setReg o v).wire = h.wire := rfl
@[simp] theorem Hub.setReg_fmInts (h : Hub) (o : Nat) (v : Word) : (h.setReg o v).fmInts = h.fmInts := rfl
@[simp] theorem Hub.setReg_starts (h : Hub) (o : Nat) (v : Word) : (h.setReg o v).starts = h.starts := rfl
@[simp] theorem Hub.setReg_switchBusy (h : Hub) (o : Nat) (v : Word) : (h.setReg o v).switchBusy = h.switchBusy := rfl
@[simp] theorem Hub.setReg_cyc (h : Hub) (o : Nat) (v : Word) : (h.setReg o v).cyc = h.cyc := rfl
@[simp] theorem Hub.setReg_free (h : Hub) (o : Nat) (v : Word) : (h.setReg o v).free = h.free := rfl
@[simp] theorem Hub.setReg_fw (h : Hub) (o : Nat) (v : Word) : (h.setReg o v).fw = h.fw := rfl
@[simp] theorem Hub.setReg_tally (h : Hub) (o : Nat) (v : Word) (x : Nat) : (h.setReg o v).tally x = h.tally x := rfl
@[simp] theorem Hub.setReg_seq (h : Hub) (o : Nat) (v : Word) (x : Nat) : (h.setReg o v).seq x = h.seq x := rfl
@[simp] theorem Hub.setReg_fn (h : Hub) (o : Nat) (v : Word) (x : Nat) : (h.setReg o v).fn x = h.fn x := rfl
@[simp] theorem Hub.setReg_mbx (h : Hub) (o : Nat) (v : Word) (x : Nat) : (h.setReg o v).mbx x = h.mbx x := rfl
@[simp] theorem Hub.setReg_up (h : Hub) (o : Nat) (v : Word)  : (h.setReg o v).up  = h.up  := rfl

@[simp] theorem Hub.setFld_shadow (h : Hub) (f : Fld) (v : Nat) : (h.setFld f v).shadow = h.shadow := rfl
@[simp] theorem Hub.setFld_mem (h : Hub) (f : Fld) (v : Nat) : (h.setFld f v).mem = h.mem := rfl
@[simp] theorem Hub.setFld_tal (h : Hub) (f : Fld) (v : Nat) : (h.setFld f v).tal = h.tal := rfl
@[simp] theorem Hub.setFld_seqs (h : Hub) (f : Fld) (v : Nat) : (h.setFld f v).seqs = h.seqs := rfl
@[simp] theorem Hub.setFld_fns (h : Hub) (f : Fld) (v : Nat) : (h.setFld f v).fns = h.fns := rfl
@[simp] theorem Hub.setFld_msix (h : Hub) (f : Fld) (v : Nat) : (h.setFld f v).msix = h.msix := rfl
@[simp] theorem Hub.setFld_links (h : Hub) (f : Fld) (v : Nat) : (h.setFld f v).links = h.links := rfl
@[simp] theorem Hub.setFld_fnq (h : Hub) (f : Fld) (v : Nat) : (h.setFld f v).fnq = h.fnq := rfl
@[simp] theorem Hub.setFld_fnSeq (h : Hub) (f : Fld) (v : Nat) : (h.setFld f v).fnSeq = h.fnSeq := rfl
@[simp] theorem Hub.setFld_inq (h : Hub) (f : Fld) (v : Nat) : (h.setFld f v).inq = h.inq := rfl
@[simp] theorem Hub.setFld_tlps (h : Hub) (f : Fld) (v : Nat) : (h.setFld f v).tlps = h.tlps := rfl
@[simp] theorem Hub.setFld_wire (h : Hub) (f : Fld) (v : Nat) : (h.setFld f v).wire = h.wire := rfl
@[simp] theorem Hub.setFld_fmInts (h : Hub) (f : Fld) (v : Nat) : (h.setFld f v).fmInts = h.fmInts := rfl
@[simp] theorem Hub.setFld_starts (h : Hub) (f : Fld) (v : Nat) : (h.setFld f v).starts = h.starts := rfl
@[simp] theorem Hub.setFld_switchBusy (h : Hub) (f : Fld) (v : Nat) : (h.setFld f v).switchBusy = h.switchBusy := rfl
@[simp] theorem Hub.setFld_cyc (h : Hub) (f : Fld) (v : Nat) : (h.setFld f v).cyc = h.cyc := rfl
@[simp] theorem Hub.setFld_free (h : Hub) (f : Fld) (v : Nat) : (h.setFld f v).free = h.free := rfl
@[simp] theorem Hub.setFld_fw (h : Hub) (f : Fld) (v : Nat) : (h.setFld f v).fw = h.fw := rfl
@[simp] theorem Hub.setFld_tally (h : Hub) (f : Fld) (v : Nat) (x : Nat) : (h.setFld f v).tally x = h.tally x := rfl
@[simp] theorem Hub.setFld_seq (h : Hub) (f : Fld) (v : Nat) (x : Nat) : (h.setFld f v).seq x = h.seq x := rfl
@[simp] theorem Hub.setFld_fn (h : Hub) (f : Fld) (v : Nat) (x : Nat) : (h.setFld f v).fn x = h.fn x := rfl
@[simp] theorem Hub.setFld_mbx (h : Hub) (f : Fld) (v : Nat) (x : Nat) : (h.setFld f v).mbx x = h.mbx x := rfl
@[simp] theorem Hub.setFld_up (h : Hub) (f : Fld) (v : Nat)  : (h.setFld f v).up  = h.up  := rfl

@[simp] theorem Hub.count_regs (h : Hub) (k n : Nat) : (h.count k n).regs = h.regs := rfl
@[simp] theorem Hub.count_shadow (h : Hub) (k n : Nat) : (h.count k n).shadow = h.shadow := rfl
@[simp] theorem Hub.count_mem (h : Hub) (k n : Nat) : (h.count k n).mem = h.mem := rfl
@[simp] theorem Hub.count_seqs (h : Hub) (k n : Nat) : (h.count k n).seqs = h.seqs := rfl
@[simp] theorem Hub.count_fns (h : Hub) (k n : Nat) : (h.count k n).fns = h.fns := rfl
@[simp] theorem Hub.count_msix (h : Hub) (k n : Nat) : (h.count k n).msix = h.msix := rfl
@[simp] theorem Hub.count_links (h : Hub) (k n : Nat) : (h.count k n).links = h.links := rfl
@[simp] theorem Hub.count_fnq (h : Hub) (k n : Nat) : (h.count k n).fnq = h.fnq := rfl
@[simp] theorem Hub.count_fnSeq (h : Hub) (k n : Nat) : (h.count k n).fnSeq = h.fnSeq := rfl
@[simp] theorem Hub.count_inq (h : Hub) (k n : Nat) : (h.count k n).inq = h.inq := rfl
@[simp] theorem Hub.count_tlps (h : Hub) (k n : Nat) : (h.count k n).tlps = h.tlps := rfl
@[simp] theorem Hub.count_wire (h : Hub) (k n : Nat) : (h.count k n).wire = h.wire := rfl
@[simp] theorem Hub.count_fmInts (h : Hub) (k n : Nat) : (h.count k n).fmInts = h.fmInts := rfl
@[simp] theorem Hub.count_starts (h : Hub) (k n : Nat) : (h.count k n).starts = h.starts := rfl
@[simp] theorem Hub.count_switchBusy (h : Hub) (k n : Nat) : (h.count k n).switchBusy = h.switchBusy := rfl
@[simp] theorem Hub.count_cyc (h : Hub) (k n : Nat) : (h.count k n).cyc = h.cyc := rfl
@[simp] theorem Hub.count_free (h : Hub) (k n : Nat) : (h.count k n).free = h.free := rfl
@[simp] theorem Hub.count_fw (h : Hub) (k n : Nat) : (h.count k n).fw = h.fw := rfl
@[simp] theorem Hub.count_reg (h : Hub) (k n : Nat) (x : Nat) : (h.count k n).reg x = h.reg x := rfl
@[simp] theorem Hub.count_fld (h : Hub) (k n : Nat) (x : Fld) : (h.count k n).fld x = h.fld x := rfl
@[simp] theorem Hub.count_flag (h : Hub) (k n : Nat) (x : Fld) : (h.count k n).flag x = h.flag x := rfl
@[simp] theorem Hub.count_seq (h : Hub) (k n : Nat) (x : Nat) : (h.count k n).seq x = h.seq x := rfl
@[simp] theorem Hub.count_fn (h : Hub) (k n : Nat) (x : Nat) : (h.count k n).fn x = h.fn x := rfl
@[simp] theorem Hub.count_mbx (h : Hub) (k n : Nat) (x : Nat) : (h.count k n).mbx x = h.mbx x := rfl
@[simp] theorem Hub.count_up (h : Hub) (k n : Nat)  : (h.count k n).up  = h.up  := rfl

@[simp] theorem Hub.tick_regs (h : Hub) (k : Nat) : (h.tick k).regs = h.regs := rfl
@[simp] theorem Hub.tick_shadow (h : Hub) (k : Nat) : (h.tick k).shadow = h.shadow := rfl
@[simp] theorem Hub.tick_mem (h : Hub) (k : Nat) : (h.tick k).mem = h.mem := rfl
@[simp] theorem Hub.tick_seqs (h : Hub) (k : Nat) : (h.tick k).seqs = h.seqs := rfl
@[simp] theorem Hub.tick_fns (h : Hub) (k : Nat) : (h.tick k).fns = h.fns := rfl
@[simp] theorem Hub.tick_msix (h : Hub) (k : Nat) : (h.tick k).msix = h.msix := rfl
@[simp] theorem Hub.tick_links (h : Hub) (k : Nat) : (h.tick k).links = h.links := rfl
@[simp] theorem Hub.tick_fnq (h : Hub) (k : Nat) : (h.tick k).fnq = h.fnq := rfl
@[simp] theorem Hub.tick_fnSeq (h : Hub) (k : Nat) : (h.tick k).fnSeq = h.fnSeq := rfl
@[simp] theorem Hub.tick_inq (h : Hub) (k : Nat) : (h.tick k).inq = h.inq := rfl
@[simp] theorem Hub.tick_tlps (h : Hub) (k : Nat) : (h.tick k).tlps = h.tlps := rfl
@[simp] theorem Hub.tick_wire (h : Hub) (k : Nat) : (h.tick k).wire = h.wire := rfl
@[simp] theorem Hub.tick_fmInts (h : Hub) (k : Nat) : (h.tick k).fmInts = h.fmInts := rfl
@[simp] theorem Hub.tick_starts (h : Hub) (k : Nat) : (h.tick k).starts = h.starts := rfl
@[simp] theorem Hub.tick_switchBusy (h : Hub) (k : Nat) : (h.tick k).switchBusy = h.switchBusy := rfl
@[simp] theorem Hub.tick_cyc (h : Hub) (k : Nat) : (h.tick k).cyc = h.cyc := rfl
@[simp] theorem Hub.tick_free (h : Hub) (k : Nat) : (h.tick k).free = h.free := rfl
@[simp] theorem Hub.tick_fw (h : Hub) (k : Nat) : (h.tick k).fw = h.fw := rfl
@[simp] theorem Hub.tick_reg (h : Hub) (k : Nat) (x : Nat) : (h.tick k).reg x = h.reg x := rfl
@[simp] theorem Hub.tick_fld (h : Hub) (k : Nat) (x : Fld) : (h.tick k).fld x = h.fld x := rfl
@[simp] theorem Hub.tick_flag (h : Hub) (k : Nat) (x : Fld) : (h.tick k).flag x = h.flag x := rfl
@[simp] theorem Hub.tick_seq (h : Hub) (k : Nat) (x : Nat) : (h.tick k).seq x = h.seq x := rfl
@[simp] theorem Hub.tick_fn (h : Hub) (k : Nat) (x : Nat) : (h.tick k).fn x = h.fn x := rfl
@[simp] theorem Hub.tick_mbx (h : Hub) (k : Nat) (x : Nat) : (h.tick k).mbx x = h.mbx x := rfl
@[simp] theorem Hub.tick_up (h : Hub) (k : Nat)  : (h.tick k).up  = h.up  := rfl

@[simp] theorem Hub.setFn_regs (h : Hub) (k : Nat) (f : FnSt) : (h.setFn k f).regs = h.regs := rfl
@[simp] theorem Hub.setFn_shadow (h : Hub) (k : Nat) (f : FnSt) : (h.setFn k f).shadow = h.shadow := rfl
@[simp] theorem Hub.setFn_mem (h : Hub) (k : Nat) (f : FnSt) : (h.setFn k f).mem = h.mem := rfl
@[simp] theorem Hub.setFn_tal (h : Hub) (k : Nat) (f : FnSt) : (h.setFn k f).tal = h.tal := rfl
@[simp] theorem Hub.setFn_seqs (h : Hub) (k : Nat) (f : FnSt) : (h.setFn k f).seqs = h.seqs := rfl
@[simp] theorem Hub.setFn_msix (h : Hub) (k : Nat) (f : FnSt) : (h.setFn k f).msix = h.msix := rfl
@[simp] theorem Hub.setFn_links (h : Hub) (k : Nat) (f : FnSt) : (h.setFn k f).links = h.links := rfl
@[simp] theorem Hub.setFn_fnq (h : Hub) (k : Nat) (f : FnSt) : (h.setFn k f).fnq = h.fnq := rfl
@[simp] theorem Hub.setFn_fnSeq (h : Hub) (k : Nat) (f : FnSt) : (h.setFn k f).fnSeq = h.fnSeq := rfl
@[simp] theorem Hub.setFn_inq (h : Hub) (k : Nat) (f : FnSt) : (h.setFn k f).inq = h.inq := rfl
@[simp] theorem Hub.setFn_tlps (h : Hub) (k : Nat) (f : FnSt) : (h.setFn k f).tlps = h.tlps := rfl
@[simp] theorem Hub.setFn_wire (h : Hub) (k : Nat) (f : FnSt) : (h.setFn k f).wire = h.wire := rfl
@[simp] theorem Hub.setFn_fmInts (h : Hub) (k : Nat) (f : FnSt) : (h.setFn k f).fmInts = h.fmInts := rfl
@[simp] theorem Hub.setFn_starts (h : Hub) (k : Nat) (f : FnSt) : (h.setFn k f).starts = h.starts := rfl
@[simp] theorem Hub.setFn_switchBusy (h : Hub) (k : Nat) (f : FnSt) : (h.setFn k f).switchBusy = h.switchBusy := rfl
@[simp] theorem Hub.setFn_cyc (h : Hub) (k : Nat) (f : FnSt) : (h.setFn k f).cyc = h.cyc := rfl
@[simp] theorem Hub.setFn_free (h : Hub) (k : Nat) (f : FnSt) : (h.setFn k f).free = h.free := rfl
@[simp] theorem Hub.setFn_fw (h : Hub) (k : Nat) (f : FnSt) : (h.setFn k f).fw = h.fw := rfl
@[simp] theorem Hub.setFn_reg (h : Hub) (k : Nat) (f : FnSt) (x : Nat) : (h.setFn k f).reg x = h.reg x := rfl
@[simp] theorem Hub.setFn_fld (h : Hub) (k : Nat) (f : FnSt) (x : Fld) : (h.setFn k f).fld x = h.fld x := rfl
@[simp] theorem Hub.setFn_flag (h : Hub) (k : Nat) (f : FnSt) (x : Fld) : (h.setFn k f).flag x = h.flag x := rfl
@[simp] theorem Hub.setFn_tally (h : Hub) (k : Nat) (f : FnSt) (x : Nat) : (h.setFn k f).tally x = h.tally x := rfl
@[simp] theorem Hub.setFn_seq (h : Hub) (k : Nat) (f : FnSt) (x : Nat) : (h.setFn k f).seq x = h.seq x := rfl
@[simp] theorem Hub.setFn_mbx (h : Hub) (k : Nat) (f : FnSt) (x : Nat) : (h.setFn k f).mbx x = h.mbx x := rfl
@[simp] theorem Hub.setFn_up (h : Hub) (k : Nat) (f : FnSt)  : (h.setFn k f).up  = h.up  := rfl

@[simp] theorem Hub.setMsix_regs (h : Hub) (k v : Nat) (e : MsixEnt) : (h.setMsix k v e).regs = h.regs := rfl
@[simp] theorem Hub.setMsix_shadow (h : Hub) (k v : Nat) (e : MsixEnt) : (h.setMsix k v e).shadow = h.shadow := rfl
@[simp] theorem Hub.setMsix_mem (h : Hub) (k v : Nat) (e : MsixEnt) : (h.setMsix k v e).mem = h.mem := rfl
@[simp] theorem Hub.setMsix_tal (h : Hub) (k v : Nat) (e : MsixEnt) : (h.setMsix k v e).tal = h.tal := rfl
@[simp] theorem Hub.setMsix_seqs (h : Hub) (k v : Nat) (e : MsixEnt) : (h.setMsix k v e).seqs = h.seqs := rfl
@[simp] theorem Hub.setMsix_fns (h : Hub) (k v : Nat) (e : MsixEnt) : (h.setMsix k v e).fns = h.fns := rfl
@[simp] theorem Hub.setMsix_links (h : Hub) (k v : Nat) (e : MsixEnt) : (h.setMsix k v e).links = h.links := rfl
@[simp] theorem Hub.setMsix_fnq (h : Hub) (k v : Nat) (e : MsixEnt) : (h.setMsix k v e).fnq = h.fnq := rfl
@[simp] theorem Hub.setMsix_fnSeq (h : Hub) (k v : Nat) (e : MsixEnt) : (h.setMsix k v e).fnSeq = h.fnSeq := rfl
@[simp] theorem Hub.setMsix_inq (h : Hub) (k v : Nat) (e : MsixEnt) : (h.setMsix k v e).inq = h.inq := rfl
@[simp] theorem Hub.setMsix_tlps (h : Hub) (k v : Nat) (e : MsixEnt) : (h.setMsix k v e).tlps = h.tlps := rfl
@[simp] theorem Hub.setMsix_wire (h : Hub) (k v : Nat) (e : MsixEnt) : (h.setMsix k v e).wire = h.wire := rfl
@[simp] theorem Hub.setMsix_fmInts (h : Hub) (k v : Nat) (e : MsixEnt) : (h.setMsix k v e).fmInts = h.fmInts := rfl
@[simp] theorem Hub.setMsix_starts (h : Hub) (k v : Nat) (e : MsixEnt) : (h.setMsix k v e).starts = h.starts := rfl
@[simp] theorem Hub.setMsix_switchBusy (h : Hub) (k v : Nat) (e : MsixEnt) : (h.setMsix k v e).switchBusy = h.switchBusy := rfl
@[simp] theorem Hub.setMsix_cyc (h : Hub) (k v : Nat) (e : MsixEnt) : (h.setMsix k v e).cyc = h.cyc := rfl
@[simp] theorem Hub.setMsix_free (h : Hub) (k v : Nat) (e : MsixEnt) : (h.setMsix k v e).free = h.free := rfl
@[simp] theorem Hub.setMsix_fw (h : Hub) (k v : Nat) (e : MsixEnt) : (h.setMsix k v e).fw = h.fw := rfl
@[simp] theorem Hub.setMsix_reg (h : Hub) (k v : Nat) (e : MsixEnt) (x : Nat) : (h.setMsix k v e).reg x = h.reg x := rfl
@[simp] theorem Hub.setMsix_fld (h : Hub) (k v : Nat) (e : MsixEnt) (x : Fld) : (h.setMsix k v e).fld x = h.fld x := rfl
@[simp] theorem Hub.setMsix_flag (h : Hub) (k v : Nat) (e : MsixEnt) (x : Fld) : (h.setMsix k v e).flag x = h.flag x := rfl
@[simp] theorem Hub.setMsix_tally (h : Hub) (k v : Nat) (e : MsixEnt) (x : Nat) : (h.setMsix k v e).tally x = h.tally x := rfl
@[simp] theorem Hub.setMsix_seq (h : Hub) (k v : Nat) (e : MsixEnt) (x : Nat) : (h.setMsix k v e).seq x = h.seq x := rfl
@[simp] theorem Hub.setMsix_fn (h : Hub) (k v : Nat) (e : MsixEnt) (x : Nat) : (h.setMsix k v e).fn x = h.fn x := rfl
@[simp] theorem Hub.setMsix_mbx (h : Hub) (k v : Nat) (e : MsixEnt) (x : Nat) : (h.setMsix k v e).mbx x = h.mbx x := rfl
@[simp] theorem Hub.setMsix_up (h : Hub) (k v : Nat) (e : MsixEnt)  : (h.setMsix k v e).up  = h.up  := rfl

@[simp] theorem Hub.queueTlp_regs (h : Hub) (t : Tlp) : (h.queueTlp t).regs = h.regs := rfl
@[simp] theorem Hub.queueTlp_shadow (h : Hub) (t : Tlp) : (h.queueTlp t).shadow = h.shadow := rfl
@[simp] theorem Hub.queueTlp_mem (h : Hub) (t : Tlp) : (h.queueTlp t).mem = h.mem := rfl
@[simp] theorem Hub.queueTlp_tal (h : Hub) (t : Tlp) : (h.queueTlp t).tal = h.tal := rfl
@[simp] theorem Hub.queueTlp_seqs (h : Hub) (t : Tlp) : (h.queueTlp t).seqs = h.seqs := rfl
@[simp] theorem Hub.queueTlp_fns (h : Hub) (t : Tlp) : (h.queueTlp t).fns = h.fns := rfl
@[simp] theorem Hub.queueTlp_msix (h : Hub) (t : Tlp) : (h.queueTlp t).msix = h.msix := rfl
@[simp] theorem Hub.queueTlp_links (h : Hub) (t : Tlp) : (h.queueTlp t).links = h.links := rfl
@[simp] theorem Hub.queueTlp_fnq (h : Hub) (t : Tlp) : (h.queueTlp t).fnq = h.fnq := rfl
@[simp] theorem Hub.queueTlp_fnSeq (h : Hub) (t : Tlp) : (h.queueTlp t).fnSeq = h.fnSeq := rfl
@[simp] theorem Hub.queueTlp_inq (h : Hub) (t : Tlp) : (h.queueTlp t).inq = h.inq := rfl
@[simp] theorem Hub.queueTlp_wire (h : Hub) (t : Tlp) : (h.queueTlp t).wire = h.wire := rfl
@[simp] theorem Hub.queueTlp_fmInts (h : Hub) (t : Tlp) : (h.queueTlp t).fmInts = h.fmInts := rfl
@[simp] theorem Hub.queueTlp_starts (h : Hub) (t : Tlp) : (h.queueTlp t).starts = h.starts := rfl
@[simp] theorem Hub.queueTlp_switchBusy (h : Hub) (t : Tlp) : (h.queueTlp t).switchBusy = h.switchBusy := rfl
@[simp] theorem Hub.queueTlp_cyc (h : Hub) (t : Tlp) : (h.queueTlp t).cyc = h.cyc := rfl
@[simp] theorem Hub.queueTlp_free (h : Hub) (t : Tlp) : (h.queueTlp t).free = h.free := rfl
@[simp] theorem Hub.queueTlp_fw (h : Hub) (t : Tlp) : (h.queueTlp t).fw = h.fw := rfl
@[simp] theorem Hub.queueTlp_reg (h : Hub) (t : Tlp) (x : Nat) : (h.queueTlp t).reg x = h.reg x := rfl
@[simp] theorem Hub.queueTlp_fld (h : Hub) (t : Tlp) (x : Fld) : (h.queueTlp t).fld x = h.fld x := rfl
@[simp] theorem Hub.queueTlp_flag (h : Hub) (t : Tlp) (x : Fld) : (h.queueTlp t).flag x = h.flag x := rfl
@[simp] theorem Hub.queueTlp_tally (h : Hub) (t : Tlp) (x : Nat) : (h.queueTlp t).tally x = h.tally x := rfl
@[simp] theorem Hub.queueTlp_seq (h : Hub) (t : Tlp) (x : Nat) : (h.queueTlp t).seq x = h.seq x := rfl
@[simp] theorem Hub.queueTlp_fn (h : Hub) (t : Tlp) (x : Nat) : (h.queueTlp t).fn x = h.fn x := rfl
@[simp] theorem Hub.queueTlp_mbx (h : Hub) (t : Tlp) (x : Nat) : (h.queueTlp t).mbx x = h.mbx x := rfl
@[simp] theorem Hub.queueTlp_up (h : Hub) (t : Tlp)  : (h.queueTlp t).up  = h.up  := rfl

@[simp] theorem Hub.bumpSeq_regs (h : Hub) (o : Nat) : (h.bumpSeq o).regs = h.regs := rfl
@[simp] theorem Hub.bumpSeq_shadow (h : Hub) (o : Nat) : (h.bumpSeq o).shadow = h.shadow := rfl
@[simp] theorem Hub.bumpSeq_mem (h : Hub) (o : Nat) : (h.bumpSeq o).mem = h.mem := rfl
@[simp] theorem Hub.bumpSeq_tal (h : Hub) (o : Nat) : (h.bumpSeq o).tal = h.tal := rfl
@[simp] theorem Hub.bumpSeq_fns (h : Hub) (o : Nat) : (h.bumpSeq o).fns = h.fns := rfl
@[simp] theorem Hub.bumpSeq_msix (h : Hub) (o : Nat) : (h.bumpSeq o).msix = h.msix := rfl
@[simp] theorem Hub.bumpSeq_links (h : Hub) (o : Nat) : (h.bumpSeq o).links = h.links := rfl
@[simp] theorem Hub.bumpSeq_fnq (h : Hub) (o : Nat) : (h.bumpSeq o).fnq = h.fnq := rfl
@[simp] theorem Hub.bumpSeq_fnSeq (h : Hub) (o : Nat) : (h.bumpSeq o).fnSeq = h.fnSeq := rfl
@[simp] theorem Hub.bumpSeq_inq (h : Hub) (o : Nat) : (h.bumpSeq o).inq = h.inq := rfl
@[simp] theorem Hub.bumpSeq_tlps (h : Hub) (o : Nat) : (h.bumpSeq o).tlps = h.tlps := rfl
@[simp] theorem Hub.bumpSeq_wire (h : Hub) (o : Nat) : (h.bumpSeq o).wire = h.wire := rfl
@[simp] theorem Hub.bumpSeq_fmInts (h : Hub) (o : Nat) : (h.bumpSeq o).fmInts = h.fmInts := rfl
@[simp] theorem Hub.bumpSeq_starts (h : Hub) (o : Nat) : (h.bumpSeq o).starts = h.starts := rfl
@[simp] theorem Hub.bumpSeq_switchBusy (h : Hub) (o : Nat) : (h.bumpSeq o).switchBusy = h.switchBusy := rfl
@[simp] theorem Hub.bumpSeq_cyc (h : Hub) (o : Nat) : (h.bumpSeq o).cyc = h.cyc := rfl
@[simp] theorem Hub.bumpSeq_free (h : Hub) (o : Nat) : (h.bumpSeq o).free = h.free := rfl
@[simp] theorem Hub.bumpSeq_fw (h : Hub) (o : Nat) : (h.bumpSeq o).fw = h.fw := rfl
@[simp] theorem Hub.bumpSeq_reg (h : Hub) (o : Nat) (x : Nat) : (h.bumpSeq o).reg x = h.reg x := rfl
@[simp] theorem Hub.bumpSeq_fld (h : Hub) (o : Nat) (x : Fld) : (h.bumpSeq o).fld x = h.fld x := rfl
@[simp] theorem Hub.bumpSeq_flag (h : Hub) (o : Nat) (x : Fld) : (h.bumpSeq o).flag x = h.flag x := rfl
@[simp] theorem Hub.bumpSeq_tally (h : Hub) (o : Nat) (x : Nat) : (h.bumpSeq o).tally x = h.tally x := rfl
@[simp] theorem Hub.bumpSeq_fn (h : Hub) (o : Nat) (x : Nat) : (h.bumpSeq o).fn x = h.fn x := rfl
@[simp] theorem Hub.bumpSeq_mbx (h : Hub) (o : Nat) (x : Nat) : (h.bumpSeq o).mbx x = h.mbx x := rfl
@[simp] theorem Hub.bumpSeq_up (h : Hub) (o : Nat)  : (h.bumpSeq o).up  = h.up  := rfl

@[simp] theorem Hub.setMbx_regs (h : Hub) (m : Nat) (q : Mailbox) : (h.setMbx m q).regs = h.regs := rfl
@[simp] theorem Hub.setMbx_shadow (h : Hub) (m : Nat) (q : Mailbox) : (h.setMbx m q).shadow = h.shadow := rfl
@[simp] theorem Hub.setMbx_mem (h : Hub) (m : Nat) (q : Mailbox) : (h.setMbx m q).mem = h.mem := rfl
@[simp] theorem Hub.setMbx_tal (h : Hub) (m : Nat) (q : Mailbox) : (h.setMbx m q).tal = h.tal := rfl
@[simp] theorem Hub.setMbx_seqs (h : Hub) (m : Nat) (q : Mailbox) : (h.setMbx m q).seqs = h.seqs := rfl
@[simp] theorem Hub.setMbx_fns (h : Hub) (m : Nat) (q : Mailbox) : (h.setMbx m q).fns = h.fns := rfl
@[simp] theorem Hub.setMbx_msix (h : Hub) (m : Nat) (q : Mailbox) : (h.setMbx m q).msix = h.msix := rfl
@[simp] theorem Hub.setMbx_links (h : Hub) (m : Nat) (q : Mailbox) : (h.setMbx m q).links = h.links := rfl
@[simp] theorem Hub.setMbx_fnq (h : Hub) (m : Nat) (q : Mailbox) : (h.setMbx m q).fnq = h.fnq := rfl
@[simp] theorem Hub.setMbx_fnSeq (h : Hub) (m : Nat) (q : Mailbox) : (h.setMbx m q).fnSeq = h.fnSeq := rfl
@[simp] theorem Hub.setMbx_inq (h : Hub) (m : Nat) (q : Mailbox) : (h.setMbx m q).inq = h.inq := rfl
@[simp] theorem Hub.setMbx_tlps (h : Hub) (m : Nat) (q : Mailbox) : (h.setMbx m q).tlps = h.tlps := rfl
@[simp] theorem Hub.setMbx_wire (h : Hub) (m : Nat) (q : Mailbox) : (h.setMbx m q).wire = h.wire := rfl
@[simp] theorem Hub.setMbx_fmInts (h : Hub) (m : Nat) (q : Mailbox) : (h.setMbx m q).fmInts = h.fmInts := rfl
@[simp] theorem Hub.setMbx_starts (h : Hub) (m : Nat) (q : Mailbox) : (h.setMbx m q).starts = h.starts := rfl
@[simp] theorem Hub.setMbx_switchBusy (h : Hub) (m : Nat) (q : Mailbox) : (h.setMbx m q).switchBusy = h.switchBusy := rfl
@[simp] theorem Hub.setMbx_cyc (h : Hub) (m : Nat) (q : Mailbox) : (h.setMbx m q).cyc = h.cyc := rfl
@[simp] theorem Hub.setMbx_free (h : Hub) (m : Nat) (q : Mailbox) : (h.setMbx m q).free = h.free := rfl
@[simp] theorem Hub.setMbx_reg (h : Hub) (m : Nat) (q : Mailbox) (x : Nat) : (h.setMbx m q).reg x = h.reg x := rfl
@[simp] theorem Hub.setMbx_fld (h : Hub) (m : Nat) (q : Mailbox) (x : Fld) : (h.setMbx m q).fld x = h.fld x := rfl
@[simp] theorem Hub.setMbx_flag (h : Hub) (m : Nat) (q : Mailbox) (x : Fld) : (h.setMbx m q).flag x = h.flag x := rfl
@[simp] theorem Hub.setMbx_tally (h : Hub) (m : Nat) (q : Mailbox) (x : Nat) : (h.setMbx m q).tally x = h.tally x := rfl
@[simp] theorem Hub.setMbx_seq (h : Hub) (m : Nat) (q : Mailbox) (x : Nat) : (h.setMbx m q).seq x = h.seq x := rfl
@[simp] theorem Hub.setMbx_fn (h : Hub) (m : Nat) (q : Mailbox) (x : Nat) : (h.setMbx m q).fn x = h.fn x := rfl
@[simp] theorem Hub.setMbx_up (h : Hub) (m : Nat) (q : Mailbox) : (h.setMbx m q).up = h.up := rfl

@[simp] theorem Hub.setEport_regs (h : Hub) (n : Nat) (q : EnginePort) : (h.setEport n q).regs = h.regs := rfl
@[simp] theorem Hub.setEport_shadow (h : Hub) (n : Nat) (q : EnginePort) : (h.setEport n q).shadow = h.shadow := rfl
@[simp] theorem Hub.setEport_mem (h : Hub) (n : Nat) (q : EnginePort) : (h.setEport n q).mem = h.mem := rfl
@[simp] theorem Hub.setEport_tal (h : Hub) (n : Nat) (q : EnginePort) : (h.setEport n q).tal = h.tal := rfl
@[simp] theorem Hub.setEport_seqs (h : Hub) (n : Nat) (q : EnginePort) : (h.setEport n q).seqs = h.seqs := rfl
@[simp] theorem Hub.setEport_fns (h : Hub) (n : Nat) (q : EnginePort) : (h.setEport n q).fns = h.fns := rfl
@[simp] theorem Hub.setEport_msix (h : Hub) (n : Nat) (q : EnginePort) : (h.setEport n q).msix = h.msix := rfl
@[simp] theorem Hub.setEport_links (h : Hub) (n : Nat) (q : EnginePort) : (h.setEport n q).links = h.links := rfl
@[simp] theorem Hub.setEport_fnq (h : Hub) (n : Nat) (q : EnginePort) : (h.setEport n q).fnq = h.fnq := rfl
@[simp] theorem Hub.setEport_fnSeq (h : Hub) (n : Nat) (q : EnginePort) : (h.setEport n q).fnSeq = h.fnSeq := rfl
@[simp] theorem Hub.setEport_inq (h : Hub) (n : Nat) (q : EnginePort) : (h.setEport n q).inq = h.inq := rfl
@[simp] theorem Hub.setEport_tlps (h : Hub) (n : Nat) (q : EnginePort) : (h.setEport n q).tlps = h.tlps := rfl
@[simp] theorem Hub.setEport_wire (h : Hub) (n : Nat) (q : EnginePort) : (h.setEport n q).wire = h.wire := rfl
@[simp] theorem Hub.setEport_fmInts (h : Hub) (n : Nat) (q : EnginePort) : (h.setEport n q).fmInts = h.fmInts := rfl
@[simp] theorem Hub.setEport_starts (h : Hub) (n : Nat) (q : EnginePort) : (h.setEport n q).starts = h.starts := rfl
@[simp] theorem Hub.setEport_switchBusy (h : Hub) (n : Nat) (q : EnginePort) : (h.setEport n q).switchBusy = h.switchBusy := rfl
@[simp] theorem Hub.setEport_cyc (h : Hub) (n : Nat) (q : EnginePort) : (h.setEport n q).cyc = h.cyc := rfl
@[simp] theorem Hub.setEport_free (h : Hub) (n : Nat) (q : EnginePort) : (h.setEport n q).free = h.free := rfl
@[simp] theorem Hub.setEport_reg (h : Hub) (n : Nat) (q : EnginePort) (x : Nat) : (h.setEport n q).reg x = h.reg x := rfl
@[simp] theorem Hub.setEport_fld (h : Hub) (n : Nat) (q : EnginePort) (x : Fld) : (h.setEport n q).fld x = h.fld x := rfl
@[simp] theorem Hub.setEport_flag (h : Hub) (n : Nat) (q : EnginePort) (x : Fld) : (h.setEport n q).flag x = h.flag x := rfl
@[simp] theorem Hub.setEport_tally (h : Hub) (n : Nat) (q : EnginePort) (x : Nat) : (h.setEport n q).tally x = h.tally x := rfl
@[simp] theorem Hub.setEport_seq (h : Hub) (n : Nat) (q : EnginePort) (x : Nat) : (h.setEport n q).seq x = h.seq x := rfl
@[simp] theorem Hub.setEport_fn (h : Hub) (n : Nat) (q : EnginePort) (x : Nat) : (h.setEport n q).fn x = h.fn x := rfl
@[simp] theorem Hub.setEport_up (h : Hub) (n : Nat) (q : EnginePort) : (h.setEport n q).up = h.up := rfl

end Sys2Proof.Machine
end

