-- ==== Sys2Proof/Laws/Run.lean ====
section
/-! SUPPORT. What a command can do to the device: to its bench, to every other bench, and to the hub through the events it raises. -/
namespace Sys2Proof.Machine

/-! ## Benches of the device -/

@[simp] theorem Device.bench_set_self (d : Device) (n : BenchId) (b : Bench) (h : Hub) (a : List Nat) :
    Device.bench { hub := h, benches := d.benches.set n.val b, answer := a } n = b := by
  simp [Device.bench]

theorem Device.bench_set_ne (d : Device) {n m : BenchId} (b : Bench) (h : Hub) (a : List Nat) (e : m ≠ n) :
    Device.bench { hub := h, benches := d.benches.set n.val b, answer := a } m = d.bench m := by
  have : n.val ≠ m.val := fun x => e (Fin.ext x.symm)
  simp [Device.bench, this]

/-- The bench that a command acted on. -/
theorem Device.bench_run_self (d : Device) (n : BenchId) (f : Hub → Bench → Hub × Bench) :
    (d.run n f).bench n =
      (f d.hub (d.bench n)).2.afterEvents (drainEvents n (f d.hub (d.bench n)).1 (f d.hub (d.bench n)).2.evq).2 := by
  simp [Device.run]
/-- Every other bench is left as it was (R25). -/
theorem Device.bench_run_ne (d : Device) {n m : BenchId} (f : Hub → Bench → Hub × Bench) (e : m ≠ n) :
    (d.run n f).bench m = d.bench m := by
  unfold Device.run; exact Device.bench_set_ne d _ _ _ e
@[simp] theorem Device.hub_run (d : Device) (n : BenchId) (f : Hub → Bench → Hub × Bench) :
    (d.run n f).hub = (drainEvents n (f d.hub (d.bench n)).1 (f d.hub (d.bench n)).2.evq).1 := rfl
@[simp] theorem Device.answer_run (d : Device) (n : BenchId) (f : Hub → Bench → Hub × Bench) : (d.run n f).answer = d.answer := rfl

/-- No event is left to be handed over once a command has run. -/
theorem Device.evq_run (d : Device) (n : BenchId) (f : Hub → Bench → Hub × Bench) : ((d.run n f).bench n).evq = [] := by
  rw [Device.bench_run_self]; rfl

/-! ## Events -/

/-- What raising an event leaves of the hub as it was. -/
theorem Hub.interrupt_fw (h : Hub) (src : Option BenchId) (key vec : Nat) : (h.interrupt src key vec).1.fw = h.fw := by
  unfold Hub.interrupt; dsimp only; split_ifs <;> rfl
theorem Hub.interrupt_regs (h : Hub) (src : Option BenchId) (key vec : Nat) : (h.interrupt src key vec).1.regs = h.regs := by
  unfold Hub.interrupt; dsimp only; split_ifs <;> rfl
theorem Hub.interrupt_tal (h : Hub) (src : Option BenchId) (key vec : Nat) : (h.interrupt src key vec).1.tal = h.tal := by
  unfold Hub.interrupt; dsimp only; split_ifs <;> rfl
theorem Hub.interrupt_mem (h : Hub) (src : Option BenchId) (key vec : Nat) : (h.interrupt src key vec).1.mem = h.mem := by
  unfold Hub.interrupt; dsimp only; split_ifs <;> rfl
theorem Hub.interrupt_tlps (h : Hub) (src : Option BenchId) (key vec : Nat) : (h.interrupt src key vec).1.tlps = h.tlps := by
  unfold Hub.interrupt; dsimp only; split_ifs <;> rfl
theorem Hub.raiseFm_fw (h : Hub) (e : Nat) : (h.raiseFm e).fw = h.fw := by
  unfold Hub.raiseFm; dsimp only; split_ifs <;> rfl
theorem Hub.raiseFm_mem (h : Hub) (e : Nat) : (h.raiseFm e).mem = h.mem := by
  unfold Hub.raiseFm; dsimp only; split_ifs <;> rfl
theorem Hub.raiseFm_reg (h : Hub) (e o : Nat) (ho : o < 0x200000) : (h.raiseFm e).reg o = h.reg o := by
  have hn : o ≠ (fmFlag e).off := by simp only [fmFlag, R.irq_FM_STATUS]; omega
  unfold Hub.raiseFm; dsimp only
  split_ifs
  · rfl
  · exact Hub.reg_setFld_ne _ _ _ _ hn
  · exact Hub.reg_setFld_ne _ _ _ _ hn

theorem Hub.raiseEvent_fw (h : Hub) (src : Option BenchId) (e : Nat) : (h.raiseEvent src e).1.fw = h.fw := by
  unfold Hub.raiseEvent; dsimp only
  split
  · exact Hub.raiseFm_fw h e
  · split_ifs
    · exact Hub.raiseFm_fw h e
    · exact Hub.raiseFm_fw h e
    · rw [Hub.interrupt_fw]; exact Hub.raiseFm_fw h e
theorem Hub.raiseEvent_mem (h : Hub) (src : Option BenchId) (e : Nat) : (h.raiseEvent src e).1.mem = h.mem := by
  unfold Hub.raiseEvent; dsimp only
  split
  · exact Hub.raiseFm_mem h e
  · split_ifs
    · exact Hub.raiseFm_mem h e
    · exact Hub.raiseFm_mem h e
    · rw [Hub.interrupt_mem]; exact Hub.raiseFm_mem h e
/-- An event changes no register below the interrupt unit's block. -/
theorem Hub.raiseEvent_reg (h : Hub) (src : Option BenchId) (e o : Nat) (ho : o < 0x200000) : (h.raiseEvent src e).1.reg o = h.reg o := by
  have hn : o ≠ (hostFlag e).off := by simp only [hostFlag, R.irq_HOST_STATUS]; omega
  unfold Hub.raiseEvent; dsimp only
  split
  · exact Hub.raiseFm_reg h e o ho
  · split_ifs
    · exact Hub.raiseFm_reg h e o ho
    · exact (Hub.reg_setFld_ne _ _ _ _ hn).trans (Hub.raiseFm_reg h e o ho)
    · show sparseGet _ _ _ = _
      rw [Hub.interrupt_regs]
      exact (Hub.reg_setFld_ne _ _ _ _ hn).trans (Hub.raiseFm_reg h e o ho)

/-- What a notice to a mailbox leaves as it is: memory, registers, held starts, and the firmware but for its mailboxes. -/
structure Hub.NoticeKeeps (h g : Hub) : Prop where
  mem : g.mem = h.mem
  regs : g.regs = h.regs
  busy : g.switchBusy = h.switchBusy
  starts : g.starts = h.starts
  fw : ∃ x, g.fw = { h.fw with mbx := x }

theorem Hub.NoticeKeeps.refl (h : Hub) : h.NoticeKeeps h := ⟨rfl, rfl, rfl, rfl, _, rfl⟩
theorem Hub.NoticeKeeps.trans {h g k : Hub} (a : h.NoticeKeeps g) (b : g.NoticeKeeps k) : h.NoticeKeeps k := by
  obtain ⟨x, hx⟩ := a.fw
  obtain ⟨y, hy⟩ := b.fw
  exact ⟨b.mem.trans a.mem, b.regs.trans a.regs, b.busy.trans a.busy, b.starts.trans a.starts, y, by rw [hy, hx]⟩
theorem Hub.NoticeKeeps.setMbx (h : Hub) (m : Nat) (b : Mailbox) : h.NoticeKeeps (h.setMbx m b) := ⟨rfl, rfl, rfl, rfl, _, rfl⟩
theorem Hub.NoticeKeeps.tick (h : Hub) (k : Nat) : h.NoticeKeeps (h.tick k) := ⟨rfl, rfl, rfl, rfl, _, rfl⟩
theorem Hub.NoticeKeeps.takeFree (h : Hub) : h.NoticeKeeps h.takeFree.2 := ⟨rfl, rfl, rfl, rfl, _, rfl⟩

theorem Hub.interrupt_keeps (h : Hub) (src : Option BenchId) (key vec : Nat) : h.NoticeKeeps (h.interrupt src key vec).1 := by
  unfold Hub.interrupt; dsimp only; split_ifs <;> exact ⟨rfl, rfl, rfl, rfl, _, rfl⟩
theorem Hub.raiseVector_keeps (h : Hub) (key vec : Nat) : h.NoticeKeeps (h.raiseVector key vec) := by
  have := Hub.interrupt_keeps h none key vec
  unfold Hub.raiseVector
  split <;> rename_i heq <;> rw [heq] at this
  · exact this.trans ⟨rfl, rfl, rfl, rfl, _, rfl⟩
  · exact this
theorem Hub.dbToHost_keeps (h : Hub) (m v : Nat) : h.NoticeKeeps (h.dbToHost m v) := by
  unfold Hub.dbToHost Hub.mbxInterrupt; dsimp only
  split_ifs
  · exact (Hub.NoticeKeeps.setMbx _ _ _).trans (Hub.raiseVector_keeps _ _ _)
  · exact Hub.NoticeKeeps.setMbx _ _ _
  · exact Hub.NoticeKeeps.setMbx _ _ _
theorem Hub.notice_keeps (h : Hub) (m k x : Nat) : h.NoticeKeeps (h.notice m k x) := by
  unfold Hub.notice; dsimp only
  split_ifs
  · exact .refl h
  · exact (Hub.NoticeKeeps.setMbx _ _ _).trans (.tick _ _)
  · exact (((Hub.NoticeKeeps.takeFree h).trans (.takeFree _)).trans (.setMbx _ _ _)).trans (Hub.dbToHost_keeps _ _ _)
theorem Hub.noticeManagers_keeps (h : Hub) (k x : Nat) : h.NoticeKeeps (h.noticeManagers k x) := by
  unfold Hub.noticeManagers
  generalize h.fw.managers = l
  induction l generalizing h with
  | nil => exact .refl h
  | cons a t ih => exact (Hub.notice_keeps h _ _ _).trans (ih _)
theorem Hub.eventNotice_keeps (h : Hub) (n : BenchId) (k : Nat) : h.NoticeKeeps (h.eventNotice n k) := by
  unfold Hub.eventNotice
  split_ifs
  · exact .refl h
  · split
    · exact Hub.noticeManagers_keeps _ _ _
    · exact (Hub.NoticeKeeps.takeFree h).trans (Hub.noticeManagers_keeps _ _ _)
    · exact Hub.noticeManagers_keeps _ _ _
    · exact .refl h
theorem Hub.NoticeKeeps.reg {h g : Hub} (a : h.NoticeKeeps g) (o : Nat) : g.reg o = h.reg o := by
  simp only [Hub.reg, a.regs]

theorem drainEvents_fw (n : BenchId) (l : List Nat) (h : Hub) : ∃ x, (drainEvents n h l).1.fw = { h.fw with mbx := x } := by
  induction l generalizing h with
  | nil => exact ⟨_, rfl⟩
  | cons k t ih =>
    obtain ⟨x, hx⟩ := ih ((h.raiseEvent (some n) (eventNumber n k)).1.eventNotice n k)
    obtain ⟨y, hy⟩ := (Hub.eventNotice_keeps (h.raiseEvent (some n) (eventNumber n k)).1 n k).fw
    exact ⟨x, by simp only [drainEvents]; rw [hx, hy, Hub.raiseEvent_fw]⟩
theorem drainEvents_mem (n : BenchId) (l : List Nat) (h : Hub) : (drainEvents n h l).1.mem = h.mem := by
  induction l generalizing h with
  | nil => rfl
  | cons k t ih => simp only [drainEvents]; rw [ih, (Hub.eventNotice_keeps _ n k).mem, Hub.raiseEvent_mem]
theorem drainEvents_reg (n : BenchId) (l : List Nat) (h : Hub) (o : Nat) (ho : o < 0x200000) :
    (drainEvents n h l).1.reg o = h.reg o := by
  induction l generalizing h with
  | nil => rfl
  | cons k t ih => simp only [drainEvents]; rw [ih, (Hub.eventNotice_keeps _ n k).reg, Hub.raiseEvent_reg _ _ _ _ ho]
theorem drainEvents_fld (n : BenchId) (l : List Nat) (h : Hub) (f : Fld) (ho : f.off < 0x200000) :
    (drainEvents n h l).1.fld f = h.fld f := by
  unfold Hub.fld; rw [drainEvents_reg _ _ _ _ ho]

theorem Hub.raise_fw (h : Hub) (e : Nat) : (h.raise e).fw = h.fw := by
  have := Hub.raiseEvent_fw h none e
  unfold Hub.raise
  split <;> rename_i heq <;> rw [heq] at this <;> exact this
theorem Hub.raise_mem (h : Hub) (e : Nat) : (h.raise e).mem = h.mem := by
  have := Hub.raiseEvent_mem h none e
  unfold Hub.raise
  split <;> rename_i heq <;> rw [heq] at this <;> exact this
theorem Hub.raise_reg (h : Hub) (e o : Nat) (ho : o < 0x200000) : (h.raise e).reg o = h.reg o := by
  have := Hub.raiseEvent_reg h none e o ho
  unfold Hub.raise
  split <;> rename_i heq <;> rw [heq] at this <;> exact this

/-! ## The combinators -/

theorem Device.bench_runBench_self (d : Device) (n : BenchId) (f : Bench → Bench) (hl : (d.bench n).live = true) :
    ∃ l, (d.runBench n f).bench n = (f (d.bench n)).afterEvents l := by
  unfold Device.runBench; rw [Device.bench_run_self]; simp only [hl, ↓reduceIte]; exact ⟨_, rfl⟩
theorem Device.bench_runBench_ne (d : Device) {n m : BenchId} (f : Bench → Bench) (e : m ≠ n) :
    (d.runBench n f).bench m = d.bench m := Device.bench_run_ne d _ e
theorem Device.bench_runLive_self (d : Device) (n : BenchId) (f : Hub → Bench → Hub × Bench) (hl : (d.bench n).live = true) :
    ∃ l, (d.runLive n f).bench n = (f d.hub (d.bench n)).2.afterEvents l := by
  unfold Device.runLive; rw [Device.bench_run_self]; simp only [hl, ↓reduceIte]; exact ⟨_, rfl⟩
theorem Device.bench_runLive_ne (d : Device) {n m : BenchId} (f : Hub → Bench → Hub × Bench) (e : m ≠ n) :
    (d.runLive n f).bench m = d.bench m := Device.bench_run_ne d _ e
/-- A bench command leaves the firmware's state as it was, but for notices in its mailboxes. -/
theorem Device.fw_runBench (d : Device) (n : BenchId) (f : Bench → Bench) :
    ∃ x, (d.runBench n f).hub.fw = { d.hub.fw with mbx := x } := by
  unfold Device.runBench; rw [Device.hub_run]; exact drainEvents_fw _ _ _

end Sys2Proof.Machine
end

