-- ==== Sys2Proof/Laws/Complete.lean ====
section
/-! SUPPORT. How a command built from one of the combinators completes: one lemma per combinator. -/
namespace Sys2Proof.Machine

theorem Device.onlyBench_runBench (s : State) (n : BenchId) (f : Bench → Bench) :
    OnlyBench n s { s with dev := s.dev.runBench n f } := by
  refine ⟨rfl, Device.fw_runBench _ _ _, ?_, ?_, ?_⟩
  · simp only [Device.runBench, Device.hub_run, drainEvents_mem]
  · intro o ho; simp only [Device.runBench, Device.hub_run, drainEvents_reg _ _ _ _ ho]
  · intro m hm; exact Device.bench_runBench_ne _ _ hm

/-- A command of a live bench. -/
theorem runs_onBench {c : Instr} {n : BenchId} {s : State} {f : Bench → Bench} {P : Bench → Prop}
    (he : exec c s = s.onBench n f) (hl : (s.dev.bench n).live = true)
    (hp : ∀ l, P ((f (s.dev.bench n)).afterEvents l)) : Runs c n s P := by
  refine ⟨_, he, Device.onlyBench_runBench s n f, rfl, ?_⟩
  obtain ⟨l, h⟩ := Device.bench_runBench_self s.dev n f hl
  rw [h]; exact hp l

/-- A command of a live bench, its bench given outright. -/
theorem leaves_onBench {c : Instr} {n : BenchId} {s : State} {f : Bench → Bench} {b : Bench}
    (he : exec c s = s.onBench n f) (hl : (s.dev.bench n).live = true)
    (hp : ∀ l, (f (s.dev.bench n)).afterEvents l = b.afterEvents l) : Leaves c n s b :=
  runs_onBench he hl (fun l => ⟨l, hp l⟩)

/-- A reading command of a live bench. -/
theorem answers_onRead {c : Instr} {n : BenchId} {s : State} {f : Bench → List Nat × Bench} {a : List Nat} {b : Bench}
    (he : exec c s = s.onRead n f) (hl : (s.dev.bench n).live = true)
    (ha : (f (s.dev.bench n)).1 = a) (hb : ∀ l, (f (s.dev.bench n)).2.afterEvents l = b.afterEvents l) :
    Answers c n s a b := by
  refine ⟨_, he, ?_, ?_, ?_⟩
  · obtain ⟨h1, h2, h3, h4, h5⟩ := Device.onlyBench_runBench s n (fun b => (f b).2)
    exact ⟨h1, h2, h3, h4, h5⟩
  · simp only [hl, ↓reduceIte, ha]
  · obtain ⟨l, h⟩ := Device.bench_runBench_self s.dev n (fun b => (f b).2) hl
    exact ⟨l, by rw [← hb]; exact h⟩

/-- A command of a bench in any state and the hub. -/
theorem runsBoth_onBoth {c : Instr} {n : BenchId} {s : State} {f : Hub → Bench → Hub × Bench} {P : Hub → Bench → Prop}
    (he : exec c s = s.onBoth n f)
    (hp : ∀ l, P (drainEvents n (f s.dev.hub (s.dev.bench n)).1 (f s.dev.hub (s.dev.bench n)).2.evq).1
      ((f s.dev.hub (s.dev.bench n)).2.afterEvents l)) : RunsBoth c n s P := by
  refine ⟨_, he, ⟨rfl, rfl, fun m hm => Device.bench_run_ne _ _ hm⟩, ?_⟩
  show P _ ((s.dev.run n f).bench n)
  rw [Device.bench_run_self]; exact hp _

/-- A command of a live bench and the hub. -/
theorem runsBoth_onLive {c : Instr} {n : BenchId} {s : State} {f : Hub → Bench → Hub × Bench} {P : Hub → Bench → Prop}
    (he : exec c s = s.onLive n f) (hl : (s.dev.bench n).live = true)
    (hp : ∀ l, P (drainEvents n (f s.dev.hub (s.dev.bench n)).1 (f s.dev.hub (s.dev.bench n)).2.evq).1
      ((f s.dev.hub (s.dev.bench n)).2.afterEvents l)) : RunsBoth c n s P := by
  refine runsBoth_onBoth (f := fun h b => if b.live then f h b else (h, b)) he ?_
  simp only [hl, ↓reduceIte]; exact hp

/-- A command of the hub alone. -/
theorem leavesHub_onHub {c : Instr} {s : State} {f : Hub → Hub} {h : Hub}
    (he : exec c s = s.onHub f) (hh : f s.dev.hub = h) : LeavesHub c s h := by
  unfold LeavesHub; rw [he]; unfold State.onHub Device.runHub; rw [hh]

theorem runsHub_onHub {c : Instr} {s : State} {f : Hub → Hub} {P : Hub → Prop}
    (he : exec c s = s.onHub f) (hp : P (f s.dev.hub)) : RunsHub c s P :=
  ⟨_, he, ⟨rfl, rfl, rfl⟩, hp⟩

end Sys2Proof.Machine
end

