-- ==== Sys2Proof/Laws/Hub.lean ====
section
/-! SUPPORT. Laws of the hub: events keep the held START writes, the writes of BENCH_CTL keep the Foreman, and an address of a bench's range
lies in that bench. -/
namespace Sys2Proof.Machine

theorem Hub.interrupt_starts (h : Hub) (src : Option BenchId) (key vec : Nat) :
    (h.interrupt src key vec).1.switchBusy = h.switchBusy ∧ (h.interrupt src key vec).1.starts = h.starts := by
  unfold Hub.interrupt; dsimp only; split_ifs <;> exact ⟨rfl, rfl⟩

theorem Hub.raiseFm_starts (h : Hub) (e : Nat) : (h.raiseFm e).switchBusy = h.switchBusy ∧ (h.raiseFm e).starts = h.starts := by
  unfold Hub.raiseFm; dsimp only; split_ifs <;> exact ⟨rfl, rfl⟩

theorem Hub.raiseEvent_starts (h : Hub) (src : Option BenchId) (e : Nat) :
    (h.raiseEvent src e).1.switchBusy = h.switchBusy ∧ (h.raiseEvent src e).1.starts = h.starts := by
  unfold Hub.raiseEvent; dsimp only
  split
  · exact Hub.raiseFm_starts h e
  · split_ifs
    · exact Hub.raiseFm_starts h e
    · exact Hub.raiseFm_starts h e
    · rw [(Hub.interrupt_starts _ _ _ _).1, (Hub.interrupt_starts _ _ _ _).2]; exact Hub.raiseFm_starts h e

theorem drainEvents_starts (n : BenchId) (l : List Nat) (h : Hub) :
    (drainEvents n h l).1.switchBusy = h.switchBusy ∧ (drainEvents n h l).1.starts = h.starts := by
  induction l generalizing h with
  | nil => exact ⟨rfl, rfl⟩
  | cons k t ih =>
    simp only [drainEvents]
    rw [(ih _).1, (ih _).2, (Hub.eventNotice_keeps _ n k).busy, (Hub.eventNotice_keeps _ n k).starts]
    exact Hub.raiseEvent_starts _ _ _

theorem Hub.startField_keeps (h : Hub) (held : Bool) (f : Fld) (v t : Nat) :
    (h.startField held f v t).fw = h.fw ∧ (h.startField held f v t).mem = h.mem ∧
      (h.startField held f v t).switchBusy = h.switchBusy ∧ (h.startField held f v t).starts = h.starts := by
  unfold Hub.startField; split_ifs <;> exact ⟨rfl, rfl, rfl, rfl⟩

theorem Hub.benchCtlFields_keeps (h : Hub) (n : BenchId) (held : Bool) (v : Nat) :
    (h.benchCtlFields n held v).fw = h.fw ∧ (h.benchCtlFields n held v).mem = h.mem ∧
      (h.benchCtlFields n held v).switchBusy = h.switchBusy ∧ (h.benchCtlFields n held v).starts = h.starts := by
  unfold Hub.benchCtlFields
  simp only [Hub.setFld, Hub.setReg, Hub.startField_keeps, and_self]

/-- Bits from `k` on of a value whose low two bits are replaced. -/
theorem getBits_putBits_low (v k w x : Nat) (hk : 2 ≤ k) : getBits (putBits v 0 2 x) k w = getBits v k w := by
  have := putBits_mod_high v 0 2 x k w (by omega)
  simpa [getBits] using this

/-- An offset of a bench's range is that bench's. -/
theorem whereIs_bench (n : BenchId) (o k : Nat) (ho : o < 0x10000000000) : whereIs (benchBase n + o) k = .bench n o := by
  have hn := n.isLt
  have e6 : (0x100000000000 + 0x10000000000 * n.val + o - 0x100000000000) / 0x10000000000 = n.val := by omega
  have e7 : (0x100000000000 + 0x10000000000 * n.val + o) % 0x10000000000 = o := by omega
  have e8 : benchOf n.val = n := by simp [benchOf, Fin.ext_iff]
  unfold whereIs benchBase
  simp only [Bool.and_eq_true, decide_eq_true_eq]
  rw [if_neg (by omega), if_neg (by omega), if_neg (by omega), if_pos (by omega), e6, e7, e8]

end Sys2Proof.Machine
end

