-- ==== Sys2Proof/Laws/Isolation.lean ====
section
/-! SUPPORT. Commands of one bench: what they do depends on that bench and the hub alone, and no other bench changes. One lemma per combinator. -/
namespace Sys2Proof.Machine

/-- Two devices that agree on the hub and a bench agree on both after a run of the bench. -/
theorem Device.run_agrees {d e : Device} {n : BenchId} (f : Hub → Bench → Hub × Bench) (hh : d.hub = e.hub) (hb : d.bench n = e.bench n) :
    (d.run n f).hub = (e.run n f).hub ∧ (d.run n f).bench n = (e.run n f).bench n := by
  rw [Device.hub_run, Device.hub_run, Device.bench_run_self, Device.bench_run_self, hh, hb]
  exact ⟨rfl, rfl⟩

/-- A command of bench `n` alone: from two states that agree on the hub and the bench it answers two that do, and it leaves every other bench. -/
def Isolated (c : Instr) (n : BenchId) : Prop := ∀ (s t : State), s.dev.hub = t.dev.hub → s.dev.bench n = t.dev.bench n →
  ∃ s' t', exec c s = .next s' ∧ exec c t = .next t' ∧ s'.dev.hub = t'.dev.hub ∧ s'.dev.bench n = t'.dev.bench n ∧
    s'.pending = s.pending ∧ t'.pending = t.pending ∧
    (∀ m, m ≠ n → s'.dev.bench m = s.dev.bench m) ∧ ∀ m, m ≠ n → t'.dev.bench m = t.dev.bench m

theorem isolated_onBoth {c : Instr} {n : BenchId} (f : Hub → Bench → Hub × Bench) (he : ∀ s, exec c s = s.onBoth n f) : Isolated c n := by
  intro s t hh hb
  have h := Device.run_agrees f hh hb
  exact ⟨{ s with dev := s.dev.run n f }, { t with dev := t.dev.run n f }, he s, he t, h.1, h.2, rfl, rfl,
    fun _ hm => Device.bench_run_ne _ _ hm, fun _ hm => Device.bench_run_ne _ _ hm⟩

theorem isolated_onBench {c : Instr} {n : BenchId} (f : Bench → Bench) (he : ∀ s, exec c s = s.onBench n f) : Isolated c n :=
  isolated_onBoth (fun h b => (h, if b.live then f b else b)) he

theorem isolated_onAwake {c : Instr} {n : BenchId} (f : Bench → Bench) (he : ∀ s, exec c s = s.onAwake n f) : Isolated c n :=
  isolated_onBoth (fun h b => (h, if b.awake then f b else b)) he

theorem isolated_onLive {c : Instr} {n : BenchId} (f : Hub → Bench → Hub × Bench) (he : ∀ s, exec c s = s.onLive n f) : Isolated c n :=
  isolated_onBoth (fun h b => if b.live then f h b else (h, b)) he

theorem isolated_onRead {c : Instr} {n : BenchId} (f : Bench → List Nat × Bench) (he : ∀ s, exec c s = s.onRead n f) : Isolated c n := by
  intro s t hh hb
  let g : Hub → Bench → Hub × Bench := fun h b => (h, if b.live then (f b).2 else b)
  have h := Device.run_agrees g hh hb
  exact ⟨_, _, he s, he t, h.1, h.2, rfl, rfl, fun _ hm => Device.bench_run_ne s.dev g hm, fun _ hm => Device.bench_run_ne t.dev g hm⟩

end Sys2Proof.Machine
end

