-- ==== Sys2Proof/Laws/Sceune.lean ====
section
/-! SUPPORT. How a Sceune command ends or goes on: one lemma per combinator (R486, R488). -/
namespace Sys2Proof.Machine

/-- What Ryuner does with a command that is taken. -/
theorem sceune_of_taken {s : State} {m op : Nat} {l : List Byte} {c : Sceune} {r : CmdRow} {hold : Sceune → Device → Bool}
    {f : Sceune → List Byte → Device → Ran} (ht : Taken s m op l c) (hr : cmdRow op = some r) (hh : hold c s.dev = false) :
    s.dev.sceune m op false hold f =
      if (f c l s.dev).wait then { (f c l s.dev).dev with hub := (f c l s.dev).dev.hub.sceuneBegun c l }
      else { (f c l s.dev).dev with hub := (f c l s.dev).dev.hub.sceuneEnd c (f c l s.dev).code (f c l s.dev).res c.rbuf } := by
  obtain ⟨h1, h2, h3, h4⟩ := ht
  obtain ⟨h5, h6⟩ := h4 r hr
  cases hk : r.haddr with
  | none =>
    simp only [hk, Option.isSome_none, Bool.false_eq_true, ↓reduceIte] at h6
    subst h6
    simp only [Device.sceune, h1, h2, hr, h3, h5, hk, hh, Bool.not_true, Bool.false_eq_true, ↓reduceIte]
  | some k =>
    simp only [hk, Option.isSome_some, ↓reduceIte] at h6
    obtain ⟨h7, h8⟩ := h6
    subst h8
    simp only [Device.sceune, h1, h2, hr, h3, h5, hk, hh, h7, Bool.not_true, Bool.false_eq_true, ↓reduceIte]

/-- A command that is taken ends with what its part answered. -/
theorem ends_of_taken {i : Instr} {s : State} {m op : Nat} {l : List Byte} {c : Sceune} {r : CmdRow}
    {f : Sceune → List Byte → Device → Ran} {d : Device} {code : Nat} {res : List Nat}
    (he : exec i s = s.onSceune m op false f) (ht : Taken s m op l c) (hr : cmdRow op = some r)
    (hf : f c l s.dev = ⟨code, res, d, false⟩) : Ends i s c d code res := by
  unfold Ends; rw [he]
  simp only [State.onSceune, sceune_of_taken (hold := fun _ _ => false) ht hr rfl, hf, Bool.false_eq_true, ↓reduceIte]

/-- A command that is taken has begun, and goes on. -/
theorem goes_of_taken {i : Instr} {s : State} {m op : Nat} {l : List Byte} {c : Sceune} {r : CmdRow}
    {f : Sceune → List Byte → Device → Ran} {d : Device} {code : Nat} {res : List Nat}
    (he : exec i s = s.onSceune m op false f) (ht : Taken s m op l c) (hr : cmdRow op = some r)
    (hf : f c l s.dev = ⟨code, res, d, true⟩) : Goes i s c d l := by
  unfold Goes; rw [he]
  simp only [State.onSceune, sceune_of_taken (hold := fun _ _ => false) ht hr rfl, hf, ↓reduceIte]

/-- A command that has begun ends with what its part answered. -/
theorem ends_of_resumed {i : Instr} {s : State} {m op : Nat} {c : Sceune} {r : CmdRow}
    {f : Sceune → List Byte → Device → Ran} {d : Device} {code : Nat} {res : List Nat}
    (he : exec i s = s.onSceune m op false f) (ht : Resumed s m op c) (hr : cmdRow op = some r)
    (hf : f c c.data s.dev = ⟨code, res, d, false⟩) : Ends i s c d code res := by
  obtain ⟨h1, h2, h3⟩ := ht
  unfold Ends; rw [he]
  simp only [State.onSceune, Device.sceune, h1, h2, hr, h3, hf, Bool.not_true, Bool.false_eq_true, ↓reduceIte]

/-- A command that has begun goes on with what it read. -/
theorem goes_of_resumed {i : Instr} {s : State} {m op : Nat} {c : Sceune} {r : CmdRow}
    {f : Sceune → List Byte → Device → Ran} {d : Device} {code : Nat} {res : List Nat}
    (he : exec i s = s.onSceune m op false f) (ht : Resumed s m op c) (hr : cmdRow op = some r)
    (hf : f c c.data s.dev = ⟨code, res, d, true⟩) : Goes i s c d c.data := by
  obtain ⟨h1, h2, h3⟩ := ht
  unfold Goes; rw [he]
  simp only [State.onSceune, Device.sceune, h1, h2, hr, h3, hf, Bool.not_true, Bool.false_eq_true, ↓reduceIte]

/-- A command whose turn has come and whose bound has passed ends with TIMEOUT. -/
theorem timeout_of_late {i : Instr} {s : State} {m op : Nat} {c : Sceune} {r : CmdRow}
    {f : Sceune → List Byte → Device → Ran} (he : exec i s = s.onSceune m op true f) (h1 : s.dev.hub.ryuner = true)
    (h2 : s.dev.hub.turn m op = some c) (hr : cmdRow op = some r) : Ends i s c s.dev rcTimeout [] := by
  unfold Ends; rw [he]
  simp only [State.onSceune, Device.sceune, h1, h2, hr, Bool.not_true, Bool.false_eq_true, ↓reduceIte, Ran.refuse]

/-- The part of a command on a live bench and the hub. -/
theorem Device.onLiveCmd_live {d : Device} {n : BenchId} {f : Hub → Bench → CmdOut} {code : Nat} {res : List Nat} {h : Hub} {b : Bench}
    {w : Bool} (hl : (d.bench n).live = true) (hf : f d.hub (d.bench n) = ⟨code, res, h, b, w⟩) :
    d.onLiveCmd n f = ⟨code, res, d.put n (h, b), w⟩ := by
  simp only [Device.onLiveCmd, Device.onCmd, Device.put, Device.run, hl, hf, CmdOut.both, ↓reduceIte]

/-- The part of a command on a bench that is not live. -/
theorem Device.onLiveCmd_dead {d : Device} {n : BenchId} (f : Hub → Bench → CmdOut) (hl : (d.bench n).live = false) :
    d.onLiveCmd n f = ⟨rcWrongState, [], d.put n (d.hub, d.bench n), false⟩ := by
  simp only [Device.onLiveCmd, Device.onCmd, Device.put, Device.run, hl, CmdOut.both, CmdOut.refuse, Bool.false_eq_true, ↓reduceIte]

end Sys2Proof.Machine
end

