-- ==== Sys2Proof/WellFormed.lean ====
section
/-! DEFINITION. Which commands are well formed: every operand within the range the spec gives it. -/
namespace Sys2Proof

/-- Every operand of the command lies in its range: a port below 4, a core or thread below 8, a flash channel below 2, a die below 16, a function
key below 8,192, a mailbox below 4,128 (16 PFs, 4,096 claims, 16 engine ports), a register instance below its count. [DESIGN CHOICE, log 4, safe] -/
def Instr.wf : Instr → Bool
  | .benchCtlStart _ _ => true
  | .benchCtlStop _ _ => true
  | .benchRailsRamped _ => true
  | .benchPllsLocked _ _ => true
  | .crossingTrained _ k _ => decide (k < 12)
  | .benchClearDone _ => true
  | .benchRunning _ => true
  | .drainLimitExpired _ => true
  | .drainComplete _ => true
  | .pllUnlock _ => true
  | .supplyFail _ => true
  | .benchSwitchTurn => true
  | .hostWindowStart _ _ _ => true
  | .flitReplay _ _ => true
  | .regWrite _ _ _ _ => true
  | .portEnable _ p _ => decide (p < 4)
  | .portDisable _ p _ => decide (p < 4)
  | .laneReset _ p _ => decide (p < 4)
  | .disableFrameEnd _ p => decide (p < 4)
  | .signalPresent _ p => decide (p < 4)
  | .signalLoss _ p => decide (p < 4)
  | .lockLoss _ p => decide (p < 4)
  | .attemptSucceeds _ p => decide (p < 4)
  | .attemptFails _ p => decide (p < 4)
  | .rxFrameStart _ p bytes phase => decide (p < 4 ∧ bytes ≠ [] ∧ phase < 16)
  | .rxHeaderPresent _ p => decide (p < 4)
  | .rxEndStatus _ p _ _ _ _ => decide (p < 4)
  | .stationCommit _ e _ => decide (e < 32)
  | .pauseFrameRx _ p quanta => decide (p < 4 ∧ quanta < 65536)
  | .pfcFrameRx _ p vec times => decide (p < 4 ∧ vec < 256 ∧ times.length = 8)
  | .pauseTimerExpired _ p cls => decide (p < 4 ∧ cls.getD 0 < 8)
  | .txFrame _ p phase _ => decide (p < 4 ∧ phase < 16)
  | .txUnderrun _ p _ => decide (p < 4)
  | .pauseRequestChange _ p => decide (p < 4)
  | .pauseRepeatTimer _ p => decide (p < 4)
  | .pauseModeChange _ p => decide (p < 4)
  | .timeSnap _ => true
  | .timeLoad _ => true
  | .timeAdjust _ => true
  | .timeIncrWrite _ _ _ => true
  | .freqCountDone _ count => decide (count < 2 ^ 32)
  | .ppsInEdge _ => true
  | .ppsOutRise _ => true
  | .ppsOutFall _ => true
  | .calComplete _ p => decide (p < 4)
  | .txTsRead _ p w => decide (p < 4 ∧ w < 4)
  | .ppsInTsRead _ w => decide (w < 3)
  | .freqCntRead _ => true
  | .sideFrameRx bytes _ _ => decide (bytes ≠ [])
  | .wakeMatch _ => true
  | .firstCutAdmit _ p _ => decide (p < 4)
  | .secondCutAdmit _ _ => true
  | .hostEntryAdmit _ _ => true
  | .graphArm _ _ => true
  | .nodeCommit _ i => decide (i < 256)
  | .startNodeWrite _ g _ => decide (g < 2)
  | .excClassWrite _ g _ => decide (g < 2)
  | .recipeWrite _ w _ => decide (w < 4096)
  | .hitBitmapRead _ off size => decide (off + size ≤ 8192 ∧ off % size = 0 ∧ (size = 1 ∨ size = 2 ∨ size = 4 ∨ size = 8))
  | .tableLookup _ _ => true
  | .tableRead _ _ => true
  | .tableInsert _ _ => true
  | .tableUpdate _ _ => true
  | .tableDelete _ _ => true
  | .tableMove _ _ => true
  | .tableClear _ => true
  | .tableOpDone _ => true
  | .sweepStart _ _ => true
  | .sweepStep _ _ => true
  | .sweepResume _ _ => true
  | .learnRecordReady _ => true
  | .learnPop _ => true
  | .genCtlSwap _ => true
  | .templateCommit _ i => decide (i < 1024)
  | .cipherBodyStep _ _ => true
  | .cipherVerdict _ _ _ => true
  | .cipherRestart _ => true
  | .cipherSelftestDone _ _ => true
  | .saCommit _ i => decide (i < 16384)
  | .saKeyZeroised _ i => decide (i < 16384)
  | .sideEnqueue _ _ => true
  | .schedDecision _ p _ => decide (p < 4)
  | .meterRefresh _ _ => true
  | .mtrCommit _ m => decide (m < 32768)
  | .qctxCommit _ q => decide (q < 8192)
  | .qctxClearHwm _ q => decide (q < 8192)
  | .gateCommit _ p => decide (p < 4)
  | .gateCancel _ p => decide (p < 4)
  | .gateTakeover _ p => decide (p < 4)
  | .gateEntryAdvance _ p => decide (p < 4)
  | .hostDeliveryTake _ => true
  | .hopperEnable _ _ => true
  | .hopperReady _ => true
  | .hopAllocLength _ _ => true
  | .hopAllocPool _ pool => decide (pool < 8)
  | .hopShare _ _ => true
  | .hopRelease _ _ => true
  | .hopFree _ _ => true
  | .hopGive _ _ => true
  | .alu _ c t _ => decide (c < 8 ∧ t < 8)
  | .addi _ c t _ => decide (c < 8 ∧ t < 8)
  | .andi _ c t _ => decide (c < 8 ∧ t < 8)
  | .ori _ c t _ => decide (c < 8 ∧ t < 8)
  | .xori _ c t _ => decide (c < 8 ∧ t < 8)
  | .slti _ c t _ => decide (c < 8 ∧ t < 8)
  | .sltiu _ c t _ => decide (c < 8 ∧ t < 8)
  | .shi _ c t _ => decide (c < 8 ∧ t < 8)
  | .movw _ c t _ => decide (c < 8 ∧ t < 8)
  | .ext _ c t _ => decide (c < 8 ∧ t < 8)
  | .exts _ c t _ => decide (c < 8 ∧ t < 8)
  | .ins _ c t _ => decide (c < 8 ∧ t < 8)
  | .ldl _ c t _ => decide (c < 8 ∧ t < 8)
  | .stl _ c t _ => decide (c < 8 ∧ t < 8)
  | .ldb _ c t _ => decide (c < 8 ∧ t < 8)
  | .stb _ c t _ => decide (c < 8 ∧ t < 8)
  | .ldd _ c t _ => decide (c < 8 ∧ t < 8)
  | .std _ c t _ => decide (c < 8 ∧ t < 8)
  | .lddl _ c t _ => decide (c < 8 ∧ t < 8)
  | .stdl _ c t _ => decide (c < 8 ∧ t < 8)
  | .aadd _ c t _ => decide (c < 8 ∧ t < 8)
  | .acas _ c t _ => decide (c < 8 ∧ t < 8)
  | .beq _ c t _ => decide (c < 8 ∧ t < 8)
  | .bne _ c t _ => decide (c < 8 ∧ t < 8)
  | .blt _ c t _ => decide (c < 8 ∧ t < 8)
  | .bge _ c t _ => decide (c < 8 ∧ t < 8)
  | .bltu _ c t _ => decide (c < 8 ∧ t < 8)
  | .bgeu _ c t _ => decide (c < 8 ∧ t < 8)
  | .jal _ c t _ => decide (c < 8 ∧ t < 8)
  | .jalr _ c t _ => decide (c < 8 ∧ t < 8)
  | .chrd _ c t _ => decide (c < 8 ∧ t < 8)
  | .chwr _ c t _ => decide (c < 8 ∧ t < 8)
  | .fork _ c t _ => decide (c < 8 ∧ t < 8)
  | .join _ c t _ => decide (c < 8 ∧ t < 8)
  | .wacq _ c t _ => decide (c < 8 ∧ t < 8)
  | .wrel _ c t _ => decide (c < 8 ∧ t < 8)
  | .top _ c t _ => decide (c < 8 ∧ t < 8)
  | .hop _ c t _ => decide (c < 8 ∧ t < 8)
  | .hsub _ c t _ => decide (c < 8 ∧ t < 8)
  | .waitc _ c t _ => decide (c < 8 ∧ t < 8)
  | .mfs _ c t _ => decide (c < 8 ∧ t < 8)
  | .notice _ c t _ => decide (c < 8 ∧ t < 8)
  | .trap _ c t _ => decide (c < 8 ∧ t < 8)
  | .halt _ c t _ => decide (c < 8 ∧ t < 8)
  | .illegalInstruction _ c t _ => decide (c < 8 ∧ t < 8)
  | .dramLoadReturn _ => true
  | .ticketComplete _ => true
  | .coreStart _ c => decide (c < 8)
  | .coreStop _ c => decide (c < 8)
  | .coreStopWalk _ c => decide (c < 8)
  | .threadTerminate _ c t => decide (c < 8 ∧ t < 8)
  | .threadResume _ c t => decide (c < 8 ∧ t < 8)
  | .chanCfgWrite _ k _ => decide (16 ≤ k ∧ k < 256)
  | .inboxDeliver _ c => decide (c < 8)
  | .stallWatch _ => true
  | .dbgStop _ _ c mask => decide (c < 8 ∧ mask < 256)
  | .dbgResume _ _ c mask => decide (c < 8 ∧ mask < 256)
  | .dbgStep _ _ c mask => decide (c < 8 ∧ mask < 256)
  | .linkTrainingStart _ => true
  | .linkL0 _ _ _ rate width _ _ _ _ => decide (rate < 4 ∧ width ≤ 2)
  | .linkRecovery _ _ _ => true
  | .linkLoss _ _ => true
  | .configRead key _ => decide (key < 8192)
  | .configWrite key _ _ => decide (key < 8192)
  | .bmeClear key => decide (key < 8192)
  | .bmeSet key => decide (key < 8192)
  | .flrStart key => decide (key < 8192)
  | .flrDone key => decide (key < 8192)
  | .hostMemRead key bar _ size _ buf _ => decide (key < 8192 ∧ bar < 3 ∧ size ≤ 4096 ∧ buf ≤ 4)
  | .hostMemWrite key bar _ _ _ _ buf _ => decide (key < 8192 ∧ bar < 3 ∧ buf ≤ 4)
  | .hostCompletion _ key _ _ status _ => decide (key < 8192 ∧ status < 8)
  | .readTimeout _ key _ => decide (key < 8192)
  | .tagQuarantineEnd _ key _ => decide (key < 8192)
  | .winCommit _ idx _ => decide (idx < 2048)
  | .vectorUnmask key vec => decide (key < 8192 ∧ vec < 2048)
  | .cfgReadySet _ => true
  | .readyForced _ => true
  | .pfD3hot key => decide (key < 8192)
  | .pfD0 key => decide (key < 8192)
  | .pmeTurnOff _ _ _ _ => true
  | .perstAssert _ => true
  | .perstRelease _ => true
  | .doorbellWrite key _ size _ _ _ => decide (key < 8192 ∧ 0 < size)
  | .ringFetch _ => true
  | .descArrive _ r => decide (r < 16384)
  | .descRefetch _ r => decide (r < 16384)
  | .completionWrite _ => true
  | .cqIntTimer _ q => decide (q < 16384)
  | .claimDrained _ i => decide (i < 256)
  | .quiesceLimitExpired _ i => decide (i < 256)
  | .claimResetDone _ i => decide (i < 256)
  | .haulSubmit _ => true
  | .haulCommandStart _ _ _ => true
  | .haulReadRequest _ _ _ => true
  | .haulWriteChunk _ _ _ => true
  | .haulCommandDone _ _ => true
  | .collectorExit _ => true
  | .flashIdentifyDone _ c _ _ _ _ _ => decide (c < 2)
  | .flashTrain _ c => decide (c < 2)
  | .flashTrainDone _ c _ => decide (c < 2)
  | .flashDb _ c _ => decide (c < 2)
  | .flashRingReset _ c => decide (c < 2)
  | .flashEntryReread _ c => decide (c < 2)
  | .flashOpFetch _ c => decide (c < 2)
  | .flashRead _ c d => decide (c < 2 ∧ d < 16)
  | .flashProgram _ c d _ => decide (c < 2 ∧ d < 16)
  | .flashErase _ c d => decide (c < 2 ∧ d < 16)
  | .flashReadRaw _ c d => decide (c < 2 ∧ d < 16)
  | .flashGetFeature _ c d => decide (c < 2 ∧ d < 16)
  | .flashSetFeature _ c d => decide (c < 2 ∧ d < 16)
  | .flashReadId _ c d => decide (c < 2 ∧ d < 16)
  | .flashReadParam _ c d => decide (c < 2 ∧ d < 16)
  | .flashRetire _ c d => decide (c < 2 ∧ d < 16)
  | .flashResetLun _ c d => decide (c < 2 ∧ d < 16)
  | .dieReady _ c d _ _ _ => decide (c < 2 ∧ d < 16)
  | .codewordDecoded _ c d cw _ _ _ _ => decide (c < 2 ∧ d < 16 ∧ cw < 8)
  | .dieOpTimeout _ c d => decide (c < 2 ∧ d < 16)
  | .flashDoneMsg _ c d => decide (c < 2 ∧ d < 16)
  | .xtsEnable _ ns => decide (ns < 64)
  | .xtsDisable _ ns => decide (ns < 64)
  | .xtsSlotZeroised _ ns => decide (ns < 64)
  | .nvmeRegAccess _ k off _ => decide (k < 64 ∧ off < 4096)
  | .nvmeCcWrite _ k _ => decide (k < 64)
  | .nvmeSqDoorbell _ k y _ => decide (k < 64 ∧ y < 64)
  | .nvmeCqDoorbell _ k y _ => decide (k < 64 ∧ y < 64)
  | .nvmeSqFetch _ => true
  | .nvmeCplCommit _ core t _ => decide (core < 8 ∧ t < 8)
  | .pwrfailFall => true
  | .flushDone _ _ => true
  | .flushWindowEnd => true
  | .pwrfailRise => true
  | .dramGo _ => true
  | .dramTrainDone _ _ => true
  | .dramFillDone _ => true
  | .dramRequestIssue _ _ => true
  | .dramReadComplete _ _ => true
  | .dramRefresh _ _ => true
  | .dramSrEntry _ => true
  | .dramAlert _ _ _ => true
  | .dramRetire _ slot => decide (slot < 4)
  | .dramMigStep _ _ => true
  | .mbxInPush m _ => decide (m < 4128)
  | .mbxOutPop m => decide (m < 4128)
  | .mbxAckRead m => decide (m < 4128)
  | .dbToFmWrite m _ => decide (m < 4128)
  | .dbToHostRaise m _ => decide (m < 4128)
  | .adminSqDoorbell m _ => decide (m < 4128)
  | .adminCqDoorbell m _ => decide (m < 4128)
  | .mbxGo m => decide (m < 4128)
  | .adminCommand m _ => decide (m < 4112)
  | .identify m => decide (m < 4128)
  | .noticeGet m => decide (m < 4128)
  | .adminCreate m => decide (m < 4128)
  | .adminDestroy m => decide (m < 4128)
  | .managerSet m => decide (m < 4128)
  | .eventRoute m => decide (m < 4128)
  | .tallyRead m => decide (m < 4128)
  | .benchStart m _ => decide (m < 4128)
  | .benchStop m _ => decide (m < 4128)
  | .benchStatus m => decide (m < 4128)
  | .graphLoad m _ => decide (m < 4128)
  | .ruleWrite m _ => decide (m < 4128)
  | .genSwap m => decide (m < 4128)
  | .tableOp m _ _ => decide (m < 4128)
  | .learnPolicy m => decide (m < 4128)
  | .learnPolicyApply _ _ => true
  | .tableSweep m => decide (m < 4128)
  | .portSet m => decide (m < 4128)
  | .tmWrite m _ => decide (m < 4128)
  | .gateLoad m _ => decide (m < 4128)
  | .timeCmd m => decide (m < 4128)
  | .keyLoad m _ => decide (m < 4128)
  | .saWrite m _ => decide (m < 4128)
  | .debugOpen m _ => decide (m < 4128)
  | .debugClose m => decide (m < 4128)
  | .attest m => decide (m < 4128)
  | .engineLoad m _ _ => decide (m < 4128)
  | .engineCtl m => decide (m < 4128)
  | .claimCreate m => decide (m < 4128)
  | .claimQuiesce m _ => decide (m < 4128)
  | .claimResume m => decide (m < 4128)
  | .claimReset m _ => decide (m < 4128)
  | .claimRemove m => decide (m < 4128)
  | .claimSetShare m => decide (m < 4128)
  | .windowSet m => decide (m < 4128)
  | .ringCreate m => decide (m < 4128)
  | .ringStart m => decide (m < 4128)
  | .ringStop m => decide (m < 4128)
  | .ringDestroy m => decide (m < 4128)
  | .ringSetStep m => decide (m < 4128)
  | .nvmeGrant m => decide (m < 4128)
  | .nvmeRemove m => decide (m < 4128)
  | .nsCreate m => decide (m < 4128)
  | .nsDelete m => decide (m < 4128)
  | .keyArchiveRestore _ => true
  | .fuseProgCmd _ k flips => decide (k < 16 ∧ flips < 2 ^ 256)
  | .lcSecure _ => true
  | .lcReturn _ => true
  | .lcScrap _ => true
  | .dbgCmdOpen _ => true
  | .dbgCmdClose _ k => decide (k < 16)
  | .dbgAcc _ _ _ => true
  | .svnAdvance => true
  | .sealEncrypt _ => true
  | .sealDecrypt _ => true
  | .sealUnwrap => true
  | .sealResult => true
  | .leakTick _ k => decide (k < 11)
  | .tallySnapshot _ _ _ _ => true
  | .porAssert _ => true
  | .porRelease _ _ _ _ => true
  | .bootSlotCheck _ _ => true
  | .hubFaultReset cause => decide (1 ≤ cause ∧ cause ≤ 3)
  | .foremanReset _ _ => true
  | .fmWdogKick _ => true
  | .fmWdogExpire _ _ => true
  | .thermalSensorRead temps => decide (temps.length = 17)
  | .anPageReceived _ p _ => decide (p < 4)
  | .rcRegisterRead _ _ _ => true
  | .hubPllLockRetry _ _ => true

end Sys2Proof
end

