-- ==== Sys2Proof/Tests/Slice0.lean ====
section
/-! SUPPORT. Small tests: the hypotheses of every statement are met by a concrete state, every check of WellFormed refuses an ill-formed term, and a few
results that the spec itself states are computed. Expected values come from spec/, not from the model. -/
open Sys2Proof Sys2Proof.Machine
set_option maxRecDepth 20000
set_option linter.unusedVariables false

/-! ## Small states -/

/-- A hub that is up, with an image running. -/
def tH : Hub := Hub.blank { Firmware.blank .fc Fuses.blank with por := false, hubUp := true, image := some ⟨0, 0, 0⟩, managers := [0] }
/-- A bench that is RUNNING with everything enabled. -/
def tB : Bench := Bench.blank ⟨.running, 0, 0, 0, true, true, true, true, true, false, false⟩ 0
/-- The device with a hub and bench 0. -/
def tS (h : Hub) (b : Bench) : State :=
  { State.reset with dev := { State.reset.dev with hub := h, benches := State.reset.dev.benches.set 0 b } }
/-- A bench with another state of its power domain. -/
def Sys2Proof.Machine.Bench.inSt (b : Bench) (st : BenchSt) : Bench := { b with power := { b.power with st := st } }
/-- A time stamp. -/
def tStamp : Stamp := ⟨true, false, 1, 2, 0, 0⟩
/-- A packet of 64 bytes with nothing about it. -/
def tPkt : Pkt :=
  { Pkt.fresh 1 .entry 0 0x8000000 0 64 with ended := true, ts := tStamp, wend := 64, tm := ⟨0, 0, none, 64, false, 0, 0⟩ }
/-- A bench whose port 0 is in a link state. -/
def Sys2Proof.Machine.Bench.portIn (b : Bench) (st : Nat) : Bench := b.setFld (R.face_PORT_STATUS_STATE 0) st
/-- A bench whose port 0 runs auto-negotiation. -/
def Sys2Proof.Machine.Bench.negotiating (b : Bench) : Bench := (b.setFld (R.face_PORT_CTL_IFACE 0) 1).setFld (R.face_PORT_CTL_AN_EN 0) 1
/-- A bench that holds packets. -/
def Sys2Proof.Machine.Bench.withPkts (b : Bench) (l : List Pkt) : Bench := { b with pkts := l, nextPid := 10 }
/-- A bench whose hopper works, with one buffer in each of pools 0 to 3. -/
def tPool : Bench :=
  { tB with regs := [(R.hopper_HOPPER_CTL, 3#32)] ++ (List.range 4).map (fun k => (R.hopper_POOL_COUNT k, 1#32)) ++ (List.range 4).map (fun k => (R.hopper_POOL_FREE k, 1#32)) }
/-- A slot image: table 0, both generations, a key of one byte. -/
def tImg : List Byte := [9#8] ++ List.replicate 47 0#8 ++ [1#8] ++ List.replicate 11 0#8 ++ leBytes 4 135
/-- A table operation by the registers on that image. -/
def tOp (op slot : Nat) : TableOp := ⟨.reg, op, slot, 0, tImg, List.replicate 12 0#8, 0, none⟩
/-- A bench at whose queue head an operation stands. -/
def Sys2Proof.Machine.Bench.asked (b : Bench) (o : TableOp) : Bench := { b with mt := { b.mt with opq := [o] } }
/-- A bench whose table holds the image. -/
def tTab : Bench := tB.placeSlot (slotIdx 0 (tB.candidate 0 0 [9#8]) 0) tImg false
/-- The slot that holds it. -/
def tSlot : Nat := slotIdx 0 (tB.candidate 0 0 [9#8]) 0
/-- A bench in which the two buckets of the image's key are full. -/
def Sys2Proof.Machine.Bench.fullBuckets (b : Bench) : Bench :=
  (slotsOf (b.probes 0 [9#8])).foldl (fun b i => b.setLe (slotAddr i + 60) 1 1) b
/-- The image for generation 1 alone. -/
def tImgOld : List Byte := putAt tImg 60 (leBytes 4 133)
/-- A bench whose table holds it, while packets of generation 1 are in flight. -/
def tTabOld : Bench :=
  ((tB.placeSlot tSlot tImgOld false).setFld R.graph_GRAPH_CTL_ARMED 1).setFld (R.action_INFLIGHT_COUNT 1) 1
/-- A learn record. -/
def tRec : LearnRec := ⟨none, false, [9#8], tStamp, 0, false, 0, false, 1, 0, 0, 0⟩
/-- A bench that has a learn record at the head of its queue. -/
def Sys2Proof.Machine.Bench.learned (b : Bench) (r : LearnRec) : Bench := { b with mt := { b.mt with learnq := [r] } }
/-- A bench whose learn filter holds that record's key. -/
def Sys2Proof.Machine.Bench.filtering (b : Bench) : Bench :=
  { b with mt := { b.mt with filter := [{ key := tRec.key, table := tRec.table, source := tRec.source, expiry := 10 }] } }
/-- A job of the inline cipher. -/
def tJob (enc : Bool) : CipherJob := ⟨enc, 0, 7, 0, 0, [], 0, 32, 32, 32, 0, [], [], none, [], none, 0, false, 0⟩
/-- A bench whose cipher works on a packet of a number of bytes. -/
def tCi (enc : Bool) (len : Nat) : Bench :=
  let b := tB.withPkts [{ tPkt with len := len, jobs := [tJob enc] }]
  { b with ci := { b.ci with queue := [(enc, 1)] } }
/-- The same while the packets' ends are not known. -/
def Sys2Proof.Machine.Bench.unended (b : Bench) : Bench := { b with pkts := b.pkts.map (fun p => { p with ended := false }) }
/-- A bench that names a record by HOP_ARG. -/
def tRecAt (st owner last refs : Nat) : Bench := (tPool.setReg R.hopper_HOP_ARG 0x8000000#32).setRec 0x800000 st owner last refs 1 0
/-- A bench with a shadow gate list of one entry. -/
def Sys2Proof.Machine.Bench.gateShadowed (b : Bench) (p : Nat) : Bench := (b.setFld (R.tm_GATE_SHADOW_LEN_LEN p) 1).setLe (gateShadow p) 8 (2 ^ 32)
/-- A word of an engine instruction: OP, RD, RA and the bits below. -/
def tWd (op rd ra low : Nat) : Nat := op * 2 ^ 26 + rd * 2 ^ 21 + ra * 2 ^ 16 + low
/-- A bench whose thread `8c + t` stands, with these registers, on a word. -/
def tRun (c t w : Nat) (regs : List (Nat × DWord)) : Bench :=
  ((tB.setFld (R.engine_CORE_STATUS_STATE c) 1).setThr (8 * c + t) { Thread.free with st := 1, regs := regs }).setLe 0x7000000 4 w
/-- A bench with its DRAM ready. -/
def Sys2Proof.Machine.Bench.withDram (b : Bench) : Bench := (b.setFld R.dram_DRAM_STATUS_STATE dramReady).setFld R.dram_DRAM_CFG_RANKS 1
/-- A bench with a request of its DRAM at the head. -/
def Sys2Proof.Machine.Bench.reqs (b : Bench) (r : DramReq) : Bench := { b with dram := { b.dram with reqs := [r] } }
/-- The device with a hub and benches 0 and 1. -/
def tS2 (h : Hub) (b c : Bench) : State := let s := tS h b; { s with dev := { s.dev with benches := s.dev.benches.set 1 c } }
/-- A hub whose link is in a state. -/
def Sys2Proof.Machine.Hub.linkIn (h : Hub) (l st : Nat) : Hub := h.setFld (R.ep_LINK_STATUS_STATE (l / 2) (l % 2)) st
/-- A hub that serves PF 0 of port 0, which masters the bus. -/
def tHost : Hub :=
  ((((tH.linkIn 0 2).setFld R.pcr_CFG_READY_READY 3).setFld (R.ep_FN_CFG_ENABLE 0 0) 1).setFld (R.ep_FN_VEC_PF_VECTORS 0 0) 4).setFn 0 { FnSt.reset with bme := true, msixEn := true }
/-- A claim of that function over rings 0 to 15. -/
def tClaim (st : Nat) : Claim := ⟨st, 0, none, 0, 16, 8, 1, 0, 1, false, 10, false, []⟩
/-- A bench with the claim. -/
def Sys2Proof.Machine.Bench.claimed (b : Bench) (c : Claim) : Bench := { b with rings := { b.rings with claims := [(0, c)] } }
/-- A host read outstanding. -/
def tRead (retryOk retried : Bool) : HostRead := ⟨0, none, 3, 10, .desc 0, 0, 0, 64, [], 0, retryOk, retried, false, false⟩
/-- A bench with a host read outstanding. -/
def tReads (r : HostRead) : Bench := { tB.claimed (tClaim 1) with reads := [r] }
/-- A running ring 0 of a kind, of 8 entries, with one entry to fetch, bound to ring 1. -/
def tRing (kind : Nat) : Bench :=
  (((tB.claimed (tClaim 1)).setMbits (ringAddr 0) 64 30 (kind + 2 ^ 4 * 3 + 2 ^ 8 * 2 + 2 ^ 18 * 7)).setMbits (ringAddr 0) 96 14 1).setMbits (ringAddr 0) 128 16 1
/-- A bench with a started haul command of a channel. -/
def tCmd (chan op : Nat) : HaulCmd := { HaulCmd.fresh 0 chan 0 none 0 [op, 64] none with started := true }
/-- A bench with haul commands. -/
def Sys2Proof.Machine.Bench.hauls (b : Bench) (l : List HaulCmd) : Bench := { b with haul := { b.haul with cmds := l } }
/-- A bench with completions in its collector or on the way out. -/
def Sys2Proof.Machine.Bench.withCpls (b : Bench) (l : List Cpl) : Bench := { b with rings := { b.rings with cpls := l } }
/-- A bench with descriptor fetches. -/
def Sys2Proof.Machine.Bench.withFetch (b : Bench) (f : Fetch) : Bench := { b with rings := { b.rings with fetches := [f] } }
/-- A posted write of function 0. -/
def tTlp : Tlp := ⟨.write, 0, 0, [1#8], 0, 0, none, false, 0, none⟩
/-- An entry of a flash operation ring for die 0: OP, PLANES, ROW, MASK and the phase. -/
def tFe (op planes row mask : Nat) : List Byte :=
  leBytes 4 (op + 256 * planes) ++ leBytes 4 row ++ leBytes 4 mask ++ List.replicate 48 0#8 ++ leBytes 4 (2 ^ 31)
/-- A flash operation. -/
def tFop (e : List Byte) (started busy : Bool) : FlashOp :=
  { chan := 1, index := 0, entry := e, started := started, busy := busy, step := 0, good := [], bad := [], goodStep := 0, bits := 0
    fails := 0, timeouts := 0, word2 := 0, haul := 0, count := 0, uncorr := 0, status := none }
/-- A bench whose flash channel 1 is UP with die 0, and which holds operations. -/
def tFlash (l : List FlashOp) : Bench :=
  let b := (((tB.setFld (R.storage_FLASH_STATUS_STATE 1) fsUp).setFld (R.storage_DIE_INFO_INFO 1 0) 1).setFld (R.storage_GEOMETRY_PLANES 1) 1).setFld (R.storage_GEOMETRY2_PAGES 1) 8
  let b := b.setFld (R.storage_GEOMETRY_BLOCKS 1) 4
  { b with sto := { b.sto with ops := l } }
/-- One that has an entry to fetch. -/
def tFring (e : List Byte) (reread : Bool) : Bench :=
  ((tFlash []).setFchan 1 { FlashChan.idle with prod := (1, 1), reread := reread }).setBytes 0x6000000 e
/-- A bench with NVMe controller 63 on the claim, an SQ on ring 0 and a CQ on ring 1. -/
def tNvme (cc : Nat) : Bench :=
  ((((tRing 4).setMbits (ringAddr 1) 64 30 (5 + 2 ^ 8 * 2 + 2 ^ 18 * 7)).setFld (R.storage_NVME_CTRL_VALID 63) 1).setFld (R.storage_NVME_CTRL_CLAIM 63) 0).setNpage 63 { NvmePage.blank with cc := cc }
/-- A bench whose DRAM is in a state. -/
def Sys2Proof.Machine.Bench.dramIn (b : Bench) (st : Nat) : Bench := b.setFld R.dram_DRAM_STATUS_STATE st
/-- A Sceune command of PF mailbox 0. -/
def tSc (op : Nat) (ops : List Nat) (begun : Bool) : Sceune :=
  { id := 0, mbx := 0, admin := false, cmdId := 0, opcode := op, ops := ops, asked := 0, parts := [], failed := false, data := [], sqPos := (0, 0)
    begun := begun, dead := false }
/-- The command when these bytes have arrived. -/
def Sys2Proof.Machine.Sceune.reading (c : Sceune) (l : List Byte) : Sceune := { c with asked := l.length, parts := [(0, l)] }
/-- A hub that has accepted the command. -/
def Sys2Proof.Machine.Hub.ask (h : Hub) (c : Sceune) : Hub := { h with fw := { h.fw with cmds := [c] } }
/-- An admin queue pair with one entry waiting. -/
def tAdmin : AdminPair := ⟨0, 0, 3, 3, 0, (1, 1), (0, 1), (0, 1), (0, 1), .idle, false, []⟩
/-- Mailbox 0 of the function. -/
def tMbx : Mailbox := Mailbox.reset true 0 none
/-- Bytes with a checksum at `o`. -/
def tSummed (l : List Byte) (o : Nat) : List Byte := putAt l o (leBytes 4 (imageCrc l o))
/-- A graph image of one node. -/
def tGraph : List Byte := tSummed (leBytes 4 0x47545543 ++ leBytes 4 0x10001 ++ List.replicate 92 0#8) 16
/-- An engine image of one section. -/
def tEng : List Byte := tSummed (leBytes 4 0x49474E45 ++ leBytes 4 0x10001 ++ List.replicate 40 0#8 ++ leBytes 4 1 ++ leBytes 4 0 ++ leBytes 4 4 ++ leBytes 4 64 ++ leBytes 4 7) 12

/-- A checkable form of `Taken`. -/
theorem taken_of {s : State} {m op : Nat} {l : List Byte} {c : Sceune}
    (h : (s.dev.hub.ryuner && decide (s.dev.hub.turn m op = some c) && !c.begun &&
      (match cmdRow op with
        | some r => decide (s.dev.generalCode c r = none) && (if r.haddr.isSome then c.readDone && decide (l = c.block) else decide (l = []))
        | none => true)) = true) : Taken s m op l c := by
  simp only [Bool.and_eq_true, decide_eq_true_eq, Bool.not_eq_true'] at h
  refine ⟨h.1.1.1, h.1.1.2, h.1.2, fun r hr => ?_⟩
  have h2 := h.2
  rw [hr] at h2
  simp only [Bool.and_eq_true, decide_eq_true_eq] at h2
  refine ⟨h2.1, ?_⟩
  by_cases hh : r.haddr.isSome
  · have h3 := h2.2
    simp only [hh, if_true, Bool.and_eq_true, decide_eq_true_eq] at h3 ⊢
    exact h3
  · have h3 := h2.2
    simp only [hh, Bool.false_eq_true, if_false, decide_eq_true_eq] at h3 ⊢
    exact h3
/-- A free index exists wherever the list of the free ones is not empty, whatever the free value is. -/
theorem anyOf_exists (b : Bench) (l : List Nat) (h : l ≠ []) : ∃ i, b.anyOf l = some i :=
  ⟨_, List.getElem?_eq_getElem (Nat.mod_lt _ (List.length_pos_iff.2 h))⟩

/-- The same for whether a tag is free. -/
theorem freeTag_isSome (b : Bench) (w : Bool) (f n : Nat) :
    (b.freeTag w f n).isSome = !((List.range n).filter (fun t => !b.tagTaken w f t)).isEmpty := by
  unfold Bench.freeTag
  cases h : (List.range n).filter (fun t => !b.tagTaken w f t) with
  | nil => simp [Bench.anyOf]
  | cons a l => obtain ⟨i, hi⟩ := anyOf_exists b (a :: l) (by simp); rw [hi]; rfl
/-- The one buffer of a pool is the one that is picked. -/
theorem pickFree_one (b : Bench) (k : Nat) (h : b.poolCount k = 1) (h2 : b.freeFrom k 1 0 = some 0) : b.pickFree k = some 0 := by
  simp [Bench.pickFree, h, Nat.mod_one, h2]

/-- The hypotheses of EmptyQueueCountsOneCycle are met, clause by clause. -/
theorem witness_EmptyQueueCountsOneCycle :
    (∃ (s : State), s.pending = []) :=
  ⟨tS tH tB, by decide⟩

/-- The hypotheses of BenchControl are met, clause by clause. -/
theorem witness_BenchControl :
    (∃ (n : BenchId) (v : Word) (s : State), s.dev.hub.up = true ∧ (((s.dev.bench n).power.st = .off ∨ (s.dev.bench n).power.st = .fault)) ∧ s.dev.hub.switchBusy = false ∧ s.dev.hub.starts = [] ∧ (s.dev.hub.benchCtlFields n false (putBits v.toNat 0 2 1)).startValid n = true) ∧
    (∃ (n : BenchId) (v : Word) (s : State), s.dev.hub.up = true ∧ (((s.dev.bench n).power.st = .off ∨ (s.dev.bench n).power.st = .fault)) ∧ s.dev.hub.switchBusy = false ∧ s.dev.hub.starts = [] ∧ (s.dev.hub.benchCtlFields n false (putBits v.toNat 0 2 1)).startValid n = true) ∧
    (∃ (n : BenchId) (v : Word) (s : State), s.dev.hub.up = true ∧ (((s.dev.bench n).power.st = .off ∨ (s.dev.bench n).power.st = .fault)) ∧ s.dev.hub.switchBusy = false ∧ s.dev.hub.starts = [] ∧ (s.dev.hub.benchCtlFields n false (putBits v.toNat 0 2 1)).startValid n = false) ∧
    (∃ (n : BenchId) (v : Word) (s : State), s.dev.hub.up = true ∧ (((s.dev.bench n).live = true ∨ (s.dev.bench n).power.st = .starting))) ∧
    (∃ (n : BenchId) (v : Word) (s : State), s.dev.hub.up = true ∧ (((s.dev.bench n).live = true ∨ (s.dev.bench n).power.st = .starting))) ∧
    (∃ (n : BenchId) (v : Word) (s : State), s.dev.hub.up = true ∧ (((s.dev.bench n).power.st = .off ∨ (s.dev.bench n).power.st = .fault)) ∧ ((s.dev.hub.switchBusy = true ∨ s.dev.hub.starts ≠ []))) ∧
    (∃ (n : BenchId) (v : Word) (s : State), s.dev.hub.up = true ∧ (s.dev.bench n).power.st = .running) ∧
    (∃ (n : BenchId) (v : Word) (s : State), s.dev.hub.up = true ∧ (s.dev.bench n).power.st = .running) ∧
    (∃ (n : BenchId) (v : Word) (s : State), s.dev.hub.up = true ∧ (((s.dev.bench n).power.st = .off ∨ (s.dev.bench n).power.st = .draining))) ∧
    (∃ (n : BenchId) (v : Word) (s : State), s.dev.hub.up = true ∧ (((s.dev.bench n).power.st = .off ∨ (s.dev.bench n).power.st = .draining))) ∧
    (∃ (n : BenchId) (v : Word) (s : State), s.dev.hub.up = true ∧ (((s.dev.bench n).power.st = .starting ∨ (s.dev.bench n).power.st = .fault))) ∧
    (∃ (n : BenchId) (v : Word) (s : State), s.dev.hub.up = true ∧ (((s.dev.bench n).power.st = .starting ∨ (s.dev.bench n).power.st = .fault))) ∧
    (∃ (s : State), s.dev.hub.starts = []) ∧
    (∃ (n : BenchId) (v : Nat) (s : State), s.dev.hub.starts = [(n.val, v)] ∧ (s.dev.bench n).power.st = .off ∧ bit v 0 = true ∧ bit v 1 = false ∧ (s.dev.hub.benchCtlFields n false v).startValid n = true) :=
  ⟨⟨0, 0x800#32, tS tH (tB.inSt .off), by decide, by decide, by decide, by decide, by decide⟩,
   ⟨0, 0x800#32, tS tH (tB.inSt .fault), by decide, by decide, by decide, by decide, by decide⟩,
   ⟨0, 0x300#32, tS tH (tB.inSt .off), by decide, by decide, by decide, by decide, by decide⟩,
   ⟨0, 0x800#32, tS tH tB, by decide, by decide⟩,
   ⟨0, 0x800#32, tS tH (tB.inSt .starting), by decide, by decide⟩,
   ⟨0, 0x800#32, tS { tH with switchBusy := true } (tB.inSt .off), by decide, by decide, by decide⟩,
   ⟨0, 0x2000#32, tS (tH.setFld (R.pcr_BENCH_DRAIN_LIMIT_LIMIT_US 0) 5) tB, by decide, by decide⟩,
   ⟨0, 0#32, tS (tH.setFld (R.pcr_BENCH_DRAIN_LIMIT_LIMIT_US 0) 0) tB, by decide, by decide⟩,
   ⟨0, 0#32, tS tH (tB.inSt .off), by decide, by decide⟩,
   ⟨0, 0#32, tS tH (tB.inSt .draining), by decide, by decide⟩,
   ⟨0, 0#32, tS tH (tB.inSt .starting), by decide, by decide⟩,
   ⟨0, 0#32, tS tH (tB.inSt .fault), by decide, by decide⟩,
   ⟨tS tH tB, by decide⟩,
   ⟨0, 0x801, tS { tH with starts := [(0, 0x801)] } (tB.inSt .off), by decide, by decide, by decide, by decide, by decide⟩⟩

/-- The hypotheses of StepsOfAStart are met, clause by clause. -/
theorem witness_StepsOfAStart :
    (∃ (n : BenchId) (s : State), (s.dev.bench n).power.st = .starting) ∧
    (∃ (n : BenchId) (s : State), (s.dev.bench n).power.st = .starting ∧ (s.dev.bench n).power.railsUp = true ∧ (s.dev.bench n).power.pllsUp = false) ∧
    (∃ (n : BenchId) (s : State), (s.dev.bench n).power.st = .starting ∧ (s.dev.bench n).power.railsUp = true ∧ (s.dev.bench n).power.pllsUp = false) ∧
    (∃ (n : BenchId) (k : Nat) (s : State), (s.dev.bench n).power.st = .starting ∧ k < 12 ∧ (s.dev.bench n).fld (R.bench_XING_LAT_XSTATE k) = 1) ∧
    (∃ (n : BenchId) (k : Nat) (s : State), (s.dev.bench n).power.st = .starting ∧ k < 12 ∧ (s.dev.bench n).fld (R.bench_XING_LAT_XSTATE k) = 1) ∧
    (∃ (n : BenchId) (s : State), (s.dev.bench n).power.st = .starting ∧ (s.dev.bench n).crossed = true ∧ (s.dev.bench n).power.cleared = false) ∧
    (∃ (n : BenchId) (s : State), (s.dev.bench n).power.st = .starting ∧ (s.dev.bench n).startDone = true) :=
  ⟨⟨0, tS tH (tB.inSt .starting), by decide⟩,
   ⟨0, tS tH { tB with power := ⟨.starting, 0, 0, 0, true, true, true, false, false, false, false⟩ }, by decide, by decide, by decide⟩,
   ⟨0, tS tH { tB with power := ⟨.starting, 0, 0, 0, true, true, true, false, false, false, false⟩ }, by decide, by decide, by decide⟩,
   ⟨0, 3, tS tH ((tB.inSt .starting).setFld (R.bench_XING_LAT_XSTATE 3) 1), by decide, by decide, by decide⟩,
   ⟨0, 3, tS tH ((tB.inSt .starting).setFld (R.bench_XING_LAT_XSTATE 3) 1), by decide, by decide, by decide⟩,
   ⟨0, tS tH { tB with power := ⟨.starting, 0, 0, 0, true, true, true, true, false, false, false⟩, regs := (List.range 12).map (fun k => (R.bench_XING_LAT k, 0x200#32)) }, by decide, by decide, by decide⟩,
   ⟨0, tS tH ({ tB with power := ⟨.starting, 0, 0, 0, false, false, true, true, true, false, false⟩ }), by decide, by decide⟩⟩

/-- The hypotheses of DrainAndFailure are met, clause by clause. -/
theorem witness_DrainAndFailure :
    (∃ (n : BenchId) (s : State), (s.dev.bench n).power.st = .draining) ∧
    (∃ (n : BenchId) (s : State), (s.dev.bench n).power.st = .draining ∧ (s.dev.bench n).drained = true) ∧
    (∃ (n : BenchId) (s : State), (s.dev.bench n).up = true) ∧
    (∃ (n : BenchId) (s : State), (s.dev.bench n).up = true) ∧
    (∃ (n : BenchId) (s : State), (s.dev.bench n).power.st = .off) :=
  ⟨⟨0, tS tH (tB.inSt .draining), by decide⟩,
   ⟨0, tS tH (tB.inSt .draining), by decide, by decide⟩,
   ⟨0, tS tH tB, by decide⟩,
   ⟨0, tS tH tB, by decide⟩,
   ⟨0, tS tH (tB.inSt .off), by decide⟩⟩

/-- The hypotheses of PowerOnAndBoot are met, clause by clause. -/
theorem witness_PowerOnAndBoot :
    (∃ (x : Bool) (y : Bool) (s : State), s.dev.hub.fw.por = true ∧ s.dev.hub.fw.pwrfail = false ∧ s.dev.hub.crossFailed = false) ∧
    (∃ (x : Bool) (y : Bool) (l : List (Fin 6)) (s : State), s.dev.hub.fw.por = true ∧ s.dev.hub.fw.pwrfail = false ∧ s.dev.hub.fw.hubUp = false) ∧
    (∃ (s : State), s.dev.hub.fw.por = false ∧ s.dev.hub.fw.hubUp = false ∧ s.dev.hub.crossFailed = false) ∧
    (∃ (a : Option (List Byte)) (b : Option (List Byte)) (s : State), s.dev.hub.up = true ∧ s.dev.hub.fw.locked = false) ∧
    (∃ (cause : Nat) (s : State), s.dev.hub.fw.por = false ∧ 1 ≤ cause ∧ cause ≤ 3) ∧
    (∃ (s : State), s.dev.hub.up = true) :=
  ⟨⟨true, true, tS { tH with fw := { tH.fw with por := true } } tB, by decide, by decide, by decide⟩,
   ⟨true, true, [], tS { tH with fw := { tH.fw with por := true, hubUp := false } } tB, by decide, by decide, by decide⟩,
   ⟨tS { tH with fw := { tH.fw with hubUp := false } } tB, by decide, by decide, by decide⟩,
   ⟨none, none, tS tH tB, by decide, by decide⟩,
   ⟨3, tS tH tB, by decide, by decide, by decide⟩,
   ⟨tS tH tB, by decide⟩⟩

/-- The hypotheses of ForemanAndItsWatchdog are met, clause by clause. -/
theorem witness_ForemanAndItsWatchdog :
    (∃ (c : Instr) (l : List Byte) (b : Option (List Byte)) (s : State), s.dev.hub.up = true ∧ ((c = .foremanReset (some l) b ∧ s.dev.hub.flag R.dbg_DBG_SESSION_FULL = true) ∨ (c = .fmWdogExpire (some l) b ∧ s.dev.hub.flag R.pcr_FM_WDOG_EN = true ∧ s.dev.hub.fld R.pcr_FM_WDOG_PERIOD * ticksPerMs ≤ s.dev.hub.fw.wdog))) ∧
    (∃ (a : Option (List Byte)) (b : Option (List Byte)) (s : State), s.dev.hub.fw.wdog < s.dev.hub.fld R.pcr_FM_WDOG_PERIOD * ticksPerMs) ∧
    (∃ (v : Word) (s : State), s.dev.hub.up = true) :=
  ⟨⟨.fmWdogExpire (some []) none, [], none, tS ({ tH with fw := { tH.fw with wdog := 1250000 } }.setReg R.pcr_FM_WDOG 0x10001#32) tB, by decide, by decide⟩,
   ⟨none, none, tS (tH.setReg R.pcr_FM_WDOG 0x10001#32) tB, by decide⟩,
   ⟨0#32, tS tH tB, by decide⟩⟩

/-- The hypotheses of ThermalAndErrorCounters are met, clause by clause. -/
theorem witness_ThermalAndErrorCounters :
    (∃ (temps : List (BitVec 12)) (s : State), s.dev.hub.up = true) ∧
    (∃ (temps : List (BitVec 12)) (s : State), s.dev.hub.up = true ∧ s.dev.hub.flag R.pcr_THERM_STATUS_TRIPPED = false ∧ s.dev.hot temps (tripPoint s.dev.hub.fw.part) ≠ []) ∧
    (∃ (n : BenchId) (k : Nat) (s : State), (s.dev.bench n).live = true ∧ k < 7 ∧ (s.dev.bench n).cyc % 2 ^ (s.dev.bench n).fld (R.err_CE_CFG_LEAK_SHIFT k) = 0) ∧
    (∃ (n : BenchId) (k : Nat) (s : State), (s.dev.bench n).live = true ∧ k < 7 ∧ (s.dev.bench n).cyc % 2 ^ (s.dev.bench n).fld (R.err_CE_CFG_LEAK_SHIFT k) = 0) ∧
    (∃ (n : BenchId) (k : Nat) (s : State), (s.dev.bench n).live = true ∧ k < 7 ∧ (s.dev.bench n).cyc % 2 ^ (s.dev.bench n).fld (R.err_CE_CFG_LEAK_SHIFT k) ≠ 0) ∧
    (∃ (n : BenchId) (k : Nat) (s : State), (s.dev.bench n).live = true ∧ (s.dev.bench n).leakDue k = true) ∧
    (∃ (k : Nat) (s : State), s.dev.hub.up = true ∧ s.dev.hub.leakDue k = true) :=
  ⟨⟨[], tS tH tB, by decide⟩,
   ⟨[0x1CC#12], tS tH tB, by decide, by decide, by decide⟩,
   ⟨0, 6, tS tH tB, by decide, by decide, by decide⟩,
   ⟨0, 0, tS tH { tB with cyc := 2 ^ 24 }, by decide, by decide, by decide⟩,
   ⟨0, 0, tS tH { tB with cyc := 3 }, by decide, by decide, by decide⟩,
   ⟨0, 10, tS tH tB, by decide, by decide⟩,
   ⟨3, tS tH tB, by decide, by decide⟩⟩

/-- The hypotheses of PowerFail are met, clause by clause. -/
theorem witness_PowerFail :
    (∃ (s : State), s.dev.hub.up = true ∧ s.dev.hub.fw.pwrfail = false) ∧
    (∃ (s : State), s.dev.hub.up = false ∧ s.dev.hub.fw.pwrfail = false) ∧
    (∃ (s : State), s.dev.hub.up = true ∧ s.dev.hub.fw.pwrfail = true) ∧
    (∃ (s : State), s.dev.hub.up = true ∧ s.dev.hub.fw.pwrfail = false) ∧
    (∃ (s : State), s.dev.hub.up = true ∧ s.dev.hub.fw.pwrfail = true) :=
  ⟨⟨tS tH tB, by decide, by decide⟩,
   ⟨tS { tH with fw := { tH.fw with hubUp := false } } tB, by decide, by decide⟩,
   ⟨tS { tH with fw := { tH.fw with pwrfail := true } } tB, by decide, by decide⟩,
   ⟨tS tH tB, by decide, by decide⟩,
   ⟨tS { tH with fw := { tH.fw with pwrfail := true } } tB, by decide, by decide⟩⟩

/-- The hypotheses of SidePortAndWake are met, clause by clause. -/
theorem witness_SidePortAndWake :
    (∃ (bytes : List Byte) (s : State), s.dev.hub.up = true ∧ s.dev.hub.sideSt = psUp ∧ s.dev.hub.fld R.side_LANE_CTL_0_LOOPBACK = 0 ∧ 64 ≤ bytes.length ∧ bytes.length ≤ s.dev.hub.fld R.side_MAX_FRAME_0_BYTES ∧ beNat (slice bytes 12 2) ≠ 0x8808 ∧ slice bytes 0 6 = List.replicate 6 0xFF#8 ∧ s.dev.hub.fw.power = .d0) ∧
    (∃ (bytes : List Byte) (s : State), s.dev.hub.up = true ∧ s.dev.hub.sideSt = psUp ∧ s.dev.hub.fld R.side_LANE_CTL_0_LOOPBACK = 0 ∧ 64 ≤ bytes.length) ∧
    (∃ (frame : List Byte) (k : Nat) (s : State), s.dev.hub.up = true ∧ s.dev.hub.sideSt = psUp ∧ s.dev.hub.fw.power = .d0 ∧ s.dev.hub.wakeIndex frame = some k) ∧
    (∃ (frame : List Byte) (s : State), s.dev.hub.wakeIndex frame = none) ∧
    (∃ (p : Nat) (s : State), s.dev.hub.sideLive = true ∧ s.dev.hub.sideSt = psWait) ∧
    (∃ (p : Nat) (s : State), s.dev.hub.sideLive = true ∧ ((s.dev.hub.sideSt = psTraining ∨ s.dev.hub.sideSt = psUp))) ∧
    (∃ (p : Nat) (s : State), s.dev.hub.sideLive = true ∧ ((s.dev.hub.sideSt = psTraining ∨ s.dev.hub.sideSt = psUp))) ∧
    (∃ (p : Nat) (s : State), s.dev.hub.sideLive = true ∧ s.dev.hub.sideSt = psUp) ∧
    (∃ (p : Nat) (s : State), s.dev.hub.sideLive = true ∧ s.dev.hub.sideSt = psTraining ∧ ((s.dev.hub.sideNegotiates = false ∨ s.dev.hub.sidePort.an = 1))) ∧
    (∃ (p : Nat) (s : State), s.dev.hub.sideLive = true ∧ s.dev.hub.sideSt = psTraining ∧ ((s.dev.hub.sideNegotiates = false ∨ s.dev.hub.sidePort.an ≠ 2)) ∧ s.dev.hub.sidePort.fails = 0) ∧
    (∃ (p : Nat) (s : State), s.dev.hub.sideLive = true ∧ s.dev.hub.sideSt = psTraining ∧ ((s.dev.hub.sideNegotiates = false ∨ s.dev.hub.sidePort.an ≠ 2)) ∧ s.dev.hub.sidePort.fails ≠ 0) ∧
    (∃ (p : Nat) (offered : List Tech) (s : State), s.dev.hub.sideLive = true ∧ s.dev.hub.sideSt = psTraining ∧ s.dev.hub.sideNegotiates = true ∧ Tech.g10 ∈ offered) ∧
    (∃ (p : Nat) (offered : List Tech) (s : State), s.dev.hub.sideLive = true ∧ s.dev.hub.sideSt = psTraining ∧ s.dev.hub.sideNegotiates = true ∧ Tech.g10 ∉ offered) ∧
    (∃ (bytes : List Byte) (p : Nat) (phase : Nat) (s : State), s.dev.hub.sideLive = true ∧ s.dev.hub.sideSt = psUp ∧ s.dev.hub.flag R.side_PORT_STATUS_0_PAUSED = false ∧ s.dev.hub.fld R.side_LANE_CTL_0_LOOPBACK = 0) ∧
    (∃ (bytes : List Byte) (p : Nat) (phase : Nat) (s : State), s.dev.hub.sideLive = true ∧ s.dev.hub.sideSt ≠ psUp) ∧
    (∃ (p : Nat) (s : State), s.dev.hub.sideLive = true ∧ s.dev.hub.sideSt = psUp ∧ s.dev.hub.sidePort.mode = 1 ∧ s.dev.hub.flag R.side_XOFF_0_LINK_XOFF = true ∧ s.dev.hub.sidePort.reqs = 0) ∧
    (∃ (p : Nat) (s : State), s.dev.hub.sideLive = true ∧ s.dev.hub.sideSt = psUp ∧ s.dev.hub.sidePort.reqs ≠ 0 ∧ s.dev.hub.fld R.side_PAUSE_CTL_0_QUANTA ≠ 0) ∧
    (∃ (p : Nat) (s : State), s.dev.hub.sideLive = true ∧ s.dev.hub.fld R.side_PAUSE_CTL_0_MODE ≠ s.dev.hub.sidePort.mode ∧ s.dev.hub.sidePort.adv = 0) ∧
    (∃ (p : Nat) (s : State), s.dev.hub.sideLive = true) :=
  ⟨⟨List.replicate 64 0xFF#8, tS (tH.setFld R.side_PORT_STATUS_0_STATE psUp) tB, by decide, by decide, by decide, by decide, by decide, by decide, by decide, by decide⟩,
   ⟨List.replicate 64 0xFF#8, tS (tH.setFld R.side_PORT_STATUS_0_STATE psUp) tB, by decide, by decide, by decide, by decide⟩,
   ⟨List.replicate 64 0xFF#8, 2, tS (((tH.setFld R.side_PORT_STATUS_0_STATE psUp).setReg (R.side_WAKE_PATTERN 2 0) 0xFF#32).setReg (R.side_WAKE_MASK 2 0) 1#32) tB, by decide, by decide, by decide, by decide⟩,
   ⟨[0xFF#8], tS tH tB, by decide⟩,
   ⟨0, tS (tH.setFld R.side_PORT_STATUS_0_STATE psWait) tB, by decide, by decide⟩,
   ⟨0, tS (tH.setFld R.side_PORT_STATUS_0_STATE psUp) tB, by decide, by decide⟩,
   ⟨0, tS (tH.setFld R.side_PORT_STATUS_0_STATE psTraining) tB, by decide, by decide⟩,
   ⟨0, tS (tH.setFld R.side_PORT_STATUS_0_STATE psUp) tB, by decide, by decide⟩,
   ⟨0, tS (tH.setFld R.side_PORT_STATUS_0_STATE psTraining) tB, by decide, by decide, by decide⟩,
   ⟨0, tS (tH.setFld R.side_PORT_STATUS_0_STATE psTraining) tB, by decide, by decide, by decide, by decide⟩,
   ⟨0, tS ((tH.setFld R.side_PORT_STATUS_0_STATE psTraining).setSidePort { PortSt.idle with fails := 1 }) tB, by decide, by decide, by decide, by decide⟩,
   ⟨0, [.g10], tS (((tH.setFld R.side_PORT_STATUS_0_STATE psTraining).setFld R.side_PORT_CTL_0_IFACE 2).setFld R.side_PORT_CTL_0_AN_EN 1) tB, by decide, by decide, by decide, by decide⟩,
   ⟨0, [], tS (((tH.setFld R.side_PORT_STATUS_0_STATE psTraining).setFld R.side_PORT_CTL_0_IFACE 2).setFld R.side_PORT_CTL_0_AN_EN 1) tB, by decide, by decide, by decide, by decide⟩,
   ⟨[1#8], 0, 0, tS (tH.setFld R.side_PORT_STATUS_0_STATE psUp) tB, by decide, by decide, by decide, by decide⟩,
   ⟨[1#8], 0, 0, tS tH tB, by decide, by decide⟩,
   ⟨0, tS (((tH.setFld R.side_PORT_STATUS_0_STATE psUp).setFld R.side_XOFF_0_LINK_XOFF 1).setSidePort { PortSt.idle with mode := 1 }) tB, by decide, by decide, by decide, by decide, by decide⟩,
   ⟨0, tS (((tH.setFld R.side_PORT_STATUS_0_STATE psUp).setFld R.side_PAUSE_CTL_0_QUANTA 9).setSidePort { PortSt.idle with mode := 1, reqs := 256 }) tB, by decide, by decide, by decide, by decide⟩,
   ⟨0, tS (tH.setFld R.side_PAUSE_CTL_0_MODE 1) tB, by decide, by decide, by decide⟩,
   ⟨0, tS tH tB, by decide⟩⟩

/-- The hypotheses of PortLinkStates are met, clause by clause. -/
theorem witness_PortLinkStates :
    (∃ (n : BenchId) (p : Nat) (v : Word) (s : State), (s.dev.bench n).live = true ∧ (s.dev.bench n).hasPort p = true ∧ (s.dev.bench n).portSt p = psDisabled ∧ (s.dev.bench n).flag (R.face_PORT_CTL_ENABLE p) = false ∧ (s.dev.bench n).laneFailed p = false) ∧
    (∃ (n : BenchId) (p : Nat) (v : Word) (s : State), (s.dev.bench n).live = true ∧ (s.dev.bench n).hasPort p = true ∧ (s.dev.bench n).portSt p = psDisabled ∧ (s.dev.bench n).flag (R.face_PORT_CTL_ENABLE p) = false ∧ (s.dev.bench n).laneFailed p = true ∧ bit v.toNat 5 = false) ∧
    (∃ (n : BenchId) (p : Nat) (v : Word) (s : State), (s.dev.bench n).live = true ∧ (s.dev.bench n).hasPort p = true ∧ (s.dev.bench n).portSt p ≠ psDisabled ∧ (s.dev.bench n).flag (R.face_PORT_CTL_ENABLE p) = false ∧ bit v.toNat 5 = false) ∧
    (∃ (n : BenchId) (p : Nat) (v : Word) (s : State), (s.dev.bench n).live = true ∧ (s.dev.bench n).hasPort p = false) ∧
    (∃ (n : BenchId) (p : Nat) (v : Word) (s : State), (s.dev.bench n).live = true ∧ (s.dev.bench n).hasPort p = true ∧ (s.dev.bench n).flag (R.face_PORT_CTL_ENABLE p) = true ∧ (((s.dev.bench n).portSt p = psWait ∨ (s.dev.bench n).portSt p = psTraining))) ∧
    (∃ (n : BenchId) (p : Nat) (v : Word) (s : State), (s.dev.bench n).live = true ∧ (s.dev.bench n).hasPort p = true ∧ (s.dev.bench n).flag (R.face_PORT_CTL_ENABLE p) = true ∧ (s.dev.bench n).portSt p = psFailed ∧ bit v.toNat 5 = false) ∧
    (∃ (n : BenchId) (p : Nat) (v : Word) (s : State), (s.dev.bench n).live = true ∧ (s.dev.bench n).isUp p = true ∧ (s.dev.bench n).flag (R.face_PORT_CTL_ENABLE p) = true ∧ ((s.dev.bench n).port p).txPid.isSome = true) ∧
    (∃ (n : BenchId) (p : Nat) (v : Word) (s : State), (s.dev.bench n).live = true ∧ (s.dev.bench n).isUp p = true ∧ (s.dev.bench n).flag (R.face_PORT_CTL_ENABLE p) = true ∧ ((s.dev.bench n).port p).txPid = none) ∧
    (∃ (n : BenchId) (p : Nat) (s : State), (s.dev.bench n).live = true ∧ ((s.dev.bench n).port p).disabling = true ∧ ((s.dev.bench n).port p).txPid = none) ∧
    (∃ (n : BenchId) (p : Nat) (v : Word) (s : State), (s.dev.bench n).live = true ∧ (s.dev.bench n).hasPort p = true ∧ (s.dev.bench n).portSt p = psFailed ∧ bit v.toNat 0 = (s.dev.bench n).flag (R.face_PORT_CTL_ENABLE p)) ∧
    (∃ (n : BenchId) (p : Nat) (v : Word) (s : State), (s.dev.bench n).live = true ∧ (s.dev.bench n).hasPort p = true ∧ (s.dev.bench n).portSt p = psDisabled ∧ bit v.toNat 0 = (s.dev.bench n).flag (R.face_PORT_CTL_ENABLE p)) ∧
    (∃ (n : BenchId) (p : Nat) (s : State), (s.dev.bench n).live = true ∧ (s.dev.bench n).hasPort p = true ∧ (s.dev.bench n).portSt p = psWait ∧ s.dev.hub.fw.pwrfail = false) ∧
    (∃ (n : BenchId) (p : Nat) (s : State), (s.dev.bench n).live = true ∧ (s.dev.bench n).hasPort p = true ∧ (s.dev.bench n).portSt p = psTraining) ∧
    (∃ (n : BenchId) (p : Nat) (s : State), (s.dev.bench n).live = true ∧ (s.dev.bench n).isUp p = true) ∧
    (∃ (n : BenchId) (p : Nat) (s : State), (s.dev.bench n).live = true ∧ (s.dev.bench n).isUp p = true) ∧
    (∃ (n : BenchId) (p : Nat) (s : State), (s.dev.bench n).live = true ∧ (s.dev.bench n).hasPort p = true ∧ (s.dev.bench n).portSt p = psTraining ∧ (((s.dev.bench n).negotiates p = false ∨ ((s.dev.bench n).port p).an = 1))) ∧
    (∃ (n : BenchId) (p : Nat) (s : State), (s.dev.bench n).live = true ∧ (s.dev.bench n).hasPort p = true ∧ (s.dev.bench n).portSt p = psTraining ∧ (((s.dev.bench n).negotiates p = false ∨ ((s.dev.bench n).port p).an = 1))) ∧
    (∃ (n : BenchId) (p : Nat) (s : State), (s.dev.bench n).live = true ∧ (s.dev.bench n).negotiates p = true ∧ ((s.dev.bench n).port p).an ≠ 1) ∧
    (∃ (n : BenchId) (p : Nat) (s : State), (s.dev.bench n).live = true ∧ (s.dev.bench n).hasPort p = true ∧ (s.dev.bench n).portSt p = psTraining ∧ ((s.dev.bench n).port p).fails = 0 ∧ (((s.dev.bench n).negotiates p = false ∨ ((s.dev.bench n).port p).an ≠ 2))) ∧
    (∃ (n : BenchId) (p : Nat) (s : State), (s.dev.bench n).live = true ∧ (s.dev.bench n).hasPort p = true ∧ (s.dev.bench n).portSt p = psTraining ∧ ((s.dev.bench n).port p).fails ≠ 0 ∧ (((s.dev.bench n).negotiates p = false ∨ ((s.dev.bench n).port p).an ≠ 2))) ∧
    (∃ (n : BenchId) (p : Nat) (s : State), (s.dev.bench n).live = true ∧ (s.dev.bench n).negotiates p = true ∧ ((s.dev.bench n).port p).an = 2) ∧
    (∃ (n : BenchId) (p : Nat) (offered : List Tech) (s : State), (s.dev.bench n).live = true ∧ (s.dev.bench n).hasPort p = true ∧ (s.dev.bench n).portSt p = psTraining ∧ (s.dev.bench n).negotiates p = true ∧ techOf (s.dev.bench n).power.portMode ∈ offered) ∧
    (∃ (n : BenchId) (p : Nat) (offered : List Tech) (s : State), (s.dev.bench n).live = true ∧ (s.dev.bench n).hasPort p = true ∧ (s.dev.bench n).portSt p = psTraining ∧ (s.dev.bench n).negotiates p = true ∧ techOf (s.dev.bench n).power.portMode ∉ offered) ∧
    (∃ (n : BenchId) (p : Nat) (s : State), (s.dev.bench n).live = true ∧ (s.dev.bench n).isUp p = true ∧ (s.dev.bench n).power.profile = 1) :=
  ⟨⟨0, 3, 1#32, tS tH tB, by decide, by decide, by decide, by decide, by decide⟩,
   ⟨0, 0, 1#32, tS tH (tB.setFld (R.face_LANE_STATUS_FAILED 0) 1), by decide, by decide, by decide, by decide, by decide, by decide⟩,
   ⟨0, 0, 0#32, tS tH (tB.portIn psUp), by decide, by decide, by decide, by decide, by decide⟩,
   ⟨0, 4, 1#32, tS tH tB, by decide, by decide⟩,
   ⟨0, 0, 0#32, tS tH ((tB.portIn psTraining).setFld (R.face_PORT_CTL_ENABLE 0) 1), by decide, by decide, by decide, by decide⟩,
   ⟨0, 0, 0#32, tS tH (((tB.portIn psFailed).setFld (R.face_PORT_CTL_ENABLE 0) 1).setFld (R.face_LANE_STATUS_FAILED 0) 1), by decide, by decide, by decide, by decide, by decide⟩,
   ⟨0, 0, 0#32, tS tH (((tB.portIn psUp).setFld (R.face_PORT_CTL_ENABLE 0) 1).setPort 0 { PortSt.idle with txPid := some 1 }), by decide, by decide, by decide, by decide⟩,
   ⟨0, 0, 0#32, tS tH ((tB.portIn psUp).setFld (R.face_PORT_CTL_ENABLE 0) 1), by decide, by decide, by decide, by decide⟩,
   ⟨0, 0, tS tH ((tB.portIn psUp).setPort 0 { PortSt.idle with disabling := true }), by decide, by decide, by decide⟩,
   ⟨0, 0, 1#32, tS tH (((tB.portIn psFailed).setFld (R.face_PORT_CTL_ENABLE 0) 1).setFld (R.face_LANE_STATUS_FAILED 0) 1), by decide, by decide, by decide, by decide⟩,
   ⟨0, 0, 0#32, tS tH (tB.setFld (R.face_LANE_STATUS_FAILED 0) 1), by decide, by decide, by decide, by decide⟩,
   ⟨0, 0, tS tH (tB.portIn psWait), by decide, by decide, by decide, by decide⟩,
   ⟨0, 0, tS tH (tB.portIn psTraining), by decide, by decide, by decide⟩,
   ⟨0, 0, tS tH (tB.portIn psUp), by decide, by decide⟩,
   ⟨0, 0, tS tH (tB.portIn psUp), by decide, by decide⟩,
   ⟨0, 0, tS tH (tB.portIn psTraining), by decide, by decide, by decide, by decide⟩,
   ⟨0, 0, tS tH (((tB.portIn psTraining).negotiating).setPort 0 { PortSt.idle with an := 1, retrain := true }), by decide, by decide, by decide, by decide⟩,
   ⟨0, 0, tS tH (tB.portIn psTraining).negotiating, by decide, by decide, by decide⟩,
   ⟨0, 0, tS tH (tB.portIn psTraining), by decide, by decide, by decide, by decide, by decide⟩,
   ⟨0, 0, tS tH ((tB.portIn psTraining).setPort 0 { PortSt.idle with fails := 1 }), by decide, by decide, by decide, by decide, by decide⟩,
   ⟨0, 0, tS tH ((tB.portIn psTraining).negotiating.setPort 0 { PortSt.idle with an := 2 }), by decide, by decide, by decide⟩,
   ⟨0, 0, [.g400, .g100], tS tH (tB.portIn psTraining).negotiating, by decide, by decide, by decide, by decide, by decide⟩,
   ⟨0, 0, [.g400], tS tH (tB.portIn psTraining).negotiating, by decide, by decide, by decide, by decide, by decide⟩,
   ⟨0, 0, tS tH { tB.portIn psUp with power := { tB.power with profile := 1 } }, by decide, by decide, by decide⟩⟩

/-- The hypotheses of LeavingUpStopsTheTransmitter are met, clause by clause. -/
theorem witness_LeavingUpStopsTheTransmitter :
    (∃ (b : Bench) (p : Nat) (st : Nat), p < 4 ∧ st < 8) :=
  ⟨(tB.portIn psUp).setPort 3 { PortSt.idle with txPid := some 1 }, 3, 7, by decide, by decide⟩

/-- The hypotheses of ReceptionAndStations are met, clause by clause. -/
theorem witness_ReceptionAndStations :
    (∃ (n : BenchId) (p : Nat) (bytes : List Byte) (phase : Nat) (h : Nat) (s : State), (s.dev.bench n).power.st = .running ∧ (s.dev.bench n).isUp p = true ∧ ((s.dev.bench n).port p).rxPid = none ∧ (s.dev.bench n).loopOf p = 0 ∧ (((s.dev.bench n).fromLine p).allocPacket .face ((s.dev.bench n).flag R.hopper_HOPPER_CTL_FACE_SPILL) (bytes.take ((s.dev.bench n).fld (R.face_MAX_FRAME_BYTES p))).length ((s.dev.bench n).fld (R.face_MAX_FRAME_BYTES p)) 1).1 = some h) ∧
    (∃ (n : BenchId) (p : Nat) (bytes : List Byte) (phase : Nat) (s : State), (s.dev.bench n).power.st = .running ∧ (s.dev.bench n).isUp p = true ∧ ((s.dev.bench n).port p).rxPid = none ∧ (s.dev.bench n).loopOf p = 0 ∧ (((s.dev.bench n).fromLine p).allocPacket .face ((s.dev.bench n).flag R.hopper_HOPPER_CTL_FACE_SPILL) (bytes.take ((s.dev.bench n).fld (R.face_MAX_FRAME_BYTES p))).length ((s.dev.bench n).fld (R.face_MAX_FRAME_BYTES p)) 1).1 = none) ∧
    (∃ (n : BenchId) (p : Nat) (k : Pkt) (s : State), (s.dev.bench n).live = true ∧ (s.dev.bench n).pkts.find? (fun k => k.presentable p) = some k ∧ (s.dev.bench n).isMacControl k = false ∧ (s.dev.bench n).pkts.any (fun j => j.loc = .entry && j.port = p) = false) ∧
    (∃ (n : BenchId) (p : Nat) (id : Nat) (k : Pkt) (codeErr : Bool) (fcsBad : Bool) (x : Nat) (y : Nat) (s : State), (s.dev.bench n).live = true ∧ ((s.dev.bench n).port p).rxPid = some id ∧ (s.dev.bench n).pkt? id = some k ∧ (s.dev.bench n).isMacControl k = false) ∧
    (∃ (n : BenchId) (p : Nat) (id : Nat) (k : Pkt) (x : Nat) (y : Nat) (s : State), (s.dev.bench n).live = true ∧ ((s.dev.bench n).port p).rxPid = some id ∧ (s.dev.bench n).pkt? id = some k ∧ (s.dev.bench n).isMacControl k = true ∧ k.loc = .receiving ∧ 64 ≤ k.rxLen ∧ ((s.dev.bench n).port p).loopBad = false ∧ macObeyed ((s.dev.bench n).port p).mode (beNat ((s.dev.bench n).pktBytes k 14 2)) = true) ∧
    (∃ (n : BenchId) (p : Nat) (id : Nat) (k : Pkt) (x : Nat) (y : Nat) (s : State), (s.dev.bench n).live = true ∧ ((s.dev.bench n).port p).rxPid = some id ∧ (s.dev.bench n).pkt? id = some k ∧ (s.dev.bench n).isMacControl k = true ∧ k.loc = .receiving ∧ 64 ≤ k.rxLen ∧ ((s.dev.bench n).port p).loopBad = false ∧ macObeyed ((s.dev.bench n).port p).mode (beNat ((s.dev.bench n).pktBytes k 14 2)) = false) ∧
    (∃ (n : BenchId) (e : Nat) (v : Word) (s : State), (s.dev.bench n).live = true ∧ e < 32) :=
  ⟨⟨0, 0, List.replicate 64 0#8, 0, 0x8000000, tS tH (tPool.portIn psUp), by decide, by decide, by decide, by decide, by unfold Bench.allocPacket Bench.alloc Bench.grant; rw [pickFree_one _ _ (by decide) (by decide)]; decide⟩,
   ⟨0, 0, List.replicate 64 0#8, 0, tS tH (tB.portIn psUp), by decide, by decide, by decide, by decide, by decide⟩,
   ⟨0, 0, { tPkt with loc := .receiving }, tS tH (tB.withPkts [{ tPkt with loc := .receiving }]), by decide, by decide, by decide, by decide⟩,
   ⟨0, 0, 1, tPkt, false, true, 0, 0, tS tH ((tB.withPkts [tPkt]).setPort 0 { PortSt.idle with rxPid := some 1 }), by decide, by decide, by decide, by decide⟩,
   ⟨0, 0, 1, { tPkt with loc := .receiving }, 0, 0, tS tH (((tB.withPkts [{ tPkt with loc := .receiving }]).setBytes 0x100000C [0x88#8, 8#8, 0#8, 1#8]).setPort 0 { PortSt.idle with rxPid := some 1, mode := 1 }), by decide, by decide, by decide, by decide, by decide, by decide, by decide, by decide⟩,
   ⟨0, 0, 1, { tPkt with loc := .receiving }, 0, 0, tS tH (((tB.withPkts [{ tPkt with loc := .receiving }]).setBytes 0x100000C [0x88#8, 8#8, 0#8, 1#8]).setPort 0 { PortSt.idle with rxPid := some 1 }), by decide, by decide, by decide, by decide, by decide, by decide, by decide, by decide⟩,
   ⟨0, 31, 0#32, tS tH tB, by decide, by decide⟩⟩

/-- The hypotheses of PauseAndPfc are met, clause by clause. -/
theorem witness_PauseAndPfc :
    (∃ (n : BenchId) (p : Nat) (q : Nat) (s : State), (s.dev.bench n).live = true ∧ (s.dev.bench n).isUp p = true ∧ ((s.dev.bench n).port p).mode = 1) ∧
    (∃ (n : BenchId) (p : Nat) (c : Nat) (times : List Nat) (s : State), (s.dev.bench n).live = true ∧ (s.dev.bench n).isUp p = true ∧ ((s.dev.bench n).port p).mode = 2 ∧ c < 8 ∧ bit ((s.dev.bench n).fld (R.face_PAUSE_CTL_PFC_CLASS_EN p)) c = true ∧ times.getD c 0 ≠ 0) ∧
    (∃ (n : BenchId) (p : Nat) (c : Nat) (times : List Nat) (s : State), (s.dev.bench n).live = true ∧ (s.dev.bench n).isUp p = true ∧ ((s.dev.bench n).port p).mode = 2 ∧ c < 8 ∧ bit ((s.dev.bench n).fld (R.face_PAUSE_CTL_PFC_CLASS_EN p)) c = true ∧ times.getD c 0 = 0) ∧
    (∃ (n : BenchId) (p : Nat) (c : Nat) (times : List Nat) (s : State), (s.dev.bench n).live = true ∧ (s.dev.bench n).isUp p = true ∧ ((s.dev.bench n).port p).mode = 2 ∧ c < 8 ∧ bit ((s.dev.bench n).fld (R.face_PAUSE_CTL_PFC_CLASS_EN p)) c = false) ∧
    (∃ (n : BenchId) (p : Nat) (s : State), (s.dev.bench n).live = true) ∧
    (∃ (n : BenchId) (p : Nat) (c : Nat) (s : State), (s.dev.bench n).live = true) ∧
    (∃ (n : BenchId) (p : Nat) (s : State), (s.dev.bench n).live = true ∧ (s.dev.bench n).isUp p = true ∧ ((s.dev.bench n).port p).mode = 1 ∧ (s.dev.bench n).requests p ≠ ((s.dev.bench n).port p).reqs ∧ ((s.dev.bench n).port p).txPid = none ∧ ((s.dev.bench n).port p).disabling = false ∧ ((s.dev.bench n).port p).owed = 0) ∧
    (∃ (n : BenchId) (p : Nat) (s : State), (s.dev.bench n).live = true ∧ (s.dev.bench n).isUp p = true ∧ ((s.dev.bench n).port p).mode = 2 ∧ (s.dev.bench n).requests p ≠ ((s.dev.bench n).port p).reqs ∧ ((s.dev.bench n).port p).txPid = none ∧ ((s.dev.bench n).port p).disabling = false ∧ ((s.dev.bench n).port p).owed = 0) ∧
    (∃ (n : BenchId) (p : Nat) (s : State), (s.dev.bench n).live = true ∧ (s.dev.bench n).isUp p = true ∧ (s.dev.bench n).requests p ≠ ((s.dev.bench n).port p).reqs ∧ ((s.dev.bench n).port p).txPid.isSome = true ∧ ((s.dev.bench n).port p).disabling = false) ∧
    (∃ (n : BenchId) (p : Nat) (s : State), (s.dev.bench n).live = true ∧ (s.dev.bench n).hasPort p = true ∧ (s.dev.bench n).isUp p = false ∧ (s.dev.bench n).requests p ≠ ((s.dev.bench n).port p).reqs) ∧
    (∃ (n : BenchId) (p : Nat) (s : State), (s.dev.bench n).live = true ∧ (s.dev.bench n).isUp p = true ∧ ((s.dev.bench n).port p).mode = 1 ∧ ((s.dev.bench n).port p).reqs ≠ 0 ∧ (s.dev.bench n).fld (R.face_PAUSE_CTL_QUANTA p) ≠ 0 ∧ ((s.dev.bench n).port p).txPid = none ∧ ((s.dev.bench n).port p).disabling = false ∧ ((s.dev.bench n).port p).owed = 0) ∧
    (∃ (n : BenchId) (p : Nat) (s : State), (s.dev.bench n).live = true ∧ (s.dev.bench n).hasPort p = true ∧ (s.dev.bench n).fld (R.face_PAUSE_CTL_MODE p) ≠ ((s.dev.bench n).port p).mode ∧ ((s.dev.bench n).port p).adv = 0 ∧ ((s.dev.bench n).port p).txPid = none ∧ ((s.dev.bench n).port p).disabling = false) ∧
    (∃ (n : BenchId) (p : Nat) (s : State), (s.dev.bench n).live = true ∧ (s.dev.bench n).isUp p = true ∧ (s.dev.bench n).fld (R.face_PAUSE_CTL_MODE p) ≠ ((s.dev.bench n).port p).mode ∧ ((s.dev.bench n).port p).adv ≠ 0 ∧ ((s.dev.bench n).port p).mode = 1 ∧ ((s.dev.bench n).port p).txPid = none ∧ ((s.dev.bench n).port p).disabling = false) :=
  ⟨⟨0, 0, 5, tS tH ((tB.portIn psUp).setPort 0 { PortSt.idle with mode := 1 }), by decide, by decide, by decide⟩,
   ⟨0, 0, 7, [0, 0, 0, 0, 0, 0, 0, 9], tS tH (((tB.portIn psUp).setPort 0 { PortSt.idle with mode := 2 }).setFld (R.face_PAUSE_CTL_PFC_CLASS_EN 0) 0x80), by decide, by decide, by decide, by decide, by decide, by decide⟩,
   ⟨0, 0, 7, [0], tS tH (((tB.portIn psUp).setPort 0 { PortSt.idle with mode := 2, pfcQuanta := [(7, 3)] }).setFld (R.face_PAUSE_CTL_PFC_CLASS_EN 0) 0x80), by decide, by decide, by decide, by decide, by decide, by decide⟩,
   ⟨0, 0, 7, [0, 0, 0, 0, 0, 0, 0, 9], tS tH (((tB.portIn psUp).setPort 0 { PortSt.idle with mode := 2 }).setFld (R.face_PAUSE_CTL_PFC_CLASS_EN 0) 0x7F), by decide, by decide, by decide, by decide, by decide⟩,
   ⟨0, 0, tS tH tB, by decide⟩,
   ⟨0, 0, 7, tS tH tB, by decide⟩,
   ⟨0, 0, tS tH ((tB.portIn psUp).setPort 0 { PortSt.idle with mode := 1, tmReqs := 256 }), by decide, by decide, by decide, by decide, by decide, by decide, by decide⟩,
   ⟨0, 0, tS tH ((tB.portIn psUp).setPort 0 { PortSt.idle with mode := 2, tmReqs := 2, reqs := 1 }), by decide, by decide, by decide, by decide, by decide, by decide, by decide⟩,
   ⟨0, 0, tS tH ((tB.portIn psUp).setPort 0 { PortSt.idle with mode := 2, tmReqs := 2, reqs := 1, txPid := some 1 }), by decide, by decide, by decide, by decide, by decide⟩,
   ⟨0, 0, tS tH (tB.setPort 0 { PortSt.idle with mode := 2, tmReqs := 2, reqs := 1 }), by decide, by decide, by decide, by decide⟩,
   ⟨0, 0, tS tH (((tB.portIn psUp).setPort 0 { PortSt.idle with mode := 1, reqs := 256 }).setFld (R.face_PAUSE_CTL_QUANTA 0) 7), by decide, by decide, by decide, by decide, by decide, by decide, by decide, by decide⟩,
   ⟨0, 0, tS tH (tB.setFld (R.face_PAUSE_CTL_MODE 0) 2), by decide, by decide, by decide, by decide, by decide, by decide⟩,
   ⟨0, 0, tS tH ((tB.portIn psUp).setPort 0 { PortSt.idle with mode := 1, reqs := 256, adv := 256 }), by decide, by decide, by decide, by decide, by decide, by decide, by decide⟩⟩

/-- The hypotheses of APauseFrameOnTheWire are met, clause by clause. -/
theorem witness_APauseFrameOnTheWire :
    (∃ (b : Bench) (p : Nat) (q : Nat), b.loopOf p = 0) :=
  ⟨tB, 0, 5, by decide⟩

/-- The hypotheses of Transmission are met, clause by clause. -/
theorem witness_Transmission :
    (∃ (n : BenchId) (p : Nat) (phase : Nat) (k : Pkt) (s : State), (s.dev.bench n).live = true ∧ (s.dev.bench n).isUp p = true ∧ (s.dev.bench n).pktAt? (.selected p) = some k ∧ ((s.dev.bench n).port p).txPid = none ∧ ((s.dev.bench n).port p).disabling = false ∧ (s.dev.bench n).loopOf p = 0 ∧ k.oversize = false ∧ k.ring = none ∧ k.tx.capture = false ∧ k.tx.ptpOp = 0 ∧ k.ended = true ∧ k.verdictPending = false ∧ k.spoil = 0) ∧
    (∃ (n : BenchId) (p : Nat) (phase : Nat) (k : Pkt) (s : State), (s.dev.bench n).live = true ∧ (s.dev.bench n).isUp p = true ∧ (s.dev.bench n).pktAt? (.selected p) = some k ∧ ((s.dev.bench n).port p).txPid = none ∧ ((s.dev.bench n).port p).disabling = false ∧ k.ring = none ∧ k.tx.capture = false ∧ ((k.ended = false ∨ (k.verdictPending = true ∧ k.oversize = false)))) ∧
    (∃ (n : BenchId) (p : Nat) (phase : Nat) (k : Pkt) (s : State), (s.dev.bench n).live = true ∧ (s.dev.bench n).isUp p = false ∧ (s.dev.bench n).pktAt? (.selected p) = some k ∧ ((s.dev.bench n).port p).txPid = none ∧ ((s.dev.bench n).port p).disabling = false) ∧
    (∃ (n : BenchId) (p : Nat) (phase : Nat) (k : Pkt) (s : State), (s.dev.bench n).live = true ∧ (s.dev.bench n).isUp p = true ∧ (s.dev.bench n).pktAt? (.selected p) = some k ∧ ((s.dev.bench n).port p).txPid = none ∧ ((s.dev.bench n).port p).disabling = false ∧ k.ended = true ∧ k.oversize = true) ∧
    (∃ (n : BenchId) (p : Nat) (phase : Nat) (r : Nat) (k : Pkt) (s : State), (s.dev.bench n).live = true ∧ (s.dev.bench n).isUp p = true ∧ (s.dev.bench n).pktAt? (.selected p) = some k ∧ ((s.dev.bench n).port p).txPid = none ∧ ((s.dev.bench n).port p).disabling = false ∧ k.oversize = false ∧ k.ring = some r ∧ (s.dev.bench n).fld (R.face_MAX_FRAME_BYTES p) < k.dataLen + 4) ∧
    (∃ (n : BenchId) (p : Nat) (sent : Nat) (id : Nat) (r : Nat) (k : Pkt) (s : State), (s.dev.bench n).live = true ∧ ((s.dev.bench n).port p).txPid = some id ∧ (s.dev.bench n).pkt? id = some k ∧ k.ring = some r ∧ k.ended = false) ∧
    (∃ (n : BenchId) (p : Nat) (tag : Nat) (x : Stamp) (q : List (Stamp × Nat)) (s : State), (s.dev.bench n).live = true ∧ (s.dev.bench n).hasPort p = true ∧ ((s.dev.bench n).port p).tsq = (x, tag) :: q) ∧
    (∃ (n : BenchId) (p : Nat) (s : State), (s.dev.bench n).live = true ∧ (s.dev.bench n).hasPort p = true ∧ ((s.dev.bench n).port p).tsq = []) ∧
    (∃ (n : BenchId) (p : Nat) (w : Nat) (v : Nat) (s : State), (s.dev.bench n).live = true ∧ (s.dev.bench n).hasPort p = true ∧ w ≠ 0 ∧ ((s.dev.bench n).port p).tsHeld[w]? = some (some v)) ∧
    (∃ (n : BenchId) (p : Nat) (w : Nat) (s : State), (s.dev.bench n).live = true ∧ (s.dev.bench n).hasPort p = true ∧ w ≠ 0 ∧ ((s.dev.bench n).port p).tsHeld[w]? = some none) :=
  ⟨⟨0, 0, 0, { tPkt with loc := .selected 0 }, tS tH ((tB.portIn psUp).withPkts [{ tPkt with loc := .selected 0 }]), by decide, by decide, by decide, by decide, by decide, by decide, by decide, by decide, by decide, by decide, by decide, by decide, by decide⟩,
   ⟨0, 0, 0, { tPkt with loc := .selected 0, ended := false }, tS tH ((tB.portIn psUp).withPkts [{ tPkt with loc := .selected 0, ended := false }]), by decide, by decide, by decide, by decide, by decide, by decide, by decide, by decide⟩,
   ⟨0, 0, 0, { tPkt with loc := .selected 0 }, tS tH (tB.withPkts [{ tPkt with loc := .selected 0 }]), by decide, by decide, by decide, by decide, by decide⟩,
   ⟨0, 0, 0, { tPkt with loc := .selected 0, oversize := true }, tS tH ((tB.portIn psUp).withPkts [{ tPkt with loc := .selected 0, oversize := true }]), by decide, by decide, by decide, by decide, by decide, by decide, by decide⟩,
   ⟨0, 0, 0, 3, { tPkt with loc := .selected 0, ring := some 3 }, tS tH (((tB.portIn psUp).withPkts [{ tPkt with loc := .selected 0, ring := some 3 }]).setFld (R.face_MAX_FRAME_BYTES 0) 67), by decide, by decide, by decide, by decide, by decide, by decide, by decide, by decide⟩,
   ⟨0, 0, 16, 1, 3, { tPkt with loc := .sending 0, ring := some 3, ended := false }, tS tH (((tB.portIn psUp).withPkts [{ tPkt with loc := .sending 0, ring := some 3, ended := false }]).setPort 0 { PortSt.idle with txPid := some 1 }), by decide, by decide, by decide, by decide, by decide⟩,
   ⟨0, 3, 9, tStamp, [], tS tH (tB.setPort 3 { PortSt.idle with tsq := [(tStamp, 9)] }), by decide, by decide, by decide⟩,
   ⟨0, 3, tS tH tB, by decide, by decide, by decide⟩,
   ⟨0, 3, 3, 9, tS tH (tB.setPort 3 { PortSt.idle with tsHeld := [none, none, none, some 9] }), by decide, by decide, by decide, by decide⟩,
   ⟨0, 3, 3, tS tH (tB.setPort 3 { PortSt.idle with tsHeld := [none, none, none, none] }), by decide, by decide, by decide, by decide⟩⟩

/-- The hypotheses of TimeCounterAndPps are met, clause by clause. -/
theorem witness_TimeCounterAndPps :
    (∃ (n : BenchId) (s : State), (s.dev.bench n).live = true) ∧
    (∃ (n : BenchId) (s : State), (s.dev.bench n).live = true ∧ getBits ((s.dev.bench n).reg (R.face_TIME_SET 0)).toNat 0 30 < 1000000000) ∧
    (∃ (n : BenchId) (s : State), (s.dev.bench n).live = true ∧ ((∀ p, p < 4 → (s.dev.bench n).gateOn p = false ∧ (s.dev.bench n).gatePending p = false)) ∧ getBits ((s.dev.bench n).reg (R.face_TIME_SET 0)).toNat 0 30 < 1000000000) ∧
    (∃ (n : BenchId) (s : State), (s.dev.bench n).live = true ∧ 1000000000 ≤ getBits ((s.dev.bench n).reg (R.face_TIME_SET 0)).toNat 0 30) ∧
    (∃ (n : BenchId) (s : State), (s.dev.bench n).live = true) ∧
    (∃ (n : BenchId) (s : State), (s.dev.bench n).live = true ∧ ((∀ p, p < 4 → (s.dev.bench n).gateOn p = false ∧ (s.dev.bench n).gatePending p = false))) ∧
    (∃ (n : BenchId) (v : Word) (s : State), (s.dev.bench n).live = true) ∧
    (∃ (n : BenchId) (v : Word) (s : State), (s.dev.bench n).live = true) ∧
    (∃ (n : BenchId) (k : Nat) (s : State), (s.dev.bench n).live = true) ∧
    (∃ (n : BenchId) (s : State), (s.dev.bench n).live = true ∧ (s.dev.bench n).time.pps = none) ∧
    (∃ (n : BenchId) (x : Stamp) (s : State), (s.dev.bench n).live = true ∧ (s.dev.bench n).time.pps = some x) ∧
    (∃ (n : BenchId) (s : State), (s.dev.bench n).live = true ∧ (s.dev.bench n).ppsDue = true) ∧
    (∃ (n : BenchId) (s : State), (s.dev.bench n).live = true ∧ (s.dev.bench n).ppsDue = false) ∧
    (∃ (n : BenchId) (s : State), (s.dev.bench n).live = true ∧ 1250 * (s.dev.bench n).fld R.face_PPS_WIDTH_US ≤ (s.dev.bench n).cyc - (s.dev.bench n).time.ppsAt) ∧
    (∃ (n : BenchId) (s : State), (s.dev.bench n).live = true ∧ (s.dev.bench n).cyc - (s.dev.bench n).time.ppsAt < 1250 * (s.dev.bench n).fld R.face_PPS_WIDTH_US) ∧
    (∃ (n : BenchId) (x : Stamp) (s : State), (s.dev.bench n).live = true ∧ (s.dev.bench n).time.pps = some x) ∧
    (∃ (n : BenchId) (s : State), (s.dev.bench n).live = true ∧ (s.dev.bench n).time.pps = none) ∧
    (∃ (n : BenchId) (w : Nat) (v : Nat) (s : State), (s.dev.bench n).live = true ∧ w ≠ 0 ∧ (s.dev.bench n).time.ppsHeld[w]? = some (some v)) ∧
    (∃ (n : BenchId) (v : Nat) (s : State), (s.dev.bench n).live = true ∧ (s.dev.bench n).time.freq = some v) ∧
    (∃ (n : BenchId) (s : State), (s.dev.bench n).live = true ∧ (s.dev.bench n).time.freq = none) :=
  ⟨⟨0, tS tH tB, by decide⟩,
   ⟨0, tS tH tB, by decide, by decide⟩,
   ⟨0, tS tH tB, by decide, by decide, by decide⟩,
   ⟨0, tS tH (tB.setReg (R.face_TIME_SET 0) 0x3B9ACA00#32), by decide, by decide⟩,
   ⟨0, tS tH tB, by decide⟩,
   ⟨0, tS tH tB, by decide, by decide⟩,
   ⟨0, 0xFFFFFFFF#32, tS tH tB, by decide⟩,
   ⟨0, 0xFF#32, tS tH tB, by decide⟩,
   ⟨0, 10000000, tS tH tB, by decide⟩,
   ⟨0, tS tH tB, by decide, by decide⟩,
   ⟨0, tStamp, tS tH { tB with time := { tB.time with pps := some tStamp } }, by decide, by decide⟩,
   ⟨0, tS tH tB, by decide, by decide⟩,
   ⟨0, tS tH { tB with time := { tB.time with ns := 7 } }, by decide, by decide⟩,
   ⟨0, tS tH { tB with cyc := 2000000000 }, by decide, by decide⟩,
   ⟨0, tS tH (tB.setFld R.face_PPS_WIDTH_US 1), by decide, by decide⟩,
   ⟨0, tStamp, tS tH { tB with time := { tB.time with pps := some tStamp } }, by decide, by decide⟩,
   ⟨0, tS tH tB, by decide, by decide⟩,
   ⟨0, 2, 7, tS tH { tB with time := { tB.time with ppsHeld := [none, none, some 7] } }, by decide, by decide, by decide⟩,
   ⟨0, 7, tS tH { tB with time := { tB.time with freq := some 7 } }, by decide, by decide⟩,
   ⟨0, tS tH tB, by decide, by decide⟩⟩

/-- The hypotheses of Admissions are met, clause by clause. -/
theorem witness_Admissions :
    (∃ (n : BenchId) (p : Nat) (ecc : Ecc) (k : Pkt) (s : State), (s.dev.bench n).live = true ∧ (s.dev.bench n).pkts.find? (fun k => k.loc = .entry && k.port = p) = some k ∧ (s.dev.bench n).faceTurn p = true ∧ (s.dev.bench n).armed = false) ∧
    (∃ (n : BenchId) (p : Nat) (ecc : Ecc) (k : Pkt) (q : Pkt) (s : State), (s.dev.bench n).live = true ∧ (s.dev.bench n).pkts.find? (fun k => k.loc = .entry && k.port = p) = some k ∧ (s.dev.bench n).faceTurn p = true ∧ (s.dev.bench n).armed = true ∧ q = { k with gen := (s.dev.bench n).genActive, loc := .loop, second := false, wstart := 0, admitAt := (s.dev.bench n).cyc, seen := Stamp.ofSixteenths (s.dev.bench n).time.sixteenths false 0 }) ∧
    (∃ (n : BenchId) (p : Nat) (ecc : Ecc) (s : State), (s.dev.bench n).live = true ∧ (s.dev.bench n).faceTurn p = false) ∧
    (∃ (n : BenchId) (ecc : Ecc) (k : Pkt) (q : Pkt) (s : State), (s.dev.bench n).live = true ∧ (s.dev.bench n).loopHead = some k ∧ (s.dev.bench n).loopTurn k = true ∧ q = { k with second := true }) ∧
    (∃ (n : BenchId) (ecc : Ecc) (k : Pkt) (s : State), (s.dev.bench n).live = true ∧ (s.dev.bench n).loopHead = some k ∧ (s.dev.bench n).loopTurn k = false) ∧
    (∃ (b : Bench) (k : Pkt), b.loopHead = some k) ∧
    (∃ (n : BenchId) (ecc : Ecc) (k : Pkt) (s : State), (s.dev.bench n).live = true ∧ (s.dev.bench n).pktAt? .hostEntry = some k ∧ (s.dev.bench n).hostTurn = true) ∧
    (∃ (n : BenchId) (ecc : Ecc) (k : Pkt) (q : Pkt) (b : Bench) (s : State), (s.dev.bench n).live = true ∧ (s.dev.bench n).pktAt? .hostEntry = some k ∧ (s.dev.bench n).hostTurn = true ∧ (s.dev.bench n).armed = true ∧ q = { k with gen := (s.dev.bench n).genActive, loc := .loop, second := false, wstart := 0, admitAt := (s.dev.bench n).cyc, seen := Stamp.ofSixteenths (s.dev.bench n).time.sixteenths false 0 } ∧ b = (((({ (s.dev.bench n).tick T.FIRST_CUTS with wheel := ⟨some (s.dev.bench n).cyc, some (s.dev.bench n).cyc⟩ } : Bench).updPkt k.id (fun _ => q)).addInflight (s.dev.bench n).genActive 1).cut q (min 7 ((s.dev.bench n).cyc - k.present)) ecc).countHostEntry ∧ b.waitingHost = none) ∧
    (∃ (n : BenchId) (ecc : Ecc) (s : State), (s.dev.bench n).live = true ∧ (s.dev.bench n).hostTurn = false) :=
  ⟨⟨0, 0, [], tPkt, tS tH (tPool.withPkts [tPkt]), by decide, by decide, by decide, by decide⟩,
   ⟨0, 0, [], tPkt, _, tS tH ((tPool.setFld R.graph_GRAPH_CTL_ARMED 1).withPkts [tPkt]), by decide, by decide, by decide, by decide, rfl⟩,
   ⟨0, 3, [], tS tH (tPool.withPkts [tPkt]), by decide, by decide⟩,
   ⟨0, [], { tPkt with loc := .loop, admitAt := 8 }, _, tS tH { (tPool.setFld R.graph_GRAPH_CTL_ARMED 1).withPkts [{ tPkt with loc := .loop, admitAt := 8 }] with cyc := 121 }, by decide, by decide, by decide, rfl⟩,
   ⟨0, [], { tPkt with loc := .loop, admitAt := 8 }, tS tH { (tPool.setFld R.graph_GRAPH_CTL_ARMED 1).withPkts [{ tPkt with loc := .loop, admitAt := 8 }] with cyc := 120 }, by decide, by decide, by decide⟩,
   ⟨tB.withPkts [{ tPkt with loc := .loop, admitAt := 9 }, { tPkt with loc := .loop, admitAt := 8 }], { tPkt with loc := .loop, admitAt := 8 }, by decide⟩,
   ⟨0, [], { tPkt with loc := .hostEntry }, tS tH { (tPool.setFld R.graph_GRAPH_CTL_ARMED 1).withPkts [{ tPkt with loc := .hostEntry }] with cyc := 3 }, by decide, by decide, by decide⟩,
   ⟨0, [], { tPkt with loc := .hostEntry }, _, _, tS tH { (tPool.setFld R.graph_GRAPH_CTL_ARMED 1).withPkts [{ tPkt with loc := .hostEntry }] with cyc := 3 }, by decide, by decide, by decide, by decide, rfl, rfl, by decide⟩,
   ⟨0, [], tS tH (tPool.withPkts [{ tPkt with loc := .hostEntry }]), by decide, by decide⟩⟩

/-- The hypotheses of GraphAndGenerationWrites are met, clause by clause. -/
theorem witness_GraphAndGenerationWrites :
    (∃ (n : BenchId) (v : Word) (s : State), (s.dev.bench n).live = true ∧ bit v.toNat 0 = true) ∧
    (∃ (n : BenchId) (v : Word) (s : State), (s.dev.bench n).live = true ∧ bit v.toNat 0 = false ∧ (s.dev.bench n).armed = true) ∧
    (∃ (n : BenchId) (v : Word) (s : State), (s.dev.bench n).live = true ∧ bit v.toNat 0 = false ∧ (s.dev.bench n).armed = false) ∧
    (∃ (n : BenchId) (g : Nat) (v : Word) (s : State), (s.dev.bench n).live = true ∧ g < 2 ∧ (s.dev.bench n).writable g = true) ∧
    (∃ (n : BenchId) (g : Nat) (v : Word) (s : State), (s.dev.bench n).live = true ∧ g < 2 ∧ (s.dev.bench n).writable g = false) ∧
    (∃ (n : BenchId) (g : Nat) (v : Word) (s : State), (s.dev.bench n).live = true ∧ g < 2 ∧ (s.dev.bench n).writable g = true) ∧
    (∃ (n : BenchId) (g : Nat) (v : Word) (s : State), (s.dev.bench n).live = true ∧ g < 2 ∧ (s.dev.bench n).writable g = false) ∧
    (∃ (n : BenchId) (w : Nat) (v : Word) (s : State), (s.dev.bench n).live = true ∧ w < 4096 ∧ (s.dev.bench n).writable (w / 2048) = true) ∧
    (∃ (n : BenchId) (w : Nat) (v : Word) (s : State), (s.dev.bench n).live = true ∧ w < 4096 ∧ (s.dev.bench n).writable (w / 2048) = false) ∧
    (∃ (n : BenchId) (i : Nat) (s : State), (s.dev.bench n).live = true ∧ i < 256 ∧ (s.dev.bench n).nodeResult i (s.dev.bench n).nodeStaged = 0) ∧
    (∃ (n : BenchId) (i : Nat) (r : Nat) (s : State), (s.dev.bench n).live = true ∧ i < 256 ∧ (s.dev.bench n).nodeResult i (s.dev.bench n).nodeStaged = r ∧ r ≠ 0) ∧
    (∃ (n : BenchId) (i : Nat) (s : State), (s.dev.bench n).live = true ∧ i < 1024 ∧ (s.dev.bench n).tplResult i (s.dev.bench n).tplStaged = 0) ∧
    (∃ (n : BenchId) (i : Nat) (r : Nat) (s : State), (s.dev.bench n).live = true ∧ i < 1024 ∧ (s.dev.bench n).tplResult i (s.dev.bench n).tplStaged = r ∧ r ≠ 0) ∧
    (∃ (n : BenchId) (s : State), (s.dev.bench n).live = true ∧ (s.dev.bench n).flag R.action_GEN_STATUS_OLD_GEN_IDLE = true) ∧
    (∃ (n : BenchId) (s : State), (s.dev.bench n).live = true ∧ (s.dev.bench n).flag R.action_GEN_STATUS_OLD_GEN_IDLE = false) ∧
    (∃ (n : BenchId) (off : Nat) (size : Nat) (s : State), (s.dev.bench n).live = true ∧ off + size ≤ 8192 ∧ off % size = 0) :=
  ⟨⟨0, 0xFFFFFFFF#32, tS tH tB, by decide, by decide⟩,
   ⟨0, 4#32, tS tH (tB.setFld R.graph_GRAPH_CTL_ARMED 1), by decide, by decide, by decide⟩,
   ⟨0, 0#32, tS tH tB, by decide, by decide, by decide⟩,
   ⟨0, 1, 255#32, tS tH tB, by decide, by decide, by decide⟩,
   ⟨0, 0, 255#32, tS tH (tB.setFld R.graph_GRAPH_CTL_ARMED 1), by decide, by decide, by decide⟩,
   ⟨0, 1, 0xFFFFFFFF#32, tS tH tB, by decide, by decide, by decide⟩,
   ⟨0, 0, 3#32, tS tH (tB.setFld R.graph_GRAPH_CTL_ARMED 1), by decide, by decide, by decide⟩,
   ⟨0, 4095, 3#32, tS tH tB, by decide, by decide, by decide⟩,
   ⟨0, 0, 3#32, tS tH (tB.setFld R.graph_GRAPH_CTL_ARMED 1), by decide, by decide, by decide⟩,
   ⟨0, 255, tS tH tB, by decide, by decide, by decide⟩,
   ⟨0, 255, 1, tS tH ((tB.setFld R.graph_GRAPH_CTL_ARMED 1).setReg (R.graph_NODE_STAGE 0) 1#32), by decide, by decide, by decide, by decide⟩,
   ⟨0, 1023, tS tH tB, by decide, by decide, by decide⟩,
   ⟨0, 1023, 4, tS tH (tB.setReg (R.action_TPL_STAGE 0) 0x3000000#32), by decide, by decide, by decide, by decide⟩,
   ⟨0, tS tH tB, by decide, by decide⟩,
   ⟨0, tS tH (tB.setFld R.action_GEN_STATUS_OLD_GEN_IDLE 0), by decide, by decide⟩,
   ⟨0, 8184, 8, tS tH tB, by decide, by decide, by decide⟩⟩

/-- The hypotheses of AHitIsAMatchingSlot are met, clause by clause. -/
theorem witness_AHitIsAMatchingSlot :
    (∃ (b : Bench) (g : Nat) (table : Nat) (i : Nat) (key : List Byte), g < 2) ∧
    (∃ (b : Bench) (g : Nat) (table : Nat) (i : Nat) (key : List Byte), g < 2 ∧ b.findKey table (2 ^ g) key = some i) ∧
    (∃ (b : Bench) (g : Nat) (table : Nat) (key : List Byte), g < 2 ∧ b.findKey table (2 ^ g) key = none) ∧
    (∃ (b : Bench) (p : Pkt) (fv : List Byte) (i : Nat), p.gen < 2 ∧ (b.matchStage p fv []).1.hit = some i) ∧
    (∃ (b : Bench) (p : Pkt) (fv : List Byte), p.gen < 2 ∧ (b.matchStage p fv []).1.hit = none ∧ (b.matchStage p fv []).1.spoil = 0 ∧ bit (b.recipe p.gen (leNat (slice fv 80 1)) 0) 1 = true) :=
  ⟨⟨tTab, 0, 0, tSlot, [9#8], by decide⟩,
   ⟨tTab, 0, 0, tSlot, [9#8], by decide, by decide⟩,
   ⟨tB, 0, 0, [9#8], by decide, by decide⟩,
   ⟨(tTab.setReg (R.match_RECIPE 0) 0x3#32).setReg (R.match_RECIPE 4) 0xFFFF1080#32, tPkt, [9#8], tSlot, by decide, by decide⟩,
   ⟨(tB.setReg (R.match_RECIPE 0) 0x3#32).setReg (R.match_RECIPE 4) 0xFFFF1080#32, tPkt, [9#8], by decide, by decide, by decide, by decide⟩⟩

/-- The hypotheses of TableOperations are met, clause by clause. -/
theorem witness_TableOperations :
    (∃ (n : BenchId) (o : TableOp) (t : List TableOp) (i : Nat) (s : State), (s.dev.bench n).live = true ∧ (s.dev.bench n).mt.opq = o :: t ∧ o.res = none ∧ o.op = 0 ∧ keyImageOk o.image = true ∧ (s.dev.bench n).findKey (slTable o.image) (slGen o.image) (slKey o.image) = some i) ∧
    (∃ (n : BenchId) (o : TableOp) (t : List TableOp) (s : State), (s.dev.bench n).live = true ∧ (s.dev.bench n).mt.opq = o :: t ∧ o.res = none ∧ o.op = 0 ∧ keyImageOk o.image = true ∧ (s.dev.bench n).findKey (slTable o.image) (slGen o.image) (slKey o.image) = none) ∧
    (∃ (n : BenchId) (o : TableOp) (t : List TableOp) (s : State), (s.dev.bench n).live = true ∧ (s.dev.bench n).mt.opq = o :: t ∧ o.res = none ∧ o.op = 0 ∧ keyImageOk o.image = false) ∧
    (∃ (n : BenchId) (o : TableOp) (t : List TableOp) (s : State), (s.dev.bench n).live = true ∧ (s.dev.bench n).mt.opq = o :: t ∧ o.res = none ∧ o.op = 1) ∧
    (∃ (n : BenchId) (o : TableOp) (t : List TableOp) (i : Nat) (s : State), (s.dev.bench n).live = true ∧ (s.dev.bench n).mt.opq = o :: t ∧ o.res = none ∧ o.op = 2 ∧ imageOk o.image = true ∧ (s.dev.bench n).findKey (slTable o.image) (slGen o.image) (slKey o.image) = none ∧ (s.dev.bench n).fld (R.match_TABLE_COUNT_COUNT (slTable o.image)) < (s.dev.bench n).fld (R.match_TABLE_CFG_LIMIT (slTable o.image)) ∧ (if (s.dev.bench n).freeSlots 0 ((s.dev.bench n).candidate 0 (slTable o.image) (slKey o.image)) < (s.dev.bench n).freeSlots 1 ((s.dev.bench n).candidate 1 (slTable o.image) (slKey o.image)) then (s.dev.bench n).freeSlot 1 ((s.dev.bench n).candidate 1 (slTable o.image) (slKey o.image)) else (s.dev.bench n).freeSlot 0 ((s.dev.bench n).candidate 0 (slTable o.image) (slKey o.image))) = some i ∧ (s.dev.bench n).frozen o.image = false) ∧
    (∃ (n : BenchId) (o : TableOp) (t : List TableOp) (s : State), (s.dev.bench n).live = true ∧ (s.dev.bench n).mt.opq = o :: t ∧ o.res = none ∧ o.op = 2 ∧ imageOk o.image = true ∧ (s.dev.bench n).findKey (slTable o.image) (slGen o.image) (slKey o.image) = none ∧ (s.dev.bench n).fld (R.match_TABLE_COUNT_COUNT (slTable o.image)) < (s.dev.bench n).fld (R.match_TABLE_CFG_LIMIT (slTable o.image)) ∧ (s.dev.bench n).freeSlot 0 ((s.dev.bench n).candidate 0 (slTable o.image) (slKey o.image)) = none ∧ (s.dev.bench n).freeSlots 1 ((s.dev.bench n).candidate 1 (slTable o.image) (slKey o.image)) = 0) ∧
    (∃ (n : BenchId) (o : TableOp) (t : List TableOp) (s : State), (s.dev.bench n).live = true ∧ (s.dev.bench n).mt.opq = o :: t ∧ o.res = none ∧ o.op = 2 ∧ imageOk o.image = false) ∧
    (∃ (n : BenchId) (o : TableOp) (t : List TableOp) (i : Nat) (s : State), (s.dev.bench n).live = true ∧ (s.dev.bench n).mt.opq = o :: t ∧ o.res = none ∧ o.op = 2 ∧ imageOk o.image = true ∧ (s.dev.bench n).findKey (slTable o.image) (slGen o.image) (slKey o.image) = some i) ∧
    (∃ (n : BenchId) (o : TableOp) (t : List TableOp) (s : State), (s.dev.bench n).live = true ∧ (s.dev.bench n).mt.opq = o :: t ∧ o.res = none ∧ o.op = 2 ∧ imageOk o.image = true ∧ (s.dev.bench n).findKey (slTable o.image) (slGen o.image) (slKey o.image) = none ∧ (s.dev.bench n).fld (R.match_TABLE_CFG_LIMIT (slTable o.image)) ≤ (s.dev.bench n).fld (R.match_TABLE_COUNT_COUNT (slTable o.image))) ∧
    (∃ (n : BenchId) (o : TableOp) (t : List TableOp) (s : State), (s.dev.bench n).live = true ∧ (s.dev.bench n).mt.opq = o :: t ∧ o.res = none ∧ o.op = 3 ∧ imageOk o.image = true ∧ slValid ((s.dev.bench n).slot o.slot) = true ∧ slTable ((s.dev.bench n).slot o.slot) = slTable o.image ∧ slKey ((s.dev.bench n).slot o.slot) = slKey o.image ∧ slAction ((s.dev.bench n).slot o.slot) = o.expect ∧ ((s.dev.bench n).keySlots o.image).find? (fun j => j ≠ o.slot && (s.dev.bench n).holds (slTable o.image) (slGen o.image) (slKey o.image) j) = none ∧ (s.dev.bench n).frozen ((s.dev.bench n).slot o.slot) = false) ∧
    (∃ (n : BenchId) (o : TableOp) (t : List TableOp) (s : State), (s.dev.bench n).live = true ∧ (s.dev.bench n).mt.opq = o :: t ∧ o.res = none ∧ o.op = 3 ∧ imageOk o.image = true ∧ slValid ((s.dev.bench n).slot o.slot) = true ∧ slTable ((s.dev.bench n).slot o.slot) = slTable o.image ∧ slKey ((s.dev.bench n).slot o.slot) = slKey o.image ∧ slAction ((s.dev.bench n).slot o.slot) ≠ o.expect) ∧
    (∃ (n : BenchId) (o : TableOp) (t : List TableOp) (s : State), (s.dev.bench n).live = true ∧ (s.dev.bench n).mt.opq = o :: t ∧ o.res = none ∧ o.op = 3 ∧ imageOk o.image = true ∧ ((slValid ((s.dev.bench n).slot o.slot) = false ∨ slTable ((s.dev.bench n).slot o.slot) ≠ slTable o.image ∨ slKey ((s.dev.bench n).slot o.slot) ≠ slKey o.image))) ∧
    (∃ (n : BenchId) (o : TableOp) (t : List TableOp) (i : Nat) (s : State), (s.dev.bench n).live = true ∧ (s.dev.bench n).mt.opq = o :: t ∧ o.res = none ∧ o.op = 4 ∧ keyImageOk o.image = true ∧ (s.dev.bench n).findKey (slTable o.image) (slGen o.image) (slKey o.image) = some i ∧ (s.dev.bench n).frozen ((s.dev.bench n).slot i) = false) ∧
    (∃ (n : BenchId) (o : TableOp) (t : List TableOp) (i : Nat) (s : State), (s.dev.bench n).live = true ∧ (s.dev.bench n).mt.opq = o :: t ∧ o.res = none ∧ o.op = 4 ∧ keyImageOk o.image = true ∧ (s.dev.bench n).findKey (slTable o.image) (slGen o.image) (slKey o.image) = some i ∧ (s.dev.bench n).frozen ((s.dev.bench n).slot i) = true) ∧
    (∃ (n : BenchId) (o : TableOp) (t : List TableOp) (s : State), (s.dev.bench n).live = true ∧ (s.dev.bench n).mt.opq = o :: t ∧ o.res = none ∧ o.op = 4 ∧ keyImageOk o.image = true ∧ (s.dev.bench n).findKey (slTable o.image) (slGen o.image) (slKey o.image) = none) ∧
    (∃ (n : BenchId) (o : TableOp) (t : List TableOp) (s : State), (s.dev.bench n).live = true ∧ (s.dev.bench n).mt.opq = o :: t ∧ o.res = none ∧ o.op = 1) ∧
    (∃ (n : BenchId) (o : TableOp) (t : List TableOp) (s : State), (s.dev.bench n).live = true ∧ (s.dev.bench n).mt.opq = o :: t ∧ o.res = none ∧ o.op = 5 ∧ slValid ((s.dev.bench n).slot o.slot) = true ∧ slValid ((s.dev.bench n).slot o.dst) = false ∧ (s.dev.bench n).candidate (o.dst / 32768) (slTable ((s.dev.bench n).slot o.slot)) (slKey ((s.dev.bench n).slot o.slot)) = o.dst / 4 % 8192) ∧
    (∃ (n : BenchId) (o : TableOp) (t : List TableOp) (s : State), (s.dev.bench n).live = true ∧ (s.dev.bench n).mt.opq = o :: t ∧ o.res = none ∧ o.op = 5 ∧ slValid ((s.dev.bench n).slot o.slot) = false) ∧
    (∃ (n : BenchId) (o : TableOp) (t : List TableOp) (s : State), (s.dev.bench n).live = true ∧ (s.dev.bench n).mt.opq = o :: t ∧ o.res = none ∧ o.op = 6 ∧ ((slValid ((s.dev.bench n).slot o.slot) = false ∨ (s.dev.bench n).frozen ((s.dev.bench n).slot o.slot) = false))) ∧
    (∃ (n : BenchId) (o : TableOp) (t : List TableOp) (r : OpResult) (s : State), (s.dev.bench n).live = true ∧ (s.dev.bench n).mt.opq = o :: t ∧ o.res = some r ∧ o.src = .reg ∧ (s.dev.bench n).quiet) :=
  ⟨⟨0, tOp 0 0, [], tSlot, tS tH (tTab.asked (tOp 0 0)), by decide, by decide, by decide, by decide, by decide, by decide⟩,
   ⟨0, tOp 0 0, [], tS tH (tB.asked (tOp 0 0)), by decide, by decide, by decide, by decide, by decide, by decide⟩,
   ⟨0, { tOp 0 0 with image := [] }, [], tS tH (tB.asked { tOp 0 0 with image := [] }), by decide, by decide, by decide, by decide, by decide⟩,
   ⟨0, tOp 1 65535, [], tS tH (tB.asked (tOp 1 65535)), by decide, by decide, by decide, by decide⟩,
   ⟨0, tOp 2 0, [], tSlot, tS tH ((tB.setFld (R.match_TABLE_CFG_LIMIT 0) 5).asked (tOp 2 0)), by decide, by decide, by decide, by decide, by decide, by decide, by decide, by decide, by decide⟩,
   ⟨0, tOp 2 0, [], tS tH (((tB.setFld (R.match_TABLE_CFG_LIMIT 0) 5).fullBuckets).asked (tOp 2 0)), by decide, by decide, by decide, by decide, by decide, by decide, by decide, by decide, by decide⟩,
   ⟨0, { tOp 2 0 with image := [] }, [], tS tH (tB.asked { tOp 2 0 with image := [] }), by decide, by decide, by decide, by decide, by decide⟩,
   ⟨0, tOp 2 0, [], tSlot, tS tH (tTab.asked (tOp 2 0)), by decide, by decide, by decide, by decide, by decide, by decide⟩,
   ⟨0, tOp 2 0, [], tS tH ((tB.setFld (R.match_TABLE_CFG_LIMIT 0) 0).asked (tOp 2 0)), by decide, by decide, by decide, by decide, by decide, by decide, by decide⟩,
   ⟨0, { tOp 3 tSlot with expect := slAction tImg }, [], tS tH (tTab.asked { tOp 3 tSlot with expect := slAction tImg }), by decide, by decide, by decide, by decide, by decide, by decide, by decide, by decide, by decide, by decide, by decide⟩,
   ⟨0, tOp 3 tSlot, [], tS tH (tTab.asked (tOp 3 tSlot)), by decide, by decide, by decide, by decide, by decide, by decide, by decide, by decide, by decide⟩,
   ⟨0, tOp 3 3, [], tS tH (tTab.asked (tOp 3 3)), by decide, by decide, by decide, by decide, by decide, by decide⟩,
   ⟨0, tOp 4 0, [], tSlot, tS tH (tTab.asked (tOp 4 0)), by decide, by decide, by decide, by decide, by decide, by decide, by decide⟩,
   ⟨0, { tOp 4 0 with image := tImgOld }, [], tSlot, tS tH (tTabOld.asked { tOp 4 0 with image := tImgOld }), by decide, by decide, by decide, by decide, by decide, by decide, by decide⟩,
   ⟨0, tOp 4 0, [], tS tH (tB.asked (tOp 4 0)), by decide, by decide, by decide, by decide, by decide, by decide⟩,
   ⟨0, tOp 1 65535, [], tS tH (tB.asked (tOp 1 65535)), by decide, by decide, by decide, by decide⟩,
   ⟨0, { tOp 5 tSlot with dst := tSlot + 1 }, [], tS tH (tTab.asked { tOp 5 tSlot with dst := tSlot + 1 }), by decide, by decide, by decide, by decide, by decide, by decide, by decide⟩,
   ⟨0, tOp 5 3, [], tS tH (tTab.asked (tOp 5 3)), by decide, by decide, by decide, by decide, by decide⟩,
   ⟨0, tOp 6 tSlot, [], tS tH (tTab.asked (tOp 6 tSlot)), by decide, by decide, by decide, by decide, by decide⟩,
   ⟨0, { tOp 0 0 with res := some (OpResult.plain 0 (some tSlot)) }, [], OpResult.plain 0 (some tSlot), tS tH (tTab.asked { tOp 0 0 with res := some (OpResult.plain 0 (some tSlot)) }), by decide, by decide, by decide, by decide, ⟨by decide, by decide, by decide, by decide⟩⟩⟩

/-- The hypotheses of SweepAndLearning are met, clause by clause. -/
theorem witness_SweepAndLearning :
    (∃ (n : BenchId) (v : Word) (s : State), (s.dev.bench n).live = true ∧ v.toNat < 8 ∧ bit v.toNat 0 = false ∧ bit v.toNat 1 = false ∧ (s.dev.bench n).sweepSt = 0) ∧
    (∃ (n : BenchId) (s : State), (s.dev.bench n).live = true ∧ (s.dev.bench n).sweepSt ≠ 0 ∧ (s.dev.bench n).fld R.match_SWEEP_CTL_BANK = 0) ∧
    (∃ (n : BenchId) (s : State), (s.dev.bench n).live = true ∧ (s.dev.bench n).sweepSt ≠ 0 ∧ (s.dev.bench n).fld R.match_SWEEP_CTL_BANK = 1) ∧
    (∃ (n : BenchId) (s : State), (s.dev.bench n).live = true ∧ (s.dev.bench n).sweepSt = 2 ∧ (s.dev.bench n).fld R.match_SWEEP_CTL_BANK = 0) ∧
    (∃ (n : BenchId) (s : State), (s.dev.bench n).live = true ∧ (s.dev.bench n).sweepSt ≠ 2 ∧ (s.dev.bench n).fld R.match_SWEEP_CTL_BANK = 0) ∧
    (∃ (n : BenchId) (s : State), (s.dev.bench n).live = true ∧ (s.dev.bench n).sweepSt = 1 ∧ (s.dev.bench n).fld R.match_SWEEP_STATUS_BUCKET < 8191 ∧ ((∀ k, k < 4 → slValid ((s.dev.bench n).slot (slotIdx (s.dev.bench n).sweepBank ((s.dev.bench n).fld R.match_SWEEP_STATUS_BUCKET) k)) = false))) ∧
    (∃ (n : BenchId) (s : State), (s.dev.bench n).live = true ∧ (s.dev.bench n).sweepSt = 1 ∧ (s.dev.bench n).fld R.match_SWEEP_STATUS_BUCKET = 8191 ∧ ((∀ k, k < 4 → slValid ((s.dev.bench n).slot (slotIdx (s.dev.bench n).sweepBank 8191 k)) = false))) ∧
    (∃ (n : BenchId) (r : LearnRec) (t : List LearnRec) (s : State), (s.dev.bench n).live = true ∧ (s.dev.bench n).mt.learnq = r :: t ∧ r.pkt.isSome = true ∧ r.wait = false ∧ (((s.dev.bench n).fld R.match_LEARN_CTL_HOLDOFF_US = 0 ∨ ((s.dev.bench n).mt.filter.filter (fun f => (s.dev.bench n).cyc < f.expiry)).any (fun f => f.same r) = false)) ∧ (s.dev.bench n).quiet) ∧
    (∃ (n : BenchId) (r : LearnRec) (t : List LearnRec) (s : State), (s.dev.bench n).live = true ∧ (s.dev.bench n).mt.learnq = r :: t ∧ r.pkt.isSome = true ∧ r.wait = false ∧ (s.dev.bench n).fld R.match_LEARN_CTL_HOLDOFF_US ≠ 0 ∧ ((s.dev.bench n).mt.filter.filter (fun f => (s.dev.bench n).cyc < f.expiry)).any (fun f => f.same r) = true ∧ (s.dev.bench n).quiet) ∧
    (∃ (n : BenchId) (r : LearnRec) (t : List LearnRec) (s : State), (s.dev.bench n).live = true ∧ (s.dev.bench n).mt.learnq = r :: t ∧ r.pkt.isSome = true ∧ r.wait = true ∧ (s.dev.bench n).quiet) ∧
    (∃ (n : BenchId) (r : LearnRec) (t : List LearnRec) (s : State), (s.dev.bench n).live = true ∧ (s.dev.bench n).mt.learnq = r :: t ∧ r.pkt = none ∧ (s.dev.bench n).flag R.match_LEARN_CTL_DEST = true) ∧
    (∃ (n : BenchId) (s : State), (s.dev.bench n).live = true ∧ (s.dev.bench n).flag R.match_LEARN_CTL_DEST = true ∧ (s.dev.bench n).takeLearn = none) ∧
    (∃ (n : BenchId) (s : State), (s.dev.bench n).live = true ∧ (s.dev.bench n).flag R.match_LEARN_CTL_DEST = false) ∧
    (∃ (n : BenchId) (r : LearnRec) (t : List LearnRec) (s : State), (s.dev.bench n).live = true ∧ s.dev.hub.ryuner = true ∧ (s.dev.hub.policy n).policy ≠ 0 ∧ (s.dev.bench n).mt.opq = [] ∧ (s.dev.bench n).flag R.match_LEARN_CTL_DEST = true ∧ (s.dev.bench n).mt.learnq = r :: t ∧ r.pkt = none ∧ 32768 ≤ r.source) :=
  ⟨⟨0, 4#32, tS tH tB, by decide, by decide, by decide, by decide, by decide⟩,
   ⟨0, tS tH (tB.setFld R.match_SWEEP_STATUS_STATE 1), by decide, by decide, by decide⟩,
   ⟨0, tS tH ((tB.setFld R.match_SWEEP_STATUS_STATE 1).setFld R.match_SWEEP_CTL_BANK 1), by decide, by decide, by decide⟩,
   ⟨0, tS tH (tB.setFld R.match_SWEEP_STATUS_STATE 2), by decide, by decide, by decide⟩,
   ⟨0, tS tH tB, by decide, by decide, by decide⟩,
   ⟨0, tS tH ((tB.setFld R.match_SWEEP_STATUS_STATE 1).setFld R.match_SWEEP_STATUS_BUCKET 8190), by decide, by decide, by decide, by decide⟩,
   ⟨0, tS tH ((tB.setFld R.match_SWEEP_STATUS_STATE 1).setFld R.match_SWEEP_STATUS_BUCKET 8191), by decide, by decide, by decide, by decide⟩,
   ⟨0, { tRec with pkt := some 3, wait := false }, [], tS tH (tB.learned { tRec with pkt := some 3, wait := false }), by decide, by decide, by decide, by decide, by decide, ⟨by decide, by decide, by decide, by decide⟩⟩,
   ⟨0, { tRec with pkt := some 3, wait := false }, [], tS tH (tB.learned { tRec with pkt := some 3, wait := false }).filtering, by decide, by decide, by decide, by decide, by decide, by decide, ⟨by decide, by decide, by decide, by decide⟩⟩,
   ⟨0, { tRec with pkt := some 3, wait := true }, [], tS tH (tB.learned { tRec with pkt := some 3, wait := true }), by decide, by decide, by decide, by decide, ⟨by decide, by decide, by decide, by decide⟩⟩,
   ⟨0, tRec, [], tS tH ((tB.setFld R.match_LEARN_CTL_DEST 1).learned tRec), by decide, by decide, by decide, by decide⟩,
   ⟨0, tS tH (tB.setFld R.match_LEARN_CTL_DEST 1), by decide, by decide, by decide⟩,
   ⟨0, tS tH (tB.setFld R.match_LEARN_CTL_DEST 0), by decide, by decide⟩,
   ⟨0, { tRec with source := 32768 }, [], tS (tH.setPolicy 0 { LearnPolicy.reset with policy := 1 }) ((tB.setFld R.match_LEARN_CTL_DEST 1).learned { tRec with source := 32768 }), by decide, by decide, by decide, by decide, by decide, by decide, by decide, by decide⟩⟩

/-- The hypotheses of CipherCommands are met, clause by clause. -/
theorem witness_CipherCommands :
    (∃ (n : BenchId) (enc : Bool) (p : Pkt) (j : CipherJob) (r : CipherJob × Bench) (s : State), (s.dev.bench n).live = true ∧ (s.dev.bench n).flag R.cipher_CIPHER_STATUS_HALTED = false ∧ ((s.dev.bench n).working enc).head?.bind ((s.dev.bench n).jobOf enc) = some (p, j) ∧ (s.dev.bench n).stepAllowed p j = true ∧ r = (s.dev.bench n).cipherTo p.handle j (min (j.stepEnd p) (j.stop p))) ∧
    (∃ (n : BenchId) (enc : Bool) (p : Pkt) (j : CipherJob) (s : State), (s.dev.bench n).live = true ∧ ((s.dev.bench n).working enc).head?.bind ((s.dev.bench n).jobOf enc) = some (p, j) ∧ (s.dev.bench n).stepAllowed p j = false) ∧
    (∃ (n : BenchId) (enc : Bool) (s : State), (s.dev.bench n).live = true ∧ (s.dev.bench n).flag R.cipher_CIPHER_STATUS_HALTED = true) ∧
    (∃ (n : BenchId) (id : Nat) (p : Pkt) (j : CipherJob) (s : State), (s.dev.bench n).live = true ∧ (s.dev.bench n).ci.queue.find? (fun x => x.1 = true) = some (true, id) ∧ (s.dev.bench n).jobOf true id = some (p, j) ∧ p.ended = true ∧ stepsLeft (p, j) = false ∧ p.decPending = false) ∧
    (∃ (n : BenchId) (id : Nat) (p : Pkt) (j : CipherJob) (k : CipherJob × Bench) (b : Bench) (r : Nat × Nat) (s : State), (s.dev.bench n).live = true ∧ (s.dev.bench n).ci.queue.find? (fun x => x.1 = false) = some (false, id) ∧ (s.dev.bench n).jobOf false id = some (p, j) ∧ p.ended = true ∧ stepsLeft (p, j) = false ∧ k = ((s.dev.bench n).cipherAgree false).cipherTo p.handle j (j.stop p) ∧ b = k.2.updJob false p.id (fun _ => k.1) ∧ r = b.openTail p k.1) ∧
    (∃ (n : BenchId) (enc : Bool) (id : Nat) (p : Pkt) (j : CipherJob) (d : Nat) (s : State), (s.dev.bench n).live = true ∧ (s.dev.bench n).ci.queue.find? (fun x => x.1 = enc) = some (enc, id) ∧ (s.dev.bench n).jobOf enc id = some (p, j) ∧ p.ended = true ∧ stepsLeft (p, j) = false ∧ (enc && p.decPending) = false ∧ d = (if enc then 0 else 1)) ∧
    (∃ (n : BenchId) (s : State), (s.dev.bench n).live = true ∧ (s.dev.bench n).flag R.cipher_CIPHER_STATUS_HALTED = false) ∧
    (∃ (n : BenchId) (s : State), (s.dev.bench n).live = true ∧ (s.dev.bench n).flag R.cipher_CIPHER_STATUS_HALTED = true) ∧
    (∃ (n : BenchId) (s : State), (s.dev.bench n).live = true ∧ (s.dev.bench n).ci.restarting = true) ∧
    (∃ (n : BenchId) (i : Nat) (s : State), (s.dev.bench n).live = true ∧ i < 16384 ∧ (s.dev.bench n).saResult i (s.dev.bench n).saStaged = 0) ∧
    (∃ (n : BenchId) (i : Nat) (r : Nat) (s : State), (s.dev.bench n).live = true ∧ i < 16384 ∧ (s.dev.bench n).saResult i (s.dev.bench n).saStaged = r ∧ r ≠ 0) ∧
    (∃ (n : BenchId) (i : Nat) (s : State), (s.dev.bench n).live = true ∧ i < 16384 ∧ (s.dev.bench n).saFlag i 2 = true ∧ (s.dev.bench n).saInUse i = false) ∧
    (∃ (n : BenchId) (i : Nat) (s : State), (s.dev.bench n).live = true ∧ (s.dev.bench n).saInUse i = true) :=
  ⟨⟨0, true, { tPkt with len := 600, jobs := [tJob true] }, tJob true, _, tS tH (tCi true 600), by decide, by decide, by decide, by decide, rfl⟩,
   ⟨0, true, { tPkt with len := 600, ended := false, jobs := [tJob true] }, tJob true, tS tH (tCi true 600).unended, by decide, by decide, by decide⟩,
   ⟨0, true, tS tH (tB.setFld R.cipher_CIPHER_STATUS_HALTED 1), by decide, by decide⟩,
   ⟨0, 1, { tPkt with jobs := [tJob true] }, tJob true, tS tH (tCi true 64), by decide, by decide, by decide, by decide, by decide, by decide⟩,
   ⟨0, 1, { tPkt with jobs := [tJob false] }, tJob false, _, _, _, tS tH (tCi false 64), by decide, by decide, by decide, by decide, by decide, rfl, rfl, rfl⟩,
   ⟨0, true, 1, { tPkt with jobs := [tJob true] }, tJob true, _, tS tH (tCi true 64), by decide, by decide, by decide, by decide, by decide, by decide, rfl⟩,
   ⟨0, tS tH tB, by decide, by decide⟩,
   ⟨0, tS tH (tB.setFld R.cipher_CIPHER_STATUS_HALTED 1), by decide, by decide⟩,
   ⟨0, tS tH { tB with ci := { tB.ci with restarting := true } }, by decide, by decide⟩,
   ⟨0, 16383, tS tH ((tB.setReg (R.cipher_SA_STAGE 0) 0x200#32).setReg (R.cipher_SA_STAGE 6) 1#32), by decide, by decide, by decide⟩,
   ⟨0, 16383, 3, tS tH (tB.setReg (R.cipher_SA_STAGE 0) 2#32), by decide, by decide, by decide, by decide⟩,
   ⟨0, 16383, tS tH (tB.setSaFlag 16383 2 true), by decide, by decide, by decide, by decide⟩,
   ⟨0, 0, tS tH (tCi true 64), by decide, by decide⟩⟩

/-- The hypotheses of TrafficManagerCommands are met, clause by clause. -/
theorem witness_TrafficManagerCommands :
    (∃ (n : BenchId) (ecc : Ecc) (id : Nat) (t : List Nat) (p : Pkt) (s : State), (s.dev.bench n).live = true ∧ (s.dev.bench n).tm.side = id :: t ∧ (s.dev.bench n).pkt? id = some p) ∧
    (∃ (n : BenchId) (s : State), (s.dev.bench n).live = true) ∧
    (∃ (n : BenchId) (s : State), (s.dev.bench n).live = true) ∧
    (∃ (n : BenchId) (m : Nat) (s : State), (s.dev.bench n).live = true ∧ m < 32768 ∧ meterBad (s.dev.bench n).meterStaged = false) ∧
    (∃ (n : BenchId) (m : Nat) (s : State), (s.dev.bench n).live = true ∧ m < 32768 ∧ meterBad (s.dev.bench n).meterStaged = true) ∧
    (∃ (n : BenchId) (q : Nat) (s : State), (s.dev.bench n).live = true ∧ q < 8192 ∧ (s.dev.bench n).qctxResult q (s.dev.bench n).qctxStaged = 0) ∧
    (∃ (n : BenchId) (q : Nat) (s : State), (s.dev.bench n).live = true ∧ q < 8192 ∧ (s.dev.bench n).qctxResult q (s.dev.bench n).qctxStaged = 1) ∧
    (∃ (n : BenchId) (q : Nat) (r : Nat) (s : State), (s.dev.bench n).live = true ∧ q < 8192 ∧ (s.dev.bench n).qctxResult q (s.dev.bench n).qctxStaged = r ∧ 1 < r) ∧
    (∃ (n : BenchId) (q : Nat) (s : State), (s.dev.bench n).live = true ∧ q < 8192) ∧
    (∃ (n : BenchId) (p : Nat) (lead : Nat) (b : Bench) (x : Nat × Cand) (s : State), (s.dev.bench n).live = true ∧ (s.dev.bench n).hasPort p = true ∧ b = ((List.range 9).foldl (fun b c => b.refreshShaper p c) ((s.dev.bench n).commitWeights p)).dropOversize p ∧ b.flag (R.face_PORT_STATUS_PAUSED p) = false ∧ b.conforms p 8 = true ∧ b.pktAt? (.selected p) = none ∧ b.chooseClass p ((List.range 8).filterMap (fun c => if bit (b.fld (R.face_PORT_STATUS_PFC_PAUSED p)) c || !b.conforms p c then none else (b.classHead p c lead (b.portQueues p)).map (fun x => (c, x)))) = some x) ∧
    (∃ (n : BenchId) (p : Nat) (lead : Nat) (b : Bench) (s : State), (s.dev.bench n).live = true ∧ (s.dev.bench n).hasPort p = true ∧ b = ((List.range 9).foldl (fun b c => b.refreshShaper p c) ((s.dev.bench n).commitWeights p)).dropOversize p ∧ b.chooseClass p ((List.range 8).filterMap (fun c => if bit (b.fld (R.face_PORT_STATUS_PFC_PAUSED p)) c || !b.conforms p c then none else (b.classHead p c lead (b.portQueues p)).map (fun x => (c, x)))) = none) ∧
    (∃ (n : BenchId) (p : Nat) (lead : Nat) (b : Bench) (s : State), (s.dev.bench n).live = true ∧ (s.dev.bench n).hasPort p = true ∧ b = ((List.range 9).foldl (fun b c => b.refreshShaper p c) ((s.dev.bench n).commitWeights p)).dropOversize p ∧ ((b.flag (R.face_PORT_STATUS_PAUSED p) = true ∨ b.conforms p 8 = false ∨ (b.pktAt? (.selected p)).isSome = true))) ∧
    (∃ (n : BenchId) (id : Nat) (t : List Nat) (p : Pkt) (s : State), (s.dev.bench n).live = true ∧ (s.dev.bench n).tm.hostQ = id :: t ∧ (s.dev.bench n).pkt? id = some p ∧ p.ended = true ∧ p.verdictPending = false ∧ p.fix = [] ∧ ((s.dev.bench n).chanCmds 1).length < 16) ∧
    (∃ (n : BenchId) (id : Nat) (t : List Nat) (p : Pkt) (s : State), (s.dev.bench n).live = true ∧ (s.dev.bench n).tm.hostQ = id :: t ∧ (s.dev.bench n).pkt? id = some p ∧ ((p.ended = false ∨ p.verdictPending = true ∨ p.fix ≠ [] ∨ 16 ≤ ((s.dev.bench n).chanCmds 1).length))) :=
  ⟨⟨0, [], 1, [], { tPkt with loc := .side }, tS tH (let b := tPool.withPkts [{ tPkt with loc := .side }]; { b with tm := { b.tm with side := [1] } }), by decide, by decide, by decide⟩,
   ⟨0, tS tH { tB with tm := { tB.tm with refresh := 32767 } }, by decide⟩,
   ⟨0, tS tH { tB with tm := { tB.tm with refresh := 32767 } }, by decide⟩,
   ⟨0, 32767, tS tH tB, by decide, by decide, by decide⟩,
   ⟨0, 32767, tS tH (tB.setReg (R.tm_MTR_STAGE 1) 1#32), by decide, by decide, by decide⟩,
   ⟨0, 8191, tS tH (tB.setReg (R.tm_QCTX_STAGE 1) 1#32), by decide, by decide, by decide⟩,
   ⟨0, 8191, tS tH tB, by decide, by decide, by decide⟩,
   ⟨0, 8191, 2, tS tH ((tB.setReg (R.tm_QCTX_STAGE 1) 1#32).setReg (R.tm_QCTX_STAGE 7) 1#32), by decide, by decide, by decide, by decide⟩,
   ⟨0, 8191, tS tH tB, by decide, by decide⟩,
   ⟨0, 0, 0, _, (0, (0, { tPkt with loc := .flow 0 })), tS tH (let b := tB.withPkts [{ tPkt with loc := .flow 0 }]; { b with tm := { b.tm with flow := [1] } }), by decide, by decide, rfl, by decide, by decide, by decide, by decide⟩,
   ⟨0, 3, 0, _, tS tH tB, by decide, by decide, rfl, by decide⟩,
   ⟨0, 3, 0, _, tS tH (tB.setFld (R.face_PORT_STATUS_PAUSED 3) 1), by decide, by decide, rfl, by decide⟩,
   ⟨0, 1, [], { tPkt with loc := .hostQ }, tS tH (let b := tB.withPkts [{ tPkt with loc := .hostQ }]; { b with tm := { b.tm with hostQ := [1] } }), by decide, by decide, by decide, by decide, by decide, by decide, by decide⟩,
   ⟨0, 1, [], { tPkt with loc := .hostQ, ended := false }, tS tH (let b := tB.withPkts [{ tPkt with loc := .hostQ, ended := false }]; { b with tm := { b.tm with hostQ := [1] } }), by decide, by decide, by decide, by decide⟩⟩

/-- The hypotheses of GateLists are met, clause by clause. -/
theorem witness_GateLists :
    (∃ (n : BenchId) (p : Nat) (s : State), (s.dev.bench n).live = true ∧ (s.dev.bench n).hasPort p = true ∧ (s.dev.bench n).gatePending p = false ∧ (s.dev.bench n).gateBad p = false ∧ (s.dev.bench n).time.ticks < (s.dev.bench n).gateStart p) ∧
    (∃ (n : BenchId) (p : Nat) (s : State), (s.dev.bench n).live = true ∧ (s.dev.bench n).hasPort p = true ∧ (s.dev.bench n).gatePending p = false ∧ (s.dev.bench n).gateBad p = false ∧ (s.dev.bench n).gateStart p ≤ (s.dev.bench n).time.ticks) ∧
    (∃ (n : BenchId) (p : Nat) (s : State), (s.dev.bench n).live = true ∧ (s.dev.bench n).hasPort p = true ∧ (s.dev.bench n).gatePending p = false ∧ (s.dev.bench n).gateBad p = true) ∧
    (∃ (n : BenchId) (p : Nat) (s : State), (s.dev.bench n).live = true ∧ (s.dev.bench n).hasPort p = true ∧ (s.dev.bench n).gatePending p = true) ∧
    (∃ (n : BenchId) (p : Nat) (s : State), (s.dev.bench n).live = true ∧ (s.dev.bench n).hasPort p = true) ∧
    (∃ (n : BenchId) (p : Nat) (s : State), (s.dev.bench n).live = true ∧ (s.dev.bench n).hasPort p = false) ∧
    (∃ (n : BenchId) (p : Nat) (s : State), (s.dev.bench n).live = true ∧ (s.dev.bench n).hasPort p = true ∧ (s.dev.bench n).gatePending p = true ∧ (s.dev.bench n).gateStartAt p ≤ (s.dev.bench n).time.ticks) ∧
    (∃ (n : BenchId) (p : Nat) (s : State), (s.dev.bench n).live = true ∧ (s.dev.bench n).hasPort p = true ∧ (s.dev.bench n).gatePending p = true ∧ (s.dev.bench n).gateStartAt p ≤ (s.dev.bench n).time.ticks ∧ (s.dev.bench n).pkts = [] ∧ (s.dev.bench n).tm.flow = []) ∧
    (∃ (n : BenchId) (p : Nat) (s : State), (s.dev.bench n).live = true ∧ (((s.dev.bench n).gatePending p = false ∨ (s.dev.bench n).time.ticks < (s.dev.bench n).gateStartAt p))) ∧
    (∃ (n : BenchId) (p : Nat) (s : State), (s.dev.bench n).live = true ∧ (s.dev.bench n).hasPort p = true ∧ (s.dev.bench n).gateOn p = true) ∧
    (∃ (n : BenchId) (p : Nat) (s : State), (s.dev.bench n).live = true ∧ (s.dev.bench n).gateOn p = false) :=
  ⟨⟨0, 0, tS tH ((tB.gateShadowed 0).setReg (R.tm_GATE_START 0 0) 9#32), by decide, by decide, by decide, by decide, by decide⟩,
   ⟨0, 0, tS tH (tB.gateShadowed 0), by decide, by decide, by decide, by decide, by decide⟩,
   ⟨0, 3, tS tH tB, by decide, by decide, by decide, by decide⟩,
   ⟨0, 3, tS tH (tB.setFld (R.tm_GATE_STATUS_PENDING 3) 1), by decide, by decide, by decide⟩,
   ⟨0, 3, tS tH tB, by decide, by decide⟩,
   ⟨0, 4, tS tH tB, by decide, by decide⟩,
   ⟨0, 0, tS tH ((tB.gateShadowed 0).setFld (R.tm_GATE_STATUS_PENDING 0) 1), by decide, by decide, by decide, by decide⟩,
   ⟨0, 0, tS tH ((tB.gateShadowed 0).setFld (R.tm_GATE_STATUS_PENDING 0) 1), by decide, by decide, by decide, by decide, by decide, by decide⟩,
   ⟨0, 0, tS tH tB, by decide, by decide⟩,
   ⟨0, 0, tS tH (tB.setFld (R.tm_GATE_STATUS_ACTIVE_LEN 0) 1 |>.setFld (R.tm_GATE_STATUS_ACTIVE 0) 1), by decide, by decide, by decide⟩,
   ⟨0, 0, tS tH tB, by decide, by decide⟩⟩

/-- The hypotheses of HopperCommands are met, clause by clause. -/
theorem witness_HopperCommands :
    (∃ (n : BenchId) (v : Word) (s : State), (s.dev.bench n).live = true ∧ (s.dev.bench n).flag R.hopper_HOPPER_CTL_ENABLE = false ∧ (s.dev.bench n).carveOk (s.dev.bench n).dramUp (s.dev.bench n).capacity = true) ∧
    (∃ (n : BenchId) (v : Word) (s : State), (s.dev.bench n).live = true ∧ (s.dev.bench n).flag R.hopper_HOPPER_CTL_ENABLE = false ∧ (s.dev.bench n).carveOk (s.dev.bench n).dramUp (s.dev.bench n).capacity = false) ∧
    (∃ (n : BenchId) (v : Word) (s : State), (s.dev.bench n).live = true ∧ (s.dev.bench n).flag R.hopper_HOPPER_CTL_ENABLE = true) ∧
    (∃ (n : BenchId) (s : State), (s.dev.bench n).live = true ∧ (s.dev.bench n).hop.building = true) ∧
    (∃ (n : BenchId) (pkt : Bool) (k : Nat) (i : Nat) (s : State), (s.dev.bench n).live = true ∧ poolFor (((s.dev.bench n).reg R.hopper_HOP_ARG2).toNat % 2 ^ 17 + if pkt then 152 else 0) 4 0 = some k ∧ (s.dev.bench n).flag R.hopper_HOPPER_CTL_ALLOC_SPILL = false ∧ (s.dev.bench n).mayTake .ryuner k = true ∧ (s.dev.bench n).pickFree k = some i) ∧
    (∃ (n : BenchId) (k : Nat) (i : Nat) (s : State), (s.dev.bench n).live = true ∧ k < 5 ∧ (s.dev.bench n).mayTake .ryuner k = true ∧ (s.dev.bench n).pickFree k = some i) ∧
    (∃ (n : BenchId) (k : Nat) (s : State), (s.dev.bench n).live = true ∧ k < 5 ∧ (s.dev.bench n).mayTake .ryuner k = false) ∧
    (∃ (n : BenchId) (k : Nat) (s : State), (s.dev.bench n).live = true ∧ 4 < k ∧ (s.dev.bench n).carved = true) ∧
    (∃ (n : BenchId) (k : Nat) (s : State), (s.dev.bench n).live = true ∧ 4 < k ∧ (s.dev.bench n).carved = false) ∧
    (∃ (n : BenchId) (pkt : Bool) (k : Nat) (s : State), (s.dev.bench n).live = true ∧ poolFor (((s.dev.bench n).reg R.hopper_HOP_ARG2).toNat % 2 ^ 17 + if pkt then 152 else 0) 4 0 = some k ∧ (s.dev.bench n).flag R.hopper_HOPPER_CTL_ALLOC_SPILL = false ∧ (s.dev.bench n).mayTake .ryuner k = false) ∧
    (∃ (n : BenchId) (pkt : Bool) (s : State), (s.dev.bench n).live = true ∧ poolFor (((s.dev.bench n).reg R.hopper_HOP_ARG2).toNat % 2 ^ 17 + if pkt then 152 else 0) 4 0 = none) ∧
    (∃ (n : BenchId) (h : Nat) (a : Nat) (x : Nat) (s : State), (s.dev.bench n).live = true ∧ ((s.dev.bench n).reg R.hopper_HOP_ARG).toNat = h ∧ recordAddr (hPool h) (hOff h) = a ∧ ((s.dev.bench n).reg R.hopper_HOP_ARG2).toNat = x ∧ (s.dev.bench n).checkHandle h = 0 ∧ (s.dev.bench n).recState a = 1 ∧ (s.dev.bench n).recOwner a = 4) ∧
    (∃ (n : BenchId) (h : Nat) (a : Nat) (x : Nat) (s : State), (s.dev.bench n).live = true ∧ ((s.dev.bench n).reg R.hopper_HOP_ARG).toNat = h ∧ recordAddr (hPool h) (hOff h) = a ∧ ((s.dev.bench n).reg R.hopper_HOP_ARG2).toNat = x ∧ (s.dev.bench n).checkHandle h = 0 ∧ (s.dev.bench n).recState a = 2 ∧ (s.dev.bench n).recLast a = 4 ∧ x % 256 = 4 ∧ x / 256 % 256 ≠ 0 ∧ (s.dev.bench n).recRefs a + x / 256 % 256 ≤ 255) ∧
    (∃ (n : BenchId) (h : Nat) (a : Nat) (s : State), (s.dev.bench n).live = true ∧ ((s.dev.bench n).reg R.hopper_HOP_ARG).toNat = h ∧ recordAddr (hPool h) (hOff h) = a ∧ (s.dev.bench n).checkHandle h = 0 ∧ (s.dev.bench n).recState a = 2 ∧ (s.dev.bench n).recLast a ≠ 4) ∧
    (∃ (n : BenchId) (h : Nat) (a : Nat) (s : State), (s.dev.bench n).live = true ∧ ((s.dev.bench n).reg R.hopper_HOP_ARG).toNat = h ∧ recordAddr (hPool h) (hOff h) = a ∧ (s.dev.bench n).checkHandle h = 0 ∧ (s.dev.bench n).recState a = 2 ∧ (s.dev.bench n).recLast a ≠ 4) ∧
    (∃ (n : BenchId) (op : Nat) (h : Nat) (a : Nat) (x : Nat) (c : Nat) (i : Instr) (s : State), (s.dev.bench n).live = true ∧ (((op = opShare ∧ i = .hopShare n []) ∨ (op = opRelease ∧ i = .hopRelease n []) ∨ (op = opFree ∧ i = .hopFree n []) ∨ (op = opGive ∧ i = .hopGive n []))) ∧ ((s.dev.bench n).reg R.hopper_HOP_ARG).toNat = h ∧ recordAddr (hPool h) (hOff h) = a ∧ ((s.dev.bench n).reg R.hopper_HOP_ARG2).toNat = x ∧ c = (if (s.dev.bench n).checkHandle h (hopArgsOk op (x % 256) (x / 256 % 256)) ≠ 0 then (s.dev.bench n).checkHandle h (hopArgsOk op (x % 256) (x / 256 % 256)) else (s.dev.bench n).hopMatrix op 4 a (x % 256) (x / 256 % 256)) ∧ c ≠ 0) ∧
    (∃ (n : BenchId) (s : State), (s.dev.bench n).live = true ∧ (s.dev.bench n).checkHandle ((s.dev.bench n).reg R.hopper_HOP_ARG).toNat = 5) :=
  ⟨⟨0, 0xFFFFFFFF#32, tS tH tB, by decide, by decide, by decide⟩,
   ⟨0, 1#32, tS tH (tB.setFld R.hopper_DPOOL_COUNT_COUNT 1), by decide, by decide, by decide⟩,
   ⟨0, 4#32, tS tH tPool, by decide, by decide⟩,
   ⟨0, tS tH { tB with hop := { tB.hop with building := true } }, by decide, by decide⟩,
   ⟨0, false, 0, 0, tS tH (tPool.setReg R.hopper_HOP_ARG2 64#32), by decide, by decide, by decide, by decide, pickFree_one _ _ (by decide) (by decide)⟩,
   ⟨0, 3, 0, tS tH tPool, by decide, by decide, by decide, pickFree_one _ _ (by decide) (by decide)⟩,
   ⟨0, 4, tS tH tPool, by decide, by decide, by decide⟩,
   ⟨0, 5, tS tH tPool, by decide, by decide, by decide⟩,
   ⟨0, 5, tS tH tB, by decide, by decide, by decide⟩,
   ⟨0, true, 0, tS tH tB, by decide, by decide, by decide, by decide⟩,
   ⟨0, true, tS tH (tB.setReg R.hopper_HOP_ARG2 0x1FFFF#32), by decide, by decide⟩,
   ⟨0, 0x8000000, 0x800000, 0, tS tH (tRecAt 1 4 0 1), by decide, by decide, by decide, by decide, by decide, by decide, by decide⟩,
   ⟨0, 0x8000000, 0x800000, 260, tS tH ((tRecAt 2 5 4 2).setReg R.hopper_HOP_ARG2 260#32), by decide, by decide, by decide, by decide, by decide, by decide, by decide, by decide, by decide, by decide⟩,
   ⟨0, 0x8000000, 0x800000, tS tH (tRecAt 2 5 6 2), by decide, by decide, by decide, by decide, by decide, by decide⟩,
   ⟨0, 0x8000000, 0x800000, tS tH (tRecAt 2 5 7 1), by decide, by decide, by decide, by decide, by decide, by decide⟩,
   ⟨0, opGive, 0x8000000, 0x800000, 0, 3, .hopGive 0 [], tS tH (tRecAt 1 4 0 1), by decide, .inr (.inr (.inr ⟨rfl, rfl⟩)), by decide, by decide, by decide, by decide, by decide⟩,
   ⟨0, tS tH ((tRecAt 0 0 0 0).setReg R.hopper_HOP_ARG 0#32), by decide, by decide⟩⟩

/-- The hypotheses of AluFunctions are met, clause by clause. -/
theorem witness_AluFunctions :
    (∃ (n : BenchId) (c : Nat) (t : Nat) (w : Nat) (s : State) (a : DWord) (b : DWord), AtWord s n (tid c t) w ∧ iOp w = 0x00 ∧ iX5 w = 0 ∧ a = ((s.dev.bench n).thr (tid c t)).greg (iRA w) ∧ b = ((s.dev.bench n).thr (tid c t)).greg (iRB w)) ∧
    (∃ (n : BenchId) (c : Nat) (t : Nat) (w : Nat) (s : State), AtWord s n (tid c t) w ∧ iOp w = 0x00 ∧ iX5 w = 0 ∧ 0x15 < iFN w) ∧
    (∃ (n : BenchId) (c : Nat) (t : Nat) (w : Nat) (s : State), AtWord s n (tid c t) w ∧ iOp w = 0x00 ∧ iX5 w = 0 ∧ 0x15 < iFN w) :=
  ⟨⟨0, 7, 7, tWd 0 1 2 (2048 * 3), tS tH (tRun 7 7 (tWd 0 1 2 (2048 * 3)) [(2, 5), (3, 7)]), 5, 7, ⟨by decide, by decide, by decide, by decide, by decide⟩, by decide, by decide, by decide, by decide⟩,
   ⟨0, 7, 7, tWd 0 1 2 0x16, tS tH (tRun 7 7 (tWd 0 1 2 0x16) []), ⟨by decide, by decide, by decide, by decide, by decide⟩, by decide, by decide, by decide⟩,
   ⟨0, 7, 7, tWd 0 1 2 0x3F, tS tH (tRun 7 7 (tWd 0 1 2 0x3F) []), ⟨by decide, by decide, by decide, by decide, by decide⟩, by decide, by decide, by decide⟩⟩

/-- The hypotheses of MovwAndFieldRange are met, clause by clause. -/
theorem witness_MovwAndFieldRange :
    (∃ (n : BenchId) (v : DWord) (c : Nat) (t : Nat) (w : Nat) (s : State), AtWord s n (tid c t) w ∧ iOp w = 0x08 ∧ getBits (iRA w) 2 2 = 0 ∧ ((∀ k, k < 64 → v.getLsbD k = (if k / 16 = iRA w % 4 then (BitVec.ofNat 16 w).getLsbD (k % 16) else (!bit (iRA w) 4 && (((s.dev.bench n).thr (tid c t)).greg (iRD w)).getLsbD k))))) ∧
    (∃ (n : BenchId) (v : DWord) (c : Nat) (t : Nat) (w : Nat) (s : State), AtWord s n (tid c t) w ∧ iOp w = 0x08 ∧ getBits (iRA w) 2 2 = 0 ∧ ((∀ k, k < 64 → v.getLsbD k = (if k / 16 = iRA w % 4 then (BitVec.ofNat 16 w).getLsbD (k % 16) else (!bit (iRA w) 4 && (((s.dev.bench n).thr (tid c t)).greg (iRD w)).getLsbD k))))) ∧
    (∃ (n : BenchId) (v : DWord) (c : Nat) (t : Nat) (w : Nat) (s : State), AtWord s n (tid c t) w ∧ iOp w = 0x08 ∧ getBits (iRA w) 2 2 = 0 ∧ ((∀ k, k < 64 → v.getLsbD k = (if k / 16 = iRA w % 4 then (BitVec.ofNat 16 w).getLsbD (k % 16) else (!bit (iRA w) 4 && (((s.dev.bench n).thr (tid c t)).greg (iRD w)).getLsbD k))))) ∧
    (∃ (n : BenchId) (v : DWord) (c : Nat) (t : Nat) (w : Nat) (s : State), AtWord s n (tid c t) w ∧ iOp w = 0x08 ∧ getBits (iRA w) 2 2 = 0 ∧ ((∀ k, k < 64 → v.getLsbD k = (if k / 16 = iRA w % 4 then (BitVec.ofNat 16 w).getLsbD (k % 16) else (!bit (iRA w) 4 && (((s.dev.bench n).thr (tid c t)).greg (iRD w)).getLsbD k))))) ∧
    (∃ (n : BenchId) (v : DWord) (c : Nat) (t : Nat) (w : Nat) (s : State), AtWord s n (tid c t) w ∧ iOp w = 0x08 ∧ getBits (iRA w) 2 2 = 0 ∧ ((∀ k, k < 64 → v.getLsbD k = (if k / 16 = iRA w % 4 then (BitVec.ofNat 16 w).getLsbD (k % 16) else (!bit (iRA w) 4 && (((s.dev.bench n).thr (tid c t)).greg (iRD w)).getLsbD k))))) ∧
    (∃ (n : BenchId) (v : DWord) (c : Nat) (t : Nat) (w : Nat) (s : State), AtWord s n (tid c t) w ∧ iOp w = 0x08 ∧ getBits (iRA w) 2 2 = 0 ∧ ((∀ k, k < 64 → v.getLsbD k = (if k / 16 = iRA w % 4 then (BitVec.ofNat 16 w).getLsbD (k % 16) else (!bit (iRA w) 4 && (((s.dev.bench n).thr (tid c t)).greg (iRD w)).getLsbD k))))) ∧
    (∃ (n : BenchId) (c : Nat) (t : Nat) (w : Nat) (s : State), AtWord s n (tid c t) w ∧ iOp w = 0x08 ∧ getBits (iRA w) 2 2 ≠ 0) ∧
    (∃ (n : BenchId) (c : Nat) (t : Nat) (w : Nat) (s : State), AtWord s n (tid c t) w ∧ 63 < iPos w + (iWidth w - 1) ∧ iOp w = 9) ∧
    (∃ (n : BenchId) (c : Nat) (t : Nat) (w : Nat) (s : State), AtWord s n (tid c t) w ∧ 63 < iPos w + (iWidth w - 1) ∧ iOp w = 10) ∧
    (∃ (n : BenchId) (c : Nat) (t : Nat) (w : Nat) (s : State), AtWord s n (tid c t) w ∧ 63 < iPos w + (iWidth w - 1) ∧ iOp w = 11) ∧
    (∃ (x : DWord) (d : DWord) (v0 : DWord) (v1 : DWord) (v2 : DWord) (v3 : DWord), ((∀ k, k < 64 → v0.getLsbD k = if k / 16 = 0 then x.getLsbD k else d.getLsbD k)) ∧ ((∀ k, k < 64 → v1.getLsbD k = if k / 16 = 1 then x.getLsbD k else v0.getLsbD k)) ∧ ((∀ k, k < 64 → v2.getLsbD k = if k / 16 = 2 then x.getLsbD k else v1.getLsbD k)) ∧ ((∀ k, k < 64 → v3.getLsbD k = if k / 16 = 3 then x.getLsbD k else v2.getLsbD k))) :=
  ⟨⟨0, BitVec.ofNat 64 (0x8001 * 2 ^ (16 * 0)), 7, 7, tWd 8 1 (16 + 0) 0x8001, tS tH (tRun 7 7 (tWd 8 1 (16 + 0) 0x8001) [(1, 0xFFFF)]), ⟨by decide, by decide, by decide, by decide, by decide⟩, by decide, by decide, by decide⟩,
   ⟨0, BitVec.ofNat 64 (0x8001 * 2 ^ (16 * 1)), 7, 7, tWd 8 1 (16 + 1) 0x8001, tS tH (tRun 7 7 (tWd 8 1 (16 + 1) 0x8001) [(1, 0xFFFF)]), ⟨by decide, by decide, by decide, by decide, by decide⟩, by decide, by decide, by decide⟩,
   ⟨0, BitVec.ofNat 64 (0x8001 * 2 ^ (16 * 2)), 7, 7, tWd 8 1 (16 + 2) 0x8001, tS tH (tRun 7 7 (tWd 8 1 (16 + 2) 0x8001) [(1, 0xFFFF)]), ⟨by decide, by decide, by decide, by decide, by decide⟩, by decide, by decide, by decide⟩,
   ⟨0, BitVec.ofNat 64 (0x8001 * 2 ^ (16 * 3)), 7, 7, tWd 8 1 (16 + 3) 0x8001, tS tH (tRun 7 7 (tWd 8 1 (16 + 3) 0x8001) [(1, 0xFFFF)]), ⟨by decide, by decide, by decide, by decide, by decide⟩, by decide, by decide, by decide⟩,
   ⟨0, 0x8001FFFF, 7, 7, tWd 8 1 1 0x8001, tS tH (tRun 7 7 (tWd 8 1 1 0x8001) [(1, 0xFFFF)]), ⟨by decide, by decide, by decide, by decide, by decide⟩, by decide, by decide, by decide⟩,
   ⟨0, 0x8001, 7, 7, tWd 8 0 0 0x8001, tS tH (tRun 7 7 (tWd 8 0 0 0x8001) [(1, 0xFFFF)]), ⟨by decide, by decide, by decide, by decide, by decide⟩, by decide, by decide, by decide⟩,
   ⟨0, 7, 7, tWd 8 1 4 0, tS tH (tRun 7 7 (tWd 8 1 4 0) []), ⟨by decide, by decide, by decide, by decide, by decide⟩, by decide, by decide⟩,
   ⟨0, 7, 7, tWd 9 1 2 (63 * 1024 + 16), tS tH (tRun 7 7 (tWd 9 1 2 (63 * 1024 + 16)) []), ⟨by decide, by decide, by decide, by decide, by decide⟩, by decide, by decide⟩,
   ⟨0, 7, 7, tWd 10 1 2 (63 * 1024 + 16), tS tH (tRun 7 7 (tWd 10 1 2 (63 * 1024 + 16)) []), ⟨by decide, by decide, by decide, by decide, by decide⟩, by decide, by decide⟩,
   ⟨0, 7, 7, tWd 11 1 2 (63 * 1024 + 16), tS tH (tRun 7 7 (tWd 11 1 2 (63 * 1024 + 16)) []), ⟨by decide, by decide, by decide, by decide, by decide⟩, by decide, by decide⟩,
   ⟨0x1111222233334444, 0, 0x4444, 0x33334444, 0x222233334444, 0x1111222233334444, by decide, by decide, by decide, by decide⟩⟩

/-- The hypotheses of ImmediateAndFieldInstructions are met, clause by clause. -/
theorem witness_ImmediateAndFieldInstructions :
    (∃ (n : BenchId) (c : Nat) (t : Nat) (w : Nat) (s : State), AtWord s n (tid c t) w ∧ iOp w = 0x01) ∧
    (∃ (n : BenchId) (c : Nat) (t : Nat) (w : Nat) (s : State), AtWord s n (tid c t) w ∧ iOp w = 0x02) ∧
    (∃ (n : BenchId) (c : Nat) (t : Nat) (w : Nat) (s : State), AtWord s n (tid c t) w ∧ iOp w = 0x03) ∧
    (∃ (n : BenchId) (c : Nat) (t : Nat) (w : Nat) (s : State), AtWord s n (tid c t) w ∧ iOp w = 0x04) ∧
    (∃ (n : BenchId) (c : Nat) (t : Nat) (w : Nat) (s : State), AtWord s n (tid c t) w ∧ iOp w = 0x05) ∧
    (∃ (n : BenchId) (c : Nat) (t : Nat) (w : Nat) (s : State), AtWord s n (tid c t) w ∧ iOp w = 0x06) ∧
    (∃ (n : BenchId) (c : Nat) (t : Nat) (w : Nat) (s : State), AtWord s n (tid c t) w ∧ iOp w = 0x07 ∧ getBits w 8 8 = 0 ∧ getBits w 6 2 = 0) ∧
    (∃ (n : BenchId) (c : Nat) (t : Nat) (w : Nat) (s : State), AtWord s n (tid c t) w ∧ iOp w = 0x07 ∧ getBits w 8 8 = 0 ∧ getBits w 6 2 = 1) ∧
    (∃ (n : BenchId) (c : Nat) (t : Nat) (w : Nat) (s : State), AtWord s n (tid c t) w ∧ iOp w = 0x07 ∧ getBits w 8 8 = 0 ∧ getBits w 6 2 = 2) ∧
    (∃ (n : BenchId) (c : Nat) (t : Nat) (w : Nat) (s : State), AtWord s n (tid c t) w ∧ iOp w = 0x07 ∧ getBits w 8 8 = 0 ∧ getBits w 6 2 = 3) ∧
    (∃ (n : BenchId) (c : Nat) (t : Nat) (w : Nat) (s : State), AtWord s n (tid c t) w ∧ getBits w 0 4 = 0 ∧ iPos w + iWidth w ≤ 64 ∧ iOp w = 9) ∧
    (∃ (n : BenchId) (c : Nat) (t : Nat) (w : Nat) (s : State), AtWord s n (tid c t) w ∧ getBits w 0 4 = 0 ∧ iPos w + iWidth w ≤ 64 ∧ iOp w = 10) ∧
    (∃ (n : BenchId) (c : Nat) (t : Nat) (w : Nat) (s : State), AtWord s n (tid c t) w ∧ getBits w 0 4 = 0 ∧ iPos w + iWidth w ≤ 64 ∧ iOp w = 11) :=
  ⟨⟨0, 7, 7, tWd 1 1 2 0x8000, tS tH (tRun 7 7 (tWd 1 1 2 0x8000) [(2, 5)]), ⟨by decide, by decide, by decide, by decide, by decide⟩, by decide⟩,
   ⟨0, 7, 7, tWd 2 1 2 0x8007, tS tH (tRun 7 7 (tWd 2 1 2 0x8007) [(2, 5)]), ⟨by decide, by decide, by decide, by decide, by decide⟩, by decide⟩,
   ⟨0, 7, 7, tWd 3 1 2 0x8007, tS tH (tRun 7 7 (tWd 3 1 2 0x8007) [(2, 5)]), ⟨by decide, by decide, by decide, by decide, by decide⟩, by decide⟩,
   ⟨0, 7, 7, tWd 4 1 2 0x8007, tS tH (tRun 7 7 (tWd 4 1 2 0x8007) [(2, 5)]), ⟨by decide, by decide, by decide, by decide, by decide⟩, by decide⟩,
   ⟨0, 7, 7, tWd 5 1 2 0x8007, tS tH (tRun 7 7 (tWd 5 1 2 0x8007) [(2, 5)]), ⟨by decide, by decide, by decide, by decide, by decide⟩, by decide⟩,
   ⟨0, 7, 7, tWd 6 1 2 0x8007, tS tH (tRun 7 7 (tWd 6 1 2 0x8007) [(2, 5)]), ⟨by decide, by decide, by decide, by decide, by decide⟩, by decide⟩,
   ⟨0, 7, 7, tWd 7 1 2 (64 * 0 + 63), tS tH (tRun 7 7 (tWd 7 1 2 (64 * 0 + 63)) [(2, 0x8000000000000001)]), ⟨by decide, by decide, by decide, by decide, by decide⟩, by decide, by decide, by decide⟩,
   ⟨0, 7, 7, tWd 7 1 2 (64 * 1 + 63), tS tH (tRun 7 7 (tWd 7 1 2 (64 * 1 + 63)) [(2, 0x8000000000000001)]), ⟨by decide, by decide, by decide, by decide, by decide⟩, by decide, by decide, by decide⟩,
   ⟨0, 7, 7, tWd 7 1 2 (64 * 2 + 63), tS tH (tRun 7 7 (tWd 7 1 2 (64 * 2 + 63)) [(2, 0x8000000000000001)]), ⟨by decide, by decide, by decide, by decide, by decide⟩, by decide, by decide, by decide⟩,
   ⟨0, 7, 7, tWd 7 1 2 (64 * 3 + 63), tS tH (tRun 7 7 (tWd 7 1 2 (64 * 3 + 63)) [(2, 0x8000000000000001)]), ⟨by decide, by decide, by decide, by decide, by decide⟩, by decide, by decide, by decide⟩,
   ⟨0, 7, 7, tWd 9 1 2 (60 * 1024 + 3 * 16), tS tH (tRun 7 7 (tWd 9 1 2 (60 * 1024 + 3 * 16)) [(2, 0x8000000000000001)]), ⟨by decide, by decide, by decide, by decide, by decide⟩, by decide, by decide, by decide⟩,
   ⟨0, 7, 7, tWd 10 1 2 (60 * 1024 + 3 * 16), tS tH (tRun 7 7 (tWd 10 1 2 (60 * 1024 + 3 * 16)) [(2, 0x8000000000000001)]), ⟨by decide, by decide, by decide, by decide, by decide⟩, by decide, by decide, by decide⟩,
   ⟨0, 7, 7, tWd 11 1 2 (60 * 1024 + 3 * 16), tS tH (tRun 7 7 (tWd 11 1 2 (60 * 1024 + 3 * 16)) [(2, 0x8000000000000001)]), ⟨by decide, by decide, by decide, by decide, by decide⟩, by decide, by decide, by decide⟩⟩

/-- The hypotheses of EngineLoadsAndStores are met, clause by clause. -/
theorem witness_EngineLoadsAndStores :
    (∃ (n : BenchId) (a : Nat) (c : Nat) (t : Nat) (w : Nat) (s : State), AtWord s n (tid c t) w ∧ iOp w = 0x10 ∧ a = (((s.dev.bench n).thr (tid c t)).greg (iRA w) + iOff w).toNat ∧ a % iSize w = 0 ∧ a ≤ 0x3FFF) ∧
    (∃ (n : BenchId) (a : Nat) (c : Nat) (t : Nat) (w : Nat) (s : State), AtWord s n (tid c t) w ∧ iOp w = 0x11 ∧ a = (((s.dev.bench n).thr (tid c t)).greg (iRA w) + iOff w).toNat ∧ a % iSize w = 0 ∧ a ≤ 0x3FFF) ∧
    (∃ (n : BenchId) (a : Nat) (o : Nat) (c : Nat) (t : Nat) (w : Nat) (s : State), AtWord s n (tid c t) w ∧ iOp w = 0x12 ∧ a = (((s.dev.bench n).thr (tid c t)).greg (iRA w) + iOff w).toNat ∧ a % iSize w = 0 ∧ ownOffset n a = some o ∧ (s.dev.bench n).regionOf o (iSize w) = .scratch) ∧
    (∃ (n : BenchId) (a : Nat) (o : Nat) (c : Nat) (t : Nat) (w : Nat) (s : State), AtWord s n (tid c t) w ∧ iOp w = 0x13 ∧ a = (((s.dev.bench n).thr (tid c t)).greg (iRA w) + iOff w).toNat ∧ a % iSize w = 0 ∧ ownOffset n a = some o ∧ (s.dev.bench n).regionOf o (iSize w) = .scratch) ∧
    (∃ (n : BenchId) (o : Nat) (old : DWord) (c : Nat) (t : Nat) (w : Nat) (s : State), AtWord s n (tid c t) w ∧ iX5 w = 0 ∧ iFN w = 0 ∧ (((s.dev.bench n).thr (tid c t)).greg (iRA w)).toNat % 8 = 0 ∧ ownOffset n (((s.dev.bench n).thr (tid c t)).greg (iRA w)).toNat = some o ∧ (s.dev.bench n).regionOf o 8 = .scratch ∧ old = BitVec.ofNat 64 ((s.dev.bench n).le o 8) ∧ iOp w = 0x18) ∧
    (∃ (n : BenchId) (o : Nat) (old : DWord) (c : Nat) (t : Nat) (w : Nat) (s : State), AtWord s n (tid c t) w ∧ iX5 w = 0 ∧ iFN w = 0 ∧ (((s.dev.bench n).thr (tid c t)).greg (iRA w)).toNat % 8 = 0 ∧ ownOffset n (((s.dev.bench n).thr (tid c t)).greg (iRA w)).toNat = some o ∧ (s.dev.bench n).regionOf o 8 = .scratch ∧ old = BitVec.ofNat 64 ((s.dev.bench n).le o 8) ∧ iOp w = 0x19) ∧
    (∃ (n : BenchId) (x : Nat) (c : Nat) (t : Nat) (w : Nat) (s : State), AtWord s n (tid c t) w ∧ iOp w = 0x14 ∧ (s.dev.bench n).dramPlace n (((s.dev.bench n).thr (tid c t)).greg (iRA w) + iOff w).toNat (iSize w) = .ok x) ∧
    (∃ (n : BenchId) (x : Nat) (c : Nat) (t : Nat) (w : Nat) (s : State), AtWord s n (tid c t) w ∧ iOp w = 0x15 ∧ (s.dev.bench n).dramPlace n (((s.dev.bench n).thr (tid c t)).greg (iRA w) + iOff w).toNat (iSize w) = .ok x ∧ (s.dev.bench n).writeQueue ((tid c t) / 8) < 16) ∧
    (∃ (n : BenchId) (x : Nat) (k : Nat) (e : Ticket) (c : Nat) (t : Nat) (w : Nat) (s : State), AtWord s n (tid c t) w ∧ (((s.dev.bench n).thr (tid c t)).greg (iRA w)).toNat % 64 = 0 ∧ (((s.dev.bench n).thr (tid c t)).greg (iRB w)).toNat % 64 = 0 ∧ (((s.dev.bench n).thr (tid c t)).greg (iRB w)).toNat ≤ 0x3FFF ∧ (s.dev.bench n).dramPlace n (((s.dev.bench n).thr (tid c t)).greg (iRA w)).toNat 64 = .ok x ∧ ((s.dev.bench n).thr (tid c t)).freeTicket = some k ∧ iOp w = 0x16) ∧
    (∃ (n : BenchId) (x : Nat) (k : Nat) (e : Ticket) (c : Nat) (t : Nat) (w : Nat) (s : State), AtWord s n (tid c t) w ∧ (((s.dev.bench n).thr (tid c t)).greg (iRA w)).toNat % 64 = 0 ∧ (((s.dev.bench n).thr (tid c t)).greg (iRB w)).toNat % 64 = 0 ∧ (((s.dev.bench n).thr (tid c t)).greg (iRB w)).toNat ≤ 0x3FFF ∧ (s.dev.bench n).dramPlace n (((s.dev.bench n).thr (tid c t)).greg (iRA w)).toNat 64 = .ok x ∧ ((s.dev.bench n).thr (tid c t)).freeTicket = some k ∧ iOp w = 0x17) :=
  ⟨⟨0, _, 7, 7, tWd 0x10 1 2 0xFFF8, tS tH (tRun 7 7 (tWd 0x10 1 2 0xFFF8) [(2, 0x4000)]), ⟨by decide, by decide, by decide, by decide, by decide⟩, by decide, rfl, by decide, by decide⟩,
   ⟨0, _, 7, 7, tWd 0x11 1 2 0xDFF8, tS tH (tRun 7 7 (tWd 0x11 1 2 0xDFF8) [(1, 0xF123456789ABCDEF), (2, 0x4000)]), ⟨by decide, by decide, by decide, by decide, by decide⟩, by decide, rfl, by decide, by decide⟩,
   ⟨0, _, 0x6000000, 7, 7, tWd 0x12 1 2 0xC000, tS tH (tRun 7 7 (tWd 0x12 1 2 0xC000) [(2, 0x100006000000)]), ⟨by decide, by decide, by decide, by decide, by decide⟩, by decide, rfl, by decide, by decide, by decide⟩,
   ⟨0, _, 0x61FFFF8, 7, 7, tWd 0x13 1 2 0xC000, tS tH (tRun 7 7 (tWd 0x13 1 2 0xC000) [(1, 3), (2, 0x1000061FFFF8)]), ⟨by decide, by decide, by decide, by decide, by decide⟩, by decide, rfl, by decide, by decide, by decide⟩,
   ⟨0, 0x6000008, _, 7, 7, tWd 0x18 1 2 (2048 * 3), tS tH (tRun 7 7 (tWd 0x18 1 2 (2048 * 3)) [(2, 0x100006000008), (3, 0xFFFFFFFFFFFFFFFF)]), ⟨by decide, by decide, by decide, by decide, by decide⟩, by decide, by decide, by decide, by decide, by decide, rfl, by decide⟩,
   ⟨0, 0x6000008, _, 7, 7, tWd 0x19 1 2 (2048 * 3), tS tH (tRun 7 7 (tWd 0x19 1 2 (2048 * 3)) [(2, 0x100006000008), (3, 0xFFFFFFFFFFFFFFFF)]), ⟨by decide, by decide, by decide, by decide, by decide⟩, by decide, by decide, by decide, by decide, by decide, rfl, by decide⟩,
   ⟨0, 64, 7, 7, tWd 0x14 1 2 0xC000, tS tH (tRun 7 7 (tWd 0x14 1 2 0xC000) [(2, 0x108000000040)]).withDram, ⟨by decide, by decide, by decide, by decide, by decide⟩, by decide, rfl⟩,
   ⟨0, 64, 7, 7, tWd 0x15 1 2 0xC000, tS tH (tRun 7 7 (tWd 0x15 1 2 0xC000) [(1, 9), (2, 0x108000000040)]).withDram, ⟨by decide, by decide, by decide, by decide, by decide⟩, by decide, rfl, by decide⟩,
   ⟨0, 64, 0, ⟨0x16 - 0x16, 0x108000000040, 0x3FC0, none, false⟩, 7, 7, tWd 0x16 1 2 (2048 * 3), tS tH (tRun 7 7 (tWd 0x16 1 2 (2048 * 3)) [(2, 0x108000000040), (3, 0x3FC0)]).withDram, ⟨by decide, by decide, by decide, by decide, by decide⟩, by decide, by decide, by decide, rfl, by decide, by decide⟩,
   ⟨0, 64, 0, ⟨0x17 - 0x16, 0x108000000040, 0x3FC0, none, false⟩, 7, 7, tWd 0x17 1 2 (2048 * 3), tS tH (tRun 7 7 (tWd 0x17 1 2 (2048 * 3)) [(2, 0x108000000040), (3, 0x3FC0)]).withDram, ⟨by decide, by decide, by decide, by decide, by decide⟩, by decide, by decide, by decide, rfl, by decide, by decide⟩⟩

/-- The hypotheses of BranchesAndJumps are met, clause by clause. -/
theorem witness_BranchesAndJumps :
    (∃ (n : BenchId) (take : Bool) (pc : Nat) (c : Nat) (t : Nat) (w : Nat) (s : State), AtWord s n (tid c t) w ∧ ((iOp w = 0x20 ∧ take = decide (((s.dev.bench n).thr (tid c t)).greg (iRD w) = ((s.dev.bench n).thr (tid c t)).greg (iRA w)) ∨ iOp w = 0x21 ∧ take = decide (((s.dev.bench n).thr (tid c t)).greg (iRD w) ≠ ((s.dev.bench n).thr (tid c t)).greg (iRA w)) ∨ iOp w = 0x22 ∧ take = decide ((((s.dev.bench n).thr (tid c t)).greg (iRD w)).toInt < (((s.dev.bench n).thr (tid c t)).greg (iRA w)).toInt) ∨ iOp w = 0x23 ∧ take = decide ((((s.dev.bench n).thr (tid c t)).greg (iRA w)).toInt ≤ (((s.dev.bench n).thr (tid c t)).greg (iRD w)).toInt) ∨ iOp w = 0x24 ∧ take = decide ((((s.dev.bench n).thr (tid c t)).greg (iRD w)).toNat < (((s.dev.bench n).thr (tid c t)).greg (iRA w)).toNat) ∨ iOp w = 0x25 ∧ take = decide ((((s.dev.bench n).thr (tid c t)).greg (iRA w)).toNat ≤ (((s.dev.bench n).thr (tid c t)).greg (iRD w)).toNat))) ∧ ((pc : Int) = if take then (((s.dev.bench n).thr (tid c t)).pc : Int) + (BitVec.ofNat 16 w).toInt else ((s.dev.bench n).thr (tid c t)).pc + 1) ∧ pc ≤ pcMax) ∧
    (∃ (n : BenchId) (take : Bool) (pc : Nat) (c : Nat) (t : Nat) (w : Nat) (s : State), AtWord s n (tid c t) w ∧ ((iOp w = 0x20 ∧ take = decide (((s.dev.bench n).thr (tid c t)).greg (iRD w) = ((s.dev.bench n).thr (tid c t)).greg (iRA w)) ∨ iOp w = 0x21 ∧ take = decide (((s.dev.bench n).thr (tid c t)).greg (iRD w) ≠ ((s.dev.bench n).thr (tid c t)).greg (iRA w)) ∨ iOp w = 0x22 ∧ take = decide ((((s.dev.bench n).thr (tid c t)).greg (iRD w)).toInt < (((s.dev.bench n).thr (tid c t)).greg (iRA w)).toInt) ∨ iOp w = 0x23 ∧ take = decide ((((s.dev.bench n).thr (tid c t)).greg (iRA w)).toInt ≤ (((s.dev.bench n).thr (tid c t)).greg (iRD w)).toInt) ∨ iOp w = 0x24 ∧ take = decide ((((s.dev.bench n).thr (tid c t)).greg (iRD w)).toNat < (((s.dev.bench n).thr (tid c t)).greg (iRA w)).toNat) ∨ iOp w = 0x25 ∧ take = decide ((((s.dev.bench n).thr (tid c t)).greg (iRA w)).toNat ≤ (((s.dev.bench n).thr (tid c t)).greg (iRD w)).toNat))) ∧ ((pc : Int) = if take then (((s.dev.bench n).thr (tid c t)).pc : Int) + (BitVec.ofNat 16 w).toInt else ((s.dev.bench n).thr (tid c t)).pc + 1) ∧ pc ≤ pcMax) ∧
    (∃ (n : BenchId) (take : Bool) (pc : Nat) (c : Nat) (t : Nat) (w : Nat) (s : State), AtWord s n (tid c t) w ∧ ((iOp w = 0x20 ∧ take = decide (((s.dev.bench n).thr (tid c t)).greg (iRD w) = ((s.dev.bench n).thr (tid c t)).greg (iRA w)) ∨ iOp w = 0x21 ∧ take = decide (((s.dev.bench n).thr (tid c t)).greg (iRD w) ≠ ((s.dev.bench n).thr (tid c t)).greg (iRA w)) ∨ iOp w = 0x22 ∧ take = decide ((((s.dev.bench n).thr (tid c t)).greg (iRD w)).toInt < (((s.dev.bench n).thr (tid c t)).greg (iRA w)).toInt) ∨ iOp w = 0x23 ∧ take = decide ((((s.dev.bench n).thr (tid c t)).greg (iRA w)).toInt ≤ (((s.dev.bench n).thr (tid c t)).greg (iRD w)).toInt) ∨ iOp w = 0x24 ∧ take = decide ((((s.dev.bench n).thr (tid c t)).greg (iRD w)).toNat < (((s.dev.bench n).thr (tid c t)).greg (iRA w)).toNat) ∨ iOp w = 0x25 ∧ take = decide ((((s.dev.bench n).thr (tid c t)).greg (iRA w)).toNat ≤ (((s.dev.bench n).thr (tid c t)).greg (iRD w)).toNat))) ∧ ((pc : Int) = if take then (((s.dev.bench n).thr (tid c t)).pc : Int) + (BitVec.ofNat 16 w).toInt else ((s.dev.bench n).thr (tid c t)).pc + 1) ∧ pc ≤ pcMax) ∧
    (∃ (n : BenchId) (take : Bool) (pc : Nat) (c : Nat) (t : Nat) (w : Nat) (s : State), AtWord s n (tid c t) w ∧ ((iOp w = 0x20 ∧ take = decide (((s.dev.bench n).thr (tid c t)).greg (iRD w) = ((s.dev.bench n).thr (tid c t)).greg (iRA w)) ∨ iOp w = 0x21 ∧ take = decide (((s.dev.bench n).thr (tid c t)).greg (iRD w) ≠ ((s.dev.bench n).thr (tid c t)).greg (iRA w)) ∨ iOp w = 0x22 ∧ take = decide ((((s.dev.bench n).thr (tid c t)).greg (iRD w)).toInt < (((s.dev.bench n).thr (tid c t)).greg (iRA w)).toInt) ∨ iOp w = 0x23 ∧ take = decide ((((s.dev.bench n).thr (tid c t)).greg (iRA w)).toInt ≤ (((s.dev.bench n).thr (tid c t)).greg (iRD w)).toInt) ∨ iOp w = 0x24 ∧ take = decide ((((s.dev.bench n).thr (tid c t)).greg (iRD w)).toNat < (((s.dev.bench n).thr (tid c t)).greg (iRA w)).toNat) ∨ iOp w = 0x25 ∧ take = decide ((((s.dev.bench n).thr (tid c t)).greg (iRA w)).toNat ≤ (((s.dev.bench n).thr (tid c t)).greg (iRD w)).toNat))) ∧ ((pc : Int) = if take then (((s.dev.bench n).thr (tid c t)).pc : Int) + (BitVec.ofNat 16 w).toInt else ((s.dev.bench n).thr (tid c t)).pc + 1) ∧ pc ≤ pcMax) ∧
    (∃ (n : BenchId) (take : Bool) (pc : Nat) (c : Nat) (t : Nat) (w : Nat) (s : State), AtWord s n (tid c t) w ∧ ((iOp w = 0x20 ∧ take = decide (((s.dev.bench n).thr (tid c t)).greg (iRD w) = ((s.dev.bench n).thr (tid c t)).greg (iRA w)) ∨ iOp w = 0x21 ∧ take = decide (((s.dev.bench n).thr (tid c t)).greg (iRD w) ≠ ((s.dev.bench n).thr (tid c t)).greg (iRA w)) ∨ iOp w = 0x22 ∧ take = decide ((((s.dev.bench n).thr (tid c t)).greg (iRD w)).toInt < (((s.dev.bench n).thr (tid c t)).greg (iRA w)).toInt) ∨ iOp w = 0x23 ∧ take = decide ((((s.dev.bench n).thr (tid c t)).greg (iRA w)).toInt ≤ (((s.dev.bench n).thr (tid c t)).greg (iRD w)).toInt) ∨ iOp w = 0x24 ∧ take = decide ((((s.dev.bench n).thr (tid c t)).greg (iRD w)).toNat < (((s.dev.bench n).thr (tid c t)).greg (iRA w)).toNat) ∨ iOp w = 0x25 ∧ take = decide ((((s.dev.bench n).thr (tid c t)).greg (iRA w)).toNat ≤ (((s.dev.bench n).thr (tid c t)).greg (iRD w)).toNat))) ∧ ((pc : Int) = if take then (((s.dev.bench n).thr (tid c t)).pc : Int) + (BitVec.ofNat 16 w).toInt else ((s.dev.bench n).thr (tid c t)).pc + 1) ∧ pc ≤ pcMax) ∧
    (∃ (n : BenchId) (take : Bool) (pc : Nat) (c : Nat) (t : Nat) (w : Nat) (s : State), AtWord s n (tid c t) w ∧ ((iOp w = 0x20 ∧ take = decide (((s.dev.bench n).thr (tid c t)).greg (iRD w) = ((s.dev.bench n).thr (tid c t)).greg (iRA w)) ∨ iOp w = 0x21 ∧ take = decide (((s.dev.bench n).thr (tid c t)).greg (iRD w) ≠ ((s.dev.bench n).thr (tid c t)).greg (iRA w)) ∨ iOp w = 0x22 ∧ take = decide ((((s.dev.bench n).thr (tid c t)).greg (iRD w)).toInt < (((s.dev.bench n).thr (tid c t)).greg (iRA w)).toInt) ∨ iOp w = 0x23 ∧ take = decide ((((s.dev.bench n).thr (tid c t)).greg (iRA w)).toInt ≤ (((s.dev.bench n).thr (tid c t)).greg (iRD w)).toInt) ∨ iOp w = 0x24 ∧ take = decide ((((s.dev.bench n).thr (tid c t)).greg (iRD w)).toNat < (((s.dev.bench n).thr (tid c t)).greg (iRA w)).toNat) ∨ iOp w = 0x25 ∧ take = decide ((((s.dev.bench n).thr (tid c t)).greg (iRA w)).toNat ≤ (((s.dev.bench n).thr (tid c t)).greg (iRD w)).toNat))) ∧ ((pc : Int) = if take then (((s.dev.bench n).thr (tid c t)).pc : Int) + (BitVec.ofNat 16 w).toInt else ((s.dev.bench n).thr (tid c t)).pc + 1) ∧ pc ≤ pcMax) ∧
    (∃ (n : BenchId) (pc : Int) (c : Nat) (t : Nat) (w : Nat) (s : State), AtWord s n (tid c t) w ∧ pc = (((s.dev.bench n).thr (tid c t)).pc : Int) + (BitVec.ofNat 16 w).toInt ∧ ((pc < 0 ∨ (pcMax : Int) < pc)) ∧ (iOp w = 0x20 ∧ 1 = 1)) ∧
    (∃ (n : BenchId) (pc : Int) (c : Nat) (t : Nat) (w : Nat) (s : State), AtWord s n (tid c t) w ∧ pc = (((s.dev.bench n).thr (tid c t)).pc : Int) + (BitVec.ofNat 16 w).toInt ∧ ((pc < 0 ∨ (pcMax : Int) < pc)) ∧ (iOp w = 0x21 ∧ 1 = 1)) ∧
    (∃ (n : BenchId) (pc : Int) (c : Nat) (t : Nat) (w : Nat) (s : State), AtWord s n (tid c t) w ∧ pc = (((s.dev.bench n).thr (tid c t)).pc : Int) + (BitVec.ofNat 16 w).toInt ∧ ((pc < 0 ∨ (pcMax : Int) < pc)) ∧ iOp w = 0x22) ∧
    (∃ (n : BenchId) (pc : Int) (c : Nat) (t : Nat) (w : Nat) (s : State), AtWord s n (tid c t) w ∧ pc = (((s.dev.bench n).thr (tid c t)).pc : Int) + (BitVec.ofNat 16 w).toInt ∧ ((pc < 0 ∨ (pcMax : Int) < pc)) ∧ iOp w = 0x23) ∧
    (∃ (n : BenchId) (pc : Int) (c : Nat) (t : Nat) (w : Nat) (s : State), AtWord s n (tid c t) w ∧ pc = (((s.dev.bench n).thr (tid c t)).pc : Int) + (BitVec.ofNat 16 w).toInt ∧ ((pc < 0 ∨ (pcMax : Int) < pc)) ∧ iOp w = 0x24) ∧
    (∃ (n : BenchId) (pc : Int) (c : Nat) (t : Nat) (w : Nat) (s : State), AtWord s n (tid c t) w ∧ pc = (((s.dev.bench n).thr (tid c t)).pc : Int) + (BitVec.ofNat 16 w).toInt ∧ ((pc < 0 ∨ (pcMax : Int) < pc)) ∧ iOp w = 0x25) ∧
    (∃ (n : BenchId) (pc : Int) (c : Nat) (t : Nat) (w : Nat) (s : State), AtWord s n (tid c t) w ∧ iOp w = 0x26 ∧ pc = (((s.dev.bench n).thr (tid c t)).pc : Int) + (BitVec.ofNat 21 w).toInt ∧ ((pc < 0 ∨ (pcMax : Int) < pc))) ∧
    (∃ (n : BenchId) (c : Nat) (t : Nat) (w : Nat) (s : State), AtWord s n (tid c t) w ∧ iOp w = 0x27 ∧ pcMax < (((s.dev.bench n).thr (tid c t)).greg (iRA w) + (BitVec.ofNat 16 w).signExtend 64).toNat) ∧
    (∃ (n : BenchId) (pc : Nat) (c : Nat) (t : Nat) (w : Nat) (s : State), AtWord s n (tid c t) w ∧ iOp w = 0x26 ∧ (pc : Int) = (((s.dev.bench n).thr (tid c t)).pc : Int) + (BitVec.ofNat 21 w).toInt ∧ pc ≤ pcMax) ∧
    (∃ (n : BenchId) (pc : Nat) (c : Nat) (t : Nat) (w : Nat) (s : State), AtWord s n (tid c t) w ∧ iOp w = 0x27 ∧ pc = (((s.dev.bench n).thr (tid c t)).greg (iRA w) + (BitVec.ofNat 16 w).signExtend 64).toNat ∧ pc ≤ pcMax) :=
  ⟨⟨0, true, 0x7FFF, 7, 7, tWd 0x20 1 2 0x7FFF, tS tH (tRun 7 7 (tWd 0x20 1 2 0x7FFF) []), ⟨by decide, by decide, by decide, by decide, by decide⟩, by decide, by decide, by decide⟩,
   ⟨0, true, 0x7FFF, 7, 7, tWd 0x21 1 2 0x7FFF, tS tH (tRun 7 7 (tWd 0x21 1 2 0x7FFF) [(1, 3)]), ⟨by decide, by decide, by decide, by decide, by decide⟩, by decide, by decide, by decide⟩,
   ⟨0, true, 0x7FFF, 7, 7, tWd 0x22 1 2 0x7FFF, tS tH (tRun 7 7 (tWd 0x22 1 2 0x7FFF) [(1, 0x8000000000000000)]), ⟨by decide, by decide, by decide, by decide, by decide⟩, by decide, by decide, by decide⟩,
   ⟨0, false, 1, 7, 7, tWd 0x23 1 2 0x8000, tS tH (tRun 7 7 (tWd 0x23 1 2 0x8000) [(1, 0x8000000000000000)]), ⟨by decide, by decide, by decide, by decide, by decide⟩, by decide, by decide, by decide⟩,
   ⟨0, false, 1, 7, 7, tWd 0x24 1 2 0x8000, tS tH (tRun 7 7 (tWd 0x24 1 2 0x8000) [(1, 0x8000000000000000)]), ⟨by decide, by decide, by decide, by decide, by decide⟩, by decide, by decide, by decide⟩,
   ⟨0, true, 0x7FFF, 7, 7, tWd 0x25 1 2 0x7FFF, tS tH (tRun 7 7 (tWd 0x25 1 2 0x7FFF) [(1, 0x8000000000000000)]), ⟨by decide, by decide, by decide, by decide, by decide⟩, by decide, by decide, by decide⟩,
   ⟨0, _, 7, 7, tWd 0x20 1 2 0xFFFF, tS tH (tRun 7 7 (tWd 0x20 1 2 0xFFFF) []), ⟨by decide, by decide, by decide, by decide, by decide⟩, rfl, by decide, by decide⟩,
   ⟨0, _, 7, 7, tWd 0x21 1 2 0xFFFF, tS tH (tRun 7 7 (tWd 0x21 1 2 0xFFFF) [(1, 3)]), ⟨by decide, by decide, by decide, by decide, by decide⟩, rfl, by decide, by decide⟩,
   ⟨0, _, 7, 7, tWd 0x22 1 2 0xFFFF, tS tH (tRun 7 7 (tWd 0x22 1 2 0xFFFF) [(1, 0x8000000000000000)]), ⟨by decide, by decide, by decide, by decide, by decide⟩, rfl, by decide, by decide⟩,
   ⟨0, _, 7, 7, tWd 0x23 1 2 0xFFFF, tS tH (tRun 7 7 (tWd 0x23 1 2 0xFFFF) []), ⟨by decide, by decide, by decide, by decide, by decide⟩, rfl, by decide, by decide⟩,
   ⟨0, _, 7, 7, tWd 0x24 1 2 0xFFFF, tS tH (tRun 7 7 (tWd 0x24 1 2 0xFFFF) [(2, 3)]), ⟨by decide, by decide, by decide, by decide, by decide⟩, rfl, by decide, by decide⟩,
   ⟨0, _, 7, 7, tWd 0x25 1 2 0xFFFF, tS tH (tRun 7 7 (tWd 0x25 1 2 0xFFFF) []), ⟨by decide, by decide, by decide, by decide, by decide⟩, rfl, by decide, by decide⟩,
   ⟨0, _, 7, 7, tWd 0x26 1 0x1F 0xFFFF, tS tH (tRun 7 7 (tWd 0x26 1 0x1F 0xFFFF) []), ⟨by decide, by decide, by decide, by decide, by decide⟩, by decide, rfl, by decide⟩,
   ⟨0, 7, 7, tWd 0x27 1 2 0xFFFF, tS tH (tRun 7 7 (tWd 0x27 1 2 0xFFFF) [(2, 0x20001)]), ⟨by decide, by decide, by decide, by decide, by decide⟩, by decide, by decide⟩,
   ⟨0, 0x11234, 7, 7, tWd 0x26 1 1 0x1234, tS tH (tRun 7 7 (tWd 0x26 1 1 0x1234) []), ⟨by decide, by decide, by decide, by decide, by decide⟩, by decide, by decide, by decide⟩,
   ⟨0, _, 7, 7, tWd 0x27 1 1 0xFFFF, tS tH (tRun 7 7 (tWd 0x27 1 1 0xFFFF) [(1, 0x20000)]), ⟨by decide, by decide, by decide, by decide, by decide⟩, by decide, rfl, by decide⟩⟩

/-- The hypotheses of ChannelsThreadsAndWedges are met, clause by clause. -/
theorem witness_ChannelsThreadsAndWedges :
    (∃ (n : BenchId) (k : Nat) (x : DWord) (m : List DWord) (more : List (List DWord)) (c : Nat) (t : Nat) (w : Nat) (s : State), AtWord s n (tid c t) w ∧ iOp w = 0x30 ∧ getBits w 0 8 = 0 ∧ k = getBits w 8 8 ∧ 16 ≤ k ∧ 0 < (s.dev.bench n).chDepth k ∧ (s.dev.bench n).quiet ∧ ((s.dev.bench n).thr (tid c t)).reading.find? (fun r => r.1 = k) = none ∧ (s.dev.bench n).chMsgs k = (x :: m) :: more) ∧
    (∃ (n : BenchId) (k : Nat) (c : Nat) (t : Nat) (w : Nat) (s : State), AtWord s n (tid c t) w ∧ iOp w = 0x30 ∧ getBits w 0 8 = 0 ∧ k = getBits w 8 8 ∧ 16 ≤ k ∧ 0 < (s.dev.bench n).chDepth k ∧ (s.dev.bench n).quiet ∧ ((s.dev.bench n).thr (tid c t)).reading.find? (fun r => r.1 = k) = none ∧ (s.dev.bench n).chMsgs k = []) ∧
    (∃ (n : BenchId) (k : Nat) (c : Nat) (t : Nat) (w : Nat) (s : State), AtWord s n (tid c t) w ∧ iOp w = 0x31 ∧ getBits w 1 7 = 0 ∧ iRA w = 0 ∧ k = getBits w 8 8 ∧ 16 ≤ k ∧ 0 < (s.dev.bench n).chDepth k ∧ (s.dev.bench n).quiet ∧ ((s.dev.bench n).thr (tid c t)).staged = [] ∧ bit w 0 = false) ∧
    (∃ (n : BenchId) (k : Nat) (c : Nat) (t : Nat) (w : Nat) (s : State), AtWord s n (tid c t) w ∧ iOp w = 0x31 ∧ getBits w 1 7 = 0 ∧ iRA w = 0 ∧ k = getBits w 8 8 ∧ 16 ≤ k ∧ (s.dev.bench n).quiet ∧ ((s.dev.bench n).thr (tid c t)).staged = [] ∧ bit w 0 = true ∧ (s.dev.bench n).chWords k + 1 ≤ (s.dev.bench n).chDepth k) ∧
    (∃ (n : BenchId) (u : Nat) (pc : Nat) (c : Nat) (t : Nat) (w : Nat) (s : State), AtWord s n (tid c t) w ∧ iOp w = 0x32 ∧ (List.range 8).find? (fun u => ((s.dev.bench n).thr (8 * ((tid c t) / 8) + u)).st = 0) = some u ∧ (pc : Int) = (((s.dev.bench n).thr (tid c t)).pc : Int) + (BitVec.ofNat 16 w).toInt ∧ pc ≤ pcMax) ∧
    (∃ (n : BenchId) (c : Nat) (t : Nat) (w : Nat) (s : State), AtWord s n (tid c t) w ∧ iOp w = 0x33 ∧ (((s.dev.bench n).thr (tid c t)).greg (iRA w)).toNat < 256 ∧ (s.dev.bench n).quiet ∧ ((∀ u, u < 8 → bit (((s.dev.bench n).thr (tid c t)).greg (iRA w)).toNat u = true → (s.dev.bench n).liveChild (tid c t) u = false))) ∧
    (∃ (n : BenchId) (k : Nat) (c : Nat) (t : Nat) (w : Nat) (s : State), AtWord s n (tid c t) w ∧ iOp w = 0x34 ∧ k = (((s.dev.bench n).thr (tid c t)).greg (iRA w) + iSimm w).toNat ∧ k ≤ 255 ∧ (s.dev.bench n).wedge k = none) ∧
    (∃ (n : BenchId) (k : Nat) (x : Wedge) (c : Nat) (t : Nat) (w : Nat) (s : State), AtWord s n (tid c t) w ∧ iOp w = 0x34 ∧ k = (((s.dev.bench n).thr (tid c t)).greg (iRA w) + iSimm w).toNat ∧ k ≤ 255 ∧ (s.dev.bench n).wedge k = some x ∧ x.holder ≠ (tid c t) ∧ (s.dev.bench n).quiet) ∧
    (∃ (n : BenchId) (k : Nat) (c : Nat) (t : Nat) (w : Nat) (s : State), AtWord s n (tid c t) w ∧ iOp w = 0x35 ∧ k = (((s.dev.bench n).thr (tid c t)).greg (iRA w) + iSimm w).toNat ∧ k ≤ 255 ∧ (s.dev.bench n).wedge k = some { holder := (tid c t), waiters := [] }) ∧
    (∃ (n : BenchId) (k : Nat) (c : Nat) (t : Nat) (w : Nat) (s : State), AtWord s n (tid c t) w ∧ iOp w = 0x35 ∧ k = (((s.dev.bench n).thr (tid c t)).greg (iRA w) + iSimm w).toNat ∧ k ≤ 255 ∧ (s.dev.bench n).wedge k = none) ∧
    (∃ (n : BenchId) (k : Nat) (st : Nat) (cnt : Nat) (x : Ticket) (c : Nat) (t : Nat) (w : Nat) (s : State), AtWord s n (tid c t) w ∧ iOp w = 0x3B ∧ (((s.dev.bench n).thr (tid c t)).greg (iRA w)).toNat = k ∧ k < 8 ∧ ((s.dev.bench n).thr (tid c t)).ticket? k = some x ∧ x.done = some (st, cnt) ∧ x.ecc = false ∧ (s.dev.bench n).quiet) ∧
    (∃ (n : BenchId) (c : Nat) (t : Nat) (w : Nat) (s : State), AtWord s n (tid c t) w ∧ iOp w = 0x3C ∧ getBits w 0 11 = 0) ∧
    (∃ (n : BenchId) (c : Nat) (t : Nat) (w : Nat) (s : State), AtWord s n (tid c t) w ∧ iOp w = 0x3C ∧ getBits w 0 11 = 1) ∧
    (∃ (n : BenchId) (c : Nat) (t : Nat) (w : Nat) (s : State), AtWord s n (tid c t) w ∧ iOp w = 0x3C ∧ getBits w 0 11 = 2) ∧
    (∃ (n : BenchId) (c : Nat) (t : Nat) (w : Nat) (s : State), AtWord s n (tid c t) w ∧ iOp w = 0x3C ∧ getBits w 0 11 = 3) ∧
    (∃ (n : BenchId) (c : Nat) (t : Nat) (w : Nat) (s : State), AtWord s n (tid c t) w ∧ iOp w = 0x3C ∧ getBits w 0 11 = 4) ∧
    (∃ (n : BenchId) (c : Nat) (t : Nat) (w : Nat) (s : State), AtWord s n (tid c t) w ∧ iOp w = 0x3D ∧ (s.dev.bench n).quiet ∧ (s.dev.bench n).eng.notices.length < 64) :=
  ⟨⟨0, _, 5, [], [], 7, 7, tWd 0x30 1 2 (256 * 255), tS tH (((tRun 7 7 (tWd 0x30 1 2 (256 * 255)) []).setFld (R.engine_CHAN_CFG_DEPTH 239) 1).setChMsgs 255 [[5]]), ⟨by decide, by decide, by decide, by decide, by decide⟩, by decide, by decide, rfl, by decide, by decide, ⟨by decide, by decide, by decide, by decide⟩, by decide, by decide⟩,
   ⟨0, _, 7, 7, tWd 0x30 1 2 (256 * 16), tS tH ((tRun 7 7 (tWd 0x30 1 2 (256 * 16)) []).setFld (R.engine_CHAN_CFG_DEPTH 0) 1), ⟨by decide, by decide, by decide, by decide, by decide⟩, by decide, by decide, rfl, by decide, by decide, ⟨by decide, by decide, by decide, by decide⟩, by decide, by decide⟩,
   ⟨0, _, 7, 7, tWd 0x31 1 0 (256 * 16), tS tH ((tRun 7 7 (tWd 0x31 1 0 (256 * 16)) [(1, 9)]).setFld (R.engine_CHAN_CFG_DEPTH 0) 1), ⟨by decide, by decide, by decide, by decide, by decide⟩, by decide, by decide, by decide, rfl, by decide, by decide, ⟨by decide, by decide, by decide, by decide⟩, by decide, by decide⟩,
   ⟨0, _, 7, 7, tWd 0x31 1 0 (256 * 16 + 1), tS tH ((tRun 7 7 (tWd 0x31 1 0 (256 * 16 + 1)) [(1, 9)]).setFld (R.engine_CHAN_CFG_DEPTH 0) 1), ⟨by decide, by decide, by decide, by decide, by decide⟩, by decide, by decide, by decide, rfl, by decide, ⟨by decide, by decide, by decide, by decide⟩, by decide, by decide, by decide⟩,
   ⟨0, 0, 0x7FFF, 7, 7, tWd 0x32 1 2 0x7FFF, tS tH (tRun 7 7 (tWd 0x32 1 2 0x7FFF) [(2, 9)]), ⟨by decide, by decide, by decide, by decide, by decide⟩, by decide, by decide, by decide, by decide⟩,
   ⟨0, 7, 7, tWd 0x33 1 2 0, tS tH (tRun 7 7 (tWd 0x33 1 2 0) [(2, 255)]), ⟨by decide, by decide, by decide, by decide, by decide⟩, by decide, by decide, ⟨by decide, by decide, by decide, by decide⟩, by decide⟩,
   ⟨0, _, 7, 7, tWd 0x34 1 2 0, tS tH (tRun 7 7 (tWd 0x34 1 2 0) [(2, 255)]), ⟨by decide, by decide, by decide, by decide, by decide⟩, by decide, rfl, by decide, by decide⟩,
   ⟨0, _, ⟨3, []⟩, 7, 7, tWd 0x34 1 2 0, tS tH ((tRun 7 7 (tWd 0x34 1 2 0) [(2, 255)]).setWedge 255 (some ⟨3, []⟩)), ⟨by decide, by decide, by decide, by decide, by decide⟩, by decide, rfl, by decide, by decide, by decide, ⟨by decide, by decide, by decide, by decide⟩⟩,
   ⟨0, _, 7, 7, tWd 0x35 1 2 0, tS tH ((tRun 7 7 (tWd 0x35 1 2 0) [(2, 255)]).setWedge 255 (some ⟨63, []⟩)), ⟨by decide, by decide, by decide, by decide, by decide⟩, by decide, rfl, by decide, by decide⟩,
   ⟨0, _, 7, 7, tWd 0x35 1 2 0, tS tH (tRun 7 7 (tWd 0x35 1 2 0) [(2, 255)]), ⟨by decide, by decide, by decide, by decide, by decide⟩, by decide, rfl, by decide, by decide⟩,
   ⟨0, 7, 1, 64, ⟨0, 0, 0, some (1, 64), false⟩, 7, 7, tWd 0x3B 1 2 0, tS tH ((tRun 7 7 (tWd 0x3B 1 2 0) [(2, 7)]).updThr 63 (fun t => t.putTicket 7 ⟨0, 0, 0, some (1, 64), false⟩)), ⟨by decide, by decide, by decide, by decide, by decide⟩, by decide, by decide, by decide, by decide, by decide, by decide, ⟨by decide, by decide, by decide, by decide⟩⟩,
   ⟨0, 7, 7, tWd 0x3C 1 0 0, tS tH (tRun 7 7 (tWd 0x3C 1 0 0) []), ⟨by decide, by decide, by decide, by decide, by decide⟩, by decide, by decide⟩,
   ⟨0, 7, 7, tWd 0x3C 1 0 1, tS tH (tRun 7 7 (tWd 0x3C 1 0 1) []), ⟨by decide, by decide, by decide, by decide, by decide⟩, by decide, by decide⟩,
   ⟨0, 7, 7, tWd 0x3C 1 0 2, tS tH (tRun 7 7 (tWd 0x3C 1 0 2) []), ⟨by decide, by decide, by decide, by decide, by decide⟩, by decide, by decide⟩,
   ⟨0, 7, 7, tWd 0x3C 1 0 3, tS tH (tRun 7 7 (tWd 0x3C 1 0 3) []), ⟨by decide, by decide, by decide, by decide, by decide⟩, by decide, by decide⟩,
   ⟨0, 7, 7, tWd 0x3C 1 0 4, tS tH (tRun 7 7 (tWd 0x3C 1 0 4) []), ⟨by decide, by decide, by decide, by decide, by decide⟩, by decide, by decide⟩,
   ⟨0, 7, 7, tWd 0x3D 0 2 255, tS tH (tRun 7 7 (tWd 0x3D 0 2 255) [(2, 7)]), ⟨by decide, by decide, by decide, by decide, by decide⟩, by decide, ⟨by decide, by decide, by decide, by decide⟩, by decide⟩⟩

/-- The hypotheses of OperationsAndEndsOfThreads are met, clause by clause. -/
theorem witness_OperationsAndEndsOfThreads :
    (∃ (n : BenchId) (c : Nat) (t : Nat) (w : Nat) (s : State), AtWord s n (tid c t) w ∧ iOp w = 0x38 ∧ iFN w % 8 ≠ 7 ∧ (((s.dev.bench n).thr (tid c t)).greg (iRA w)).toNat % 16 = 0 ∧ (((s.dev.bench n).thr (tid c t)).greg (iRA w)).toNat + 80 ≤ 0x4000 ∧ (s.dev.bench n).quiet ∧ (s.dev.bench n).mt.opq.length < 16 ∧ ((∀ x ∈ (s.dev.bench n).mt.opq, x.src ≠ .thread (tid c t)))) ∧
    (∃ (n : BenchId) (hd : Nat) (a : Nat) (c : Nat) (t : Nat) (w : Nat) (s : State), AtWord s n (tid c t) w ∧ iOp w = 0x39 ∧ iFN w % 8 = 4 ∧ hd = (((s.dev.bench n).thr (tid c t)).greg (iRA w)).toNat % 2 ^ 32 ∧ a = recordAddr (hPool hd) (hOff hd) ∧ (s.dev.bench n).checkHandle hd = 0 ∧ (s.dev.bench n).recState a = 1 ∧ (s.dev.bench n).recOwner a = 0x10 + (tid c t) / 8) ∧
    (∃ (n : BenchId) (hd : Nat) (c : Nat) (t : Nat) (w : Nat) (s : State), AtWord s n (tid c t) w ∧ iOp w = 0x39 ∧ iFN w % 8 = 4 ∧ hd = (((s.dev.bench n).thr (tid c t)).greg (iRA w)).toNat % 2 ^ 32 ∧ (s.dev.bench n).checkHandle hd = 5) ∧
    (∃ (n : BenchId) (c : Nat) (t : Nat) (w : Nat) (s : State), AtWord s n (tid c t) w ∧ iOp w = 0x39 ∧ iFN w % 8 = 1 ∧ iX5 w % 8 < 5 ∧ (s.dev.bench n).mayTake .engine (iX5 w % 8) = false) ∧
    (∃ (n : BenchId) (k : Nat) (ch : Nat) (c : Nat) (t : Nat) (w : Nat) (s : State), AtWord s n (tid c t) w ∧ iOp w = 0x3A ∧ (((s.dev.bench n).thr (tid c t)).greg (iRA w)).toNat % 64 = 0 ∧ (((s.dev.bench n).thr (tid c t)).greg (iRA w)).toNat ≤ 0x3FFF ∧ ((s.dev.bench n).thr (tid c t)).freeTicket = some k ∧ ch = getBits ((s.dev.bench n).le (sliceAddr (tid c t) + (((s.dev.bench n).thr (tid c t)).greg (iRA w)).toNat) 4) 12 6 ∧ 8 ≤ ch ∧ (s.dev.bench n).flag (R.haul_HAUL_CH_CFG_EN (ch - 8)) = true ∧ (s.dev.bench n).fld (R.haul_HAUL_CH_CFG_CORE (ch - 8)) = (tid c t) / 8 ∧ ((s.dev.bench n).chanCmds ch).length < 16 ∧ (s.dev.bench n).quiet) ∧
    (∃ (n : BenchId) (c : Nat) (t : Nat) (w : Nat) (s : State), AtWord s n (tid c t) w ∧ iOp w = 0x3E) ∧
    (∃ (n : BenchId) (c : Nat) (t : Nat) (w : Nat) (s : State), AtWord s n (tid c t) w ∧ listedOps.contains (iOp w) = false) ∧
    (∃ (n : BenchId) (p : Nat) (c : Nat) (t : Nat) (w : Nat) (s : State), AtWord s n (tid c t) w ∧ iOp w = 0x3F ∧ (s.dev.bench n).quiet ∧ ((s.dev.bench n).thr (tid c t)).reading = [] ∧ ((s.dev.bench n).thr (tid c t)).parent = some p ∧ p ≠ (tid c t) ∧ ((∀ x ∈ (s.dev.bench n).eng.wedges, x.2.map (·.holder) ≠ some (tid c t)))) ∧
    (∃ (n : BenchId) (c : Nat) (t : Nat) (w : Nat) (s : State), AtWord s n (tid c t) w ∧ iOp w = 0x3F ∧ (s.dev.bench n).quiet ∧ ((s.dev.bench n).thr (tid c t)).reading = [] ∧ ((s.dev.bench n).thr (tid c t)).parent = none ∧ ((∀ x ∈ (s.dev.bench n).eng.wedges, x.2.map (·.holder) ≠ some (tid c t)))) :=
  ⟨⟨0, 7, 7, tWd 0x38 1 2 6, tS tH (tRun 7 7 (tWd 0x38 1 2 6) [(2, 0x3FB0)]), ⟨by decide, by decide, by decide, by decide, by decide⟩, by decide, by decide, by decide, by decide, ⟨by decide, by decide, by decide, by decide⟩, by decide, by decide⟩,
   ⟨0, _, _, 7, 7, tWd 0x39 1 2 4, tS tH (((tRun 7 7 (tWd 0x39 1 2 4) [(2, 0x8000000)]).setFld (R.hopper_POOL_COUNT_COUNT 0) 1).setRec 0x800000 1 0x17 0 1 1 0), ⟨by decide, by decide, by decide, by decide, by decide⟩, by decide, by decide, rfl, rfl, by decide, by decide, by decide⟩,
   ⟨0, _, 7, 7, tWd 0x39 1 2 4, tS tH (((tRun 7 7 (tWd 0x39 1 2 4) [(2, 0x8000000)]).setFld (R.hopper_POOL_COUNT_COUNT 0) 1).setRec 0x800000 0 0 0 0 2 0), ⟨by decide, by decide, by decide, by decide, by decide⟩, by decide, by decide, rfl, by decide⟩,
   ⟨0, 7, 7, tWd 0x39 1 0 (64 * 4 + 1), tS tH (tRun 7 7 (tWd 0x39 1 0 (64 * 4 + 1)) []), ⟨by decide, by decide, by decide, by decide, by decide⟩, by decide, by decide, by decide, by decide⟩,
   ⟨0, 0, _, 7, 7, tWd 0x3A 1 2 0, tS tH ((((tRun 7 7 (tWd 0x3A 1 2 0) [(2, 0x3FC0)]).setFld (R.haul_HAUL_CH_CFG_EN 0) 1).setFld (R.haul_HAUL_CH_CFG_CORE 0) 7).setLe (sliceAddr 63 + 0x3FC0) 4 (8 * 4096)), ⟨by decide, by decide, by decide, by decide, by decide⟩, by decide, by decide, by decide, by decide, rfl, by decide, by decide, by decide, by decide, ⟨by decide, by decide, by decide, by decide⟩⟩,
   ⟨0, 7, 7, tWd 0x3E 0 0 0, tS tH (tRun 7 7 (tWd 0x3E 0 0 0) []), ⟨by decide, by decide, by decide, by decide, by decide⟩, by decide⟩,
   ⟨0, 7, 7, tWd 0x0C 0 0 0, tS tH (tRun 7 7 (tWd 0x0C 0 0 0) []), ⟨by decide, by decide, by decide, by decide, by decide⟩, by decide⟩,
   ⟨0, 56, 7, 7, tWd 0x3F 0 0 0, tS tH ((tRun 7 7 (tWd 0x3F 0 0 0) []).updThr 63 (fun t => { t with parent := some 56 })), ⟨by decide, by decide, by decide, by decide, by decide⟩, by decide, ⟨by decide, by decide, by decide, by decide⟩, by decide, by decide, by decide, by decide⟩,
   ⟨0, 7, 7, tWd 0x3F 0 0 0, tS tH (tRun 7 7 (tWd 0x3F 0 0 0) []), ⟨by decide, by decide, by decide, by decide, by decide⟩, by decide, ⟨by decide, by decide, by decide, by decide⟩, by decide, by decide, by decide⟩⟩

/-- The hypotheses of FaultsHaveNoEffect are met, clause by clause. -/
theorem witness_FaultsHaveNoEffect :
    (∃ (n : BenchId) (a : Nat) (c : Nat) (t : Nat) (w : Nat) (s : State), AtWord s n (tid c t) w ∧ a = (((s.dev.bench n).thr (tid c t)).greg (iRA w) + iOff w).toNat ∧ a % iSize w ≠ 0 ∧ iOp w = 0x10) ∧
    (∃ (n : BenchId) (a : Nat) (c : Nat) (t : Nat) (w : Nat) (s : State), AtWord s n (tid c t) w ∧ a = (((s.dev.bench n).thr (tid c t)).greg (iRA w) + iOff w).toNat ∧ a % iSize w ≠ 0 ∧ iOp w = 0x11) ∧
    (∃ (n : BenchId) (a : Nat) (c : Nat) (t : Nat) (w : Nat) (s : State), AtWord s n (tid c t) w ∧ a = (((s.dev.bench n).thr (tid c t)).greg (iRA w) + iOff w).toNat ∧ a % iSize w ≠ 0 ∧ iOp w = 0x12) ∧
    (∃ (n : BenchId) (a : Nat) (c : Nat) (t : Nat) (w : Nat) (s : State), AtWord s n (tid c t) w ∧ a = (((s.dev.bench n).thr (tid c t)).greg (iRA w) + iOff w).toNat ∧ a % iSize w ≠ 0 ∧ iOp w = 0x13) ∧
    (∃ (n : BenchId) (a : Nat) (c : Nat) (t : Nat) (w : Nat) (s : State), AtWord s n (tid c t) w ∧ a = (((s.dev.bench n).thr (tid c t)).greg (iRA w) + iOff w).toNat ∧ a % iSize w ≠ 0 ∧ iOp w = 0x14) ∧
    (∃ (n : BenchId) (a : Nat) (c : Nat) (t : Nat) (w : Nat) (s : State), AtWord s n (tid c t) w ∧ a = (((s.dev.bench n).thr (tid c t)).greg (iRA w) + iOff w).toNat ∧ a % iSize w ≠ 0 ∧ iOp w = 0x15) ∧
    (∃ (n : BenchId) (a : Nat) (c : Nat) (t : Nat) (w : Nat) (s : State), AtWord s n (tid c t) w ∧ a = (((s.dev.bench n).thr (tid c t)).greg (iRA w) + iOff w).toNat ∧ a % iSize w = 0 ∧ 0x3FFF < a ∧ iOp w = 0x10) ∧
    (∃ (n : BenchId) (a : Nat) (c : Nat) (t : Nat) (w : Nat) (s : State), AtWord s n (tid c t) w ∧ a = (((s.dev.bench n).thr (tid c t)).greg (iRA w) + iOff w).toNat ∧ a % iSize w = 0 ∧ 0x3FFF < a ∧ iOp w = 0x11) ∧
    (∃ (n : BenchId) (a : Nat) (c : Nat) (t : Nat) (w : Nat) (s : State), AtWord s n (tid c t) w ∧ a = (((s.dev.bench n).thr (tid c t)).greg (iRA w) + iOff w).toNat ∧ a % iSize w = 0 ∧ 0x200000000000 ≤ a ∧ iOp w = 0x12) ∧
    (∃ (n : BenchId) (a : Nat) (c : Nat) (t : Nat) (w : Nat) (s : State), AtWord s n (tid c t) w ∧ a = (((s.dev.bench n).thr (tid c t)).greg (iRA w) + iOff w).toNat ∧ a % iSize w = 0 ∧ 0x200000000000 ≤ a ∧ iOp w = 0x13) ∧
    (∃ (n : BenchId) (a : Nat) (c : Nat) (t : Nat) (w : Nat) (s : State), AtWord s n (tid c t) w ∧ a = (((s.dev.bench n).thr (tid c t)).greg (iRA w) + iOff w).toNat ∧ a % iSize w = 0 ∧ 0x200000000000 ≤ a ∧ iOp w = 0x14) ∧
    (∃ (n : BenchId) (a : Nat) (c : Nat) (t : Nat) (w : Nat) (s : State), AtWord s n (tid c t) w ∧ a = (((s.dev.bench n).thr (tid c t)).greg (iRA w) + iOff w).toNat ∧ a % iSize w = 0 ∧ 0x200000000000 ≤ a ∧ iOp w = 0x15) ∧
    (∃ (n : BenchId) (a : Nat) (c : Nat) (t : Nat) (w : Nat) (s : State), AtWord s n (tid c t) w ∧ a = (((s.dev.bench n).thr (tid c t)).greg (iRA w) + iOff w).toNat ∧ a % iSize w = 0 ∧ a < 0x200000000000 ∧ ownOffset n a = none ∧ ((a < eportBase n ∨ eportBase n + 0x40 ≤ a)) ∧ iOp w = 0x12) ∧
    (∃ (n : BenchId) (a : Nat) (c : Nat) (t : Nat) (w : Nat) (s : State), AtWord s n (tid c t) w ∧ a = (((s.dev.bench n).thr (tid c t)).greg (iRA w) + iOff w).toNat ∧ a % iSize w = 0 ∧ a < 0x200000000000 ∧ ownOffset n a = none ∧ ((a < eportBase n ∨ eportBase n + 0x40 ≤ a)) ∧ iOp w = 0x13) ∧
    (∃ (n : BenchId) (a : Nat) (c : Nat) (t : Nat) (w : Nat) (s : State), AtWord s n (tid c t) w ∧ a = (((s.dev.bench n).thr (tid c t)).greg (iRA w) + iOff w).toNat ∧ a % iSize w = 0 ∧ a < 0x200000000000 ∧ ownOffset n a = none ∧ ((a < eportBase n ∨ eportBase n + 0x40 ≤ a)) ∧ iOp w = 0x14) ∧
    (∃ (n : BenchId) (a : Nat) (c : Nat) (t : Nat) (w : Nat) (s : State), AtWord s n (tid c t) w ∧ a = (((s.dev.bench n).thr (tid c t)).greg (iRA w) + iOff w).toNat ∧ a % iSize w = 0 ∧ a < 0x200000000000 ∧ ownOffset n a = none ∧ ((a < eportBase n ∨ eportBase n + 0x40 ≤ a)) ∧ iOp w = 0x15) ∧
    (∃ (n : BenchId) (c : Nat) (t : Nat) (w : Nat) (s : State), AtWord s n (tid c t) w ∧ iX5 w = 0 ∧ iFN w = 0 ∧ (((s.dev.bench n).thr (tid c t)).greg (iRA w)).toNat % 8 ≠ 0 ∧ iOp w = 0x18) ∧
    (∃ (n : BenchId) (c : Nat) (t : Nat) (w : Nat) (s : State), AtWord s n (tid c t) w ∧ iX5 w = 0 ∧ iFN w = 0 ∧ (((s.dev.bench n).thr (tid c t)).greg (iRA w)).toNat % 8 ≠ 0 ∧ iOp w = 0x19) ∧
    (∃ (n : BenchId) (o : Nat) (c : Nat) (t : Nat) (w : Nat) (s : State), AtWord s n (tid c t) w ∧ iX5 w = 0 ∧ iFN w = 0 ∧ (((s.dev.bench n).thr (tid c t)).greg (iRA w)).toNat % 8 = 0 ∧ ownOffset n (((s.dev.bench n).thr (tid c t)).greg (iRA w)).toNat = some o ∧ (s.dev.bench n).regionOf o 8 ≠ .scratch ∧ iOp w = 0x18) ∧
    (∃ (n : BenchId) (o : Nat) (c : Nat) (t : Nat) (w : Nat) (s : State), AtWord s n (tid c t) w ∧ iX5 w = 0 ∧ iFN w = 0 ∧ (((s.dev.bench n).thr (tid c t)).greg (iRA w)).toNat % 8 = 0 ∧ ownOffset n (((s.dev.bench n).thr (tid c t)).greg (iRA w)).toNat = some o ∧ (s.dev.bench n).regionOf o 8 ≠ .scratch ∧ iOp w = 0x19) ∧
    (∃ (n : BenchId) (c : Nat) (t : Nat) (w : Nat) (s : State), AtWord s n (tid c t) w ∧ iOp w = 0x3B ∧ ((8 ≤ (((s.dev.bench n).thr (tid c t)).greg (iRA w)).toNat ∨ ((s.dev.bench n).thr (tid c t)).ticket? (((s.dev.bench n).thr (tid c t)).greg (iRA w)).toNat = none))) ∧
    (∃ (n : BenchId) (c : Nat) (t : Nat) (w : Nat) (s : State), AtWord s n (tid c t) w ∧ iOp w = 0x3C ∧ 4 < getBits w 0 11) ∧
    (∃ (n : BenchId) (c : Nat) (t : Nat) (w : Nat) (s : State), AtWord s n (tid c t) w ∧ 255 < (((s.dev.bench n).thr (tid c t)).greg (iRA w) + iSimm w).toNat ∧ iOp w = 0x34) ∧
    (∃ (n : BenchId) (c : Nat) (t : Nat) (w : Nat) (s : State), AtWord s n (tid c t) w ∧ 255 < (((s.dev.bench n).thr (tid c t)).greg (iRA w) + iSimm w).toNat ∧ iOp w = 0x35) :=
  ⟨⟨0, _, 7, 7, tWd 0x10 1 2 0xC007, tS tH (tRun 7 7 (tWd 0x10 1 2 0xC007) []), ⟨by decide, by decide, by decide, by decide, by decide⟩, rfl, by decide, by decide⟩,
   ⟨0, _, 7, 7, tWd 0x11 1 2 0xC007, tS tH (tRun 7 7 (tWd 0x11 1 2 0xC007) []), ⟨by decide, by decide, by decide, by decide, by decide⟩, rfl, by decide, by decide⟩,
   ⟨0, _, 7, 7, tWd 0x12 1 2 0xC007, tS tH (tRun 7 7 (tWd 0x12 1 2 0xC007) []), ⟨by decide, by decide, by decide, by decide, by decide⟩, rfl, by decide, by decide⟩,
   ⟨0, _, 7, 7, tWd 0x13 1 2 0xC007, tS tH (tRun 7 7 (tWd 0x13 1 2 0xC007) []), ⟨by decide, by decide, by decide, by decide, by decide⟩, rfl, by decide, by decide⟩,
   ⟨0, _, 7, 7, tWd 0x14 1 2 0xC007, tS tH (tRun 7 7 (tWd 0x14 1 2 0xC007) []), ⟨by decide, by decide, by decide, by decide, by decide⟩, rfl, by decide, by decide⟩,
   ⟨0, _, 7, 7, tWd 0x15 1 2 0xC007, tS tH (tRun 7 7 (tWd 0x15 1 2 0xC007) []), ⟨by decide, by decide, by decide, by decide, by decide⟩, rfl, by decide, by decide⟩,
   ⟨0, _, 7, 7, tWd 0x10 1 2 0xC000, tS tH (tRun 7 7 (tWd 0x10 1 2 0xC000) [(2, 0x4000)]), ⟨by decide, by decide, by decide, by decide, by decide⟩, rfl, by decide, by decide, by decide⟩,
   ⟨0, _, 7, 7, tWd 0x11 1 2 0xC000, tS tH (tRun 7 7 (tWd 0x11 1 2 0xC000) [(2, 0x4000)]), ⟨by decide, by decide, by decide, by decide, by decide⟩, rfl, by decide, by decide, by decide⟩,
   ⟨0, _, 7, 7, tWd 0x12 1 2 0xC000, tS tH (tRun 7 7 (tWd 0x12 1 2 0xC000) [(2, 0x200000000000)]), ⟨by decide, by decide, by decide, by decide, by decide⟩, rfl, by decide, by decide, by decide⟩,
   ⟨0, _, 7, 7, tWd 0x13 1 2 0xC000, tS tH (tRun 7 7 (tWd 0x13 1 2 0xC000) [(2, 0x200000000000)]), ⟨by decide, by decide, by decide, by decide, by decide⟩, rfl, by decide, by decide, by decide⟩,
   ⟨0, _, 7, 7, tWd 0x14 1 2 0xC000, tS tH (tRun 7 7 (tWd 0x14 1 2 0xC000) [(2, 0x200000000000)]), ⟨by decide, by decide, by decide, by decide, by decide⟩, rfl, by decide, by decide, by decide⟩,
   ⟨0, _, 7, 7, tWd 0x15 1 2 0xC000, tS tH (tRun 7 7 (tWd 0x15 1 2 0xC000) [(2, 0x200000000000)]), ⟨by decide, by decide, by decide, by decide, by decide⟩, rfl, by decide, by decide, by decide⟩,
   ⟨0, _, 7, 7, tWd 0x12 1 2 0xC000, tS tH (tRun 7 7 (tWd 0x12 1 2 0xC000) [(2, 0x130040)]), ⟨by decide, by decide, by decide, by decide, by decide⟩, rfl, by decide, by decide, by decide, by decide, by decide⟩,
   ⟨0, _, 7, 7, tWd 0x13 1 2 0xC000, tS tH (tRun 7 7 (tWd 0x13 1 2 0xC000) [(2, 0x130040)]), ⟨by decide, by decide, by decide, by decide, by decide⟩, rfl, by decide, by decide, by decide, by decide, by decide⟩,
   ⟨0, _, 7, 7, tWd 0x14 1 2 0xC000, tS tH (tRun 7 7 (tWd 0x14 1 2 0xC000) [(2, 0x130040)]), ⟨by decide, by decide, by decide, by decide, by decide⟩, rfl, by decide, by decide, by decide, by decide, by decide⟩,
   ⟨0, _, 7, 7, tWd 0x15 1 2 0xC000, tS tH (tRun 7 7 (tWd 0x15 1 2 0xC000) [(2, 0x130040)]), ⟨by decide, by decide, by decide, by decide, by decide⟩, rfl, by decide, by decide, by decide, by decide, by decide⟩,
   ⟨0, 7, 7, tWd 0x18 1 2 0, tS tH (tRun 7 7 (tWd 0x18 1 2 0) [(2, 4)]), ⟨by decide, by decide, by decide, by decide, by decide⟩, by decide, by decide, by decide, by decide⟩,
   ⟨0, 7, 7, tWd 0x19 1 2 0, tS tH (tRun 7 7 (tWd 0x19 1 2 0) [(2, 4)]), ⟨by decide, by decide, by decide, by decide, by decide⟩, by decide, by decide, by decide, by decide⟩,
   ⟨0, 0x6200000, 7, 7, tWd 0x18 1 2 0, tS tH (tRun 7 7 (tWd 0x18 1 2 0) [(2, 0x100006200000)]), ⟨by decide, by decide, by decide, by decide, by decide⟩, by decide, by decide, by decide, by decide, by decide, by decide⟩,
   ⟨0, 0x6200000, 7, 7, tWd 0x19 1 2 0, tS tH (tRun 7 7 (tWd 0x19 1 2 0) [(2, 0x100006200000)]), ⟨by decide, by decide, by decide, by decide, by decide⟩, by decide, by decide, by decide, by decide, by decide, by decide⟩,
   ⟨0, 7, 7, tWd 0x3B 1 2 0, tS tH (tRun 7 7 (tWd 0x3B 1 2 0) [(2, 8)]), ⟨by decide, by decide, by decide, by decide, by decide⟩, by decide, by decide⟩,
   ⟨0, 7, 7, tWd 0x3C 1 0 5, tS tH (tRun 7 7 (tWd 0x3C 1 0 5) []), ⟨by decide, by decide, by decide, by decide, by decide⟩, by decide, by decide⟩,
   ⟨0, 7, 7, tWd 0x34 1 2 0xFFFF, tS tH (tRun 7 7 (tWd 0x34 1 2 0xFFFF) [(2, 257)]), ⟨by decide, by decide, by decide, by decide, by decide⟩, by decide, by decide⟩,
   ⟨0, 7, 7, tWd 0x35 1 2 0xFFFF, tS tH (tRun 7 7 (tWd 0x35 1 2 0xFFFF) [(2, 257)]), ⟨by decide, by decide, by decide, by decide, by decide⟩, by decide, by decide⟩⟩

/-- The hypotheses of ReturnsAndThreadControl are met, clause by clause. -/
theorem witness_ReturnsAndThreadControl :
    (∃ (n : BenchId) (i : Nat) (r : DramReq) (l : List DramReq) (s : State), (s.dev.bench n).live = true ∧ (s.dev.bench n).dram.reqs = r :: l ∧ r.done = true ∧ r.use = .load i ∧ r.bad = false) ∧
    (∃ (n : BenchId) (i : Nat) (k : Nat) (x : Ticket) (r : DramReq) (l : List DramReq) (s : State), (s.dev.bench n).live = true ∧ (s.dev.bench n).dram.reqs = r :: l ∧ r.done = true ∧ r.bad = false ∧ ((s.dev.bench n).thr i).ticket? k = some x ∧ ((s.dev.bench n).thr i).wait = .none ∧ (s.dev.bench n).quiet ∧ r.use = .ticketStore i k) ∧
    (∃ (n : BenchId) (i : Nat) (k : Nat) (x : Ticket) (r : DramReq) (l : List DramReq) (s : State), (s.dev.bench n).live = true ∧ (s.dev.bench n).dram.reqs = r :: l ∧ r.done = true ∧ r.bad = false ∧ ((s.dev.bench n).thr i).ticket? k = some x ∧ ((s.dev.bench n).thr i).wait = .none ∧ (s.dev.bench n).quiet ∧ r.use = .ticketLoad i k) ∧
    (∃ (n : BenchId) (c : Nat) (s : State), (s.dev.bench n).live = true ∧ c < 8 ∧ (s.dev.bench n).coreState c = 0 ∧ ((c = 0 ∨ (s.dev.bench n).coreState 0 = 1)) ∧ (s.dev.bench n).quiet) ∧
    (∃ (n : BenchId) (c : Nat) (s : State), (s.dev.bench n).live = true ∧ c < 8 ∧ (s.dev.bench n).coreState c = 0 ∧ ((c = 0 ∨ (s.dev.bench n).coreState 0 = 1)) ∧ (s.dev.bench n).quiet) ∧
    (∃ (n : BenchId) (c : Nat) (s : State), (s.dev.bench n).live = true ∧ c < 8 ∧ (s.dev.bench n).coreState c = 0 ∧ c ≠ 0 ∧ (s.dev.bench n).coreState 0 ≠ 1 ∧ (s.dev.bench n).eng.threads = [] ∧ (s.dev.bench n).quiet) ∧
    (∃ (n : BenchId) (c : Nat) (s : State), (s.dev.bench n).live = true ∧ c < 8 ∧ c ≠ 0 ∧ (s.dev.bench n).coreState c = 1 ∧ (s.dev.bench n).quiet ∧ (s.dev.bench n).eng.wedges = []) ∧
    (∃ (n : BenchId) (c : Nat) (s : State), (s.dev.bench n).live = true ∧ c < 8 ∧ (s.dev.bench n).coreState c = 2) ∧
    (∃ (n : BenchId) (c : Nat) (s : State), (s.dev.bench n).live = true ∧ c < 8 ∧ (s.dev.bench n).coreState c = 2) ∧
    (∃ (n : BenchId) (c : Nat) (t : Nat) (p : Nat) (s : State), (s.dev.bench n).live = true ∧ c < 8 ∧ t < 8 ∧ ((s.dev.bench n).thr (8 * c + t)).st ≠ 0 ∧ (s.dev.bench n).quiet ∧ (s.dev.bench n).eng.wedges = [] ∧ ((s.dev.bench n).thr (8 * c + t)).parent = some p ∧ p ≠ 8 * c + t) ∧
    (∃ (n : BenchId) (c : Nat) (t : Nat) (s : State), (s.dev.bench n).live = true ∧ c < 8 ∧ t < 8 ∧ ((s.dev.bench n).thr (8 * c + t)).st = 2 ∧ (s.dev.bench n).quiet) ∧
    (∃ (n : BenchId) (k : Nat) (base : Nat) (depth : Nat) (s : State), (s.dev.bench n).live = true ∧ 16 ≤ k ∧ k < 256 ∧ base < 512 ∧ depth < 1024 ∧ base + depth ≤ 512 ∧ (s.dev.bench n).chWords k = 0 ∧ (s.dev.bench n).eng.blocked = [] ∧ ((∀ j, 16 ≤ j → j < 256 → j ≠ k → (s.dev.bench n).chDepth j = 0 ∨ (s.dev.bench n).chBase j + (s.dev.bench n).chDepth j ≤ 8 * base ∨ 8 * base + 8 * depth ≤ (s.dev.bench n).chBase j))) ∧
    (∃ (n : BenchId) (c : Nat) (k : Pkt) (s : State), (s.dev.bench n).live = true ∧ c < 8 ∧ (s.dev.bench n).pkts = [k] ∧ k.loc = .inbox c ∧ k.ended = true ∧ k.spoil = 0 ∧ k.verdictPending = false ∧ (s.dev.bench n).eng.inboxMsgs = [] ∧ (s.dev.bench n).eng.threads = [] ∧ (s.dev.bench n).quiet ∧ (s.dev.bench n).rings.sends = []) ∧
    (∃ (n : BenchId) (s : State), (s.dev.bench n).live = true ∧ (s.dev.bench n).stallCond = true ∧ (s.dev.bench n).flag R.engine_STALL_STATUS_STALLED = false ∧ ((∀ i ∈ (s.dev.bench n).eng.blocked, ∃ w, ((s.dev.bench n).thr i).wait = .wacq w))) ∧
    (∃ (n : BenchId) (c : Nat) (t : Nat) (s : State), (s.dev.bench n).live = true ∧ c < 8 ∧ t < 8 ∧ s.dev.hub.debugOn n = true ∧ (s.dev.bench n).quiet ∧ ((s.dev.bench n).thr (8 * c + t)).st = 1 ∧ ((s.dev.bench n).thr (8 * c + t)).wait = .none) ∧
    (∃ (n : BenchId) (c : Nat) (m : Nat) (i : Instr) (s : State), (s.dev.bench n).live = true ∧ ((i = .dbgStop n false c m ∨ i = .dbgResume n false c m ∨ i = .dbgStep n false c m))) :=
  ⟨⟨0, 63, { DramReq.fresh (.load 63) false 0 2 [1#8, 0x80#8] false true with done := true }, [], tS tH ((tRun 7 7 0 []).reqs { DramReq.fresh (.load 63) false 0 2 [1#8, 0x80#8] false true with done := true }), by decide, by decide, by decide, by decide, by decide⟩,
   ⟨0, 63, 7, ⟨1, 0, 64, none, false⟩, { DramReq.fresh (.ticketStore 63 7) true 0 64 [] false false with done := true }, [], tS tH (((tRun 7 7 0 []).updThr 63 (fun t => t.putTicket 7 ⟨1, 0, 64, none, false⟩)).reqs { DramReq.fresh (.ticketStore 63 7) true 0 64 [] false false with done := true }), by decide, by decide, by decide, by decide, by decide, by decide, ⟨by decide, by decide, by decide, by decide⟩, by decide⟩,
   ⟨0, 63, 7, ⟨0, 0, 64, none, false⟩, { DramReq.fresh (.ticketLoad 63 7) false 0 64 (List.replicate 64 7#8) false false with done := true }, [], tS tH (((tRun 7 7 0 []).updThr 63 (fun t => t.putTicket 7 ⟨0, 0, 64, none, false⟩)).reqs { DramReq.fresh (.ticketLoad 63 7) false 0 64 (List.replicate 64 7#8) false false with done := true }), by decide, by decide, by decide, by decide, by decide, by decide, ⟨by decide, by decide, by decide, by decide⟩, by decide⟩,
   ⟨0, 0, tS tH tB, by decide, by decide, by decide, by decide, ⟨by decide, by decide, by decide, by decide⟩⟩,
   ⟨0, 7, tS tH (tB.setFld (R.engine_CORE_STATUS_STATE 0) 1), by decide, by decide, by decide, by decide, ⟨by decide, by decide, by decide, by decide⟩⟩,
   ⟨0, 7, tS tH tB, by decide, by decide, by decide, by decide, by decide, by decide, ⟨by decide, by decide, by decide, by decide⟩⟩,
   ⟨0, 7, tS tH (tRun 7 7 0 []), by decide, by decide, by decide, by decide, ⟨by decide, by decide, by decide, by decide⟩, by decide⟩,
   ⟨0, 7, tS tH (tB.setFld (R.engine_CORE_STATUS_STATE 7) 2), by decide, by decide, by decide⟩,
   ⟨0, 7, tS tH (((tB.setFld (R.engine_CORE_STATUS_STATE 7) 2)).reqs (DramReq.fresh (.load 63) false 0 2 [1#8, 0x80#8] false true)), by decide, by decide, by decide⟩,
   ⟨0, 7, 7, 56, tS tH ((tRun 7 7 0 []).updThr 63 (fun t => { t with parent := some 56 })), by decide, by decide, by decide, by decide, ⟨by decide, by decide, by decide, by decide⟩, by decide, by decide, by decide⟩,
   ⟨0, 7, 7, tS tH ((tRun 7 7 0 []).updThr 63 (fun t => { t with st := 2 })), by decide, by decide, by decide, by decide, ⟨by decide, by decide, by decide, by decide⟩⟩,
   ⟨0, 255, 511, 1, tS tH tB, by decide, by decide, by decide, by decide, by decide, by decide, by decide, by decide, fun j _ h2 _ => Or.inl ((by decide : ∀ j, j < 256 → ((tS tH tB).dev.bench 0).chDepth j = 0) j h2)⟩,
   ⟨0, 7, { tPkt with loc := .inbox 7 }, tS tH (tB.withPkts [{ tPkt with loc := .inbox 7 }]), by decide, by decide, by decide, by decide, by decide, by decide, by decide, by decide, by decide, ⟨by decide, by decide, by decide, by decide⟩, by decide⟩,
   ⟨0, tS tH (let b := (tRun 7 7 0 []).updThr 63 (fun t => { t with wait := .wacq 3 }); { b with eng := { b.eng with blocked := [63] } }), by decide, by decide, by decide, fun i hi => ⟨3, by obtain rfl := List.mem_singleton.1 hi; decide⟩⟩,
   ⟨0, 7, 7, tS { tH with regs := [(R.dbg_DBG_SESSION, 0xFFFFFFFF#32)] } ((tRun 7 7 0 []).updThr 63 (fun t => { t with dbg := true })), by decide, by decide, by decide, by decide, ⟨by decide, by decide, by decide, by decide⟩, by decide, by decide⟩,
   ⟨0, 7, 255, .dbgStep 0 false 7 255, tS tH tB, by decide, Or.inr (Or.inr rfl)⟩⟩

/-- The hypotheses of LinkStates are met, clause by clause. -/
theorem witness_LinkStates :
    (∃ (p : HostPort) (s : State), s.dev.hub.flag R.pcr_RESET_CAUSE_IMAGE_OK = true ∧ s.dev.hub.fw.perst.contains p.val = false ∧ s.dev.hub.split p.val = false) ∧
    (∃ (p : HostPort) (s : State), s.dev.hub.flag R.pcr_RESET_CAUSE_IMAGE_OK = true ∧ s.dev.hub.fw.perst.contains p.val = false ∧ s.dev.hub.split p.val = true) ∧
    (∃ (p : HostPort) (s : State), s.dev.hub.flag R.pcr_RESET_CAUSE_IMAGE_OK = false) ∧
    (∃ (p : HostPort) (k : Fin 2) (rate : Nat) (width : Nat) (ph : Nat) (nph : Nat) (pd : Nat) (npd : Nat) (s : State), (s.dev.hub.link (2 * p.val + k.val)).training = true ∧ s.dev.hub.linkState (2 * p.val + k.val) = 0) ∧
    (∃ (p : HostPort) (k : Fin 2) (rate : Nat) (width : Nat) (ph : Nat) (nph : Nat) (pd : Nat) (npd : Nat) (s : State), rate < 4 ∧ width < 3 ∧ (s.dev.hub.link (2 * p.val + k.val)).training = true ∧ s.dev.hub.linkState (2 * p.val + k.val) = 0) ∧
    (∃ (p : HostPort) (k : Fin 2) (rate : Nat) (width : Nat) (ph : Nat) (nph : Nat) (pd : Nat) (npd : Nat) (s : State), rate < 4 ∧ width < 3 ∧ (s.dev.hub.link (2 * p.val + k.val)).training = true ∧ s.dev.hub.linkState (2 * p.val + k.val) = 0) ∧
    (∃ (p : HostPort) (k : Fin 2) (s : State), (s.dev.hub.linkState (2 * p.val + k.val) = 1 ∨ s.dev.hub.linkState (2 * p.val + k.val) = 2)) ∧
    (∃ (p : HostPort) (k : Fin 2) (s : State), (s.dev.hub.linkState (2 * p.val + k.val) = 1 ∨ s.dev.hub.linkState (2 * p.val + k.val) = 2)) ∧
    (∃ (p : HostPort) (k : Fin 2) (rate : Nat) (width : Nat) (s : State), s.dev.hub.linkState (2 * p.val + k.val) = 3 ∧ (s.dev.hub.link (2 * p.val + k.val)).retrain = false ∧ 1 ≤ s.dev.hub.fld (R.ep_LINK_STATUS_RATE p.val k.val) ∧ s.dev.hub.fld (R.ep_LINK_STATUS_RATE p.val k.val) ≤ rate ∧ 1 ≤ s.dev.hub.fld (R.ep_LINK_STATUS_WIDTH p.val k.val) ∧ s.dev.hub.fld (R.ep_LINK_STATUS_WIDTH p.val k.val) ≤ width) ∧
    (∃ (p : HostPort) (k : Fin 2) (rate : Nat) (width : Nat) (s : State), s.dev.hub.linkState (2 * p.val + k.val) = 3 ∧ (s.dev.hub.link (2 * p.val + k.val)).retrain = false ∧ 1 ≤ rate ∧ rate < s.dev.hub.fld (R.ep_LINK_STATUS_RATE p.val k.val) ∧ 1 ≤ s.dev.hub.fld (R.ep_LINK_STATUS_WIDTH p.val k.val) ∧ s.dev.hub.fld (R.ep_LINK_STATUS_WIDTH p.val k.val) ≤ width) ∧
    (∃ (p : HostPort) (k : Fin 2) (rate : Nat) (width : Nat) (s : State), s.dev.hub.linkState (2 * p.val + k.val) = 3 ∧ (s.dev.hub.link (2 * p.val + k.val)).retrain = true ∧ 1 ≤ rate ∧ rate < 4 ∧ 1 ≤ width ∧ width < 3) ∧
    (∃ (p : HostPort) (k : Fin 2) (w : LinkFault) (row : Nat) (s : State), s.dev.hub.linkState (2 * p.val + k.val) ≠ 0 ∧ (w, row) ∈ [(LinkFault.badFlit, aerReplay), (.replayTimeout, aerReplayTimeout), (.replayRollover, aerRollover)]) ∧
    (∃ (p : HostPort) (k : Fin 2) (w : LinkFault) (row : Nat) (s : State), s.dev.hub.linkState (2 * p.val + k.val) ≠ 0 ∧ (w, row) ∈ [(LinkFault.dataLinkProtocol, aerDataLink), (.flowControlProtocol, aerFlowControl)]) ∧
    (∃ (p : HostPort) (e : LinkErr) (s : State), s.dev.hub.linkState (2 * p.val + e.link.val) = 0) ∧
    (∃ (p : HostPort) (k : Fin 2) (s : State), s.dev.hub.linkState (2 * p.val + k.val) ≠ 0) ∧
    (∃ (p : HostPort) (k : Fin 2) (s : State), s.dev.hub.linkState (2 * p.val + k.val) = 0) :=
  ⟨⟨1, tS (tH.setFld R.pcr_RESET_CAUSE_IMAGE_OK 1 |> fun h => { h with fw := { h.fw with perst := [] } }) tB, by decide, by decide, by decide⟩,
   ⟨0, tS (((tH.setFld R.pcr_RESET_CAUSE_IMAGE_OK 1).setFld R.pcr_STRAP_STATUS_PCIE_SPLIT_0 1) |> fun h => { h with fw := { h.fw with perst := [] } }) tB, by decide, by decide, by decide⟩,
   ⟨0, tS tH tB, by decide⟩,
   ⟨1, 1, 0, 0, 0, 0, 0, 0, tS (tH.setLink 3 { LinkSt.idle with training := true }) tB, by decide, by decide⟩,
   ⟨1, 1, 3, 2, 0, 0, 0, 0, tS (tH.setLink 3 { LinkSt.idle with training := true }) tB, by decide, by decide, by decide, by decide⟩,
   ⟨1, 1, 0, 0, 0, 0, 0, 0, tS (tH.setLink 3 { LinkSt.idle with training := true }) tB, by decide, by decide, by decide, by decide⟩,
   ⟨1, 0, tS (tH.linkIn 2 2) tB, by decide⟩,
   ⟨1, 0, tS (tH.linkIn 2 1) tB, by decide⟩,
   ⟨0, 0, 3, 2, tS (((tH.linkIn 0 3).setFld (R.ep_LINK_STATUS_RATE 0 0) 2).setFld (R.ep_LINK_STATUS_WIDTH 0 0) 2) tB, by decide, by decide, by decide, by decide, by decide, by decide⟩,
   ⟨0, 0, 1, 2, tS (((tH.linkIn 0 3).setFld (R.ep_LINK_STATUS_RATE 0 0) 2).setFld (R.ep_LINK_STATUS_WIDTH 0 0) 2) tB, by decide, by decide, by decide, by decide, by decide, by decide⟩,
   ⟨0, 0, 3, 2, tS ((((tH.linkIn 0 3).setFld (R.ep_LINK_STATUS_RATE 0 0) 1).setFld (R.ep_LINK_STATUS_WIDTH 0 0) 1).setLink 0 { LinkSt.idle with retrain := true }) tB, by decide, by decide, by decide, by decide, by decide, by decide⟩,
   ⟨0, 1, .replayRollover, aerRollover, tS (tH.linkIn 1 1) tB, by decide, by decide⟩,
   ⟨1, 0, .flowControlProtocol, aerFlowControl, tS (tH.linkIn 2 2) tB, by decide, by decide⟩,
   ⟨1, ⟨1, .badFlit⟩, tS tHost tB, by decide⟩,
   ⟨0, 0, tS tHost tB, by decide⟩,
   ⟨1, 1, tS tHost tB, by decide⟩⟩

/-- The hypotheses of HostWindows are met, clause by clause. -/
theorem witness_HostWindows :
    (∃ (p : HostPort) (k : Fin 2) (n : BenchId) (out : List Tlp) (own : Nat) (s : State), (s.dev.hub.linkState (2 * p.val + k.val) = 1 ∨ s.dev.hub.linkState (2 * p.val + k.val) = 2 ∧ s.dev.windowTlps (2 * p.val + k.val) n ≠ []) ∧ out = (sendFit ((s.dev.hub.creditsBack (2 * p.val + k.val) n).windowRoom (2 * p.val + k.val) n) (s.dev.windowTlps (2 * p.val + k.val) n)).1 ∧ own = min out.length ((s.dev.bench n).tlps.filter (s.dev.hub.carriesTlp (2 * p.val + k.val))).length) ∧
    (∃ (p : HostPort) (k : Fin 2) (n : BenchId) (out : List Tlp) (own : Nat) (s : State), (s.dev.hub.linkState (2 * p.val + k.val) = 1 ∨ s.dev.hub.linkState (2 * p.val + k.val) = 2 ∧ s.dev.windowTlps (2 * p.val + k.val) n ≠ []) ∧ out = (sendFit ((s.dev.hub.creditsBack (2 * p.val + k.val) n).windowRoom (2 * p.val + k.val) n) (s.dev.windowTlps (2 * p.val + k.val) n)).1 ∧ own = min out.length ((s.dev.bench n).tlps.filter (s.dev.hub.carriesTlp (2 * p.val + k.val))).length) ∧
    (∃ (p : HostPort) (k : Fin 2) (n : BenchId) (s : State), s.dev.hub.linkState (2 * p.val + k.val) = 2 ∧ s.dev.windowTlps (2 * p.val + k.val) n = [] ∧ (s.dev.bench n).bound (2 * p.val + k.val) = true ∧ s.dev.hub.flag (R.pcr_BENCH_CTL_LEND_OK n.val) = false) ∧
    (∃ (p : HostPort) (k : Fin 2) (n : BenchId) (m : BenchId) (out : List Tlp) (own : Nat) (s : State), s.dev.hub.linkState (2 * p.val + k.val) = 2 ∧ s.dev.windowTlps (2 * p.val + k.val) n = [] ∧ ((s.dev.bench n).bound (2 * p.val + k.val) = false ∨ s.dev.hub.flag (R.pcr_BENCH_CTL_LEND_OK n.val) = true) ∧ s.dev.borrower (2 * p.val + k.val) n = some m ∧ (s.dev.bench n).evq = [] ∧ (s.dev.bench m).evq = [] ∧ out = (sendFit ((s.dev.hub.creditsBack (2 * p.val + k.val) m).windowRoom (2 * p.val + k.val) m) (s.dev.windowTlps (2 * p.val + k.val) m)).1 ∧ own = min out.length ((s.dev.bench m).tlps.filter (s.dev.hub.carriesTlp (2 * p.val + k.val))).length) ∧
    (∃ (p : HostPort) (k : Fin 2) (n : BenchId) (m : BenchId) (out : List Tlp) (own : Nat) (s : State), s.dev.hub.linkState (2 * p.val + k.val) = 2 ∧ s.dev.windowTlps (2 * p.val + k.val) n = [] ∧ ((s.dev.bench n).bound (2 * p.val + k.val) = false ∨ s.dev.hub.flag (R.pcr_BENCH_CTL_LEND_OK n.val) = true) ∧ s.dev.borrower (2 * p.val + k.val) n = some m ∧ (s.dev.bench n).evq = [] ∧ (s.dev.bench m).evq = [] ∧ out = (sendFit ((s.dev.hub.creditsBack (2 * p.val + k.val) m).windowRoom (2 * p.val + k.val) m) (s.dev.windowTlps (2 * p.val + k.val) m)).1 ∧ own = min out.length ((s.dev.bench m).tlps.filter (s.dev.hub.carriesTlp (2 * p.val + k.val))).length) ∧
    (∃ (p : HostPort) (k : Fin 2) (n : BenchId) (s : State), (s.dev.hub.linkState (2 * p.val + k.val) = 0 ∨ s.dev.hub.linkState (2 * p.val + k.val) = 3)) :=
  ⟨⟨0, 0, 0, _, _, tS tHost { tB with tlps := [tTlp] }, by decide, rfl, rfl⟩,
   ⟨0, 0, 0, _, _, tS (tHost.linkIn 0 1) { tB with tlps := [tTlp, cplTlp 0 1 [] false] }, by decide, rfl, rfl⟩,
   ⟨0, 0, 0, tS (tHost.setFld (R.pcr_BENCH_CTL_LEND_OK 0) 0) tB, by decide, by decide, by decide, by decide⟩,
   ⟨0, 0, 0, 1, _, _, tS2 (tHost.setFld (R.pcr_BENCH_CTL_LEND_OK 0) 1) tB { tB with tlps := [tTlp] }, by decide, by decide, by decide, by decide, by decide, by decide, rfl, rfl⟩,
   ⟨0, 0, 0, 1, _, _, tS2 (tHost.setFld (R.pcr_BENCH_CTL_LEND_OK 0) 0) (tB.inSt .off) { tB with tlps := [tTlp] }, by decide, by decide, by decide, by decide, by decide, by decide, rfl, rfl⟩,
   ⟨1, 1, 0, tS tH tB, by decide⟩⟩

/-- The hypotheses of ConfigurationRequests are met, clause by clause. -/
theorem witness_ConfigurationRequests :
    (∃ (key : Nat) (x : CfgField) (s : State), s.dev.hub.linkState (s.dev.hub.linkOf key) ≠ 0 ∧ s.dev.hub.linkState (s.dev.hub.linkOf key) ≠ 3 ∧ s.dev.hub.ready (fnPort key) = true ∧ s.dev.hub.inReset key = false ∧ s.dev.hub.present key = true ∧ inqFull false 0 (s.dev.hub.inqOf (s.dev.hub.inqKey key none)) = false) ∧
    (∃ (key : Nat) (x : CfgField) (s : State), s.dev.hub.linkState (s.dev.hub.linkOf key) ≠ 0 ∧ s.dev.hub.linkState (s.dev.hub.linkOf key) ≠ 3 ∧ s.dev.hub.ready (fnPort key) = true ∧ s.dev.hub.inReset key = false ∧ s.dev.hub.present key = false ∧ inqFull false 0 (s.dev.hub.inqOf (s.dev.hub.inqKey key none)) = false) ∧
    (∃ (key : Nat) (x : CfgField) (s : State), s.dev.hub.linkState (s.dev.hub.linkOf key) ≠ 0 ∧ s.dev.hub.linkState (s.dev.hub.linkOf key) ≠ 3 ∧ (s.dev.hub.ready (fnPort key) = false ∨ s.dev.hub.inReset key = true) ∧ inqFull false 0 (s.dev.hub.inqOf (s.dev.hub.inqKey key none)) = false) ∧
    (∃ (key : Nat) (x : CfgField) (v : Nat) (s : State), s.dev.hub.linkState (s.dev.hub.linkOf key) ≠ 0 ∧ s.dev.hub.linkState (s.dev.hub.linkOf key) ≠ 3 ∧ (s.dev.hub.ready (fnPort key) = false ∨ s.dev.hub.inReset key = true) ∧ inqFull false 0 (s.dev.hub.inqOf (s.dev.hub.inqKey key none)) = false) ∧
    (∃ (key : Nat) (v : Nat) (s : State), s.dev.hub.linkState (s.dev.hub.linkOf key) ≠ 0 ∧ s.dev.hub.linkState (s.dev.hub.linkOf key) ≠ 3 ∧ s.dev.hub.ready (fnPort key) = true ∧ s.dev.hub.inReset key = false ∧ s.dev.hub.present key = true ∧ inqFull false 0 (s.dev.hub.inqOf (s.dev.hub.inqKey key none)) = false ∧ (s.dev.hub.fn key).pend = [] ∧ s.dev.hub.fw.mbx = []) ∧
    (∃ (key : Nat) (x : CfgField) (v : Nat) (s : State), s.dev.hub.linkState (s.dev.hub.linkOf key) ≠ 0 ∧ s.dev.hub.linkState (s.dev.hub.linkOf key) ≠ 3 ∧ inqFull false 0 (s.dev.hub.inqOf (s.dev.hub.inqKey key none)) = true) ∧
    (∃ (key : Nat) (x : CfgField) (v : Nat) (s : State), (s.dev.hub.linkState (s.dev.hub.linkOf key) = 0 ∨ s.dev.hub.linkState (s.dev.hub.linkOf key) = 3)) ∧
    (∃ (p : HostPort) (s : State), s.dev.hub.up = true) ∧
    (∃ (p : HostPort) (s : State), s.dev.hub.ready p.val = false ∧ s.dev.hub.fw.perst.contains p.val = false ∧ s.dev.hub.fw.por = false) ∧
    (∃ (p : HostPort) (idx : Nat) (vf : Bool) (n : BenchId) (s : State), idx < 2048 ∧ s.dev.hub.up = true ∧ n = benchOf (s.dev.hub.homeBench (fnKey p.val vf idx)) ∧ winCheck n (fnKey p.val vf idx) s.dev.hub (s.dev.bench n) = 0) ∧
    (∃ (p : HostPort) (idx : Nat) (r : Nat) (vf : Bool) (n : BenchId) (s : State), idx < 2048 ∧ s.dev.hub.up = true ∧ n = benchOf (s.dev.hub.homeBench (fnKey p.val vf idx)) ∧ winCheck n (fnKey p.val vf idx) s.dev.hub (s.dev.bench n) = r ∧ r ≠ 0) :=
  ⟨⟨0, .maxPayload, tS tHost tB, by decide, by decide, by decide, by decide, by decide, by decide⟩,
   ⟨1, .maxPayload, tS tHost tB, by decide, by decide, by decide, by decide, by decide, by decide⟩,
   ⟨4096, .maxPayload, tS ((tHost.linkIn 2 2).setFld R.pcr_CFG_READY_READY 1) tB, by decide, by decide, by decide, by decide⟩,
   ⟨4096, .maxPayload, 1, tS ((tHost.linkIn 2 2).setFld R.pcr_CFG_READY_READY 1) tB, by decide, by decide, by decide, by decide⟩,
   ⟨0, 7, tS tHost tB, by decide, by decide, by decide, by decide, by decide, by decide, by decide, by decide⟩,
   ⟨0, .maxPayload, 1, tS { tHost with inq := [(16, List.replicate 16 (false, 0))] } tB, by decide, by decide, by decide⟩,
   ⟨4096, .flr, 1, tS tHost tB, by decide⟩,
   ⟨1, tS tH tB, by decide⟩,
   ⟨1, tS { tH with fw := { tH.fw with perst := [] } } tB, by decide, by decide, by decide⟩,
   ⟨0, 0, false, 0, tS tHost tB, by decide, by decide, by decide, by decide⟩,
   ⟨0, 2047, 3, true, 0, tS tHost tB, by decide, by decide, by decide, by decide, by decide⟩⟩

/-- The hypotheses of FunctionsSilencedAndReset are met, clause by clause. -/
theorem witness_FunctionsSilencedAndReset :
    (∃ (key : Nat) (s : State), (s.dev.hub.fn key).bme = true) ∧
    (∃ (key : Nat) (s : State), (s.dev.hub.fn key).bme = false) ∧
    (∃ (key : Nat) (s : State), (s.dev.hub.fn key).bme = true) ∧
    (∃ (key : Nat) (s : State), s.dev.hub.inReset key = false) ∧
    (∃ (key : Nat) (s : State), (s.dev.hub.fn key).flr = true) ∧
    (∃ (key : Nat) (s : State), fnVf key = false ∧ (s.dev.hub.fn key).d3hot = false ∧ s.dev.hub.present key = true) ∧
    (∃ (key : Nat) (s : State), fnVf key = false ∧ (s.dev.hub.fn key).d3hot = true ∧ (s.dev.hub.fn key).flr = false) ∧
    (∃ (key : Nat) (vec : Nat) (s : State), (s.dev.hub.fn key).msixEn = true ∧ vec < s.dev.hub.tableSize key) ∧
    (∃ (p : HostPort) (k : Fin 2) (j : Nat) (aux : Bool) (s : State), s.dev.hub.linkState (2 * p.val + k.val) ≠ 0 ∧ 2 * p.val + k.val ∉ s.dev.hub.fw.turnOff ∧ j < 4 ∧ j ≠ 2 * p.val + k.val ∧ s.dev.hub.linkState j ≠ 0 ∧ j ∉ s.dev.hub.fw.turnOff) ∧
    (∃ (p : HostPort) (k : Fin 2) (aux : Bool) (s : State), s.dev.hub.linkState (2 * p.val + k.val) ≠ 0 ∧ 2 * p.val + k.val ∈ s.dev.hub.fw.turnOff ∧ ((∀ j, j < 4 → s.dev.hub.linkState j ≠ 0 → j ∈ s.dev.hub.fw.turnOff))) ∧
    (∃ (p : HostPort) (k : Fin 2) (aux : Bool) (n : BenchId) (s : State), s.dev.hub.linkState (2 * p.val + k.val) ≠ 0 ∧ 2 * p.val + k.val ∈ s.dev.hub.fw.turnOff ∧ ((∀ j, j < 4 → s.dev.hub.linkState j ≠ 0 → j ∈ s.dev.hub.fw.turnOff)) ∧ (s.dev.bench n).power.st = .running) ∧
    (∃ (p : HostPort) (s : State), s.dev.hub.fw.perst.contains p.val = false) :=
  ⟨⟨0, tS tHost tB, by decide⟩,
   ⟨0, tS tH tB, by decide⟩,
   ⟨0, tS tHost tB, by decide⟩,
   ⟨0, tS tHost tB, by decide⟩,
   ⟨0, tS (tHost.setFn 0 { FnSt.reset with flr := true }) tB, by decide⟩,
   ⟨0, tS tHost tB, by decide, by decide, by decide⟩,
   ⟨0, tS (tHost.setFn 0 { FnSt.reset with d3hot := true }) tB, by decide, by decide, by decide⟩,
   ⟨0, 3, tS tHost tB, by decide, by decide⟩,
   ⟨0, 0, 2, false, tS (tHost.linkIn 2 2) tB, by decide, by decide, by decide, by decide, by decide, by decide⟩,
   ⟨0, 0, true, tS { tHost with fw := { tHost.fw with turnOff := [0] } } tB, by decide, by decide, by decide⟩,
   ⟨0, 0, true, 0, tS { tHost with fw := { tHost.fw with turnOff := [0] } } tB, by decide, by decide, by decide, by decide⟩,
   ⟨0, tS { tHost with fw := { tHost.fw with perst := [] } } tB, by decide⟩⟩

/-- The hypotheses of CompletionsOfDeviceReads are met, clause by clause. -/
theorem witness_CompletionsOfDeviceReads :
    (∃ (n : BenchId) (key : Nat) (tag : Nat) (data : List Byte) (r : HostRead) (s : State), (s.dev.bench n).live = true ∧ (s.dev.bench n).sentRead n key tag = some r ∧ r.quarantine = false ∧ r.dead = false ∧ r.len ≤ r.got.length + data.length ∧ r.retried = false) ∧
    (∃ (n : BenchId) (key : Nat) (tag : Nat) (data : List Byte) (r : HostRead) (s : State), (s.dev.bench n).live = true ∧ (s.dev.bench n).sentRead n key tag = some r ∧ r.quarantine = false ∧ r.dead = false ∧ r.len ≤ r.got.length + data.length ∧ r.retried = true) ∧
    (∃ (n : BenchId) (key : Nat) (tag : Nat) (data : List Byte) (r : HostRead) (s : State), (s.dev.bench n).live = true ∧ (s.dev.bench n).sentRead n key tag = some r ∧ r.quarantine = false ∧ r.dead = false ∧ r.got.length + data.length < r.len) ∧
    (∃ (n : BenchId) (key : Nat) (tag : Nat) (status : Nat) (data : List Byte) (ep : Bool) (s : State), (s.dev.bench n).live = true ∧ (s.dev.bench n).sentRead n key tag = none) ∧
    (∃ (n : BenchId) (key : Nat) (tag : Nat) (data : List Byte) (r : HostRead) (s : State), (s.dev.bench n).live = true ∧ (s.dev.bench n).sentRead n key tag = some r ∧ r.quarantine = false ∧ r.dead = false ∧ r.len ≤ r.got.length + data.length) ∧
    (∃ (n : BenchId) (key : Nat) (tag : Nat) (status : Nat) (data : List Byte) (ep : Bool) (r : HostRead) (s : State), (s.dev.bench n).live = true ∧ (s.dev.bench n).sentRead n key tag = some r ∧ r.quarantine = false ∧ r.dead = false ∧ status ≠ 0) ∧
    (∃ (n : BenchId) (key : Nat) (tag : Nat) (r : HostRead) (s : State), (s.dev.bench n).live = true ∧ (s.dev.bench n).sentRead n key tag = some r ∧ r.quarantine = false ∧ r.dead = false ∧ r.retryOk = true ∧ r.retried = false ∧ (s.dev.bench n).reads.length < 1024 ∧ ((s.dev.bench n).freeTag (s.dev.hub.fn key).tag14 key (s.dev.hub.fn key).tagCount).isSome = true) ∧
    (∃ (n : BenchId) (key : Nat) (tag : Nat) (r : HostRead) (s : State), (s.dev.bench n).live = true ∧ (s.dev.bench n).sentRead n key tag = some r ∧ r.quarantine = false ∧ r.dead = false ∧ (r.retryOk && !r.retried) = false) ∧
    (∃ (n : BenchId) (key : Nat) (tag : Nat) (r : HostRead) (s : State), (s.dev.bench n).live = true ∧ (s.dev.bench n).sentRead n key tag = some r ∧ r.quarantine = false ∧ r.dead = false ∧ (r.retryOk && !r.retried) = false) ∧
    (∃ (n : BenchId) (key : Nat) (tag : Nat) (s : State), (s.dev.bench n).live = true) :=
  ⟨⟨0, 0, 3, List.replicate 64 0#8, tRead true false, tS tHost (tReads (tRead true false)), by decide, by decide, by decide, by decide, by decide, by decide⟩,
   ⟨0, 0, 3, List.replicate 64 0#8, tRead true true, tS tHost (tReads (tRead true true)), by decide, by decide, by decide, by decide, by decide, by decide⟩,
   ⟨0, 0, 3, List.replicate 63 0#8, tRead true false, tS tHost (tReads (tRead true false)), by decide, by decide, by decide, by decide, by decide⟩,
   ⟨0, 0, 4, 0, [], false, tS tHost (tReads (tRead true false)), by decide, by decide⟩,
   ⟨0, 0, 3, List.replicate 64 0#8, tRead true false, tS tHost (tReads (tRead true false)), by decide, by decide, by decide, by decide, by decide⟩,
   ⟨0, 0, 3, 4, [], false, tRead true false, tS tHost (tReads (tRead true false)), by decide, by decide, by decide, by decide, by decide⟩,
   ⟨0, 0, 3, tRead true false, tS tHost (tReads (tRead true false)), by decide, by decide, by decide, by decide, by decide, by decide, by decide, by simp only [freeTag_isSome]; decide⟩,
   ⟨0, 0, 3, tRead false false, tS tHost (tReads (tRead false false)), by decide, by decide, by decide, by decide, by decide⟩,
   ⟨0, 0, 3, tRead true true, tS tHost (tReads (tRead true true)), by decide, by decide, by decide, by decide, by decide⟩,
   ⟨0, 0, 3, tS tHost (tReads { tRead true true with quarantine := true }), by decide⟩⟩

/-- The hypotheses of HostAccessesInBars are met, clause by clause. -/
theorem witness_HostAccessesInBars :
    (∃ (key : Nat) (bar : Nat) (off : Nat) (size : Nat) (buf : Nat) (full : Bool) (ecc : Ecc) (s : State), s.dev.hub.gate key = .silent) ∧
    (∃ (key : Nat) (bar : Nat) (off : Nat) (size : Nat) (full : Bool) (ecc : Ecc) (s : State), s.dev.hub.gate key = .unsupported) ∧
    (∃ (key : Nat) (bar : Nat) (off : Nat) (size : Nat) (full : Bool) (ecc : Ecc) (s : State), s.dev.hub.gate key = .unsupported) ∧
    (∃ (key : Nat) (off : Nat) (size : Nat) (ecc : Ecc) (s : State), s.dev.hub.gate key = .served ∧ bit (s.dev.hub.ctlPage key off).1 0 = false ∧ inqFull false 0 (s.dev.hub.inqOf (s.dev.hub.inqKey key none)) = false) ∧
    (∃ (key : Nat) (bar : Nat) (off : Nat) (size : Nat) (full : Bool) (ecc : Ecc) (s : State), s.dev.hub.gate key = .served ∧ s.dev.hub.queueOf key bar off = none ∧ (full = true ∨ inqFull false 0 (s.dev.hub.inqOf (s.dev.hub.inqKey key none)) = true)) ∧
    (∃ (key : Nat) (off : Nat) (size : Nat) (ecc : Ecc) (s : State), s.dev.hub.gate key = .served ∧ bit (s.dev.hub.dbPage key off).1 0 = true ∧ inqFull false 0 (s.dev.hub.inqOf (s.dev.hub.inqKey key (s.dev.hub.queueOf key 1 off))) = false) ∧
    (∃ (key : Nat) (off : Nat) (size : Nat) (ecc : Ecc) (s : State), s.dev.hub.gate key = .served ∧ inqFull false 0 (s.dev.hub.inqOf (s.dev.hub.inqKey key none)) = false) ∧
    (∃ (key : Nat) (off : Nat) (size : Nat) (ecc : Ecc) (s : State), s.dev.hub.gate key = .served ∧ bit (s.dev.hub.ctlPage key off).1 0 = true ∧ s.dev.hub.queueOf key 0 off = none ∧ inqFull false 0 (s.dev.hub.inqOf (s.dev.hub.inqKey key none)) = false ∧ size ≤ 64 ∧ off % 64 + size ≤ 64) ∧
    (∃ (key : Nat) (bar : Nat) (off : Nat) (l : List Byte) (p : Bool) (full : Bool) (ecc : Ecc) (s : State), s.dev.hub.gate key = .silent) ∧
    (∃ (key : Nat) (bar : Nat) (off : Nat) (l : List Byte) (p : Bool) (full : Bool) (ecc : Ecc) (s : State), s.dev.hub.gate key = .unsupported) ∧
    (∃ (key : Nat) (off : Nat) (l : List Byte) (ecc : Ecc) (s : State), s.dev.hub.gate key = .served ∧ bit (s.dev.hub.ctlPage key off).1 0 = false ∧ inqFull true l.length (s.dev.hub.inqOf (s.dev.hub.inqKey key none)) = false) ∧
    (∃ (key : Nat) (bar : Nat) (off : Nat) (l : List Byte) (p : Bool) (full : Bool) (ecc : Ecc) (s : State), s.dev.hub.gate key = .served ∧ s.dev.hub.queueOf key bar off = none ∧ (full = true ∨ inqFull true l.length (s.dev.hub.inqOf (s.dev.hub.inqKey key none)) = true)) ∧
    (∃ (key : Nat) (off : Nat) (l : List Byte) (ecc : Ecc) (s : State), s.dev.hub.gate key = .served ∧ s.dev.hub.queueOf key 0 off = none ∧ inqFull true l.length (s.dev.hub.inqOf (s.dev.hub.inqKey key none)) = false) ∧
    (∃ (key : Nat) (off : Nat) (v : Nat) (ecc : Ecc) (s : State), s.dev.hub.gate key = .served ∧ inqFull true 4 (s.dev.hub.inqOf (s.dev.hub.inqKey key none)) = false ∧ off % 4 = 0 ∧ v < 2 ^ 32) ∧
    (∃ (key : Nat) (off : Nat) (v : Nat) (ecc : Ecc) (s : State), s.dev.hub.gate key = .served ∧ inqFull true 4 (s.dev.hub.inqOf (s.dev.hub.inqKey key none)) = false ∧ off % 4 = 0 ∧ v < 2 ^ 32) ∧
    (∃ (key : Nat) (off : Nat) (size : Nat) (v : Nat) (pasid : Option Nat) (s : State), s.dev.hub.gate key = .served ∧ bit (s.dev.hub.dbPage key off).1 0 = false ∧ inqFull true size (s.dev.hub.inqOf (s.dev.hub.inqKey key none)) = false) ∧
    (∃ (n : BenchId) (key : Nat) (off : Nat) (v : Nat) (r : Nat) (c : Claim) (h' : Hub) (s : State), s.dev.hub.gate key = .served ∧ bit (s.dev.hub.dbPage key off).1 0 = true ∧ n = benchOf (getBits (s.dev.hub.dbPage key off).1 1 4) ∧ (s.dev.bench n).power.st = .running ∧ (s.dev.hub.dbPage key off).2 % 8 = 0 ∧ r = getBits (s.dev.hub.dbPage key off).1 5 14 + (s.dev.hub.dbPage key off).2 / 8 ∧ v < 2 ^ 32 ∧ ((s.dev.bench n).ringKind r = 1 ∨ (s.dev.bench n).ringKind r = 2) ∧ (s.dev.bench n).claim? ((s.dev.bench n).ringClaim r) = some c ∧ c.fn = key ∧ c.owns r = true ∧ (s.dev.bench n).badDoorbell r (dbIndex v) (dbLap v) = false ∧ inqFull true 4 (s.dev.hub.inqOf (s.dev.hub.inqKey key (some n))) = false ∧ h' = (s.dev.hub.inqPush (s.dev.hub.inqKey key (some n)) true 4).inqMark key (some n) true (inqCount true (s.dev.hub.inqOf (s.dev.hub.inqKey key (some n))) + 1)) :=
  ⟨⟨0, 0, 0, 4, 0, false, [], tS tH tB, by decide⟩,
   ⟨0, 0, 0, 4, false, [], tS (tH.linkIn 0 1) tB, by decide⟩,
   ⟨0, 0, 0, 4, false, [], tS (tHost.setFn 0 { FnSt.reset with flr := true }) tB, by decide⟩,
   ⟨0, 0, 4, [], tS tHost tB, by decide, by decide, by decide⟩,
   ⟨0, 0, 0, 4, false, [], tS { tHost with inq := [(16, List.replicate 16 (false, 0))] } tB, by decide, by decide, by decide⟩,
   ⟨0, 0, 4, [], tS (tHost.setReg (dbEntryAt 0 0) 1#32) tB, by decide, by decide, by decide⟩,
   ⟨0, 0, 4, [], tS tHost tB, by decide, by decide⟩,
   ⟨0, 0, 4, [], tS (tHost.setReg (ctlEntryAt 0 0) 0x100001#32) tB, by decide, by decide, by decide, by decide, by decide, by decide⟩,
   ⟨0, 0, 0, [1#8], true, false, [], tS tH tB, by decide⟩,
   ⟨0, 0, 0, [1#8], true, false, [], tS (tH.linkIn 0 1) tB, by decide⟩,
   ⟨0, 0, [1#8], [], tS tHost tB, by decide, by decide, by decide⟩,
   ⟨0, 2, 0, [1#8], true, false, [], tS { tHost with inq := [(16, List.replicate 64 (true, 0))] } tB, by decide, by decide, by decide⟩,
   ⟨0, 0, [1#8], [], tS tHost tB, by decide, by decide, by decide⟩,
   ⟨0, 0, 0xFFFFFFFF, [], tS tHost tB, by decide, by decide, by decide, by decide⟩,
   ⟨0, 64, 1, [], tS tHost tB, by decide, by decide, by decide, by decide⟩,
   ⟨0, 0, 4, 0, none, tS tHost tB, by decide, by decide, by decide⟩,
   ⟨0, 0, 8, 2, 1, tClaim 1, _, tS (tHost.setReg (dbEntryAt 0 0) 1#32) ((tB.claimed (tClaim 1)).setMbits (ringAddr 1) 64 10 (1 + 2 ^ 4 * 3 + 2 ^ 8 * 2)), by decide, by decide, by decide, by decide, by decide, by decide, by decide, by decide, by decide, by decide, by decide, by decide, by decide, rfl⟩⟩

/-- The hypotheses of RingFetchesAndCompletions are met, clause by clause. -/
theorem witness_RingFetchesAndCompletions :
    (∃ (n : BenchId) (w : Bid) (s : State), (s.dev.bench n).power.st = .running ∧ bestBid (Bench.bids s.dev.hub (s.dev.bench n) false) = some w) ∧
    (∃ (n : BenchId) (s : State), (s.dev.bench n).power.st = .running ∧ bestBid (Bench.bids s.dev.hub (s.dev.bench n) false) = none) ∧
    (∃ (n : BenchId) (w : Bid) (s : State), (s.dev.bench n).power.st = .running ∧ bestBid (Bench.bids s.dev.hub (s.dev.bench n) true) = some w) ∧
    (∃ (n : BenchId) (r : Nat) (f : Fetch) (l : List Byte) (s : State), (s.dev.bench n).live = true ∧ (s.dev.bench n).rings.fetches.find? (fun f => f.ring = r) = some f ∧ f.got = some l) ∧
    (∃ (n : BenchId) (r : Nat) (s : State), (s.dev.bench n).live = true ∧ (s.dev.bench n).rings.fetches.find? (fun f => f.ring = r) = none) ∧
    (∃ (n : BenchId) (r : Nat) (f : Fetch) (s : State), (s.dev.bench n).live = true ∧ (s.dev.bench n).rings.fetches.find? (fun f => f.ring = r && f.waiting) = some f ∧ (s.dev.bench n).fetchable r = true ∧ Bench.mayIssue s.dev.hub (s.dev.bench n) ((s.dev.bench n).ringClaim r) (f.count * f.size) = true) ∧
    (∃ (n : BenchId) (r : Nat) (f : Fetch) (s : State), (s.dev.bench n).live = true ∧ (s.dev.bench n).rings.fetches.find? (fun f => f.ring = r && f.waiting) = some f ∧ (s.dev.bench n).fetchable r = false) ∧
    (∃ (n : BenchId) (r : Nat) (s : State), (s.dev.bench n).live = true ∧ (s.dev.bench n).rings.fetches.find? (fun f => f.ring = r && f.waiting) = none) ∧
    (∃ (n : BenchId) (c : Cpl) (k : Claim) (t : Bench) (rest : List Cpl) (s : State), (s.dev.bench n).live = true ∧ (s.dev.bench n).rings.cpls = c :: rest ∧ c.out = true ∧ (s.dev.bench n).ringCpl c.cq = true ∧ (s.dev.bench n).ringState c.cq = 2 ∧ 0 < (s.dev.bench n).ringFree c.cq ∧ (s.dev.bench n).ringOvf c.cq = 0 ∧ (s.dev.bench n).claim? ((s.dev.bench n).ringClaim c.cq) = some k ∧ (s.dev.bench n).ringArmed c.cq = false ∧ t = (({ (s.dev.bench n) with rings := { (s.dev.bench n).rings with cpls := rest } } : Bench).addOwed c.cq (-1)).tallyCmd 2 0 (entrySize ((s.dev.bench n).ringKind c.cq))) ∧
    (∃ (n : BenchId) (s : State), (s.dev.bench n).live = true ∧ (s.dev.bench n).rings.cpls = []) ∧
    (∃ (n : BenchId) (q : Nat) (k : Claim) (b' : Bench) (s : State), (s.dev.bench n).live = true ∧ (s.dev.bench n).ringCpl q = true ∧ (s.dev.bench n).ringArmed q = true ∧ (s.dev.bench n).sinceArm q ≠ 0 ∧ (s.dev.bench n).ringHeld q ≠ 0 ∧ (s.dev.bench n).claim? ((s.dev.bench n).ringClaim q) = some k ∧ (s.dev.bench n).ringVector q < s.dev.hub.tableSize k.fn ∧ b' = ((s.dev.bench n).setMbits (ringAddr q) 208 1 0).setSince q 0) :=
  ⟨⟨0, ⟨0, 0, 32, 256, 256, 256⟩, tS tHost (tRing 1), by decide, by delta Bench.bids; delta Bench.nextRing; delta Bench.ready; delta Bench.mayIssue; simp only [freeTag_isSome]; decide⟩,
   ⟨0, tS tHost tB, by decide, by decide⟩,
   ⟨0, ⟨0, 0, 64, 256, 256, 256⟩, tS tHost (tRing 4), by decide, by delta Bench.bids; delta Bench.nextRing; delta Bench.ready; delta Bench.mayIssue; simp only [freeTag_isSome]; decide⟩,
   ⟨0, 0, ⟨0, 1, 32, some (List.replicate 32 0#8), false, false⟩, List.replicate 32 0#8, tS tHost ((tRing 1).withFetch ⟨0, 1, 32, some (List.replicate 32 0#8), false, false⟩), by decide, by decide, by decide⟩,
   ⟨0, 1, tS tH tB, by decide, by decide⟩,
   ⟨0, 0, ⟨0, 1, 32, none, false, true⟩, tS tHost ((tRing 1).withFetch ⟨0, 1, 32, none, false, true⟩), by decide, by decide, by decide, by delta Bench.mayIssue; simp only [freeTag_isSome]; decide⟩,
   ⟨0, 0, ⟨0, 1, 32, none, false, true⟩, tS tHost (((tRing 1).withFetch ⟨0, 1, 32, none, false, true⟩).inSt .draining), by decide, by decide, by decide⟩,
   ⟨0, 0, tS tH tB, by decide, by decide⟩,
   ⟨0, ⟨5, 0, [1], true⟩, tClaim 1, _, [], tS tHost ((tRing 3).withCpls [⟨5, 0, [1], true⟩]), by decide, by decide, by decide, by decide, by decide, by decide, by decide, by decide, by decide, rfl⟩,
   ⟨0, tS tHost tB, by decide, by decide⟩,
   ⟨0, 0, tClaim 1, _, tS tHost ((((tRing 3).setMbits (ringAddr 0) 208 1 1).setMbits (ringAddr 0) 192 16 5).setSince 0 1), by decide, by decide, by decide, by decide, by decide, by decide, by decide, rfl⟩⟩

/-- The hypotheses of ClaimsDrainAndReset are met, clause by clause. -/
theorem witness_ClaimsDrainAndReset :
    (∃ (n : BenchId) (i : Nat) (c : Claim) (s : State), (s.dev.bench n).live = true ∧ (s.dev.bench n).claim? i = some c ∧ c.st = 2 ∧ c.resetting = false ∧ ((s.dev.bench n).returnRecvs c).claimDrained i c = true) ∧
    (∃ (n : BenchId) (i : Nat) (c : Claim) (s : State), (s.dev.bench n).live = true ∧ (s.dev.bench n).claim? i = some c ∧ c.st ≠ 2) ∧
    (∃ (n : BenchId) (i : Nat) (c : Claim) (s : State), (s.dev.bench n).live = true ∧ (s.dev.bench n).claim? i = some c ∧ c.st = 2 ∧ c.resetting = false) ∧
    (∃ (n : BenchId) (i : Nat) (c : Claim) (s : State), (s.dev.bench n).live = true ∧ (s.dev.bench n).claim? i = some c ∧ c.st ≠ 2) ∧
    (∃ (n : BenchId) (i : Nat) (c : Claim) (s : State), (s.dev.bench n).live = true ∧ (s.dev.bench n).claim? i = some c ∧ c.resetting = true) :=
  ⟨⟨0, 0, tClaim 2, tS tHost (tB.claimed (tClaim 2)), by decide, by decide, by decide, by decide, by decide⟩,
   ⟨0, 0, tClaim 1, tS tHost (tB.claimed (tClaim 1)), by decide, by decide, by decide⟩,
   ⟨0, 0, tClaim 2, tS tHost (tB.claimed (tClaim 2)), by decide, by decide, by decide, by decide⟩,
   ⟨0, 0, tClaim 1, tS tHost (tB.claimed (tClaim 1)), by decide, by decide, by decide⟩,
   ⟨0, 0, { tClaim 2 with resetting := true }, tS tHost (tB.claimed { tClaim 2 with resetting := true }), by decide, by decide, by decide⟩⟩

/-- The hypotheses of HaulCommands are met, clause by clause. -/
theorem witness_HaulCommands :
    (∃ (n : BenchId) (s : State), (s.dev.bench n).live = true ∧ ((s.dev.bench n).chanCmds 6).length < 16) ∧
    (∃ (n : BenchId) (s : State), (s.dev.bench n).live = true ∧ 16 ≤ ((s.dev.bench n).chanCmds 6).length) ∧
    (∃ (n : BenchId) (c : Nat) (ecc : Ecc) (k : HaulCmd) (s : State), (s.dev.bench n).live = true ∧ (s.dev.bench n).nextStart c = some k) ∧
    (∃ (n : BenchId) (c : Nat) (ecc : Ecc) (s : State), (s.dev.bench n).live = true ∧ (s.dev.bench n).nextStart c = none) ∧
    (∃ (n : BenchId) (c : Nat) (ecc : Ecc) (k : HaulCmd) (s : State), (s.dev.bench n).live = true ∧ (s.dev.bench n).nextRead c = some k ∧ k.tabs = [] ∧ k.op = 2 ∧ 0 < (s.dev.bench n).mayStage k.chan ∧ turnOf (Bench.readReady s.dev.hub (s.dev.bench n)) (s.dev.bench n).haul.rdTurn = some c) ∧
    (∃ (n : BenchId) (c : Nat) (ecc : Ecc) (s : State), (s.dev.bench n).live = true ∧ turnOf (Bench.readReady s.dev.hub (s.dev.bench n)) (s.dev.bench n).haul.rdTurn ≠ some c) ∧
    (∃ (n : BenchId) (c : Nat) (ecc : Ecc) (k : HaulCmd) (s : State), (s.dev.bench n).live = true ∧ (s.dev.bench n).nextRead c = some k ∧ turnOf (Bench.readReady s.dev.hub (s.dev.bench n)) (s.dev.bench n).haul.rdTurn = some c) ∧
    (∃ (n : BenchId) (c : Nat) (k : HaulCmd) (x : Chunk) (l : List Byte) (s : State), (s.dev.bench n).live = true ∧ (s.dev.bench n).nextWrite c = some (k, x) ∧ x.bad = 0 ∧ x.data = some l ∧ 6 ≤ k.chan ∧ k.dstSpace = 0 ∧ k.crcEn = false ∧ k.csumEn = false ∧ turnOf (fun d => ((s.dev.bench n).nextWrite d).isSome) (s.dev.bench n).haul.wrTurn = some c) ∧
    (∃ (n : BenchId) (c : Nat) (ecc : Ecc) (s : State), (s.dev.bench n).live = true ∧ (s.dev.bench n).nextWrite c = none) ∧
    (∃ (n : BenchId) (c : Nat) (st : Nat) (k : HaulCmd) (s : State), (s.dev.bench n).live = true ∧ ((s.dev.bench n).chanCmds c).head? = some k ∧ (s.dev.bench n).doneStatus k = some st) ∧
    (∃ (n : BenchId) (c : Nat) (s : State), (s.dev.bench n).live = true ∧ ((s.dev.bench n).chanCmds c).head? = none) ∧
    (∃ (n : BenchId) (c : Cpl) (rest : List Cpl) (s : State), (s.dev.bench n).live = true ∧ (s.dev.bench n).rings.cpls = c :: rest ∧ c.out = false ∧ ((∀ x, x < 24 → (s.dev.bench n).slotBusy x = true → x = c.slot)) ∧ c.slot < 24 ∧ (s.dev.bench n).quiet) ∧
    (∃ (n : BenchId) (c : HaulCmd) (rest : List HaulCmd) (s : State), (s.dev.bench n).live = true ∧ (s.dev.bench n).rings.cpls = [] ∧ (s.dev.bench n).haul.cmds = c :: rest ∧ c.ended = true ∧ c.chan = 6 ∧ ((∀ x, x < 24 → (s.dev.bench n).slotBusy x = true → x = c.slot)) ∧ (s.dev.bench n).quiet) :=
  ⟨⟨0, tS tHost tB, by decide, by decide⟩,
   ⟨0, tS tHost (tB.hauls (List.replicate 16 (tCmd 6 0))), by decide, by decide⟩,
   ⟨0, 8, [], { tCmd 8 0 with started := false }, tS tHost (tB.hauls [{ tCmd 8 0 with started := false }]), by decide, by decide⟩,
   ⟨0, 8, [], tS tH tB, by decide, by decide⟩,
   ⟨0, 8, [], tCmd 8 2, tS tHost ((tB.hauls [tCmd 8 2]).setFld (R.haul_HAUL_CH_STAGE_LIMIT 6) 4), by decide, by decide, by decide, by decide, by decide, by decide⟩,
   ⟨0, 8, [], tS tHost ((tB.hauls [tCmd 8 0]).setFld (R.haul_HAUL_CH_STAGE_LIMIT 6) 0), by decide, by decide⟩,
   ⟨0, 8, [], tCmd 8 2, tS tHost ((tB.hauls [tCmd 8 2]).setFld (R.haul_HAUL_CH_STAGE_LIMIT 6) 4), by decide, by decide, by decide⟩,
   ⟨0, 8, { tCmd 8 0 with chunks := [⟨0, 64, some (List.replicate 64 1#8), 0⟩], dst := [(0x100006000000, 64)] }, ⟨0, 64, some (List.replicate 64 1#8), 0⟩, List.replicate 64 1#8, tS tHost (tB.hauls [{ tCmd 8 0 with chunks := [⟨0, 64, some (List.replicate 64 1#8), 0⟩], dst := [(0x100006000000, 64)] }]), by decide, by decide, by decide, by decide, by decide, by decide, by decide, by decide, by decide⟩,
   ⟨0, 8, [], tS tH tB, by decide, by decide⟩,
   ⟨0, 8, 3, { tCmd 8 0 with status := some 3 }, tS tHost (tB.hauls [{ tCmd 8 0 with status := some 3 }]), by decide, by decide, by decide⟩,
   ⟨0, 8, tS tH tB, by decide, by decide⟩,
   ⟨0, ⟨5, 0, [1], false⟩, [], tS tHost ((tRing 3).withCpls [⟨5, 0, [1], false⟩]), by decide, by decide, by decide, by decide, by decide, ⟨by decide, by decide, by decide, by decide⟩⟩,
   ⟨0, { tCmd 6 0 with ended := true, status := some 0 }, [], tS tHost (tB.hauls [{ tCmd 6 0 with ended := true, status := some 0 }]), by decide, by decide, by decide, by decide, by decide, by decide, ⟨by decide, by decide, by decide, by decide⟩⟩⟩

/-- The hypotheses of FlashChannelsAndRings are met, clause by clause. -/
theorem witness_FlashChannelsAndRings :
    (∃ (n : BenchId) (c : Nat) (page : Nat) (planes : Nat) (blocks : Nat) (pages : Nat) (dies : List (Nat × Bool)) (s : State), (s.dev.bench n).awake = true ∧ c < 2 ∧ (s.dev.bench n).flashState c = fsIdentify ∧ ((∀ d ∈ dies, d.1 < 16))) ∧
    (∃ (n : BenchId) (c : Nat) (s : State), (s.dev.bench n).live = true ∧ c < 2 ∧ (s.dev.bench n).flashState c = fsReady ∧ (s.dev.bench n).fld (R.storage_FLASH_STATUS_DIES c) ≠ 0) ∧
    (∃ (n : BenchId) (c : Nat) (s : State), (s.dev.bench n).live = true ∧ c < 2 ∧ (s.dev.bench n).flashState c ≠ fsReady) ∧
    (∃ (n : BenchId) (c : Nat) (s : State), (s.dev.bench n).live = true ∧ c < 2 ∧ (s.dev.bench n).flashState c = fsTraining ∧ (s.dev.bench n).cwPerPage c ≠ 0) ∧
    (∃ (n : BenchId) (c : Nat) (s : State), (s.dev.bench n).live = true ∧ c < 2 ∧ (s.dev.bench n).flashState c = fsTraining) ∧
    (∃ (n : BenchId) (c : Nat) (v : Word) (k : Int) (s : State), (s.dev.bench n).live = true ∧ c < 2 ∧ dbIndex v.toNat < (s.dev.bench n).fringN c ∧ k = countOf ((s.dev.bench n).fringN c) false (dbIndex v.toNat) (dbLap v.toNat) ((s.dev.bench n).fringIdx c) ((s.dev.bench n).fringLap c) ∧ 0 ≤ k ∧ k ≤ ((s.dev.bench n).fringN c : Int)) ∧
    (∃ (n : BenchId) (c : Nat) (v : Word) (s : State), (s.dev.bench n).live = true ∧ c < 2 ∧ (s.dev.bench n).fringN c ≤ dbIndex v.toNat) ∧
    (∃ (n : BenchId) (c : Nat) (s : State), (s.dev.bench n).live = true ∧ c < 2) ∧
    (∃ (n : BenchId) (c : Nat) (s : State), (s.dev.bench n).live = true ∧ c < 2 ∧ (s.dev.bench n).fringWork c = true ∧ ((s.dev.bench n).fchan c).reread = false ∧ feBits ((s.dev.bench n).fentry c) 60 31 1 = (s.dev.bench n).fringLap c ∧ (s.dev.bench n).dieRoom c (feDie ((s.dev.bench n).fentry c)) = true) ∧
    (∃ (n : BenchId) (c : Nat) (s : State), (s.dev.bench n).live = true ∧ c < 2 ∧ (s.dev.bench n).fringWork c = true ∧ ((s.dev.bench n).fchan c).reread = false ∧ feBits ((s.dev.bench n).fentry c) 60 31 1 ≠ (s.dev.bench n).fringLap c) ∧
    (∃ (n : BenchId) (c : Nat) (s : State), (s.dev.bench n).live = true ∧ c < 2 ∧ (s.dev.bench n).fringWork c = true ∧ ((s.dev.bench n).fchan c).reread = true ∧ feBits ((s.dev.bench n).fentry c) 60 31 1 ≠ (s.dev.bench n).fringLap c) ∧
    (∃ (n : BenchId) (c : Nat) (s : State), (s.dev.bench n).live = true ∧ c < 2 ∧ (s.dev.bench n).fringWork c = true ∧ ((s.dev.bench n).fchan c).reread = true ∧ feBits ((s.dev.bench n).fentry c) 60 31 1 = (s.dev.bench n).fringLap c ∧ (s.dev.bench n).dieRoom c (feDie ((s.dev.bench n).fentry c)) = true) :=
  ⟨⟨0, 1, 16384, 1, 100, 64, [(0, true), (15, false)], tS tH (tB.setFld (R.storage_FLASH_STATUS_STATE 1) fsIdentify), by decide, by decide, by decide, by decide⟩,
   ⟨0, 1, tS tH ((tB.setFld (R.storage_FLASH_STATUS_STATE 1) fsReady).setFld (R.storage_FLASH_STATUS_DIES 1) 1), by decide, by decide, by decide, by decide⟩,
   ⟨0, 1, tS tH tB, by decide, by decide, by decide⟩,
   ⟨0, 1, tS tH ((tB.setFld (R.storage_FLASH_STATUS_STATE 1) fsTraining).setFchan 1 { FlashChan.idle with page := 18432 }), by decide, by decide, by decide, by decide⟩,
   ⟨0, 1, tS tH (tB.setFld (R.storage_FLASH_STATUS_STATE 1) fsTraining), by decide, by decide, by decide⟩,
   ⟨0, 1, 0x10007#32, _, tS tH (tFlash []), by decide, by decide, by decide, rfl, by decide, by decide⟩,
   ⟨0, 1, 8#32, tS tH (tFlash []), by decide, by decide, by decide⟩,
   ⟨0, 1, tS tH (tFlash []), by decide, by decide⟩,
   ⟨0, 1, tS tH (tFring (tFe 1 0 0 1) false), by decide, by decide, by decide, by decide, by decide, by decide⟩,
   ⟨0, 1, tS tH (tFring [1#8] false), by decide, by decide, by decide, by decide, by decide⟩,
   ⟨0, 1, tS tH (tFring [1#8] true), by decide, by decide, by decide, by decide, by decide⟩,
   ⟨0, 1, tS tH (tFring (tFe 1 0 0 1) true), by decide, by decide, by decide, by decide, by decide, by decide⟩⟩

/-- The hypotheses of FlashOperations are met, clause by clause. -/
theorem witness_FlashOperations :
    (∃ (n : BenchId) (c : Nat) (d : Nat) (o : FlashOp) (s : State), (s.dev.bench n).live = true ∧ (s.dev.bench n).dieOp? c d = some o ∧ o.started = false ∧ (s.dev.bench n).opCheck c o.entry = 0 ∧ feOp o.entry = 1) ∧
    (∃ (n : BenchId) (c : Nat) (d : Nat) (o : FlashOp) (s : State), (s.dev.bench n).live = true ∧ (s.dev.bench n).dieOp? c d = some o ∧ o.started = false ∧ (s.dev.bench n).opCheck c o.entry = 0 ∧ feOp o.entry = 4) ∧
    (∃ (n : BenchId) (c : Nat) (d : Nat) (o : FlashOp) (s : State), (s.dev.bench n).live = true ∧ (s.dev.bench n).dieOp? c d = some o ∧ o.started = false ∧ (s.dev.bench n).opCheck c o.entry = 0 ∧ feOp o.entry = 2) ∧
    (∃ (n : BenchId) (c : Nat) (d : Nat) (o : FlashOp) (s : State), (s.dev.bench n).live = true ∧ (s.dev.bench n).dieOp? c d = some o ∧ o.started = false ∧ (s.dev.bench n).opCheck c o.entry = 0 ∧ feOp o.entry = 3) ∧
    (∃ (n : BenchId) (c : Nat) (d : Nat) (o : FlashOp) (s : State), (s.dev.bench n).live = true ∧ (s.dev.bench n).dieOp? c d = some o ∧ o.started = false ∧ (s.dev.bench n).opCheck c o.entry = 0 ∧ feOp o.entry = 5) ∧
    (∃ (n : BenchId) (c : Nat) (d : Nat) (o : FlashOp) (s : State), (s.dev.bench n).live = true ∧ (s.dev.bench n).dieOp? c d = some o ∧ o.started = false ∧ (s.dev.bench n).opCheck c o.entry = 0 ∧ feOp o.entry = 6) ∧
    (∃ (n : BenchId) (c : Nat) (d : Nat) (o : FlashOp) (s : State), (s.dev.bench n).live = true ∧ (s.dev.bench n).dieOp? c d = some o ∧ o.started = false ∧ (s.dev.bench n).opCheck c o.entry = 0 ∧ feOp o.entry = 7) ∧
    (∃ (n : BenchId) (c : Nat) (d : Nat) (o : FlashOp) (s : State), (s.dev.bench n).live = true ∧ (s.dev.bench n).dieOp? c d = some o ∧ o.started = false ∧ (s.dev.bench n).opCheck c o.entry = 0 ∧ feOp o.entry = 8) ∧
    (∃ (n : BenchId) (c : Nat) (d : Nat) (o : FlashOp) (s : State), (s.dev.bench n).live = true ∧ (s.dev.bench n).dieOp? c d = some o ∧ o.started = false ∧ (s.dev.bench n).opCheck c o.entry = 0 ∧ feOp o.entry = 9) ∧
    (∃ (n : BenchId) (c : Nat) (d : Nat) (o : FlashOp) (s : State), (s.dev.bench n).live = true ∧ (s.dev.bench n).dieOp? c d = some o ∧ o.started = false ∧ (s.dev.bench n).opCheck c o.entry = 0 ∧ feOp o.entry = 10) ∧
    (∃ (n : BenchId) (c : Nat) (d : Nat) (k : Nat) (ecc : Ecc) (o : FlashOp) (s : State), (s.dev.bench n).live = true ∧ (s.dev.bench n).dieOp? c d = some o ∧ o.started = false ∧ (s.dev.bench n).opCheck c o.entry = k ∧ k ≠ 0 ∧ feOp o.entry = 0) ∧
    (∃ (n : BenchId) (c : Nat) (d : Nat) (k : Nat) (ecc : Ecc) (o : FlashOp) (s : State), (s.dev.bench n).live = true ∧ (s.dev.bench n).dieOp? c d = some o ∧ o.started = false ∧ (s.dev.bench n).opCheck c o.entry = k ∧ k ≠ 0 ∧ feOp o.entry = 1) ∧
    (∃ (n : BenchId) (c : Nat) (d : Nat) (k : Nat) (ecc : Ecc) (o : FlashOp) (s : State), (s.dev.bench n).live = true ∧ (s.dev.bench n).dieOp? c d = some o ∧ o.started = false ∧ (s.dev.bench n).opCheck c o.entry = k ∧ k ≠ 0 ∧ feOp o.entry = 2) ∧
    (∃ (n : BenchId) (c : Nat) (d : Nat) (k : Nat) (ecc : Ecc) (o : FlashOp) (s : State), (s.dev.bench n).live = true ∧ (s.dev.bench n).dieOp? c d = some o ∧ o.started = false ∧ (s.dev.bench n).opCheck c o.entry = k ∧ k ≠ 0 ∧ feOp o.entry = 3) ∧
    (∃ (n : BenchId) (c : Nat) (d : Nat) (k : Nat) (ecc : Ecc) (o : FlashOp) (s : State), (s.dev.bench n).live = true ∧ (s.dev.bench n).dieOp? c d = some o ∧ o.started = false ∧ (s.dev.bench n).opCheck c o.entry = k ∧ k ≠ 0 ∧ feOp o.entry = 9) ∧
    (∃ (n : BenchId) (c : Nat) (d : Nat) (o : FlashOp) (s : State), (s.dev.bench n).live = true ∧ (s.dev.bench n).dieOp? c d = some o ∧ 2 ≤ feOp o.entry ∧ feOp o.entry ≤ 10) ∧
    (∃ (n : BenchId) (c : Nat) (d : Nat) (o : FlashOp) (s : State), (s.dev.bench n).live = true ∧ (s.dev.bench n).dieOp? c d = some o ∧ o.chan = c ∧ feDie o.entry = d ∧ o.started = false ∧ (s.dev.bench n).opCheck c o.entry = 0 ∧ feOp o.entry = 9) ∧
    (∃ (n : BenchId) (c : Nat) (d : Nat) (data : List Byte) (ecc : Ecc) (o : FlashOp) (s : State), (s.dev.bench n).live = true ∧ (s.dev.bench n).dieOp? c d = some o ∧ o.busy = true ∧ feOp o.entry = 1) ∧
    (∃ (n : BenchId) (c : Nat) (d : Nat) (data : List Byte) (ecc : Ecc) (o : FlashOp) (s : State), (s.dev.bench n).live = true ∧ (s.dev.bench n).dieOp? c d = some o ∧ o.busy = true ∧ feOp o.entry = 2) ∧
    (∃ (n : BenchId) (c : Nat) (d : Nat) (data : List Byte) (ecc : Ecc) (o : FlashOp) (s : State), (s.dev.bench n).live = true ∧ (s.dev.bench n).dieOp? c d = some o ∧ o.busy = true ∧ feOp o.entry = 3) ∧
    (∃ (n : BenchId) (c : Nat) (d : Nat) (data : List Byte) (ecc : Ecc) (o : FlashOp) (s : State), (s.dev.bench n).live = true ∧ (s.dev.bench n).dieOp? c d = some o ∧ o.busy = true ∧ feOp o.entry = 5) ∧
    (∃ (n : BenchId) (c : Nat) (d : Nat) (data : List Byte) (ecc : Ecc) (o : FlashOp) (s : State), (s.dev.bench n).live = true ∧ (s.dev.bench n).dieOp? c d = some o ∧ o.busy = true ∧ o.fails ≠ 0) ∧
    (∃ (n : BenchId) (c : Nat) (d : Nat) (data : List Byte) (ecc : Ecc) (p : Bool) (s : State), (s.dev.bench n).live = true ∧ (s.dev.bench n).dieOp? c d = none) ∧
    (∃ (n : BenchId) (c : Nat) (d : Nat) (cw : Nat) (bits : Nat) (l : List Byte) (ecc : Ecc) (o : FlashOp) (s : State), (s.dev.bench n).live = true ∧ (s.dev.bench n).dieOp? c d = some o ∧ feOp o.entry = 1 ∧ o.busy = false ∧ o.started = true ∧ cw ∈ cwNamed (feMask o.entry) ∧ cw ∉ o.good ∧ cw ∉ o.bad ∧ o.good.length + o.bad.length + 1 < (cwNamed (feMask o.entry)).length) ∧
    (∃ (n : BenchId) (c : Nat) (d : Nat) (cw : Nat) (bits : Nat) (l : List Byte) (ecc : Ecc) (o : FlashOp) (s : State), (s.dev.bench n).live = true ∧ (s.dev.bench n).dieOp? c d = some o ∧ feOp o.entry = 1 ∧ o.busy = false ∧ o.started = true ∧ cw ∈ cwNamed (feMask o.entry) ∧ cw ∉ o.good ∧ cw ∉ o.bad ∧ o.good.length + o.bad.length + 1 = (cwNamed (feMask o.entry)).length ∧ o.step < (s.dev.bench n).fld (R.storage_FLASH_CTL_LADDER_LEN o.chan)) ∧
    (∃ (n : BenchId) (c : Nat) (d : Nat) (o : FlashOp) (s : State), (s.dev.bench n).live = true ∧ (s.dev.bench n).dieOp? c d = some o ∧ o.busy = true ∧ feOp o.entry = 1 ∧ o.timeouts = 0 ∧ ((s.dev.bench n).fchan o.chan).late.contains (feDie o.entry) = false) ∧
    (∃ (n : BenchId) (c : Nat) (d : Nat) (o : FlashOp) (s : State), (s.dev.bench n).live = true ∧ (s.dev.bench n).dieOp? c d = some o ∧ o.busy = true ∧ o.timeouts ≠ 0) ∧
    (∃ (n : BenchId) (c : Nat) (d : Nat) (st : Nat) (o : FlashOp) (s : State), (s.dev.bench n).live = true ∧ (s.dev.bench n).sto.ops.find? (fun o => o.chan = c && feDie o.entry = d) = some o ∧ o.status = some st ∧ (s.dev.bench n).doneRoom = true ∧ (s.dev.bench n).quiet) ∧
    (∃ (n : BenchId) (c : Nat) (d : Nat) (o : FlashOp) (s : State), (s.dev.bench n).live = true ∧ (s.dev.bench n).sto.ops.find? (fun o => o.chan = c && feDie o.entry = d) = some o ∧ (o.status = none ∨ (s.dev.bench n).doneRoom = false)) :=
  ⟨⟨0, 1, 0, tFop (tFe 1 0 0 1) false false, tS tH (tFlash [tFop (tFe 1 0 0 1) false false]), by decide, by decide, by decide, by decide, by decide⟩,
   ⟨0, 1, 0, tFop (tFe 4 0 0 1) false false, tS tH (tFlash [tFop (tFe 4 0 0 1) false false]), by decide, by decide, by decide, by decide, by decide⟩,
   ⟨0, 1, 0, tFop (tFe 2 1 0 1) false false, tS tH (tFlash [tFop (tFe 2 1 0 1) false false]), by decide, by decide, by decide, by decide, by decide⟩,
   ⟨0, 1, 0, tFop (tFe 3 1 0 1) false false, tS tH (tFlash [tFop (tFe 3 1 0 1) false false]), by decide, by decide, by decide, by decide, by decide⟩,
   ⟨0, 1, 0, tFop (tFe 5 0 0 0) false false, tS tH (tFlash [tFop (tFe 5 0 0 0) false false]), by decide, by decide, by decide, by decide, by decide⟩,
   ⟨0, 1, 0, tFop (tFe 6 0 0 0) false false, tS tH (tFlash [tFop (tFe 6 0 0 0) false false]), by decide, by decide, by decide, by decide, by decide⟩,
   ⟨0, 1, 0, tFop (tFe 7 0 0 0) false false, tS tH (tFlash [tFop (tFe 7 0 0 0) false false]), by decide, by decide, by decide, by decide, by decide⟩,
   ⟨0, 1, 0, tFop (tFe 8 0 0 0) false false, tS tH (tFlash [tFop (tFe 8 0 0 0) false false]), by decide, by decide, by decide, by decide, by decide⟩,
   ⟨0, 1, 0, tFop (tFe 9 0 0 0) false false, tS tH (tFlash [tFop (tFe 9 0 0 0) false false]), by decide, by decide, by decide, by decide, by decide⟩,
   ⟨0, 1, 0, tFop (tFe 10 0 0 0) false false, tS tH (tFlash [tFop (tFe 10 0 0 0) false false]), by decide, by decide, by decide, by decide, by decide⟩,
   ⟨0, 1, 0, 0xB0, [], tFop (tFe 0 15 0 0) false false, tS tH (tFlash [tFop (tFe 0 15 0 0) false false]), by decide, by decide, by decide, by decide, by decide, by decide⟩,
   ⟨0, 1, 0, 0xB0, [], tFop (tFe 1 15 0 0) false false, tS tH (tFlash [tFop (tFe 1 15 0 0) false false]), by decide, by decide, by decide, by decide, by decide, by decide⟩,
   ⟨0, 1, 0, 0xB0, [], tFop (tFe 2 15 0 0) false false, tS tH (tFlash [tFop (tFe 2 15 0 0) false false]), by decide, by decide, by decide, by decide, by decide, by decide⟩,
   ⟨0, 1, 0, 0xB0, [], tFop (tFe 3 15 0 0) false false, tS tH (tFlash [tFop (tFe 3 15 0 0) false false]), by decide, by decide, by decide, by decide, by decide, by decide⟩,
   ⟨0, 1, 0, 0xB0, [], tFop (tFe 9 15 0 0) false false, tS tH (tFlash [tFop (tFe 9 15 0 0) false false]), by decide, by decide, by decide, by decide, by decide, by decide⟩,
   ⟨0, 1, 0, tFop (tFe 10 0 0 0) false false, tS tH (tFlash [tFop (tFe 10 0 0 0) false false]), by decide, by decide, by decide, by decide⟩,
   ⟨0, 1, 0, tFop (tFe 9 0 8 0) false false, tS tH (tFlash [tFop (tFe 9 0 8 0) false false]), by decide, by decide, by decide, by decide, by decide, by decide, by decide⟩,
   ⟨0, 1, 0, [7#8], [], tFop (tFe 1 1 0 1) true true, tS tH (tFlash [tFop (tFe 1 1 0 1) true true]), by decide, by decide, by decide, by decide⟩,
   ⟨0, 1, 0, [7#8], [], tFop (tFe 2 1 0 1) true true, tS tH (tFlash [tFop (tFe 2 1 0 1) true true]), by decide, by decide, by decide, by decide⟩,
   ⟨0, 1, 0, [7#8], [], tFop (tFe 3 1 0 1) true true, tS tH (tFlash [tFop (tFe 3 1 0 1) true true]), by decide, by decide, by decide, by decide⟩,
   ⟨0, 1, 0, [7#8], [], tFop (tFe 5 1 0 1) true true, tS tH (tFlash [tFop (tFe 5 1 0 1) true true]), by decide, by decide, by decide, by decide⟩,
   ⟨0, 1, 0, [7#8], [], { tFop (tFe 3 1 0 1) true true with fails := 1 }, tS tH (tFlash [{ tFop (tFe 3 1 0 1) true true with fails := 1 }]), by decide, by decide, by decide, by decide⟩,
   ⟨0, 1, 0, [], [], true, tS tH tB, by decide, by decide⟩,
   ⟨0, 1, 0, 0, 3, List.replicate 4096 1#8, [], tFop (tFe 1 0 0 3) true false, tS tH (tFlash [tFop (tFe 1 0 0 3) true false]), by decide, by decide, by decide, by decide, by decide, by decide, by decide, by decide, by decide⟩,
   ⟨0, 1, 0, 1, 3, [], [], { tFop (tFe 1 0 0 3) true false with bad := [0] }, tS tH ((tFlash [{ tFop (tFe 1 0 0 3) true false with bad := [0] }]).setFld (R.storage_FLASH_CTL_LADDER_LEN 1) 2), by decide, by decide, by decide, by decide, by decide, by decide, by decide, by decide, by decide, by decide⟩,
   ⟨0, 1, 0, tFop (tFe 1 0 0 1) true true, tS tH (tFlash [tFop (tFe 1 0 0 1) true true]), by decide, by decide, by decide, by decide, by decide, by decide⟩,
   ⟨0, 1, 0, { tFop (tFe 1 0 0 1) true true with timeouts := 1 }, tS tH (tFlash [{ tFop (tFe 1 0 0 1) true true with timeouts := 1 }]), by decide, by decide, by decide, by decide⟩,
   ⟨0, 1, 0, 0, { tFop (tFe 1 0 0 1) true false with status := some 0 }, tS tH (tFlash [{ tFop (tFe 1 0 0 1) true false with status := some 0 }]), by decide, by decide, by decide, by decide, ⟨by decide, by decide, by decide, by decide⟩⟩,
   ⟨0, 1, 0, tFop (tFe 1 0 0 1) true false, tS tH (tFlash [tFop (tFe 1 0 0 1) true false]), by decide, by decide, by decide⟩⟩

/-- The hypotheses of XtsSlotsAndNvmePages are met, clause by clause. -/
theorem witness_XtsSlotsAndNvmePages :
    (∃ (n : BenchId) (k : Nat) (s : State), (s.dev.bench n).live = true ∧ k < 64 ∧ (s.dev.bench n).flag (R.storage_XTS_NS_LOADED k) = true) ∧
    (∃ (n : BenchId) (k : Nat) (s : State), (s.dev.bench n).live = true ∧ k < 64 ∧ (s.dev.bench n).flag (R.storage_XTS_NS_LOADED k) = false) ∧
    (∃ (n : BenchId) (k : Nat) (s : State), (s.dev.bench n).live = true ∧ k < 64) ∧
    (∃ (n : BenchId) (k : Nat) (s : State), (s.dev.bench n).live = true ∧ k < 64 ∧ (s.dev.bench n).flag (R.storage_XTS_NS_DRAINING k) = true ∧ (s.dev.bench n).sto.ops.any (fun o => o.started && o.status.isNone && feXts o.entry && feNs o.entry = k) = false) ∧
    (∃ (n : BenchId) (k : Nat) (off : Nat) (s : State), (s.dev.bench n).live = true ∧ (s.dev.bench n).flag (R.storage_NVME_CTRL_VALID k) = true) ∧
    (∃ (n : BenchId) (k : Nat) (off : Nat) (s : State), (s.dev.bench n).live = true ∧ (s.dev.bench n).flag (R.storage_NVME_CTRL_VALID k) = false) ∧
    (∃ (n : BenchId) (k : Nat) (v : Word) (s : State), (s.dev.bench n).live = true ∧ (s.dev.bench n).flag (R.storage_NVME_CTRL_VALID k) = true ∧ bit ((s.dev.bench n).npage k).cc 0 = false) ∧
    (∃ (n : BenchId) (k : Nat) (v : Word) (s : State), (s.dev.bench n).live = true ∧ (s.dev.bench n).flag (R.storage_NVME_CTRL_VALID k) = true ∧ bit ((s.dev.bench n).npage k).cc 0 = true) ∧
    (∃ (n : BenchId) (k : Nat) (v : Word) (s : State), (s.dev.bench n).live = true ∧ (s.dev.bench n).flag (R.storage_NVME_CTRL_VALID k) = true ∧ (s.dev.bench n).quiet ∧ (s.dev.bench n).sto.msgs = [] ∧ ((s.dev.bench n).chMsgs 4).length < 256) ∧
    (∃ (n : BenchId) (k : Nat) (y : Nat) (r : Nat) (v : Word) (c : Claim) (s : State), (s.dev.bench n).live = true ∧ (s.dev.bench n).flag (R.storage_NVME_CTRL_VALID k) = true ∧ y < 64 ∧ (s.dev.bench n).claim? ((s.dev.bench n).fld (R.storage_NVME_CTRL_CLAIM k)) = some c ∧ r = c.ringBase + 2 * y ∧ c.owns r = true ∧ (s.dev.bench n).ringKind r = 4 ∧ bit ((s.dev.bench n).npage k).cc 0 = true ∧ v.toNat % 65536 < (s.dev.bench n).ringN r) ∧
    (∃ (n : BenchId) (k : Nat) (y : Nat) (r : Nat) (v : Word) (c : Claim) (s : State), (s.dev.bench n).live = true ∧ (s.dev.bench n).flag (R.storage_NVME_CTRL_VALID k) = true ∧ y < 64 ∧ (s.dev.bench n).claim? ((s.dev.bench n).fld (R.storage_NVME_CTRL_CLAIM k)) = some c ∧ r = c.ringBase + 2 * y ∧ (s.dev.bench n).ringKind r ≠ 4) ∧
    (∃ (n : BenchId) (k : Nat) (y : Nat) (r : Nat) (v : Word) (c : Claim) (s : State), (s.dev.bench n).live = true ∧ (s.dev.bench n).flag (R.storage_NVME_CTRL_VALID k) = true ∧ y < 64 ∧ (s.dev.bench n).claim? ((s.dev.bench n).fld (R.storage_NVME_CTRL_CLAIM k)) = some c ∧ r = c.ringBase + 2 * y + 1 ∧ c.owns r = true ∧ (s.dev.bench n).ringKind r = 5 ∧ bit ((s.dev.bench n).npage k).cc 0 = true ∧ v.toNat % 65536 < (s.dev.bench n).ringN r ∧ (v.toNat % 65536 + (s.dev.bench n).ringN r - (s.dev.bench n).hostIndex r) % (s.dev.bench n).ringN r ≤ ((s.dev.bench n).ringCount r).toNat) ∧
    (∃ (n : BenchId) (k : Nat) (y : Nat) (r : Nat) (v : Word) (c : Claim) (s : State), (s.dev.bench n).live = true ∧ (s.dev.bench n).flag (R.storage_NVME_CTRL_VALID k) = true ∧ y < 64 ∧ (s.dev.bench n).claim? ((s.dev.bench n).fld (R.storage_NVME_CTRL_CLAIM k)) = some c ∧ r = c.ringBase + 2 * y + 1 ∧ (s.dev.bench n).ringKind r ≠ 5) ∧
    (∃ (n : BenchId) (core : Nat) (t : Nat) (q : Nat) (r : Nat) (sqid : Nat) (v : Word) (c : Claim) (s : State), (s.dev.bench n).live = true ∧ core < 8 ∧ t < 8 ∧ q = getBits ((s.dev.bench n).reg (R.storage_NVME_CPL core t)).toNat 0 14 ∧ r = getBits ((s.dev.bench n).reg (R.storage_NVME_CPL core t)).toNat 16 14 ∧ (s.dev.bench n).ringKind q = 5 ∧ (s.dev.bench n).ringKind r = 4 ∧ (s.dev.bench n).ringClaim q = (s.dev.bench n).ringClaim r ∧ (s.dev.bench n).ringCq r = q ∧ (s.dev.bench n).claim? ((s.dev.bench n).ringClaim r) = some c ∧ sqid = (r - c.ringBase) / 2) ∧
    (∃ (n : BenchId) (core : Nat) (t : Nat) (v : Word) (s : State), (s.dev.bench n).live = true ∧ core < 8 ∧ t < 8 ∧ (s.dev.bench n).ringKind (getBits ((s.dev.bench n).reg (R.storage_NVME_CPL core t)).toNat 0 14) ≠ 5) ∧
    (∃ (n : BenchId) (s : State), (s.dev.bench n).live = true ∧ (s.dev.bench n).flag R.storage_FLUSH_STATUS_RUNNING = true ∧ (s.dev.bench n).fld R.storage_FLUSH_CTL_FLUSH_LEN = 0) ∧
    (∃ (n : BenchId) (ecc : Ecc) (r : Nat × Nat × Bench) (s : State), (s.dev.bench n).live = true ∧ (s.dev.bench n).flag R.storage_FLUSH_STATUS_RUNNING = true ∧ r = Bench.flushRun ecc ((s.dev.bench n).fld R.storage_FLUSH_CTL_FLUSH_LEN) 0 none 0 0 (s.dev.bench n)) :=
  ⟨⟨0, 63, tS tH (tB.setFld (R.storage_XTS_NS_LOADED 63) 1), by decide, by decide, by decide⟩,
   ⟨0, 63, tS tH tB, by decide, by decide, by decide⟩,
   ⟨0, 63, tS tH tB, by decide, by decide⟩,
   ⟨0, 63, tS tH { tB.setFld (R.storage_XTS_NS_DRAINING 63) 1 with keys := [(0x100000 + 64 * 63, 5#8)] }, by decide, by decide, by decide, by decide⟩,
   ⟨0, 63, 0x14, tS tH (tNvme 1), by decide, by decide⟩,
   ⟨0, 62, 0x14, tS tH (tNvme 1), by decide, by decide⟩,
   ⟨0, 63, 0x50005#32, tS tH (tNvme 0), by decide, by decide, by decide⟩,
   ⟨0, 63, 0x50005#32, tS tH (tNvme 1), by decide, by decide, by decide⟩,
   ⟨0, 63, 1#32, tS tH (tNvme 0), by decide, by decide, ⟨by decide, by decide, by decide, by decide⟩, by decide, by decide⟩,
   ⟨0, 63, 0, _, 7#32, tClaim 1, tS tHost (tNvme 1), by decide, by decide, by decide, by decide, rfl, by decide, by decide, by decide, by decide⟩,
   ⟨0, 63, 1, _, 7#32, tClaim 1, tS tHost (tNvme 1), by decide, by decide, by decide, by decide, rfl, by decide⟩,
   ⟨0, 63, 0, _, 0#32, tClaim 1, tS tHost (tNvme 1), by decide, by decide, by decide, by decide, rfl, by decide, by decide, by decide, by decide, by decide⟩,
   ⟨0, 63, 1, _, 0#32, tClaim 1, tS tHost (tNvme 1), by decide, by decide, by decide, by decide, rfl, by decide⟩,
   ⟨0, 7, 7, 1, 0, _, 1#32, tClaim 1, tS tH ((tNvme 1).setReg (R.storage_NVME_CPL 7 7) 1#32), by decide, by decide, by decide, by decide, by decide, by decide, by decide, by decide, by decide, by decide, rfl⟩,
   ⟨0, 7, 7, 1#32, tS tH (tNvme 1), by decide, by decide, by decide, by decide⟩,
   ⟨0, tS tH (((tB.setFld R.storage_FLUSH_STATUS_RUNNING 1).setFld R.storage_FLUSH_CTL_FLUSH_LEN 0)), by decide, by decide, by decide⟩,
   ⟨0, [], _, tS tH (((tB.setFld R.storage_FLUSH_STATUS_RUNNING 1).setFld R.storage_FLUSH_CTL_FLUSH_LEN 0)), by decide, by decide, rfl⟩⟩

/-- The hypotheses of DramStartAndRequests are met, clause by clause. -/
theorem witness_DramStartAndRequests :
    (∃ (n : BenchId) (s : State), (s.dev.bench n).awake = true ∧ (s.dev.bench n).dramState = dramWaitCfg ∧ (s.dev.bench n).dramGoBad = false) ∧
    (∃ (n : BenchId) (s : State), (s.dev.bench n).awake = true ∧ ((s.dev.bench n).dramState ≠ dramWaitCfg ∨ (s.dev.bench n).dramGoBad = true)) ∧
    (∃ (n : BenchId) (s : State), (s.dev.bench n).awake = true ∧ (s.dev.bench n).dramState = dramTraining) ∧
    (∃ (n : BenchId) (s : State), (s.dev.bench n).awake = true ∧ (s.dev.bench n).dramState = dramFill) ∧
    (∃ (n : BenchId) (s : State), (s.dev.bench n).live = true ∧ eligibleAt [] (s.dev.bench n).dram.reqs ≠ [] ∧ (s.dev.bench n).quiet ∧ ((∀ x ∈ eligibleAt [] (s.dev.bench n).dram.reqs, x.2.1.write = true → x.2.1.data.length = 64 ∧ (s.dev.bench n).slotFailed ((s.dev.bench n).slotAt x.2.1.addr) = false))) ∧
    (∃ (n : BenchId) (s : State), (s.dev.bench n).live = true ∧ eligibleAt [] (s.dev.bench n).dram.reqs ≠ [] ∧ (s.dev.bench n).quiet ∧ ((∀ x ∈ eligibleAt [] (s.dev.bench n).dram.reqs, x.2.1.write = true → x.2.1.data.length = 64 ∧ (s.dev.bench n).slotFailed ((s.dev.bench n).slotAt x.2.1.addr) = false))) ∧
    (∃ (n : BenchId) (ecc : Ecc) (s : State), (s.dev.bench n).live = true ∧ eligibleAt [] (s.dev.bench n).dram.reqs = [] ∧ (s.dev.bench n).quiet) ∧
    (∃ (n : BenchId) (pre : List DramReq) (post : List DramReq) (r : DramReq) (s : State), (s.dev.bench n).live = true ∧ splitReturning [] (s.dev.bench n).dram.reqs = some (pre, r, post) ∧ r.use.ended = false ∧ (s.dev.bench n).slotFailed ((s.dev.bench n).slotAt r.addr) = false ∧ r.addr / 64 ∉ (s.dev.bench n).dram.poison ∧ r.addr / 64 ∉ (s.dev.bench n).dram.lost ∧ (s.dev.bench n).dram.checks = []) ∧
    (∃ (n : BenchId) (pre : List DramReq) (post : List DramReq) (r : DramReq) (ecc : Ecc) (s : State), (s.dev.bench n).live = true ∧ splitReturning [] (s.dev.bench n).dram.reqs = some (pre, r, post) ∧ r.use.ended = false ∧ (s.dev.bench n).slotFailed ((s.dev.bench n).slotAt r.addr) = true ∧ ecc = [] ∧ (s.dev.bench n).dram.checks = []) ∧
    (∃ (n : BenchId) (pre : List DramReq) (post : List DramReq) (r : DramReq) (ecc : Ecc) (s : State), (s.dev.bench n).live = true ∧ splitReturning [] (s.dev.bench n).dram.reqs = some (pre, r, post) ∧ r.use.ended = true) ∧
    (∃ (n : BenchId) (hot : Bool) (s : State), (s.dev.bench n).live = true ∧ ((s.dev.bench n).dramState = dramReady ∨ (s.dev.bench n).dramState = dramFill)) ∧
    (∃ (n : BenchId) (hot : Bool) (s : State), (s.dev.bench n).live = true ∧ ((s.dev.bench n).dramState = dramReady ∨ (s.dev.bench n).dramState = dramFill)) ∧
    (∃ (n : BenchId) (s : State), (s.dev.bench n).live = true ∧ (s.dev.bench n).dramState = dramReady ∧ (s.dev.bench n).fld R.dram_SR_IDLE_US ≠ 0 ∧ (s.dev.bench n).dram.reqs = []) ∧
    (∃ (n : BenchId) (s : State), (s.dev.bench n).live = true ∧ (s.dev.bench n).dramState = dramReady ∧ (s.dev.bench n).fld R.dram_SR_IDLE_US = 0) ∧
    (∃ (n : BenchId) (x : Nat) (s : State), (s.dev.bench n).live = true ∧ (s.dev.bench n).dramUp = true ∧ x < (s.dev.bench n).capacity) ∧
    (∃ (n : BenchId) (x : Nat) (s : State), (s.dev.bench n).live = true ∧ (s.dev.bench n).dramUp = true ∧ x < (s.dev.bench n).capacity) ∧
    (∃ (n : BenchId) (k : Nat) (s : State), (s.dev.bench n).live = true ∧ (s.dev.bench n).dramState = dramReady ∧ k < (s.dev.bench n).slots ∧ k < 4 ∧ (s.dev.bench n).slotFailed k = false ∧ (s.dev.bench n).flag R.dram_DRAM_STATUS_MIG_ACTIVE = false ∧ (s.dev.bench n).flag R.dram_DRAM_STATUS_SPARE_USED = false ∧ (s.dev.bench n).flag R.dram_DRAM_CFG_SPARE_EN = true) ∧
    (∃ (n : BenchId) (k : Nat) (s : State), (s.dev.bench n).live = true ∧ (s.dev.bench n).dramState = dramReady ∧ k < (s.dev.bench n).slots ∧ k < 4 ∧ (s.dev.bench n).slotFailed k = false ∧ (s.dev.bench n).flag R.dram_DRAM_STATUS_MIG_ACTIVE = false ∧ (s.dev.bench n).flag R.dram_DRAM_CFG_SPARE_EN = false) ∧
    (∃ (n : BenchId) (k : Nat) (x : Nat) (s : State), (s.dev.bench n).live = true ∧ (s.dev.bench n).flag R.dram_DRAM_STATUS_MIG_ACTIVE = true ∧ k = (s.dev.bench n).fld R.dram_MIG_LINE_LINE ∧ x = (s.dev.bench n).fld R.dram_DRAM_STATUS_MIG_SLOT * (s.dev.bench n).rankBytes + 64 * k ∧ k + 1 < (s.dev.bench n).rankBytes / 64 ∧ (s.dev.bench n).slotFailed ((s.dev.bench n).slotAt x) = false ∧ x / 64 ∉ (s.dev.bench n).dram.poison ∧ x / 64 ∉ (s.dev.bench n).dram.lost ∧ (s.dev.bench n).dram.checks = []) :=
  ⟨⟨0, tS tH (tB.dramIn dramWaitCfg), by decide, by decide, by decide⟩,
   ⟨0, tS tH tB, by decide, by decide⟩,
   ⟨0, tS tH (tB.dramIn dramTraining), by decide, by decide⟩,
   ⟨0, tS tH { tB.dramIn dramFill with dram := { tB.dram with poison := [3], lost := [4] } }, by decide, by decide⟩,
   ⟨0, tS tH ((tB.dramIn dramReady).reqs { DramReq.fresh (.store 63) true 64 64 (List.replicate 64 5#8) false false with queued := true }), by decide, by decide, ⟨by decide, by decide, by decide, by decide⟩, by decide⟩,
   ⟨0, tS tH ((tB.dramIn dramReady).reqs { DramReq.fresh (.load 63) false 64 8 [] false false with queued := true }), by decide, by decide, ⟨by decide, by decide, by decide, by decide⟩, by decide⟩,
   ⟨0, [], tS tH tB, by decide, by decide, ⟨by decide, by decide, by decide, by decide⟩⟩,
   ⟨0, [], [], { DramReq.fresh (.load 63) false 64 8 [] false false with queued := true, issued := true }, tS tH ((tB.dramIn dramReady).reqs { DramReq.fresh (.load 63) false 64 8 [] false false with queued := true, issued := true }), by decide, by decide, by decide, by decide, by decide, by decide, by decide⟩,
   ⟨0, [], [], { DramReq.fresh (.load 63) false 64 8 [] false false with queued := true, issued := true }, _, tS tH (((tB.dramIn dramReady).setFld R.dram_DRAM_STATUS_SLOT_FAILED 1).reqs { DramReq.fresh (.load 63) false 64 8 [] false false with queued := true, issued := true }), by decide, by decide, by decide, by decide, rfl, by decide⟩,
   ⟨0, [], [], { DramReq.fresh (.nobody 7) false 64 8 [] false false with queued := true, issued := true }, [], tS tH ((tB.dramIn dramReady).reqs { DramReq.fresh (.nobody 7) false 64 8 [] false false with queued := true, issued := true }), by decide, by decide, by decide⟩,
   ⟨0, true, tS tH { tB.dramIn dramReady with dram := { tB.dram with refresh := 3 } }, by decide, by decide⟩,
   ⟨0, false, tS tH (tB.dramIn dramFill), by decide, by decide⟩,
   ⟨0, tS tH ((tB.dramIn dramReady).setFld R.dram_SR_IDLE_US 5), by decide, by decide, by decide, by decide⟩,
   ⟨0, tS tH ((tB.dramIn dramReady).setFld R.dram_SR_IDLE_US 0), by decide, by decide, by decide⟩,
   ⟨0, 0, tS tH tB.withDram, by decide, by decide, by decide⟩,
   ⟨0, 0xFFFF, tS tH tB.withDram, by decide, by decide, by decide⟩,
   ⟨0, 0, tS tH (tB.withDram.setFld R.dram_DRAM_CFG_SPARE_EN 1), by decide, by decide, by decide, by decide, by decide, by decide, by decide, by decide⟩,
   ⟨0, 1, tS tH tB.withDram, by decide, by decide, by decide, by decide, by decide, by decide, by decide⟩,
   ⟨0, _, _, tS tH (tB.withDram.setFld R.dram_DRAM_STATUS_MIG_ACTIVE 1), by decide, by decide, rfl, rfl, by decide, by decide, by decide, by decide, by decide⟩⟩

/-- The hypotheses of Mailboxes are met, clause by clause. -/
theorem witness_Mailboxes :
    (∃ (m : Nat) (v : Word) (s : State), s.dev.hub.mbxLive m = true ∧ (s.dev.hub.mbx m).inq.length < 16) ∧
    (∃ (m : Nat) (v : Word) (s : State), s.dev.hub.mbxLive m = true ∧ 16 ≤ (s.dev.hub.mbx m).inq.length) ∧
    (∃ (m : Nat) (v : Word) (s : State), s.dev.hub.mbxLive m = false) ∧
    (∃ (m : Nat) (w : Word) (l : List Word) (s : State), s.dev.hub.mbxLive m = true ∧ (s.dev.hub.mbx m).outq = w :: l) ∧
    (∃ (m : Nat) (s : State), s.dev.hub.mbxLive m = true ∧ (s.dev.hub.mbx m).outq = []) ∧
    (∃ (m : Nat) (w : Word) (s : State), s.dev.hub.mbxLive m = true ∧ (s.dev.hub.mbx m).ack = some w) ∧
    (∃ (m : Nat) (s : State), s.dev.hub.mbxLive m = true ∧ (s.dev.hub.mbx m).ack = none) ∧
    (∃ (m : Nat) (v : Word) (s : State), s.dev.hub.mbxLive m = true) ∧
    (∃ (m : Nat) (v : Word) (s : State), Nat.land (v.toNat % 8) (0xFFFFFFFF - (s.dev.hub.mbx m).maskHost) = 0) ∧
    (∃ (m : Nat) (v : Word) (s : State), Nat.land (v.toNat % 8) (0xFFFFFFFF - (s.dev.hub.mbx m).maskHost) ≠ 0) ∧
    (∃ (m : Nat) (v : DWord) (a : AdminPair) (s : State), s.dev.hub.mbxLive m = true ∧ (s.dev.hub.mbx m).admin = some a ∧ (s.dev.hub.mbx m).adminErr = false) ∧
    (∃ (m : Nat) (v : DWord) (a : AdminPair) (s : State), s.dev.hub.mbxLive m = true ∧ (s.dev.hub.mbx m).admin = some a ∧ (s.dev.hub.mbx m).adminErr = false) ∧
    (∃ (m : Nat) (v : DWord) (a : AdminPair) (s : State), s.dev.hub.mbxLive m = true ∧ (s.dev.hub.mbx m).admin = some a ∧ (s.dev.hub.mbx m).adminErr = false) ∧
    (∃ (m : Nat) (w : Word) (l : List Word) (r : CmdRow) (s : State), s.dev.hub.ryuner = true ∧ m < 4112 ∧ s.dev.hub.mbxLive m = true ∧ bit (unmasked (s.dev.hub.mbx m).dbFm (s.dev.hub.mbx m).maskFm) 0 = true ∧ (s.dev.hub.mbx m).busy = false ∧ (s.dev.hub.mbx m).collided = false ∧ (s.dev.hub.mbx m).inq = w :: l ∧ l.length = getBits w.toNat 12 4 ∧ cmdRow (getBits w.toNat 0 12) = some r ∧ getBits w.toNat 12 4 = r.words ∧ getBits w.toNat 24 8 = 0) ∧
    (∃ (m : Nat) (s : State), s.dev.hub.ryuner = true ∧ m < 4112 ∧ s.dev.hub.mbxLive m = true ∧ bit (unmasked (s.dev.hub.mbx m).dbFm (s.dev.hub.mbx m).maskFm) 0 = true ∧ (s.dev.hub.mbx m).busy = false ∧ (s.dev.hub.mbx m).collided = true) ∧
    (∃ (m : Nat) (again : Bool) (a : AdminPair) (s : State), s.dev.hub.ryuner = true ∧ m < 4112 ∧ s.dev.hub.mbxLive m = true ∧ (s.dev.hub.mbx m).admin = some a ∧ (s.dev.hub.mbx m).adminErr = false ∧ s.dev.hub.mbxMute m = false ∧ 0 < a.waiting ∧ a.unread + (s.dev.hub.fw.cmds.filter (fun c => c.mbx = m && c.admin)).length + a.held.length < 2 ^ a.cqSize ∧ a.entry = .idle ∧ (a.reread = false ∨ again = true) ∧ (s.dev.bench (s.dev.hub.readBench m)).roomToRead s.dev.hub (s.dev.hub.mbx m).fn 64 = true) ∧
    (∃ (m : Nat) (again : Bool) (a : AdminPair) (w : Nat) (l : List Nat) (r : CmdRow) (s : State), s.dev.hub.ryuner = true ∧ m < 4112 ∧ s.dev.hub.mbxLive m = true ∧ (s.dev.hub.mbx m).admin = some a ∧ (s.dev.hub.mbx m).adminErr = false ∧ s.dev.hub.mbxMute m = false ∧ 0 < a.waiting ∧ a.unread + (s.dev.hub.fw.cmds.filter (fun c => c.mbx = m && c.admin)).length + a.held.length < 2 ^ a.cqSize ∧ a.entry = .got (w :: l) ∧ getBits ((w :: l).getD 15 0) 31 1 = a.sqDev.2 ∧ cmdRow (getBits w 0 12) = some r ∧ getBits w 12 4 = r.words ∧ getBits w 24 8 = 0) ∧
    (∃ (m : Nat) (again : Bool) (a : AdminPair) (ws : List Nat) (s : State), s.dev.hub.ryuner = true ∧ m < 4112 ∧ s.dev.hub.mbxLive m = true ∧ (s.dev.hub.mbx m).admin = some a ∧ (s.dev.hub.mbx m).adminErr = false ∧ s.dev.hub.mbxMute m = false ∧ 0 < a.waiting ∧ a.unread + (s.dev.hub.fw.cmds.filter (fun c => c.mbx = m && c.admin)).length + a.held.length < 2 ^ a.cqSize ∧ a.entry = .got ws ∧ getBits (ws.getD 15 0) 31 1 ≠ a.sqDev.2) ∧
    (∃ (m : Nat) (again : Bool) (a : AdminPair) (ws : List Nat) (s : State), s.dev.hub.ryuner = true ∧ m < 4112 ∧ s.dev.hub.mbxLive m = true ∧ (s.dev.hub.mbx m).admin = some a ∧ (s.dev.hub.mbx m).adminErr = false ∧ s.dev.hub.mbxMute m = false ∧ 0 < a.waiting ∧ a.unread + (s.dev.hub.fw.cmds.filter (fun c => c.mbx = m && c.admin)).length + a.held.length < 2 ^ a.cqSize ∧ a.entry = .got ws ∧ getBits (ws.getD 15 0) 31 1 ≠ a.sqDev.2) ∧
    (∃ (m : Nat) (again : Bool) (a : AdminPair) (s : State), s.dev.hub.ryuner = true ∧ m < 4112 ∧ s.dev.hub.mbxLive m = true ∧ (s.dev.hub.mbx m).admin = some a ∧ (s.dev.hub.mbx m).adminErr = false ∧ s.dev.hub.mbxMute m = false ∧ 0 < a.waiting ∧ a.unread + (s.dev.hub.fw.cmds.filter (fun c => c.mbx = m && c.admin)).length + a.held.length < 2 ^ a.cqSize ∧ a.entry = .failed) :=
  ⟨⟨0, 1#32, tS tHost tB, by decide, by decide⟩,
   ⟨0, 9#32, tS (tHost.setMbx 0 { tMbx with inq := List.replicate 16 1#32 }) tB, by decide, by decide⟩,
   ⟨4111, 1#32, tS tHost tB, by decide⟩,
   ⟨0, 5#32, [], tS (tHost.setMbx 0 { tMbx with outq := [5#32] }) tB, by decide, by decide⟩,
   ⟨0, tS tHost tB, by decide, by decide⟩,
   ⟨0, 5#32, tS (tHost.setMbx 0 { tMbx with ack := some 5#32 }) tB, by decide, by decide⟩,
   ⟨0, tS tHost tB, by decide, by decide⟩,
   ⟨0, 1#32, tS tHost tB, by decide⟩,
   ⟨0, 7#32, tS tHost tB, by decide⟩,
   ⟨0, 7#32, tS (tHost.setMbx 0 { tMbx with maskHost := 0xFFFFFFFD }) tB, by decide⟩,
   ⟨0, 0x10001#64, tAdmin, tS (tHost.setMbx 0 { tMbx with admin := some tAdmin }) tB, by decide, by decide, by decide⟩,
   ⟨0, 8#64, tAdmin, tS (tHost.setMbx 0 { tMbx with admin := some tAdmin }) tB, by decide, by decide, by decide⟩,
   ⟨0, 0x10000#64, tAdmin, tS (tHost.setMbx 0 { tMbx with admin := some tAdmin }) tB, by decide, by decide, by decide⟩,
   ⟨0, 1#32, [], ⟨0, .pc, none, none, none, true⟩, tS (tHost.setMbx 0 { tMbx with dbFm := 2 ^ 31 + 3, inq := [1#32] }) tB, by decide, by decide, by decide, by decide, by decide, by decide, by decide, by decide, by decide, by decide, by decide⟩,
   ⟨0, tS (tHost.setMbx 0 { tMbx with dbFm := 1, collided := true }) tB, by decide, by decide, by decide, by decide, by decide, by decide⟩,
   ⟨0, false, tAdmin, tS (tHost.setMbx 0 { tMbx with admin := some tAdmin }) tB, by decide, by decide, by decide, by decide, by decide, by decide, by decide, by decide, by decide, by decide, by delta Bench.roomToRead; simp only [freeTag_isSome]; decide⟩,
   ⟨0, false, { tAdmin with entry := .got (1 :: List.replicate 14 0 ++ [2 ^ 31]) }, 1, List.replicate 14 0 ++ [2 ^ 31], ⟨0, .pc, none, none, none, true⟩, tS (tHost.setMbx 0 { tMbx with admin := some { tAdmin with entry := .got (1 :: List.replicate 14 0 ++ [2 ^ 31]) } }) tB, by decide, by decide, by decide, by decide, by decide, by decide, by decide, by decide, by decide, by decide, by decide, by decide, by decide⟩,
   ⟨0, false, { tAdmin with entry := .got [1] }, [1], tS (tHost.setMbx 0 { tMbx with admin := some { tAdmin with entry := .got [1] } }) tB, by decide, by decide, by decide, by decide, by decide, by decide, by decide, by decide, by decide, by decide⟩,
   ⟨0, true, { tAdmin with entry := .got [1], reread := true }, [1], tS (tHost.setMbx 0 { tMbx with admin := some { tAdmin with entry := .got [1], reread := true } }) tB, by decide, by decide, by decide, by decide, by decide, by decide, by decide, by decide, by decide, by decide⟩,
   ⟨0, false, { tAdmin with entry := .failed }, tS (tHost.setMbx 0 { tMbx with admin := some { tAdmin with entry := .failed } }) tB, by decide, by decide, by decide, by decide, by decide, by decide, by decide, by decide, by decide⟩⟩

/-- The hypotheses of GeneralRefusalsChangeNothing are met, clause by clause. -/
theorem witness_GeneralRefusalsChangeNothing :
    (∃ (i : Instr) (m : Nat) (op : Nat) (k : Nat) (c : Sceune) (r : CmdRow) (s : State), sceuneCmd i = some (m, op, false) ∧ s.dev.hub.ryuner = true ∧ s.dev.hub.turn m op = some c ∧ c.begun = false ∧ cmdRow op = some r ∧ s.dev.generalCode c r = some k) ∧
    (∃ (i : Instr) (m : Nat) (op : Nat) (c : Sceune) (r : CmdRow) (s : State), sceuneCmd i = some (m, op, true) ∧ s.dev.hub.ryuner = true ∧ s.dev.hub.turn m op = some c ∧ cmdRow op = some r) ∧
    (∃ (i : Instr) (m : Nat) (op : Nat) (k : Nat) (c : Sceune) (r : CmdRow) (s : State), sceuneCmd i = some (m, op, false) ∧ s.dev.hub.ryuner = true ∧ s.dev.hub.turn m op = some c ∧ c.begun = false ∧ cmdRow op = some r ∧ s.dev.generalCode c r = none ∧ r.haddr = some k ∧ c.readDone = false) ∧
    (∃ (i : Instr) (m : Nat) (op : Nat) (late : Bool) (s : State), sceuneCmd i = some (m, op, late) ∧ (s.dev.hub.ryuner = false ∨ s.dev.hub.turn m op = none)) :=
  ⟨⟨.managerSet 8, 8, 5, rcNotPermitted, { tSc 5 [0] false with mbx := 8 }, ⟨1, .m, none, none, none, false⟩, tS (tHost.ask { tSc 5 [0] false with mbx := 8 }) tB, by decide, by decide, by decide, by decide, by decide, by decide⟩,
   ⟨.benchStop 0 true, 0, 0x11, tSc 0x11 [0, 5] true, ⟨2, .m, some 0, none, none, false⟩, tS (tHost.ask (tSc 0x11 [0, 5] true)) tB, by decide, by decide, by decide, by decide⟩,
   ⟨.ruleWrite 0 false, 0, 0x21, 2, tSc 0x021 [0, 0x102, 0, 0] false, ⟨4, .m, some 0, some 2, none, false⟩, tS (tHost.ask (tSc 0x021 [0, 0x102, 0, 0] false)) tB, by decide, by decide, by decide, by decide, by decide, by decide, by decide, by decide⟩,
   ⟨.identify 0, 0, 1, false, tS tHost tB, by decide, by decide⟩⟩

/-- The hypotheses of SceuneCommandsOfTheDevice are met, clause by clause. -/
theorem witness_SceuneCommandsOfTheDevice :
    (∃ (m : Nat) (c : Sceune) (s : State), Taken s m 0x001 [] c) ∧
    (∃ (m : Nat) (c : Sceune) (r : List Nat) (t : List (List Nat)) (s : State), Taken s m 0x002 [] c ∧ (s.dev.hub.mbx c.mbx).notices = r :: t) ∧
    (∃ (m : Nat) (c : Sceune) (s : State), Taken s m 0x002 [] c ∧ (s.dev.hub.mbx c.mbx).notices = []) ∧
    (∃ (m : Nat) (c : Sceune) (s : State), Taken s m 0x003 [] c ∧ (s.dev.hub.mbx c.mbx).admin = none ∧ getBits (c.w 4) 8 11 < s.dev.hub.tableSize (s.dev.hub.mbx c.mbx).fn) ∧
    (∃ (m : Nat) (c : Sceune) (a : AdminPair) (s : State), Taken s m 0x003 [] c ∧ (s.dev.hub.mbx c.mbx).admin = some a) ∧
    (∃ (m : Nat) (c : Sceune) (a : AdminPair) (s : State), Taken s m 0x004 [] c ∧ c.admin = false ∧ (s.dev.hub.mbx c.mbx).admin = some a) ∧
    (∃ (m : Nat) (key : Nat) (c : Sceune) (s : State), Taken s m 0x005 [] c ∧ key = fnKey (getBits (c.w 0) 0 1) false (getBits (c.w 0) 1 3) ∧ s.dev.hub.fnExists key = true ∧ bit (c.w 0) 4 = true ∧ key ∉ s.dev.hub.fw.managers) ∧
    (∃ (m : Nat) (key : Nat) (c : Sceune) (s : State), Taken s m 0x005 [] c ∧ key = fnKey (getBits (c.w 0) 0 1) false (getBits (c.w 0) 1 3) ∧ s.dev.hub.fnExists key = true ∧ bit (c.w 0) 4 = false ∧ ((∀ k ∈ s.dev.hub.fw.managers, k = key))) ∧
    (∃ (m : Nat) (c : Sceune) (s : State), Taken s m 0x006 [] c ∧ c.w 0 < 704 ∧ bit (c.w 2) 31 = false ∧ s.dev.hub.fnExists (functionWord (c.w 1)) = true ∧ getBits (c.w 2) 0 11 < s.dev.hub.tableSize (functionWord (c.w 1))) ∧
    (∃ (m : Nat) (v : Nat) (c : Sceune) (s : State), Taken s m 0x007 [] c ∧ c.w 1 = 0 ∧ c.w 2 = 1 ∧ s.dev.tallyOf (c.w 0) = some v) ∧
    (∃ (m : Nat) (c : Sceune) (s : State), Taken s m 0x007 [] c ∧ c.w 1 = 0 ∧ c.w 2 = 1 ∧ s.dev.tallyOf (c.w 0) = none) ∧
    (∃ (m : Nat) (c : Sceune) (l : List Byte) (h' : Hub) (s : State), Taken s m 0x042 l c ∧ h' = (List.range 40).foldl (fun h w => h.setReg (R.dbg_DBG_TOKEN w) (BitVec.ofNat 32 (leNat (slice (slice l 0 160) (4 * w) 4)))) s.dev.hub ∧ h'.dbgAnswers = true ∧ tokType (slice l 0 160) = 2 ∧ getBits (c.w 0) 4 2 = 2) ∧
    (∃ (m : Nat) (c : Sceune) (s : State), Taken s m 0x043 [] c ∧ c.w 0 = 15 ∧ s.dev.hub.flag R.dbg_DBG_SESSION_FULL = false) ∧
    (∃ (m : Nat) (k : Nat) (c : Sceune) (s : State), Taken s m 0x043 [] c ∧ c.w 0 = k ∧ k < 15 ∧ bit (s.dev.hub.fld R.dbg_DBG_SESSION_ENGINE_MASK) k = true) ∧
    (∃ (m : Nat) (c : Sceune) (s : State), Taken s m 0x044 [] c ∧ s.dev.hub.fw.openedFull = false ∧ s.dev.hub.fw.secrets = true) ∧
    (∃ (m : Nat) (c : Sceune) (s : State), Taken s m 0x044 [] c ∧ s.dev.hub.fw.openedFull = true) ∧
    (∃ (m : Nat) (c : Sceune) (l : List Byte) (s : State), Taken s m 0x040 l c ∧ s.dev.hub.fw.sealing.isSome = true) ∧
    (∃ (m : Nat) (kind : Nat) (i : Nat) (c : Sceune) (l : List Byte) (r : Nat × Device) (s : State), Taken s m 0x040 l c ∧ s.dev.hub.fw.sealing = none ∧ kind = getBits (c.w 1) 16 1 ∧ i = getBits (c.w 1) 0 14 ∧ r = s.dev.sealFor c.bench kind i (slice l 0 (c.w 4))) ∧
    (∃ (m : Nat) (key : Nat) (c : Sceune) (s : State), Taken s m 0x082 [] c ∧ (s.dev.bench c.bench).live = true ∧ (bit (c.w 1) 6 = true ∨ (s.dev.hub.fw.part ≠ .nf ∧ (s.dev.bench c.bench).power.flashEn = true)) ∧ key = 64 * c.bench.val + getBits (c.w 1) 0 6 ∧ ((∀ x ∈ s.dev.hub.fw.names, x.1 ≠ key))) ∧
    (∃ (m : Nat) (key : Nat) (c : Sceune) (s : State), Taken s m 0x082 [] c ∧ (s.dev.bench c.bench).live = true ∧ (bit (c.w 1) 6 = true ∨ (s.dev.hub.fw.part ≠ .nf ∧ (s.dev.bench c.bench).power.flashEn = true)) ∧ key = 64 * c.bench.val + getBits (c.w 1) 0 6 ∧ ((∀ x ∈ s.dev.hub.fw.names, x.1 ≠ key))) ∧
    (∃ (m : Nat) (key : Nat) (c : Sceune) (x : Nat × Bool × Nat) (s : State), Taken s m 0x083 [] c ∧ key = 64 * c.bench.val + getBits (c.w 1) 0 6 ∧ x ∈ s.dev.hub.fw.names ∧ x.1 = key) ∧
    (∃ (m : Nat) (key : Nat) (c : Sceune) (s : State), Taken s m 0x083 [] c ∧ key = 64 * c.bench.val + getBits (c.w 1) 0 6 ∧ ((∀ x ∈ s.dev.hub.fw.names, x.1 ≠ key))) :=
  ⟨⟨0, tSc 0x001 [] false, tS (tHost.ask (tSc 0x001 [] false)) tB, taken_of (by decide)⟩,
   ⟨0, tSc 0x002 [] false, [1, 2, 3, 4], [], tS ((tHost.setMbx 0 { tMbx with notices := [[1, 2, 3, 4]] }).ask (tSc 0x002 [] false)) tB, taken_of (by decide), by decide⟩,
   ⟨0, tSc 0x002 [] false, tS (tHost.ask (tSc 0x002 [] false)) tB, taken_of (by decide), by decide⟩,
   ⟨0, tSc 0x003 [0, 0, 0, 0, 0x333] false, tS (tHost.ask (tSc 0x003 [0, 0, 0, 0, 0x333] false)) tB, taken_of (by decide), by decide, by decide⟩,
   ⟨0, tSc 0x003 [0, 0, 0, 0, 0x333] false, tAdmin, tS ((tHost.setMbx 0 { tMbx with admin := some tAdmin }).ask (tSc 0x003 [0, 0, 0, 0, 0x333] false)) tB, taken_of (by decide), by decide⟩,
   ⟨0, tSc 0x004 [] false, tAdmin, tS ((tHost.setMbx 0 { tMbx with admin := some tAdmin }).ask (tSc 0x004 [] false)) tB, taken_of (by decide), by decide, by decide⟩,
   ⟨0, _, tSc 0x005 [31] false, tS ((tHost.setFld (R.ep_FN_CFG_ENABLE 1 7) 1).ask (tSc 0x005 [31] false)) tB, taken_of (by decide), rfl, by decide, by decide, by decide⟩,
   ⟨0, _, tSc 0x005 [0] false, tS (tHost.ask (tSc 0x005 [0] false)) tB, taken_of (by decide), rfl, by decide, by decide, by decide⟩,
   ⟨0, tSc 0x006 [703, 0, 3] false, tS (tHost.ask (tSc 0x006 [703, 0, 3] false)) tB, taken_of (by decide), by decide, by decide, by decide, by decide⟩,
   ⟨0, 0, tSc 0x007 [0, 0, 1, 0, 0] false, tS (tHost.ask (tSc 0x007 [0, 0, 1, 0, 0] false)) tB, taken_of (by decide), by decide, by decide, by decide⟩,
   ⟨0, tSc 0x007 [0xFFFFFFFF, 0, 1, 0, 0] false, tS (tHost.ask (tSc 0x007 [0xFFFFFFFF, 0, 1, 0, 0] false)) tB, taken_of (by decide), by decide, by decide, by decide⟩,
   ⟨0, (tSc 0x042 [0x2F, 0, 0, 0, 0, 0, 0, 0] false).reading ([1#8, 0#8, 2#8, 0#8] ++ List.replicate 12 0#8 ++ List.replicate 144 0#8), ([1#8, 0#8, 2#8, 0#8] ++ List.replicate 12 0#8 ++ List.replicate 144 0#8), _, tS (tHost.ask ((tSc 0x042 [0x2F, 0, 0, 0, 0, 0, 0, 0] false).reading ([1#8, 0#8, 2#8, 0#8] ++ List.replicate 12 0#8 ++ List.replicate 144 0#8))) tB, taken_of (by decide), rfl, by decide, by decide, by decide⟩,
   ⟨0, tSc 0x043 [15] false, tS (tHost.ask (tSc 0x043 [15] false)) tB, taken_of (by decide), by decide, by decide⟩,
   ⟨0, 14, tSc 0x043 [14] false, tS ((tHost.setReg R.dbg_DBG_SESSION 0xFFFFFFFF#32).ask (tSc 0x043 [14] false)) tB, taken_of (by decide), by decide, by decide, by decide⟩,
   ⟨0, tSc 0x044 [1, 2, 3, 4, 4096, 0] false, tS (({ tHost with fw := { tHost.fw with secrets := true } }).ask (tSc 0x044 [1, 2, 3, 4, 4096, 0] false)) tB, taken_of (by decide), by decide, by decide⟩,
   ⟨0, tSc 0x044 [1, 2, 3, 4, 4096, 0] false, tS (({ tHost with fw := { tHost.fw with openedFull := true } }).ask (tSc 0x044 [1, 2, 3, 4, 4096, 0] false)) tB, taken_of (by decide), by decide⟩,
   ⟨0, (tSc 0x040 [0, 63 + 2 ^ 16, 0, 0, 80] false).reading (List.replicate 80 2#8), List.replicate 80 2#8, tS ({ tHost with fw := { tHost.fw with sealing := some ⟨0, 0, [], []⟩ } }.ask ((tSc 0x040 [0, 63 + 2 ^ 16, 0, 0, 80] false).reading (List.replicate 80 2#8))) tB, taken_of (by decide), by decide⟩,
   ⟨0, 1, 63, (tSc 0x040 [0, 63 + 2 ^ 16, 0, 0, 80] false).reading ([2#8, 0#8, 0#8, 0#8] ++ List.replicate 4 0xA6#8 ++ List.replicate 72 0#8), [2#8, 0#8, 0#8, 0#8] ++ List.replicate 4 0xA6#8 ++ List.replicate 72 0#8, _, tS (({ tHost with fw := { tHost.fw with lc := 1 } }).ask ((tSc 0x040 [0, 63 + 2 ^ 16, 0, 0, 80] false).reading ([2#8, 0#8, 0#8, 0#8] ++ List.replicate 4 0xA6#8 ++ List.replicate 72 0#8))) tB, taken_of (by decide), by decide, by decide, by decide, rfl⟩,
   ⟨0, 63, tSc 0x082 [0, 0x3F, 1, 0] false, tS (tHost.ask (tSc 0x082 [0, 0x3F, 1, 0] false)) tB, taken_of (by decide), by decide, by decide, by decide, by decide⟩,
   ⟨0, 63, tSc 0x082 [0, 0x7F, 1, 0] false, tS (tHost.ask (tSc 0x082 [0, 0x7F, 1, 0] false)) tB, taken_of (by decide), by decide, by decide, by decide, by decide⟩,
   ⟨0, 1023, tSc 0x083 [15, 63] false, (1023, (true, 7)), tS (({ tHost with fw := { tHost.fw with names := [(1023, (true, 7))] } }).ask (tSc 0x083 [15, 63] false)) tB, taken_of (by decide), by decide, by decide, by decide⟩,
   ⟨0, 1023, tSc 0x083 [15, 63] false, tS (tHost.ask (tSc 0x083 [15, 63] false)) tB, taken_of (by decide), by decide, by decide⟩⟩

/-- The hypotheses of SceuneCommandsOfABench are met, clause by clause. -/
theorem witness_SceuneCommandsOfABench :
    (∃ (m : Nat) (c : Sceune) (k : Nat) (s : State), Taken s m 0x010 [] c ∧ c.startRefusal s.dev.hub (s.dev.bench c.bench) = some k) ∧
    (∃ (m : Nat) (c : Sceune) (s : State), Taken s m 0x010 [] c ∧ c.startRefusal s.dev.hub (s.dev.bench c.bench) = none) ∧
    (∃ (m : Nat) (c : Sceune) (s : State), Resumed s m 0x010 c ∧ (s.dev.bench c.bench).power.st = .running ∧ (s.dev.bench c.bench).flag R.hopper_HOPPER_CTL_ENABLE = true ∧ (s.dev.bench c.bench).flag R.hopper_HOPPER_CTL_READY = true) ∧
    (∃ (m : Nat) (c : Sceune) (s : State), Resumed s m 0x010 c) ∧
    (∃ (m : Nat) (c : Sceune) (s : State), Taken s m 0x011 [] c ∧ (s.dev.bench c.bench).power.st = .off) ∧
    (∃ (m : Nat) (c : Sceune) (s : State), Taken s m 0x011 [] c ∧ (s.dev.bench c.bench).power.st = .running) ∧
    (∃ (m : Nat) (c : Sceune) (s : State), Resumed s m 0x011 c ∧ (s.dev.bench c.bench).power.st = .off) ∧
    (∃ (m : Nat) (c : Sceune) (s : State), Taken s m 0x012 [] c) ∧
    (∃ (m : Nat) (c : Sceune) (l : List Byte) (img : List Byte) (pl : List (Nat × Nat)) (q : Nat × Hub × Bench) (n : BenchId) (s : State), Taken s m 0x020 l c ∧ n = c.bench ∧ (s.dev.bench n).live = true ∧ img = slice l 0 (c.w 3) ∧ (s.dev.bench n).writable (1 - (s.dev.bench n).genActive) = true ∧ graphImageBad img = false ∧ pl = (s.dev.bench n).placeGraph (1 - (s.dev.bench n).genActive) img ∧ giCount img ≤ pl.length ∧ q = fmRead n R.graph_NODE_COMMIT_STATUS (fmWrites n (graphWrites pl (1 - (s.dev.bench n).genActive) (bit (c.w 4) 0) img) (s.dev.hub, (s.dev.bench n)))) ∧
    (∃ (m : Nat) (c : Sceune) (l : List Byte) (n : BenchId) (s : State), Taken s m 0x020 l c ∧ n = c.bench ∧ (s.dev.bench n).live = true ∧ (s.dev.bench n).writable (1 - (s.dev.bench n).genActive) = true ∧ graphImageBad (slice l 0 (c.w 3)) = true) ∧
    (∃ (m : Nat) (c : Sceune) (l : List Byte) (n : BenchId) (s : State), Taken s m 0x021 l c ∧ n = c.bench ∧ (s.dev.bench n).live = true ∧ getBits (c.w 1) 0 2 = 2 ∧ (s.dev.bench n).writable (getBits (c.w 1) 8 1) = true) ∧
    (∃ (m : Nat) (c : Sceune) (l : List Byte) (n : BenchId) (s : State), Taken s m 0x021 l c ∧ n = c.bench ∧ (s.dev.bench n).live = true ∧ getBits (c.w 1) 0 2 ≠ 1 ∧ (s.dev.bench n).writable (getBits (c.w 1) 8 1) = false) ∧
    (∃ (m : Nat) (c : Sceune) (n : BenchId) (s : State), Taken s m 0x022 [] c ∧ n = c.bench ∧ (s.dev.bench n).live = true ∧ (s.dev.bench n).flag R.action_GEN_STATUS_OLD_GEN_IDLE = true) ∧
    (∃ (m : Nat) (c : Sceune) (n : BenchId) (s : State), Taken s m 0x022 [] c ∧ n = c.bench ∧ (s.dev.bench n).live = false) ∧
    (∃ (m : Nat) (c : Sceune) (l : List Byte) (ws : List (Nat × Nat)) (n : BenchId) (s : State), Taken s m 0x023 l c ∧ n = c.bench ∧ (s.dev.bench n).live = true ∧ (s.dev.bench n).mt.opq.length < 16 ∧ ws = blockWrites (R.match_OP_ENTRY 0) (wordsOf l 16) ++ blockWrites (R.match_OP_EXPECT 0) (wordsOf (l.drop 64) 3) ++ [(R.match_OP_DST, leNat (slice l 78 2)), (R.match_OP_CMD, c.w 1 + 2 ^ 16 * leNat (slice l 76 2))]) ∧
    (∃ (m : Nat) (c : Sceune) (l : List Byte) (n : BenchId) (s : State), Taken s m 0x023 l c ∧ n = c.bench ∧ (s.dev.bench n).live = true ∧ 16 ≤ (s.dev.bench n).mt.opq.length) ∧
    (∃ (m : Nat) (v : Nat) (c : Sceune) (n : BenchId) (s : State), Resumed s m 0x023 c ∧ n = c.bench ∧ (s.dev.bench n).live = true ∧ v = ((s.dev.bench n).reg R.match_OP_STATUS).toNat ∧ v % 2 = 1 ∧ getBits v 1 4 = 0 ∧ 2 ≤ c.w 1) ∧
    (∃ (m : Nat) (c : Sceune) (q : Hub × Bench) (n : BenchId) (s : State), Taken s m 0x024 [] c ∧ n = c.bench ∧ (s.dev.bench n).live = true ∧ (s.dev.bench n).mt.learnq = [] ∧ q = fmWrites n [(R.match_LEARN_CTL, (s.dev.bench n).fld R.match_LEARN_CTL_HOLDOFF_US + 2 ^ 20 * (if c.w 1 = 0 then 0 else 1))] (s.dev.hub, (s.dev.bench n))) ∧
    (∃ (m : Nat) (c : Sceune) (n : BenchId) (s : State), Taken s m 0x025 [] c ∧ n = c.bench ∧ (s.dev.bench n).live = true ∧ (s.dev.bench n).sweepSt = 0) ∧
    (∃ (m : Nat) (c : Sceune) (n : BenchId) (s : State), Taken s m 0x030 [] c ∧ n = c.bench ∧ (s.dev.bench n).live = true ∧ (s.dev.bench n).hasPort (c.w 1) = true) ∧
    (∃ (m : Nat) (c : Sceune) (l : List Byte) (n : BenchId) (s : State), Taken s m 0x031 l c ∧ n = c.bench ∧ (s.dev.bench n).live = true ∧ c.w 1 = 2) ∧
    (∃ (m : Nat) (c : Sceune) (l : List Byte) (q : Nat × Hub × Bench) (n : BenchId) (s : State), Taken s m 0x032 l c ∧ n = c.bench ∧ (s.dev.bench n).live = true ∧ (s.dev.bench n).hasPort (c.w 1) = true ∧ (s.dev.bench n).gatePending (c.w 1) = false ∧ q = fmRead n (R.tm_GATE_COMMIT_STATUS (c.w 1)) (fmWrites n ((R.tm_GATE_SHADOW_LEN (c.w 1), c.w 4) :: blockWrites (R.tm_GATE_START (c.w 1) 0) [c.w 5, c.w 6, c.w 7] ++ [(R.tm_GATE_CTL (c.w 1), 1)]) (s.dev.hub, (s.dev.bench n).setBytes (gateShadow (c.w 1)) (slice l 0 (8 * min 1024 (c.w 4)))))) ∧
    (∃ (m : Nat) (c : Sceune) (n : BenchId) (s : State), Taken s m 0x033 [] c ∧ n = c.bench ∧ (s.dev.bench n).live = true ∧ c.w 1 = 2) ∧
    (∃ (m : Nat) (c : Sceune) (l : List Byte) (q : Nat × Hub × Bench) (n : BenchId) (s : State), Taken s m 0x041 l c ∧ n = c.bench ∧ (s.dev.bench n).live = true ∧ leNat (slice l 0 4) % 4 ≠ 0 ∧ q = fmRead n R.cipher_SA_COMMIT_STATUS (fmWrites n (blockWrites (R.cipher_SA_STAGE 0) (wordsOf l 16) ++ [(R.cipher_SA_COMMIT, c.w 1)]) (s.dev.hub, (s.dev.bench n)))) ∧
    (∃ (m : Nat) (c : Sceune) (l : List Byte) (n : BenchId) (s : State), Taken s m 0x050 l c ∧ n = c.bench ∧ (s.dev.bench n).live = true ∧ engineImageBad (slice l 0 (c.w 3)) = false ∧ ((∀ k, k < 8 → (s.dev.bench n).coreState k = 0))) ∧
    (∃ (m : Nat) (c : Sceune) (l : List Byte) (n : BenchId) (s : State), Taken s m 0x050 l c ∧ n = c.bench ∧ (s.dev.bench n).live = true ∧ engineImageBad (slice l 0 (c.w 3)) = true) ∧
    (∃ (m : Nat) (c : Sceune) (n : BenchId) (s : State), Taken s m 0x051 [] c ∧ n = c.bench ∧ (s.dev.bench n).live = true ∧ c.w 1 = 1 ∧ (s.dev.bench n).coreState 0 = 0) ∧
    (∃ (m : Nat) (c : Sceune) (n : BenchId) (s : State), Taken s m 0x051 [] c ∧ n = c.bench ∧ (s.dev.bench n).live = true ∧ c.w 1 = 1 ∧ (s.dev.bench n).coreState 0 ≠ 0) :=
  ⟨⟨0, tSc 0x010 [0, 0, 0x804, 0xE4, 0, 0, 0, 0, 0, 0, 0, 0, 0] false, rcWrongState, tS (tHost.ask (tSc 0x010 [0, 0, 0x804, 0xE4, 0, 0, 0, 0, 0, 0, 0, 0, 0] false)) tB, taken_of (by decide), by decide⟩,
   ⟨0, tSc 0x010 [0, 0, 0x804, 0xE4, 0, 0, 0, 0, 0, 0, 0, 0, 0] false, tS (tHost.ask (tSc 0x010 [0, 0, 0x804, 0xE4, 0, 0, 0, 0, 0, 0, 0, 0, 0] false)) (tB.inSt .off), taken_of (by decide), by decide⟩,
   ⟨0, tSc 0x010 [0, 0, 0x804, 0xE4, 0, 0, 0, 0, 0, 0, 0, 0, 0] true, tS (tHost.ask (tSc 0x010 [0, 0, 0x804, 0xE4, 0, 0, 0, 0, 0, 0, 0, 0, 0] true)) (tB.setReg R.hopper_HOPPER_CTL 3#32), ⟨by decide, by decide, by decide⟩, by decide, by decide, by decide⟩,
   ⟨0, tSc 0x010 [0, 0, 0x804, 0xE4, 0, 0, 0, 0, 0, 0, 0, 0, 0] true, tS (tHost.ask (tSc 0x010 [0, 0, 0x804, 0xE4, 0, 0, 0, 0, 0, 0, 0, 0, 0] true)) tB, ⟨by decide, by decide, by decide⟩⟩,
   ⟨0, tSc 0x011 [0, 5] false, tS (tHost.ask (tSc 0x011 [0, 5] false)) (tB.inSt .off), taken_of (by decide), by decide⟩,
   ⟨0, tSc 0x011 [0, 5] false, tS (tHost.ask (tSc 0x011 [0, 5] false)) tB, taken_of (by decide), by decide⟩,
   ⟨0, tSc 0x011 [0, 5] true, tS (tHost.ask (tSc 0x011 [0, 5] true)) (tB.inSt .off), ⟨by decide, by decide, by decide⟩, by decide⟩,
   ⟨0, tSc 0x012 [0] false, tS (tHost.ask (tSc 0x012 [0] false)) tB, taken_of (by decide)⟩,
   ⟨0, (tSc 0x020 [0, 0, 0, 100, 1] false).reading tGraph, tGraph, tGraph, [(0, 0)], _, 0, tS (tHost.ask ((tSc 0x020 [0, 0, 0, 100, 1] false).reading tGraph)) (tB.setFld R.graph_GRAPH_CTL_ARMED 1), taken_of (by decide), by decide, by decide, by decide, by decide, by decide, by decide, by decide, rfl⟩,
   ⟨0, (tSc 0x020 [0, 0, 0, 100, 1] false).reading (List.replicate 100 0#8), List.replicate 100 0#8, 0, tS (tHost.ask ((tSc 0x020 [0, 0, 0, 100, 1] false).reading (List.replicate 100 0#8))) tB, taken_of (by decide), by decide, by decide, by decide, by decide⟩,
   ⟨0, (tSc 0x021 [0, 0x102, 0, 0] false).reading ([7#8, 0#8, 0#8, 0#8]), [7#8, 0#8, 0#8, 0#8], 0, tS (tHost.ask ((tSc 0x021 [0, 0x102, 0, 0] false).reading ([7#8, 0#8, 0#8, 0#8]))) tB, taken_of (by decide), by decide, by decide, by decide, by decide⟩,
   ⟨0, (tSc 0x021 [0, 0x2, 0, 0] false).reading ([7#8, 0#8, 0#8, 0#8]), [7#8, 0#8, 0#8, 0#8], 0, tS (tHost.ask ((tSc 0x021 [0, 0x2, 0, 0] false).reading ([7#8, 0#8, 0#8, 0#8]))) (tB.setFld R.graph_GRAPH_CTL_ARMED 1), taken_of (by decide), by decide, by decide, by decide, by decide⟩,
   ⟨0, tSc 0x022 [0] false, 0, tS (tHost.ask (tSc 0x022 [0] false)) tB, taken_of (by decide), by decide, by decide, by decide⟩,
   ⟨0, tSc 0x022 [0] false, 0, tS (tHost.ask (tSc 0x022 [0] false)) (tB.inSt .off), taken_of (by decide), by decide, by decide⟩,
   ⟨0, (tSc 0x023 [0, 6, 0, 0] false).reading (List.replicate 80 1#8), List.replicate 80 1#8, _, 0, tS (tHost.ask ((tSc 0x023 [0, 6, 0, 0] false).reading (List.replicate 80 1#8))) tB, taken_of (by decide), by decide, by decide, by decide, rfl⟩,
   ⟨0, (tSc 0x023 [0, 6, 0, 0] false).reading (List.replicate 80 1#8), List.replicate 80 1#8, 0, tS (tHost.ask ((tSc 0x023 [0, 6, 0, 0] false).reading (List.replicate 80 1#8))) { tB with mt := { tB.mt with opq := List.replicate 16 (tOp 6 0) } }, taken_of (by decide), by decide, by decide, by decide⟩,
   ⟨0, 1, tSc 0x023 [0, 6, 0, 0] true, 0, tS (tHost.ask (tSc 0x023 [0, 6, 0, 0] true)) (tB.setReg R.match_OP_STATUS 1#32), ⟨by decide, by decide, by decide⟩, by decide, by decide, by decide, by decide, by decide, by decide⟩,
   ⟨0, tSc 0x024 [0, 2, 5, 0, 0, 0, 0] false, _, 0, tS (tHost.ask (tSc 0x024 [0, 2, 5, 0, 0, 0, 0] false)) tB, taken_of (by decide), by decide, by decide, by decide, rfl⟩,
   ⟨0, tSc 0x025 [0, 1, 99] false, 0, tS (tHost.ask (tSc 0x025 [0, 1, 99] false)) tB, taken_of (by decide), by decide, by decide, by decide⟩,
   ⟨0, tSc 0x030 [0, 0, 0x100, 64, 0, 0] false, 0, tS (tHost.ask (tSc 0x030 [0, 0, 0x100, 64, 0, 0] false)) tB, taken_of (by decide), by decide, by decide, by decide⟩,
   ⟨0, (tSc 0x031 [0, 2, 31, 0, 0] false).reading ([1#8, 0#8, 0#8, 0#8]), [1#8, 0#8, 0#8, 0#8], 0, tS (tHost.ask ((tSc 0x031 [0, 2, 31, 0, 0] false).reading ([1#8, 0#8, 0#8, 0#8]))) tB, taken_of (by decide), by decide, by decide, by decide⟩,
   ⟨0, (tSc 0x032 [0, 0, 0, 0, 1, 9, 0, 0] false).reading (leBytes 8 (2 ^ 32)), leBytes 8 (2 ^ 32), _, 0, tS (tHost.ask ((tSc 0x032 [0, 0, 0, 0, 1, 9, 0, 0] false).reading (leBytes 8 (2 ^ 32)))) tB, taken_of (by decide), by decide, by decide, by decide, by decide, rfl⟩,
   ⟨0, tSc 0x033 [0, 2, 5, 6, 0] false, 0, tS (tHost.ask (tSc 0x033 [0, 2, 5, 6, 0] false)) tB, taken_of (by decide), by decide, by decide, by decide⟩,
   ⟨0, (tSc 0x041 [0, 0x3FFF, 0, 0] false).reading ([2#8] ++ List.replicate 63 0#8), [2#8] ++ List.replicate 63 0#8, _, 0, tS (tHost.ask ((tSc 0x041 [0, 0x3FFF, 0, 0] false).reading ([2#8] ++ List.replicate 63 0#8))) tB, taken_of (by decide), by decide, by decide, by decide, rfl⟩,
   ⟨0, (tSc 0x050 [0, 0, 0, 68] false).reading tEng, tEng, 0, tS (tHost.ask ((tSc 0x050 [0, 0, 0, 68] false).reading tEng)) tB, taken_of (by decide), by decide, by decide, by decide, by decide⟩,
   ⟨0, (tSc 0x050 [0, 0, 0, 68] false).reading (List.replicate 68 0#8), List.replicate 68 0#8, 0, tS (tHost.ask ((tSc 0x050 [0, 0, 0, 68] false).reading (List.replicate 68 0#8))) tB, taken_of (by decide), by decide, by decide, by decide⟩,
   ⟨0, tSc 0x051 [0, 1] false, 0, tS (tHost.ask (tSc 0x051 [0, 1] false)) tB, taken_of (by decide), by decide, by decide, by decide, by decide⟩,
   ⟨0, tSc 0x051 [0, 1] false, 0, tS (tHost.ask (tSc 0x051 [0, 1] false)) (tB.setFld (R.engine_CORE_STATUS_STATE 0) 1), taken_of (by decide), by decide, by decide, by decide, by decide⟩⟩

/-- The hypotheses of SceuneCommandsOfClaimsAndRings are met, clause by clause. -/
theorem witness_SceuneCommandsOfClaimsAndRings :
    (∃ (m : Nat) (i : Nat) (k : Claim) (h' : Hub) (c : Sceune) (n : BenchId) (s : State), Taken s m 0x060 [] c ∧ n = c.bench ∧ (s.dev.bench n).power.st = .running ∧ s.dev.hub.archives n (s.dev.bench n) = false ∧ Bench.claimBad s.dev.hub (s.dev.bench n) c.ops = false ∧ k = claimOf c.ops ∧ s.dev.hub.pairTaken k.fn k.pasid = false ∧ (s.dev.bench n).rings.claims.any (fun x => rangesMeet k.ringBase k.ringCount x.2.ringBase x.2.ringCount || rangesMeet k.pageBase k.pages x.2.pageBase x.2.pages) = false ∧ (s.dev.bench n).freeClaim = some i ∧ fnVf k.fn = false ∧ h' = s.dev.hub.setMbx (16 + (256 * n.val + i)) { Mailbox.reset true k.fn k.pasid with fn := k.fn }) ∧
    (∃ (m : Nat) (k : Claim) (c : Sceune) (n : BenchId) (s : State), Taken s m 0x061 [] c ∧ n = c.bench ∧ (s.dev.bench n).live = true ∧ (s.dev.bench n).claim? c.claim = some k ∧ k.st = 1 ∧ getBits (c.w 0) 16 16 ≠ 0) ∧
    (∃ (m : Nat) (k : Claim) (c : Sceune) (n : BenchId) (s : State), Taken s m 0x061 [] c ∧ n = c.bench ∧ (s.dev.bench n).live = true ∧ (s.dev.bench n).claim? c.claim = some k ∧ k.st ≠ 1 ∧ getBits (c.w 0) 16 16 ≠ 0) ∧
    (∃ (m : Nat) (k : Claim) (c : Sceune) (n : BenchId) (s : State), Taken s m 0x062 [] c ∧ n = c.bench ∧ (s.dev.bench n).live = true ∧ (s.dev.bench n).claim? c.claim = some k ∧ k.st = 3) ∧
    (∃ (m : Nat) (k : Claim) (c : Sceune) (n : BenchId) (s : State), Taken s m 0x062 [] c ∧ n = c.bench ∧ (s.dev.bench n).live = true ∧ (s.dev.bench n).claim? c.claim = some k ∧ k.st ≠ 3) ∧
    (∃ (m : Nat) (k : Claim) (c : Sceune) (n : BenchId) (s : State), Taken s m 0x063 [] c ∧ n = c.bench ∧ (s.dev.bench n).live = true ∧ (s.dev.bench n).claim? c.claim = some k) ∧
    (∃ (m : Nat) (c : Sceune) (s : State), Resumed s m 0x063 c) ∧
    (∃ (m : Nat) (k : Claim) (c : Sceune) (b' : Bench) (n : BenchId) (s : State), Taken s m 0x064 [] c ∧ n = c.bench ∧ (s.dev.bench n).live = true ∧ (s.dev.bench n).claim? c.claim = some k ∧ k.st = 3 ∧ fnVf k.fn = false ∧ b' = (k.rings.filter (fun r => (s.dev.bench n).ringKind r ≠ 0)).foldl Bench.freeRing (s.dev.bench n)) ∧
    (∃ (m : Nat) (k : Claim) (c : Sceune) (n : BenchId) (s : State), Taken s m 0x064 [] c ∧ n = c.bench ∧ (s.dev.bench n).live = true ∧ (s.dev.bench n).claim? c.claim = some k ∧ k.st ≠ 3) ∧
    (∃ (m : Nat) (t : Nat) (f : Nat) (k : Claim) (c : Sceune) (n : BenchId) (s : State), Taken s m 0x065 [] c ∧ n = c.bench ∧ (s.dev.bench n).live = true ∧ (s.dev.bench n).claim? c.claim = some k ∧ c.w 1 = t + 2 ^ 16 * f ∧ 1 ≤ t ∧ t ≤ 1024 ∧ 1 ≤ f ∧ f < 256) ∧
    (∃ (m : Nat) (o : Nat) (c : Sceune) (n : BenchId) (s : State), Taken s m 0x066 [] c ∧ n = benchOf (s.dev.hub.homeBench (fnKey (getBits (c.w 0) 0 1) false (getBits (c.w 0) 1 3))) ∧ bit (c.w 0) 15 = false ∧ bit (c.w 0) 4 = false ∧ o = ctlEntryAt (fnKey (getBits (c.w 0) 0 1) false (getBits (c.w 0) 1 3)) (getBits (c.w 0) 5 10)) ∧
    (∃ (m : Nat) (r : Nat) (i : Nat) (k : Claim) (c : Sceune) (n : BenchId) (s : State), Taken s m 0x070 [] c ∧ n = c.bench ∧ (s.dev.bench n).live = true ∧ r = getBits (c.w 0) 0 14 ∧ (s.dev.bench n).ringOwner r = some (i, k) ∧ (s.dev.bench n).ringKind r = 0 ∧ Bench.ringBad s.dev.hub (s.dev.bench n) k c.ops = false ∧ getBits (c.w 0) 20 4 = 1) ∧
    (∃ (m : Nat) (r : Nat) (i : Nat) (k : Claim) (c : Sceune) (n : BenchId) (s : State), Taken s m 0x070 [] c ∧ n = c.bench ∧ (s.dev.bench n).live = true ∧ r = getBits (c.w 0) 0 14 ∧ (s.dev.bench n).ringOwner r = some (i, k) ∧ (s.dev.bench n).ringKind r ≠ 0) ∧
    (∃ (m : Nat) (i : Nat) (k : Claim) (c : Sceune) (n : BenchId) (s : State), Taken s m 0x071 [] c ∧ n = c.bench ∧ (s.dev.bench n).live = true ∧ (s.dev.bench n).ringOwner c.ring = some (i, k) ∧ ((s.dev.bench n).ringKind c.ring = 1 ∨ (s.dev.bench n).ringKind c.ring = 2) ∧ (s.dev.bench n).ringState c.ring = 1 ∧ k.st = 1 ∧ s.dev.hub.masters k = true ∧ k.mustReset.contains c.ring = false ∧ bit (c.w 0) 31 = false) ∧
    (∃ (m : Nat) (i : Nat) (k : Claim) (c : Sceune) (n : BenchId) (s : State), Taken s m 0x071 [] c ∧ n = c.bench ∧ (s.dev.bench n).live = true ∧ (s.dev.bench n).ringOwner c.ring = some (i, k) ∧ (s.dev.bench n).ringState c.ring = 2) ∧
    (∃ (m : Nat) (c : Sceune) (n : BenchId) (s : State), Taken s m 0x072 [] c ∧ n = c.bench ∧ (s.dev.bench n).live = true ∧ (s.dev.bench n).ringKind c.ring ≠ 0 ∧ (s.dev.bench n).ringState c.ring = 2) ∧
    (∃ (m : Nat) (c : Sceune) (n : BenchId) (s : State), Taken s m 0x072 [] c ∧ n = c.bench ∧ (s.dev.bench n).live = true ∧ (s.dev.bench n).ringState c.ring = 1) ∧
    (∃ (m : Nat) (c : Sceune) (n : BenchId) (s : State), Taken s m 0x073 [] c ∧ n = c.bench ∧ (s.dev.bench n).live = true ∧ (s.dev.bench n).ringKind c.ring ≠ 0 ∧ (s.dev.bench n).ringCpl c.ring = false ∧ (s.dev.bench n).ringState c.ring = 1) ∧
    (∃ (m : Nat) (c : Sceune) (n : BenchId) (s : State), Taken s m 0x073 [] c ∧ n = c.bench ∧ (s.dev.bench n).live = true ∧ (s.dev.bench n).ringState c.ring = 2) ∧
    (∃ (m : Nat) (c : Sceune) (n : BenchId) (s : State), Taken s m 0x074 [] c ∧ n = c.bench ∧ (s.dev.bench n).live = true ∧ 1 ≤ getBits (c.w 0) 24 5 ∧ getBits (c.w 0) 24 5 ≤ 19 ∧ (s.dev.bench n).ringKind c.ring = 1) ∧
    (∃ (m : Nat) (c : Sceune) (n : BenchId) (s : State), Taken s m 0x074 [] c ∧ n = c.bench ∧ (s.dev.bench n).live = true ∧ 1 ≤ getBits (c.w 0) 24 5 ∧ getBits (c.w 0) 24 5 ≤ 19 ∧ (s.dev.bench n).ringKind c.ring ≠ 1) ∧
    (∃ (m : Nat) (f : Nat) (j : Nat) (k : Claim) (c : Sceune) (n : BenchId) (s : State), Taken s m 0x080 [] c ∧ n = c.bench ∧ (s.dev.bench n).live = true ∧ (s.dev.bench n).claim? c.claim = some k ∧ s.dev.hub.pfOf k.fn = some f ∧ s.dev.hub.fld (R.ep_FN_CFG_CLASS (fnPort k.fn) f) = 1 ∧ s.dev.hub.page0Mapped n k = true ∧ (s.dev.bench n).ctrlOf c.claim = none ∧ (s.dev.bench n).anyOf ((List.range 64).filter (fun j => !(s.dev.bench n).flag (R.storage_NVME_CTRL_VALID j))) = some j) ∧
    (∃ (m : Nat) (j : Nat) (c : Sceune) (n : BenchId) (s : State), Taken s m 0x081 [] c ∧ n = c.bench ∧ (s.dev.bench n).live = true ∧ (s.dev.bench n).ctrlOf c.claim = some j) ∧
    (∃ (m : Nat) (c : Sceune) (n : BenchId) (s : State), Taken s m 0x081 [] c ∧ n = c.bench ∧ (s.dev.bench n).live = true ∧ (s.dev.bench n).ctrlOf c.claim = none) :=
  ⟨(anyOf_exists tB ((List.range 256).filter (fun i => (tB.claim? i).isNone)) (by decide)).elim fun i hi => ⟨0, i, _, _, tSc 0x060 [0, 0, 16 * 2 ^ 16, 8 + 2 ^ 16, 0, 0] false, 0, tS ((tHost.setFld (R.pcr_BENCH_CTL_DRAM_RETAIN 0) 0).ask (tSc 0x060 [0, 0, 16 * 2 ^ 16, 8 + 2 ^ 16, 0, 0] false)) tB, taken_of (by decide), by decide, by decide, by decide, by decide, rfl, by decide, by decide, hi, by decide, rfl⟩,
   ⟨0, tClaim 1, tSc 0x061 [5 * 2 ^ 16] false, 0, tS (tHost.ask (tSc 0x061 [5 * 2 ^ 16] false)) (tB.claimed (tClaim 1)), taken_of (by decide), by decide, by decide, by decide, by decide, by decide⟩,
   ⟨0, tClaim 3, tSc 0x061 [5 * 2 ^ 16] false, 0, tS (tHost.ask (tSc 0x061 [5 * 2 ^ 16] false)) (tB.claimed (tClaim 3)), taken_of (by decide), by decide, by decide, by decide, by decide, by decide⟩,
   ⟨0, tClaim 3, tSc 0x062 [0] false, 0, tS (tHost.ask (tSc 0x062 [0] false)) (tB.claimed (tClaim 3)), taken_of (by decide), by decide, by decide, by decide, by decide⟩,
   ⟨0, tClaim 1, tSc 0x062 [0] false, 0, tS (tHost.ask (tSc 0x062 [0] false)) (tB.claimed (tClaim 1)), taken_of (by decide), by decide, by decide, by decide, by decide⟩,
   ⟨0, tClaim 1, tSc 0x063 [0] false, 0, tS (tHost.ask (tSc 0x063 [0] false)) (tB.claimed (tClaim 1)), taken_of (by decide), by decide, by decide, by decide⟩,
   ⟨0, tSc 0x063 [0] true, tS (tHost.ask (tSc 0x063 [0] true)) (tB.claimed { tClaim 2 with resetting := true }), ⟨by decide, by decide, by decide⟩⟩,
   ⟨0, tClaim 3, tSc 0x064 [0] false, _, 0, tS (tHost.ask (tSc 0x064 [0] false)) (tB.claimed (tClaim 3)), taken_of (by decide), by decide, by decide, by decide, by decide, by decide, rfl⟩,
   ⟨0, tClaim 1, tSc 0x064 [0] false, 0, tS (tHost.ask (tSc 0x064 [0] false)) (tB.claimed (tClaim 1)), taken_of (by decide), by decide, by decide, by decide, by decide⟩,
   ⟨0, 1024, 255, tClaim 1, tSc 0x065 [0, 1024 + 2 ^ 16 * 255] false, 0, tS (tHost.ask (tSc 0x065 [0, 1024 + 2 ^ 16 * 255] false)) (tB.claimed (tClaim 1)), taken_of (by decide), by decide, by decide, by decide, by decide, by decide, by decide, by decide, by decide⟩,
   ⟨0, _, tSc 0x066 [1023 * 32, 0x100001, 0] false, 0, tS (tHost.ask (tSc 0x066 [1023 * 32, 0x100001, 0] false)) tB, taken_of (by decide), by decide, by decide, by decide, rfl⟩,
   ⟨0, 0, 0, tClaim 1, tSc 0x070 [2 ^ 20 * 1 + 2 ^ 24 * 15, 0, 0, 1, 0] false, 0, tS (tHost.ask (tSc 0x070 [2 ^ 20 * 1 + 2 ^ 24 * 15, 0, 0, 1, 0] false)) ((tB.claimed (tClaim 1)).setMbits (ringAddr 1) 64 10 (3 + 2 ^ 8)), taken_of (by decide), by decide, by decide, by decide, by decide, by decide, by decide, by decide⟩,
   ⟨0, 0, 0, tClaim 1, tSc 0x070 [2 ^ 20 * 1 + 2 ^ 24 * 15, 0, 0, 1, 0] false, 0, tS (tHost.ask (tSc 0x070 [2 ^ 20 * 1 + 2 ^ 24 * 15, 0, 0, 1, 0] false)) (tRing 1), taken_of (by decide), by decide, by decide, by decide, by decide, by decide⟩,
   ⟨0, 0, tClaim 1, tSc 0x071 [0] false, 0, tS (tHost.ask (tSc 0x071 [0] false)) ((tRing 2).setRingState 0 1), taken_of (by decide), by decide, by decide, by decide, by decide, by decide, by decide, by decide, by decide, by decide⟩,
   ⟨0, 0, tClaim 1, tSc 0x071 [0] false, 0, tS (tHost.ask (tSc 0x071 [0] false)) (tRing 1), taken_of (by decide), by decide, by decide, by decide, by decide⟩,
   ⟨0, tSc 0x072 [0] false, 0, tS (tHost.ask (tSc 0x072 [0] false)) (tRing 1), taken_of (by decide), by decide, by decide, by decide, by decide⟩,
   ⟨0, tSc 0x072 [0] false, 0, tS (tHost.ask (tSc 0x072 [0] false)) ((tRing 1).setRingState 0 1), taken_of (by decide), by decide, by decide, by decide⟩,
   ⟨0, tSc 0x073 [0] false, 0, tS (tHost.ask (tSc 0x073 [0] false)) ((tRing 1).setRingState 0 1), taken_of (by decide), by decide, by decide, by decide, by decide, by decide⟩,
   ⟨0, tSc 0x073 [0] false, 0, tS (tHost.ask (tSc 0x073 [0] false)) (tRing 1), taken_of (by decide), by decide, by decide, by decide⟩,
   ⟨0, tSc 0x074 [19 * 2 ^ 24] false, 0, tS (tHost.ask (tSc 0x074 [19 * 2 ^ 24] false)) (tRing 1), taken_of (by decide), by decide, by decide, by decide, by decide, by decide⟩,
   ⟨0, tSc 0x074 [1 * 2 ^ 24] false, 0, tS (tHost.ask (tSc 0x074 [1 * 2 ^ 24] false)) (tRing 2), taken_of (by decide), by decide, by decide, by decide, by decide, by decide⟩,
   (anyOf_exists (tB.claimed { tClaim 1 with pages := 16 }) ((List.range 64).filter (fun j => !(tB.claimed { tClaim 1 with pages := 16 }).flag (R.storage_NVME_CTRL_VALID j))) (by decide)).elim fun j hj => ⟨0, 0, j, { tClaim 1 with pages := 16 }, tSc 0x080 [0] false, 0, tS ((((tHost.setFld (R.ep_FN_CFG_CLASS 0 0) 1).setReg (ctlEntryAt 0 0) 1#32).setReg (ctlEntryAt 0 0 + 4) 0x1080#32).ask (tSc 0x080 [0] false)) (tB.claimed { tClaim 1 with pages := 16 }), taken_of (by decide), by decide, by decide, by decide, by decide, by decide, by decide, by decide, hj⟩,
   ⟨0, 63, tSc 0x081 [0] false, 0, tS (tHost.ask (tSc 0x081 [0] false)) (tNvme 1), taken_of (by decide), by decide, by decide, by decide⟩,
   ⟨0, tSc 0x081 [0] false, 0, tS (tHost.ask (tSc 0x081 [0] false)) (tB.claimed (tClaim 1)), taken_of (by decide), by decide, by decide, by decide⟩⟩

/-- The hypotheses of RegisterAccesses are met, clause by clause. -/
theorem witness_RegisterAccesses :
    (∃ (o : Nat) (v : Word) (ecc : List (Nat × Bool)) (n : BenchId) (s : State), s.dev.hub.up = true ∧ (s.dev.bench n).awake = true ∧ o < 0xE0000 ∧ o % 4 = 0) ∧
    (∃ (v : Word) (n : BenchId) (s : State), s.dev.hub.up = true ∧ (s.dev.bench n).awake = true ∧ (s.dev.bench n).sweepSt = 0) ∧
    (∃ (o : Nat) (v : Word) (n : BenchId) (s : State), s.dev.hub.up = true ∧ (s.dev.bench n).awake = true ∧ o < 0xE0000 ∧ o % 4 = 0 ∧ benchReg? o = none) ∧
    (∃ (o : Nat) (v : Word) (n : BenchId) (s : State), s.dev.hub.up = true ∧ (s.dev.bench n).awake = false ∧ o < 0x10000000000 ∧ o % 4 = 0) ∧
    (∃ (a : Nat) (v : Word) (s : State), s.dev.hub.up = true ∧ 0x10000000 ≤ a ∧ a + 4 ≤ 0x10800000 ∧ a % 4 = 0) ∧
    (∃ (ag : Agent) (a : Nat) (v : Word) (ecc : List (Nat × Bool)) (s : State), (s.dev.hub.up = false ∨ ownPath ag = false)) ∧
    (∃ (o : Nat) (v : Nat) (n : BenchId) (s : State), s.dev.hub.up = true ∧ (s.dev.bench n).awake = true ∧ o ∈ benchRcRegs ∧ v = ((s.dev.bench n).reg o).toNat ∧ v % 2 = 1) ∧
    (∃ (o : Nat) (n : BenchId) (s : State), s.dev.hub.up = true ∧ (s.dev.bench n).awake = true ∧ o ∈ benchRcRegs ∧ ((s.dev.bench n).reg o).toNat % 2 = 0) ∧
    (∃ (id : Word) (w1 : Word) (n : BenchId) (s : State), (s.dev.bench n).live = true) ∧
    (∃ (id : Word) (n : BenchId) (s : State), (s.dev.bench n).live = true ∧ id.toNat / 2 ^ 31 = 0 ∧ benchTallyNamed id.toNat = true) ∧
    (∃ (id : Word) (v : Nat) (s : State), ({ s.dev with hub := s.dev.hub.setReg (R.irq_TALLY_SEL 0) id } : Device).tallyOf id.toNat = some v) ∧
    (∃ (v : Word) (ecc : List (Nat × Bool)) (s : State), s.dev.hub.up = true ∧ s.dev.hub.dbgOk .engineDbg R.dbg_DBG_ACC = true ∧ v.toNat % 4 = 3) ∧
    (∃ (v : Word) (ecc : List (Nat × Bool)) (s : State), s.dev.hub.up = true ∧ s.dev.hub.dbgOk .engineDbg R.dbg_DBG_ACC = true ∧ v.toNat % 4 = 0) ∧
    (∃ (v : Word) (ecc : List (Nat × Bool)) (s : State), s.dev.hub.up = true) ∧
    (∃ (a : Nat) (v : Word) (ecc : List (Nat × Bool)) (s : State), s.dev.hub.up = true ∧ s.dev.hub.dbgOk .engineDbg R.dbg_DBG_ACC = true ∧ v.toNat % 16 = 9 ∧ a = s.dev.hub.wordsAt (R.dbg_DBG_ADDR 0) 2 % 2 ^ 48 ∧ a % 4 = 0 ∧ s.dev.hub.accReach a 4 = false) ∧
    (∃ (a : Nat) (v : Word) (s : State), s.dev.hub.up = true ∧ s.dev.hub.fw.lc ≠ 3 ∧ s.dev.hub.flag R.dbg_DBG_SESSION_FULL = true ∧ v.toNat % 16 = 10 ∧ a = s.dev.hub.wordsAt (R.dbg_DBG_ADDR 0) 2 % 2 ^ 48 ∧ a % 4 = 0 ∧ 0x10000000 ≤ a ∧ a + 4 ≤ 0x107F0000) ∧
    (∃ (a : Nat) (x : Nat) (v : Word) (s : State), s.dev.hub.up = true ∧ s.dev.hub.fw.lc ≠ 3 ∧ s.dev.hub.flag R.dbg_DBG_SESSION_FULL = true ∧ v.toNat % 16 = 9 ∧ a = s.dev.hub.wordsAt (R.dbg_DBG_ADDR 0) 2 % 2 ^ 48 ∧ a % 4 = 0 ∧ 0x10000000 ≤ a ∧ a + 4 ≤ 0x107F0000 ∧ x = leNat (memBytes s.dev.hub.mem a 4)) :=
  ⟨⟨0xDFFFC, 1#32, [], 0, tS tH tB, by decide, by decide, by decide, by decide⟩,
   ⟨5#32, 0, tS tH tB, by decide, by decide, by decide⟩,
   ⟨0xDFFFC, 1#32, 0, tS tH tB, by decide, by decide, by decide, by decide, by decide⟩,
   ⟨0xFFFFFFFFFC, 1#32, 0, tS tH (tB.inSt .off), by decide, by decide, by decide, by decide⟩,
   ⟨0x107FFFFC, 5#32, tS tH tB, by decide, by decide, by decide, by decide⟩,
   ⟨.foreman, 0, 1#32, [], tS { tH with fw := { tH.fw with hubUp := false } } tB, by decide⟩,
   ⟨R.match_OP_STATUS, 5, 0, tS tH (tB.setReg R.match_OP_STATUS 5#32), by decide, by decide, by decide, by decide, by decide⟩,
   ⟨R.match_OP_STATUS, 0, tS tH tB, by decide, by decide, by decide, by decide⟩,
   ⟨0#32, 0#32, 0, tS tH tB, by decide⟩,
   ⟨0x78000000#32, 0, tS tH tB, by decide, by decide, by decide⟩,
   ⟨0#32, 0, tS tH tB, by decide⟩,
   ⟨3#32, [], tS (tH.setReg R.dbg_DBG_SESSION 0xFFFFFFFF#32) tB, by decide, by decide, by decide⟩,
   ⟨4#32, [], tS (tH.setReg R.dbg_DBG_SESSION 0xFFFFFFFF#32) tB, by decide, by decide, by decide⟩,
   ⟨3#32, [], tS tH tB, by decide⟩,
   ⟨0x200000, 9#32, [], tS (((tH.setFld R.dbg_DBG_SESSION_ENGINE_MASK 1).setReg (R.dbg_DBG_ADDR 0) 0x200000#32)) tB, by decide, by decide, by decide, by decide, by decide, by decide⟩,
   ⟨0x107EFFFC, 10#32, tS (((tH.setReg R.dbg_DBG_SESSION 0xFFFFFFFF#32).setReg (R.dbg_DBG_ADDR 0) 0x107EFFFC#32)) tB, by decide, by decide, by decide, by decide, by decide, by decide, by decide, by decide⟩,
   ⟨0x10000000, 0, 9#32, tS (((tH.setReg R.dbg_DBG_SESSION 0xFFFFFFFF#32).setReg (R.dbg_DBG_ADDR 0) 0x10000000#32)) tB, by decide, by decide, by decide, by decide, by decide, by decide, by decide, by decide, by decide⟩⟩

/-- The hypotheses of SecurityCommands are met, clause by clause. -/
theorem witness_SecurityCommands :
    (∃ (k : Nat) (v : Nat) (s : State), s.dev.hub.up = true ∧ k < 16 ∧ s.dev.hub.fw.fuses.owner k = some 0 ∧ s.dev.hub.fw.lc = 0 ∧ s.dev.hub.flag R.dbg_DBG_SESSION_FULL = true ∧ v = s.dev.hub.wordsAt (R.dbg_FUSE_PROG_DATA 0) 8) ∧
    (∃ (k : Nat) (v : Nat) (x : Nat) (f : Nat) (s : State), s.dev.hub.up = true ∧ k < 16 ∧ s.dev.hub.fw.fuses.owner k = some 0 ∧ s.dev.hub.fw.lc = 0 ∧ s.dev.hub.flag R.dbg_DBG_SESSION_FULL = true ∧ v = s.dev.hub.wordsAt (R.dbg_FUSE_PROG_DATA 0) 8 ∧ x = Nat.xor v f % 2 ^ 256 ∧ x ≠ v) ∧
    (∃ (port : Bool) (k : Nat) (f : Nat) (s : State), s.dev.hub.up = true ∧ ((port = false ∨ s.dev.hub.fw.lc ≠ 0 ∨ s.dev.hub.flag R.dbg_DBG_SESSION_FULL = false ∨ s.dev.hub.fw.fuses.owner (k % 16) ≠ some 0))) ∧
    (∃ (s : State), s.dev.hub.up = true ∧ s.dev.hub.fw.lc = 0 ∧ s.dev.hub.fw.fuses.ownerBoot ≠ 0 ∧ s.dev.hub.fw.fuses.ownerDebug ≠ 0 ∧ s.dev.hub.fw.fuses.ownerKek ≠ 0 ∧ s.dev.hub.fw.fuseBad = 0) ∧
    (∃ (s : State), s.dev.hub.dbgAnswers = true ∧ s.dev.hub.fw.lc ≠ 0) ∧
    (∃ (c : Instr) (s : State), (c = .lcSecure false ∨ c = .lcReturn false ∨ c = .lcScrap false) ∧ s.dev.hub.dbgAnswers = true) ∧
    (∃ (s : State), s.dev.hub.up = true ∧ s.dev.hub.fw.lc = 1 ∧ tokShape s.dev.hub.token [3] = true) ∧
    (∃ (s : State), s.dev.hub.dbgAnswers = true ∧ s.dev.hub.fw.lc ≠ 1) ∧
    (∃ (s : State), s.dev.hub.up = true ∧ s.dev.hub.fw.lc = 1 ∧ tokShape s.dev.hub.token [4] = false) ∧
    (∃ (port : Bool) (s : State), s.dev.hub.dbgAnswers = true ∧ tokShape s.dev.hub.token [1, 2] = false) ∧
    (∃ (port : Bool) (s : State), s.dev.hub.dbgAnswers = true ∧ tokShape s.dev.hub.token [1, 2] = true ∧ tokType s.dev.hub.token = 2 ∧ s.dev.hub.fw.lc ≠ 1 ∧ s.dev.hub.flag R.dbg_DBG_SESSION_FULL = false) ∧
    (∃ (port : Bool) (s : State), s.dev.hub.dbgAnswers = true ∧ s.dev.hub.flag R.dbg_DBG_SESSION_FULL = false) ∧
    (∃ (port : Bool) (k : Nat) (m : Nat) (s : State), s.dev.hub.dbgAnswers = true ∧ k < 15 ∧ m = s.dev.hub.fld R.dbg_DBG_SESSION_ENGINE_MASK ∧ bit m k = true) ∧
    (∃ (i : Image) (s : State), s.dev.hub.up = true ∧ s.dev.hub.fw.image = some i) ∧
    (∃ (src : Bool) (h : Hub) (s : State), s.dev.hub.up = true ∧ s.dev.hub.fw.sealing = none ∧ h = (s.dev.hub.setFld R.seal_SEAL_CTL_OP 0).setFld R.seal_SEAL_CTL_SRC (if src then 1 else 0) ∧ (src && h.flag R.seal_SEAL_LOCK_DEVSEAL_LOCK) = false) ∧
    (∃ (h : Hub) (s : State), s.dev.hub.up = true ∧ s.dev.hub.fw.sealing = none ∧ h = (s.dev.hub.setFld R.seal_SEAL_CTL_OP 0).setFld R.seal_SEAL_CTL_SRC 1 ∧ h.flag R.seal_SEAL_LOCK_DEVSEAL_LOCK = true) ∧
    (∃ (src : Bool) (h : Hub) (s : State), s.dev.hub.up = true ∧ s.dev.hub.fw.sealing = none ∧ h = (s.dev.hub.setFld R.seal_SEAL_CTL_OP 1).setFld R.seal_SEAL_CTL_SRC (if src then 1 else 0) ∧ (src && h.flag R.seal_SEAL_LOCK_DEVSEAL_LOCK) = false) ∧
    (∃ (src : Bool) (s : State), s.dev.hub.up = true ∧ s.dev.hub.fw.sealing.isSome = true) ∧
    (∃ (h : Hub) (s : State), s.dev.hub.up = true ∧ s.dev.hub.fw.sealing = none ∧ h = (s.dev.hub.setFld R.seal_SEAL_CTL_OP 2).setFld R.seal_SEAL_CTL_SRC 0) ∧
    (∃ (o : SealOp) (s : State), s.dev.hub.fw.sealing = some o ∧ ((o.op ≠ 2 ∨ o.result ≠ 0))) ∧
    (∃ (o : SealOp) (x : Nat × Device) (s : State), s.dev.hub.fw.sealing = some o ∧ o.op = 2 ∧ o.result = 0 ∧ x = s.dev.deliverKey (benchOf (s.dev.hub.fld R.seal_SEAL_TARGET_BENCH)) (s.dev.hub.fld R.seal_SEAL_TARGET_KIND) (s.dev.hub.fld R.seal_SEAL_TARGET_INDEX) o.key) ∧
    (∃ (s : State), s.dev.hub.fw.sealing = none) ∧
    (∃ (n : BenchId) (s : State), (s.dev.hub.ryuner && (s.dev.bench n).live && s.dev.hub.archives n (s.dev.bench n) && (s.dev.bench n).dramUp && (s.dev.bench n).flag R.dram_DRAM_STATUS_RETAINED && s.dev.hub.fw.sealing.isNone) = true) ∧
    (∃ (n : BenchId) (s : State), (s.dev.hub.ryuner && (s.dev.bench n).live && s.dev.hub.archives n (s.dev.bench n) && (s.dev.bench n).dramUp && (s.dev.bench n).flag R.dram_DRAM_STATUS_RETAINED && s.dev.hub.fw.sealing.isNone) = true ∧ (s.dev.bench n).dram.reqs = [] ∧ ((∀ k i, k < 2 → i < 16384 → memBytes (s.dev.bench n).mem (dramBase + (s.dev.bench n).archiveAt k i) 1 = [0#8]))) ∧
    (∃ (n : BenchId) (s : State), (s.dev.hub.ryuner && (s.dev.bench n).live && s.dev.hub.archives n (s.dev.bench n) && (s.dev.bench n).dramUp && (s.dev.bench n).flag R.dram_DRAM_STATUS_RETAINED && s.dev.hub.fw.sealing.isNone) = false) :=
  ⟨⟨7, 5, tS ((tH.setReg R.dbg_DBG_SESSION 0xFFFFFFFF#32).setReg (R.dbg_FUSE_PROG_DATA 0) 5#32) tB, by decide, by decide, by decide, by decide, by decide, by decide⟩,
   ⟨7, 5, 4, 1, tS ((tH.setReg R.dbg_DBG_SESSION 0xFFFFFFFF#32).setReg (R.dbg_FUSE_PROG_DATA 0) 5#32) tB, by decide, by decide, by decide, by decide, by decide, by decide, by decide, by decide⟩,
   ⟨true, 5, 0, tS tH tB, by decide, by decide⟩,
   ⟨tS { tH with fw := { tH.fw with fuses := { tH.fw.fuses with ownerBoot := 1, ownerDebug := 2, ownerKek := 3 } } } tB, by decide, by decide, by decide, by decide, by decide, by decide⟩,
   ⟨tS { tH with fw := { tH.fw with lc := 1 } } tB, by decide, by decide⟩,
   ⟨.lcScrap false, tS tH tB, by decide, by decide⟩,
   ⟨tS (tH.setReg (R.dbg_DBG_TOKEN 0) 0xFF030001#32 |> fun h => { h with fw := { h.fw with lc := 1 } }) tB, by decide, by decide, by decide⟩,
   ⟨tS tH tB, by decide, by decide⟩,
   ⟨tS { tH with fw := { tH.fw with lc := 1 } } tB, by decide, by decide, by decide⟩,
   ⟨true, tS tH tB, by decide, by decide⟩,
   ⟨false, tS (tH.setReg (R.dbg_DBG_TOKEN 0) 0xFF020001#32) tB, by decide, by decide, by decide, by decide, by decide⟩,
   ⟨false, tS tH tB, by decide, by decide⟩,
   ⟨true, 14, 0xFFFF, tS (tH.setReg R.dbg_DBG_SESSION 0xFFFFFFFF#32) tB, by decide, by decide, by decide, by decide⟩,
   ⟨⟨0, 0, 0⟩, tS tH tB, by decide, by decide⟩,
   ⟨true, _, tS tH tB, by decide, by decide, rfl, by decide⟩,
   ⟨_, tS (tH.setFld R.seal_SEAL_LOCK_DEVSEAL_LOCK 1) tB, by decide, by decide, rfl, by decide⟩,
   ⟨false, _, tS tH tB, by decide, by decide, rfl, by decide⟩,
   ⟨false, tS { tH with fw := { tH.fw with sealing := some ⟨0, 0, [], []⟩ } } tB, by decide, by decide⟩,
   ⟨_, tS tH tB, by decide, by decide, rfl⟩,
   ⟨⟨0, 0, [], []⟩, tS { tH with fw := { tH.fw with sealing := some ⟨0, 0, [], []⟩ } } tB, by decide, by decide⟩,
   ⟨⟨2, 0, [], []⟩, _, tS { tH with fw := { tH.fw with sealing := some ⟨2, 0, [], []⟩ } } tB, by decide, by decide, by decide, rfl⟩,
   ⟨tS tH tB, by decide⟩,
   ⟨0, tS (tH.setFld (R.pcr_BENCH_CTL_DRAM_RETAIN 0) 1) ({ tB.withDram.setFld R.dram_DRAM_STATUS_RETAINED 1 with power := { tB.power with dramEn := true } }), by decide⟩,
   ⟨0, tS (tH.setFld (R.pcr_BENCH_CTL_DRAM_RETAIN 0) 1) ({ tB.withDram.setFld R.dram_DRAM_STATUS_RETAINED 1 with power := { tB.power with dramEn := true } }), by decide, by decide, fun _ _ _ _ => rfl⟩,
   ⟨0, tS tH tB, by decide⟩⟩

/-- The hypotheses of EveryStepHandsItsEventsOver are met, clause by clause. -/
theorem witness_EveryStepHandsItsEventsOver :
    (∃ (s : State) (t : State), s.eventsHandedOver ∧ step s = .next t) :=
  ((⟨_, rfl⟩ : ∃ t, step State.reset = .next t)).elim fun t ht => ⟨State.reset, t, (by decide : ∀ n : BenchId, (State.reset.dev.bench n).evq = []), ht⟩

/-- The hypotheses of BenchesAreIsolated are met, clause by clause. -/
theorem witness_BenchesAreIsolated :
    (∃ (c : Instr) (n : BenchId) (s : State) (t : State), benchCmd c = some n ∧ s.dev.hub = t.dev.hub ∧ s.dev.bench n = t.dev.bench n) :=
  ⟨.meterRefresh 0 [], 0, State.reset, State.reset, rfl, rfl, rfl⟩

/-! ## WellFormed refuses an ill-formed term for each of its checks -/

/-- Ill-formed terms, one for each check. -/
theorem test_wf_refuses_1 :
    ([.crossingTrained 0 12 true, .portEnable 0 4 0#32, .portDisable 0 4 0#32, .laneReset 0 4 0#32, .disableFrameEnd 0 4, .signalPresent (.bench 0) 4,
    .signalLoss (.bench 0) 4, .lockLoss (.bench 0) 4, .attemptSucceeds (.bench 0) 4, .attemptFails (.bench 0) 4, .rxFrameStart 0 4 [1#8] 15, .rxFrameStart 0 3 [] 15,
    .rxFrameStart 0 3 [1#8] 16, .rxHeaderPresent 0 4, .rxEndStatus 0 4 true true 0 0, .stationCommit 0 32 0#32, .pauseFrameRx 0 4 65535,
    .pauseFrameRx 0 3 65536, .pfcFrameRx 0 4 255 (List.replicate 8 0), .pfcFrameRx 0 3 256 (List.replicate 8 0),
    .pfcFrameRx 0 3 255 (List.replicate 7 0), .pauseTimerExpired (.bench 0) 4 (some 7), .pauseTimerExpired (.bench 0) 3 (some 8), .txFrame (.bench 0) 4 15 [],
    .txFrame (.bench 0) 3 16 [], .txUnderrun 0 4 0, .pauseRequestChange (.bench 0) 4, .pauseRepeatTimer (.bench 0) 4, .pauseModeChange (.bench 0) 4, .freqCountDone 0 (2 ^ 32),
    .calComplete 0 4, .txTsRead 0 4 3, .txTsRead 0 3 4, .ppsInTsRead 0 3, .sideFrameRx [] .whole true, .firstCutAdmit 0 4 [],
    .nodeCommit 0 256, .startNodeWrite 0 2 0#32, .excClassWrite 0 2 0#32, .recipeWrite 0 4096 0#32, .hitBitmapRead 0 8192 4,
    .hitBitmapRead 0 8188 5, .templateCommit 0 1024, .saCommit 0 16384, .saKeyZeroised 0 16384, .schedDecision 0 4 0, .mtrCommit 0 32768,
    .qctxCommit 0 8192, .qctxClearHwm 0 8192, .gateCommit 0 4, .gateCancel 0 4, .gateTakeover 0 4, .gateEntryAdvance 0 4,
    .hopAllocPool 0 8, .alu 0 8 7 [], .alu 0 7 8 [], .addi 0 8 7 [], .addi 0 7 8 [], .andi 0 8 7 [], .andi 0 7 8 []] : List Instr).all (fun i => !i.wf) = true := by decide

/-- Ill-formed terms, one for each check. -/
theorem test_wf_refuses_2 :
    ([.ori 0 8 7 [], .ori 0 7 8 [], .xori 0 8 7 [], .xori 0 7 8 [], .slti 0 8 7 [], .slti 0 7 8 [], .sltiu 0 8 7 [], .sltiu 0 7 8 [],
    .shi 0 8 7 [], .shi 0 7 8 [], .movw 0 8 7 [], .movw 0 7 8 [], .ext 0 8 7 [], .ext 0 7 8 [], .exts 0 8 7 [], .exts 0 7 8 [],
    .ins 0 8 7 [], .ins 0 7 8 [], .ldl 0 8 7 [], .ldl 0 7 8 [], .stl 0 8 7 [], .stl 0 7 8 [], .ldb 0 8 7 [], .ldb 0 7 8 [], .stb 0 8 7 [],
    .stb 0 7 8 [], .ldd 0 8 7 [], .ldd 0 7 8 [], .std 0 8 7 [], .std 0 7 8 [], .lddl 0 8 7 [], .lddl 0 7 8 [], .stdl 0 8 7 [],
    .stdl 0 7 8 [], .aadd 0 8 7 [], .aadd 0 7 8 [], .acas 0 8 7 [], .acas 0 7 8 [], .beq 0 8 7 [], .beq 0 7 8 [], .bne 0 8 7 [],
    .bne 0 7 8 [], .blt 0 8 7 [], .blt 0 7 8 [], .bge 0 8 7 [], .bge 0 7 8 [], .bltu 0 8 7 [], .bltu 0 7 8 [], .bgeu 0 8 7 [],
    .bgeu 0 7 8 [], .jal 0 8 7 [], .jal 0 7 8 [], .jalr 0 8 7 [], .jalr 0 7 8 [], .chrd 0 8 7 [], .chrd 0 7 8 [], .chwr 0 8 7 [],
    .chwr 0 7 8 [], .fork 0 8 7 [], .fork 0 7 8 []] : List Instr).all (fun i => !i.wf) = true := by decide

/-- Ill-formed terms, one for each check. -/
theorem test_wf_refuses_3 :
    ([.join 0 8 7 [], .join 0 7 8 [], .wacq 0 8 7 [], .wacq 0 7 8 [], .wrel 0 8 7 [], .wrel 0 7 8 [], .top 0 8 7 [], .top 0 7 8 [],
    .hop 0 8 7 [], .hop 0 7 8 [], .hsub 0 8 7 [], .hsub 0 7 8 [], .waitc 0 8 7 [], .waitc 0 7 8 [], .mfs 0 8 7 [], .mfs 0 7 8 [],
    .notice 0 8 7 [], .notice 0 7 8 [], .trap 0 8 7 [], .trap 0 7 8 [], .halt 0 8 7 [], .halt 0 7 8 [], .illegalInstruction 0 8 7 [],
    .illegalInstruction 0 7 8 [], .coreStart 0 8, .coreStop 0 8, .coreStopWalk 0 8, .threadTerminate 0 8 7, .threadTerminate 0 7 8,
    .threadResume 0 8 7, .threadResume 0 7 8, .chanCfgWrite 0 15 0#32, .chanCfgWrite 0 256 0#32, .inboxDeliver 0 8, .dbgStop 0 true 8 255,
    .dbgStop 0 true 7 256, .dbgResume 0 true 8 255, .dbgResume 0 true 7 256, .dbgStep 0 true 8 255, .dbgStep 0 true 7 256,
    .linkL0 0 0 true 4 2 0 0 0 0, .linkL0 0 0 true 3 3 0 0 0 0, .configRead 8192 .tag10, .configWrite 8192 .tag10 0, .bmeClear 8192,
    .bmeSet 8192, .flrStart 8192, .flrDone 8192, .hostMemRead 8192 2 0 4096 true 2 [], .hostMemRead 8191 3 0 4096 true 2 [],
    .hostMemRead 8191 2 0 4097 true 2 [], .hostMemRead 8191 2 0 4096 true 5 [], .hostMemWrite 8192 2 0 [] true true 2 [],
    .hostMemWrite 8191 3 0 [] true true 2 [], .hostMemWrite 8191 2 0 [] true true 5 [], .hostCompletion 0 8192 0 [] 7 true,
    .hostCompletion 0 8191 0 [] 8 true, .readTimeout 0 8192 0, .tagQuarantineEnd 0 8192 0, .winCommit 0 2048 true] : List Instr).all (fun i => !i.wf) = true := by decide

/-- Ill-formed terms, one for each check. -/
theorem test_wf_refuses_4 :
    ([.vectorUnmask 8192 2047, .vectorUnmask 8191 2048, .pfD3hot 8192, .pfD0 8192, .doorbellWrite 8192 0 1 0 none true,
    .doorbellWrite 8191 0 0 0 none true, .descArrive 0 16384, .descRefetch 0 16384, .cqIntTimer 0 16384, .claimDrained 0 256,
    .quiesceLimitExpired 0 256, .claimResetDone 0 256, .flashIdentifyDone 0 2 0 0 0 0 [], .flashTrain 0 2, .flashTrainDone 0 2 true,
    .flashDb 0 2 0#32, .flashRingReset 0 2, .flashEntryReread 0 2, .flashOpFetch 0 2, .flashRead 0 2 15, .flashRead 0 1 16,
    .flashProgram 0 2 15 [], .flashProgram 0 1 16 [], .flashErase 0 2 15, .flashErase 0 1 16, .flashReadRaw 0 2 15, .flashReadRaw 0 1 16,
    .flashGetFeature 0 2 15, .flashGetFeature 0 1 16, .flashSetFeature 0 2 15, .flashSetFeature 0 1 16, .flashReadId 0 2 15,
    .flashReadId 0 1 16, .flashReadParam 0 2 15, .flashReadParam 0 1 16, .flashRetire 0 2 15, .flashRetire 0 1 16, .flashResetLun 0 2 15,
    .flashResetLun 0 1 16, .dieReady 0 2 15 true [] [], .dieReady 0 1 16 true [] [], .codewordDecoded 0 2 15 7 true 0 [] [],
    .codewordDecoded 0 1 16 7 true 0 [] [], .codewordDecoded 0 1 15 8 true 0 [] [], .dieOpTimeout 0 2 15, .dieOpTimeout 0 1 16,
    .flashDoneMsg 0 2 15, .flashDoneMsg 0 1 16, .xtsEnable 0 64, .xtsDisable 0 64, .xtsSlotZeroised 0 64, .nvmeRegAccess 0 64 4095 none,
    .nvmeRegAccess 0 63 4096 none, .nvmeCcWrite 0 64 0#32, .nvmeSqDoorbell 0 64 63 0#32, .nvmeSqDoorbell 0 63 64 0#32,
    .nvmeCqDoorbell 0 64 63 0#32, .nvmeCqDoorbell 0 63 64 0#32, .nvmeCplCommit 0 8 7 0#32, .nvmeCplCommit 0 7 8 0#32] : List Instr).all (fun i => !i.wf) = true := by decide

/-- Ill-formed terms, one for each check. -/
theorem test_wf_refuses_5 :
    ([.dramRetire 0 4, .mbxInPush 4128 0#32, .mbxOutPop 4128, .mbxAckRead 4128, .dbToFmWrite 4128 0#32, .dbToHostRaise 4128 0#32,
    .adminSqDoorbell 4128 0#64, .adminCqDoorbell 4128 0#64, .mbxGo 4128, .adminCommand 4112 true,
     .identify 4128, .noticeGet 4128, .adminCreate 4128, .adminDestroy 4128,
    .managerSet 4128, .eventRoute 4128, .tallyRead 4128, .benchStart 4128 true, .benchStop 4128 true, .benchStatus 4128,
    .graphLoad 4128 true, .ruleWrite 4128 true, .genSwap 4128, .tableOp 4128 () true, .learnPolicy 4128, .tableSweep 4128, .portSet 4128,
    .tmWrite 4128 true, .gateLoad 4128 true, .timeCmd 4128, .keyLoad 4128 true, .saWrite 4128 true, .debugOpen 4128 true, .debugClose 4128,
    .attest 4128, .engineLoad 4128 () true, .engineCtl 4128, .claimCreate 4128, .claimQuiesce 4128 true, .claimResume 4128,
    .claimReset 4128 true, .claimRemove 4128, .claimSetShare 4128, .windowSet 4128, .ringCreate 4128, .ringStart 4128, .ringStop 4128,
    .ringDestroy 4128, .ringSetStep 4128, .nvmeGrant 4128, .nvmeRemove 4128, .nsCreate 4128, .nsDelete 4128,
    .fuseProgCmd true 16 (2 ^ 256 - 1), .fuseProgCmd true 15 (2 ^ 256), .dbgCmdClose true 16, .leakTick none 11, .hubFaultReset 0,
    .hubFaultReset 4] : List Instr).all (fun i => !i.wf) = true := by decide

/-- Ill-formed terms, one for each check. -/
theorem test_wf_refuses_6 :
    ([.thermalSensorRead (List.replicate 16 0#12), .anPageReceived (.bench 0) 4 []] : List Instr).all (fun i => !i.wf) = true := by decide

/-- The greatest values that the checks of the first commands allow. -/
theorem test_wf_admits :
    ([.crossingTrained 0 11 true, .portEnable 0 3 0#32, .portDisable 0 3 0#32, .laneReset 0 3 0#32, .disableFrameEnd 0 3, .signalPresent (.bench 0) 3,
    .signalLoss (.bench 0) 3, .lockLoss (.bench 0) 3, .attemptSucceeds (.bench 0) 3, .attemptFails (.bench 0) 3, .rxFrameStart 0 3 [1#8] 15, .rxHeaderPresent 0 3,
    .rxEndStatus 0 3 true true 0 0, .stationCommit 0 31 0#32, .pauseFrameRx 0 3 65535, .pfcFrameRx 0 3 255 (List.replicate 8 0),
    .pauseTimerExpired (.bench 0) 3 (some 7), .txFrame (.bench 0) 3 15 [], .txUnderrun 0 3 0, .pauseRequestChange (.bench 0) 3, .pauseRepeatTimer (.bench 0) 3,
    .pauseModeChange (.bench 0) 3, .freqCountDone 0 (2 ^ 32 - 1), .calComplete 0 3, .txTsRead 0 3 3, .ppsInTsRead 0 2, .sideFrameRx [1#8] .whole true,
    .firstCutAdmit 0 3 [], .nodeCommit 0 255, .startNodeWrite 0 1 0#32, .excClassWrite 0 1 0#32, .recipeWrite 0 4095 0#32,
    .hitBitmapRead 0 8188 4, .templateCommit 0 1023, .saCommit 0 16383, .saKeyZeroised 0 16383, .schedDecision 0 3 0, .mtrCommit 0 32767,
    .qctxCommit 0 8191, .qctxClearHwm 0 8191, .gateCommit 0 3, .gateCancel 0 3, .gateTakeover 0 3, .gateEntryAdvance 0 3,
    .hopAllocPool 0 7, .alu 0 7 7 [], .addi 0 7 7 [], .andi 0 7 7 [], .ori 0 7 7 [], .xori 0 7 7 [], .slti 0 7 7 [], .sltiu 0 7 7 [],
    .shi 0 7 7 [], .movw 0 7 7 [], .ext 0 7 7 [], .exts 0 7 7 [], .ins 0 7 7 [], .ldl 0 7 7 [], .stl 0 7 7 [], .ldb 0 7 7 []] : List Instr).all Instr.wf = true := by decide


/-! ## Results that the spec states

Each expected value stands in a worked example or a rule of spec/. -/

/-- No row of the table gives an encoding, so no word spells a command. -/
theorem test_no_word_spells_a_command : ([0, 8, 16, 32, 64] : List Nat).all (fun k => ([0, 1, 0x4882400C] : List Nat).all (fun w =>
    decodeTableWord k w = none)) = true := by decide

/-- Spec 02, residence: 500,000,104.75 ns in and 500,002,441.5 ns out turn a correctionField of 0x1_8000 into 0x922_4000. -/
theorem test_residence : addResidence 0x18000 ⟨true, false, 0, 500000104, 12, 1⟩ ⟨true, false, 0, 500002441, 8, 3⟩ = 0x9224000 := by decide

/-- A node from its sixteen words. -/
def exNode (l : List Nat) : Nat := leNat (l.flatMap (leBytes 4))
/-- The graph of the worked example of spec 03; node 0x10's words stand there, the others follow from its table of nodes. -/
def exGraph (i : Nat) : Nat :=
  match i with
  | 0x00 => exNode [0x8002, 14, 0x30C, 0, 0x18000, 0x18606, 0, 0, 0xFFFF86DD, 0x104, 0xFFFF0800, 0x108]
  | 0x04 => exNode [0x9002, 40, 0x106, 0, 0x41008, 0x42018, 0, 0, 0x00FF0011, 0x110, 0x00FF0000, 0x10C, 0x00FF002C, 0x10E]
  | 0x0C => exNode [0x2, 0x1C00108, 0x100, 0, 0, 0, 0, 0, 0x00FF0011, 0x110]
  | 0x10 => exNode [0xA30A, 8, 0x302, 0, 0x13000, 0, 0, 0, 0xFFFF12B5, 0x114]
  | 0x14 => exNode [0xB41E, 8, 0, 0, 0xF404]
  | _ => 0
/-- Its frame. -/
def exFrame : List Byte :=
  beBytes 6 0x024B0000010A ++ beBytes 6 0x024B00000733 ++ beBytes 2 0x86DD ++ List.replicate 6 0#8 ++ [0#8, 64#8] ++
  beBytes 16 0x20010DB8000A00000000000000000005 ++ beBytes 16 0x20010DB8000A00000000000000000009 ++ [17#8, 0#8] ++ List.replicate 6 0#8 ++
  beBytes 8 0xD43112B500000000 ++ beBytes 8 0x0800000000001F4A00 ++ List.replicate 50 0#8
/-- Its walk. -/
def exWalk : Walk := walk ⟨exFrame, 1514, 1, 0, exGraph, fun _ => false⟩ 16 0 0 Walk.start
/-- Spec 03, worked example: hops, last node, END_CURSOR, class, header offsets, no flag and no spoil code. -/
theorem test_walk : (exWalk.hops, exWalk.last, exWalk.endc, exWalk.cls, exWalk.hdr, exWalk.flags, exWalk.spoil) =
    (5, 0x14, 78, 0x41, [0, 14, 62, 70, 0xFFFF, 0xFFFF, 0xFFFF, 0xFFFF], 0, 0) := by decide
/-- The same: field-vector bytes 48 to 54 are D4 31 12 B5 00 1F 4A, and byte 82 holds HOPS and ENTRY_WAIT. -/
theorem test_field_vector :
    let fv := fieldVector exWalk { tPkt with gen := 1 } 3
    slice fv 48 7 = beBytes 7 0xD43112B5001F4A ∧ leNat (slice fv 82 1) = 5 + 32 * 3 ∧ fv.length = 96 := by decide

/-- Spec 04, one address on two ports: the learning key is 00 78 02 4b 00 00 03 21. -/
theorem test_learning_key :
    keyOf (beBytes 6 0x024B00000001 ++ beBytes 6 0x024B00000321 ++ beBytes 2 0x2078 ++ List.replicate 82 0#8)
      [0xFF0F310C, 0xFFFF1300, 0xFFFF2306, 0] 1 = beBytes 8 0x0078024B00000321 := by decide

/-- Template 9 of the example of spec 05: control word 0x2DB2, offsets 0x002E220E, strip word 0x9. -/
def exTemplate : Template := leBytes 4 0x2DB2 ++ leBytes 4 0x002E220E ++ leBytes 4 9 ++ List.replicate 116 0#8
/-- Spec 05: on the inner frame of 1,436 bytes it pushes 50, the VNI 2A 11 lies at 47 and 48 behind a 0 at 46. -/
theorem test_template_push :
    (editOf ⟨0, 0x130000, 0x2A11⟩ exTemplate [] 0 1436 0).map (fun e => (e.strip, e.push.length, slice e.push 46 3)) =
      some (0, 50, [0x00#8, 0x2A#8, 0x11#8]) := by decide
/-- Spec 05: with L = 1,486 the IPv4 total length is 1,472 and the UDP length 1,452. -/
theorem test_template_lengths :
    let p := { tPkt with start := 128, len := 1486, fcs := 0, ended := true }
    let b := (tB.withPkts [p]).writeFix p ⟨some 142, false, 20, some 162⟩
    beNat (b.pktBytes p 16 2) = 1472 ∧ beNat (b.pktBytes p 38 2) = 1452 := by decide
/-- Spec 05: the first action strips the 78 bytes before END_CURSOR. -/
theorem test_strip_point : stripPoint (leBytes 4 0x2000 ++ leBytes 4 0 ++ leBytes 4 8 ++ List.replicate 116 0#8) (List.replicate 86 0#8 ++ leBytes 2 78) 0
    = some 78 := by decide

/-- A meter of the example of spec 07. -/
def exMeter (rows : List (Nat × Nat)) (k : Buckets) : List Nat × Buckets :=
  rows.foldl (fun a x => let r := colourOf 0 x.2 (refill 0x19999A 0x333333 3000 6000 a.2 x.1); (a.1 ++ [r.1], r.2)) ([], k)
/-- Spec 07, colouring: green, green, yellow, yellow, red, green, yellow. -/
theorem test_meter_colours : (exMeter [(0, 1500), (100, 1500), (200, 1500), (300, 1500), (400, 1500), (15400, 1500), (15500, 1522)]
    ⟨3000 * 2 ^ 24, 6000 * 2 ^ 24, 0⟩).1 = [0, 0, 1, 1, 2, 0, 1] := by decide
/-- Spec 07, finish tags: A3 to 0x0100 gets 3,000 and, after v = 2,000, the next tags follow from the larger of v and the queue's last tag. -/
theorem test_finish_tags : [finishTag 0 0 1000 4096, finishTag 0 1000 1000 4096, finishTag 0 0 1000 2048, finishTag 0 0 1500 1024,
    finishTag 0 2000 1000 2048, finishTag 0 2000 1000 4096] = [1000, 2000, 2000, 6000, 4000, 3000] := by decide

/-- The lists of the example of spec 07 (takeover) on port 0 of a Chisel bench with 400G ports: entries are OPEN and ns. -/
def exGates (b : Bench) : Bench :=
  let put := fun (b : Bench) (a : Nat) (l : List (Nat × Nat)) => l.zipIdx.foldl (fun b x => (b.setLe (a + 8 * x.2) 4 x.1.1).setLe (a + 8 * x.2 + 4) 4 x.1.2) b
  let b := put b (gateActive 0) [(0x80, 200000), (0x7F, 790000), (0, 10000)]
  let b := put b (gateShadow 0) [(0x80, 100000), (0x7F, 395000), (0, 5000)]
  let b := ((b.setFld (R.tm_GATE_STATUS_ACTIVE 0) 1).setFld (R.tm_GATE_STATUS_ACTIVE_LEN 0) 3).setFld (R.tm_GATE_SHADOW_LEN_LEN 0) 3
  { b.setGate 0 ⟨12000000000 * 2 ^ 32, 0, false, false, 0⟩ with power := { b.power with profile := 1, portMode := 2 }, time := { b.time with sec := 12, ns := 3250000 } }
/-- The commit of the example, whose GATE_START is 12 s and these ns. -/
def exCommit (ns : Nat) : Bench :=
  (((exGates tB).setReg (R.tm_GATE_START 0 0) (BitVec.ofNat 32 ns)).setReg (R.tm_GATE_START 0 1) 12#32).gateCommit 0
/-- Spec 07, takeover: the commit leaves the new list pending with its start. -/
theorem test_gate_commit : (exCommit 3500000).gatePending 0 = true ∧ ((exCommit 3500000).gate 0).start = 12003500000 * 2 ^ 32 := by decide
/-- A commit with a start in the past takes over where the old list begins its next cycle, at 12.004 s, with START_PAST = 1. -/
theorem test_gate_past : ((exCommit 3100000).gate 0).start = 12004000000 * 2 ^ 32 ∧ (exCommit 3100000).flag (R.tm_GATE_STATUS_START_PAST 0) = true := by decide
/-- The class-5 frame of 1,518 bytes that is ready at 12.003 499 970 s does not pass; it passes where no list is pending. -/
theorem test_gate_frame : (exCommit 3500000).gatePasses 0 5 1518 (12003499970 * 2 ^ 32) = false ∧ (exGates tB).gatePasses 0 5 1518 (12003499970 * 2 ^ 32) = true ∧
    (exCommit 3500000).gatePasses 0 5 1518 (12003600000 * 2 ^ 32) = true := by decide

/-- The carve of the example of spec 08, with buffer 5 of pool 1 granted at GEN 3 to the face and pool 1 holding RESERVE 2. -/
def exCarve (free : Nat) : Bench :=
  let b := (tB.setFld R.hopper_HOPPER_CTL_ENABLE 1).setFld R.hopper_HOPPER_CTL_READY 1
  let b := [(0, 16384), (1, 3072), (2, 256), (3, 46)].foldl (fun b (x : Nat × Nat) => b.setFld (R.hopper_POOL_COUNT_COUNT x.1) x.2) b
  ((b.setRec (0x800000 + 8 * (0x402D00 / 256)) 1 1 0 0 3 0).setFld (R.hopper_POOL_RESERVE_RESERVE 1) 2).setFld (R.hopper_POOL_FREE_FREE 1) free
/-- Spec 08, R247: the pools start at 0, 0x40_0000, 0xAC_0000 and 0xD2_0000 and fill the packet buffer exactly. -/
theorem test_carve : [0, 1, 2, 3, 4].map (exCarve 3).poolStart = [0, 0x400000, 0xAC0000, 0xD20000, 0x1000000] ∧ (exCarve 3).carveOk false 0 = true := by decide
/-- Spec 08, R252: handle 0x1940_2D00 is buffer 5 of pool 1 at GEN 3; 0x1940_2D80 fails the alignment check. -/
theorem test_handle : (exCarve 3).checkHandle 0x19402D00 = 0 ∧ (exCarve 3).checkHandle 0x19402D80 = 3 ∧ (exCarve 3).checkHandle 0x11402D00 = 5 ∧
    (exCarve 3).bufOff 1 5 = 0x402D00 := by decide
/-- Spec 08, R260: at 3 free the face and any other rank may take; at 2 only the face may. -/
theorem test_reserve : ([Rank.face, .haulR, .engine].map ((exCarve 3).mayTake · 1)) = [true, true, true] ∧
    ([Rank.face, .haulR, .engine].map ((exCarve 2).mayTake · 1)) = [true, false, false] := by decide

/-- The thread of the example of spec 09: on a word at 0x40 with these registers, over a packet at the bench address in g2. -/
def exThread (w : Nat) (regs : List (Nat × DWord)) : Bench :=
  ((((tB.setFld (R.engine_CORE_STATUS_STATE 1) 1).setThr 13 { Thread.free with st := 1, pc := 0x40, regs := regs }).setLe 0x7000100 4 w).setFld
    (R.hopper_POOL_COUNT_COUNT 0) 1).setLe 0x100008C 2 0xDD86
/-- A register and the PC of thread 13 of bench 0 after a command. -/
def exAfter (o : Host.Outcome State Fault Refusal) (g : Nat) : Option (DWord × Nat) :=
  match o with
  | .next s => some (((s.dev.bench 0).thr 13).greg g, ((s.dev.bench 0).thr 13).pc)
  | _ => none
/-- Spec 09: LDB 0x4882_400C reads bytes 0x86 and 0xDD, so g4 = 0xDD86. -/
theorem test_ldb : exAfter (exec (.ldb 0 1 5 []) (tS tH (exThread 0x4882400C [(2, 0x100001000080#64)]))) 4 = some (0xDD86#64, 0x41) := by decide
/-- Spec 09: BSW16 0x0084_0013 makes g4 = 0x86DD. -/
theorem test_bsw16 : exAfter (exec (.alu 0 1 5 []) (tS tH (exThread 0x00840013 [(4, 0xDD86#64)]))) 4 = some (0x86DD#64, 0x41) := by decide
/-- Spec 09: MOVW 0x20B0_86DD sets g5 to 0x86DD. -/
theorem test_movw : exAfter (exec (.movw 0 1 5 []) (tS tH (exThread 0x20B086DD [(5, 0xFFFFFFFFFFFFFFFF#64)]))) 5 = some (0x86DD#64, 0x41) := by decide
/-- Spec 09: BEQ 0x8085_0008 is taken, 8 words on. -/
theorem test_beq : exAfter (exec (.beq 0 1 5 []) (tS tH (exThread 0x80850008 [(4, 0x86DD#64), (5, 0x86DD#64)]))) 4 = some (0x86DD#64, 0x48) := by decide

/-- Spec 15, R442: offset 0x4_2F3A_9C40 of bench 3 maps to rank 0, row 0x1_0BCE, column 113 and, after the XOR, bank 0b00100. -/
theorem test_dram_place : (DramMap.mk (24 * 2 ^ 30) 128 0 [0x21, 0x42, 0x84, 0x108, 0x210]).place 0x42F3A9C40 = ⟨0, 0x10BCE, 4, 113⟩ := by decide
/-- The bytes of a rank of x4 devices of 24 Gbit are 24 GiB. -/
theorem test_rank_size : rankSize 1 0 = 24 * 2 ^ 30 := by decide

/-- The words of the example of spec 17. -/
def exWords : List Word := [0x002C6060#32, 0x2531#32, 0#32, 0x100200#32, 0x40040#32, 0x400#32, 0x10#32]
/-- Mailbox 8 of PF 0 of port 1, link A, with words in it and GO set. -/
def exBox (ws : List Word) : Hub := tH.setMbx 8 { Mailbox.reset true (fnKey 1 false 0) none with inq := ws, dbFm := 1 }
/-- Spec 17: a GO on the seven words is accepted as CLAIM_CREATE with CMD_ID 0x2C and six operands. -/
theorem test_mbx_go : ((exBox exWords).mbxGo 8).fw.cmds = [{ id := 0, mbx := 8, admin := false, cmdId := 0x2C, opcode := 0x060, ops := [0x2531, 0, 0x100200, 0x40040, 0x400, 0x10], asked := 0, parts := [], failed := false, data := [], sqPos := (0, 0), begun := false, dead := false }] := by decide
/-- Spec 17: with an eighth word it ends with BAD_LENGTH, and nothing is accepted. -/
theorem test_mbx_go_longer : ((exBox (exWords ++ [0#32])).mbxGo 8).fw.cmds = [] ∧
    (((exBox (exWords ++ [0#32])).mbxGo 8).mbx 8).ack.map (fun a => getBits a.toNat 0 8) = some rcBadLength := by decide

/-- Spec 12, laps: ring of 8, producer 0 lap 0 against consumer 0 lap 1 is full; 4 on lap 0 against 0 on lap 0 holds 4. -/
theorem test_laps : countOf 8 false 0 0 0 1 = 8 ∧ countOf 8 false 4 0 0 0 = 4 ∧ countOf 8 false 0 1 0 1 = 0 := by decide
/-- Spec 18: with 24 GiB the key archive starts at view offset 0x5_FFE0_0000. -/
theorem test_archive : ((tB.setFld R.dram_DRAM_CFG_DENSITY 1).setFld R.dram_DRAM_CFG_RANKS 0).archiveBase = 0x5FFE00000 := by decide
/-- Spec 13: the command 0x8000 with SRC 0x1580_0000_1000, DST 0x1580_0000_1100 and LENGTH 0x400 overlaps and moves its last chunk first. -/
theorem test_memmove : ((HaulCmd.fresh 0 8 0 none 0 [0x8000, 0x400, 0x1000, 0x1580, 0x1100, 0x1580, 0, 0] none).nextChunk) = (768, 256) := by decide
/-- Spec 13: with one destination fragment the first chunk comes first. -/
theorem test_fragment_copy : (HaulCmd.fresh 0 8 0 none 0 [0x8000, 0x400, 0x1000, 0x1580, 0x6000040, 0x1500, 0x100, 0] none).nextChunk = (0, 256) := by decide
end

section
/-! SUPPORT. The lookup of a packet (R130 to R134): what a slot's image reads, when a slot holds a hit, and the hit that the match
stage reports while no slot it reads is damaged. -/
namespace Sys2Proof.Machine

/-! ## The image of a slot (R128) -/

@[simp] theorem Bench.length_bytes (b : Bench) (a n : Nat) : (b.bytes a n).length = n := memBytes_length _ _ _

/-- A slice that lies inside a run of bench bytes is the run of bytes at that offset. -/
theorem Bench.slice_bytes (b : Bench) (a n i k : Nat) (h : i + k ≤ n) : slice (b.bytes a n) i k = b.bytes (a + i) k := by
  have hcut : ((b.bytes a n).drop i).take k = b.bytes (a + i) k := by
    unfold Bench.bytes
    rw [memBytes_drop, memBytes_take _ _ _ _ (by omega)]
  simp only [slice, hcut, Bench.length_bytes, Nat.sub_self, List.replicate_zero, List.append_nil]

theorem Bench.slCtl_slot (b : Bench) (i : Nat) : slCtl (b.slot i) = b.le (slotAddr i + 60) 4 := by
  unfold slCtl Bench.slot Bench.le
  rw [Bench.slice_bytes _ _ _ _ _ (by omega)]

/-- KEY_LEN is a field of six bits, so the key lies within the slot. -/
theorem Bench.slKey_slot (b : Bench) (i : Nat) : slKey (b.slot i) = b.bytes (slotAddr i) (slKeyLen (b.slot i)) :=
  memBytes_take _ _ _ _ (getBits_lt _ 7 6).le

/-- The key of a slot is a given one when KEY_LEN is its length and that many bytes are its bytes (R130). -/
theorem Bench.slKey_slot_eq_iff (b : Bench) (i : Nat) (key : List Byte) :
    slKey (b.slot i) = key ↔ slKeyLen (b.slot i) = key.length ∧ b.bytes (slotAddr i) key.length = key := by
  rw [Bench.slKey_slot]
  constructor
  · intro h
    have hlen : slKeyLen (b.slot i) = key.length := by rw [← h, Bench.length_bytes]
    exact ⟨hlen, hlen ▸ h⟩
  · rintro ⟨hlen, h⟩
    rw [hlen, h]

/-! ## The hit (R130) -/

theorem bit_eq_testBit (x k : Nat) : bit x k = x.testBit k := by
  simp [bit, Nat.testBit_eq_decide_div_mod_eq]

/-- A field of GEN_MASK's two bits meets the mask of one generation in that generation's bit. -/
theorem getBits_land_two_pow_ne_zero (x lo w g : Nat) (hg : g < w) :
    Nat.land (getBits x lo w) (2 ^ g) ≠ 0 ↔ bit x (lo + g) = true := by
  have hbit : (getBits x lo w).testBit g = bit x (lo + g) := by
    simp [getBits, bit_eq_testBit, Nat.testBit_mod_two_pow, Nat.testBit_div_two_pow, hg, Nat.add_comm]
  change getBits x lo w &&& 2 ^ g ≠ 0 ↔ _
  rw [Nat.and_two_pow, hbit]
  cases bit x (lo + g) <;> simp

theorem Bench.holds_iff_hitAt (b : Bench) {g : Nat} (table i : Nat) (key : List Byte) (hg : g < 2) :
    b.holds table (2 ^ g) key i = true ↔ b.hitAt g table key i := by
  have hgen := getBits_land_two_pow_ne_zero (b.le (slotAddr i + 60) 4) 1 2 g hg
  simp only [Bench.holds, Bool.and_eq_true, decide_eq_true_eq, Bench.slKey_slot_eq_iff, slValid, slGen, slTable, slKeyLen,
    Bench.slCtl_slot, hgen, and_assoc]
  rfl

theorem Bench.hitAt_of_findKey_eq_some (b : Bench) {g table i : Nat} {key : List Byte} (hg : g < 2)
    (h : b.findKey table (2 ^ g) key = some i) : i ∈ slotsOf (b.probes table key) ∧ b.hitAt g table key i :=
  ⟨List.mem_of_find?_eq_some h, (b.holds_iff_hitAt table i key hg).1 (List.find?_some h)⟩

theorem Bench.not_hitAt_of_findKey_eq_none (b : Bench) {g table : Nat} {key : List Byte} (hg : g < 2)
    (h : b.findKey table (2 ^ g) key = none) : ∀ i ∈ slotsOf (b.probes table key), ¬ b.hitAt g table key i := fun i hi hhit =>
  List.find?_eq_none.1 h i hi ((b.holds_iff_hitAt table i key hg).2 hhit)

/-! ## The match stage without ECC errors (R126, R133) -/

@[simp] theorem corSlots_nil (l : List Nat) : corSlots [] l = 0 := by
  simp [corSlots, Ecc.cor]

@[simp] theorem badSlot_nil (l : List Nat) : badSlot [] l = none := by
  simp [badSlot, Ecc.unc]

@[simp] theorem Bench.correctable_zero (b : Bench) (c : Nat) : b.correctable c 0 = b := rfl

/-- The control word of the recipe that a packet's class and generation select (R123). -/
def Bench.pktCtl (b : Bench) (p : Pkt) (fv : List Byte) : Nat := b.recipe p.gen (leNat (slice fv 80 1)) 0
/-- The segment words of that recipe. -/
def Bench.pktSegs (b : Bench) (p : Pkt) (fv : List Byte) : List Nat := [4, 5, 6, 7].map (b.recipe p.gen (leNat (slice fv 80 1)))
/-- The forwarding lookup of a packet: the recipe's TABLE_ID, the packet's generation and the forwarding key. -/
def Bench.forwardLookup (b : Bench) (p : Pkt) (fv : List Byte) : Option Nat :=
  b.findKey (getBits (b.pktCtl p fv) 3 4) (2 ^ p.gen) (keyOf fv (b.pktSegs p fv) 0)

/-- A recipe that is not valid spoils the packet under 0x33. -/
theorem Bench.matchStage_of_not_valid (b : Bench) (p : Pkt) (fv : List Byte) (ecc : Ecc) (h : bit (b.pktCtl p fv) 0 = false) :
    (b.matchStage p fv ecc).1.spoil = 0x33 ∧ (b.matchStage p fv ecc).1.hit = none := by
  rw [Bench.pktCtl] at h
  simp [Bench.matchStage, h]

/-- A recipe that fails the checks of R126 spoils the packet under 0x34. -/
theorem Bench.matchStage_of_not_recipeOk (b : Bench) (p : Pkt) (fv : List Byte) (ecc : Ecc) (hv : bit (b.pktCtl p fv) 0 = true)
    (h : recipeOk (b.pktCtl p fv) (b.pktSegs p fv) = false) :
    (b.matchStage p fv ecc).1.spoil = 0x34 ∧ (b.matchStage p fv ecc).1.hit = none := by
  rw [Bench.pktCtl] at hv
  rw [Bench.pktCtl, Bench.pktSegs] at h
  simp only [Bench.matchStage, hv, h, Bool.not_true, Bool.not_false, Bool.false_eq_true, if_true, if_false, and_self]

/-- Under a recipe that passes the checks the hit is the forwarding lookup's, where LOOKUP_EN asks for one. -/
theorem Bench.matchStage_hit_of_recipeOk (b : Bench) (p : Pkt) (fv : List Byte) (hv : bit (b.pktCtl p fv) 0 = true)
    (hok : recipeOk (b.pktCtl p fv) (b.pktSegs p fv) = true) :
    (b.matchStage p fv []).1.hit = if bit (b.pktCtl p fv) 1 then b.forwardLookup p fv else none := by
  rw [Bench.pktCtl] at hv
  rw [Bench.pktCtl, Bench.pktSegs] at hok
  simp only [Bench.matchStage, hv, hok, Bool.not_true, Bool.false_eq_true, if_false, corSlots_nil, badSlot_nil,
    Bench.correctable_zero]
  rfl

/-- A hit is the forwarding lookup's. -/
theorem Bench.forwardLookup_of_matchStage_hit (b : Bench) (p : Pkt) (fv : List Byte) {i : Nat}
    (h : (b.matchStage p fv []).1.hit = some i) : b.forwardLookup p fv = some i := by
  cases hv : bit (b.pktCtl p fv) 0 with
  | false => simp [(b.matchStage_of_not_valid p fv [] hv).2] at h
  | true =>
    cases hok : recipeOk (b.pktCtl p fv) (b.pktSegs p fv) with
    | false => simp [(b.matchStage_of_not_recipeOk p fv [] hv hok).2] at h
    | true =>
      rw [b.matchStage_hit_of_recipeOk p fv hv hok] at h
      exact (Option.ite_none_right_eq_some.1 h).2

/-- With LOOKUP_EN 1 and no spoil code, a miss is the forwarding lookup's. -/
theorem Bench.forwardLookup_of_matchStage_miss (b : Bench) (p : Pkt) (fv : List Byte)
    (h : (b.matchStage p fv []).1.hit = none) (hs : (b.matchStage p fv []).1.spoil = 0) (hen : bit (b.pktCtl p fv) 1 = true) :
    b.forwardLookup p fv = none := by
  cases hv : bit (b.pktCtl p fv) 0 with
  | false => simp [(b.matchStage_of_not_valid p fv [] hv).1] at hs
  | true =>
    cases hok : recipeOk (b.pktCtl p fv) (b.pktSegs p fv) with
    | false => simp [(b.matchStage_of_not_recipeOk p fv [] hv hok).1] at hs
    | true => simpa [b.matchStage_hit_of_recipeOk p fv hv hok, hen] using h

/-- Settles O21: a slot's image spells R130's five conditions, and what the match stage reports is the forwarding lookup's result. -/
theorem aHitIsAMatchingSlot : Obligations.AHitIsAMatchingSlot := by
  unfold Obligations.AHitIsAMatchingSlot
  refine ⟨fun b _ table i key hg => b.holds_iff_hitAt table i key hg, fun b _ _ _ _ hg h => b.hitAt_of_findKey_eq_some hg h,
    fun b _ _ _ hg h => b.not_hitAt_of_findKey_eq_none hg h, ?hit, ?miss⟩
  case hit =>
    intro b p fv i hg h
    exact b.hitAt_of_findKey_eq_some hg (b.forwardLookup_of_matchStage_hit p fv h)
  case miss =>
    intro b p fv hg h hs hen
    exact b.not_hitAt_of_findKey_eq_none hg (b.forwardLookup_of_matchStage_miss p fv h hs hen)

end Sys2Proof.Machine
end

section
/-! SUPPORT. What goes on in the engine cluster when an instruction has taken effect (R270, R301, R312): notices enter the port and threads
that wait go on. None of it touches a thread that does not wait, none of it raises an event that Ryuner answers with a notice (R490),
and in a quiet cluster nothing but the stall watch moves. -/
namespace Sys2Proof.Machine

/-! ## Events without a notice (R471, R490) -/

/-- None of the events is one that Ryuner tells its managers of: a change of the bench's state, of a security association, of media. -/
def Unnoticed (l : List Nat) : Prop := ∀ k ∈ l, k ∉ [0, 25, 39]

theorem unnoticed_nil : Unnoticed [] := fun _ h => absurd h List.not_mem_nil

theorem Unnoticed.append {l l' : List Nat} (h : Unnoticed l) (h' : Unnoticed l') : Unnoticed (l ++ l') := fun k hk =>
  (List.mem_append.1 hk).elim (h k) (h' k)

theorem Hub.eventNotice_of_unnoticed (h : Hub) (n : BenchId) {k : Nat} (hk : k ∉ [0, 25, 39]) : h.eventNotice n k = h := by
  simp only [List.mem_cons, List.not_mem_nil, or_false, not_or] at hk
  unfold Hub.eventNotice
  split_ifs
  · rfl
  · obtain ⟨hstate, hsa, hmedia⟩ := hk
    split
    · exact absurd rfl hstate
    · exact absurd rfl hsa
    · exact absurd rfl hmedia
    · rfl

/-- Events without a notice leave the firmware's state as it was. -/
theorem drainEvents_fw_of_unnoticed (n : BenchId) (l : List Nat) (h : Hub) (hl : Unnoticed l) : (drainEvents n h l).1.fw = h.fw := by
  induction l generalizing h with
  | nil => rfl
  | cons k t ih =>
    simp only [drainEvents]
    rw [ih _ fun x hx => hl x (List.mem_cons_of_mem k hx), Hub.eventNotice_of_unnoticed _ n (hl k List.mem_cons_self),
      Hub.raiseEvent_fw]

/-! ## Threads -/

@[simp] theorem Bench.thr_setThr_self (b : Bench) (i : Nat) (t : Thread) : (b.setThr i t).thr i = t := sparseGet_set_self _ _ _ _

theorem Bench.thr_setThr_ne (b : Bench) {i j : Nat} (t : Thread) (h : i ≠ j) : (b.setThr j t).thr i = b.thr i :=
  sparseGet_set_ne _ _ _ h

/-- A thread that its fault has stopped (R286). -/
def Thread.stopped (t : Thread) : Thread := { t with st := 2, wait := .none, dbg := t.dbg || t.stepped, stepped := false }

/-! ## The notice port (R310 to R312) -/

/-- A bench with other register words and the notice port of `e`: its notices and the slots in which notices wait for it. -/
def Bench.withPort (b : Bench) (regs : List (Nat × Word)) (e : EngineSt) : Bench :=
  { b with regs := regs
           eng := { b.eng with notices := e.notices, stallSlot := e.stallSlot, doorSlot := e.doorSlot, faultSlots := e.faultSlots } }

theorem Bench.setFld_eq_withPort {b b' : Bench} (f : Fld) (v : Nat) (h : ∃ r e, b' = b.withPort r e) :
    ∃ r e, b'.setFld f v = b.withPort r e := by
  obtain ⟨r, e, rfl⟩ := h
  exact ⟨_, e, rfl⟩

theorem Bench.chMark_eq_withPort {b b' : Bench} (k w : Nat) (h : ∃ r e, b' = b.withPort r e) :
    ∃ r e, b'.chMark k w = b.withPort r e := by
  unfold Bench.chMark
  split_ifs
  · exact Bench.setFld_eq_withPort _ _ h
  · exact h

/-- A step of the notice port changes registers and the port alone, or also ends one NOTICE instruction that waits. -/
theorem Bench.noticeStep_cases (b : Bench) :
    ∃ b', (b' = b ∨ ∃ j ∈ b.eng.blocked, ∃ ws, b' = b.unblock j ws) ∧ ∃ r e, b.noticeStep = b'.withPort r e := by
  unfold Bench.noticeStep
  extract_lets put
  have hput (b : Bench) (x : DWord × DWord) : ∃ r e, put b x = b.withPort r e := by
    dsimp only [put]
    have hqueued := fun w => Bench.chMark_eq_withPort (b := b) 3 w ⟨b.regs, { b.eng with notices := b.eng.notices ++ [x] }, rfl⟩
    split_ifs
    · exact Bench.setFld_eq_withPort _ _ (hqueued _)
    · exact hqueued _
  clear_value put
  have hkept : ∃ r e, b = b.withPort r e := ⟨b.regs, b.eng, rfl⟩
  split
  · exact ⟨b, .inl rfl, hkept⟩
  · split
    · exact ⟨b, .inl rfl, hput { b with eng := _ } _⟩
    · split
      · exact ⟨b, .inl rfl, hput { b with eng := _ } _⟩
      · split
        · exact ⟨b, .inl rfl, hput { b with eng := _ } _⟩
        · next t _ => exact ⟨b, .inl rfl, b.regs, { b.eng with faultSlots := t }, rfl⟩
        · split
          · next hwaits =>
            obtain ⟨j, hj, hnotice⟩ := List.exists_of_findSome?_eq_some hwaits
            split at hnotice
            · obtain ⟨rfl, -⟩ := Prod.mk.inj (Option.some.inj hnotice)
              exact ⟨_, .inr ⟨j, hj, _, rfl⟩, hput _ _⟩
            · cases hnotice
          · exact ⟨b, .inl rfl, hkept⟩

/-! ## What the rest of the engine cluster does while thread `i` does not wait -/

/-- From `b` to `b'` thread `i` is as it was, it has not begun to wait, and no event with a notice has been raised. -/
structure Bench.Spares (i : Nat) (b b' : Bench) : Prop where
  thr : b'.thr i = b.thr i
  blocked : i ∉ b.eng.blocked → i ∉ b'.eng.blocked
  evq : Unnoticed b.evq → Unnoticed b'.evq

namespace Bench.Spares

variable {i j : Nat} {b b' b'' : Bench}

theorem refl (b : Bench) : b.Spares i b := ⟨rfl, id, id⟩

theorem trans (h : b.Spares i b') (h' : b'.Spares i b'') : b.Spares i b'' :=
  ⟨h'.thr.trans h.thr, h'.blocked ∘ h.blocked, h'.evq ∘ h.evq⟩

theorem of_eq (heng : b'.eng = b.eng) (hevq : b'.evq = b.evq) : b.Spares i b' :=
  ⟨by unfold Bench.thr; rw [heng], by rw [heng]; exact id, by rw [hevq]; exact id⟩

theorem setFld (b : Bench) (f : Fld) (v : Nat) : b.Spares i (b.setFld f v) := of_eq rfl rfl

theorem setThr (b : Bench) (t : Thread) (h : i ≠ j) : b.Spares i (b.setThr j t) := ⟨b.thr_setThr_ne t h, id, id⟩

theorem thenRaise {k : Nat} (h : b.Spares i b') (hk : k ∉ [0, 25, 39]) : b.Spares i (b'.raise k) :=
  ⟨h.thr, h.blocked, fun hb => (h.evq hb).append (by simpa [Unnoticed] using hk)⟩

/-- A thread leaves the list of those that wait. -/
theorem unlist (b : Bench) (j : Nat) : b.Spares i { b with eng := { b.eng with blocked := b.eng.blocked.filter (· ≠ j) } } :=
  ⟨rfl, fun h hi => h (List.mem_of_mem_filter hi), id⟩

theorem complete (b : Bench) (ws : List (Nat × DWord)) (pc : Nat) (h : i ≠ j) : b.Spares i (b.complete j ws pc) :=
  (setThr b _ h).trans (unlist _ j)

theorem unblock (b : Bench) (ws : List (Nat × DWord)) (h : i ≠ j) : b.Spares i (b.unblock j ws) :=
  (setThr b _ h).trans (complete _ ws _ h)

theorem stallZero (b : Bench) : b.Spares i b.stallZero := of_eq rfl rfl

theorem faultThread (b : Bench) (code value : Nat) (h : i ≠ j) : b.Spares i (b.faultThread j code value) := by
  have hstopped : b.Spares i _ := (setThr b (b.thr j).stopped h).trans (unlist _ j)
  unfold Bench.faultThread
  dsimp only
  split_ifs
  · exact hstopped.trans (thenRaise ⟨rfl, id, id⟩ (by decide))
  · exact hstopped.trans ⟨rfl, id, id⟩

theorem chMark (b : Bench) (k w : Nat) : b.Spares i (b.chMark k w) := by
  unfold Bench.chMark
  split_ifs
  · exact setFld ..
  · exact refl b

theorem thenCountLearn (h : b.Spares i b') : b.Spares i b'.countLearn := by
  unfold Bench.countLearn
  dsimp only
  split_ifs <;> exact h.trans (of_eq rfl rfl)

theorem freeInbox (b : Bench) (id : Option Nat) : b.Spares i (b.freeInbox id) := by
  cases id <;> exact of_eq rfl rfl

theorem takeLearn {x : LearnRec × Bench} (h : b.takeLearn = some x) : b.Spares i x.2 := by
  unfold Bench.takeLearn at h
  split at h
  · split_ifs at h
    obtain rfl := Option.some.inj h
    exact thenCountLearn ⟨rfl, id, id⟩
  · cases h

/-! A read of a channel -/

theorem takeMsg {k : Nat} {x : List DWord × Option Nat × Bench} (h : b.takeMsg j k = some x) : b.Spares i x.2.2 := by
  unfold Bench.takeMsg at h
  split at h
  · split at h
    · obtain rfl := Option.some.inj h; exact ⟨rfl, id, id⟩
    · cases h
  · split_ifs at h
    obtain ⟨r, hr, rfl⟩ := Option.map_eq_some_iff.1 h
    exact takeLearn hr
  · split at h
    · obtain rfl := Option.some.inj h; exact ⟨rfl, id, id⟩
    · cases h
  · split at h
    · obtain rfl := Option.some.inj h; exact ⟨rfl, id, id⟩
    · cases h

theorem nextWord {k : Nat} {x : DWord × Bool × Bench} (hij : i ≠ j) (h : b.nextWord j k = some x) : b.Spares i x.2.2 := by
  unfold Bench.nextWord at h
  dsimp only at h
  split at h
  · split_ifs at h
    · obtain rfl := Option.some.inj h; exact (setThr b _ hij).trans (freeInbox _ _)
    · obtain rfl := Option.some.inj h; exact setThr b _ hij
  · split at h
    · next hmsg =>
      have htaken := takeMsg (i := i) hmsg
      split_ifs at h
      · obtain rfl := Option.some.inj h; exact htaken.trans (freeInbox _ _)
      · obtain rfl := Option.some.inj h; exact htaken.trans (setThr _ _ hij)
    · cases h

theorem tryRead {k rd ra : Nat} (hij : i ≠ j) (h : b.tryRead j k rd ra = some b') : b.Spares i b' := by
  obtain ⟨x, hx, rfl⟩ := Option.map_eq_some_iff.1 h
  exact (nextWord hij hx).trans (unblock _ _ hij)

/-! A message of TM_SEND -/

theorem hopRefuse (b : Bench) (code op agent h : Nat) : b.Spares i (b.hopRefuse code op agent h) := by
  unfold Bench.hopRefuse
  dsimp only
  split_ifs <;> exact thenRaise ⟨rfl, id, id⟩ (by decide)

end Bench.Spares

/-- An operation on a buffer that meets no ECC error is applied, or refused under one code. -/
theorem Bench.hopOp_of_no_error (b : Bench) (op agent h arg refs : Nat) :
    (b.hopOp op agent h arg refs []).2 = b.hopApply op h (recordAddr (hPool h) (hOff h)) arg refs ∨
      ∃ c, (b.hopOp op agent h arg refs []).2 = b.hopRefuse c op agent h := by
  simp only [Bench.hopOp, Ecc.cor, Ecc.unc, List.filter_nil, List.length_nil, List.map_const', List.sum_replicate, smul_zero,
    List.any_nil, Bench.correctable_zero, List.filter_false, List.isEmpty_nil, Bool.not_true, Bool.false_eq_true, if_false]
  split
  · exact .inr ⟨_, rfl⟩
  · split
    · exact .inl rfl
    · exact .inr ⟨_, rfl⟩

theorem Bench.hopRefuse_tm (b : Bench) (c op agent h : Nat) : (b.hopRefuse c op agent h).tm = b.tm := by
  unfold Bench.hopRefuse
  dsimp only
  split_ifs <;> rfl

theorem Bench.hopGive_tm (b : Bench) (agent h arg refs : Nat) : (b.hopOp opGive agent h arg refs []).2.tm = b.tm := by
  obtain e | ⟨c, e⟩ := b.hopOp_of_no_error opGive agent h arg refs <;> rw [e]
  · rfl
  · exact b.hopRefuse_tm ..

namespace Bench.Spares

variable {i j : Nat} {b b' b'' : Bench}

theorem hopGive (b : Bench) (agent h arg refs : Nat) : b.Spares i (b.hopOp opGive agent h arg refs []).2 := by
  obtain e | ⟨c, e⟩ := b.hopOp_of_no_error opGive agent h arg refs <;> rw [e]
  · exact of_eq rfl rfl
  · exact hopRefuse ..

theorem thenCountQueues (h : b.Spares i b') : b.Spares i b'.countQueues := by
  unfold Bench.countQueues
  dsimp only
  split_ifs <;> exact h.trans (of_eq rfl rfl)

theorem thenAddPkt (h : b.Spares i b') (p : Pkt) : b.Spares i (b'.addPkt p) := h.trans (of_eq rfl rfl)

/-- A packet that finds room in the side entry. -/
theorem thenToSide (h : b.Spares i b') (p : Pkt) (hroom : b'.tm.side.length < 64) : b.Spares i (b'.toSide p) := by
  unfold Bench.toSide
  rw [if_neg (by omega)]
  exact thenCountQueues (h.trans (of_eq rfl rfl))

theorem tmSend (b : Bench) (m : List DWord) (hroom : b.tm.side.length < 64) : b.Spares i (b.tmSend j m) :=
  thenToSide (thenAddPkt (hopGive b ..) _) _ (by rwa [Bench.addPkt_tm, Bench.hopGive_tm])

theorem commitMsg (b : Bench) (k n : Nat) (h : i ≠ j) (hroom : b.roomFor k n = true) : b.Spares i (b.commitMsg j k) := by
  unfold Bench.commitMsg Bench.chHwm
  refine .trans ?_ (chMark ..)
  split_ifs with hk
  · simp only [Bench.roomFor, hk, if_true, decide_eq_true_eq] at hroom
    exact (setThr b _ h).trans (tmSend _ _ hroom)
  · exact (setThr b _ h).trans ⟨rfl, id, id⟩

/-! The other waits -/

theorem tryJoin {m rd : Nat} (hij : i ≠ j) (h : b.tryJoin j m rd = some b') : b.Spares i b' := by
  unfold Bench.tryJoin at h
  split_ifs at h
  obtain rfl := Option.some.inj h
  exact (setThr b _ hij).trans (unblock _ _ hij)

theorem tryWaitc {k rd : Nat} (hij : i ≠ j) (h : b.tryWaitc j k rd = some b') : b.Spares i b' := by
  unfold Bench.tryWaitc at h
  dsimp only at h
  split at h
  · cases h
  · obtain rfl := Option.some.inj h
    split_ifs
    · exact (setThr b _ hij).trans (faultThread _ _ _ hij)
    · exact (setThr b _ hij).trans (unblock _ _ hij)

theorem getD {o : Option Bench} (h : ∀ b', o = some b' → b.Spares i b') : b.Spares i (o.getD b) := by
  cases o with
  | none => exact refl b
  | some x => exact h x rfl

theorem serve (b : Bench) (h : i ≠ j) : b.Spares i (b.serve j) := by
  unfold Bench.serve
  dsimp only
  split
  · exact getD fun _ => tryRead h
  · split_ifs with hroom
    · exact (setThr b _ h).trans (faultThread _ _ _ h)
    · exact (commitMsg b _ _ h hroom).trans (unblock _ _ h)
    · exact refl b
  · exact getD fun _ => tryJoin h
  · exact getD fun _ => tryWaitc h
  · exact refl b

theorem foldl {f : Bench → Nat → Bench} (hf : ∀ (x : Bench) (j : Nat), i ≠ j → x.Spares i (f x j)) (l : List Nat) (hl : i ∉ l)
    (b : Bench) : b.Spares i (l.foldl f b) := by
  induction l generalizing b with
  | nil => exact refl b
  | cons j t ih =>
    obtain ⟨hj, ht⟩ := List.ne_and_not_mem_of_not_mem_cons hl
    exact (hf b j hj).trans (ih ht _)

theorem serveAll (b : Bench) (hi : i ∉ b.eng.blocked) : b.Spares i b.serveAll := by
  refine foldl (fun x j hj => ?_) _ hi b
  split
  · split_ifs
    · exact refl x
    · exact serve x hj
  · exact serve x hj

/-! The notice port -/

theorem noticeStep (b : Bench) (hi : i ∉ b.eng.blocked) : b.Spares i b.noticeStep := by
  obtain ⟨b', hb', r, e, heq⟩ := b.noticeStep_cases
  have hport : b'.Spares i b.noticeStep := heq ▸ ⟨rfl, id, id⟩
  obtain rfl | ⟨j, hj, ws, rfl⟩ := hb'
  · exact hport
  · have hne : i ≠ j := fun h => hi (h ▸ hj)
    exact (unblock b ws hne).trans hport

theorem pumpFuel (fuel : Nat) (b : Bench) (hi : i ∉ b.eng.blocked) : b.Spares i (Bench.pumpFuel fuel b) := by
  induction fuel generalizing b with
  | zero => exact refl b
  | succ fuel ih =>
    unfold Bench.pumpFuel
    split_ifs
    · exact refl b
    · have hnotice := noticeStep b hi
      have hserved := hnotice.trans (serveAll _ (hnotice.blocked hi))
      exact hserved.trans (ih _ (hserved.blocked hi))

theorem pump (b : Bench) (hi : i ∉ b.eng.blocked) : b.Spares i b.pump := by
  unfold Bench.pump Bench.judgeStall
  split_ifs
  · exact pumpFuel 130 b hi
  · exact pumpFuel 130 b hi
  · exact (pumpFuel 130 b hi).trans (stallZero _)

end Bench.Spares

/-! ## The rest of a quiet cluster -/

theorem Bench.judgeStall_eq (b : Bench) : b.judgeStall = b ∨ b.judgeStall = b.stallZero := by
  unfold Bench.judgeStall
  split_ifs
  · exact .inl rfl
  · exact .inl rfl
  · exact .inr rfl

theorem Bench.judgeStall_keeps (b : Bench) : b.judgeStall.mem = b.mem ∧ b.judgeStall.eng = b.eng ∧ b.judgeStall.pkts = b.pkts ∧
    b.judgeStall.tal = b.tal ∧ ∀ o, o ≠ R.engine_STALL_STATUS → b.judgeStall.reg o = b.reg o := by
  obtain e | e := b.judgeStall_eq <;> rw [e]
  · exact ⟨rfl, rfl, rfl, rfl, fun _ _ => rfl⟩
  · exact ⟨rfl, rfl, rfl, rfl, fun o ho => (Bench.reg_setFld_ne _ _ _ _ ho).trans (Bench.reg_setFld_ne _ _ _ _ ho)⟩

/-- With nothing that waits, only the stall watch is judged. -/
theorem Bench.pump_of_quiet (b : Bench) (h : b.quiet) : b.pump = b.judgeStall := by
  obtain ⟨hblocked, hfaults, hstall, hdoor⟩ := h
  simp [Bench.pump, Bench.pumpFuel, hblocked, hfaults, hstall, hdoor]

/-- Memory, tallies and threads are as they were, and no thread has begun to wait. -/
structure Bench.OnlyNotifies (b b' : Bench) : Prop where
  mem : b'.mem = b.mem
  tal : b'.tal = b.tal
  threads : b'.eng.threads = b.eng.threads
  blocked : b'.eng.blocked = b.eng.blocked

theorem Bench.OnlyNotifies.trans {b b' b'' : Bench} (h : b.OnlyNotifies b') (h' : b'.OnlyNotifies b'') : b.OnlyNotifies b'' :=
  ⟨h'.mem.trans h.mem, h'.tal.trans h.tal, h'.threads.trans h.threads, h'.blocked.trans h.blocked⟩

/-- With no thread that waits, the notice port alone goes on. -/
theorem Bench.noticeStep_onlyNotifies (b : Bench) (hnone : b.eng.blocked = []) : b.OnlyNotifies b.noticeStep := by
  obtain ⟨b', rfl | ⟨j, hj, -⟩, r, e, heq⟩ := b.noticeStep_cases
  · rw [heq]; exact ⟨rfl, rfl, rfl, rfl⟩
  · rw [hnone] at hj; cases hj

theorem Bench.serveAll_of_none_blocked (b : Bench) (hnone : b.eng.blocked = []) : b.serveAll = b := by
  unfold Bench.serveAll
  rw [hnone]
  rfl

theorem Bench.pumpFuel_onlyNotifies (fuel : Nat) (b : Bench) (hnone : b.eng.blocked = []) :
    b.OnlyNotifies (Bench.pumpFuel fuel b) := by
  induction fuel generalizing b with
  | zero => exact ⟨rfl, rfl, rfl, rfl⟩
  | succ fuel ih =>
    unfold Bench.pumpFuel
    split_ifs
    · exact ⟨rfl, rfl, rfl, rfl⟩
    · have hnotice := b.noticeStep_onlyNotifies hnone
      have hnone' := hnotice.blocked.trans hnone
      rw [Bench.serveAll_of_none_blocked _ hnone']
      exact hnotice.trans (ih _ hnone')

theorem Bench.pump_onlyNotifies (b : Bench) (hnone : b.eng.blocked = []) : b.OnlyNotifies b.pump := by
  have hfuel := Bench.pumpFuel_onlyNotifies 130 b hnone
  obtain ⟨hmem, heng, -, htal, -⟩ := (Bench.pumpFuel 130 b).judgeStall_keeps
  exact hfuel.trans ⟨hmem, htal, congrArg EngineSt.threads heng, congrArg EngineSt.blocked heng⟩

end Sys2Proof.Machine
end

section
/-! SUPPORT. What the ALU, MOVW, EXT, EXTS and INS do (R280, R281) in a state in which no event waits
(`State.eventsHandedOver`): all that O29 and O30 say. -/
namespace Sys2Proof.Machine

/-! ## Issue (R269, R270) -/

@[simp] theorem Ecc.wordBad_nil (o : Nat) : Ecc.wordBad [] o = false := rfl

@[simp] theorem Bench.wordCor_nil (b : Bench) (o : Nat) : b.wordCor [] o = b := rfl

/-- The bench in which an instruction of thread `i` takes effect: it is counted, and its slot is taken. -/
def Bench.issued (b : Bench) (i : Nat) : Bench := (b.tick (T.ISSUED (i / 8))).takeSlot i

theorem Bench.thr_issued_self (b : Bench) (i : Nat) :
    (b.issued i).thr i = { b.thr i with next := b.slotOf i + 8, stepped := (b.thr i).stepped || (b.thr i).step, step := false } :=
  Bench.thr_setThr_self _ _ _

theorem Bench.thr_issued_ne (b : Bench) {i j : Nat} (h : j ≠ i) : (b.issued i).thr j = b.thr j := Bench.thr_setThr_ne _ _ h

@[simp] theorem Bench.greg_thr_issued (b : Bench) (i r : Nat) : ((b.issued i).thr i).greg r = (b.thr i).greg r := by
  rw [Bench.thr_issued_self]
  rfl

@[simp] theorem Bench.issued_evq (b : Bench) (i : Nat) : (b.issued i).evq = b.evq := rfl
@[simp] theorem Bench.issued_mem (b : Bench) (i : Nat) : (b.issued i).mem = b.mem := rfl
@[simp] theorem Bench.issued_pkts (b : Bench) (i : Nat) : (b.issued i).pkts = b.pkts := rfl
@[simp] theorem Bench.issued_reg (b : Bench) (i o : Nat) : (b.issued i).reg o = b.reg o := rfl

/-- No fault is counted by the issue of an instruction. -/
theorem Bench.tally_issued (b : Bench) (i code : Nat) : (b.issued i).tally (T.FAULT code) = b.tally (T.FAULT code) :=
  Bench.tally_count_ne b 1 (by simp only [T.FAULT, T.ISSUED, tallyKey]; omega)

theorem issueOn_of_atWord {s : State} {n : BenchId} {i w op : Nat} {seq : Bool} (f : Nat → Nat → Ecc → Bench → Bench)
    (hw : AtWord s n i w) (hop : iOp w = op) :
    issueOn i [] (fun o => o = op) seq (onCore f) s.dev.hub (s.dev.bench n) =
      (s.dev.hub, (f i w [] ((s.dev.bench n).issued i)).pump) := by
  obtain ⟨-, hpwr, hissue, hword, hpc⟩ := hw
  have hnext : (seq && decide (pcMax ≤ ((s.dev.bench n).thr i).pc)) = false := by simp [hpc]
  simp only [issueOn, hissue, hpwr, hword, hop, hnext, Ecc.wordBad_nil, Bench.wordCor_nil, decide_true, Bool.not_true, Bool.or_self,
    Bool.false_eq_true, if_false]
  rfl

/-- An instruction that a thread at its word issues: what stands of the hub and the bench once it took effect and the rest of the engine
cluster went on. -/
theorem runsBoth_of_issue {cmd : Instr} {n : BenchId} {c t w op : Nat} {s : State} {seq : Bool} {f : Nat → Nat → Ecc → Bench → Bench}
    {x : Bench} {P : Hub → Bench → Prop} (he : exec cmd s = s.issue n c t [] op seq (onCore f)) (hw : AtWord s n (tid c t) w)
    (hop : iOp w = op) (hx : f (tid c t) w [] ((s.dev.bench n).issued (tid c t)) = x)
    (hp : ∀ l, P (drainEvents n s.dev.hub x.pump.evq).1 (x.pump.afterEvents l)) : RunsBoth cmd n s P := by
  have hissue := issueOn_of_atWord (seq := seq) f hw hop
  rw [hx] at hissue
  refine runsBoth_onLive he hw.1 fun l => ?_
  rw [← tid, hissue]
  exact hp l

/-! ## An instruction that retires -/

@[simp] theorem Bench.fin_evq (b : Bench) (i w : Nat) (v : DWord) : (b.fin i w v).evq = b.evq := rfl
@[simp] theorem Bench.fin_mem (b : Bench) (i w : Nat) (v : DWord) : (b.fin i w v).mem = b.mem := rfl
@[simp] theorem Bench.fin_pkts (b : Bench) (i w : Nat) (v : DWord) : (b.fin i w v).pkts = b.pkts := rfl
@[simp] theorem Bench.fin_reg (b : Bench) (i w o : Nat) (v : DWord) : (b.fin i w v).reg o = b.reg o := rfl
theorem Bench.thr_fin_ne (b : Bench) {i j : Nat} (w : Nat) (v : DWord) (h : j ≠ i) : (b.fin i w v).thr j = b.thr j :=
  Bench.thr_setThr_ne _ _ h
theorem Bench.blocked_fin (b : Bench) (i w : Nat) (v : DWord) : (b.fin i w v).eng.blocked = b.eng.blocked.filter (· ≠ i) := rfl
theorem Bench.not_mem_blocked_fin (b : Bench) (i w : Nat) (v : DWord) : i ∉ (b.fin i w v).eng.blocked := by simp [Bench.blocked_fin]
theorem Bench.quiet_fin {b : Bench} (h : b.quiet) (i w : Nat) (v : DWord) : (b.fin i w v).quiet := by
  obtain ⟨hblocked, hfaults, hstall, hdoor⟩ := h
  exact ⟨by simp [Bench.blocked_fin, hblocked], hfaults, hstall, hdoor⟩

theorem Bench.thr_fin_issued (b : Bench) (i w : Nat) (v : DWord) :
    ((b.issued i).fin i w v).thr i = (b.thr i).after [(iRD w, v)] ((b.thr i).pc + 1) (b.slotOf i + 8) := by
  refine (Bench.thr_setThr_self _ _ _).trans ?_
  simp only [Bench.thr_issued_self, Thread.after, List.foldl_cons, List.foldl_nil, Thread.setG]
  split_ifs <;> simp only [Bool.or_assoc]

/-- In a quiet cluster a completed instruction leaves memory, packets, the other threads and every register but the stall watch's. -/
theorem Bench.pump_fin_issued_of_quiet {b : Bench} (hq : b.quiet) (i w : Nat) (v : DWord) :
    ((b.issued i).fin i w v).pump.mem = b.mem ∧ (∀ j, j ≠ i → ((b.issued i).fin i w v).pump.thr j = b.thr j) ∧
      ((b.issued i).fin i w v).pump.pkts = b.pkts ∧
      ∀ o, o ≠ R.engine_STALL_STATUS → ((b.issued i).fin i w v).pump.reg o = b.reg o := by
  have hthr : ∀ j, j ≠ i → ((b.issued i).fin i w v).thr j = b.thr j := fun j hj =>
    ((b.issued i).thr_fin_ne w v hj).trans (b.thr_issued_ne hj)
  rw [Bench.pump_of_quiet _ (Bench.quiet_fin (b := b.issued i) hq i w v)]
  obtain ⟨hmem, heng, hpkts, -, hregs⟩ := ((b.issued i).fin i w v).judgeStall_keeps
  refine ⟨hmem.trans ((Bench.fin_mem ..).trans (Bench.issued_mem ..)), fun j hj => ?_,
    hpkts.trans ((Bench.fin_pkts ..).trans (Bench.issued_pkts ..)),
    fun o ho => (hregs o ho).trans ((Bench.fin_reg ..).trans (Bench.issued_reg ..))⟩
  unfold Bench.thr at hthr ⊢
  rw [heng]
  exact hthr j hj

/-- An instruction that writes RD and goes on to the next word retires, where no event waits in the bench. -/
theorem retires_of_fin {cmd : Instr} {n : BenchId} {c t w op : Nat} {s : State} {v : DWord} {f : Nat → Nat → Ecc → Bench → Bench}
    (he : exec cmd s = s.issue n c t [] op true (onCore f)) (hw : AtWord s n (tid c t) w) (hop : iOp w = op)
    (hev : (s.dev.bench n).evq = [])
    (hf : f (tid c t) w [] ((s.dev.bench n).issued (tid c t)) = ((s.dev.bench n).issued (tid c t)).fin (tid c t) w v) :
    Retires cmd n (tid c t) s [(iRD w, v)] (((s.dev.bench n).thr (tid c t)).pc + 1) (fun _ => False) := by
  refine runsBoth_of_issue he hw hop hf fun l => ?_
  generalize s.dev.bench n = b at *
  generalize tid c t = i at *
  have hrest := Bench.Spares.pump _ ((b.issued i).not_mem_blocked_fin i w v)
  have hquiet := hrest.evq (by rw [Bench.fin_evq, Bench.issued_evq, hev]; exact unnoticed_nil)
  refine ⟨drainEvents_fw_of_unnoticed _ _ _ hquiet, hrest.thr.trans (b.thr_fin_issued i w v), fun hq => ?_⟩
  obtain ⟨hmem, hthr, hpkts, hregs⟩ := Bench.pump_fin_issued_of_quiet hq i w v
  exact ⟨fun a _ => congrArg (memByte · a) hmem, hthr, hpkts, hregs⟩

/-! ## An instruction that faults (R286) -/

theorem Bench.thr_faultThread_self (b : Bench) (i code value : Nat) : (b.faultThread i code value).thr i = (b.thr i).stopped := by
  unfold Bench.faultThread
  dsimp only
  split_ifs <;> exact Bench.thr_setThr_self b i (b.thr i).stopped

theorem Bench.thr_faultThread_ne (b : Bench) {i j : Nat} (code value : Nat) (h : j ≠ i) :
    (b.faultThread i code value).thr j = b.thr j := (Bench.Spares.faultThread b code value h).thr

theorem Bench.faultThread_fields (b : Bench) (i code value : Nat) :
    (b.faultThread i code value).mem = b.mem ∧ (b.faultThread i code value).tal = (b.tick (T.FAULT code)).tal ∧
      (b.faultThread i code value).eng.blocked = b.eng.blocked.filter (· ≠ i) ∧
      ((b.faultThread i code value).evq = b.evq ∨ (b.faultThread i code value).evq = b.evq ++ [36]) := by
  unfold Bench.faultThread
  dsimp only
  split_ifs
  · exact ⟨rfl, rfl, rfl, .inr rfl⟩
  · exact ⟨rfl, rfl, rfl, .inl rfl⟩

theorem Bench.thr_faultThread_issued (b : Bench) (i code value : Nat) :
    ((b.issued i).faultThread i code value).thr i = (b.thr i).faulted (b.slotOf i + 8) := by
  rw [Bench.thr_faultThread_self, Bench.thr_issued_self]
  simp only [Thread.faulted, Thread.stopped, Bool.or_assoc]

/-- In a quiet cluster a fault leaves memory and the other threads, and is counted once. -/
theorem Bench.pump_faultThread_issued_of_quiet {b : Bench} (hq : b.quiet) (i code value : Nat) :
    ((b.issued i).faultThread i code value).pump.mem = b.mem ∧
      (∀ j, j ≠ i → ((b.issued i).faultThread i code value).pump.thr j = b.thr j) ∧
      ((b.issued i).faultThread i code value).pump.tally (T.FAULT code) = min tallyMax (b.tally (T.FAULT code) + 1) := by
  obtain ⟨hmem, htal, hblocked, -⟩ := (b.issued i).faultThread_fields i code value
  have hnone : ((b.issued i).faultThread i code value).eng.blocked = [] := by
    rw [hblocked, show (b.issued i).eng.blocked = [] from hq.1, List.filter_nil]
  have hrest := Bench.pump_onlyNotifies _ hnone
  refine ⟨hrest.mem.trans hmem, fun j hj => ?_, ?_⟩
  · calc ((b.issued i).faultThread i code value).pump.thr j
        = ((b.issued i).faultThread i code value).thr j := by unfold Bench.thr; rw [hrest.threads]
      _ = (b.issued i).thr j := Bench.thr_faultThread_ne _ code value hj
      _ = b.thr j := b.thr_issued_ne hj
  · calc ((b.issued i).faultThread i code value).pump.tally (T.FAULT code)
        = ((b.issued i).tick (T.FAULT code)).tally (T.FAULT code) := by unfold Bench.tally; rw [hrest.tal, htal]
      _ = min tallyMax ((b.issued i).tally (T.FAULT code) + 1) := Bench.tally_count_self _ _ _
      _ = min tallyMax (b.tally (T.FAULT code) + 1) := by rw [Bench.tally_issued]

/-- An instruction that faults, where no event waits in the bench. -/
theorem faults_of_faultThread {cmd : Instr} {n : BenchId} {c t w op code value : Nat} {s : State} {f : Nat → Nat → Ecc → Bench → Bench}
    (he : exec cmd s = s.issue n c t [] op true (onCore f)) (hw : AtWord s n (tid c t) w) (hop : iOp w = op)
    (hev : (s.dev.bench n).evq = [])
    (hf : f (tid c t) w [] ((s.dev.bench n).issued (tid c t)) = ((s.dev.bench n).issued (tid c t)).faultThread (tid c t) code value) :
    Faults cmd n (tid c t) s code := by
  refine runsBoth_of_issue he hw hop hf fun l => ?_
  generalize s.dev.bench n = b at *
  generalize tid c t = i at *
  obtain ⟨-, -, hblocked, hevq⟩ := (b.issued i).faultThread_fields i code value
  have hrest := Bench.Spares.pump ((b.issued i).faultThread i code value) (i := i) (by simp [hblocked])
  have hquiet := hrest.evq (by
    rw [Bench.issued_evq, hev] at hevq
    obtain e | e := hevq <;> rw [e]
    · exact unnoticed_nil
    · exact unnoticed_nil.append (by simp [Unnoticed]))
  exact ⟨drainEvents_fw_of_unnoticed _ _ _ hquiet, hrest.thr.trans (b.thr_faultThread_issued i code value),
    fun hq => Bench.pump_faultThread_issued_of_quiet hq i code value⟩

/-! ## The ALU (R280) -/

/-- The table of R280: FN and RD from the values of RA and RB. -/
def aluTable (a b : DWord) : List (Nat × DWord) :=
  [(0x00, a + b), (0x01, a - b), (0x02, a &&& b), (0x03, a ||| b),
    (0x04, a ^^^ b), (0x05, a &&& ~~~b), (0x06, a <<< (b.toNat % 64)), (0x07, a >>> (b.toNat % 64)),
    (0x08, a.sshiftRight (b.toNat % 64)), (0x09, BitVec.ofNat 64 (a.toNat * b.toNat % 2 ^ 64)),
    (0x0A, BitVec.ofNat 64 (a.toNat * b.toNat / 2 ^ 64)), (0x0B, if a.toInt < b.toInt then 1 else 0),
    (0x0C, if a.toNat < b.toNat then 1 else 0), (0x0D, BitVec.ofNat 64 (min a.toNat b.toNat)),
    (0x0E, BitVec.ofNat 64 (max a.toNat b.toNat)),
    (0x0F, BitVec.ofNat 64 (((List.range 64).find? (fun j => a.getLsbD (63 - j))).getD 64)),
    (0x10, BitVec.ofNat 64 ((List.range 64).filter (fun j => a.getLsbD j)).length),
    (0x11, BitVec.ofNat 64 (leNat (leBytes 8 a.toNat).reverse)), (0x12, BitVec.ofNat 64 (leNat (leBytes 4 a.toNat).reverse)),
    (0x13, BitVec.ofNat 64 (leNat (leBytes 2 a.toNat).reverse)),
    (0x14, BitVec.ofNat 64 ((leBytes 8 b.toNat).foldl crcByte (a.toNat % 2 ^ 32))),
    (0x15, BitVec.ofNat 64 (crcByte (a.toNat % 2 ^ 32) (BitVec.ofNat 8 b.toNat)))]

theorem dbool_slt (a b : DWord) : dbool (a.slt b) = if a.toInt < b.toInt then 1 else 0 := by simp [dbool, BitVec.slt]

theorem dbool_ult (a b : DWord) : dbool (a.ult b) = if a.toNat < b.toNat then 1 else 0 := by simp [dbool, BitVec.ult]

theorem mul_eq_ofNat (a b : DWord) : a * b = BitVec.ofNat 64 (a.toNat * b.toNat % 2 ^ 64) := by
  apply BitVec.eq_of_toNat_eq
  simp [BitVec.toNat_mul]

theorem ite_ult_eq_min (a b : DWord) : (if a.ult b then a else b) = BitVec.ofNat 64 (min a.toNat b.toNat) := by
  by_cases h : a.toNat < b.toNat
  · simp [BitVec.ult, h, min_eq_left h.le]
  · simp [BitVec.ult, h, min_eq_right (not_lt.1 h)]

theorem ite_ult_eq_max (a b : DWord) : (if a.ult b then b else a) = BitVec.ofNat 64 (max a.toNat b.toNat) := by
  by_cases h : a.toNat < b.toNat
  · simp [BitVec.ult, h, max_eq_right h.le]
  · simp [BitVec.ult, h, max_eq_left (not_lt.1 h)]

/-- The ALU computes R280's table. -/
theorem alu_of_mem_aluTable (a b : DWord) : ∀ x ∈ aluTable a b, alu x.1 a b = some x.2 := by
  simp only [aluTable, List.forall_mem_cons]
  exact ⟨rfl, rfl, rfl, rfl, rfl, rfl, rfl, rfl, rfl, congrArg some (mul_eq_ofNat a b), rfl, congrArg some (dbool_slt a b),
    congrArg some (dbool_ult a b), congrArg some (ite_ult_eq_min a b), congrArg some (ite_ult_eq_max a b),
    rfl, rfl, rfl, rfl, rfl, rfl, rfl, fun _ h => absurd h List.not_mem_nil⟩

theorem alu_of_not_listed {fn : Nat} (h : 0x15 < fn) (a b : DWord) : alu fn a b = none := by
  obtain ⟨k, rfl⟩ := Nat.exists_eq_add_of_le' h
  rfl

@[simp] theorem Bench.ra_issued (b : Bench) (i w : Nat) : (b.issued i).ra i w = (b.thr i).greg (iRA w) := b.greg_thr_issued i _
@[simp] theorem Bench.rb_issued (b : Bench) (i w : Nat) : (b.issued i).rb i w = (b.thr i).greg (iRB w) := b.greg_thr_issued i _
@[simp] theorem Bench.rdv_issued (b : Bench) (i w : Nat) : (b.issued i).rdv i w = (b.thr i).greg (iRD w) := b.greg_thr_issued i _

section
variable {n : BenchId} {c t w : Nat} {s : State}

/-- The first part of O29 in a state in which no event waits: the listed functions. -/
theorem retires_alu_of_eventsHandedOver (hs : s.eventsHandedOver) (hw : AtWord s n (tid c t) w) (hop : iOp w = 0x00) (hx5 : iX5 w = 0)
    {x : Nat × DWord}
    (hx : x ∈ aluTable (((s.dev.bench n).thr (tid c t)).greg (iRA w)) (((s.dev.bench n).thr (tid c t)).greg (iRB w)))
    (hfn : iFN w = x.1) :
    Retires (.alu n c t []) n (tid c t) s [(iRD w, x.2)] (((s.dev.bench n).thr (tid c t)).pc + 1) (fun _ => False) := by
  refine retires_of_fin (f := Bench.doAlu) rfl hw hop (hs n) ?_
  have halu := alu_of_mem_aluTable _ _ x hx
  simp only [Bench.doAlu, hx5, Bench.ra_issued, Bench.rb_issued, hfn, halu, ne_eq, not_true_eq_false, if_false]

/-- The second part of O29 in a state in which no event waits: any other function is ILLEGAL. -/
theorem faults_alu_of_eventsHandedOver (hs : s.eventsHandedOver) (hw : AtWord s n (tid c t) w) (hop : iOp w = 0x00) (hx5 : iX5 w = 0)
    (hfn : 0x15 < iFN w) : Faults (.alu n c t []) n (tid c t) s 1 := by
  refine faults_of_faultThread (f := Bench.doAlu) (value := 0) rfl hw hop (hs n) ?_
  simp only [Bench.doAlu, hx5, alu_of_not_listed hfn, ne_eq, not_true_eq_false, if_false, fIllegal]

end

/-! ## MOVW and the fields (R281) -/

theorem testBit_getBits (x lo w k : Nat) : (getBits x lo w).testBit k = (decide (k < w) && x.testBit (lo + k)) := by
  simp only [getBits, Nat.testBit_mod_two_pow, Nat.testBit_div_two_pow, Nat.add_comm]

theorem testBit_eq_getBits_one (x k : Nat) : x.testBit k = (getBits x k 1).testBit 0 := by
  simp only [testBit_getBits, Nat.lt_one_iff, decide_true, Bool.true_and, Nat.add_zero]

theorem testBit_putBits (x lo w v k : Nat) :
    (putBits x lo w v).testBit k = if lo ≤ k ∧ k < lo + w then v.testBit (k - lo) else x.testBit k := by
  rcases lt_or_ge k lo with hlow | hlo
  · rw [if_neg (by omega), testBit_eq_getBits_one, putBits_mod_low _ _ _ _ _ _ hlow, ← testBit_eq_getBits_one]
  · rcases lt_or_ge k (lo + w) with hin | hhigh
    · have hfield := congrArg (Nat.testBit · (k - lo)) (getBits_putBits_self x lo w v)
      simp only [testBit_getBits, Nat.testBit_mod_two_pow, Nat.add_sub_cancel' hlo, show k - lo < w by omega, decide_true,
        Bool.true_and] at hfield
      rw [if_pos ⟨hlo, hin⟩, hfield]
    · rw [if_neg (by omega), testBit_eq_getBits_one, putBits_mod_high _ _ _ _ _ _ hhigh, ← testBit_eq_getBits_one]

/-- What MOVW writes, from the word's fields and the old value of RD. -/
def movwValue (w : Nat) (d : DWord) : DWord :=
  BitVec.ofNat 64 (putBits (if bit (iRA w) 4 then 0 else d.toNat) (16 * (iRA w % 4)) 16 (iImm w))

theorem getLsbD_movwValue (w : Nat) (d : DWord) {k : Nat} (hk : k < 64) :
    (movwValue w d).getLsbD k =
      (if k / 16 = iRA w % 4 then (BitVec.ofNat 16 w).getLsbD (k % 16) else (!bit (iRA w) 4 && d.getLsbD k)) := by
  have hplace : (16 * (iRA w % 4) ≤ k ∧ k < 16 * (iRA w % 4) + 16) ↔ k / 16 = iRA w % 4 := by omega
  simp only [movwValue, BitVec.getLsbD_ofNat, hk, decide_true, Bool.true_and, testBit_putBits, hplace]
  split_ifs with hhalf hz
  · have hlow : k - 16 * (iRA w % 4) = k % 16 := by omega
    simp only [iImm, testBit_getBits, hlow, Nat.zero_add]
  · simp only [hz, Nat.zero_testBit, Bool.not_true, Bool.false_and]
  · simp only [hz, Bool.not_false, Bool.true_and, BitVec.getLsbD]

/-- R281 fixes every bit of what MOVW writes. -/
theorem eq_movwValue {w : Nat} {v d : DWord}
    (hv : ∀ k, k < 64 → v.getLsbD k =
      (if k / 16 = iRA w % 4 then (BitVec.ofNat 16 w).getLsbD (k % 16) else (!bit (iRA w) 4 && d.getLsbD k))) :
    v = movwValue w d :=
  BitVec.eq_of_getLsbD_eq fun k hk => (hv k hk).trans (getLsbD_movwValue w d hk).symm

section
variable {n : BenchId} {c t w : Nat} {s : State}

/-- The first part of O30 in a state in which no event waits: MOVW writes one halfword. -/
theorem retires_movw_of_eventsHandedOver (hs : s.eventsHandedOver) (hw : AtWord s n (tid c t) w) (hop : iOp w = 0x08)
    (hrsvd : getBits (iRA w) 2 2 = 0) {v : DWord}
    (hv : ∀ k, k < 64 → v.getLsbD k = (if k / 16 = iRA w % 4 then (BitVec.ofNat 16 w).getLsbD (k % 16)
      else (!bit (iRA w) 4 && (((s.dev.bench n).thr (tid c t)).greg (iRD w)).getLsbD k))) :
    Retires (.movw n c t []) n (tid c t) s [(iRD w, v)] (((s.dev.bench n).thr (tid c t)).pc + 1) (fun _ => False) := by
  refine retires_of_fin (f := Bench.doMovw) rfl hw hop (hs n) ?_
  simp only [Bench.doMovw, hrsvd, Bench.rdv_issued, ne_eq, not_true_eq_false, if_false, eq_movwValue hv, movwValue]

/-- The second part of O30 in a state in which no event waits: a halfword past the third is ILLEGAL. -/
theorem faults_movw_of_eventsHandedOver (hs : s.eventsHandedOver) (hw : AtWord s n (tid c t) w) (hop : iOp w = 0x08)
    (hrsvd : getBits (iRA w) 2 2 ≠ 0) : Faults (.movw n c t []) n (tid c t) s 1 := by
  refine faults_of_faultThread (f := Bench.doMovw) (value := 0) rfl hw hop (hs n) ?_
  simp only [Bench.doMovw, ne_eq, hrsvd, not_false_eq_true, if_true, fIllegal]

/-- A field that reaches past bit 63 is ILLEGAL, whatever its instruction makes of it. -/
theorem doField_of_past_end (f : DWord → DWord → Nat → Nat → DWord) (i : Nat) (b : Bench) (h : 63 < iPos w + (iWidth w - 1)) :
    Bench.doField f i w [] b = b.faultThread i 1 0 := by
  have hpast : 64 < iPos w + iWidth w := by unfold iWidth at *; omega
  simp only [Bench.doField, hpast, decide_true, Bool.or_true, if_true, fIllegal]

/-- The third part of O30 in a state in which no event waits: EXT, EXTS and INS past bit 63 are ILLEGAL. -/
theorem faults_field_of_eventsHandedOver (hs : s.eventsHandedOver) (hw : AtWord s n (tid c t) w) (h : 63 < iPos w + (iWidth w - 1)) :
    (iOp w = 0x09 → Faults (.ext n c t []) n (tid c t) s 1) ∧ (iOp w = 0x0A → Faults (.exts n c t []) n (tid c t) s 1) ∧
      (iOp w = 0x0B → Faults (.ins n c t []) n (tid c t) s 1) :=
  ⟨fun hop => faults_of_faultThread rfl hw hop (hs n) (doField_of_past_end _ _ _ h),
    fun hop => faults_of_faultThread rfl hw hop (hs n) (doField_of_past_end _ _ _ h),
    fun hop => faults_of_faultThread rfl hw hop (hs n) (doField_of_past_end _ _ _ h)⟩

end

/-- The fourth part of O30: four halfwords, each put into its place, make any constant. -/
theorem four_halfwords_make_constant {x d v0 v1 v2 v3 : DWord}
    (h0 : ∀ k, k < 64 → v0.getLsbD k = if k / 16 = 0 then x.getLsbD k else d.getLsbD k)
    (h1 : ∀ k, k < 64 → v1.getLsbD k = if k / 16 = 1 then x.getLsbD k else v0.getLsbD k)
    (h2 : ∀ k, k < 64 → v2.getLsbD k = if k / 16 = 2 then x.getLsbD k else v1.getLsbD k)
    (h3 : ∀ k, k < 64 → v3.getLsbD k = if k / 16 = 3 then x.getLsbD k else v2.getLsbD k) : v3 = x := by
  refine BitVec.eq_of_getLsbD_eq fun k hk => ?_
  have hhalf : k / 16 = 0 ∨ k / 16 = 1 ∨ k / 16 = 2 ∨ k / 16 = 3 := by omega
  rw [h3 k hk, h2 k hk, h1 k hk, h0 k hk]
  obtain e | e | e | e := hhalf <;> simp [e]

end Sys2Proof.Machine
end

section
/-! SUPPORT. O29 and O30 in a bench that still holds an event. Every command hands the events of its bench to the interrupt unit (R30,
R527), those that waited before it among them, and Ryuner answers some of them with a notice (R490). `AtWord` lets an event wait, so an
instruction can leave a notice in a mailbox, where `Retires` has the firmware's state as it was. -/
namespace Sys2Proof.Machine

/-! ## One state, with and without an event that waits -/

/-- A hub that is up, with Ryuner at work and PF 0 of host port 0 as an enabled manager. -/
def managedHub : Hub :=
  (Hub.blank { Firmware.blank .fc Fuses.blank with por := false, hubUp := true, image := some ⟨0, 0, 0⟩, managers := [0] }).setFld
    (R.ep_FN_CFG_ENABLE 0 0) 1

/-- A RUNNING bench whose thread 0 may issue the word `w`, while the events `l` have not been handed over. -/
def benchAtWord (w : Nat) (l : List Nat) : Bench :=
  { ((((Bench.blank ⟨.running, 0, 0, 0, true, true, true, true, true, false, false⟩ 0).setFld (R.engine_CORE_STATUS_STATE 0) 1).setThr 0
      { Thread.free with st := 1 }).setLe 0x7000000 4 w) with evq := l }

/-- The device with that hub and, as bench 0, that bench. -/
def stateAtWord (w : Nat) (l : List Nat) : State :=
  { State.reset with dev := { State.reset.dev with hub := managedHub, benches := State.reset.dev.benches.set 0 (benchAtWord w l) } }

/-- ADD g1, g0, g0 (OP 0x00, RD 1). -/
def addWord : Nat := 0x00200000
/-- MOVW g1, 0 into halfword 0 (OP 0x08, RD 1). -/
def movwWord : Nat := 0x20200000

/-- With no event that waits the ADD retires. -/
theorem retires_add_without_event : Retires (.alu 0 0 0 []) 0 (tid 0 0) (stateAtWord addWord []) [(1, 0)] 1 (fun _ => False) :=
  retires_alu_of_eventsHandedOver (c := 0) (t := 0) (w := addWord)
    (by decide : ∀ n : BenchId, ((stateAtWord addWord []).dev.bench n).evq = [])
    ⟨by decide, by decide, by decide, by decide, by decide⟩ (by decide) (by decide) (x := (0x00, 0)) List.mem_cons_self (by decide)

/-- With no event that waits the MOVW retires. -/
theorem retires_movw_without_event : Retires (.movw 0 0 0 []) 0 (tid 0 0) (stateAtWord movwWord []) [(1, 0)] 1 (fun _ => False) :=
  retires_movw_of_eventsHandedOver (c := 0) (t := 0) (w := movwWord)
    (by decide : ∀ n : BenchId, ((stateAtWord movwWord []).dev.bench n).evq = [])
    ⟨by decide, by decide, by decide, by decide, by decide⟩ (by decide) (by decide) (by decide)

/-! ## The refutations -/

/-- How many notices wait in mailbox 0 after a command. -/
def noticesAfter : Host.Outcome State Fault Refusal → Option Nat
  | .next t => some (t.dev.hub.mbx 0).notices.length
  | _ => none

/-- An instruction that retires has queued no notice: it leaves the firmware's state as it was. -/
theorem noticesAfter_of_retires {c : Instr} {n : BenchId} {i : Nat} {s : State} {ws : List (Nat × DWord)} {pc : Nat} {S : Nat → Prop}
    {k : Nat} (h : Retires c n i s ws pc S k) : noticesAfter (exec c s) = some (s.dev.hub.mbx 0).notices.length := by
  obtain ⟨t, he, -, hfw, -⟩ := h
  simp only [he, noticesAfter, Hub.mbx, hfw]

/-- Before the instruction mailbox 0 is empty. -/
theorem notices_stateAtWord (w : Nat) (l : List Nat) : ((stateAtWord w l).dev.hub.mbx 0).notices.length = 0 := rfl

/-- The ADD hands over a waiting change of the bench's state (event 0), and the manager gets its notice. -/
theorem noticesAfter_add_with_event : noticesAfter (exec (.alu 0 0 0 []) (stateAtWord addWord [0])) = some 1 := by decide

/-- So does the MOVW. -/
theorem noticesAfter_movw_with_event : noticesAfter (exec (.movw 0 0 0 []) (stateAtWord movwWord [0])) = some 1 := by decide

/-- Refutes O29: an ADD issued while the bench's event 0 waits queues the event's notice for the manager, so the firmware's state is not
as it was. `State.eventsHandedOver` excludes such a state, the statement does not; where no event waits, all it says holds
(`retires_alu_of_eventsHandedOver`, `faults_alu_of_eventsHandedOver`). -/
theorem not_aluFunctions : ¬ Obligations.AluFunctions := by
  unfold Obligations.AluFunctions
  rintro ⟨hretires, -⟩
  have hadd := noticesAfter_of_retires
    (hretires 0 0 0 addWord (stateAtWord addWord [0]) ⟨by decide, by decide, by decide, by decide, by decide⟩ (by decide) (by decide)
      _ _ rfl rfl (0x00, _) List.mem_cons_self (by decide))
  rw [noticesAfter_add_with_event, notices_stateAtWord] at hadd
  exact absurd hadd (by decide)

/-- Refutes O30: a MOVW issued while the bench's event 0 waits queues the event's notice for the manager, so the firmware's state is not
as it was. `State.eventsHandedOver` excludes such a state, the statement does not; where no event waits, all it says holds
(`retires_movw_of_eventsHandedOver`, `faults_movw_of_eventsHandedOver`, `faults_field_of_eventsHandedOver`,
`four_halfwords_make_constant`). -/
theorem not_movwAndFieldRange : ¬ Obligations.MovwAndFieldRange := by
  unfold Obligations.MovwAndFieldRange
  rintro ⟨hretires, -⟩
  have hmovw := noticesAfter_of_retires
    (hretires 0 0 0 0 movwWord (stateAtWord movwWord [0])
      ⟨by decide, by decide, by decide, by decide, by decide⟩ (by decide) (by decide) (by decide))
  rw [noticesAfter_movw_with_event, notices_stateAtWord] at hmovw
  exact absurd hmovw (by decide)

end Sys2Proof.Machine
end

section
/-! SUPPORT. Every command completes (R4), a command of one bench stays in its bench (R25). -/
namespace Sys2Proof.Machine

/-! ## Completion -/

/-- A configuration write completes, answered or not. -/
theorem execConfigWrite_completes (key : Nat) (x : CfgField) (v : Nat) (s : State) :
    ∃ d, execConfigWrite key x v s = .next { s with dev := d } := by
  unfold execConfigWrite
  split <;> exact ⟨_, rfl⟩

theorem execConfigRead_completes (key : Nat) (x : CfgField) (s : State) :
    ∃ d, execConfigRead key x s = .next { s with dev := d } := by
  unfold execConfigRead
  split <;> exact ⟨_, rfl⟩

theorem execPerstAssert_completes (p : HostPort) (s : State) : ∃ d, execPerstAssert p s = .next { s with dev := d } := by
  unfold execPerstAssert
  dsimp only
  split <;> exact ⟨_, rfl⟩

theorem execPmeTurnOff_completes (p : HostPort) (k : Fin 2) (done aux : Bool) (s : State) :
    ∃ d, execPmeTurnOff p k done aux s = .next { s with dev := d } := by
  unfold execPmeTurnOff
  dsimp only
  split <;> exact ⟨_, rfl⟩

/-- A host read completes: silent, discarded, unsupported, refused by a full queue, or served. -/
theorem execHostMemRead_completes (key bar off size : Nat) (full : Bool) (buf : Nat) (ecc : Ecc) (s : State) :
    ∃ d, execHostMemRead key bar off size full buf ecc s = .next { s with dev := d } := by
  unfold execHostMemRead
  dsimp only
  split
  · exact ⟨_, rfl⟩
  · split_ifs <;> exact ⟨_, rfl⟩

theorem execNvmeRegAccess_completes (n : BenchId) (k off : Nat) (v : Option Word) (s : State) :
    ∃ d, execNvmeRegAccess n k off v s = .next { s with dev := d } := by
  cases v <;> exact ⟨_, rfl⟩

theorem State.onPort_completes (s : State) (n : Face) (f : Bench → Bench) (g : Hub → Hub) :
    ∃ d, s.onPort n f g = .next { s with dev := d } := by
  cases n <;> exact ⟨_, rfl⟩

/-- Every command completes, whatever its operands, and touches nothing but the device. -/
theorem exec_completes (c : Instr) (s : State) : ∃ d, exec c s = .next { s with dev := d } := by
  cases c
  case configRead key x => exact execConfigRead_completes key x s
  case configWrite key x v => exact execConfigWrite_completes key x v s
  case perstAssert p => exact execPerstAssert_completes p s
  case pmeTurnOff p k done aux => exact execPmeTurnOff_completes p k done aux s
  case hostMemRead key bar off size full buf ecc => exact execHostMemRead_completes key bar off size full buf ecc s
  case nvmeRegAccess n k off v => exact execNvmeRegAccess_completes n k off v s
  case txFrame n p phase ecc => cases n <;> exact ⟨_, rfl⟩
  case leakTick n k => cases n <;> exact ⟨_, rfl⟩
  case pllUnlock n => cases n <;> exact ⟨_, rfl⟩
  case signalPresent | signalLoss | lockLoss | attemptSucceeds | attemptFails | anPageReceived | pauseTimerExpired |
      pauseRequestChange | pauseRepeatTimer | pauseModeChange => exact s.onPort_completes _ _ _
  all_goals exact ⟨_, rfl⟩

/-! ## Isolation (R25) -/

/-- SIGNAL_PRESENT looks at the hub's PWRFAIL_N and at its bench alone. -/
theorem isolated_signalPresent (n : BenchId) (p : Nat) : Isolated (.signalPresent (.bench n) p) n :=
  isolated_onBoth (fun h b => (h, if b.live then (if h.fw.pwrfail then b else b.signalPresent p) else b)) fun _ => rfl

/-- A command that acts on one bench acts on that bench and the hub alone. -/
theorem isolated_of_benchCmd {c : Instr} {n : BenchId} (h : benchCmd c = some n) : Isolated c n := by
  cases c
  case signalPresent n p =>
    cases n with
    | bench n => cases h; exact isolated_signalPresent n p
    | side => cases h
  case signalLoss n _ | lockLoss n _ | attemptSucceeds n _ | attemptFails n _ | anPageReceived n _ _ | pauseTimerExpired n _ _ |
      pauseRequestChange n _ | pauseRepeatTimer n _ | pauseModeChange n _ | txFrame n _ _ _ =>
    cases n <;> cases h
    exact isolated_onBoth _ fun _ => rfl
  case txTsRead | ppsInTsRead | freqCntRead | hitBitmapRead => cases h; exact isolated_onRead _ fun _ => rfl
  all_goals cases h
  all_goals exact isolated_onBoth _ fun _ => rfl

/-- Settles O1. -/
theorem stepRunsFrontCommand : Obligations.StepRunsFrontCommand := fun _ _ => rfl

/-- Settles O58: every command completes and leaves the queue as it finds it. -/
theorem everyStepTakesOneCommand : Obligations.EveryStepTakesOneCommand := by
  intro s
  cases hq : s.pending with
  | nil => exact ⟨{ s with dev := s.dev.cycle }, by simp only [step, hq], hq⟩
  | cons c t =>
    obtain ⟨d, hd⟩ := exec_completes c { s with pending := t }
    exact ⟨_, by simp only [step, hq]; exact hd, rfl⟩

/-- Settles O60: each command that acts on one bench is built from a combinator that reads and writes that bench and the hub alone. -/
theorem benchesAreIsolated : Obligations.BenchesAreIsolated := fun _ _ s t hc hhub hbench =>
  isolated_of_benchCmd hc s t hhub hbench

end Sys2Proof.Machine
end

section
/-! SUPPORT. No event waits in a bench after a step (R527): each change of the device keeps it so. -/
namespace Sys2Proof.Machine

/-- No event waits in any of the benches. -/
structure NoneWaits (v : Vector Bench 16) : Prop where
  evq : ∀ n : BenchId, v[n.val].evq = []

theorem State.eventsHandedOver_iff (s : State) : s.eventsHandedOver ↔ NoneWaits s.dev.benches := ⟨fun h => ⟨h⟩, fun h => h.evq⟩

/-! ## The combinators -/

/-- A bench that holds no event may be put in a device. -/
theorem NoneWaits.set {v : Vector Bench 16} (h : NoneWaits v) (n : BenchId) {b : Bench} (hb : b.evq = []) : NoneWaits (v.set n.val b) := by
  refine ⟨fun m => ?_⟩
  rw [Vector.getElem_set]
  split_ifs
  · exact hb
  · exact h.evq m

theorem NoneWaits.map {v : Vector Bench 16} (h : NoneWaits v) {f : Bench → Bench} (hf : ∀ b, b.evq = [] → (f b).evq = []) :
    NoneWaits (v.map f) := by
  refine ⟨fun m => ?_⟩
  rw [Vector.getElem_map]
  exact hf _ (h.evq m)

variable {d : Device}

@[simp] theorem noneWaits_run (n : BenchId) (f : Hub → Bench → Hub × Bench) (h : NoneWaits d.benches) :
    NoneWaits (d.run n f).benches := h.set n rfl

/-- A fold of changes that each keep a property keeps it. -/
theorem foldl_keeps {α σ : Type} {P : σ → Prop} {f : σ → α → σ} (hf : ∀ x a, P x → P (f x a)) (l : List α) {x : σ} (hx : P x) :
    P (l.foldl f x) := by
  induction l generalizing x with
  | nil => exact hx
  | cons a l ih => exact ih (hf x a hx)

@[simp] theorem noneWaits_runAll (f : BenchId → Hub → Bench → Hub × Bench) (h : NoneWaits d.benches) :
    NoneWaits (d.runAll f).benches :=
  foldl_keeps (P := fun d : Device => NoneWaits d.benches) (fun _ n => noneWaits_run n (f n)) _ h

@[simp] theorem noneWaits_ite (c : Prop) [Decidable c] {e : Device} (hd : NoneWaits d.benches) (he : NoneWaits e.benches) :
    NoneWaits (if c then d else e).benches := by
  split
  · exact hd
  · exact he

@[simp] theorem noneWaits_runHub (f : Hub → Hub) (h : NoneWaits d.benches) : NoneWaits (d.runHub f).benches := h

/-! ## Links, functions and windows -/

@[simp] theorem noneWaits_silence (p : Nat → Bool) (code : Nat) (free all : Bool) (h : NoneWaits d.benches) :
    NoneWaits (d.silence p code free all).benches := by
  simp [Device.silence, h]

@[simp] theorem noneWaits_bmeClear (key : Nat) (h : NoneWaits d.benches) : NoneWaits (d.bmeClear key).benches := by
  unfold Device.bmeClear; dsimp only; split_ifs <;> simp [h]
@[simp] theorem noneWaits_bmeSet (key : Nat) (h : NoneWaits d.benches) : NoneWaits (d.bmeSet key).benches := by
  unfold Device.bmeSet; dsimp only; split_ifs <;> simp [h]
@[simp] theorem noneWaits_flrStart (key : Nat) (h : NoneWaits d.benches) : NoneWaits (d.flrStart key).benches := by
  unfold Device.flrStart; dsimp only; split_ifs <;> simp [h]
@[simp] theorem noneWaits_linkDown (l st : Nat) (h : NoneWaits d.benches) : NoneWaits (d.linkDown l st).benches := by
  unfold Device.linkDown; simp [h]
@[simp] theorem noneWaits_linkRecovery (l : Nat) (back : Option (Nat × Nat)) (h : NoneWaits d.benches) :
    NoneWaits (d.linkRecovery l back).benches := by
  unfold Device.linkRecovery; dsimp only
  split <;> split_ifs <;> simp [h]
@[simp] theorem noneWaits_sendWindow (l : Nat) (n : BenchId) (h : NoneWaits d.benches) : NoneWaits (d.sendWindow l n).benches :=
  h.set n (h.evq n)
@[simp] theorem noneWaits_hostWindow (l : Nat) (n : BenchId) (h : NoneWaits d.benches) : NoneWaits (d.hostWindow l n).benches := by
  unfold Device.hostWindow
  split_ifs
  case neg =>
    split
    · exact h
    · exact noneWaits_sendWindow _ _ (noneWaits_run _ _ (noneWaits_run _ _ h))
  all_goals simp [h]
@[simp] theorem noneWaits_stopAll (retain : Bool) (h : NoneWaits d.benches) : NoneWaits (d.stopAll retain).benches := by
  simp [Device.stopAll, h]
@[simp] theorem noneWaits_d3hot (key : Nat) (h : NoneWaits d.benches) : NoneWaits (d.d3hot key).benches := by
  unfold Device.d3hot; dsimp only; split_ifs <;> simp [h]
@[simp] theorem noneWaits_d0 (key : Nat) (h : NoneWaits d.benches) : NoneWaits (d.d0 key).benches := by
  unfold Device.d0; dsimp only; split_ifs <;> simp [h]
@[simp] theorem noneWaits_vfsOff (key : Nat) (h : NoneWaits d.benches) : NoneWaits (d.vfsOff key).benches := by
  simp [Device.vfsOff, h]
@[simp] theorem noneWaits_cfgWrite (key : Nat) (x : CfgField) (v : Nat) (h : NoneWaits d.benches) : NoneWaits (d.cfgWrite key x v).benches := by
  unfold Device.cfgWrite; dsimp only
  split
  · exact h
  · split
    case h_5 => split <;> dsimp only <;> split_ifs <;> simp [h]
    all_goals simp [h]
@[simp] theorem noneWaits_endSessions (h : NoneWaits d.benches) : NoneWaits d.endSessions.benches := by
  unfold Device.endSessions; dsimp only; split_ifs <;> simp [h]
/-- The links of a list that are not DOWN are lost. -/
@[simp] theorem noneWaits_linksDown (l : List Nat) (h : NoneWaits d.benches) :
    NoneWaits (l.foldl (fun (d : Device) l => if d.hub.linkState l = 0 then d else d.linkDown l 0) d).benches :=
  foldl_keeps (P := fun d : Device => NoneWaits d.benches) (fun x l hx => by split_ifs <;> simp [hx]) l h
@[simp] theorem noneWaits_resetPort (p : Nat) (h : NoneWaits d.benches) : NoneWaits (d.resetPort p).benches := by
  unfold Device.resetPort
  apply noneWaits_endSessions
  dsimp only
  apply noneWaits_runAll
  exact noneWaits_linksDown _ h
@[simp] theorem noneWaits_turnOffStart (h : NoneWaits d.benches) : NoneWaits d.turnOffStart.benches := by
  simp [Device.turnOffStart, h]
@[simp] theorem noneWaits_turnOffEnd (aux : Bool) (h : NoneWaits d.benches) : NoneWaits (d.turnOffEnd aux).benches := by
  simp [Device.turnOffEnd, h]

/-! ## Keys, the sealing engine and debug sessions -/

@[simp] theorem noneWaits_dropKeys (h : NoneWaits d.benches) : NoneWaits d.dropKeys.benches := by
  simp [Device.dropKeys, h]
@[simp] theorem noneWaits_deliverKey (n : BenchId) (kind i : Nat) (key : List Byte) (h : NoneWaits d.benches) :
    NoneWaits (d.deliverKey n kind i key).2.benches := by
  simp [Device.deliverKey, h]
@[simp] theorem noneWaits_sealResult (h : NoneWaits d.benches) : NoneWaits d.sealResult.benches := by
  unfold Device.sealResult
  split
  · exact h
  · dsimp only; split_ifs <;> simp [h]
@[simp] theorem noneWaits_sealFor (n : BenchId) (kind i : Nat) (blob : List Byte) (h : NoneWaits d.benches) :
    NoneWaits (Device.sealFor n kind i blob d).2.benches := by
  simp [Device.sealFor, h]
@[simp] theorem noneWaits_openEngine (n : BenchId) (h : NoneWaits d.benches) : NoneWaits (d.openEngine n).benches := by
  simp [Device.openEngine, h]
@[simp] theorem noneWaits_openFull (h : NoneWaits d.benches) : NoneWaits d.openFull.benches := by
  simp [Device.openFull, h]
@[simp] theorem noneWaits_dbgOpen (t : List Byte) (h : NoneWaits d.benches) : NoneWaits (d.dbgOpen t).2.benches := by
  unfold Device.dbgOpen; dsimp only; split_ifs <;> simp [h]
@[simp] theorem noneWaits_dbgClose (k : Nat) (h : NoneWaits d.benches) : NoneWaits (d.dbgClose k).2.benches := by
  unfold Device.dbgClose; dsimp only; split_ifs <;> simp [h]
@[simp] theorem noneWaits_lcSecure (h : NoneWaits d.benches) : NoneWaits d.lcSecure.2.benches := by
  unfold Device.lcSecure; dsimp only; split_ifs <;> simp [h]
@[simp] theorem noneWaits_lcToken (type : Nat) (f : Fuses → Fuses) (h : NoneWaits d.benches) : NoneWaits (d.lcToken type f).2.benches := by
  unfold Device.lcToken; dsimp only; split_ifs <;> simp [h]
@[simp] theorem noneWaits_lcScrap (h : NoneWaits d.benches) : NoneWaits d.lcScrap.2.benches := by
  unfold Device.lcScrap; split <;> simp [h]
@[simp] theorem noneWaits_dbgStatus {r : Nat × Device} (h : NoneWaits r.2.benches) : NoneWaits (Device.dbgStatus r).benches := h
@[simp] theorem noneWaits_dbgCmd (port : Bool) (v : Nat) (h : NoneWaits d.benches) : NoneWaits (d.dbgCmd port v).benches := by
  unfold Device.dbgCmd; dsimp only
  cases port <;> split <;> simp [h, Device.lcReturn]

/-! ## Accesses to the hub and the benches -/

@[simp] theorem noneWaits_ofHub (v : Nat) (e : Option BusErr) (g : Hub) (h : NoneWaits d.benches) :
    NoneWaits (DevOut.ofHub d v e g).dev.benches := h
@[simp] theorem noneWaits_mbxBlockFmWrite (x v : Nat) (h : NoneWaits d.benches) : NoneWaits (d.mbxBlockFmWrite x v).2.benches := by
  unfold Device.mbxBlockFmWrite; split <;> simp [h]
@[simp] theorem noneWaits_hubWordRead (ag : Agent) (o : Nat) (h : NoneWaits d.benches) : NoneWaits (d.hubWordRead ag o).dev.benches := by
  unfold Device.hubWordRead; dsimp only
  split
  · split_ifs <;> simp [h]
  · split
    · simp [h]
    · split
      · simp [h]
      · split
        · simp [h]
        · split
          · simp [h]
          · split_ifs <;> simp [h]
@[simp] theorem noneWaits_hubSnap (r w1 : Nat) (h : NoneWaits d.benches) : NoneWaits (d.hubSnap r w1).benches := h
@[simp] theorem noneWaits_epWrite (o v : Nat) (h : NoneWaits d.benches) : NoneWaits (d.epWrite o v).benches := by
  unfold Device.epWrite; dsimp only; split_ifs <;> simp [h]
@[simp] theorem noneWaits_pcrWrite (o v : Nat) (h : NoneWaits d.benches) : NoneWaits (d.pcrWrite o v).benches := by
  unfold Device.pcrWrite; dsimp only; split_ifs <;> simp [h]
@[simp] theorem noneWaits_irqWrite (ag : Agent) (o v : Nat) (h : NoneWaits d.benches) : NoneWaits (d.irqWrite ag o v).dev.benches := by
  unfold Device.irqWrite; dsimp only
  split_ifs
  any_goals simp [h]
  split <;> simp [h]
@[simp] theorem noneWaits_dbgWrite (ag : Agent) (o v : Nat) (h : NoneWaits d.benches) : NoneWaits (d.dbgWrite ag o v).benches := by
  unfold Device.dbgWrite; dsimp only; split_ifs <;> simp [h]
@[simp] theorem noneWaits_hubWordWrite (ag : Agent) (o v : Nat) (h : NoneWaits d.benches) : NoneWaits (d.hubWordWrite ag o v).dev.benches := by
  unfold Device.hubWordWrite; dsimp only
  split
  · split_ifs <;> simp [h]
  · split
    · simp [h]
    · split
      · simp [h]
      · split
        · simp [h]
        · split <;> simp [h]
@[simp] theorem noneWaits_mbxRead (ag : Agent) (x size : Nat) (h : NoneWaits d.benches) : NoneWaits (d.mbxRead ag x size).dev.benches := by
  unfold Device.mbxRead; dsimp only
  split
  · simp [h]
  · split_ifs <;> simp [h]
@[simp] theorem noneWaits_mbxWrite (ag : Agent) (x size v : Nat) (h : NoneWaits d.benches) : NoneWaits (d.mbxWrite ag x size v).dev.benches := by
  unfold Device.mbxWrite; dsimp only
  split
  · simp [h]
  · split_ifs <;> simp [h]
@[simp] theorem noneWaits_hubRead (ag : Agent) (o size : Nat) (h : NoneWaits d.benches) : NoneWaits (d.hubRead ag o size).dev.benches := by
  unfold Device.hubRead; dsimp only; split_ifs <;> simp [h]
@[simp] theorem noneWaits_hubWrite (ag : Agent) (o size v : Nat) (h : NoneWaits d.benches) : NoneWaits (d.hubWrite ag o size v).dev.benches := by
  unfold Device.hubWrite; dsimp only; split_ifs <;> simp [h]
@[simp] theorem noneWaits_addrMiss (h : NoneWaits d.benches) : NoneWaits d.addrMiss.dev.benches := h
@[simp] theorem noneWaits_busRead (ag : Agent) (a size : Nat) (ecc : Ecc) (h : NoneWaits d.benches) : NoneWaits (d.busRead ag a size ecc).dev.benches := by
  unfold Device.busRead; dsimp only
  split
  any_goals split_ifs
  all_goals simp [h]
@[simp] theorem noneWaits_busWrite (ag : Agent) (a size v : Nat) (ecc : Ecc) (h : NoneWaits d.benches) : NoneWaits (d.busWrite ag a size v ecc).dev.benches := by
  unfold Device.busWrite; dsimp only
  split
  any_goals split_ifs
  all_goals simp [h]
@[simp] theorem noneWaits_dbgAcc (v : Nat) (ecc : Ecc) (h : NoneWaits d.benches) : NoneWaits (d.dbgAcc v ecc).benches := by
  unfold Device.dbgAcc; dsimp only; split_ifs <;> simp [h]
@[simp] theorem noneWaits_write (ag : Agent) (a size v : Nat) (ecc : Ecc) (h : NoneWaits d.benches) : NoneWaits (d.write ag a size v ecc).dev.benches := by
  unfold Device.write; dsimp only; split_ifs <;> simp [h]

/-! ## Host accesses in the BARs -/

@[simp] theorem noneWaits_inqDrop (key : Nat) (n : Option BenchId) (hdr : List Nat) (h : NoneWaits d.benches) : NoneWaits (d.inqDrop key n hdr).benches := by
  unfold Device.inqDrop; split <;> simp [h]
@[simp] theorem noneWaits_hostPieceRead (key a size : Nat) (ecc : Ecc) (h : NoneWaits d.benches) : NoneWaits (d.hostPieceRead key a size ecc).dev.benches := by
  unfold Device.hostPieceRead; split <;> simp [h]
@[simp] theorem noneWaits_hostPieceWrite (key a size v : Nat) (ecc : Ecc) (h : NoneWaits d.benches) : NoneWaits (d.hostPieceWrite key a size v ecc).dev.benches := by
  unfold Device.hostPieceWrite; split <;> simp [h]
@[simp] theorem noneWaits_complete (n : Option BenchId) (t : Tlp) (h : NoneWaits d.benches) : NoneWaits (d.complete n t).benches := by
  unfold Device.complete
  split
  · split_ifs <;> simp [h]
  · exact h
@[simp] theorem noneWaits_ctlRead (key a size : Nat) (ecc : Ecc) (h : NoneWaits d.benches) : NoneWaits (d.ctlRead key a size ecc).dev.benches := by
  unfold Device.ctlRead
  refine foldl_keeps (P := fun r : HostOut => NoneWaits r.dev.benches) (fun r p hr => ?_) _ h
  dsimp only
  split_ifs
  · exact hr
  · split <;> simp [hr]
@[simp] theorem noneWaits_barRead (key bar off size : Nat) (ecc : Ecc) (h : NoneWaits d.benches) : NoneWaits (d.barRead key bar off size ecc).dev.benches := by
  unfold Device.barRead; dsimp only
  split
  any_goals split_ifs
  all_goals simp [h]
@[simp] theorem noneWaits_hostAnswer (q : Option BenchId) (key : Nat) (hdr : List Nat) {r : HostOut} (h : NoneWaits r.dev.benches) :
    NoneWaits (Device.hostAnswer q key hdr r).benches := by
  simp [Device.hostAnswer, h]
@[simp] theorem noneWaits_ctlWrite (key a : Nat) (l : List Byte) (ecc : Ecc) (h : NoneWaits d.benches) : NoneWaits (d.ctlWrite key a l ecc).2.benches := by
  unfold Device.ctlWrite
  split
  · exact h
  · refine foldl_keeps (P := fun r : Bool × Device => NoneWaits r.2.benches) (fun r p hr => ?_) _ h
    dsimp only
    split_ifs <;> simp [hr]
@[simp] theorem noneWaits_dbWindow (key off size v : Nat) (pasid : Option Nat) (h : NoneWaits d.benches) : NoneWaits (d.dbWindow key off size v pasid).benches := by
  unfold Device.dbWindow; dsimp only; split_ifs <;> simp [h]
@[simp] theorem noneWaits_barWrite (key bar off : Nat) (l : List Byte) (ecc : Ecc) (h : NoneWaits d.benches) : NoneWaits (d.barWrite key bar off l ecc).benches := by
  unfold Device.barWrite; dsimp only
  split
  · split_ifs <;> simp [h]
  · simp [h]
  · refine foldl_keeps (P := fun d : Device => NoneWaits d.benches) (fun _ _ hx => ?_) _ ?_
    · exact hx
    · exact h
@[simp] theorem noneWaits_hostWrite (key bar off len : Nat) (poisoned full : Bool) (buf : Nat) {f : Device → Device}
    (hf : ∀ d, NoneWaits d.benches → NoneWaits (f d).benches) (h : NoneWaits d.benches) :
    NoneWaits (d.hostWrite key bar off len poisoned full buf f).benches := by
  unfold Device.hostWrite; dsimp only
  split
  · exact h
  · split_ifs
    case neg => exact hf _ h
    all_goals simp [h]

end Sys2Proof.Machine
end

section
/-! SUPPORT. No event waits in a bench after a step (R527): Sceune commands, resets, and the step. -/
namespace Sys2Proof.Machine

variable {d : Device}

/-! ## Sceune commands -/

@[simp] theorem noneWaits_adminAsk (m : Nat) (a : AdminPair) (h : NoneWaits d.benches) : NoneWaits (d.adminAsk m a).benches :=
  noneWaits_run _ _ h
@[simp] theorem noneWaits_adminCommand (m : Nat) (again : Bool) (h : NoneWaits d.benches) : NoneWaits (d.adminCommand m again).benches := by
  unfold Device.adminCommand; dsimp only
  split
  · exact h
  · split
    · exact h
    · split
      · exact h
      · split
        · split_ifs <;> simp [h]
        all_goals exact h
@[simp] theorem noneWaits_onCmd (n : BenchId) (f : Hub → Bench → CmdOut) (h : NoneWaits d.benches) : NoneWaits (d.onCmd n f).dev.benches :=
  noneWaits_run _ _ h
@[simp] theorem noneWaits_onLiveCmd (n : BenchId) (f : Hub → Bench → CmdOut) (h : NoneWaits d.benches) :
    NoneWaits (d.onLiveCmd n f).dev.benches :=
  noneWaits_onCmd _ _ h
@[simp] theorem noneWaits_onHubCmd (f : Hub → Nat × List Nat × Hub) (h : NoneWaits d.benches) : NoneWaits (d.onHubCmd f).dev.benches := h
@[simp] theorem noneWaits_refuse (code : Nat) (h : NoneWaits d.benches) : NoneWaits (Ran.refuse code d).dev.benches := h
@[simp] theorem noneWaits_done (h : NoneWaits d.benches) : NoneWaits (Ran.done d).dev.benches := h
@[simp] theorem noneWaits_going (h : NoneWaits d.benches) : NoneWaits (Ran.going d).dev.benches := h
@[simp] theorem noneWaits_startFailed (n : BenchId) (status : Nat) (h : NoneWaits d.benches) :
    NoneWaits (Ran.startFailed d n status).dev.benches := noneWaits_run _ _ h

/-- A command whose act leaves no event waiting leaves none, whether it ends, goes on, waits or asks for its data. -/
theorem noneWaits_sceune (m op : Nat) (late : Bool) (hold : Sceune → Device → Bool) {f : Sceune → List Byte → Device → Ran}
    (hf : ∀ c l, NoneWaits (f c l d).dev.benches) (h : NoneWaits d.benches) : NoneWaits (d.sceune m op late hold f).benches := by
  have act : ∀ c l, NoneWaits (if (f c l d).wait then { (f c l d).dev with hub := (f c l d).dev.hub.sceuneBegun c l }
      else { (f c l d).dev with hub := (f c l d).dev.hub.sceuneEnd c (f c l d).code (f c l d).res c.rbuf } : Device).benches :=
    fun c l => noneWaits_ite _ (hf c l) (hf c l)
  unfold Device.sceune; dsimp only
  split
  · exact h
  · split
    case h_2 => exact h
    next c r _ _ =>
    split
    · exact h
    · split
      · exact act c c.data
      · split
        · exact h
        · split
          · exact h
          · exact act c []
        · split
          · exact noneWaits_run _ _ h
          · split
            · exact h
            · exact act c c.block

theorem noneWaits_benchStartCmd (c : Sceune) (l : List Byte) (h : NoneWaits d.benches) : NoneWaits (Device.benchStartCmd c l d).dev.benches := by
  unfold Device.benchStartCmd; dsimp only
  split
  · split <;> simp [h]
  · split
    · split <;> simp [h]
    · split
      · split <;> simp [h]
      · simp [h]
    · split
      · split <;> simp [h]
      · split <;> simp [h]
    · simp [h]
theorem noneWaits_benchStopCmd (c : Sceune) (l : List Byte) (h : NoneWaits d.benches) : NoneWaits (Device.benchStopCmd c l d).dev.benches := by
  unfold Device.benchStopCmd; dsimp only
  split
  · split_ifs <;> simp [h]
  · split <;> simp [h]
theorem noneWaits_tableOpCmd (c : Sceune) (l : List Byte) (h : NoneWaits d.benches) : NoneWaits (Device.tableOpCmd c l d).dev.benches := by
  unfold Device.tableOpCmd; dsimp only
  split_ifs <;> simp [h]
theorem noneWaits_keyLoad (c : Sceune) (l : List Byte) (h : NoneWaits d.benches) : NoneWaits (Device.keyLoad c l d).dev.benches := by
  unfold Device.keyLoad; dsimp only
  split
  · exact noneWaits_run _ _ (noneWaits_sealFor _ _ _ _ h)
  all_goals exact noneWaits_sealFor _ _ _ _ h
theorem noneWaits_tallyReadCmd (c : Sceune) (h : NoneWaits d.benches) : NoneWaits (tallyReadCmd c d).dev.benches := by
  unfold tallyReadCmd; dsimp only
  split_ifs <;> exact h
@[simp] theorem noneWaits_dbgDone {r : Nat × Device} (h : NoneWaits r.2.benches) : NoneWaits (Device.dbgDone r).dev.benches := h
theorem noneWaits_debugOpenCmd (c : Sceune) (l : List Byte) (h : NoneWaits d.benches) : NoneWaits (Device.debugOpenCmd c l d).dev.benches := by
  unfold Device.debugOpenCmd; dsimp only
  split_ifs
  · exact h
  · exact h
  · exact noneWaits_dbgDone (noneWaits_dbgOpen _ h)

/-! ## The key archive -/

@[simp] theorem noneWaits_restoreOne (n : BenchId) (x : Nat × Nat) (h : NoneWaits d.benches) : NoneWaits (Device.restoreOne n d x).benches := by
  unfold Device.restoreOne; dsimp only
  split
  · exact noneWaits_run _ _ h
  · split
    · exact noneWaits_run _ _ h
    · exact noneWaits_sealFor _ _ _ _ (noneWaits_run _ _ h)
/-- A change of the hub keeps it, done or not. -/
theorem noneWaits_ite_hub (c : Prop) [Decidable c] {e : Device} (g : Hub) (he : NoneWaits e.benches) (hd : NoneWaits d.benches) :
    NoneWaits (if c then { e with hub := g } else d).benches := by
  split
  · exact he
  · exact hd
@[simp] theorem noneWaits_restoreKeys (n : BenchId) (h : NoneWaits d.benches) : NoneWaits (d.restoreKeys n).benches := by
  have restored (l : List (Nat × Nat)) : NoneWaits (l.foldl (Device.restoreOne n) d).benches :=
    foldl_keeps (P := fun d : Device => NoneWaits d.benches) (fun _ x => noneWaits_restoreOne n x) l h
  unfold Device.restoreKeys
  exact noneWaits_ite_hub _ _ (restored _) h

/-! ## Resets, supplies and temperatures -/

@[simp] theorem noneWaits_forceAll (h : NoneWaits d.benches) : NoneWaits d.forceAll.benches := noneWaits_runAll _ h
@[simp] theorem noneWaits_hubFault (cause : Nat) (h : NoneWaits d.benches) : NoneWaits (d.hubFault cause).benches := by
  unfold Device.hubFault
  exact noneWaits_resetPort 1 (noneWaits_resetPort 0 (noneWaits_forceAll (noneWaits_runAll _ h)))
@[simp] theorem noneWaits_porAssert (aux : Bool) (h : NoneWaits d.benches) : NoneWaits (d.porAssert aux).benches :=
  h.map fun _ _ => rfl
@[simp] theorem noneWaits_foremanReset (a b : Option (List Byte)) (h : NoneWaits d.benches) : NoneWaits (d.foremanReset a b).benches := by
  unfold Device.foremanReset; dsimp only
  split_ifs
  · exact h
  · exact h
  · exact noneWaits_hubFault 4 h
@[simp] theorem noneWaits_powerFall (h : NoneWaits d.benches) : NoneWaits d.powerFall.benches := by
  unfold Device.powerFall Device.dropLinks
  exact noneWaits_linksDown _ (noneWaits_runAll _ h)
@[simp] theorem noneWaits_thermWarn (temps : List (BitVec 12)) (h : NoneWaits d.benches) : NoneWaits (d.thermWarn temps).benches := by
  unfold Device.thermWarn; dsimp only
  split <;> split_ifs <;> exact h
@[simp] theorem noneWaits_thermTrip (temps : List (BitVec 12)) (h : NoneWaits d.benches) : NoneWaits (d.thermTrip temps).benches := by
  unfold Device.thermTrip; dsimp only
  split
  · split_ifs <;> exact noneWaits_forceAll h
  · split_ifs <;> exact h
@[simp] theorem noneWaits_switchTurn (fuel : Nat) (h : NoneWaits d.benches) : NoneWaits (d.switchTurn fuel).benches := by
  induction fuel generalizing d with
  | zero => exact h
  | succ fuel ih =>
    unfold Device.switchTurn
    split
    · exact h
    · dsimp only
      split
      · simp [h]
      · exact ih (noneWaits_run _ _ h)

/-! ## One cycle -/

@[simp] theorem evq_idleSlots (low : Bool) (e : Nat) (b : Bench) : (b.idleSlots low e).evq = b.evq := by
  unfold Bench.idleSlots; dsimp only
  refine foldl_keeps (P := fun x : Bench => x.evq = b.evq) (fun x c hx => ?_) _ rfl
  split_ifs <;> simp [hx]
@[simp] theorem evq_watchStall (k : Nat) (b : Bench) : (b.watchStall k).evq = b.evq := by
  unfold Bench.watchStall
  split_ifs <;> simp
@[simp] theorem evq_countWaits (b : Bench) : b.countWaits.evq = b.evq := by
  unfold Bench.countWaits
  exact foldl_keeps (P := fun x : Bench => x.evq = b.evq) (fun x c hx => by simp [hx]) _ rfl
/-- A cycle raises no event of a bench. -/
@[simp] theorem evq_cycle (low : Bool) (b : Bench) : (b.cycle low).evq = b.evq := by
  have idle (l : List Nat) : (l.foldl (fun b e => b.idleSlots low e) b).evq = b.evq :=
    foldl_keeps (P := fun x : Bench => x.evq = b.evq) (fun x e hx => by simp [hx]) l rfl
  unfold Bench.cycle Bench.advanceTime
  dsimp only
  split_ifs <;> simp [idle]
@[simp] theorem noneWaits_cycle (h : NoneWaits d.benches) : NoneWaits d.cycle.benches :=
  h.map fun b hb => by split_ifs <;> simp [hb]

end Sys2Proof.Machine
end

section
/-! O59: every command, and every cycle, hands the events it raised to the interrupt unit (R527). -/
namespace Sys2Proof.Machine

/-- The state answered, if one is, holds no event that waits in a bench. -/
def HandsOver (o : Host.Outcome State Fault Refusal) : Prop := ∀ t, o = .next t → NoneWaits t.dev.benches

variable {s : State}

theorem handsOver_next {t : State} (h : NoneWaits t.dev.benches) : HandsOver (.next t) := by
  intro u hu
  cases hu
  exact h

/-! ## The combinators -/

theorem handsOver_onSceune (m op : Nat) (late : Bool) {f : Sceune → List Byte → Device → Ran} (h : NoneWaits s.dev.benches)
    (hf : ∀ c l, NoneWaits (f c l s.dev).dev.benches) : HandsOver (s.onSceune m op late f) :=
  handsOver_next (noneWaits_sceune m op late _ hf h)

theorem handsOver_onSceuneHeld (m op : Nat) (late : Bool) (hold : Sceune → Device → Bool) {f : Sceune → List Byte → Device → Ran}
    (h : NoneWaits s.dev.benches) (hf : ∀ c l, NoneWaits (f c l s.dev).dev.benches) : HandsOver (s.onSceuneHeld m op late hold f) :=
  handsOver_next (noneWaits_sceune m op late hold hf h)

theorem handsOver_onBoth {o : Host.Outcome State Fault Refusal} {n : BenchId} {f : Hub → Bench → Hub × Bench} (ho : o = s.onBoth n f)
    (h : NoneWaits s.dev.benches) : HandsOver o :=
  ho ▸ handsOver_next (noneWaits_run n f h)

theorem handsOver_onPort (n : Face) (f : Bench → Bench) (g : Hub → Hub) (h : NoneWaits s.dev.benches) : HandsOver (s.onPort n f g) := by
  cases n
  · exact handsOver_next (noneWaits_run _ _ h)
  · exact handsOver_next h

theorem handsOver_onDbg (port : Bool) (v : Nat) (h : NoneWaits s.dev.benches) : HandsOver (s.onDbg port v) :=
  handsOver_next (noneWaits_ite _ (noneWaits_dbgCmd port v h) h)

theorem handsOver_onRead (n : BenchId) (f : Bench → List Nat × Bench) (h : NoneWaits s.dev.benches) : HandsOver (s.onRead n f) := by
  refine handsOver_next ?_
  change NoneWaits (s.dev.runBench n (fun b => (f b).2)).benches
  exact noneWaits_run _ _ h

/-! ## The commands that no combinator covers -/

theorem handsOver_configRead (key : Nat) (x : CfgField) (h : NoneWaits s.dev.benches) : HandsOver (execConfigRead key x s) := by
  unfold execConfigRead
  split <;> exact handsOver_next h

theorem handsOver_configWrite (key : Nat) (x : CfgField) (v : Nat) (h : NoneWaits s.dev.benches) : HandsOver (execConfigWrite key x v s) := by
  unfold execConfigWrite
  split
  · exact handsOver_next h
  · exact handsOver_next (noneWaits_ite _ (noneWaits_cfgWrite _ _ _ h) h)

theorem handsOver_perstAssert (p : HostPort) (h : NoneWaits s.dev.benches) : HandsOver (execPerstAssert p s) := by
  unfold execPerstAssert; dsimp only
  split
  · exact handsOver_next h
  · exact handsOver_next (noneWaits_resetPort _ h)

theorem handsOver_pmeTurnOff (p : HostPort) (k : Fin 2) (done aux : Bool) (h : NoneWaits s.dev.benches) :
    HandsOver (execPmeTurnOff p k done aux s) := by
  unfold execPmeTurnOff; dsimp only
  split
  · exact handsOver_next h
  · exact handsOver_next (noneWaits_ite _ h (noneWaits_ite _ (noneWaits_turnOffEnd aux h) (noneWaits_turnOffStart h)))

theorem handsOver_hostMemRead (key bar off size : Nat) (full : Bool) (buf : Nat) (ecc : Ecc) (h : NoneWaits s.dev.benches) :
    HandsOver (execHostMemRead key bar off size full buf ecc s) := by
  unfold execHostMemRead; dsimp only
  split
  · exact handsOver_next h
  · split
    · exact handsOver_next h
    · split
      · exact handsOver_next h
      · split
        · exact handsOver_next (noneWaits_hostAnswer _ _ _ h)
        · exact handsOver_next (noneWaits_hostAnswer _ _ _ (noneWaits_barRead _ _ _ _ _ h))

theorem handsOver_nvmeRegAccess (n : BenchId) (k off : Nat) (v : Option Word) (h : NoneWaits s.dev.benches) :
    HandsOver (execNvmeRegAccess n k off v s) := by
  cases v
  · exact handsOver_onRead _ _ h
  · exact handsOver_next (noneWaits_run _ _ h)

theorem handsOver_dbgAcc (port : Bool) (v : Word) (ecc : Ecc) (h : NoneWaits s.dev.benches) : HandsOver (execDbgAcc port v ecc s) := by
  refine handsOver_next ?_
  dsimp only
  split_ifs <;> simp [h]

theorem handsOver_regWrite (ag : Agent) (a : Nat) (v : Word) (ecc : Ecc) (h : NoneWaits s.dev.benches) :
    HandsOver (execRegWrite ag a v ecc s) :=
  handsOver_next (noneWaits_ite _ h (noneWaits_write _ _ _ _ _ h))

theorem handsOver_rcRegisterRead (ag : Agent) (a : Nat) (wide : Bool) (h : NoneWaits s.dev.benches) :
    HandsOver (execRcRegisterRead ag a wide s) := by
  unfold execRcRegisterRead
  generalize (if wide then 8 else 4) = size
  refine handsOver_next ?_
  dsimp only
  split
  · exact h
  · dsimp only
    split
    · exact h
    · exact noneWaits_busRead _ _ _ _ h

theorem handsOver_tallySnapshot (ag : Agent) (n : Option BenchId) (id w1 : Word) (h : NoneWaits s.dev.benches) :
    HandsOver (execTallySnapshot ag n id w1 s) := by
  refine handsOver_next ?_
  dsimp only
  split
  · exact h
  · split
    · exact h
    · cases n with
      | some n => exact noneWaits_run _ _ h
      | none => dsimp only; split <;> exact h

theorem handsOver_pwrfailFall (h : NoneWaits s.dev.benches) : HandsOver (execPwrfailFall s) :=
  handsOver_next (noneWaits_ite _ h (noneWaits_ite _ (noneWaits_powerFall h) h))

theorem handsOver_pwrfailRise (h : NoneWaits s.dev.benches) : HandsOver (execPwrfailRise s) := by
  exact handsOver_next (noneWaits_ite_hub _ _ (noneWaits_runAll _ h) h)

theorem handsOver_thermalSensorRead (temps : List (BitVec 12)) (h : NoneWaits s.dev.benches) : HandsOver (execThermalSensorRead temps s) :=
  handsOver_next (noneWaits_ite _ (noneWaits_thermTrip temps (noneWaits_thermWarn temps h)) h)

theorem handsOver_nsCreate (m : Nat) (h : NoneWaits s.dev.benches) : HandsOver (execNsCreate m s) := by
  refine handsOver_onSceune _ _ _ h fun c _ => ?_
  dsimp only
  split_ifs <;> exact h

theorem handsOver_nsDelete (m : Nat) (h : NoneWaits s.dev.benches) : HandsOver (execNsDelete m s) := by
  refine handsOver_onSceune _ _ _ h fun c _ => ?_
  dsimp only
  split
  · exact h
  · exact noneWaits_run _ _ h

theorem handsOver_claimQuiesce (m : Nat) (late : Bool) (h : NoneWaits s.dev.benches) : HandsOver (execClaimQuiesce m late s) := by
  refine handsOver_onSceune _ _ _ h fun c _ => ?_
  split
  · exact h
  · exact noneWaits_onLiveCmd _ _ h

theorem handsOver_claimReset (m : Nat) (late : Bool) (h : NoneWaits s.dev.benches) : HandsOver (execClaimReset m late s) := by
  refine handsOver_onSceune _ _ _ h fun c _ => ?_
  split
  · exact h
  · exact noneWaits_onLiveCmd _ _ h

/-! ## Every command -/

/-- A command of one bench runs a change of that bench, which hands its events over. -/
theorem handsOver_of_benchCmd {c : Instr} {n : BenchId} (hc : benchCmd c = some n) (h : NoneWaits s.dev.benches) :
    HandsOver (exec c s) := by
  cases c
  case signalPresent | signalLoss | lockLoss | attemptSucceeds | attemptFails | anPageReceived | pauseTimerExpired |
      pauseRequestChange | pauseRepeatTimer | pauseModeChange => exact handsOver_onPort _ _ _ h
  case txFrame n p phase ecc =>
    cases n <;> cases hc
    exact handsOver_onBoth rfl h
  case txTsRead | ppsInTsRead | freqCntRead | hitBitmapRead => exact handsOver_onRead _ _ h
  all_goals cases hc
  all_goals exact handsOver_onBoth rfl h

/-- A command of more than one bench, or of the hub, leaves no event waiting in a bench, where none waited. -/
theorem handsOver_of_no_benchCmd {c : Instr} (hc : benchCmd c = none) (h : NoneWaits s.dev.benches) : HandsOver (exec c s) := by
  cases c
  case configRead key x => exact handsOver_configRead key x h
  case configWrite key x v => exact handsOver_configWrite key x v h
  case perstAssert p => exact handsOver_perstAssert p h
  case pmeTurnOff p k done aux => exact handsOver_pmeTurnOff p k done aux h
  case hostMemRead key bar off size full buf ecc => exact handsOver_hostMemRead key bar off size full buf ecc h
  case nvmeRegAccess n k off v => exact handsOver_nvmeRegAccess n k off v h
  case dbgAcc port v ecc => exact handsOver_dbgAcc port v ecc h
  case regWrite ag a v ecc => exact handsOver_regWrite ag a v ecc h
  case rcRegisterRead ag a wide => exact handsOver_rcRegisterRead ag a wide h
  case tallySnapshot ag n id w1 => exact handsOver_tallySnapshot ag n id w1 h
  case pwrfailFall => exact handsOver_pwrfailFall h
  case pwrfailRise => exact handsOver_pwrfailRise h
  case flushWindowEnd => exact handsOver_next (noneWaits_ite _ (noneWaits_forceAll h) h)
  case thermalSensorRead temps => exact handsOver_thermalSensorRead temps h
  case nsCreate m => exact handsOver_nsCreate m h
  case nsDelete m => exact handsOver_nsDelete m h
  case claimQuiesce m late => exact handsOver_claimQuiesce m late h
  case claimReset m late => exact handsOver_claimReset m late h
  case txFrame n p phase ecc =>
    cases n
    · exact handsOver_next (noneWaits_run _ _ h)
    · exact handsOver_next h
  case leakTick n k =>
    cases n
    · exact handsOver_next h
    · exact handsOver_next (noneWaits_run _ _ h)
  case pllUnlock n =>
    cases n
    · exact handsOver_next (noneWaits_ite _ (noneWaits_hubFault 1 h) h)
    · exact handsOver_next (noneWaits_run _ _ h)
  case signalPresent | signalLoss | lockLoss | attemptSucceeds | attemptFails | anPageReceived | pauseTimerExpired |
      pauseRequestChange | pauseRepeatTimer | pauseModeChange => exact handsOver_onPort _ _ _ h
  case lcSecure | lcReturn | lcScrap | dbgCmdOpen | dbgCmdClose => exact handsOver_onDbg _ _ h
  case benchSwitchTurn => exact handsOver_next (noneWaits_switchTurn _ h)
  case bmeClear key => exact handsOver_next (noneWaits_bmeClear key h)
  case bmeSet key => exact handsOver_next (noneWaits_bmeSet key h)
  case flrStart key => exact handsOver_next (noneWaits_flrStart key h)
  case linkLoss p k => exact handsOver_next (noneWaits_ite _ h (noneWaits_linkDown _ _ h))
  case linkRecovery p k back => exact handsOver_next (noneWaits_linkRecovery _ back h)
  case hostWindowStart p k n => exact handsOver_next (noneWaits_hostWindow _ n h)
  case pfD3hot key => exact handsOver_next (noneWaits_d3hot key h)
  case pfD0 key => exact handsOver_next (noneWaits_d0 key h)
  case sealResult => exact handsOver_next (noneWaits_sealResult h)
  case hostMemWrite key bar off l poisoned full buf ecc =>
    exact handsOver_next (noneWaits_hostWrite _ _ _ _ _ _ _ (fun _ hd => noneWaits_barWrite _ _ _ _ _ hd) h)
  case doorbellWrite key off size v pasid full =>
    exact handsOver_next (noneWaits_hostWrite _ _ _ _ _ _ _ (fun _ hd => noneWaits_dbWindow _ _ _ _ _ hd) h)
  case adminCommand m again => exact handsOver_next (noneWaits_adminCommand m again h)
  case keyArchiveRestore n => exact handsOver_next (noneWaits_restoreKeys n h)
  case hubFaultReset cause => exact handsOver_next (noneWaits_ite _ h (noneWaits_hubFault cause h))
  case porAssert aux => exact handsOver_next (noneWaits_porAssert aux h)
  case foremanReset a b => exact handsOver_next (noneWaits_ite _ (noneWaits_foremanReset a b h) h)
  case fmWdogExpire a b => exact handsOver_next (noneWaits_ite _ (noneWaits_foremanReset a b h) h)
  case benchStart m late => exact handsOver_onSceune _ _ _ h fun c l => noneWaits_benchStartCmd c l h
  case benchStop m late => exact handsOver_onSceune _ _ _ h fun c l => noneWaits_benchStopCmd c l h
  case tallyRead m => exact handsOver_onSceune _ _ _ h fun c _ => noneWaits_tallyReadCmd c h
  case debugOpen m late => exact handsOver_onSceune _ _ _ h fun c l => noneWaits_debugOpenCmd c l h
  case debugClose m => exact handsOver_onSceune _ _ _ h fun c _ => noneWaits_dbgDone (noneWaits_dbgClose _ h)
  case tableOp m u late => exact handsOver_onSceuneHeld _ _ _ _ h fun c l => noneWaits_tableOpCmd c l h
  case keyLoad m late => exact handsOver_onSceuneHeld _ _ _ _ h fun c l => noneWaits_keyLoad c l h
  case benchStatus | identify => exact handsOver_onSceune _ _ _ h fun _ _ => h
  case noticeGet | adminCreate | adminDestroy | managerSet | eventRoute | attest => exact handsOver_onSceune _ _ _ h fun _ _ => h
  case windowSet => exact handsOver_onSceune _ _ _ h fun _ _ => noneWaits_onCmd _ _ h
  case graphLoad | ruleWrite | genSwap | tableSweep | learnPolicy | portSet | tmWrite | gateLoad | timeCmd | saWrite | engineLoad |
      engineCtl | claimCreate | claimResume | claimRemove | claimSetShare | ringCreate | ringStart | ringStop | ringDestroy |
      ringSetStep | nvmeGrant | nvmeRemove =>
    exact handsOver_onSceune _ _ _ h fun _ _ => noneWaits_onLiveCmd _ _ h
  case flrDone | linkTrainingStart | linkL0 | flitReplay | vectorUnmask | cfgReadySet | readyForced | perstRelease | fuseProgCmd |
      svnAdvance | mbxInPush | dbToFmWrite | dbToHostRaise | adminSqDoorbell | adminCqDoorbell | sideFrameRx | wakeMatch | mbxGo |
      porRelease | hubPllLockRetry | bootSlotCheck | fmWdogKick | sealEncrypt | sealDecrypt | sealUnwrap | mbxOutPop | mbxAckRead =>
    exact handsOver_next h
  case winCommit => exact handsOver_onBoth rfl h
  all_goals cases hc

/-- A command leaves no event waiting in a bench, where none waited. -/
theorem handsOver_exec (c : Instr) (h : NoneWaits s.dev.benches) : HandsOver (exec c s) := by
  cases hc : benchCmd c with
  | none => exact handsOver_of_no_benchCmd hc h
  | some n => exact handsOver_of_benchCmd hc h

/-- Settles O59: every change of a bench hands its events over at once, and no other part of a step touches a bench's events. -/
theorem everyStepHandsItsEventsOver : Obligations.EveryStepHandsItsEventsOver := by
  intro s t hs ht
  have h : NoneWaits s.dev.benches := s.eventsHandedOver_iff.mp hs
  refine t.eventsHandedOver_iff.mpr ?_
  cases hq : s.pending with
  | nil =>
    rw [step, hq] at ht
    exact handsOver_next (noneWaits_cycle h) t ht
  | cons c l =>
    rw [step, hq] at ht
    exact handsOver_exec (s := { s with pending := l }) c h t ht

end Sys2Proof.Machine
end

section
/-! SUPPORT. O31 to O37: statements that hold the firmware's state fixed, in a bench that still holds an event. Every command hands the
events of its bench over (R30, R527), and Ryuner answers some of them with a notice (R490); the statements let such an event wait, where
`State.eventsHandedOver`, which every step keeps (O59), does not. -/
namespace Sys2Proof.Machine

variable {c : Instr} {w : Nat}

/-- A command that queues a notice does not leave the firmware's state as it was. -/
theorem false_of_fw_kept {P : Hub → Bench → Prop} (h : RunsBoth c 0 (stateAtWord w [0]) P)
    (hfw : ∀ g b, P g b → g.fw = (stateAtWord w [0]).dev.hub.fw) (hone : noticesAfter (exec c (stateAtWord w [0])) = some 1) : False := by
  obtain ⟨t, he, -, hP⟩ := h
  have hkept : noticesAfter (exec c (stateAtWord w [0])) = some ((stateAtWord w [0]).dev.hub.mbx 0).notices.length := by
    simp only [he, noticesAfter, Hub.mbx, hfw _ _ hP]
  rw [hone, notices_stateAtWord] at hkept
  exact absurd hkept (by decide)

/-- Nor does it retire. -/
theorem false_of_retires {ws : List (Nat × DWord)} {pc k : Nat} {S : Nat → Prop} (h : Retires c 0 (tid 0 0) (stateAtWord w [0]) ws pc S k)
    (hone : noticesAfter (exec c (stateAtWord w [0])) = some 1) : False :=
  false_of_fw_kept h (fun _ _ h => h.1) hone

/-- Nor does it fault. -/
theorem false_of_faults {code : Nat} (h : Faults c 0 (tid 0 0) (stateAtWord w [0]) code)
    (hone : noticesAfter (exec c (stateAtWord w [0])) = some 1) : False :=
  false_of_fw_kept h (fun _ _ h => h.1) hone

/-! ## The words -/

/-- ADDI g1, g0, 0 (OP 0x01). -/
def addiWord : Nat := 0x04200000
/-- LDL of the byte 0 of the slice into g1 (OP 0x10). -/
def ldlWord : Nat := 0x40200000
/-- BEQ g0, g0 to the next word (OP 0x20, OFF16 1). -/
def beqWord : Nat := 0x80000001
/-- WACQ of wedge 0 into g1 (OP 0x34). -/
def wacqWord : Nat := 0xD0200000
/-- MFS g1 of CODE 5, which names nothing (OP 0x3C). -/
def mfsWord : Nat := 0xF0200005
/-- TRAP (OP 0x3E). -/
def trapWord : Nat := 0xF8000000

/-! ## The refutations -/

/-- Refutes O31: an ADDI issued while the bench's event 0 waits queues the event's notice for the manager, so the firmware's state is
not as it was. -/
theorem not_immediateAndFieldInstructions : ¬ Obligations.ImmediateAndFieldInstructions := by
  unfold Obligations.ImmediateAndFieldInstructions
  rintro ⟨haddi, -⟩
  exact false_of_retires (haddi 0 0 0 addiWord (stateAtWord addiWord [0]) (by unfold AtWord; decide) (by decide)) (by decide)

/-- Refutes O32: so does an LDL. -/
theorem not_engineLoadsAndStores : ¬ Obligations.EngineLoadsAndStores := by
  unfold Obligations.EngineLoadsAndStores
  rintro ⟨hldl, -⟩
  exact false_of_retires (hldl 0 0 0 0 ldlWord (stateAtWord ldlWord [0]) (by unfold AtWord; decide) (by decide) (by decide) (by decide)
    (by decide)) (by decide)

/-- Refutes O33: so does a BEQ. -/
theorem not_branchesAndJumps : ¬ Obligations.BranchesAndJumps := by
  unfold Obligations.BranchesAndJumps
  rintro ⟨hbranch, -⟩
  obtain ⟨hbeq, -⟩ := hbranch 0 true 1 0 0 beqWord (stateAtWord beqWord [0]) (by unfold AtWord; decide)
    (.inl ⟨by decide, by decide⟩) (by decide) (by decide)
  exact false_of_retires (hbeq (by decide)) (by decide)

/-- Refutes O34: so does a WACQ of a free wedge. -/
theorem not_channelsThreadsAndWedges : ¬ Obligations.ChannelsThreadsAndWedges := by
  unfold Obligations.ChannelsThreadsAndWedges
  rintro ⟨-, -, -, -, -, -, hwacq, -⟩
  obtain ⟨hfree, -⟩ := hwacq 0 0 0 0 wacqWord (stateAtWord wacqWord [0]) (by unfold AtWord; decide)
    (by decide) (by decide) (by decide) (by decide)
  exact false_of_retires hfree (by decide)

/-- Refutes O35: so does a TRAP. -/
theorem not_operationsAndEndsOfThreads : ¬ Obligations.OperationsAndEndsOfThreads := by
  unfold Obligations.OperationsAndEndsOfThreads
  rintro ⟨-, -, -, -, -, htrap, -⟩
  exact false_of_faults (htrap 0 0 0 trapWord (stateAtWord trapWord [0]) (by unfold AtWord; decide) (by decide)) (by decide)

/-- Refutes O36: so does an MFS whose CODE names nothing. -/
theorem not_faultsHaveNoEffect : ¬ Obligations.FaultsHaveNoEffect := by
  unfold Obligations.FaultsHaveNoEffect
  rintro ⟨-, -, -, -, -, -, -, hmfs, -⟩
  exact false_of_faults (hmfs 0 0 0 mfsWord (stateAtWord mfsWord [0]) (by unfold AtWord; decide) (by decide) (by decide)) (by decide)

/-- Refutes O37: so does a refused DBG_STOP. -/
theorem not_returnsAndThreadControl : ¬ Obligations.ReturnsAndThreadControl := by
  unfold Obligations.ReturnsAndThreadControl
  rintro ⟨-, -, -, -, -, -, -, -, -, -, -, -, hrefused⟩
  exact false_of_fw_kept (hrefused 0 0 0 (.dbgStop 0 false 0 0) (stateAtWord trapWord [0]) rfl (.inl rfl)) (fun _ _ h => h.1) (by decide)

end Sys2Proof.Machine
end

section
/-! O52: the general part of every Sceune command (R482 to R488). -/
namespace Sys2Proof.Machine

/-- A Sceune command is the general part around an act of its own. -/
theorem exec_sceuneCmd {i : Instr} {m op : Nat} {late : Bool} (h : sceuneCmd i = some (m, op, late)) :
    ∃ hold f, ∀ s, exec i s = .next { s with dev := s.dev.sceune m op late hold f } := by
  cases i
  case tableOp | keyLoad => cases h; exact ⟨_, _, fun _ => rfl⟩
  all_goals cases h
  all_goals exact ⟨fun _ _ => false, _, fun _ => rfl⟩

section
variable {d : Device} {m op k : Nat} {late : Bool} {c : Sceune} {r : CmdRow} {hold : Sceune → Device → Bool}
  {f : Sceune → List Byte → Device → Ran}

/-- Without Ryuner at work, or without a turn, nothing happens. -/
theorem sceune_of_no_turn (h : d.hub.ryuner = false ∨ d.hub.turn m op = none) : d.sceune m op late hold f = d := by
  unfold Device.sceune
  obtain h | h := h
  · simp only [h, Bool.not_false, if_true]
  · simp only [h, ite_self]

variable (hry : d.hub.ryuner = true) (hturn : d.hub.turn m op = some c) (hrow : cmdRow op = some r)
include hry hturn hrow

/-- A command whose bound has passed ends with TIMEOUT, begun or not. -/
theorem sceune_of_late : d.sceune m op true hold f = { d with hub := d.hub.sceuneEnd c rcTimeout [] c.rbuf } := by
  simp only [Device.sceune, hry, hturn, hrow, Bool.not_true, Bool.false_eq_true, if_false, if_true, Ran.refuse]

/-- A general check that fails ends it with its code. -/
theorem sceune_of_generalCode (hnew : c.begun = false) (hcode : d.generalCode c r = some k) :
    d.sceune m op false hold f = { d with hub := d.hub.sceuneEnd c k [] c.rbuf } := by
  simp only [Device.sceune, hry, hturn, hrow, hnew, hcode, Bool.not_true, Bool.false_eq_true, if_false, Ran.refuse]

/-- What it still has to read is asked for first. -/
theorem sceune_of_unread (hnew : c.begun = false) (hcode : d.generalCode c r = none) (haddr : r.haddr = some k)
    (hread : c.readDone = false) : d.sceune m op false hold f = d.askMore c (c.w64 k) := by
  simp only [Device.sceune, hry, hturn, hrow, hnew, hcode, haddr, hread, Bool.not_true, Bool.not_false, Bool.false_eq_true, if_false,
    if_true]

end

/-- Settles O52: every Sceune command is the general part around its own act, and the general part decides all four cases. -/
theorem generalRefusalsChangeNothing : Obligations.GeneralRefusalsChangeNothing := by
  unfold Obligations.GeneralRefusalsChangeNothing
  refine ⟨?refused, ?late, ?unread, ?idle⟩
  case refused =>
    intro i m op k c r s hi hry hturn hnew hrow hcode
    obtain ⟨hold, f, he⟩ := exec_sceuneCmd hi
    unfold Ends
    rw [he, sceune_of_generalCode hry hturn hrow hnew hcode]
  case late =>
    intro i m op c r s hi hry hturn hrow
    obtain ⟨hold, f, he⟩ := exec_sceuneCmd hi
    unfold Ends
    rw [he, sceune_of_late hry hturn hrow]
  case unread =>
    intro i m op k c r s hi hry hturn hnew hrow hcode haddr hread
    obtain ⟨hold, f, he⟩ := exec_sceuneCmd hi
    rw [he, sceune_of_unread hry hturn hrow hnew hcode haddr hread]
  case idle =>
    intro i m op late s hi h
    obtain ⟨hold, f, he⟩ := exec_sceuneCmd hi
    unfold Idles
    rw [he, sceune_of_no_turn h]

end Sys2Proof.Machine
end

section
/-! O16: the pause frame (R76, R89). -/
namespace Sys2Proof.Machine

/-- The bytes of a pause frame from an address. -/
def pauseFrame (sa : List Byte) (q : Nat) : List Byte := pad60 (macControl sa 1 (beBytes 2 q))

/-- Byte by byte. -/
theorem pauseFrame_eq (b : Bench) (p q : Nat) :
    pauseFrame (b.portSa p) q = [0x01#8, 0x80#8, 0xC2#8, 0#8, 0#8, 1#8] ++ b.portSa p ++ [0x88#8, 0x08#8, 0#8, 1#8] ++ beBytes 2 q ++
      List.replicate 42 0#8 := rfl

/-- Without loopback a frame reaches the ball, and is counted. -/
theorem Bench.sendFrame_of_no_loop {b : Bench} {p : Nat} (h : b.loopOf p = 0) (l : List Byte) (bad : Bool) :
    b.sendFrame p l bad = { (b.tick (T.TX_FRAMES p)).count (T.TX_BYTES p) ((pad60 l).length + 4) with
      out := b.out ++ [{ port := p, bytes := pad60 l, badFcs := bad, echo := false }] } := by
  have hcounted : ((b.tick (T.TX_FRAMES p)).count (T.TX_BYTES p) ((pad60 l).length + 4)).loopOf p = 0 := h
  simp only [Bench.sendFrame, Bench.countTx, h, if_true, Bench.emit, hcounted]
  rfl

/-- Settles O16. -/
theorem aPauseFrameOnTheWire : Obligations.APauseFrameOnTheWire := by
  intro b p q h
  refine ⟨pauseFrame (b.portSa p) q, ?_, rfl, rfl, rfl, rfl, rfl, fun x hx => ?_, ?_⟩
  · simp only [Bench.sendPause, Bench.sendControl, Bench.sendFrame_of_no_loop h]
    rfl
  · have hzeros : (pauseFrame (b.portSa p) q).drop 18 = List.replicate 42 0#8 := by rw [pauseFrame_eq]; rfl
    exact List.eq_of_mem_replicate (hzeros ▸ hx)
  · simp only [Bench.sendPause, Bench.sendControl, Bench.sendFrame_of_no_loop h]
    simp

end Sys2Proof.Machine
end

section
/-! O2, O3: a cycle with no command (log 1), and the reset state. -/
namespace Sys2Proof.Machine

/-- What the counters of a cycle leave as it was. -/
structure Bench.CycleKeeps (b b' : Bench) : Prop where
  cyc : b'.cyc = b.cyc
  time : b'.time = b.time
  pkts : b'.pkts = b.pkts
  mem : b'.mem = b.mem
  reg : ∀ o, o ≠ R.engine_STALL_STATUS → b'.reg o = b.reg o

namespace Bench.CycleKeeps

variable {b b' : Bench}

theorem refl (b : Bench) : b.CycleKeeps b := ⟨rfl, rfl, rfl, rfl, fun _ _ => rfl⟩
theorem trans {b'' : Bench} (h : b.CycleKeeps b') (h' : b'.CycleKeeps b'') : b.CycleKeeps b'' :=
  ⟨h'.cyc.trans h.cyc, h'.time.trans h.time, h'.pkts.trans h.pkts, h'.mem.trans h.mem, fun o ho => (h'.reg o ho).trans (h.reg o ho)⟩
theorem tick (b : Bench) (k : Nat) : b.CycleKeeps (b.tick k) := ⟨rfl, rfl, rfl, rfl, fun _ _ => rfl⟩

theorem foldl {α : Type} {f : Bench → α → Bench} (hf : ∀ (b : Bench) a, b.CycleKeeps (f b a)) (l : List α) (b : Bench) : b.CycleKeeps (l.foldl f b) :=
  foldl_keeps (P := b.CycleKeeps) (fun x a hx => hx.trans (hf x a)) l (refl b)

theorem ite {x y : Bench} (c : Prop) [Decidable c] (hx : b.CycleKeeps x) (hy : b.CycleKeeps y) : b.CycleKeeps (if c then x else y) := by
  split
  · exact hx
  · exact hy

/-- A change made under a condition, or unless it holds. -/
theorem under {f : Bench → Bench} (hf : ∀ x : Bench, x.CycleKeeps (f x)) (c : Prop) [Decidable c] (h : b.CycleKeeps b') :
    b.CycleKeeps (if c then f b' else b') := ite c (h.trans (hf b')) h
theorem orElse {f : Bench → Bench} (hf : ∀ x : Bench, x.CycleKeeps (f x)) (c : Prop) [Decidable c] (h : b.CycleKeeps b') :
    b.CycleKeeps (if c then b' else f b') := ite c h (h.trans (hf b'))

theorem withEng (e : EngineSt) (h : b.CycleKeeps b') : b.CycleKeeps { b' with eng := e } := ⟨h.cyc, h.time, h.pkts, h.mem, h.reg⟩

theorem idleSlots (low : Bool) (e : Nat) (b : Bench) : b.CycleKeeps (b.idleSlots low e) :=
  withEng _ (foldl (fun b _ => ite _ (tick b _) (refl b)) _ b)

theorem watchStall (k : Nat) (b : Bench) : b.CycleKeeps (b.watchStall k) := by
  unfold Bench.watchStall
  split
  · exact ⟨rfl, rfl, rfl, rfl, fun o ho => Bench.reg_setFld_ne _ _ _ _ ho⟩
  · exact refl b

theorem countWaits (b : Bench) : b.CycleKeeps b.countWaits := foldl (fun b _ => tick b _) _ b

end Bench.CycleKeeps

/-- The counters of a cycle, before time goes on. -/
def Bench.counted (low : Bool) (b : Bench) : Bench :=
  let es := b.engineCycles
  let b := (es.foldl (fun b e => b.idleSlots low e) b).watchStall es.length
  let b := if 8 ≤ b.hostEntries then b.tick T.HOST_ENTRY_FULL else b
  let b := if b.rings.held.isEmpty then b else b.tick T.CQ_STALL_CYCLES
  if b.haul.cmds.isEmpty then b else b.countWaits

theorem Bench.cycle_eq (low : Bool) (b : Bench) : b.cycle low = { (b.counted low).advanceTime with cyc := (b.counted low).cyc + 1 } := rfl

theorem Bench.counted_keeps (low : Bool) (b : Bench) : b.CycleKeeps (b.counted low) := by
  have watched : b.CycleKeeps ((b.engineCycles.foldl (fun b e => b.idleSlots low e) b).watchStall b.engineCycles.length) :=
    (CycleKeeps.foldl (fun b e => CycleKeeps.idleSlots low e b) _ b).trans (CycleKeeps.watchStall _ _)
  exact .orElse .countWaits _ (.orElse (.tick · _) _ (.under (.tick · _) _ watched))

/-- Settles O2. -/
theorem emptyQueueCountsOneCycle : Obligations.EmptyQueueCountsOneCycle := by
  intro s hq
  refine ⟨{ s with dev := s.dev.cycle }, by simp only [step, hq], hq, fun n => ?_⟩
  have hbench : s.dev.cycle.bench n = if (s.dev.bench n).live then (s.dev.bench n).cycle s.dev.hub.fw.pwrfail else s.dev.bench n :=
    Vector.getElem_map _ _
  refine ⟨fun hl => by simp only [hbench, hl, Bool.false_eq_true, if_false], fun hl => ?_⟩
  obtain ⟨hcyc, htime, hpkts, hmem, hreg⟩ := (s.dev.bench n).counted_keeps s.dev.hub.fw.pwrfail
  simp only [hbench, hl, if_true, Bench.cycle_eq, Bench.advanceTime, hcyc, htime, hpkts, hmem, hreg R.face_TIME_INCR_FRAC (by decide), and_self]

/-- At reset every bench is blank. -/
theorem bench_reset (n : BenchId) : State.reset.dev.bench n = Bench.blank Power.off 0 := by
  simp only [State.reset, Device.bench, Vector.getElem_replicate]

/-- Settles O3. -/
theorem resetHoldsEverythingOff : Obligations.ResetHoldsEverythingOff := by
  refine ⟨rfl, rfl, rfl, fun _ => rfl, fun _ => rfl, fun n => ?_⟩
  rw [bench_reset]
  exact ⟨rfl, rfl, fun _ => rfl, fun _ => rfl, fun _ => rfl, fun m => congrArg Bench.evq (bench_reset m)⟩

end Sys2Proof.Machine
end

section
/-! SUPPORT. What the handling of packets leaves as it was, when a packet ends or is discarded (R47, R67, R168, R249 to R257): the state of
the bench, its ports and its claims, and every packet that is in no flow queue stays out of the flow queues. -/
namespace Sys2Proof.Machine

/-- From `b` to `b'` the bench's power, cycle count, time, sent frames, claims and ports (but for the traffic manager's requests) are as they were, and
a packet in a flow queue was there before. -/
structure Bench.Handles (b b' : Bench) : Prop where
  power : b'.power = b.power
  cyc : b'.cyc = b.cyc
  time : b'.time = b.time
  out : b'.out = b.out
  port : ∀ p, ∃ r, b'.port p = { b.port p with tmReqs := r }
  claims : b'.rings.claims = b.rings.claims
  flow : ∀ k ∈ b'.pkts, ∀ q, k.loc = .flow q → ∃ j ∈ b.pkts, j.id = k.id ∧ j.loc = .flow q

namespace Bench.Handles

variable {b b' b'' : Bench}

theorem refl (b : Bench) : b.Handles b := ⟨rfl, rfl, rfl, rfl, fun _ => ⟨_, rfl⟩, rfl, fun k hk _ hq => ⟨k, hk, rfl, hq⟩⟩

theorem trans (h : b.Handles b') (h' : b'.Handles b'') : b.Handles b'' where
  power := h'.power.trans h.power
  cyc := h'.cyc.trans h.cyc
  time := h'.time.trans h.time
  out := h'.out.trans h.out
  port p := by
    obtain ⟨r, hr⟩ := h.port p
    obtain ⟨r', hr'⟩ := h'.port p
    exact ⟨r', by rw [hr', hr]⟩
  claims := h'.claims.trans h.claims
  flow k hk q hq := by
    obtain ⟨j, hj, hid, hjq⟩ := h'.flow k hk q hq
    obtain ⟨i, hi, hid', hiq⟩ := h.flow j hj q hjq
    exact ⟨i, hi, hid'.trans hid, hiq⟩

/-- A change of other parts. -/
theorem of_eq (power : b'.power = b.power) (cyc : b'.cyc = b.cyc) (time : b'.time = b.time) (out : b'.out = b.out)
    (ports : b'.ports = b.ports) (claims : b'.rings.claims = b.rings.claims) (pkts : b'.pkts = b.pkts) :
    b.Handles b' :=
  ⟨power, cyc, time, out, fun p => ⟨(b.port p).tmReqs, by simp only [Bench.port, ports]⟩, claims, by rw [pkts]; exact (refl b).flow⟩

theorem setFld (b : Bench) (f : Fld) (v : Nat) : b.Handles (b.setFld f v) := of_eq rfl rfl rfl rfl rfl rfl rfl
theorem setReg (b : Bench) (o : Nat) (v : Word) : b.Handles (b.setReg o v) := of_eq rfl rfl rfl rfl rfl rfl rfl
theorem setLe (b : Bench) (a n v : Nat) : b.Handles (b.setLe a n v) := of_eq rfl rfl rfl rfl rfl rfl rfl
theorem setBytes (b : Bench) (a : Nat) (l : List Byte) : b.Handles (b.setBytes a l) := of_eq rfl rfl rfl rfl rfl rfl rfl
theorem setMbits (b : Bench) (a lo w v : Nat) : b.Handles (b.setMbits a lo w v) := of_eq rfl rfl rfl rfl rfl rfl rfl
theorem count (b : Bench) (k n : Nat) : b.Handles (b.count k n) := of_eq rfl rfl rfl rfl rfl rfl rfl
theorem tick (b : Bench) (k : Nat) : b.Handles (b.tick k) := of_eq rfl rfl rfl rfl rfl rfl rfl
theorem raise (b : Bench) (k : Nat) : b.Handles (b.raise k) := of_eq rfl rfl rfl rfl rfl rfl rfl
theorem withTm (b : Bench) (x : TmSt) : b.Handles { b with tm := x } := of_eq rfl rfl rfl rfl rfl rfl rfl
theorem withHop (b : Bench) (x : HopperSt) : b.Handles { b with hop := x } := of_eq rfl rfl rfl rfl rfl rfl rfl

theorem withRings (b : Bench) (x : RingSt) (h : x.claims = b.rings.claims) : b.Handles { b with rings := x } := of_eq rfl rfl rfl rfl rfl h rfl
theorem withCi (b : Bench) (x : CipherSt) : b.Handles { b with ci := x } := of_eq rfl rfl rfl rfl rfl rfl rfl
theorem withMt (b : Bench) (x : MatchSt) : b.Handles { b with mt := x } := of_eq rfl rfl rfl rfl rfl rfl rfl

theorem ite {x y : Bench} (c : Prop) [Decidable c] (hx : b.Handles x) (hy : b.Handles y) : b.Handles (if c then x else y) := by
  split
  · exact hx
  · exact hy

theorem foldl {α : Type} {f : Bench → α → Bench} (hf : ∀ (b : Bench) a, b.Handles (f b a)) (l : List α) (b : Bench) : b.Handles (l.foldl f b) :=
  foldl_keeps (P := b.Handles) (fun x a hx => hx.trans (hf x a)) l (refl b)

/-! ## Packets -/

/-- A change of some packets that brings none into a flow queue. -/
theorem mapPkts (b : Bench) {f : Pkt → Pkt} (hf : ∀ k q, (f k).loc = .flow q → (f k).id = k.id ∧ k.loc = .flow q) :
    b.Handles { b with pkts := b.pkts.map f } := by
  refine ⟨rfl, rfl, rfl, rfl, fun _ => ⟨_, rfl⟩, rfl, fun k hk q hq => ?_⟩
  obtain ⟨j, hj, rfl⟩ := List.mem_map.1 hk
  obtain ⟨hid, hloc⟩ := hf j q hq
  exact ⟨j, hj, hid.symm, hloc⟩

theorem filterPkts (b : Bench) (f : Pkt → Bool) : b.Handles { b with pkts := b.pkts.filter f } :=
  ⟨rfl, rfl, rfl, rfl, fun _ => ⟨_, rfl⟩, rfl, fun k hk _ hq => ⟨k, List.mem_of_mem_filter hk, rfl, hq⟩⟩

theorem updPkt (b : Bench) (id : Nat) {f : Pkt → Pkt} (hf : ∀ k q, (f k).loc = .flow q → (f k).id = k.id ∧ k.loc = .flow q) :
    b.Handles (b.updPkt id f) :=
  mapPkts b fun k q h => by
    split at h
    · rw [if_pos ‹_›]; exact hf k q h
    · rw [if_neg ‹_›]; exact ⟨rfl, h⟩

theorem updSharers (b : Bench) (id : Nat) {f : Pkt → Pkt} (hf : ∀ k q, (f k).loc = .flow q → (f k).id = k.id ∧ k.loc = .flow q) :
    b.Handles (b.updSharers id f) :=
  mapPkts b fun k q h => by
    split at h
    · rw [if_pos ‹_›]; exact hf k q h
    · rw [if_neg ‹_›]; exact ⟨rfl, h⟩

/-- A packet goes to a place that is no flow queue. -/
theorem movePkt (b : Bench) (id : Nat) {l : Loc} (hl : ∀ q, l ≠ .flow q) : b.Handles (b.updPkt id (fun k => { k with loc := l })) :=
  updPkt b id fun _ q h => absurd h (hl q)

/-! ## The hopper (R246 to R257) -/

theorem correctable (b : Bench) (c k : Nat) : b.Handles (b.correctable c k) := by
  unfold Bench.correctable
  exact ite _ (refl b) ((count b _ _).trans (ite _ ((setFld _ _ _).trans ((setFld _ _ _).trans ((tick _ _).trans
    ((setFld _ _ _).trans (raise _ _))))) (setFld _ _ _)))

theorem loseBuf (b : Bench) (a h : Nat) : b.Handles (b.loseBuf a h) := of_eq rfl rfl rfl rfl rfl rfl rfl

theorem hopRefuse (b : Bench) (code op agent h : Nat) : b.Handles (b.hopRefuse code op agent h) := by
  unfold Bench.hopRefuse
  exact (tick b _).trans ((ite _ (withHop _ _) ((withHop _ _).trans (tick _ _))).trans (raise _ _))

theorem setFree (b : Bench) (k v : Nat) : b.Handles (b.setFree k v) := by
  unfold Bench.setFree
  exact (setFld b _ v).trans (.trans (ite _ (setFld _ _ _) (refl _))
    (ite _ (refl _) (ite _ ((withHop _ _).trans (raise _ _)) (ite _ (withHop _ _) (refl _)))))

theorem setRec (b : Bench) (a st owner last refs gen nv : Nat) : b.Handles (b.setRec a st owner last refs gen nv) := setLe ..

theorem freeBuf (b : Bench) (h : Nat) : b.Handles (b.freeBuf h) := by
  unfold Bench.freeBuf
  exact ((setRec b _ 0 0 0 0 _ 0).trans (setLe _ _ 4 0)).trans (ite _ (refl _) ((setFree _ _ _).trans (tick _ _)))

theorem freeChain (b : Bench) (h : Nat) : b.Handles (b.freeChain h) := by
  unfold Bench.freeChain
  exact (freeBuf b h).trans (ite _ (freeBuf _ _) (refl _))

theorem hopApply (b : Bench) (op h a arg refs : Nat) : b.Handles (b.hopApply op h a arg refs) := by
  unfold Bench.hopApply
  exact ite _ (freeChain b h) (ite _ (ite _ (setRec ..) (ite _ (freeChain b h) (setRec ..)))
    (ite _ (ite _ (setRec ..) (setRec ..)) (setRec ..)))

theorem hopOp (b : Bench) (op agent h arg refs : Nat) (ecc : Ecc) : b.Handles (b.hopOp op agent h arg refs ecc).2 := by
  unfold Bench.hopOp
  dsimp only
  rw [apply_ite Prod.snd, apply_ite Prod.snd]
  exact ite _ ((correctable b 5 _).trans ((foldl (fun b x => loseBuf b x h) _ _).trans (hopRefuse ..)))
    (ite _ ((correctable b 5 _).trans (hopApply ..)) ((correctable b 5 _).trans (hopRefuse ..)))

theorem endUse (b : Bench) (agent h : Nat) (ecc : Ecc) : b.Handles (b.endUse agent h ecc) := by
  unfold Bench.endUse
  exact ite _ (hopOp ..) (ite _ (hopOp ..) (refl b))

/-! ## The queues (R213 to R225) -/

theorem addOcc (b : Bench) (p c : Nat) (d : Int) : b.Handles (b.addOcc p c d) := by
  unfold Bench.addOcc
  exact (setFld b _ _).trans ((setFld _ _ _).trans (ite _ (setFld _ _ _) (refl _)))

theorem judgeReqs (b : Bench) (p : Nat) : b.Handles (b.judgeReqs p) := by
  refine ⟨rfl, rfl, rfl, rfl, fun q => ?_, rfl, fun k hk _ hq => ⟨k, hk, rfl, hq⟩⟩
  unfold Bench.judgeReqs
  dsimp only
  by_cases h : q = p
  · subst h
    exact ⟨_, sparseGet_set_self _ _ _ _⟩
  · exact ⟨_, sparseGet_set_ne _ _ _ h⟩

theorem dequeue (b : Bench) (p : Pkt) {l : Loc} (hl : ∀ q, l ≠ .flow q) : b.Handles (b.dequeue p l) := by
  unfold Bench.dequeue
  split
  · dsimp only
    exact (withTm b _).trans ((movePkt _ _ hl).trans ((setMbits ..).trans ((setMbits ..).trans
      ((setMbits ..).trans ((addOcc ..).trans (judgeReqs ..))))))
  · exact movePkt _ _ hl

theorem unqueue (b : Bench) (p : Pkt) : b.Handles (b.unqueue p) := by
  unfold Bench.unqueue
  dsimp only
  exact (dequeue b p (by simp)).trans (withTm ..)

theorem countQueues (b : Bench) : b.Handles b.countQueues := by
  unfold Bench.countQueues
  exact (setFld b _ _).trans ((setFld _ _ _).trans (.trans (ite _ (setFld _ _ _) (refl _)) (ite _ (setFld _ _ _) (refl _))))

/-! ## The end of a packet -/

theorem postCpl (b : Bench) (slot cq : Nat) (l : List Nat) : b.Handles (b.postCpl slot cq l) := withRings _ _ rfl

theorem sendDone (b : Bench) (slot : Nat) (d : SendDesc) (status : Nat) (ts : Stamp) : b.Handles (b.sendDone slot d status ts) := by
  unfold Bench.sendDone
  exact (postCpl b _ _ _).trans ((setMbits _ _ _ _ _).trans (withRings _ _ rfl))

theorem finish (b : Bench) (slot id status : Nat) (ts : Stamp) : b.Handles (b.finish slot id status ts) := by
  unfold Bench.finish
  split
  · exact sendDone ..
  · exact refl b

theorem learnStatus (b : Bench) (id : Nat) (good : Bool) : b.Handles (b.learnStatus id good) := by
  unfold Bench.learnStatus
  exact ite _ (withMt b _) ((withMt b _).trans ((setFld _ _ _).trans (count _ _ _)))

theorem countCipher (b : Bench) : b.Handles b.countCipher :=
  foldl (fun b _ => (setFld b _ _).trans (ite _ (setFld _ _ _) (refl _))) _ b

theorem retireJobs (b : Bench) (id : Nat) : b.Handles (b.retireJobs id) := by
  unfold Bench.retireJobs
  extract_lets b1 b2
  have learnt : b.Handles b1 := ite _ (learnStatus b _ _) (refl b)
  have retired : b1.Handles b2 := updSharers b1 _ fun _ _ h => ⟨rfl, h⟩
  exact (learnt.trans retired).trans ((withCi b2 _).trans (countCipher _))

theorem forget (b : Bench) (p : Pkt) : b.Handles (b.forget p) := by
  unfold Bench.forget
  extract_lets b1 held b2
  have moved : b.Handles b1 := movePkt b _ (by simp)
  have retired : b1.Handles b2 := ite _ (refl b1) (retireJobs b1 _)
  exact (moved.trans retired).trans (filterPkts b2 _)

theorem endPkt (b : Bench) (p : Pkt) (status : Nat) (ts : Stamp) (ecc : Ecc) : b.Handles (b.endPkt p status ts ecc) := by
  unfold Bench.endPkt
  exact (unqueue b p).trans ((ite _ (refl _) (endUse _ _ _ _)).trans ((finish ..).trans ((forget _ _).trans (countQueues _))))

theorem spoilTick (b : Bench) (code inst : Nat) : b.Handles (b.spoilTick code inst) := by
  unfold Bench.spoilTick
  split
  · exact tick b _
  · exact refl b

theorem discardAt (b : Bench) (p : Pkt) (code inst : Nat) (ecc : Ecc) : b.Handles (b.discardAt p code inst ecc) :=
  (spoilTick b _ _).trans (endPkt ..)

theorem discard (b : Bench) (p : Pkt) (code : Nat) (ecc : Ecc) : b.Handles (b.discard p code ecc) := by
  unfold Bench.discard
  exact ite _ (endPkt ..) (discardAt ..)

/-! ## The end status of a packet (R67) -/

theorem setChain (b : Bench) (h i : Nat) (l : List Byte) : b.Handles (b.setChain h i l) := by
  unfold Bench.setChain
  exact ite _ ((setBytes b _ _).trans (setBytes _ _ _)) (setBytes b _ _)

theorem writeClear (b : Bench) (p : Pkt) (x : Nat) (l : List Byte) : b.Handles (b.writeClear p x l) := by
  unfold Bench.writeClear
  exact (setChain b _ _ _).trans (updSharers _ _ fun _ _ h => ⟨rfl, h⟩)

theorem writeFix (b : Bench) (p : Pkt) (f : Fixup) : b.Handles (b.writeFix p f) := by
  unfold Bench.writeFix
  dsimp only
  refine .trans (b' := ?_) ?ip ?udp
  case udp =>
    split
    · exact writeClear ..
    · exact refl _
  case ip =>
    split
    · exact ite _ (writeClear ..) ((writeClear b _ _ _).trans ((writeClear ..).trans (writeClear ..)))
    · exact refl b

theorem writeFixes (b : Bench) (p : Pkt) : b.Handles (b.writeFixes p) := by
  unfold Bench.writeFixes
  exact ite _ (refl b) ((foldl (fun b f => writeFix b p f) _ _).trans (updPkt _ _ fun _ _ h => ⟨rfl, h⟩))

theorem refund (b : Bench) (m colour d : Nat) : b.Handles (b.refund m colour d) :=
  (setMbits b _ _ _ _).trans ((setMbits ..).trans ((setMbits ..).trans (tick ..)))

theorem dropOversize (b : Bench) (p : Nat) : b.Handles (b.dropOversize p) := by
  unfold Bench.dropOversize
  exact ite _ (refl b) (foldl (fun b _ => ite _ (refl b) (foldl (fun b k => discard b k _ _) _ _)) _ _)

theorem settle (b : Bench) (p : Pkt) : b.Handles (b.settle p) := by
  unfold Bench.settle
  split
  · exact refl b
  · extract_lets f d b1 b2
    have charged : b.Handles b1 := updPkt b _ fun _ _ h => ⟨rfl, h⟩
    have refunded : b1.Handles b2 := by
      dsimp only [b2]
      split
      · exact refund ..
      · exact refl b1
    refine (charged.trans refunded).trans ?_
    split
    · exact (setMbits ..).trans ((addOcc ..).trans ((judgeReqs ..).trans (dropOversize ..)))
    · exact refl b2

theorem failHeld (b : Bench) (p : Pkt) (code : Nat) : b.Handles (b.failHeld p code) := by
  unfold Bench.failHeld
  split
  · exact ite _ (discard ..) (refl b)
  · exact forget ..
  · exact refl b
  · exact refl b
  · exact refl b
  · exact (discard ..).trans (dropOversize ..)
  · exact discard ..

theorem endStatus1 (b : Bench) (code : Nat) (p : Pkt) (hp : p ∈ b.pkts) : b.Handles (b.endStatus1 code p) := by
  unfold Bench.endStatus1
  extract_lets p' b1 b2 b3
  have ended : b.Handles b1 := by
    refine ⟨rfl, rfl, rfl, rfl, fun _ => ⟨_, rfl⟩, rfl, fun k hk q hq => ?_⟩
    obtain ⟨j, hj, rfl⟩ := List.mem_map.1 hk
    split at hq
    · exact ⟨p, hp, by rw [if_pos ‹_›], hq⟩
    · exact ⟨j, hj, by rw [if_neg ‹_›], hq⟩
  have learnt : b1.Handles b2 := ite _ (learnStatus b1 _ _) (refl b1)
  have settled : b2.Handles b3 := (ite _ (writeFixes b2 _) (refl b2)).trans (settle _ _)
  refine ended.trans (learnt.trans (settled.trans ?_))
  split
  · exact refl b3
  · exact ite _ (failHeld ..) (ite _ (forget ..) (refl b3))

theorem endStatus (b : Bench) (id code : Nat) : b.Handles (b.endStatus id code) :=
  foldl (fun b i => by
    split
    · exact endStatus1 b code _ (List.mem_of_find?_eq_some ‹_›)
    · exact refl b) _ b

end Bench.Handles

end Sys2Proof.Machine
end

section
/-! O13: a port leaves UP (R63, R75). -/
namespace Sys2Proof.Machine

/-! ## Ports -/

@[simp] theorem Bench.port_setPort_self (b : Bench) (p : Nat) (x : PortSt) : (b.setPort p x).port p = x := sparseGet_set_self _ _ _ _
theorem Bench.port_setPort_ne (b : Bench) {p q : Nat} (x : PortSt) (h : p ≠ q) : (b.setPort q x).port p = b.port p :=
  sparseGet_set_ne _ _ _ h

/-- Of port `p` only the traffic manager's requests have changed. -/
def Bench.PortKept (p : Nat) (b b' : Bench) : Prop := ∃ r, b'.port p = { b.port p with tmReqs := r }

namespace Bench.PortKept

variable {p q : Nat} {b b' b'' : Bench}

theorem of_eq (h : b'.port p = b.port p) : b.PortKept p b' := ⟨(b.port p).tmReqs, h⟩

theorem of_handles (h : b.Handles b') : b.PortKept p b' := h.port p
theorem refl (p : Nat) (b : Bench) : b.PortKept p b := of_eq rfl
theorem tick (b : Bench) (k : Nat) : b.PortKept p (b.tick k) := of_eq rfl
theorem count (b : Bench) (k n : Nat) : b.PortKept p (b.count k n) := of_eq rfl

theorem trans (h : b.PortKept p b') (h' : b'.PortKept p b'') : b.PortKept p b'' := by
  obtain ⟨r, hr⟩ := h
  obtain ⟨r', hr'⟩ := h'
  exact ⟨r', by rw [hr', hr]⟩

theorem ite {x y : Bench} (c : Prop) [Decidable c] (hx : b.PortKept p x) (hy : b.PortKept p y) : b.PortKept p (if c then x else y) := by
  split
  · exact hx
  · exact hy

theorem foldl {α : Type} {f : Bench → α → Bench} (hf : ∀ (b : Bench) a, b.PortKept p (f b a)) (l : List α) (b : Bench) :
    b.PortKept p (l.foldl f b) :=
  foldl_keeps (P := b.PortKept p) (fun x a hx => hx.trans (hf x a)) l (of_eq rfl)

section
variable (hpq : p ≠ q)
include hpq

/-! What another port's transmitter does -/

theorem setPort (b : Bench) (x : PortSt) : b.PortKept p (b.setPort q x) := of_eq (b.port_setPort_ne x hpq)

theorem sendFrame (b : Bench) (l : List Byte) (bad : Bool) : b.PortKept p (b.sendFrame q l bad) := by
  have counted : b.PortKept p (b.countTx q (pad60 l)) := ite _ ((tick b _).trans (count _ _ _)) (refl p b)
  refine counted.trans ?_
  unfold Bench.sendFrame Bench.emit
  split
  · exact of_eq rfl
  · exact setPort hpq _ _
  · exact refl p _

theorem sendPause (b : Bench) (t : Nat) : b.PortKept p (b.sendPause q t) := by
  unfold Bench.sendPause Bench.sendControl
  exact (sendFrame hpq b _ _).trans ((tick _ _).trans (setPort hpq _ _))

theorem sendPfc (b : Bench) (high low : Nat) : b.PortKept p (b.sendPfc q high low) := by
  unfold Bench.sendPfc Bench.sendControl
  exact (sendFrame hpq b _ _).trans ((foldl (fun b _ => ite _ (tick b _) (refl p b)) _ _).trans (setPort hpq _ _))

theorem sendRequest (b : Bench) : b.PortKept p (b.sendRequest q) := by
  unfold Bench.sendRequest
  exact ite _ (sendPause hpq b _) (ite _ (sendPfc hpq b _ _) (refl p b))

theorem boundary (b : Bench) : b.PortKept p (b.boundary q) := by
  unfold Bench.boundary
  exact ite _ (refl p b) ((setPort hpq b _).trans (foldl (fun b _ => sendRequest hpq b) _ _))

/-- The frame ends, its packet ends, and what waited for the boundary goes. -/
theorem frameEnd (b : Bench) (x : PortSt) (k : Pkt) (status : Nat) (ts : Stamp) (ecc : Ecc) :
    b.PortKept p (((b.setPort q x).endPkt k status ts ecc).boundary q) :=
  (setPort hpq b _).trans ((of_handles (.endPkt ..)).trans (boundary hpq _))

theorem badForward (b : Bench) (k : Pkt) : b.PortKept p (b.badForward q k) := by
  unfold Bench.badForward
  exact ((sendFrame hpq b _ _).trans (tick _ _)).trans (frameEnd hpq ..)

theorem sendWhole (b : Bench) (k : Pkt) (t : Stamp) (ecc : Ecc) : b.PortKept p (b.sendWhole q k t ecc) := by
  unfold Bench.sendWhole
  extract_lets enc l l' b1 b2 b3
  have skipped : b.PortKept p b1 := ite _ (tick b _) (refl p b)
  exact (skipped.trans (sendFrame hpq b1 _ _)).trans (frameEnd hpq ..)

theorem goOnTx (b : Bench) : b.PortKept p (b.goOnTx q) := by
  unfold Bench.goOnTx
  split
  · exact refl p b
  · exact ite _ (refl p b) (ite _ (badForward hpq b _) (ite _ (refl p b) (sendWhole hpq b _ _ _)))

end

/-- Frames in transmission go on; on a port without one nothing happens. -/
theorem goOnAll (b : Bench) (h : (b.port p).txPid = none) : b.PortKept p b.goOnAll := by
  have step : ∀ (b : Bench) q, (b.port p).txPid = none → b.PortKept p (b.goOnTx q) := fun b q hb => by
    by_cases hpq : p = q
    · subst hpq
      exact of_eq (by simp only [Bench.goOnTx, hb, Option.bind_none])
    · exact goOnTx hpq b
  have all := foldl_keeps (P := fun x : Bench => b.PortKept p x ∧ (x.port p).txPid = none) (f := Bench.goOnTx) (fun x q hx => by
    obtain ⟨r, hr⟩ := step x q hx.2
    exact ⟨hx.1.trans ⟨r, hr⟩, by rw [hr]; exact hx.2⟩) (List.range 4) ⟨of_eq rfl, h⟩
  exact all.1

end Bench.PortKept

/-! ## Leaving UP -/

/-- The frame in transmission ends. -/
theorem Bench.txPid_abortTx (b : Bench) (p : Nat) : ((b.abortTx p).port p).txPid = none := by
  have sent (x : Bench) (l : List Byte) (bad : Bool) (h : (x.port p).txPid = none) : ((x.sendFrame p l bad).port p).txPid = none := by
    have counted : (x.countTx p (pad60 l)).port p = x.port p := by unfold Bench.countTx; split <;> rfl
    unfold Bench.sendFrame Bench.emit
    split
    · exact counted ▸ h
    · simp only [port_setPort_self, counted, h]
    · exact counted ▸ h
  unfold Bench.abortTx
  split
  · assumption
  · dsimp only
    split
    · simp only [port_setPort_self]
    · obtain ⟨r, hr⟩ := (Bench.Handles.discardAt _ _ 0x21 p []).port p
      rw [hr]
      exact sent _ _ _ (by simp only [port_setPort_self])

/-- The frame being received ends too. -/
theorem Bench.pids_abortRx (b : Bench) (p : Nat) (h : (b.port p).txPid = none) :
    ((b.abortRx p).port p).rxPid = none ∧ ((b.abortRx p).port p).txPid = none := by
  have counted (x : Bench) (len : Nat) (long : Bool) : x.PortKept p (x.countRx p len long) := by
    unfold Bench.countRx
    exact ((PortKept.tick x _).trans (.count _ _ _)).trans (.ite _ (.tick _ _) (.refl p _))
  unfold Bench.abortRx
  split
  · exact ⟨‹_›, h⟩
  next id _ =>
    extract_lets x b1 b2
    have hrx : (b1.port p).rxPid = none ∧ (b1.port p).txPid = none := by
      simp only [b1, port_setPort_self, true_and]
      exact h
    have hcounted : b1.PortKept p b2 := by
      dsimp only [b2]
      split <;> exact counted ..
    have hcode : b1.PortKept p (b2.assignCode p 0x13) := hcounted.trans (.of_handles (.spoilTick b2 0x13 p))
    have hended : b1.PortKept p ((b2.assignCode p 0x13).endStatus id 0x13) :=
      hcode.trans (.of_handles (.endStatus (b2.assignCode p 0x13) id 0x13))
    obtain ⟨r, hr⟩ := hended
    obtain ⟨r', hr'⟩ := PortKept.goOnAll (p := p) _ (by rw [hr]; exact hrx.2)
    rw [hr', hr]
    exact hrx

/-! ## The registers of a port -/

theorem Bench.port_setPortSt (b : Bench) (p q st : Nat) : (b.setPortSt p st).port q = b.port q := rfl

theorem Bench.fld_raise (b : Bench) (k : Nat) (f : Fld) : (b.raise k).fld f = b.fld f := rfl

theorem Bench.portSt_setPortSt (b : Bench) (p : Nat) {st : Nat} (h : st < 8) : (b.setPortSt p st).portSt p = st := by
  have hstate : (R.face_PORT_STATUS_STATE p).lo + (R.face_PORT_STATUS_STATE p).w ≤ 32 := by
    simp only [R.face_PORT_STATUS_STATE, Nat.reduceAdd, Nat.reduceLeDiff]
  have hapart : (R.face_PORT_STATUS_LINK_CHANGED p).apart (R.face_PORT_STATUS_STATE p) := by
    simp [Fld.apart, R.face_PORT_STATUS_STATE, R.face_PORT_STATUS_LINK_CHANGED]
  rw [Bench.portSt, Bench.setPortSt, Bench.fld_raise, Bench.fld_setFld_apart _ _ _ _ hstate hapart, Bench.fld_setFld_self _ _ _ hstate]
  exact Nat.mod_eq_of_lt h

/-- A change of state keeps the fields of PORT_STATUS between STATE and LINK_CHANGED. -/
theorem Bench.fld_setPortSt (b : Bench) (p st : Nat) {f : Fld} (hlo : 3 ≤ f.lo) (hhi : f.lo + f.w ≤ 16) :
    (b.setPortSt p st).fld f = b.fld f := by
  have hchanged : (R.face_PORT_STATUS_LINK_CHANGED p).apart f := .inr (.inr hhi)
  have hstate : (R.face_PORT_STATUS_STATE p).apart f := .inr (.inl hlo)
  have hf : f.lo + f.w ≤ 32 := by omega
  rw [Bench.setPortSt, Bench.fld_raise, Bench.fld_setFld_apart _ _ _ _ hf hchanged, Bench.fld_setFld_apart _ _ _ _ hf hstate]

/-- The bench right before a port that leaves UP changes state: frames have ended, pause timers and CAL are clear. -/
def Bench.portEnded (b : Bench) (p : Nat) : Bench := (((b.abortTx p).abortRx p).clearPause p).setFld (R.face_PORT_STATUS_CAL p) 0

theorem Bench.fld_portEnded (b : Bench) (p : Nat) :
    (b.portEnded p).fld (R.face_PORT_STATUS_PAUSED p) = 0 ∧ (b.portEnded p).fld (R.face_PORT_STATUS_PFC_PAUSED p) = 0 ∧
      (b.portEnded p).fld (R.face_PORT_STATUS_CAL p) = 0 := by
  have hcal (x : Bench) (f : Fld) (hlo : 4 ≤ f.lo) (hhi : f.lo + f.w ≤ 32) : (x.setFld (R.face_PORT_STATUS_CAL p) 0).fld f = x.fld f :=
    Bench.fld_setFld_apart _ _ _ _ hhi (.inr (.inl hlo))
  refine ⟨?_, ?_, Bench.fld_setFld_self _ _ _ (Nat.le_of_ble_eq_true rfl)⟩
  · refine (hcal _ _ (Nat.le_of_ble_eq_true rfl) (Nat.le_of_ble_eq_true rfl)).trans ?_
    exact (Bench.fld_setFld_apart _ (R.face_PORT_STATUS_PFC_PAUSED p) _ _ (Nat.le_of_ble_eq_true rfl) (.inr (.inr (Nat.le_of_ble_eq_true rfl)))).trans
      (Bench.fld_setFld_self _ _ _ (Nat.le_of_ble_eq_true rfl))
  · refine (hcal _ _ (Nat.le_of_ble_eq_true rfl) (Nat.le_of_ble_eq_true rfl)).trans ?_
    exact Bench.fld_setFld_self _ _ _ (Nat.le_of_ble_eq_true rfl)

theorem Bench.port_portEnded (b : Bench) (p : Nat) :
    ((b.portEnded p).port p).rxPid = none ∧ ((b.portEnded p).port p).txPid = none ∧ ((b.portEnded p).port p).pauseQuanta = 0 ∧
      ((b.portEnded p).port p).pfcQuanta = [] := by
  have hport : (b.portEnded p).port p = { ((b.abortTx p).abortRx p).port p with pauseQuanta := 0, pfcQuanta := [] } := port_setPort_self ..
  obtain ⟨hrx, htx⟩ := (b.abortTx p).pids_abortRx p (b.txPid_abortTx p)
  rw [hport]
  exact ⟨hrx, htx, rfl, rfl⟩

/-- A port as it stands after it has left UP for state `st`. -/
def PortSt.left (x : PortSt) (st : Nat) : PortSt :=
  { x with disabling := false, retrain := st = psTraining, fails := 0, an := 0, owed := 0, faults := true, looped := [] }

theorem Bench.leaveUp_eq (b : Bench) (p st : Nat) :
    b.leaveUp p st = if (b.port p).disabling && st ≠ psDisabled then
        (((b.portEnded p).setPort p (((b.portEnded p).port p).left st)).setPortSt p st).setPortSt p psDisabled
      else ((b.portEnded p).setPort p (((b.portEnded p).port p).left st)).setPortSt p st := rfl

/-- A port that leaves UP is in the state asked for, or DISABLED where a DISABLE waited; the rest of it is the same in both cases. -/
theorem Bench.leaveUp_port (b : Bench) (p : Nat) {st : Nat} (h : st < 8) :
    (b.leaveUp p st).portSt p = (if (b.port p).disabling then psDisabled else st) ∧
      (b.leaveUp p st).port p = ((b.portEnded p).port p).left st ∧
      ∀ f : Fld, 3 ≤ f.lo → f.lo + f.w ≤ 16 → (b.leaveUp p st).fld f = (b.portEnded p).fld f := by
  rw [Bench.leaveUp_eq]
  split
  · next hlate =>
    obtain ⟨hdis, -⟩ := Bool.and_eq_true_iff.1 hlate
    refine ⟨?_, ?_, fun f hlo hhi => ?_⟩
    · rw [Bench.portSt_setPortSt _ _ (by decide), if_pos hdis]
    · simp only [port_setPortSt, port_setPort_self]
    · rw [Bench.fld_setPortSt _ _ _ hlo hhi, Bench.fld_setPortSt _ _ _ hlo hhi]
      rfl
  · next hlate =>
    refine ⟨?_, ?_, fun f hlo hhi => ?_⟩
    · rw [Bench.portSt_setPortSt _ _ h]
      split
      · simp_all
      · rfl
    · simp only [port_setPortSt, port_setPort_self]
    · rw [Bench.fld_setPortSt _ _ _ hlo hhi]
      rfl

/-- Settles O13: whatever the frames in progress set off, neither is left on the port. -/
theorem leavingUpStopsTheTransmitter : Obligations.LeavingUpStopsTheTransmitter := by
  intro b p st _ hst
  obtain ⟨hstate, hport, hfld⟩ := b.leaveUp_port p hst
  obtain ⟨hrx, htx, hpause, hpfc⟩ := b.port_portEnded p
  obtain ⟨hpaused, hpfcPaused, hcal⟩ := b.fld_portEnded p
  rw [hport]
  refine ⟨hstate, hrx, htx, hpause, hpfc, rfl, rfl, rfl, rfl, ?_, ?_, ?_⟩
  · exact (hfld _ (Nat.le_of_ble_eq_true rfl) (Nat.le_of_ble_eq_true rfl)).trans hpaused
  · exact (hfld _ (Nat.le_of_ble_eq_true rfl) (Nat.le_of_ble_eq_true rfl)).trans hpfcPaused
  · exact (hfld _ (Nat.le_of_ble_eq_true rfl) (Nat.le_of_ble_eq_true rfl)).trans hcal

end Sys2Proof.Machine
end

section
/-! O26 in a bench that still holds an event, as for O31 to O37. -/
namespace Sys2Proof.Machine

/-- A packet in the host delivery queue whose end status is known. -/
def deliverablePkt : Pkt := { Pkt.fresh 0 .hostQ 0 0 0 0 with ended := true }

/-- The device with an enabled manager and, as bench 0, a RUNNING bench with that packet at the head of its host delivery queue and a
change of its state (event 0) that has not been handed over. -/
def deliveringState : State :=
  let b := benchAtWord 0 [0]
  { State.reset with dev := { State.reset.dev with
    hub := managedHub
    benches := State.reset.dev.benches.set 0 { b with pkts := [deliverablePkt], tm := { b.tm with hostQ := [0] } } } }

/-- Taking the packet hands the event over, and the manager gets its notice. -/
theorem noticesAfter_hostDeliveryTake : noticesAfter (exec (.hostDeliveryTake 0) deliveringState) = some 1 := by decide

/-- Refutes O26: the host delivery's take in a bench whose event 0 waits queues the event's notice for the manager, so the firmware's
state is not as it was. -/
theorem not_trafficManagerCommands : ¬ Obligations.TrafficManagerCommands := by
  unfold Obligations.TrafficManagerCommands
  rintro ⟨-, -, -, -, -, -, -, -, -, -, -, -, htake, -⟩
  obtain ⟨t, he, -, hfw, -⟩ := htake 0 0 [] deliverablePkt deliveringState (by decide) (by decide) (by decide) (by decide) (by decide)
    (by decide) (by decide)
  have hkept : noticesAfter (exec (.hostDeliveryTake 0) deliveringState) = some (deliveringState.dev.hub.mbx 0).notices.length := by
    simp only [he, noticesAfter, Hub.mbx, hfw]
  rw [noticesAfter_hostDeliveryTake] at hkept
  exact absurd hkept (by decide)

end Sys2Proof.Machine
end

section
/-! SUPPORT. Commands of one bench, their bench given by an equation. -/
namespace Sys2Proof.Machine

variable {c : Instr} {n : BenchId} {s : State}

theorem leaves_of_eq {f : Bench → Bench} {b : Bench} (he : exec c s = s.onBench n f) (hl : (s.dev.bench n).live = true)
    (h : f (s.dev.bench n) = b) : Leaves c n s b :=
  leaves_onBench he hl fun l => congrArg (Bench.afterEvents · l) h

/-- The bench but for its events, which are handed over. -/
theorem leaves_of_afterEvents {f : Bench → Bench} {b : Bench} (he : exec c s = s.onBench n f) (hl : (s.dev.bench n).live = true)
    (h : ∀ l, (f (s.dev.bench n)).afterEvents l = b.afterEvents l) : Leaves c n s b := leaves_onBench he hl h

theorem answers_of_eq {f : Bench → List Nat × Bench} {a : List Nat} {b : Bench} (he : exec c s = s.onRead n f)
    (hl : (s.dev.bench n).live = true) (h : f (s.dev.bench n) = (a, b)) : Answers c n s a b :=
  answers_onRead he hl (by rw [h]) fun l => by rw [h]

theorem RegsKept.afterEvents {S : Nat → Prop} {b b' : Bench} (h : RegsKept S b b') (l : List Tlp) : RegsKept S b (b'.afterEvents l) :=
  fun o ho => (Bench.afterEvents_reg b' l o).trans (h o ho)

end Sys2Proof.Machine
end
section
/-! O18: the time counter and its outputs (R77 to R79, R574). -/
namespace Sys2Proof.Machine

/-- With no list in force or waiting a step of the counter moves no gate. -/
theorem Bench.gateStep_of_no_list (b : Bench) (h : ∀ p, p < 4 → b.gateOn p = false ∧ b.gatePending p = false) : b.gateStep = b := by
  have hnone : (List.range 4).filter (fun p => b.gateOn p || b.gatePending p) = [] := by
    refine List.filter_eq_nil_iff.2 fun p hp => ?_
    obtain ⟨hon, hwaits⟩ := h p (List.mem_range.1 hp)
    simp [hon, hwaits]
  unfold Bench.gateStep
  rw [hnone]
  rfl

theorem takeHeld_of_some {l : List (Option Nat)} {w v : Nat} (h : l[w]? = some (some v)) : takeHeld l w = (some v, l.set w none) := by
  simp [takeHeld, h]

theorem takeHeld_of_none {l : List (Option Nat)} {w : Nat} (h : l[w]? = some none) : (takeHeld l w).1 = none := by
  simp [takeHeld, h]

theorem Bench.timeLoad_of_valid (b : Bench) (h : getBits (b.reg (R.face_TIME_SET 0)).toNat 0 30 < 1000000000) :
    b.timeLoad = ({ b with time := { b.time with
      sec := (b.reg (R.face_TIME_SET 1)).toNat + 2 ^ 32 * getBits (b.reg (R.face_TIME_SET 2)).toNat 0 16
      ns := getBits (b.reg (R.face_TIME_SET 0)).toNat 0 30
      frac := getBits (b.reg (R.face_TIME_SET 2)).toNat 16 4 * 2 ^ 28 } } : Bench).gateStep := by
  unfold Bench.timeLoad
  exact if_neg (not_le.2 h)

/-- The bench with three words put in TIME_SNAP. -/
def Bench.putSnap (b : Bench) (w : Nat → Word) : Bench :=
  ((b.setReg (R.face_TIME_SNAP 0) (w 0)).setReg (R.face_TIME_SNAP 1) (w 1)).setReg (R.face_TIME_SNAP 2) (w 2)

/-- Three words put in TIME_SNAP are read there, and nothing else has changed. -/
theorem Bench.putSnap_spec (b : Bench) (w : Nat → Word) :
    (∀ i, i < 3 → (b.putSnap w).reg (R.face_TIME_SNAP i) = w i) ∧
      (b.putSnap w).mem = b.mem ∧ (b.putSnap w).tal = b.tal ∧ (b.putSnap w).time = b.time ∧
      RegsKept (fun o => ∃ i, i < 3 ∧ o = R.face_TIME_SNAP i) b (b.putSnap w) := by
  have hne : ∀ i j, i ≠ j → R.face_TIME_SNAP i ≠ R.face_TIME_SNAP j := fun i j h => by unfold R.face_TIME_SNAP; omega
  refine ⟨fun i hi => ?_, rfl, rfl, rfl, fun o ho => ?_⟩
  · obtain rfl | rfl | rfl : i = 0 ∨ i = 1 ∨ i = 2 := by omega
    · rw [Bench.putSnap, Bench.reg_setReg_ne _ _ (hne _ _ (by decide)), Bench.reg_setReg_ne _ _ (hne _ _ (by decide)), Bench.reg_setReg_self]
    · rw [Bench.putSnap, Bench.reg_setReg_ne _ _ (hne _ _ (by decide)), Bench.reg_setReg_self]
    · rw [Bench.putSnap, Bench.reg_setReg_self]
  · have hout : ∀ i, i < 3 → o ≠ R.face_TIME_SNAP i := fun i hi e => ho ⟨i, hi, e⟩
    rw [Bench.putSnap, Bench.reg_setReg_ne _ _ (hout 2 (by decide)), Bench.reg_setReg_ne _ _ (hout 1 (by decide)),
      Bench.reg_setReg_ne _ _ (hout 0 (by decide))]

/-- The words of TIME_SNAP that SNAP writes. -/
def Bench.snapWord (b : Bench) (i : Nat) : Word := BitVec.ofNat 32 ((Stamp.ofSixteenths b.time.sixteenths false 0).words.getD i 0)

theorem Bench.timeSnap_eq (b : Bench) : b.timeSnap = b.putSnap b.snapWord := by
  unfold Bench.timeSnap Bench.snapWord
  generalize (Stamp.ofSixteenths b.time.sixteenths false 0).words = w
  rfl

theorem runs_timeSnap {n : BenchId} {s : State} {P : Bench → Prop} (hl : (s.dev.bench n).live = true)
    (h : ∀ l, P (((s.dev.bench n).putSnap (s.dev.bench n).snapWord).afterEvents l)) : Runs (.timeSnap n) n s P :=
  runs_onBench rfl hl fun l => by rw [Bench.timeSnap_eq]; exact h l

/-- Settles O18, clause by clause. -/
theorem timeCounterAndPps : Obligations.TimeCounterAndPps := by
  refine ⟨fun n s hl => ?snap, fun n s hl hns => ?load, fun n s hl hgates hns => ?loadNoGate, fun n s hl hns => ?loadRefused,
    fun n s hl => leaves_of_eq rfl hl rfl, fun n s hl hgates => leaves_of_eq rfl hl (Bench.gateStep_of_no_list _ hgates),
    fun n v s hl => leaves_of_eq rfl hl rfl, fun n v s hl => leaves_of_eq rfl hl rfl, fun n k s hl => leaves_of_eq rfl hl rfl,
    fun n s hl hpps => ?edge, fun n x s hl hpps => ?overrun, fun n s hl hdue => leaves_of_eq rfl hl (if_pos hdue),
    fun n s hl hdue => leaves_of_eq rfl hl (by simp only [hdue, Bool.false_eq_true, if_false]),
    fun n s hl hfall => leaves_of_eq rfl hl (if_pos hfall),
    fun n s hl hfall => leaves_of_eq rfl hl (if_neg (not_le.2 hfall)), fun n x s hl hpps => ?read, fun n s hl hpps => ?readNone,
    fun n w v s hl hw hheld => ?readHeld, fun n v s hl hfreq => ?freq, fun n s hl hfreq => ?freqNone⟩
  case snap =>
    refine runs_timeSnap hl fun l => ?_
    obtain ⟨hwords, hmem, htal, htime, hregs⟩ := (s.dev.bench n).putSnap_spec (s.dev.bench n).snapWord
    exact ⟨fun i hi => (Bench.afterEvents_reg _ l _).trans (hwords i hi), (Bench.afterEvents_mem _ l).trans hmem,
      (Bench.afterEvents_tal _ l).trans htal, (Bench.afterEvents_time _ l).trans htime, hregs.afterEvents l⟩
  case load => exact leaves_of_eq rfl hl (Bench.timeLoad_of_valid _ hns)
  case loadNoGate =>
    refine runs_onBench rfl hl fun l => ?_
    rw [(Bench.timeLoad_of_valid _ hns).trans (Bench.gateStep_of_no_list _ hgates)]
    exact ⟨rfl, rfl, rfl, rfl, rfl, rfl⟩
  case loadRefused => exact leaves_of_afterEvents rfl hl fun l => by simp only [Bench.timeLoad, hns, if_true]; rfl
  case edge => exact leaves_of_eq rfl hl (by simp [hpps])
  case overrun => exact leaves_of_afterEvents rfl hl fun l => by simp only [hpps, Option.isSome_some, if_true]; rfl
  case read => exact answers_of_eq rfl hl (by simp only [Bench.ppsRead, if_true, hpps])
  case readNone => exact answers_of_eq rfl hl (by simp only [Bench.ppsRead, if_true, hpps])
  case readHeld => exact answers_of_eq rfl hl (by simp only [Bench.ppsRead, hw, if_false, takeHeld_of_some hheld])
  case freq => exact answers_of_eq rfl hl (by simp only [Bench.freqRead, hfreq])
  case freqNone => exact answers_of_eq rfl hl (by simp only [Bench.freqRead, hfreq])

end Sys2Proof.Machine
end

section
/-! O14: the end of a MAC control frame whose packet stands in the bench as one still being received. -/
namespace Sys2Proof.Machine

/-- How many packets bench 0 holds after a command. -/
def packetsAfter : Host.Outcome State Fault Refusal → Option Nat
  | .next t => some (t.dev.bench 0).pkts.length
  | _ => none

theorem packetsAfter_of_leaves {c : Instr} {s : State} {b : Bench} (h : Leaves c 0 s b) : packetsAfter (exec c s) = some b.pkts.length := by
  obtain ⟨t, he, -, -, l, hb⟩ := h
  simp only [he, packetsAfter, hb, Bench.afterEvents_pkts]

/-- A packet of 64 bytes that the face is receiving: its end status is not yet known. -/
def receivingPkt : Pkt := Pkt.fresh 0 .receiving 0 0 0 64

/-- The device with a RUNNING bench 0 whose port 0, in no pause mode, receives that packet, the EtherType 0x8808 at its place. -/
def macControlState : State :=
  let b := (benchAtWord 0 []).setBytes 0x100000C [0x88#8, 0x08#8]
  { State.reset with dev := { State.reset.dev with
    benches := State.reset.dev.benches.set 0 ({ b with pkts := [receivingPkt] }.setPort 0 { b.port 0 with rxPid := some 0 }) } }

/-- The bench forgets the frame, since its end status is known now. -/
theorem packetsAfter_rxEndStatus : packetsAfter (exec (.rxEndStatus 0 0 false false 0 0) macControlState) = some 0 := by decide

/-- Refutes O14: at the end of a MAC control frame that is not obeyed the bench marks the packet as ended, and so keeps no entry of it; the
statement's bench discards it unmarked, and so keeps its entry, as of a frame whose end status is still to come. -/
theorem not_receptionAndStations : ¬ Obligations.ReceptionAndStations := by
  unfold Obligations.ReceptionAndStations
  rintro ⟨-, -, -, -, -, hdiscarded, -⟩
  have hkept := packetsAfter_of_leaves (hdiscarded 0 0 0 receivingPkt 0 0 macControlState (by decide) (by decide) (by decide) (by decide)
    (by decide) (by decide) (by decide) (by decide))
  rw [packetsAfter_rxEndStatus] at hkept
  exact absurd hkept (by decide)

end Sys2Proof.Machine
end

section
/-! O15: pause and PFC of a bench's port (R75, R76). -/
namespace Sys2Proof.Machine

theorem sparseDrop_insert {α : Type} (k : Nat) (v : α) (l : List (Nat × α)) : sparseDrop k (sparseInsert k v l) = sparseDrop k l := by
  induction l with
  | nil => simp [sparseInsert, sparseDrop]
  | cons p t ih =>
    obtain ⟨a, x⟩ := p
    by_cases hk : k < a
    · simp [sparseInsert, sparseDrop, hk]
    · simp only [sparseInsert, hk, if_false, sparseDrop, ih]

theorem sparseDrop_drop {α : Type} (k : Nat) (l : List (Nat × α)) : sparseDrop k (sparseDrop k l) = sparseDrop k l := by
  induction l with
  | nil => rfl
  | cons p t ih =>
    obtain ⟨a, x⟩ := p
    by_cases h : a = k <;> simp [sparseDrop, h, ih]

/-- Of two writes of one key the second stands. -/
theorem sparseSet_set {α : Type} [DecidableEq α] (d : Nat → α) (l : List (Nat × α)) (k : Nat) (v w : α) :
    sparseSet d (sparseSet d l k v) k w = sparseSet d l k w := by
  have hdrop : sparseDrop k (sparseSet d l k v) = sparseDrop k l := by
    unfold sparseSet
    split
    · exact sparseDrop_drop k l
    · rw [sparseDrop_insert, sparseDrop_drop]
  rw [sparseSet, hdrop, ← sparseSet]

theorem Bench.setPort_setPort (b : Bench) (p : Nat) (x y : PortSt) : (b.setPort p x).setPort p y = b.setPort p y := by
  simp only [Bench.setPort, sparseSet_set]

/-! ## Frames that the port sends -/

theorem PortSt.with_owed {x : PortSt} (h : x.owed = 0) : { x with owed := 0 } = x := by rw [← h]

/-- One frame owed at a frame boundary leaves at once. -/
theorem Bench.oweFrame_at_boundary (b : Bench) (p : Nat) (hup : b.isUp p = true) (htx : (b.port p).txPid = none)
    (hdis : (b.port p).disabling = false) (howed : (b.port p).owed = 0) : b.oweFrame p = (b.setPort p (b.port p)).sendRequest p := by
  have hgo : (b.isUp p && !(b.port p).disabling) = true := by rw [hup, hdis]; rfl
  have hstay : ¬ ((b.port p).txPid.isSome || (b.port p).disabling || !b.isUp p) = true := by rw [htx, hdis, hup]; decide
  unfold Bench.oweFrame Bench.boundary
  rw [if_pos hgo, Bench.port_setPort_self]
  refine (if_neg hstay).trans ?_
  rw [howed, Bench.setPort_setPort]
  exact congrArg (fun x => (b.setPort p x).sendRequest p) (PortSt.with_owed howed)

/-- While a frame is in transmission the frame is owed. -/
theorem Bench.oweFrame_in_frame (b : Bench) (p : Nat) (hup : b.isUp p = true) (htx : (b.port p).txPid.isSome = true)
    (hdis : (b.port p).disabling = false) : b.oweFrame p = b.setPort p { b.port p with owed := (b.port p).owed + 1 } := by
  simp only [Bench.oweFrame, Bench.boundary, hup, hdis, htx, Bench.port_setPort_self, Bool.not_false, Bool.and_true, Bool.true_or, if_true]

/-- Two benches that are the same once port `p` is written, and now read the same there. -/
structure Bench.PortAgrees (p : Nat) (b b' : Bench) : Prop where
  port : b'.port p = b.port p
  put : ∀ x, b'.setPort p x = b.setPort p x

namespace Bench.PortAgrees

variable {p : Nat} {b b' : Bench}

theorem refl (p : Nat) (b : Bench) : b.PortAgrees p b := ⟨rfl, fun _ => rfl⟩

theorem setPort_self (p : Nat) (b : Bench) : b.PortAgrees p (b.setPort p (b.port p)) :=
  ⟨port_setPort_self .., fun x => setPort_setPort b p _ x⟩

theorem loopOf (h : b.PortAgrees p b') : b'.loopOf p = b.loopOf p := by
  change (b'.setPort p PortSt.idle).loopOf p = (b.setPort p PortSt.idle).loopOf p
  rw [h.put]

theorem tick (h : b.PortAgrees p b') (k : Nat) : (b.tick k).PortAgrees p (b'.tick k) :=
  ⟨h.port, fun x => congrArg (Bench.tick · k) (h.put x)⟩

theorem count (h : b.PortAgrees p b') (k n : Nat) : (b.count k n).PortAgrees p (b'.count k n) :=
  ⟨h.port, fun x => congrArg (Bench.count · k n) (h.put x)⟩

theorem countTx (h : b.PortAgrees p b') (l : List Byte) : (b.countTx p l).PortAgrees p (b'.countTx p l) := by
  unfold Bench.countTx
  rw [h.loopOf]
  split
  · exact (h.tick _).count _ _
  · exact h

theorem emit (h : b.PortAgrees p b') (l : List Byte) (bad : Bool) : (b.emit p l bad).PortAgrees p (b'.emit p l bad) := by
  unfold Bench.emit
  rw [h.loopOf]
  split
  · exact ⟨h.port, fun x => congrArg (fun y : Bench => ({ y with out := y.out ++ [{ port := p, bytes := l, badFcs := bad, echo := false }] } : Bench)) (h.put x)⟩
  · rw [h.port, h.put]
    exact refl p _
  · exact h

/-- A pause frame ends with a write of the port's state, so it leaves the same bench. -/
theorem sendPause (h : b.PortAgrees p b') (q : Nat) : b'.sendPause p q = b.sendPause p q := by
  have hsa : b'.portSa p = b.portSa p := by
    change (b'.setPort p PortSt.idle).portSa p = (b.setPort p PortSt.idle).portSa p
    rw [h.put]
  unfold Bench.sendPause Bench.sendControl Bench.sendFrame
  rw [hsa]
  have hsent := ((h.countTx (pad60 (macControl (b.portSa p) 1 (beBytes 2 q)))).emit (pad60 (macControl (b.portSa p) 1 (beBytes 2 q))) false).tick
    (T.PAUSE_TX p)
  dsimp only
  rw [hsent.port, hsent.put]

end Bench.PortAgrees

/-! ## Requests -/

/-- Port `p` with the requests `r`, and those that have fallen. -/
def PortSt.asked (x : PortSt) (r : Nat) : PortSt := { x with reqs := r, fell := Nat.land (Nat.lor x.fell x.reqs) (511 - r % 512) }

theorem Bench.requestChange_of_ne (b : Bench) (p : Nat) (h : b.requests p ≠ (b.port p).reqs) :
    b.requestChange p = (b.setPort p ((b.port p).asked (b.requests p))).oweFrame p := if_neg h

/-- A changed request at a frame boundary sends the frame that it asks for. -/
theorem Bench.requestChange_at_boundary (b : Bench) (p : Nat) (hup : b.isUp p = true) (h : b.requests p ≠ (b.port p).reqs)
    (htx : (b.port p).txPid = none) (hdis : (b.port p).disabling = false) (howed : (b.port p).owed = 0) :
    b.requestChange p = (b.setPort p ((b.port p).asked (b.requests p))).sendRequest p := by
  have hnow := (b.setPort p ((b.port p).asked (b.requests p))).oweFrame_at_boundary p hup (by rw [Bench.port_setPort_self]; exact htx)
    (by rw [Bench.port_setPort_self]; exact hdis) (by rw [Bench.port_setPort_self]; exact howed)
  rw [b.requestChange_of_ne p h, hnow, Bench.port_setPort_self, Bench.setPort_setPort]

theorem Bench.sendRequest_pause (b : Bench) (p : Nat) (h : (b.port p).mode = 1) :
    b.sendRequest p = b.sendPause p (if (b.port p).reqs = 0 then 0 else b.fld (R.face_PAUSE_CTL_QUANTA p)) := if_pos h

theorem Bench.sendRequest_pfc (b : Bench) (p : Nat) (h : (b.port p).mode = 2) :
    b.sendRequest p = b.sendPfc p (b.port p).reqs (b.port p).fell := by
  simp only [Bench.sendRequest, h, OfNat.ofNat_ne_one, if_false, if_true]

/-! ## One class of a PFC frame -/

theorem foldl_one_class {f : Bench → Nat → Bench} (b : Bench) {c : Nat} (hc : c < 8) :
    (List.range 8).foldl (fun b k => if bit (2 ^ c) k then f b k else b) b = f b c := by
  interval_cases c <;> rfl

theorem pfcFrameRx_eq (b : Bench) {p c : Nat} {times : List Nat} (hup : b.isUp p = true) (hmode : (b.port p).mode = 2) (hc : c < 8) :
    (if b.isUp p && (b.port p).mode = 2 then
      (List.range 8).foldl (fun b k => if bit (2 ^ c) k then b.pfcClass p k (times.getD k 0) else b) b else b) =
      b.pfcClass p c (times.getD c 0) := by
  rw [hup, hmode]
  exact foldl_one_class (f := fun b k => b.pfcClass p k (times.getD k 0)) b hc

end Sys2Proof.Machine
end

section
namespace Sys2Proof.Machine

/-- A class of a PFC frame that is enabled takes its time, and one that is not is counted as ignored. -/
theorem Bench.pfcClass_enabled (b : Bench) {p c q : Nat} (h : bit (b.fld (R.face_PAUSE_CTL_PFC_CLASS_EN p)) c = true) :
    b.pfcClass p c q = ((b.tick (T.PFC_RX (8 * p + c))).setPort p { b.port p with
      pfcQuanta := if q = 0 then (b.port p).pfcQuanta.filter (fun x => x.1 ≠ c) else (b.port p).pfcQuanta.filter (fun x => x.1 ≠ c) ++ [(c, q)] }).setFld
        (R.face_PORT_STATUS_PFC_PAUSED p) (putBits (b.fld (R.face_PORT_STATUS_PFC_PAUSED p)) c 1 (if q = 0 then 0 else 1)) := if_pos h

theorem Bench.pfcClass_ignored (b : Bench) {p c q : Nat} (h : bit (b.fld (R.face_PAUSE_CTL_PFC_CLASS_EN p)) c = false) :
    b.pfcClass p c q = (b.tick (T.PFC_RX (8 * p + c))).tick (T.PFC_IGNORED p) := if_neg (by rw [Bool.not_eq_true]; exact h)

theorem Bench.modeChange_eq (b : Bench) {p : Nat} (hport : b.hasPort p = true) (hmode : b.fld (R.face_PAUSE_CTL_MODE p) ≠ (b.port p).mode)
    (htx : (b.port p).txPid = none) (hdis : (b.port p).disabling = false) :
    b.modeChange p =
      let c := if !b.isUp p || (b.port p).adv = 0 then b
        else if (b.port p).mode = 1 then b.sendPause p 0 else b.sendPfc p 0 (b.port p).adv
      ((c.setPort p { c.port p with mode := b.fld (R.face_PAUSE_CTL_MODE p), reqs := 0, adv := 0, tmReqs := 0, fell := 0, owed := 0 }).judgeReqs
        p).requestChange p := by
  have hnow : (b.hasPort p && b.fld (R.face_PAUSE_CTL_MODE p) ≠ (b.port p).mode && (b.port p).txPid.isNone && !(b.port p).disabling) = true := by
    simp [hport, hmode, htx, hdis]
  exact if_pos hnow

theorem Bench.hasPort_of_isUp {b : Bench} {p : Nat} (h : b.isUp p = true) : b.hasPort p = true := (Bool.and_eq_true_iff.1 h).1

theorem Bench.isUp_setPort (b : Bench) (p q : Nat) (x : PortSt) : (b.setPort q x).isUp p = b.isUp p := rfl

/-- Settles O15, clause by clause. -/
theorem pauseAndPfc : Obligations.PauseAndPfc := by
  refine ⟨fun n p q s hl hup hmode => ?rx, fun n p c times s hl hup hmode hc hen ht => ?pfcSet, fun n p c times s hl hup hmode hc hen ht => ?pfcClear,
    fun n p c times s hl hup hmode hc hen => ?pfcIgnored, fun n p s hl => leaves_of_eq rfl hl rfl, fun n p c s hl => leaves_of_eq rfl hl rfl,
    fun n p s hl hup hmode hreq htx hdis howed => ?changedPause, fun n p s hl hup hmode hreq htx hdis howed => ?changedPfc,
    fun n p s hl hup hreq htx hdis => ?changedInFrame, fun n p s hl hport hup hreq => ?changedDown,
    fun n p s hl hup hmode hreqs hquanta htx hdis howed => ?repeated, fun n p s hl hport hmode hadv htx hdis => ?mode,
    fun n p s hl hup hmode hadv hold htx hdis => ?modeReleased⟩
  case rx => exact leaves_of_eq rfl hl (by rw [hup, hmode]; rfl)
  case pfcSet =>
    refine leaves_of_eq rfl hl ((pfcFrameRx_eq _ hup hmode hc).trans ?_)
    rw [Bench.pfcClass_enabled _ hen, if_neg ht, if_neg ht]
  case pfcClear =>
    refine leaves_of_eq rfl hl ((pfcFrameRx_eq _ hup hmode hc).trans ?_)
    rw [Bench.pfcClass_enabled _ hen, if_pos ht, if_pos ht]
  case pfcIgnored => exact leaves_of_eq rfl hl ((pfcFrameRx_eq _ hup hmode hc).trans (Bench.pfcClass_ignored _ hen))
  case changedPause =>
    refine leaves_of_eq rfl hl ((if_pos (Bench.hasPort_of_isUp hup)).trans ?_)
    rw [Bench.requestChange_at_boundary _ p hup hreq htx hdis howed, Bench.sendRequest_pause, Bench.port_setPort_self]
    · rfl
    · rw [Bench.port_setPort_self]; exact hmode
  case changedPfc =>
    refine leaves_of_eq rfl hl ((if_pos (Bench.hasPort_of_isUp hup)).trans ?_)
    rw [Bench.requestChange_at_boundary _ p hup hreq htx hdis howed, Bench.sendRequest_pfc, Bench.port_setPort_self]
    · rfl
    · rw [Bench.port_setPort_self]; exact hmode
  case changedInFrame =>
    refine leaves_of_eq rfl hl ((if_pos (Bench.hasPort_of_isUp hup)).trans ?_)
    rw [Bench.requestChange_of_ne _ p hreq, Bench.oweFrame_in_frame _ p (by rw [Bench.isUp_setPort]; exact hup), Bench.port_setPort_self,
      Bench.setPort_setPort]
    · rfl
    · rw [Bench.port_setPort_self]; exact htx
    · rw [Bench.port_setPort_self]; exact hdis
  case changedDown =>
    refine leaves_of_eq rfl hl ((if_pos hport).trans ?_)
    rw [Bench.requestChange_of_ne _ p hreq]
    exact if_neg (by rw [Bench.isUp_setPort, hup]; exact Bool.false_ne_true)
  case repeated =>
    have hgo : (((s.dev.bench n).port p).reqs ≠ 0 && (s.dev.bench n).fld (R.face_PAUSE_CTL_QUANTA p) ≠ 0) = true := by simp [hreqs, hquanta]
    refine leaves_of_eq rfl hl ((if_pos hgo).trans ?_)
    rw [Bench.oweFrame_at_boundary _ p hup htx hdis howed, Bench.sendRequest_pause, Bench.port_setPort_self, if_neg hreqs]
    · exact (Bench.PortAgrees.setPort_self p _).sendPause _
    · rw [Bench.port_setPort_self]; exact hmode
  case mode =>
    refine leaves_of_eq rfl hl ((Bench.modeChange_eq _ hport hmode htx hdis).trans ?_)
    have hquiet : (!(s.dev.bench n).isUp p || ((s.dev.bench n).port p).adv = 0) = true := by simp [hadv]
    dsimp only
    rw [if_pos hquiet]
  case modeReleased =>
    refine leaves_of_eq rfl hl ((Bench.modeChange_eq _ (Bench.hasPort_of_isUp hup) hmode htx hdis).trans ?_)
    have hloud : ¬ (!(s.dev.bench n).isUp p || ((s.dev.bench n).port p).adv = 0) = true := by simp [hadv, hup]
    dsimp only
    rw [if_neg hloud, if_pos hold]

end Sys2Proof.Machine
end

section
/-! O19: the three admissions to the cut graph (R96 to R99, R111). -/
namespace Sys2Proof.Machine

/-- A first cut is counted and takes the wheel in its cycle. -/
def Bench.cutTaken (b : Bench) : Bench := { b.tick T.FIRST_CUTS with wheel := ⟨some b.cyc, some b.cyc⟩ }

/-- The packet that a first cut admits: stamped with GEN_ACTIVE, the cycle and the bench time. -/
def Bench.stampedBy (b : Bench) (k : Pkt) : Pkt :=
  { k with gen := b.genActive, loc := .loop, second := false, wstart := 0, admitAt := b.cyc, seen := Stamp.ofSixteenths b.time.sixteenths false 0 }

theorem Bench.firstCut_of_unarmed (b : Bench) (k : Pkt) (wait : Nat) (ecc : Ecc) (h : b.armed = false) :
    b.firstCut k wait ecc = b.cutTaken.discard k 0x30 ecc := if_pos (show (!b.armed) = true by rw [h]; rfl)

theorem Bench.firstCut_of_armed (b : Bench) (k : Pkt) (wait : Nat) (ecc : Ecc) (h : b.armed = true) :
    b.firstCut k wait ecc = ((b.cutTaken.updPkt k.id (fun _ => b.stampedBy k)).addInflight b.genActive 1).cut (b.stampedBy k) wait ecc :=
  if_neg (show ¬ (!b.armed) = true by rw [h]; exact Bool.false_ne_true)

/-! ## The head of the loop -/

/-- The earlier of two packets by the cycle of their first cut; the first of two that are equal. -/
def earlierCut (m : Option Pkt) (k : Pkt) : Option Pkt :=
  match m with
  | some x => if k.admitAt < x.admitAt then some k else m
  | none => some k

/-- Of the packets taken so far `m` is one, if there is any, and none was admitted before it. -/
def EarliestOf (l : List Pkt) (m : Option Pkt) : Prop :=
  ∀ k, m = some k → k ∈ l ∧ ∀ j ∈ l, k.admitAt ≤ j.admitAt

theorem earliestOf_foldl (l : List Pkt) : EarliestOf l (l.foldl earlierCut none) := by
  have hall : EarliestOf l (l.foldl earlierCut none) ∧ (l ≠ [] → (l.foldl earlierCut none).isSome) := by
    induction l using List.reverseRecOn with
    | nil => exact ⟨fun k h => absurd h (by simp), fun h => absurd rfl h⟩
    | append_singleton t x ih =>
      obtain ⟨ht, hsome⟩ := ih
      rw [List.foldl_append, List.foldl_cons, List.foldl_nil]
      cases hm : t.foldl earlierCut none with
      | none =>
        have hnil : t = [] := by
          by_contra hne
          exact absurd (hsome hne) (by rw [hm]; exact Bool.false_ne_true)
        subst hnil
        refine ⟨fun k hk => ?_, fun _ => rfl⟩
        obtain rfl := Option.some.inj hk
        simp
      | some m =>
        obtain ⟨hmem, hmin⟩ := ht m hm
        unfold earlierCut
        dsimp only
        split
        · next hlt =>
          refine ⟨fun k hk => ?_, fun _ => rfl⟩
          obtain rfl := Option.some.inj hk
          refine ⟨List.mem_append_right t (List.mem_singleton_self _), fun j hj => ?_⟩
          obtain hj | hj := List.mem_append.1 hj
          · exact hlt.le.trans (hmin j hj)
          · rw [List.mem_singleton.1 hj]
        · next hge =>
          refine ⟨fun k hk => ?_, fun _ => rfl⟩
          obtain rfl := Option.some.inj hk
          refine ⟨List.mem_append_left _ hmem, fun j hj => ?_⟩
          obtain hj | hj := List.mem_append.1 hj
          · exact hmin j hj
          · rw [List.mem_singleton.1 hj]
            exact not_lt.1 hge
  exact hall.1

theorem Bench.loopHead_earliest (b : Bench) (k : Pkt) (h : b.loopHead = some k) :
    k ∈ b.pkts ∧ k.loc = .loop ∧ ∀ j ∈ b.pkts, j.loc = .loop → k.admitAt ≤ j.admitAt := by
  obtain ⟨hmem, hmin⟩ := earliestOf_foldl (b.pkts.filter (fun k => k.loc = .loop)) k h
  obtain ⟨hin, hloc⟩ := List.mem_filter.1 hmem
  exact ⟨hin, of_decide_eq_true hloc, fun j hj hjloc => hmin j (List.mem_filter.2 ⟨hj, decide_eq_true hjloc⟩)⟩

/-! ## The statement -/

/-- Settles O19, clause by clause. -/
theorem admissions : Obligations.Admissions := by
  refine ⟨fun n p ecc k s hl hk hturn harmed => ?unarmed, fun n p ecc k q s hl hk hturn harmed hq => ?armed, fun n p ecc s hl hturn => ?notTurn,
    fun n ecc k q s hl hk hturn hq => ?second, fun n ecc k s hl hk hturn => ?secondWaits, Bench.loopHead_earliest,
    fun n ecc k s hl hk hturn => ?host, fun n ecc k q b s hl hk hturn harmed hq hb hwait => ?hostArmed, fun n ecc s hl hturn => ?hostNotTurn⟩
  case unarmed => exact leaves_of_eq rfl hl (by simp only [hk, hturn, if_true]; exact Bench.firstCut_of_unarmed _ _ _ _ harmed)
  case armed =>
    subst hq
    exact leaves_of_eq rfl hl (by simp only [hk, hturn, if_true]; exact Bench.firstCut_of_armed _ _ _ _ harmed)
  case notTurn =>
    refine leaves_of_eq rfl hl ?_
    simp only [hturn, Bool.false_eq_true, if_false]
    split <;> rfl
  case second =>
    subst hq
    exact leaves_of_eq rfl hl (by simp only [hk, hturn, if_true]; rfl)
  case secondWaits => exact leaves_of_eq rfl hl (by simp only [hk, hturn, Bool.false_eq_true, if_false])
  case host => exact leaves_of_eq rfl hl (by simp only [hk, hturn, if_true])
  case hostArmed =>
    subst hq
    have hcut : ((s.dev.bench n).firstCut k (min 7 ((s.dev.bench n).cyc - k.present)) ecc).countHostEntry = b :=
      hb ▸ congrArg Bench.countHostEntry (Bench.firstCut_of_armed _ _ _ _ harmed)
    refine leaves_of_eq rfl hl ?_
    simp only [hk, hturn, if_true, Bench.hostCut, hcut, hwait]
  case hostNotTurn =>
    refine leaves_of_eq rfl hl ?_
    simp only [hturn, Bool.false_eq_true, if_false]
    split <;> rfl

end Sys2Proof.Machine
end

section
/-! O20: the writes that load and arm a graph (R112 to R115, R123, R135, R176, R180). -/
namespace Sys2Proof.Machine

/-- A reserved bit written is at most counted. -/
theorem Bench.rsvd_eq (b : Bench) (o v : Nat) : b.rsvd o v = b ∨ ∃ k, b.rsvd o v = b.tick k := by
  unfold Bench.rsvd
  split
  · split
    · exact .inr ⟨_, rfl⟩
    · exact .inl rfl
  · exact .inl rfl

theorem Bench.flag_rsvd (b : Bench) (o v : Nat) (f : Fld) : (b.rsvd o v).flag f = b.flag f := by
  obtain h | ⟨k, h⟩ := b.rsvd_eq o v <;> rw [h]
  rfl

theorem Bench.fld_rsvd (b : Bench) (o v : Nat) (f : Fld) : (b.rsvd o v).fld f = b.fld f := by
  obtain h | ⟨k, h⟩ := b.rsvd_eq o v <;> rw [h]
  rfl

theorem Bench.armed_rsvd (b : Bench) (o v : Nat) : (b.rsvd o v).armed = b.armed := b.flag_rsvd o v _

theorem Bench.writable_rsvd (b : Bench) (o v g : Nat) : (b.rsvd o v).writable g = b.writable g := by
  obtain h | ⟨k, h⟩ := b.rsvd_eq o v <;> rw [h]
  rfl

/-- A status is posted alike with an event waiting. -/
theorem Bench.postStatus_raise (b : Bench) (k o word lo w : Nat) : (b.raise k).postStatus o word lo w = (b.postStatus o word lo w).raise k := by
  unfold Bench.postStatus
  rw [show (b.raise k).reg o = b.reg o from rfl]
  dsimp only
  split <;> rfl

theorem Bench.afterEvents_raise (b : Bench) (k : Nat) (l : List Tlp) : (b.raise k).afterEvents l = b.afterEvents l := rfl

/-- Settles O20, clause by clause. -/
theorem graphAndGenerationWrites : Obligations.GraphAndGenerationWrites := by
  refine ⟨fun n v s hl hv => ?arm, fun n v s hl hv harmed => ?disarm, fun n v s hl hv harmed => ?notArmed,
    fun n g v s hl hg hw => ?node, fun n g v s hl hg hw => ?nodeRefused, fun n g v s hl hg hw => ?exc, fun n g v s hl hg hw => ?excRefused,
    fun n w v s hl hlt hw => ?recipe, fun n w v s hl hlt hw => ?recipeRefused, fun n i s hl hi hr => ?nodeCommit,
    fun n i r s hl hi hr hne => ?nodeCommitRefused, fun n i s hl hi hr => ?tplCommit, fun n i r s hl hi hr hne => ?tplCommitRefused,
    fun n s hl hidle => ?swap, fun n s hl hidle => ?swapRefused, fun n off size s hl hin hal => ?hits⟩
  case arm => exact leaves_of_eq rfl hl (if_pos hv)
  case disarm =>
    refine leaves_of_afterEvents rfl hl fun l => ?_
    simp only [Bench.graphArm, hv, Bool.false_eq_true, if_false, Bench.armed_rsvd, harmed, if_true]
    rfl
  case notArmed =>
    refine leaves_of_eq rfl hl ?_
    simp only [Bench.graphArm, hv, Bool.false_eq_true, if_false, Bench.armed_rsvd, harmed]
  case node =>
    refine leaves_of_eq rfl hl ?_
    simp only [hg, if_true, Bench.startNodeWrite, Bench.writable_rsvd, hw]
  case nodeRefused =>
    refine leaves_of_afterEvents rfl hl fun l => ?_
    simp only [hg, if_true, Bench.startNodeWrite, Bench.writable_rsvd, hw, Bool.false_eq_true, if_false]
    rfl
  case exc =>
    refine leaves_of_eq rfl hl ?_
    simp only [hg, if_true, Bench.excClassWrite, Bench.writable_rsvd, hw]
  case excRefused =>
    refine leaves_of_afterEvents rfl hl fun l => ?_
    simp only [hg, if_true, Bench.excClassWrite, Bench.writable_rsvd, hw, Bool.false_eq_true, if_false]
    rfl
  case recipe =>
    refine leaves_of_eq rfl hl ?_
    simp only [hlt, if_true, Bench.recipeWrite, hw]
  case recipeRefused =>
    refine leaves_of_afterEvents rfl hl fun l => ?_
    simp only [hlt, if_true, Bench.recipeWrite, hw, Bool.false_eq_true, if_false]
    rfl
  case nodeCommit =>
    refine leaves_of_eq rfl hl ?_
    simp only [hi, if_true, Bench.nodeCommit, hr, Nat.mul_zero, Nat.zero_add]
  case nodeCommitRefused =>
    refine leaves_of_afterEvents rfl hl fun l => ?_
    simp only [hi, if_true, Bench.nodeCommit, hr, hne, if_false, Bench.graphRefused, Bench.postStatus_raise, Bench.afterEvents_raise]
  case tplCommit =>
    refine leaves_of_eq rfl hl ?_
    simp only [hi, if_true, Bench.templateCommit, hr, Nat.mul_zero, Nat.zero_add]
  case tplCommitRefused =>
    refine leaves_of_afterEvents rfl hl fun l => ?_
    simp only [hi, if_true, Bench.templateCommit, hr, hne, if_false, Bench.graphRefused, Bench.postStatus_raise, Bench.afterEvents_raise]
  case swap => exact leaves_of_eq rfl hl (if_pos hidle)
  case swapRefused =>
    refine leaves_of_afterEvents rfl hl fun l => ?_
    simp only [Bench.genSwap, hidle, Bool.false_eq_true, if_false]
    rfl
  case hits =>
    refine answers_of_eq rfl hl ?_
    simp only [hin, hal, decide_true, Bool.and_self, if_true]
    rfl

end Sys2Proof.Machine
end

section
/-! O17: transmission (R63, R67, R68, R71 to R73, R574). -/
namespace Sys2Proof.Machine

theorem takeHeld_of_taken {l : List (Option Nat)} {w : Nat} (h : l[w]? = some none) : takeHeld l w = (none, l) := by
  simp [takeHeld, h]

/-- What the checks at the transmitter's entry do with a frame that meets no ECC error. -/
theorem Bench.txStart_eq (b : Bench) (p : Nat) (k : Pkt) (phase : Nat) : b.txStart p k phase [] =
    if !b.isUp p then b.discardAt k 0x21 p
    else if k.ended && k.oversize then b.discardAt k 0x22 p
    else if k.ring.isSome && b.fld (R.face_MAX_FRAME_BYTES p) < k.dataLen + 4 then b.discardAt k 0x23 p
    else
      let t := b.stampNow p phase (R.face_BOARD_DELAY_TX_PS (b.lane0 p))
      let c := b.captureTx p k t
      if k.ended && !k.verdictPending then
        if k.spoil = 0 then c.sendWhole p k t [] else c.discard k k.spoil []
      else
        let c := c.updPkt k.id (fun (k : Pkt) => { k with loc := .sending p, txAt := c.cyc, tx := { k.tx with stamp := some t } })
        c.setPort p { c.port p with txPid := some k.id } := by
  have hclean : b.pktbufCor [] = b := Bench.correctable_zero b 5
  have hsound (x : Bench) : x.chainUnc k.handle [] = false := by
    simp [Bench.chainUnc, Ecc.unc]
  unfold Bench.txStart
  rw [hclean]
  simp only [hsound, Bool.false_eq_true, if_false]

/-- The selected frame enters the transmitter where none is in it and no DISABLE waits. -/
theorem Bench.txFrame_of_selected {b : Bench} {p phase : Nat} {k : Pkt} (hk : b.pktAt? (.selected p) = some k)
    (htx : (b.port p).txPid = none) (hdis : (b.port p).disabling = false) : b.txFrame p phase [] = b.txStart p k phase [] := by
  unfold Bench.txFrame
  rw [hk]
  dsimp only
  rw [htx, hdis]
  exact if_neg Bool.false_ne_true

/-- A frame that leaves whole with no one-step edit: it is sent, its packet ends, and what waited for the boundary goes. -/
theorem Bench.sendWhole_plain (b : Bench) (p : Nat) (k : Pkt) (t : Stamp) (hloop : b.loopOf p = 0) (hcap : k.tx.capture = false) (hop : k.tx.ptpOp = 0) :
    b.sendWhole p k t [] =
      (((b.sendFrame p (b.frameBytes k) false).setPort p { b.port p with txPid := none }).endPkt k 0 Stamp.none).boundary p := by
  have hport : (b.sendFrame p (b.frameBytes k) false).port p = b.port p := by
    rw [Bench.sendFrame_of_no_loop hloop]
    rfl
  simp only [Bench.sendWhole, hop, hcap, ne_eq, not_true_eq_false, decide_false, Bool.false_and, Bool.false_eq_true, if_false, hport]

/-- Settles O17, clause by clause. -/
theorem transmission : Obligations.Transmission := by
  refine ⟨fun n p phase k s hl hup hk htx hdis hloop hlong hring hcap hop hended hverdict hspoil => ?whole,
    fun n p phase k s hl hup hk htx hdis hring hcap hopen => ?cutThrough, fun n p phase k s hl hup hk htx hdis => ?linkDown,
    fun n p phase k s hl hup hk htx hdis hended hlong => ?truncated, fun n p phase r k s hl hup hk htx hdis hlong hring hlen => ?oversize,
    fun n p sent id r k s hl htx hk hring hended => ?underrun, fun n p tag x q s hl hport hq => ?head, fun n p s hl hport hq => ?empty,
    fun n p w v s hl hport hw hheld => ?word, fun n p w s hl hport hw hheld => ?wordTaken⟩
  case whole =>
    refine leaves_of_eq rfl hl ((Bench.txFrame_of_selected hk htx hdis).trans ?_)
    rw [Bench.txStart_eq, ← Bench.sendWhole_plain _ p k ((s.dev.bench n).stampNow p phase (R.face_BOARD_DELAY_TX_PS ((s.dev.bench n).lane0 p)))
      hloop hcap hop]
    simp [hup, hlong, hring, hended, hverdict, hspoil, Bench.captureTx, hcap]
  case cutThrough =>
    have hnot : (k.ended && !k.verdictPending) = false := by
      obtain h | ⟨h, -⟩ := hopen <;> simp [h]
    have hshort : (k.ended && k.oversize) = false := by
      obtain h | ⟨-, h⟩ := hopen <;> simp [h]
    refine runs_onBench rfl hl fun l => ?_
    rw [Bench.txFrame_of_selected hk htx hdis, Bench.txStart_eq]
    simp only [hup, hshort, hring, hnot, Bench.captureTx, hcap, Bool.not_true, Bool.not_false, Option.isSome_none, Bool.false_and,
      Bool.false_eq_true, if_false, if_true]
    refine ⟨by rw [Bench.afterEvents_port, Bench.port_setPort_self], rfl, rfl, fun j hj hid => ?_⟩
    obtain ⟨i, -, rfl⟩ := List.mem_map.1 hj
    split at hid
    · next h => rw [if_pos h]
    · next h => exact absurd hid h
  case linkDown =>
    refine leaves_of_eq rfl hl ((Bench.txFrame_of_selected hk htx hdis).trans ?_)
    rw [Bench.txStart_eq]
    exact if_pos (by rw [hup]; rfl)
  case truncated =>
    refine leaves_of_eq rfl hl ((Bench.txFrame_of_selected hk htx hdis).trans ?_)
    rw [Bench.txStart_eq]
    simp only [hup, hended, hlong, Bool.not_true, Bool.false_eq_true, if_false, Bool.and_self, if_true]
  case oversize =>
    refine leaves_of_eq rfl hl ((Bench.txFrame_of_selected hk htx hdis).trans ?_)
    rw [Bench.txStart_eq]
    simp only [hup, hlong, hring, hlen, Bool.not_true, Bool.and_false, Bool.false_eq_true, if_false, Option.isSome_some, decide_true, Bool.and_self,
      if_true]
  case underrun =>
    refine leaves_of_eq rfl hl ?_
    simp only [htx, Option.bind_some, hk, hring, hended, Bool.false_eq_true, if_false]
    rfl
  case head => exact answers_of_eq rfl hl (by simp only [hport, if_true, Bench.txTsRead, hq])
  case empty => exact answers_of_eq rfl hl (by simp only [hport, if_true, Bench.txTsRead, hq])
  case word => exact answers_of_eq rfl hl (by simp only [hport, if_true, Bench.txTsRead, hw, if_false, takeHeld_of_some hheld])
  case wordTaken => exact answers_of_eq rfl hl (by simp only [hport, if_true, Bench.txTsRead, hw, if_false, takeHeld_of_taken hheld])

end Sys2Proof.Machine
end

section
/-! O22: the table operations at the head of the operation queue (R136 to R140, R156). -/
namespace Sys2Proof.Machine

/-! ## The head of the queue -/

/-- The operation at the head of the queue that has not been carried out ends with what its command makes of it. -/
theorem Bench.runHeadOp_of_head {b : Bench} {o : TableOp} {t : List TableOp} {op : Nat} {ecc : Ecc} {r : OpResult × Bench}
    (hq : b.mt.opq = o :: t) (hres : o.res = none) (hop : o.op = op) (hr : b.tableOp op o.slot o.dst o.image o.expect ecc = r) :
    b.runHeadOp op ecc = r.2.headDone o t r.1 := by
  subst hop
  unfold Bench.runHeadOp
  rw [hq]
  dsimp only
  rw [if_pos (show (decide (o.op = o.op) && o.res.isNone) = true by simp [hres]), hr]
  rfl

/-- A table command whose operation is at the head of the queue: the bench that it leaves. -/
theorem leaves_of_tableOp {c : Instr} {n : BenchId} {s : State} {o : TableOp} {t : List TableOp} {op : Nat} {ecc : Ecc} {r : OpResult} {b : Bench}
    (he : exec c s = s.onBench n (fun b => b.runHeadOp op ecc)) (hl : (s.dev.bench n).live = true)
    (hq : (s.dev.bench n).mt.opq = o :: t) (hres : o.res = none) (hop : o.op = op)
    (hr : (s.dev.bench n).tableOp op o.slot o.dst o.image o.expect ecc = (r, b)) : Leaves c n s (b.headDone o t r) :=
  leaves_of_eq he hl (Bench.runHeadOp_of_head hq hres hop hr)

/-- The same of one that raises an event. -/
theorem leaves_of_tableOp_raise {c : Instr} {n : BenchId} {s : State} {o : TableOp} {t : List TableOp} {op k : Nat} {ecc : Ecc} {r : OpResult}
    {b : Bench} (he : exec c s = s.onBench n (fun b => b.runHeadOp op ecc)) (hl : (s.dev.bench n).live = true)
    (hq : (s.dev.bench n).mt.opq = o :: t) (hres : o.res = none) (hop : o.op = op)
    (hr : (s.dev.bench n).tableOp op o.slot o.dst o.image o.expect ecc = (r, b.raise k)) : Leaves c n s (b.headDone o t r) :=
  leaves_of_afterEvents he hl fun l => (congrArg (Bench.afterEvents · l) (Bench.runHeadOp_of_head hq hres hop hr)).trans rfl

/-- An operation whose slots meet no error. -/
theorem Bench.reading_nil (b : Bench) (l : List Nat) (f : Bench → OpResult × Bench) : b.reading [] l f = f b := by
  simp only [Bench.reading, corSlots_nil, badSlot_nil, Bench.correctable_zero]

/-- A slot with an uncorrectable error ends the operation that reads it. -/
theorem Bench.reading_unc (b : Bench) (i : Nat) (f : Bench → OpResult × Bench) : b.reading [(slotAddr i, true)] [i] f = b.opEcc i := by
  have hcor : corSlots [(slotAddr i, true)] [i] = 0 := by simp [corSlots, Ecc.cor]
  have hbad : badSlot [(slotAddr i, true)] [i] = some i := by simp [badSlot, Ecc.unc]
  simp only [Bench.reading, hcor, hbad, Bench.correctable_zero]

/-! ## The results -/

section
variable {b : Bench} {e : List Byte}

theorem Bench.opLookup_hit {i : Nat} (hok : keyImageOk e = true) (hf : b.findKey (slTable e) (slGen e) (slKey e) = some i) :
    b.opLookup e [] = ({ code := 0, slot := some i, bytes := b.slot i }, b) := by
  simp only [Bench.opLookup, hok, Bool.not_true, Bool.false_eq_true, if_false, Bench.reading_nil, hf]

theorem Bench.opLookup_miss (hok : keyImageOk e = true) (hf : b.findKey (slTable e) (slGen e) (slKey e) = none) :
    b.opLookup e [] = (OpResult.plain 2 none, b) := by
  simp only [Bench.opLookup, hok, Bool.not_true, Bool.false_eq_true, if_false, Bench.reading_nil, hf]

theorem Bench.opLookup_bad (hok : keyImageOk e = false) : b.opLookup e [] = (OpResult.plain 7 none, b) := by
  simp only [Bench.opLookup, hok, Bool.not_false, if_true]

theorem Bench.opInsert_bad (hok : imageOk e = false) : b.opInsert e [] = (OpResult.plain 7 none, b) := by
  simp only [Bench.opInsert, hok, Bool.not_false, if_true]

theorem Bench.opInsert_held {i : Nat} (hok : imageOk e = true) (hf : b.findKey (slTable e) (slGen e) (slKey e) = some i) :
    b.opInsert e [] = ({ code := 1, slot := some i, bytes := b.slot i }, b) := by
  simp only [Bench.opInsert, hok, Bool.not_true, Bool.false_eq_true, if_false, Bench.reading_nil, hf]

theorem Bench.opInsert_full (hok : imageOk e = true) (hf : b.findKey (slTable e) (slGen e) (slKey e) = none)
    (hlim : b.fld (R.match_TABLE_CFG_LIMIT (slTable e)) ≤ b.fld (R.match_TABLE_COUNT_COUNT (slTable e))) :
    b.opInsert e [] = (OpResult.plain 4 none, b) := by
  simp only [Bench.opInsert, hok, Bool.not_true, Bool.false_eq_true, if_false, Bench.reading_nil, hf, hlim, if_true]

theorem Bench.opInsert_placed {i : Nat} (hok : imageOk e = true) (hf : b.findKey (slTable e) (slGen e) (slKey e) = none)
    (hlim : b.fld (R.match_TABLE_COUNT_COUNT (slTable e)) < b.fld (R.match_TABLE_CFG_LIMIT (slTable e)))
    (hslot : (if b.freeSlots 0 (b.candidate 0 (slTable e) (slKey e)) < b.freeSlots 1 (b.candidate 1 (slTable e) (slKey e))
      then b.freeSlot 1 (b.candidate 1 (slTable e) (slKey e)) else b.freeSlot 0 (b.candidate 0 (slTable e) (slKey e))) = some i)
    (hfrozen : b.frozen e = false) :
    b.opInsert e [] = (OpResult.plain 0 (some i), b.placeSlot i (putAt e 60 (leBytes 4 (putBits (slCtl e) 0 1 1))) false) := by
  simp only [Bench.opInsert, hok, Bool.not_true, Bool.false_eq_true, if_false, Bench.reading_nil, hf, not_le.2 hlim, hslot, hfrozen]

theorem Bench.opInsert_no_room (hok : imageOk e = true) (hf : b.findKey (slTable e) (slGen e) (slKey e) = none)
    (hlim : b.fld (R.match_TABLE_COUNT_COUNT (slTable e)) < b.fld (R.match_TABLE_CFG_LIMIT (slTable e)))
    (hfirst : b.freeSlot 0 (b.candidate 0 (slTable e) (slKey e)) = none) (hsecond : b.freeSlots 1 (b.candidate 1 (slTable e) (slKey e)) = 0) :
    b.opInsert e [] =
      ({ code := 3, slot := none, bytes := leBytes 4 (b.candidate 0 (slTable e) (slKey e) + 65536 * b.candidate 1 (slTable e) (slKey e)) ++ List.replicate 60 0#8 },
        (b.tick T.INSERT_NO_ROOM).raise 17) := by
  simp only [Bench.opInsert, hok, Bool.not_true, Bool.false_eq_true, if_false, Bench.reading_nil, hf, not_le.2 hlim, hsecond, Nat.not_lt_zero, hfirst]

theorem Bench.opDelete_miss (hok : keyImageOk e = true) (hf : b.findKey (slTable e) (slGen e) (slKey e) = none) :
    b.opDelete e [] = (OpResult.plain 2 none, b) := by
  simp only [Bench.opDelete, hok, Bool.not_true, Bool.false_eq_true, if_false, Bench.reading_nil, hf]

theorem Bench.opDelete_hit {i : Nat} (hok : keyImageOk e = true) (hf : b.findKey (slTable e) (slGen e) (slKey e) = some i) :
    b.opDelete e [] = if b.frozen (b.slot i) then b.opFrozen else (OpResult.plain 0 (some i), b.clearSlot i) := by
  simp only [Bench.opDelete, hok, Bool.not_true, Bool.false_eq_true, if_false, Bench.reading_nil, hf]

theorem Bench.opUpdate_eq (i : Nat) (expect : List Byte) (hok : imageOk e = true) :
    b.opUpdate i e expect [] =
      if !slValid (b.slot i) || slTable (b.slot i) ≠ slTable e || slKey (b.slot i) ≠ slKey e then (OpResult.plain 2 none, b)
      else if slAction (b.slot i) ≠ expect then ({ code := 5, slot := none, bytes := b.slot i }, b)
      else match (b.keySlots e).find? (fun j => j ≠ i && b.holds (slTable e) (slGen e) (slKey e) j) with
      | some j => ({ code := 1, slot := some j, bytes := b.slot j }, b)
      | none =>
        if b.frozen (b.slot i) then b.opFrozen
        else (OpResult.plain 0 none, b.setBytes (slotAddr i + 48) (slAction e ++ leBytes 4 (putBits (slCtl e) 0 1 1))) := by
  simp only [Bench.opUpdate, hok, Bool.not_true, Bool.false_eq_true, if_false, Bench.reading_nil] <;> rfl

theorem Bench.opMove_eq (i j : Nat) :
    b.opMove i j [] =
      if slValid (b.slot i) && !slValid (b.slot j) && b.candidate (j / 32768) (slTable (b.slot i)) (slKey (b.slot i)) = j / 4 % 8192 then
        (OpResult.plain 0 none, b.moveSlot i j)
      else (OpResult.plain 6 none, b) := by
  unfold Bench.opMove
  rw [Bench.reading_nil]

end

end Sys2Proof.Machine
end

section
namespace Sys2Proof.Machine

/-! ## Changes of registers alone -/

/-- Of the bench only registers have changed. -/
def Bench.RegsOnly (b b' : Bench) : Prop := ∃ l, b' = { b with regs := l }

namespace Bench.RegsOnly

variable {b b' b'' : Bench}

theorem refl (b : Bench) : b.RegsOnly b := ⟨b.regs, rfl⟩
theorem setReg (b : Bench) (o : Nat) (v : Word) : b.RegsOnly (b.setReg o v) := ⟨_, rfl⟩
theorem setFld (b : Bench) (f : Fld) (v : Nat) : b.RegsOnly (b.setFld f v) := ⟨_, rfl⟩

theorem trans (h : b.RegsOnly b') (h' : b'.RegsOnly b'') : b.RegsOnly b'' := by
  obtain ⟨l, rfl⟩ := h
  obtain ⟨l', rfl⟩ := h'
  exact ⟨l', rfl⟩

theorem foldl {α : Type} {f : Bench → α → Bench} (hf : ∀ (b : Bench) a, b.RegsOnly (f b a)) (l : List α) (b : Bench) : b.RegsOnly (l.foldl f b) :=
  foldl_keeps (P := b.RegsOnly) (fun x a hx => hx.trans (hf x a)) l (refl b)

theorem mem (h : b.RegsOnly b') : b'.mem = b.mem := by obtain ⟨l, rfl⟩ := h; rfl
theorem tal (h : b.RegsOnly b') : b'.tal = b.tal := by obtain ⟨l, rfl⟩ := h; rfl
theorem mt (h : b.RegsOnly b') : b'.mt = b.mt := by obtain ⟨l, rfl⟩ := h; rfl
theorem eng (h : b.RegsOnly b') : b'.eng = b.eng := by obtain ⟨l, rfl⟩ := h; rfl
theorem pkts (h : b.RegsOnly b') : b'.pkts = b.pkts := by obtain ⟨l, rfl⟩ := h; rfl
theorem out (h : b.RegsOnly b') : b'.out = b.out := by obtain ⟨l, rfl⟩ := h; rfl
theorem power (h : b.RegsOnly b') : b'.power = b.power := by obtain ⟨l, rfl⟩ := h; rfl
theorem port (h : b.RegsOnly b') (p : Nat) : b'.port p = b.port p := by obtain ⟨l, rfl⟩ := h; rfl

end Bench.RegsOnly

/-- Words written to registers of different offsets are read there. -/
theorem Bench.reg_foldl_setReg {f : Nat → Nat} (hf : ∀ i j, f i = f j → i = j) (g : Nat → Word) (l : List Nat) (b : Bench) {w : Nat} (hw : w ∈ l) :
    (l.foldl (fun b w => b.setReg (f w) (g w)) b).reg (f w) = g w := by
  induction l using List.reverseRecOn with
  | nil => cases hw
  | append_singleton t x ih =>
    rw [List.foldl_append, List.foldl_cons, List.foldl_nil]
    by_cases h : w = x
    · rw [h, Bench.reg_setReg_self]
    · obtain hin | hx := List.mem_append.1 hw
      · rw [Bench.reg_setReg_ne _ _ (fun e => h (hf _ _ e)), ih hin]
      · exact absurd (List.mem_singleton.1 hx) h

theorem Bench.reg_foldl_setReg_ne {f : Nat → Nat} (g : Nat → Word) (l : List Nat) (b : Bench) {o : Nat} (ho : ∀ w ∈ l, o ≠ f w) :
    (l.foldl (fun b w => b.setReg (f w) (g w)) b).reg o = b.reg o := by
  induction l generalizing b with
  | nil => rfl
  | cons x t ih => rw [List.foldl_cons, ih _ (fun w hw => ho w (List.mem_cons_of_mem x hw)), Bench.reg_setReg_ne _ _ (ho x List.mem_cons_self)]

/-! ## The end of a register operation -/

/-- A posted status changes tallies, counts of results and its own register. -/
theorem Bench.postStatus_spec (b : Bench) (o word lo w : Nat) :
    (b.postStatus o word lo w).mem = b.mem ∧ (b.postStatus o word lo w).mt = b.mt ∧ (b.postStatus o word lo w).eng = b.eng ∧
      (∀ x, x ≠ o → (b.postStatus o word lo w).reg x = b.reg x) ∧
      ∃ k, (b.postStatus o word lo w).reg o = BitVec.ofNat 32 (1 + word + k * 2 ^ lo) := by
  unfold Bench.postStatus
  have hcount (x : Bench) (hx : x = b ∨ x = b.tick T.COMMIT_STATUS_LOST) :
      x.mem = b.mem ∧ x.mt = b.mt ∧ x.eng = b.eng ∧ ∀ y, x.reg y = b.reg y := by
    obtain rfl | rfl := hx
    · exact ⟨rfl, rfl, rfl, fun _ => rfl⟩
    · exact ⟨rfl, rfl, rfl, fun _ => rfl⟩
  generalize hc : (if (b.reg o).toNat % 2 = 1 then b.tick T.COMMIT_STATUS_LOST else b) = x
  obtain ⟨hmem, hmt, heng, hreg⟩ := hcount x (by rw [← hc]; split; exacts [.inr rfl, .inl rfl])
  dsimp only
  exact ⟨hmem, hmt, heng, fun y hy => (Bench.reg_setReg_ne _ _ hy).trans (hreg y), _, Bench.reg_setReg_self _ _ _⟩

/-- What the status register says of a result: DONE, the code, and the slot under a code that leaves it room. -/
theorem status_fields (code slot k : Nat) :
    (BitVec.ofNat 32 (1 + (2 * code + 256 * slot) + k * 2 ^ 24)).toNat % 2 = 1 ∧
      getBits (BitVec.ofNat 32 (1 + (2 * code + 256 * slot) + k * 2 ^ 24)).toNat 1 7 = code % 128 ∧
      (code < 16 → getBits (BitVec.ofNat 32 (1 + (2 * code + 256 * slot) + k * 2 ^ 24)).toNat 8 16 = slot % 65536) := by
  simp only [BitVec.toNat_ofNat, getBits]
  refine ⟨?_, ?_, fun hc => ?_⟩ <;> omega

theorem Bench.postOp_spec (b : Bench) (r : OpResult) :
    (b.postOp r).mem = b.mem ∧ (b.postOp r).mt = b.mt ∧ (b.postOp r).eng = b.eng ∧
      (∀ w, w < 16 → (b.postOp r).reg (R.match_OP_RESULT w) = BitVec.ofNat 32 (leNat (slice r.bytes (4 * w) 4))) ∧
      ∃ k, (b.postOp r).reg R.match_OP_STATUS = BitVec.ofNat 32 (1 + (2 * r.code + 256 * (b.opSlot r).1) + k * 2 ^ 24) := by
  have hslot : (b.opSlot r).2.mem = b.mem ∧ (b.opSlot r).2.mt = b.mt ∧ (b.opSlot r).2.eng = b.eng := by
    unfold Bench.opSlot
    split <;> exact ⟨rfl, rfl, rfl⟩
  obtain ⟨hmem, hmt, heng⟩ := hslot
  have hwords (w : Nat) (hw : w < 16) : w ∈ List.range 16 := List.mem_range.2 hw
  have hinj : ∀ i j, R.match_OP_RESULT i = R.match_OP_RESULT j → i = j := fun i j h => by unfold R.match_OP_RESULT at h; omega
  have hbelow (w : Nat) (hw : w < 16) : R.match_OP_RESULT w ≠ R.match_OP_STATUS := by unfold R.match_OP_RESULT R.match_OP_STATUS; omega
  have hput := Bench.RegsOnly.foldl (fun (b : Bench) w => .setReg b (R.match_OP_RESULT w) (BitVec.ofNat 32 (leNat (slice r.bytes (4 * w) 4))))
    (List.range 16) (b.opSlot r).2
  unfold Bench.postOp
  dsimp only
  obtain ⟨hpmem, hpmt, hpeng, hpreg, k, hk⟩ := Bench.postStatus_spec ((List.range 16).foldl (fun (b : Bench) w =>
    b.setReg (R.match_OP_RESULT w) (BitVec.ofNat 32 (leNat (slice r.bytes (4 * w) 4)))) (b.opSlot r).2) R.match_OP_STATUS
      (2 * r.code + 256 * (b.opSlot r).1) 24 8
  refine ⟨hpmem.trans (hput.mem.trans hmem), hpmt.trans (hput.mt.trans hmt), hpeng.trans (hput.eng.trans heng), fun w hw => ?_, k, hk⟩
  rw [hpreg _ (hbelow w hw)]
  exact Bench.reg_foldl_setReg hinj (fun w => BitVec.ofNat 32 (leNat (slice r.bytes (4 * w) 4))) _ _ (hwords w hw)

/-- The bench without the operation at the head of its queue. -/
def Bench.withOpq (b : Bench) (t : List TableOp) : Bench := { b with mt := { b.mt with opq := t } }

/-- With no thread waiting, a register operation that is over leaves the queue and its result is posted. -/
theorem Bench.opDone_of_reg {b : Bench} {o : TableOp} {t : List TableOp} {r : OpResult} (hq : b.mt.opq = o :: t) (hres : o.res = some r)
    (hsrc : o.src = .reg) (hnone : b.eng.blocked = []) : b.opDone = (b.withOpq t).postOp r := by
  have hfed (x : Bench) (hx : x.eng.blocked = []) : x.feedTops = x := by
    unfold Bench.feedTops
    rw [hx]
    rfl
  obtain ⟨-, -, heng, -⟩ := (b.withOpq t).postOp_spec r
  unfold Bench.opDone
  simp only [hq, hres, hsrc]
  exact hfed ((b.withOpq t).postOp r) ((congrArg EngineSt.blocked heng).trans hnone)

/-- The stall watch is judged in registers alone. -/
theorem Bench.judgeStall_regsOnly (b : Bench) : b.RegsOnly b.judgeStall := by
  obtain h | h := b.judgeStall_eq <;> rw [h]
  · exact .refl b
  · exact (Bench.RegsOnly.setFld b _ _).trans (.setFld _ _ _)

end Sys2Proof.Machine
end

section
namespace Sys2Proof.Machine

/-- Settles O22, clause by clause. -/
theorem tableOperations : Obligations.TableOperations := by
  refine ⟨fun n o t i s hl hq hres hop hok hf => leaves_of_tableOp rfl hl hq hres hop (Bench.opLookup_hit hok hf),
    fun n o t s hl hq hres hop hok hf => leaves_of_tableOp rfl hl hq hres hop (Bench.opLookup_miss hok hf),
    fun n o t s hl hq hres hop hok => leaves_of_tableOp rfl hl hq hres hop (Bench.opLookup_bad hok),
    fun n o t s hl hq hres hop => leaves_of_tableOp rfl hl hq hres hop
      (Bench.reading_nil _ [o.slot] fun b => ({ code := 0, slot := none, bytes := b.slot o.slot }, b)),
    fun n o t i s hl hq hres hop hok hf hlim hslot hfrozen => leaves_of_tableOp rfl hl hq hres hop (Bench.opInsert_placed hok hf hlim hslot hfrozen),
    fun n o t s hl hq hres hop hok hf hlim hfirst hsecond => leaves_of_tableOp_raise rfl hl hq hres hop (Bench.opInsert_no_room hok hf hlim hfirst hsecond),
    fun n o t s hl hq hres hop hok => leaves_of_tableOp rfl hl hq hres hop (Bench.opInsert_bad hok),
    fun n o t i s hl hq hres hop hok hf => leaves_of_tableOp rfl hl hq hres hop (Bench.opInsert_held hok hf),
    fun n o t s hl hq hres hop hok hf hlim => leaves_of_tableOp rfl hl hq hres hop (Bench.opInsert_full hok hf hlim),
    fun n o t s hl hq hres hop hok hvalid htable hkey hact hnone hfrozen => ?update, fun n o t s hl hq hres hop hok hvalid htable hkey hact => ?updateChanged,
    fun n o t s hl hq hres hop hok hother => ?updateOther, fun n o t i s hl hq hres hop hok hf hfrozen => ?delete,
    fun n o t i s hl hq hres hop hok hf hfrozen => ?deleteFrozen,
    fun n o t s hl hq hres hop hok hf => leaves_of_tableOp rfl hl hq hres hop (Bench.opDelete_miss hok hf),
    fun n o t s hl hq hres hop => leaves_of_tableOp_raise rfl hl hq hres hop (Bench.reading_unc _ _ _),
    fun n o t s hl hq hres hop hvalid hfree hplace => ?move, fun n o t s hl hq hres hop hvalid => ?moveInvalid,
    fun n o t s hl hq hres hop hclear => ?clear, fun n o t r s hl hq hres hsrc hquiet => ?done⟩
  case update =>
    refine leaves_of_tableOp rfl hl hq hres hop ((Bench.opUpdate_eq _ _ hok).trans ?_)
    simp only [hvalid, htable, hkey, hact, hnone, hfrozen, Bool.not_true, ne_eq, not_true_eq_false, decide_false, Bool.or_self, Bool.false_eq_true,
      if_false]
  case updateChanged =>
    refine leaves_of_tableOp rfl hl hq hres hop ((Bench.opUpdate_eq _ _ hok).trans ?_)
    simp only [hvalid, htable, hkey, hact, Bool.not_true, ne_eq, not_true_eq_false, not_false_eq_true, decide_false, Bool.or_self,
      Bool.false_eq_true, if_false, if_true]
  case updateOther =>
    refine leaves_of_tableOp rfl hl hq hres hop ((Bench.opUpdate_eq _ _ hok).trans (if_pos ?_))
    obtain h | h | h := hother <;> simp [h]
  case delete =>
    refine leaves_of_tableOp rfl hl hq hres hop ((Bench.opDelete_hit hok hf).trans ?_)
    simp only [hfrozen, Bool.false_eq_true, if_false]
  case deleteFrozen =>
    refine leaves_of_tableOp rfl hl hq hres hop ((Bench.opDelete_hit hok hf).trans ?_)
    rw [if_pos hfrozen]
    rfl
  case move =>
    refine leaves_of_tableOp rfl hl hq hres hop ((Bench.opMove_eq _ _).trans (if_pos ?_))
    simp [hvalid, hfree, hplace]
  case moveInvalid =>
    refine leaves_of_tableOp rfl hl hq hres hop ((Bench.opMove_eq _ _).trans (if_neg ?_))
    simp [hvalid]
  case clear =>
    refine leaves_of_tableOp rfl hl hq hres hop (if_neg ?_)
    obtain h | h := hclear <;> simp [h]
  case done =>
    obtain ⟨hnone, hfaults, hstall, hdoor⟩ := hquiet
    obtain ⟨hmem, hmt, heng, hwords, k, hk⟩ := ((s.dev.bench n).withOpq t).postOp_spec r
    have hquiet : (((s.dev.bench n).withOpq t).postOp r).quiet := by
      unfold Bench.quiet
      rw [heng]
      exact ⟨hnone, hfaults, hstall, hdoor⟩
    have hregs := (((s.dev.bench n).withOpq t).postOp r).judgeStall_regsOnly
    obtain ⟨-, -, -, -, hreg⟩ := (((s.dev.bench n).withOpq t).postOp r).judgeStall_keeps
    have hstatus := status_fields r.code (((s.dev.bench n).withOpq t).opSlot r).1 k
    rw [← hk] at hstatus
    refine runs_onBench rfl hl fun l => ?_
    rw [Bench.opDone_of_reg hq hres hsrc hnone, Bench.pump_of_quiet _ hquiet, Bench.afterEvents_mt, Bench.afterEvents_mem, Bench.afterEvents_reg,
      hregs.mt, hmt, hregs.mem, hmem, hreg _ (by decide)]
    obtain ⟨hdone, hcode, hslot⟩ := hstatus
    refine ⟨rfl, rfl, fun w hw => ?_, hdone, hcode, fun i hi hc => ?_⟩
    · rw [Bench.afterEvents_reg, hreg _ (by unfold R.match_OP_RESULT R.engine_STALL_STATUS; omega), hwords w hw]
    · rw [hslot hc]
      simp only [Bench.opSlot, hi]

end Sys2Proof.Machine
end

section
/-! O23: the rehash sweep and the learn queue (R142 to R150, R491). -/
namespace Sys2Proof.Machine

/-- A write that hits no reserved bit is not counted. -/
theorem Bench.rsvd_of_no_hit (b : Bench) {o v : Nat} (h : (benchReg? o).any (·.rsvdHit v) = false) : b.rsvd o v = b := by
  unfold Bench.rsvd
  cases hr : benchReg? o with
  | none => rfl
  | some r =>
    rw [hr, Option.any_some] at h
    simp only [h, Bool.false_eq_true, if_false]

theorem no_hit_SWEEP_CTL {v : Nat} (hv : v < 8) : (benchReg? R.match_SWEEP_CTL).any (·.rsvdHit v) = false := by
  interval_cases v <;> decide

/-! ## SWEEP_CTL -/

/-- START and RESUME of an operand whose two low bits are replaced. -/
theorem bits_putBits_low (v t : Nat) (ht : t < 4) :
    bit (putBits v 0 2 t) 0 = decide (t % 2 = 1) ∧ bit (putBits v 0 2 t) 1 = decide (t / 2 = 1) := by
  have hlow := getBits_putBits_self v 0 2 t
  simp only [getBits] at hlow
  simp only [bit]
  constructor <;> (congr 1; simp only [eq_iff_iff]; omega)

theorem Bench.sweepCtl_start (b : Bench) (v : Nat) :
    b.sweepCtl (putBits v 0 2 1) =
      let c := if b.sweepSt = 0 then b.setFld R.match_SWEEP_CTL_BANK (getBits v 2 1)
        else if getBits v 2 1 ≠ b.fld R.match_SWEEP_CTL_BANK then b.cfgRefused else b
      if b.sweepSt = 0 then ((c.setFld R.match_SWEEP_STATUS_STATE 1).setFld R.match_SWEEP_STATUS_BANK (getBits v 2 1)).setFld R.match_SWEEP_STATUS_BUCKET 0
      else c.cfgRefused := by
  obtain ⟨hstart, hresume⟩ := bits_putBits_low v 1 (by decide)
  simp only [Bench.sweepCtl, hstart, hresume, getBits_putBits_low v 2 1 1 (Nat.le_refl 2)]
  rfl

theorem Bench.sweepCtl_resume (b : Bench) (v : Nat) :
    b.sweepCtl (putBits v 0 2 2) =
      let c := if b.sweepSt = 0 then b.setFld R.match_SWEEP_CTL_BANK (getBits v 2 1)
        else if getBits v 2 1 ≠ b.fld R.match_SWEEP_CTL_BANK then b.cfgRefused else b
      if b.sweepSt = 2 then c.setFld R.match_SWEEP_STATUS_STATE 1 else c.cfgRefused := by
  obtain ⟨hstart, hresume⟩ := bits_putBits_low v 2 (by decide)
  simp only [Bench.sweepCtl, hstart, hresume, getBits_putBits_low v 2 1 2 (Nat.le_refl 2)]
  rfl

/-! ## A step of the sweep -/

/-- A bucket that holds nothing is passed. -/
theorem Bench.sweepSlots_of_empty (b : Bench) (bank i : Nat) : ∀ fuel k, k + fuel ≤ 4 → (∀ j, j < 4 → slValid (b.slot (slotIdx bank i j)) = false) →
    b.sweepSlots bank i [] fuel k = (true, b) := by
  intro fuel
  induction fuel with
  | zero => intro k _ _; rfl
  | succ fuel ih =>
    intro k hk hempty
    have hslot := hempty k (by omega)
    simp only [Bench.sweepSlots, badSlot_nil, Option.isSome_none, Bool.false_eq_true, if_false, hslot, Bool.not_false, Bool.true_or, if_true]
    exact ih (k + 1) (by omega) hempty

theorem Bench.sweepStep_of_empty (b : Bench) (hempty : ∀ j, j < 4 → slValid (b.slot (slotIdx b.sweepBank (b.fld R.match_SWEEP_STATUS_BUCKET) j)) = false) :
    b.sweepStep [] =
      if b.fld R.match_SWEEP_STATUS_BUCKET < 8191 then b.setFld R.match_SWEEP_STATUS_BUCKET (b.fld R.match_SWEEP_STATUS_BUCKET + 1)
      else (((b.setReg (if b.sweepBank = 0 then R.match_SEED_0 else R.match_SEED_1) (b.reg R.match_SEED_NEXT)).setFld
        R.match_SWEEP_STATUS_STATE 0).setFld R.match_SWEEP_STATUS_DONE 1).raise 18 := by
  simp only [Bench.sweepStep, corSlots_nil, Bench.correctable_zero, b.sweepSlots_of_empty _ _ 4 0 (by decide) hempty]

/-! ## The learn queue -/

/-- What the learn queue's commands leave alone: memory and the engine cluster. -/
structure Bench.LearnKeeps (b b' : Bench) : Prop where
  mem : b'.mem = b.mem
  eng : b'.eng = b.eng

theorem Bench.LearnKeeps.quiet {b b' : Bench} (h : b.LearnKeeps b') (hq : b.quiet) : b'.quiet := by
  unfold Bench.quiet at *
  rw [h.eng]
  exact hq

theorem Bench.countLearn_regsOnly (b : Bench) : b.RegsOnly b.countLearn := by
  unfold Bench.countLearn
  dsimp only
  split
  · exact (Bench.RegsOnly.setFld b _ _).trans (.setFld _ _ _)
  · exact .setFld b _ _

theorem Bench.chHwm_regsOnly (b : Bench) (k : Nat) : b.RegsOnly (b.chHwm k) := by
  unfold Bench.chHwm Bench.chMark
  split
  · exact .setFld b _ _
  · exact .refl b

/-- After what a command did to the learn queue, a quiet cluster only judges its stall watch. -/
theorem Bench.pump_chHwm_of_quiet {b b' : Bench} (hk : b.LearnKeeps b') (hq : b.quiet) :
    (b'.chHwm 1).pump.mem = b.mem ∧ (b'.chHwm 1).pump.mt = b'.mt ∧ (b'.chHwm 1).pump.tal = b'.tal := by
  have hmark := b'.chHwm_regsOnly 1
  have hquiet : (b'.chHwm 1).quiet := by
    unfold Bench.quiet
    rw [hmark.eng, hk.eng]
    exact hq
  have hall := hmark.trans (b'.chHwm 1).judgeStall_regsOnly
  rw [Bench.pump_of_quiet _ hquiet]
  exact ⟨hall.mem.trans hk.mem, hall.mt, hall.tal⟩

theorem Bench.learnReady_of_head {b : Bench} {r : LearnRec} {t : List LearnRec} (hq : b.mt.learnq = r :: t) (hpkt : r.pkt.isSome = true) :
    b.learnReady = if r.wait then b else b.filterRecord [] r t := by
  have hnone : r.pkt.isNone = false := by rw [← Option.not_isSome, hpkt]; rfl
  simp only [Bench.learnReady, hq, List.takeWhile_cons, hnone, Bool.false_eq_true, if_false, List.length_nil, List.drop_zero]

/-- A record that no entry of the filter holds passes it. -/
theorem Bench.filterRecord_passed {b : Bench} {r : LearnRec} {t : List LearnRec}
    (h : b.fld R.match_LEARN_CTL_HOLDOFF_US = 0 ∨ (b.mt.filter.filter (fun f => b.cyc < f.expiry)).any (fun f => f.same r) = false) :
    b.LearnKeeps (b.filterRecord [] r t) ∧ (b.filterRecord [] r t).mt.learnSeq = (b.mt.learnSeq + 1) % 65536 ∧
      (b.filterRecord [] r t).mt.learnq = { r with pkt := none, wait := false, seq := (b.mt.learnSeq + 1) % 65536 } :: t := by
  have hpass : ¬ (b.fld R.match_LEARN_CTL_HOLDOFF_US ≠ 0 && (b.mt.filter.filter (fun f => b.cyc < f.expiry)).any (fun f => f.same r)) = true := by
    obtain h | h := h <;> simp [h]
  unfold Bench.filterRecord
  dsimp only
  rw [if_neg hpass]
  split <;> exact ⟨⟨rfl, rfl⟩, rfl, rfl⟩

/-- One that an entry holds is suppressed and counted. -/
theorem Bench.filterRecord_suppressed {b : Bench} {r : LearnRec} {t : List LearnRec} (hhold : b.fld R.match_LEARN_CTL_HOLDOFF_US ≠ 0)
    (h : (b.mt.filter.filter (fun f => b.cyc < f.expiry)).any (fun f => f.same r) = true) :
    b.LearnKeeps (b.filterRecord [] r t) ∧ (b.filterRecord [] r t).mt.learnSeq = b.mt.learnSeq ∧ (b.filterRecord [] r t).mt.learnq = t ∧
      (b.filterRecord [] r t).tally T.LEARN_SUPPRESSED = min tallyMax (b.tally T.LEARN_SUPPRESSED + 1) := by
  have hheld : (b.fld R.match_LEARN_CTL_HOLDOFF_US ≠ 0 && (b.mt.filter.filter (fun f => b.cyc < f.expiry)).any (fun f => f.same r)) = true := by
    simp only [h, Bool.and_true, decide_eq_true_eq]
    exact hhold
  unfold Bench.filterRecord
  dsimp only
  rw [if_pos hheld]
  generalize hx : Bench.tick _ T.LEARN_SUPPRESSED = x
  have hregs := x.countLearn_regsOnly
  refine ⟨⟨hregs.mem.trans ?_, hregs.eng.trans ?_⟩, ?_, ?_, ?_⟩
  · rw [← hx]; rfl
  · rw [← hx]; rfl
  · rw [hregs.mt, ← hx]; rfl
  · rw [hregs.mt, ← hx]; rfl
  · unfold Bench.tally
    rw [hregs.tal, ← hx]
    exact Bench.tally_count_self _ _ _

theorem Bench.learnPop_of_record {b : Bench} {r : LearnRec} {t : List LearnRec} (hdest : b.flag R.match_LEARN_CTL_DEST = true)
    (hq : b.mt.learnq = r :: t) (hpkt : r.pkt = none) : b.learnPop = b.learnRead r t := by
  simp only [Bench.learnPop, hdest, Bool.not_true, Bool.false_eq_true, if_false, Bench.takeLearn, hq, hpkt, Option.isNone_none, if_true]
  rfl

end Sys2Proof.Machine
end

section
namespace Sys2Proof.Machine

/-- What Ryuner does with learn records is not changed by the events handed over. -/
theorem policy_drainEvents (n m : BenchId) (l : List Nat) (h : Hub) : (drainEvents n h l).1.policy m = h.policy m := by
  obtain ⟨x, hx⟩ := drainEvents_fw n l h
  unfold Hub.policy
  rw [hx]

theorem Hub.policy_setPolicy (h : Hub) (n : BenchId) (p : LearnPolicy) : (h.setPolicy n p).policy n = p := sparseGet_set_self _ _ _ _

/-- A record of a send ring is ignored. -/
theorem learnApply_of_send {n : BenchId} {h : Hub} {b : Bench} {r : LearnRec} {t : List LearnRec} (hpol : (h.policy n).policy ≠ 0)
    (hop : b.mt.opq = []) (hdest : b.flag R.match_LEARN_CTL_DEST = true) (hq : b.mt.learnq = r :: t) (hpkt : r.pkt = none) (hsrc : 32768 ≤ r.source) :
    learnApply n [] h b = (h.setPolicy n (h.policy n).ignore, (b.learnRead r t).setReg R.match_LEARN_REC_STATUS 0#32) := by
  have htake : b.takeLearn = some (r, (b.takeLearn.map (·.2)).getD b) := by
    simp only [Bench.takeLearn, hq, hpkt, Option.isNone_none, if_true, Option.map_some, Option.getD_some]
  have hgo : ¬ ((h.policy n).policy = 0 || !b.mt.opq.isEmpty || !b.flag R.match_LEARN_CTL_DEST) = true := by simp [hpol, hop, hdest]
  unfold learnApply
  dsimp only
  rw [if_neg hgo, htake]
  simp only [LearnPolicy.apply, hsrc, if_true, Bench.learnPop_of_record hdest hq hpkt]

/-! A refusal that is only counted -/

theorem Bench.sweepSt_cfgRefused (b : Bench) (l : List Tlp) : (b.cfgRefused.afterEvents l).sweepSt = b.sweepSt := rfl
theorem Bench.mem_cfgRefused (b : Bench) : b.cfgRefused.mem = b.mem := rfl
theorem Bench.tally_cfgRefused (b : Bench) (l : List Tlp) :
    (b.cfgRefused.afterEvents l).tally T.CFG_REFUSED = min tallyMax (b.tally T.CFG_REFUSED + 1) :=
  (Bench.afterEvents_tally _ l _).trans (Bench.tally_count_self b T.CFG_REFUSED 1)

/-- Settles O23, clause by clause. -/
theorem sweepAndLearning : Obligations.SweepAndLearning := by
  have hctl {b : Bench} {v : Nat} (hv : v < 8) : b.rsvd R.match_SWEEP_CTL v = b := b.rsvd_of_no_hit (no_hit_SWEEP_CTL hv)
  have hstate (b : Bench) (f : Fld) (v : Nat) (hf : f.off ≠ R.match_SWEEP_STATUS) : (b.setFld f v).sweepSt = b.sweepSt :=
    Bench.fld_setFld_apart _ f R.match_SWEEP_STATUS_STATE v (by decide) (.inl hf)
  refine ⟨fun n v s hl hv h0 h1 hst => ?start, fun n s hl hst hbank => ?startRefused, fun n s hl hst hbank => ?startRefusedTwice,
    fun n s hl hst hbank => ?resume, fun n s hl hst hbank => ?resumeRefused, fun n s hl hst hlt hempty => ?step, fun n s hl hst hlast hempty => ?last,
    fun n r t s hl hq hpkt hwait hpass hquiet => ?ready, fun n r t s hl hq hpkt hwait hhold hheld hquiet => ?suppressed,
    fun n r t s hl hq hpkt hwait hquiet => ?waits, fun n r t s hl hq hpkt hdest => leaves_of_eq rfl hl (Bench.learnPop_of_record hdest hq hpkt),
    fun n s hl hdest hnone => ?popNone, fun n s hl hdest => ?popRefused, fun n r t s hl hry hpol hop hdest hq hpkt hsrc => ?policy⟩
  case start =>
    refine leaves_of_eq rfl hl ?_
    rw [hctl hv, Bench.sweepCtl_start]
    simp only [hst, if_true]
  case startRefused =>
    refine leaves_of_eq rfl hl ?_
    rw [show (0#32).toNat = 0 from rfl, hctl (by decide), Bench.sweepCtl_start]
    simp only [hst, if_false, show getBits 0 2 1 = 0 from rfl, hbank, ne_eq, not_true_eq_false]
    rfl
  case startRefusedTwice =>
    refine leaves_of_eq rfl hl ?_
    rw [show (0#32).toNat = 0 from rfl, hctl (by decide), Bench.sweepCtl_start]
    simp only [hst, if_false, show getBits 0 2 1 = 0 from rfl, hbank, ne_eq, zero_ne_one, not_false_eq_true, if_true]
    rfl
  case resume =>
    refine leaves_of_eq rfl hl ?_
    rw [show (0#32).toNat = 0 from rfl, hctl (by decide), Bench.sweepCtl_resume]
    simp only [hst, if_true, show getBits 0 2 1 = 0 from rfl, hbank, ne_eq, not_true_eq_false, if_false, OfNat.ofNat_ne_zero]
  case resumeRefused =>
    refine runs_onBench rfl hl fun l => ?_
    rw [show (0#32).toNat = 0 from rfl, hctl (by decide), Bench.sweepCtl_resume]
    simp only [hst, if_false, show getBits 0 2 1 = 0 from rfl, hbank, ne_eq, not_true_eq_false]
    rw [Bench.sweepSt_cfgRefused, Bench.afterEvents_mem, Bench.mem_cfgRefused, Bench.tally_cfgRefused]
    split
    · exact ⟨hstate _ R.match_SWEEP_CTL_BANK _ (by decide), rfl, rfl⟩
    · exact ⟨rfl, rfl, rfl⟩
  case step =>
    refine leaves_of_eq rfl hl ((if_pos hst).trans ?_)
    rw [Bench.sweepStep_of_empty _ hempty, if_pos hlt]
  case last =>
    rw [← hlast] at hempty
    refine leaves_of_afterEvents rfl hl fun l => ?_
    rw [if_pos hst, Bench.sweepStep_of_empty _ hempty, if_neg (by omega)]
    rfl
  case ready =>
    obtain ⟨hkeeps, hseq, hlearnq⟩ := Bench.filterRecord_passed (t := t) hpass
    obtain ⟨hmem, hmt, -⟩ := Bench.pump_chHwm_of_quiet hkeeps hquiet
    refine runs_onBench rfl hl fun l => ?_
    rw [Bench.learnReady_of_head hq hpkt, hwait, if_neg Bool.false_ne_true, Bench.afterEvents_mem, Bench.afterEvents_mt, hmem, hmt]
    exact ⟨rfl, hseq, hlearnq⟩
  case suppressed =>
    obtain ⟨hkeeps, hseq, hlearnq, htally⟩ := Bench.filterRecord_suppressed (t := t) hhold hheld
    obtain ⟨hmem, hmt, htal⟩ := Bench.pump_chHwm_of_quiet hkeeps hquiet
    refine runs_onBench rfl hl fun l => ?_
    rw [Bench.learnReady_of_head hq hpkt, hwait, if_neg Bool.false_ne_true, Bench.afterEvents_mem, Bench.afterEvents_mt, hmem, hmt,
      Bench.afterEvents_tally, Bench.tally, htal]
    exact ⟨rfl, hlearnq, hseq, htally⟩
  case waits =>
    obtain ⟨hmem, hmt, -⟩ := Bench.pump_chHwm_of_quiet (b := s.dev.bench n) ⟨rfl, rfl⟩ hquiet
    refine runs_onBench rfl hl fun l => ?_
    rw [Bench.learnReady_of_head hq hpkt, if_pos hwait, Bench.afterEvents_mem, Bench.afterEvents_mt, hmem, hmt]
    exact ⟨rfl, hq⟩
  case popNone => exact leaves_of_eq rfl hl (by simp only [Bench.learnPop, hdest, Bool.not_true, Bool.false_eq_true, if_false, hnone])
  case popRefused =>
    refine leaves_of_eq rfl hl ?_
    simp only [Bench.learnPop, hdest, Bool.not_false, if_true]
    rfl
  case policy =>
    refine runsBoth_onLive rfl hl fun l => ?_
    rw [if_pos hry, learnApply_of_send hpol hop hdest hq hpkt hsrc]
    exact ⟨(policy_drainEvents n n _ _).trans (Hub.policy_setPolicy _ _ _), drainEvents_mem _ _ _, l, rfl⟩

end Sys2Proof.Machine
end

section
/-! O25: the inline cipher (R187 to R209). -/
namespace Sys2Proof.Machine

/-! ## The steps of the cipher -/

theorem Bench.bodyStep_of_job {b : Bench} {enc : Bool} {p : Pkt} {j : CipherJob} (h : (b.working enc).head?.bind (b.jobOf enc) = some (p, j)) :
    b.bodyStep enc =
      if b.stepAllowed p j then
        let r := b.cipherTo p.handle j (min (j.stepEnd p) (j.stop p))
        (r.2.updJob enc p.id (fun _ => { r.1 with steps := j.steps + 1 })).countCipher
      else b := by
  unfold Bench.bodyStep
  rw [h]

/-- The verdict of a direction whose first packet has come to its end. -/
theorem Bench.cipherVerdict_of_due {b : Bench} {enc mismatch : Bool} {id : Nat} {p : Pkt} {j : CipherJob}
    (hq : b.ci.queue.find? (fun x => x.1 = enc) = some (enc, id)) (hj : b.jobOf enc id = some (p, j)) (hended : p.ended = true)
    (hsteps : stepsLeft (p, j) = false) (hpending : (enc && p.decPending) = false) :
    b.cipherVerdict enc mismatch =
      if mismatch then b.cipherMismatch enc p.id
      else
        let b := b.cipherAgree enc
        if enc then ((b.countGood j (p.start + p.netLen - j.payload)).sealTail p j).setVerdict true p.id 0
        else
          let k := b.cipherTo p.handle j (j.stop p)
          let b := k.2.updJob false p.id (fun _ => k.1)
          let r := b.openTail p k.1
          if r.1 = 0 then
            let b := (b.countGood j (r.2 - j.payload)).updSharers p.id (fun k => k.endAt r.2)
            let b := if scReplay j.ctl || b.saSeq j.sa < j.seq then b.moveWindow j.sa j.seq else b
            b.setVerdict false p.id 0
          else
            let b := if r.1 = 0x65 then b.tick (T.SA_AUTH_FAIL j.sa) else if r.1 = 0x64 then b.tick (T.SA_REPLAY j.sa) else b
            b.setVerdict false p.id r.1 := by
  unfold Bench.cipherVerdict
  rw [hq, Option.bind_some, hj]
  dsimp only
  rw [if_neg (by simp [hended, hsteps, hpending])]

/-- An inbound packet is opened only if its tag agrees. -/
theorem Bench.icv_of_openTail {b : Bench} {p : Pkt} {j : CipherJob} (h : (b.openTail p j).1 = 0) :
    j.icv.getD (b.chainBytes p.handle (j.stop p) 16) = j.tagOf := by
  by_contra hne
  unfold Bench.openTail at h
  dsimp only at h
  rw [if_pos hne] at h
  exact absurd h (show (0x65 : Nat) ≠ 0 by decide)

/-- A failing verdict is set under its own code, whichever tally it takes. -/
theorem Bench.setVerdict_of_code (b x y : Bench) (id c : Nat) :
    (if c = 0x65 then x else if c = 0x64 then y else b).setVerdict false id c =
      if c = 0x65 then x.setVerdict false id 0x65 else if c = 0x64 then y.setVerdict false id 0x64 else b.setVerdict false id c := by
  by_cases hauth : c = 0x65
  · rw [if_pos hauth, if_pos hauth, hauth]
  · by_cases hreplay : c = 0x64
    · rw [if_neg hauth, if_neg hauth, if_pos hreplay, if_pos hreplay, hreplay]
    · rw [if_neg hauth, if_neg hauth, if_neg hreplay, if_neg hreplay]

/-! ## The statement -/

/-- Settles O25, clause by clause. -/
theorem cipherCommands : Obligations.CipherCommands := by
  refine ⟨fun n enc p j r s hl hhalt hj hstep hr => ?bodyStep, fun n enc p j s hl hj hstep => ?bodyWaits, fun n enc s hl hhalt => ?bodyHalted,
    fun n id p j s hl hq hj hended hsteps hpending => ?sealed, fun n id p j k b r s hl hq hj hended hsteps hk hb hr => ⟨?opened, ?tag⟩,
    fun n enc id p j d s hl hq hj hended hsteps hpending hd => ?mismatch, fun n s hl hhalt => ?restartNot, fun n s hl hhalt => ?restart,
    fun n s hl hrestart => ⟨?selftestGood, ?selftestBad⟩, fun n i s hl hi hres => ?commit, fun n i r s hl hi hres hr => ?commitRefused,
    fun n i s hl hi hdrain huse => ?zeroised, fun n i s hl huse => ?zeroisedNot⟩
  case bodyStep =>
    subst hr
    exact leaves_of_eq rfl hl (by simp only [hhalt, Bool.false_eq_true, if_false, Bench.bodyStep_of_job hj, hstep, if_true])
  case bodyWaits =>
    refine leaves_of_eq rfl hl ?_
    simp only [Bench.bodyStep_of_job hj, hstep, Bool.false_eq_true, if_false, ite_self]
  case bodyHalted => exact leaves_of_eq rfl hl (if_pos hhalt)
  case sealed =>
    exact leaves_of_eq rfl hl (by
      simp only [Bench.cipherVerdict_of_due hq hj hended hsteps (by rw [hpending]; rfl), Bool.false_eq_true, if_false, if_true])
  case opened =>
    subst hk hb hr
    refine leaves_of_eq rfl hl ?_
    dsimp only
    rw [Bench.cipherVerdict_of_due hq hj hended hsteps rfl]
    simp only [Bool.false_eq_true, if_false, Bench.setVerdict_of_code]
  case tag =>
    subst hr hb
    exact Bench.icv_of_openTail
  case mismatch =>
    subst hd
    exact leaves_of_eq rfl hl (by dsimp only; simp only [Bench.cipherVerdict_of_due hq hj hended hsteps hpending, if_true, Bench.cipherMismatch])
  case restartNot => exact leaves_of_eq rfl hl (if_neg (by rw [hhalt]; exact Bool.false_ne_true))
  case restart => exact leaves_of_eq rfl hl (if_pos hhalt)
  case selftestGood => exact leaves_of_eq rfl hl (by simp only [hrestart, if_true])
  case selftestBad => exact leaves_of_eq rfl hl (by simp only [hrestart, Bool.false_eq_true, if_false, if_true])
  case commit =>
    exact leaves_of_eq rfl hl (by simp only [hi, if_true, Bench.saCommit, hres, Nat.mul_zero])
  case commitRefused =>
    exact leaves_of_eq rfl hl (by simp only [hi, if_true, Bench.saCommit, hres, hr, if_false])
  case zeroised => exact leaves_of_eq rfl hl (by simp only [hi, hdrain, huse, decide_true, Bool.not_false, Bool.and_self, if_true])
  case zeroisedNot => exact leaves_of_eq rfl hl (by simp only [huse, Bool.not_true, Bool.and_false, Bool.false_eq_true, if_false])

end Sys2Proof.Machine
end

section
/-! O27: time gates (R229 to R234). -/
namespace Sys2Proof.Machine

/-- Posting a status changes the status register, its count and the tally of a status not yet read. -/
theorem Bench.postStatus_cases (b : Bench) (o word lo w : Nat) :
    ∃ tal seqs k, b.postStatus o word lo w = { b with tal := tal, seqs := seqs }.setReg o (BitVec.ofNat 32 (1 + word + k * 2 ^ lo)) := by
  unfold Bench.postStatus
  split <;> exact ⟨_, _, _, rfl⟩

theorem Bench.flag_setFld_one (b : Bench) (f : Fld) (h : f.lo + f.w ≤ 32) (hw : f.w ≠ 0) : (b.setFld f 1).flag f = true := by
  unfold Bench.flag
  rw [Bench.fld_setFld_self _ _ _ h, Nat.mod_eq_of_lt (Nat.one_lt_two_pow hw)]
  rfl

theorem Bench.flag_setFld_zero (b : Bench) (f : Fld) (h : f.lo + f.w ≤ 32) : (b.setFld f 0).flag f = false := by
  unfold Bench.flag
  rw [Bench.fld_setFld_self _ _ _ h, Nat.zero_mod]
  rfl

theorem Bench.flag_setFld_apart (b : Bench) (f g : Fld) (v : Nat) (hg : g.lo + g.w ≤ 32) (h : f.apart g) :
    (b.setFld f v).flag g = b.flag g := congrArg (fun x : Nat => decide (x ≠ 0)) (Bench.fld_setFld_apart b f g v hg h)

theorem Bench.flag_of_reg {b b' : Bench} (f : Fld) (h : b'.reg f.off = b.reg f.off) : b'.flag f = b.flag f := by
  unfold Bench.flag Bench.fld
  rw [h]

theorem Bench.flag_noted (b : Bench) (t k : Nat) (f : Fld) : ((b.tick t).raise k).flag f = b.flag f := rfl

@[simp] theorem Bench.gate_setGate_self (b : Bench) (p : Nat) (g : GateSt) : (b.setGate p g).gate p = g := sparseGet_set_self _ _ _ _

theorem Bench.setGate_setGate (b : Bench) (p : Nat) (g g' : GateSt) : (b.setGate p g).setGate p g' = b.setGate p g' := by
  unfold Bench.setGate
  dsimp only
  rw [sparseSet_set]

/-! ## A commit of a good list -/

/-- The frames that are on their way out of a port at a commit, behind those of other ports. -/
def Bench.gateOut (b : Bench) (p : Nat) : List (Nat × Nat) :=
  b.tm.lastOut.filter (fun (x : Nat × Nat) => x.1 ≠ p) ++
    (b.pkts.filter (fun k => k.loc = .selected p || k.loc = .sending p)).map (fun k => (p, k.id))

/-- A good list waits on a port as `g` says. -/
def Bench.gateWaits (b : Bench) (p : Nat) (g : GateSt) : Bench :=
  ({ b with tm := { b.tm with lastOut := b.gateOut p } }.setGate p g).setFld (R.tm_GATE_STATUS_PENDING p) 1

theorem Bench.gateWaits_spec (b : Bench) (p : Nat) (g : GateSt) :
    (b.gateWaits p g).gatePending p = true ∧ (b.gateWaits p g).gate p = g ∧ (b.gateWaits p g).gateOn p = b.gateOn p :=
  ⟨Bench.flag_setFld_one _ _ (by change 1 + 1 ≤ 32; decide) Nat.one_ne_zero, sparseGet_set_self _ _ _ _,
    Bench.flag_setFld_apart _ _ _ _ (by change 0 + 1 ≤ 32; decide) (.inr (.inr (by change 0 + 1 ≤ 1; decide)))⟩

/-- What stands of a bench `x` after result 0 is posted in GATE_COMMIT_STATUS of a port and its events are handed over. -/
structure Bench.GatePosted (x y : Bench) (p : Nat) : Prop where
  gate : y.gate p = x.gate p
  flag : ∀ f : Fld, f.off = R.tm_GATE_STATUS p → y.flag f = x.flag f
  mem : y.mem = x.mem
  pkts : y.pkts = x.pkts
  posted : getBits (y.reg (R.tm_GATE_COMMIT_STATUS p)).toNat 0 16 = 1

theorem Bench.gatePosted (x : Bench) (p : Nat) (l : List Tlp) :
    x.GatePosted ((x.postStatus (R.tm_GATE_COMMIT_STATUS p) 0 16 16).afterEvents l) p := by
  obtain ⟨tal, seqs, k, h⟩ := x.postStatus_cases (R.tm_GATE_COMMIT_STATUS p) 0 16 16
  rw [h]
  refine ⟨rfl, fun f hf => Bench.flag_of_reg f ?_, rfl, rfl, ?_⟩
  · rw [Bench.afterEvents_reg, hf]
    exact Bench.reg_setReg_ne _ _ (by change 0x601A4 + 0x100 * p ≠ 0x601B8 + 0x100 * p; omega)
  · rw [Bench.afterEvents_reg, Bench.reg_setReg_self, BitVec.toNat_ofNat, getBits]
    omega

theorem Bench.gateCommit_of_refused {b : Bench} {p r : Nat} (hport : b.hasPort p = true) (hr : r ≠ 0)
    (h : (if b.gatePending p then 1 else if b.gateBad p then 2 else 0) = r) :
    b.gateCommit p = (b.tick T.GATE_WRITE_REFUSED).postStatus (R.tm_GATE_COMMIT_STATUS p) (2 * r) 16 16 := by
  unfold Bench.gateCommit
  rw [hport]
  simp only [Bool.not_true, Bool.false_eq_true, if_false, h, hr, ne_eq, not_false_eq_true, if_true]

/-- How a list waits whose start lies ahead. -/
def Bench.gateAhead (b : Bench) (p : Nat) : GateSt := { b.gate p with start := b.gateStart p, old := false, atOnce := false }

theorem Bench.gateAhead_origin (b : Bench) (p : Nat) : (b.gateAhead p).origin = (b.gate p).origin := by
  unfold Bench.gateAhead
  rfl

theorem Bench.gateCommit_of_ahead {b : Bench} {p : Nat} (hport : b.hasPort p = true) (hpending : b.gatePending p = false)
    (hbad : b.gateBad p = false) (hahead : b.time.ticks < b.gateStart p) :
    b.gateCommit p = (b.gateWaits p (b.gateAhead p)).postStatus (R.tm_GATE_COMMIT_STATUS p) 0 16 16 := by
  unfold Bench.gateCommit Bench.gateWaits Bench.gateOut Bench.gateAhead
  simp only [hport, hpending, hbad, not_le.2 hahead, Bool.not_true, Bool.false_eq_true, if_false, ne_eq, not_true_eq_false, decide_false,
    Bool.false_and, Nat.mul_zero] <;> rfl

/-- How a list whose start is past waits: for the next cycle of the active list, or with none for the next cycle of the bench. -/
def Bench.gatePast (b : Bench) (p : Nat) : GateSt :=
  { b.gate p with start := if b.gateOn p then b.nextCycle p b.time.ticks else b.gateStart p, old := b.gateOn p, atOnce := !b.gateOn p }

theorem Bench.gateCommit_of_past {b : Bench} {p : Nat} (hport : b.hasPort p = true) (hpending : b.gatePending p = false)
    (hbad : b.gateBad p = false) (hpast : b.gateStart p ≤ b.time.ticks) :
    b.gateCommit p = ((((b.gateWaits p (b.gatePast p)).setFld (R.tm_GATE_STATUS_START_PAST p) 1).tick T.GATE_START_PAST).raise 29).postStatus
      (R.tm_GATE_COMMIT_STATUS p) 0 16 16 := by
  unfold Bench.gateCommit Bench.gateWaits Bench.gateOut Bench.gatePast
  simp only [hport, hpending, hbad, hpast, Bool.not_true, Bool.false_eq_true, if_false, if_true, ne_eq, not_true_eq_false, decide_true,
    Bool.true_and, Nat.mul_zero] <;> rfl

/-! ## A takeover with no packet queued -/

/-- The bytes `l` are in force as the list of a port. -/
def Bench.gateInForce (b : Bench) (p : Nat) (l : List Byte) : Bench :=
  let k := b.fld (R.tm_GATE_SHADOW_LEN_LEN p)
  (((((b.setBytes (gateActive p) l).setFld (R.tm_GATE_STATUS_ACTIVE p) 1).setFld
    (R.tm_GATE_STATUS_PENDING p) 0).setFld (R.tm_GATE_STATUS_TOOK_OVER p) 1).setFld (R.tm_GATE_STATUS_ACTIVE_LEN p) k)

theorem Bench.gateInForce_flags (b : Bench) (p : Nat) (l : List Byte) :
    (b.gateInForce p l).gateOn p = true ∧ (b.gateInForce p l).gatePending p = false := by
  have hactive : (R.tm_GATE_STATUS_ACTIVE p).lo + (R.tm_GATE_STATUS_ACTIVE p).w ≤ 32 := by change 0 + 1 ≤ 32; decide
  have hpending : (R.tm_GATE_STATUS_PENDING p).lo + (R.tm_GATE_STATUS_PENDING p).w ≤ 32 := by change 1 + 1 ≤ 32; decide
  constructor
  · refine (Bench.flag_setFld_apart _ _ _ _ hactive (.inr (.inr ?_))).trans <| (Bench.flag_setFld_apart _ _ _ _ hactive (.inr (.inr ?_))).trans <|
      (Bench.flag_setFld_apart _ _ _ _ hactive (.inr (.inr ?_))).trans (Bench.flag_setFld_one _ _ hactive Nat.one_ne_zero)
    · change 0 + 1 ≤ 16; decide
    · change 0 + 1 ≤ 2; decide
    · change 0 + 1 ≤ 1; decide
  · refine (Bench.flag_setFld_apart _ _ _ _ hpending (.inr (.inr ?_))).trans <| (Bench.flag_setFld_apart _ _ _ _ hpending (.inr (.inr ?_))).trans
      (Bench.flag_setFld_zero _ _ hpending)
    · change 1 + 1 ≤ 16; decide
    · change 1 + 1 ≤ 2; decide

theorem Bench.portQueues_of_flow_nil (b : Bench) (p : Nat) (h : b.tm.flow = []) : b.portQueues p = [] := by
  unfold Bench.portQueues
  rw [h]
  rfl

theorem Bench.dropOversize_of_flow_nil (b : Bench) (p : Nat) (h : b.tm.flow = []) : b.dropOversize p = b := by
  unfold Bench.dropOversize
  rw [b.portQueues_of_flow_nil p h]
  split <;> rfl

theorem Bench.placeGate_cases (b : Bench) (p : Nat) : ∃ i, b.placeGate p = b ∨ b.placeGate p = b.setGate p { b.gate p with entry := i } := by
  unfold Bench.placeGate
  split
  · exact ⟨_, .inr rfl⟩
  · exact ⟨0, .inl rfl⟩

/-- Frames selected on a port before the commit that are still on their way. -/
def Bench.gateLate (b : Bench) (p : Nat) : Nat :=
  (b.tm.lastOut.filter (fun (x : Nat × Nat) => x.1 = p && b.pkts.any (fun j => j.id = x.2 && (j.loc = .selected p || j.loc = .sending p)))).length

/-- The gate of a port whose list is in force from its start on. -/
def Bench.gateBegun (b : Bench) (p : Nat) : GateSt := { b.gate p with origin := b.gateStartAt p, old := false, atOnce := false }

/-- The list `l` taken over on a port, its entry not yet placed. -/
def Bench.gateTaken (b : Bench) (p : Nat) (l : List Byte) : Bench :=
  ({ b.gateInForce p l with tm := { b.tm with lastOut := b.tm.lastOut.filter (fun (x : Nat × Nat) => x.1 ≠ p) } } : Bench).setGate p (b.gateBegun p)

theorem Bench.gateTake_eq (b : Bench) (p : Nat) :
    b.gateTake p = (((((b.gateTaken p (b.bytes (gateShadow p) 0x2000)).placeGate p).count T.GATE_OVERRUN (b.gateLate p)).tick
      T.GATE_TAKEOVER).raise 29).dropOversize p := by
  unfold Bench.gateTake Bench.gateTaken Bench.gateLate Bench.gateBegun
  generalize b.bytes (gateShadow p) 0x2000 = l
  rfl

/-- A takeover with no packet queued: the list is in force from its start on, and the takeover is counted. -/
theorem Bench.gateTake_of_flow_nil (b : Bench) (p : Nat) (h : b.tm.flow = []) :
    ∃ g late, g.origin = b.gateStartAt p ∧
      b.gateTake p = ((((b.gateTaken p (b.bytes (gateShadow p) 0x2000)).setGate p g).count T.GATE_OVERRUN late).tick T.GATE_TAKEOVER).raise 29 := by
  rw [Bench.gateTake_eq]
  generalize b.bytes (gateShadow p) 0x2000 = l
  have hgate : (b.gateTaken p l).gate p = b.gateBegun p := Bench.gate_setGate_self _ _ _
  have hself : (b.gateTaken p l).setGate p (b.gateBegun p) = b.gateTaken p l := Bench.setGate_setGate _ _ _ _
  have hplace : ∃ g, g.origin = b.gateStartAt p ∧ (b.gateTaken p l).placeGate p = (b.gateTaken p l).setGate p g := by
    obtain ⟨i, hplace | hplace⟩ := (b.gateTaken p l).placeGate_cases p
    · exact ⟨_, rfl, hplace.trans hself.symm⟩
    · exact ⟨_, rfl, hplace.trans (by rw [hgate])⟩
  obtain ⟨g, horigin, hplace⟩ := hplace
  rw [hplace]
  exact ⟨g, _, horigin, Bench.dropOversize_of_flow_nil _ p h⟩

theorem Bench.gateInForce_bytes (b : Bench) (p : Nat) (l : List Byte) : (b.gateInForce p l).bytes (gateActive p) l.length = l :=
  memBytes_write l b.mem (gateActive p)

theorem Bench.gateInForce_memKept (b : Bench) (p : Nat) (l : List Byte) :
    MemKept (fun a => gateActive p ≤ a ∧ a < gateActive p + l.length) b (b.gateInForce p l) := fun a ha =>
  memByte_write_outside l b.mem (gateActive p) a (by omega)

/-- What stands after a list is taken over with no packet queued. -/
theorem Bench.gateTaken_spec (b : Bench) (p late : Nat) (g : GateSt) (l : List Byte) (e : List Tlp) (y : Bench)
    (hy : y = (((((b.gateTaken p l).setGate p g).count T.GATE_OVERRUN late).tick T.GATE_TAKEOVER).raise 29).afterEvents e) :
    (∀ f, y.flag f = (b.gateInForce p l).flag f) ∧ y.mem = (b.gateInForce p l).mem ∧ y.gate p = g ∧
      y.tally T.GATE_TAKEOVER = min tallyMax (b.tally T.GATE_TAKEOVER + 1) := by
  subst hy
  refine ⟨fun f => rfl, rfl, Bench.gate_setGate_self _ p g, ?_⟩
  rw [Bench.afterEvents_tally]
  refine (Bench.tally_count_self _ _ _).trans ?_
  rw [Bench.tally_count_ne _ _ (by decide)]
  rfl

theorem Bench.gateTaken_runs (b : Bench) (p late : Nat) (g : GateSt) (e : List Tlp) (hg : g.origin = b.gateStartAt p) (y : Bench)
    (hy : y = (((((b.gateTaken p (b.bytes (gateShadow p) 0x2000)).setGate p g).count T.GATE_OVERRUN late).tick T.GATE_TAKEOVER).raise 29).afterEvents e) :
    y.gatePending p = false ∧ y.gateOn p = true ∧ (y.gate p).origin = b.gateStartAt p ∧
      y.bytes (gateActive p) 0x2000 = b.bytes (gateShadow p) 0x2000 ∧
      MemKept (fun a => gateActive p ≤ a ∧ a < gateActive p + 0x2000) b y ∧
      y.tally T.GATE_TAKEOVER = min tallyMax (b.tally T.GATE_TAKEOVER + 1) := by
  have hlen : (b.bytes (gateShadow p) 0x2000).length = 0x2000 := memBytes_length _ _ _
  generalize b.bytes (gateShadow p) 0x2000 = list at hlen hy ⊢
  obtain ⟨hon, hoff⟩ := b.gateInForce_flags p list
  obtain ⟨hflag, hmem, hgate, htally⟩ := b.gateTaken_spec p late g list e y hy
  rw [← hlen]
  exact ⟨(hflag _).trans hoff, (hflag _).trans hon, (congrArg GateSt.origin hgate).trans hg,
    (congrArg (fun m => memBytes m (gateActive p) list.length) hmem).trans (b.gateInForce_bytes p list),
    fun a ha => (congrArg (memByte · a) hmem).trans (b.gateInForce_memKept p list a ha), htally⟩

/-! ## The statement -/

/-- Settles O27, clause by clause. -/
theorem gateLists : Obligations.GateLists := by
  refine ⟨fun n p s hl hport hpending hbad hahead => ?ahead, fun n p s hl hport hpending hbad hpast => ?past,
    fun n p s hl hport hpending hbad => ?bad, fun n p s hl hport hpending => ?second, fun n p s hl hport => ?cancel,
    fun n p s hl hport => ⟨?noPort, ?noPortCancel⟩, fun n p s hl hport hpending hstart => ?takeover,
    fun n p s hl hport hpending hstart hpkts hflow => ?takeoverQuiet, fun n p s hl hnot => ?takeoverNot, fun n p s hl hport hon => ?advance,
    fun n p s hl hon => ?advanceNot⟩
  case ahead =>
    refine runs_onBench rfl hl fun l => ?_
    rw [Bench.gateCommit_of_ahead hport hpending hbad hahead]
    obtain ⟨hwaits, hgate, hon⟩ := (s.dev.bench n).gateWaits_spec p ((s.dev.bench n).gateAhead p)
    have h := ((s.dev.bench n).gateWaits p ((s.dev.bench n).gateAhead p)).gatePosted p l
    have hg := h.gate.trans hgate
    exact ⟨(h.flag _ rfl).trans hwaits, congrArg GateSt.start hg, (congrArg GateSt.origin hg).trans (Bench.gateAhead_origin _ p), congrArg GateSt.atOnce hg,
      (h.flag _ rfl).trans hon, h.mem, h.pkts, h.posted⟩
  case past =>
    refine runs_onBench rfl hl fun l => ?_
    rw [Bench.gateCommit_of_past hport hpending hbad hpast]
    obtain ⟨hwaits, hgate, -⟩ := (s.dev.bench n).gateWaits_spec p ((s.dev.bench n).gatePast p)
    have h := (((((s.dev.bench n).gateWaits p ((s.dev.bench n).gatePast p)).setFld
      (R.tm_GATE_STATUS_START_PAST p) 1).tick T.GATE_START_PAST).raise 29).gatePosted p l
    have hg := h.gate.trans hgate
    have hnoted (f : Fld) := Bench.flag_noted (((s.dev.bench n).gateWaits p ((s.dev.bench n).gatePast p)).setFld
      (R.tm_GATE_STATUS_START_PAST p) 1) T.GATE_START_PAST 29 f
    refine ⟨(h.flag _ rfl).trans <| (hnoted _).trans <| (Bench.flag_setFld_apart _ _ _ _ ?_ (.inr (.inr ?_))).trans hwaits,
      (h.flag _ rfl).trans <| (hnoted _).trans (Bench.flag_setFld_one _ _ ?_ Nat.one_ne_zero), congrArg GateSt.start hg, congrArg GateSt.atOnce hg,
      h.mem, h.pkts, h.posted⟩
    · change 1 + 1 ≤ 32; decide
    · change 1 + 1 ≤ 3; decide
    · change 3 + 1 ≤ 32; decide
  case bad => exact leaves_of_eq rfl hl (Bench.gateCommit_of_refused (r := 2) hport (by decide) (by rw [hpending, hbad]; rfl))
  case second => exact leaves_of_eq rfl hl (Bench.gateCommit_of_refused (r := 1) hport (by decide) (by rw [hpending]; rfl))
  case cancel => exact leaves_of_eq rfl hl (if_neg (by rw [hport]; exact Bool.false_ne_true))
  case noPort => exact leaves_of_eq rfl hl (if_pos (by rw [hport]; rfl))
  case noPortCancel => exact leaves_of_eq rfl hl (if_pos (by rw [hport]; rfl))
  case takeover => exact leaves_of_eq rfl hl (if_pos (by simp [hport, hpending, hstart]))
  case takeoverQuiet =>
    refine runs_onBench rfl hl fun l => ?_
    rw [if_pos (by simp [hport, hpending, hstart])]
    obtain ⟨g, late, horigin, htake⟩ := (s.dev.bench n).gateTake_of_flow_nil p hflow
    rw [htake]
    exact (s.dev.bench n).gateTaken_runs p late g l horigin _ rfl
  case takeoverNot =>
    refine leaves_of_eq rfl hl (if_neg ?_)
    obtain hno | hlate := hnot
    · simp [hno]
    · simp [not_le.2 hlate]
  case advance =>
    refine leaves_of_eq rfl hl ?_
    simp only [hport, if_true, Bench.placeGate, hon]
  case advanceNot =>
    refine leaves_of_eq rfl hl ?_
    simp only [Bench.placeGate, hon, Bool.false_eq_true, if_false, ite_self]

end Sys2Proof.Machine
end

section
/-! O28: the hopper (R247 to R258, R266). -/
namespace Sys2Proof.Machine

@[simp] theorem Ecc.unc_nil (lo hi : Nat) : Ecc.unc [] lo hi = false := rfl

@[simp] theorem Ecc.cor_nil (lo hi : Nat) : Ecc.cor [] lo hi = 0 := rfl

/-! ## Enable and build -/

theorem Bench.carveOk_rsvd (b : Bench) (o v : Nat) (up : Bool) (c : Nat) : (b.rsvd o v).carveOk up c = b.carveOk up c := by
  obtain h | ⟨k, h⟩ := b.rsvd_eq o v <;> rw [h]
  rfl

theorem Bench.hop_rsvd (b : Bench) (o v : Nat) : (b.rsvd o v).hop = b.hop := by
  obtain h | ⟨k, h⟩ := b.rsvd_eq o v <;> rw [h]
  rfl

/-- The spill bits of HOPPER_CTL put in. -/
def Bench.putSpill (b : Bench) (v : Nat) : Bench :=
  (b.setFld R.hopper_HOPPER_CTL_FACE_SPILL (getBits v 2 1)).setFld R.hopper_HOPPER_CTL_ALLOC_SPILL (getBits v 3 1)

/-- The carve does not rest on HOPPER_CTL. -/
theorem Bench.carveOk_putSpill (b : Bench) (v : Nat) (up : Bool) (c : Nat) : (b.putSpill v).carveOk up c = b.carveOk up c := by
  have hreg (o : Nat) (ho : o ≠ R.hopper_HOPPER_CTL) : (b.putSpill v).reg o = b.reg o :=
    (Bench.reg_setFld_ne _ _ _ _ ho).trans (Bench.reg_setFld_ne _ _ _ _ ho)
  have hcount (k : Nat) : (b.putSpill v).poolCount k = b.poolCount k := by
    unfold Bench.poolCount Bench.fld
    split
    · rw [hreg _ (by change 0x70020 + 0x4 * k ≠ 0x70010; omega)]
    · rw [hreg _ (by decide)]
  have hstart (k : Nat) : (b.putSpill v).poolStart k = b.poolStart k := by
    induction k with
    | zero => rfl
    | succ k ih => simp only [Bench.poolStart, ih, hcount]
  unfold Bench.carveOk Bench.fld
  rw [hstart, hreg _ (by decide), hreg _ (by decide)]

/-- A write with ENABLE = 1 names the spill bits of `v`. -/
theorem enableWord_bits (v : Word) :
    bit (BitVec.ofNat 32 (putBits v.toNat 0 1 1)).toNat 0 = true ∧
      getBits (BitVec.ofNat 32 (putBits v.toNat 0 1 1)).toNat 2 1 = getBits v.toNat 2 1 ∧
      getBits (BitVec.ofNat 32 (putBits v.toNat 0 1 1)).toNat 3 1 = getBits v.toNat 3 1 := by
  have hv := v.isLt
  have hput : putBits v.toNat 0 1 1 = v.toNat / 2 * 2 + 1 := by unfold putBits; omega
  have hword : (BitVec.ofNat 32 (putBits v.toNat 0 1 1)).toNat = v.toNat / 2 * 2 + 1 := by
    rw [hput, BitVec.toNat_ofNat]
    omega
  rw [hword]
  unfold bit getBits
  refine ⟨?_, ?_, ?_⟩
  · simp
  · omega
  · omega

theorem Bench.hopperCtl_of_enable (b : Bench) (up : Bool) (c : Nat) (v : Word) :
    b.hopperCtl up c (BitVec.ofNat 32 (putBits v.toNat 0 1 1)) =
      if b.flag R.hopper_HOPPER_CTL_ENABLE then b.putSpill v.toNat
      else if b.carveOk up c then
        { (b.putSpill v.toNat).setFld R.hopper_HOPPER_CTL_ENABLE 1 with hop := { b.hop with building := true } }
      else (b.putSpill v.toNat).tick T.CFG_REFUSED := by
  obtain ⟨hen, hface, halloc⟩ := enableWord_bits v
  rw [← Bench.carveOk_putSpill b v.toNat]
  unfold Bench.hopperCtl Bench.putSpill
  simp only [hen, hface, halloc, if_true] <;> rfl

/-- Building free lists of pools below 5 fills them and changes no other register. -/
theorem Bench.foldl_poolReady {ks : List Nat} (hks : ∀ k ∈ ks, k < 5) (b : Bench) :
    b.RegsOnly (ks.foldl Bench.poolReady b) ∧
      (∀ o, (∀ k ∈ ks, o ≠ R.hopper_POOL_FREE k) → (ks.foldl Bench.poolReady b).reg o = b.reg o) ∧
      ∀ k ∈ ks, (ks.foldl Bench.poolReady b).freeCount k = b.poolCount k % 2 ^ (R.hopper_POOL_FREE_FREE k).w := by
  induction ks generalizing b with
  | nil => exact ⟨.refl b, fun _ _ => rfl, fun k hk => absurd hk (by simp)⟩
  | cons j t ih =>
    obtain ⟨hj, ht⟩ := List.forall_mem_cons.1 hks
    obtain ⟨honly, hreg, hfree⟩ := ih ht (b.poolReady j)
    have hkept (k : Nat) : (b.poolReady j).poolCount k = b.poolCount k := by
      unfold Bench.poolCount Bench.poolReady Bench.fld
      split
      · rw [Bench.reg_setFld_ne _ _ _ _ (by change 0x70020 + 0x4 * k ≠ 0x70050 + 0x4 * j; omega)]
      · rw [Bench.reg_setFld_ne _ _ _ _ (by change 0x7006C ≠ 0x70050 + 0x4 * j; omega)]
    rw [List.foldl_cons]
    refine ⟨.trans (.setFld b _ _) honly, fun o ho => ?_, fun k hk => ?_⟩
    · obtain ⟨hoj, hot⟩ := List.forall_mem_cons.1 ho
      exact (hreg o hot).trans (Bench.reg_setFld_ne _ _ _ _ hoj)
    · by_cases hin : k ∈ t
      · rw [hfree k hin, hkept]
      · obtain rfl : k = j := (List.mem_cons.1 hk).resolve_right hin
        have hword := hreg (R.hopper_POOL_FREE k) fun i hi => by
          have hne : i ≠ k := fun h => hin (h ▸ hi)
          change 0x70050 + 0x4 * k ≠ 0x70050 + 0x4 * i
          omega
        refine (congrArg (fun w : Word => getBits w.toNat 0 17) hword).trans ?_
        exact Bench.fld_setFld_self _ _ _ (by change 0 + 17 ≤ 32; decide)

/-- The free lists are built: READY reads 1. -/
def Bench.hopperBuilt (b : Bench) : Bench :=
  { b.setFld R.hopper_HOPPER_CTL_READY 1 with hop := { b.hop with building := false } }

theorem Bench.hopperBuilt_spec {b b' : Bench} (h : b.RegsOnly b') (l : List Tlp) :
    (b'.hopperBuilt.afterEvents l).fld R.hopper_HOPPER_CTL_READY = 1 ∧
      (∀ o, o ≠ R.hopper_HOPPER_CTL → (b'.hopperBuilt.afterEvents l).reg o = b'.reg o) ∧
      (b'.hopperBuilt.afterEvents l).hop = { b.hop with building := false } ∧
      (b'.hopperBuilt.afterEvents l).mem = b.mem ∧ (b'.hopperBuilt.afterEvents l).tal = b.tal := by
  obtain ⟨r, rfl⟩ := h
  exact ⟨(Bench.afterEvents_fld _ l _).trans (Bench.fld_setFld_self { b with regs := r } R.hopper_HOPPER_CTL_READY 1 (by decide)),
    fun o ho => (Bench.afterEvents_reg _ l o).trans (Bench.reg_setFld_ne { b with regs := r } R.hopper_HOPPER_CTL_READY 1 o ho), rfl, rfl, rfl⟩

/-! ## The operations of HOP_CMD -/

@[simp] theorem Bench.bufOff_spent (b : Bench) (k i : Nat) : b.spent.bufOff k i = b.bufOff k i := by
  have hstart (k : Nat) : b.spent.poolStart k = b.poolStart k := by
    induction k with
    | zero => rfl
    | succ k ih => exact congrArg (· + b.poolCount k * poolSize k) ih
  unfold Bench.bufOff
  rw [hstart]

theorem Bench.grant_handle {b : Bench} {k i : Nat} (h : b.pickFree k = some i) (tag : Nat) :
    (b.grant k tag).1 = some (b.bufOff k i + 2 ^ 24 * k + 2 ^ 27 * ((b.recGen (recordAddr k (b.bufOff k i)) + 1) % 32)) := by
  unfold Bench.grant
  rw [h]
  simp only [Ecc.unc_nil, Ecc.cor_nil, Bench.correctable_zero, Bool.false_eq_true, if_false, Bench.bufOff_spent] <;> rfl

theorem Bench.allocResult_of_empty (b : Bench) (op tag k : Nat) : b.allocResult op tag (none, b.tick k) = (1, none, b.tick k) := if_pos rfl

theorem Bench.allocResult_of_grant {b : Bench} {k i : Nat} (h : b.pickFree k = some i) (op tag : Nat) :
    b.allocResult op tag (b.grant k tag) =
      (0, some (b.bufOff k i + 2 ^ 24 * k + 2 ^ 27 * ((b.recGen (recordAddr k (b.bufOff k i)) + 1) % 32)), (b.grant k tag).2) := by
  have hpair : b.grant k tag = ((b.grant k tag).1, (b.grant k tag).2) := rfl
  rw [Bench.grant_handle h] at hpair
  rw [hpair]
  rfl

/-- An operation on a buffer of no ECC error. -/
theorem Bench.hopOp_nil (b : Bench) (op agent h arg refs : Nat) :
    b.hopOp op agent h arg refs [] =
      let a := recordAddr (hPool h) (hOff h)
      let c := if b.checkHandle h (hopArgsOk op arg refs) ≠ 0 then b.checkHandle h (hopArgsOk op arg refs)
        else b.hopMatrix op agent a arg refs
      if c = 0 then (0, b.hopApply op h a arg refs) else (c, b.hopRefuse c op agent h) := by
  unfold Bench.hopOp
  simp only [Ecc.cor_nil, Ecc.unc_nil, List.map_const', List.sum_replicate, smul_zero, Bench.correctable_zero, List.filter_false,
    List.isEmpty_nil, Bool.not_true, Bool.false_eq_true, if_false]

/-- An operation of HOP_CMD on the buffer in HOP_ARG. -/
theorem Bench.hopCmd_of_op (b : Bench) {op : Nat} (hop : op = opShare ∨ op = opRelease ∨ op = opFree ∨ op = opGive) :
    b.hopCmd op false 0 [] =
      let r := b.hopOp op 4 (b.reg R.hopper_HOP_ARG).toNat ((b.reg R.hopper_HOP_ARG2).toNat % 256)
        ((b.reg R.hopper_HOP_ARG2).toNat / 256 % 256) []
      r.2.postHop r.1 none := by
  obtain rfl | rfl | rfl | rfl := hop <;> rfl

/-- An operation that R252, R255 and R256 allow. -/
theorem Bench.hopCmd_of_accepted {b : Bench} {op h a x : Nat} (hop : op = opShare ∨ op = opRelease ∨ op = opFree ∨ op = opGive)
    (hh : (b.reg R.hopper_HOP_ARG).toNat = h) (ha : recordAddr (hPool h) (hOff h) = a) (hx : (b.reg R.hopper_HOP_ARG2).toNat = x)
    (hcheck : b.checkHandle h (hopArgsOk op (x % 256) (x / 256 % 256)) = 0)
    (hmatrix : b.hopMatrix op 4 a (x % 256) (x / 256 % 256) = 0) :
    b.hopCmd op false 0 [] = (b.hopApply op h a (x % 256) (x / 256 % 256)).postHop 0 none := by
  subst hh hx ha
  rw [Bench.hopCmd_of_op b hop, Bench.hopOp_nil]
  simp only [hcheck, hmatrix, ne_eq, not_true_eq_false, if_false, if_true]

/-- An operation that R252, R255 or R256 refuses. -/
theorem Bench.hopCmd_of_refused {b : Bench} {op h a x c : Nat} (hop : op = opShare ∨ op = opRelease ∨ op = opFree ∨ op = opGive)
    (hh : (b.reg R.hopper_HOP_ARG).toNat = h) (ha : recordAddr (hPool h) (hOff h) = a) (hx : (b.reg R.hopper_HOP_ARG2).toNat = x)
    (hc : c = if b.checkHandle h (hopArgsOk op (x % 256) (x / 256 % 256)) ≠ 0 then b.checkHandle h (hopArgsOk op (x % 256) (x / 256 % 256))
      else b.hopMatrix op 4 a (x % 256) (x / 256 % 256)) (hne : c ≠ 0) :
    b.hopCmd op false 0 [] = (b.hopRefuse c op 4 h).postHop c none := by
  subst hh hx ha
  rw [Bench.hopCmd_of_op b hop, Bench.hopOp_nil]
  dsimp only
  rw [← hc, if_neg hne]

/-! ## The statement -/

theorem hopArgsOk_free (arg refs : Nat) : hopArgsOk opFree arg refs = true := rfl

/-- Settles O28, clause by clause. -/
theorem hopperCommands : Obligations.HopperCommands := by
  refine ⟨fun n v s hl hen hcarve => ?enable, fun n v s hl hen hcarve => ?enableRefused, fun n v s hl hen => ?enabled,
    fun n s hl hbuild => ?ready, fun n pkt k i s hl hpool hspill htake hpick => ?allocLength, fun n k i s hl hk htake hpick => ?allocPool,
    fun n k s hl hk htake => ?allocEmpty, fun n k s hl hk hcarved => ?badPool, fun n k s hl hk hcarved => ?badPoolEarly,
    fun n pkt k s hl hpool hspill htake => ?lengthEmpty, fun n pkt s hl hpool => ?tooBig,
    fun n h a x s hl hh ha hx hcheck hst hown => ⟨fun hargs => ?share, ?free, fun hargs => ?give⟩,
    fun n h a x s hl hh ha hx hcheck hst hlast harg hrefs hsum => ?shareMore, fun n h a s hl hh ha hcheck hst hlast => ?release,
    fun n op h a x c i s hl hop hh ha hx hc hne => ?refused, fun n s hl hcheck => ?oldGen⟩
  case enable =>
    refine leaves_of_eq rfl hl ?_
    rw [Bench.hopperCtl_of_enable, Bench.flag_rsvd, hen, Bench.carveOk_rsvd, hcarve, Bench.hop_rsvd]
    rfl
  case enableRefused =>
    refine leaves_of_eq rfl hl ?_
    rw [Bench.hopperCtl_of_enable, Bench.flag_rsvd, hen, Bench.carveOk_rsvd, hcarve]
    rfl
  case enabled =>
    refine leaves_of_eq rfl hl ?_
    rw [Bench.hopperCtl_of_enable, Bench.flag_rsvd, hen]
    rfl
  case ready =>
    refine runs_onBench rfl hl fun l => ?_
    rw [if_pos hbuild]
    obtain ⟨honly, hreg, hfree⟩ := Bench.foldl_poolReady (ks := [0, 1, 2, 3, 4]) (by decide) (s.dev.bench n)
    obtain ⟨hready, hkept, hhop, hmem, htal⟩ := Bench.hopperBuilt_spec honly l
    refine ⟨hready, hhop, fun k hk => ?_, hmem, htal⟩
    have hin : k ∈ [0, 1, 2, 3, 4] := by simp; omega
    exact (congrArg (fun w : Word => getBits w.toNat 0 17) (hkept _ (by change 0x70050 + 0x4 * k ≠ 0x70010; omega))).trans (hfree k hin)
  case allocLength =>
    refine leaves_of_eq rfl hl ?_
    simp only [Bench.hopCmd, if_true, Bench.allocLength, hpool, hspill, Bench.allocSpill, Bool.false_eq_true, if_false, Bench.alloc, htake,
      Bench.allocResult_of_grant hpick]
  case allocPool =>
    refine leaves_of_eq rfl hl ?_
    simp only [Bench.hopCmd, if_true, Nat.one_ne_zero, Bench.allocPool, not_lt.2 (Nat.lt_succ_iff.1 hk), if_false, Bench.alloc, htake,
      Bench.allocResult_of_grant hpick]
  case allocEmpty =>
    refine leaves_of_eq rfl hl ?_
    simp only [Bench.hopCmd, if_true, Nat.one_ne_zero, Bench.allocPool, not_lt.2 (Nat.lt_succ_iff.1 hk), if_false, Bench.alloc, htake,
      Bool.false_eq_true, Bench.allocResult_of_empty, emptyTally]
  case badPool =>
    refine leaves_of_eq rfl hl ?_
    simp only [Bench.hopCmd, if_true, Nat.one_ne_zero, if_false, Bench.allocPool, hk, hcarved]
  case badPoolEarly =>
    refine leaves_of_eq rfl hl ?_
    simp only [Bench.hopCmd, if_true, Nat.one_ne_zero, if_false, Bench.allocPool, hk, hcarved, Bool.false_eq_true]
  case lengthEmpty =>
    refine leaves_of_eq rfl hl ?_
    simp only [Bench.hopCmd, if_true, Bench.allocLength, hpool, hspill, Bench.allocSpill, Bool.false_eq_true, if_false, Bench.alloc,
      htake, Bench.allocResult_of_empty, emptyTally]
  case tooBig =>
    refine leaves_of_eq rfl hl ?_
    simp only [Bench.hopCmd, if_true, Bench.allocLength, hpool]
  case share =>
    refine leaves_of_eq rfl hl ((Bench.hopCmd_of_accepted (.inl rfl) hh ha hx ?_ ?_).trans ?_)
    · rw [hargs]
      exact hcheck
    · simp [Bench.hopMatrix, opShare, opFree, opRelease, hst, hown]
    · simp [Bench.hopApply, opShare, opFree, opRelease, hst, hown]
  case free =>
    refine leaves_of_eq rfl hl ((Bench.hopCmd_of_accepted (.inr (.inr (.inl rfl))) hh ha hx hcheck ?_).trans rfl)
    simp [Bench.hopMatrix, hst, hown]
  case give =>
    refine leaves_of_eq rfl hl ((Bench.hopCmd_of_accepted (.inr (.inr (.inr rfl))) hh ha hx ?_ ?_).trans rfl)
    · exact (congrArg (fun ok => (s.dev.bench n).checkHandle h ok) hargs).trans hcheck
    · simp [Bench.hopMatrix, opShare, opFree, opRelease, opGive, hst, hown]
  case shareMore =>
    have hargs : hopArgsOk opShare (x % 256) (x / 256 % 256) = true := by
      rw [harg]
      simp [hopArgsOk, hrefs, tagOk]
    refine leaves_of_eq rfl hl ((Bench.hopCmd_of_accepted (.inl rfl) hh ha hx ?_ ?_).trans ?_)
    · rw [hargs]
      exact hcheck
    · rw [harg]
      simp [Bench.hopMatrix, opShare, opFree, opRelease, hst, hlast, hsum]
    · simp [Bench.hopApply, opShare, opFree, opRelease, hst, hlast]
  case release =>
    refine leaves_of_eq rfl hl ((Bench.hopCmd_of_accepted (.inr (.inl rfl)) hh ha rfl hcheck ?_).trans rfl)
    simp [Bench.hopMatrix, opFree, opRelease, hst, Ne.symm hlast]
  case refused =>
    obtain ⟨rfl, rfl⟩ | ⟨rfl, rfl⟩ | ⟨rfl, rfl⟩ | ⟨rfl, rfl⟩ := hop
    · exact leaves_of_eq rfl hl (Bench.hopCmd_of_refused (.inl rfl) hh ha hx hc hne)
    · exact leaves_of_eq rfl hl (Bench.hopCmd_of_refused (.inr (.inl rfl)) hh ha hx hc hne)
    · exact leaves_of_eq rfl hl (Bench.hopCmd_of_refused (.inr (.inr (.inl rfl))) hh ha hx hc hne)
    · exact leaves_of_eq rfl hl (Bench.hopCmd_of_refused (.inr (.inr (.inr rfl))) hh ha hx hc hne)
  case oldGen =>
    refine leaves_of_eq rfl hl (Bench.hopCmd_of_refused (c := 5) (.inr (.inr (.inl rfl))) rfl rfl rfl ?_ (by decide))
    rw [hopArgsOk_free, hcheck]
    rfl

end Sys2Proof.Machine
end

section
/-! O47: flash channels and their operation rings (R408 to R415). -/
namespace Sys2Proof.Machine

variable {c : Instr} {n : BenchId} {s : State}

/-- A command of a bench that is awake. -/
theorem runs_onAwake {f : Bench → Bench} {P : Bench → Prop} (he : exec c s = s.onAwake n f) (ha : (s.dev.bench n).awake = true)
    (hp : ∀ l, P ((f (s.dev.bench n)).afterEvents l)) : Runs c n s P := by
  have heq : s.onAwake n f = .next { s with dev := s.dev.run n (fun h b => (h, if b.awake then f b else b)) } := rfl
  refine ⟨_, he.trans heq, ⟨rfl, ?_, ?_, fun o ho => ?_, fun m hm => Device.bench_run_ne _ _ hm⟩, rfl, ?_⟩
  · exact drainEvents_fw _ _ _
  · exact drainEvents_mem _ _ _
  · exact drainEvents_reg _ _ _ _ ho
  · dsimp only
    rw [Device.bench_run_self]
    dsimp only
    rw [if_pos ha]
    exact hp _

/-- A field beside one that was written reads as before. -/
theorem Bench.fld_setFld_off (b : Bench) (f g : Fld) (v : Nat) (h : g.off ≠ f.off) : (b.setFld f v).fld g = b.fld g := by
  unfold Bench.fld
  rw [Bench.reg_setFld_ne _ _ _ _ h]

@[simp] theorem Bench.fchan_setFchan_self (b : Bench) (c : Nat) (x : FlashChan) : (b.setFchan c x).fchan c = x := sparseGet_set_self _ _ _ _

/-- A media log record changes the log, its number, a tally and the waiting events. -/
theorem Bench.mediaLog_cases (b : Bench) (kind c die detail : Nat) :
    ∃ tal log seq, b.mediaLog kind c die detail = ({ b with tal := tal, sto := { b.sto with log := log, logSeq := seq } } : Bench).raise 39 ∧
      (b.sto.log.length < 32 → log.length = b.sto.log.length + 1) := by
  unfold Bench.mediaLog
  dsimp only
  split
  · next hfull => exact ⟨_, _, _, rfl, fun h => absurd hfull (not_le.2 h)⟩
  · exact ⟨_, _, _, rfl, fun _ => by simp⟩

/-! ## Identify -/

/-- What the dies that identify found leave as it was: memory, the channels and every register but the dies' own. -/
structure Bench.DiesOnly (c : Nat) (b b' : Bench) : Prop where
  mem : b'.mem = b.mem
  chans : b'.sto.chans = b.sto.chans
  reg : ∀ o, (∀ d, d < 16 → o ≠ R.storage_DIE_INFO c d) → b'.reg o = b.reg o

namespace Bench.DiesOnly

variable {c : Nat} {b b' b'' : Bench}

theorem trans (h : b.DiesOnly c b') (h' : b'.DiesOnly c b'') : b.DiesOnly c b'' :=
  ⟨h'.mem.trans h.mem, h'.chans.trans h.chans, fun o ho => (h'.reg o ho).trans (h.reg o ho)⟩

theorem foldl {α : Type} {l : List α} {f : Bench → α → Bench} (h : ∀ x ∈ l, ∀ b : Bench, b.DiesOnly c (f b x)) (b : Bench) :
    b.DiesOnly c (l.foldl f b) := by
  induction l generalizing b with
  | nil => exact ⟨rfl, rfl, fun _ _ => rfl⟩
  | cons x t ih => exact (h x List.mem_cons_self b).trans (ih (fun y hy => h y (List.mem_cons_of_mem _ hy)) _)

theorem die (b : Bench) (d : Nat × Bool) (hd : d.1 < 16) :
    b.DiesOnly c (let b := b.setFld (R.storage_DIE_INFO_INFO c d.1) (if d.2 then 1 else 2)
      if d.2 then b else b.mediaLog 5 c d.1 0) := by
  generalize (if d.2 then 1 else 2) = v
  have hset : b.DiesOnly c (b.setFld (R.storage_DIE_INFO_INFO c d.1) v) :=
    ⟨rfl, rfl, fun o ho => Bench.reg_setFld_ne _ _ _ _ (ho _ hd)⟩
  dsimp only
  split
  · exact hset
  · obtain ⟨tal, log, seq, h, -⟩ := (b.setFld (R.storage_DIE_INFO_INFO c d.1) v).mediaLog_cases 5 c d.1 0
    rw [h]
    exact hset.trans ⟨rfl, rfl, fun _ _ => rfl⟩

end Bench.DiesOnly

/-- What identify found is held, and the channel is READY. -/
theorem Bench.identified_spec (b : Bench) {c : Nat} (page planes blocks pages : Nat) {dies : List (Nat × Bool)}
    (hd : ∀ d ∈ dies, d.1 < 16) :
    (b.identified c page planes blocks pages dies).flashState c = fsReady ∧
      ((b.identified c page planes blocks pages dies).fchan c).page = page ∧
      (b.identified c page planes blocks pages dies).mem = b.mem ∧
      (b.identified c page planes blocks pages dies).fld (R.storage_GEOMETRY_BLOCKS c) = blocks % 2 ^ (R.storage_GEOMETRY_BLOCKS c).w := by
  unfold Bench.identified Bench.countDies
  dsimp only
  generalize hb0 : (((b.setFchan c { b.fchan c with page := page }).setFld (R.storage_GEOMETRY_PLANES c) planes).setFld
    (R.storage_GEOMETRY_BLOCKS c) blocks).setFld (R.storage_GEOMETRY2_PAGES c) pages = b0
  generalize Bench.cwPerPage _ c = k
  have hbus (x : Bench) : x.DiesOnly c (((List.range 4).filter (fun ce => dies.any (fun d => d.1 / 4 = ce))).foldl (fun b ce =>
      (b.onBus c (4 * ce) 7 0x20 []).onBus c (4 * ce) 8 0 []) x) :=
    Bench.DiesOnly.foldl (f := fun b ce => (b.onBus c (4 * ce) 7 0x20 []).onBus c (4 * ce) 8 0 [])
      (fun _ _ _ => ⟨rfl, rfl, fun _ _ => rfl⟩) x
  have hall := (hbus (b0.setFld (R.storage_GEOMETRY_CW_PER_PAGE c) k)).trans (Bench.DiesOnly.foldl (fun d hin b => Bench.DiesOnly.die b d (hd d hin)) _)
  generalize List.foldl _ _ dies = y at hall ⊢
  generalize List.length _ = m
  have hgeo (d : Nat) : R.storage_GEOMETRY c ≠ R.storage_DIE_INFO c d := by
    change 0xB0024 + 0x40 * c ≠ 0xB0100 + 0x40 * c + 0x4 * d; omega
  refine ⟨?_, ?_, ?_, ?_⟩
  · exact Bench.fld_setFld_self _ _ _ (by change 0 + 3 ≤ 32; decide)
  · refine (congrArg (fun l => (sparseGet (fun _ => FlashChan.idle) l c).page) hall.chans).trans ?_
    rw [← hb0]
    exact congrArg FlashChan.page (Bench.fchan_setFchan_self b c _)
  · refine hall.mem.trans ?_
    rw [← hb0]
    rfl
  · rw [Bench.fld_setFld_off _ _ _ _ (by change 0xB0024 + 0x40 * c ≠ 0xB0014 + 0x40 * c; omega),
      Bench.fld_setFld_off _ _ _ _ (by change 0xB0024 + 0x40 * c ≠ 0xB0014 + 0x40 * c; omega)]
    refine (congrArg (fun w : Word => getBits w.toNat 7 16) (hall.reg (R.storage_GEOMETRY c) fun d _ => hgeo d)).trans ?_
    refine (Bench.fld_setFld_apart b0 _ (R.storage_GEOMETRY_BLOCKS c) k (by change 7 + 16 ≤ 32; decide)
      (.inr (.inl (by change 0 + 4 ≤ 7; decide)))).trans ?_
    rw [← hb0, Bench.fld_setFld_off _ _ _ _ (by change 0xB0024 + 0x40 * c ≠ 0xB0028 + 0x40 * c; omega)]
    exact Bench.fld_setFld_self _ _ _ (by change 7 + 16 ≤ 32; decide)

/-! ## The operation ring -/

theorem Bench.cwPerPage_setCw (b : Bench) (c v : Nat) : (b.setFld (R.storage_GEOMETRY_CW_PER_PAGE c) v).cwPerPage c = b.cwPerPage c := by
  unfold Bench.cwPerPage Bench.parityBytes
  rw [Bench.fld_setFld_off _ _ _ _ (by change 0xB0010 + 0x40 * c ≠ 0xB0024 + 0x40 * c; omega)]
  rfl

/-- A training that fails. -/
theorem Bench.trainFailed_spec (b : Bench) (c : Nat) (l : List Tlp) (x : Bench)
    (hx : x = (((b.setFld (R.storage_GEOMETRY_CW_PER_PAGE c) (b.cwPerPage c)).setFld (R.storage_FLASH_STATUS_STATE c) fsReady).setFld
      (R.storage_FLASH_STATUS_TRAIN_FAIL c) 1).mediaLog 6 c 0 0) :
    (x.afterEvents l).flashState c = fsReady ∧ (x.afterEvents l).fld (R.storage_FLASH_STATUS_TRAIN_FAIL c) = 1 ∧
      (x.afterEvents l).mem = b.mem ∧ (b.sto.log.length < 32 → (x.afterEvents l).sto.log.length = b.sto.log.length + 1) := by
  subst hx
  obtain ⟨tal, log, seq, h, hlog⟩ := (((b.setFld (R.storage_GEOMETRY_CW_PER_PAGE c) (b.cwPerPage c)).setFld
    (R.storage_FLASH_STATUS_STATE c) fsReady).setFld (R.storage_FLASH_STATUS_TRAIN_FAIL c) 1).mediaLog_cases 6 c 0 0
  rw [h]
  refine ⟨(Bench.afterEvents_fld _ l _).trans <| (Bench.fld_setFld_apart
    ((b.setFld (R.storage_GEOMETRY_CW_PER_PAGE c) (b.cwPerPage c)).setFld (R.storage_FLASH_STATUS_STATE c) fsReady) _ _ _ ?_
    (.inr (.inr ?_))).trans (Bench.fld_setFld_self _ _ _ ?_), (Bench.afterEvents_fld _ l _).trans (Bench.fld_setFld_self
    ((b.setFld (R.storage_GEOMETRY_CW_PER_PAGE c) (b.cwPerPage c)).setFld (R.storage_FLASH_STATUS_STATE c) fsReady) _ _ ?_), rfl, hlog⟩
  · change 0 + 3 ≤ 32; decide
  · change 0 + 3 ≤ 9; decide
  · change 0 + 3 ≤ 32; decide
  · change 9 + 1 ≤ 32; decide

/-- A ring that stops. -/
theorem Bench.fringStop_spec (b : Bench) (c : Nat) (l : List Tlp) (y : Bench) (hy : y = (b.fringStop c).afterEvents l) :
    (y.fchan c).stopped = true ∧ y.fld (R.storage_FLASH_STATUS_RING_ERROR c) = 1 ∧ y.sto.ops = b.sto.ops ∧ y.mem = b.mem := by
  subst hy
  unfold Bench.fringStop
  obtain ⟨tal, log, seq, h, -⟩ := ((b.setFchan c { b.fchan c with stopped := true, reread := false }).setFld
    (R.storage_FLASH_STATUS_RING_ERROR c) 1).mediaLog_cases 7 c 0 0
  rw [h]
  exact ⟨congrArg FlashChan.stopped (Bench.fchan_setFchan_self b c _),
    (Bench.afterEvents_fld _ l _).trans (Bench.fld_setFld_self (b.setFchan c _) _ _ (by change 8 + 1 ≤ 32; decide)), rfl, rfl⟩

theorem Bench.flashDb_of_bad {b : Bench} {c v : Nat} (h : b.fringN c ≤ dbIndex v) : b.flashDb c v = b.fringStop c := by
  unfold Bench.flashDb
  exact if_pos (by simp [h])

theorem Bench.flashDb_of_good {b : Bench} {c v : Nat} (hidx : dbIndex v < b.fringN c)
    (hlo : 0 ≤ countOf (b.fringN c) false (dbIndex v) (dbLap v) (b.fringIdx c) (b.fringLap c))
    (hhi : countOf (b.fringN c) false (dbIndex v) (dbLap v) (b.fringIdx c) (b.fringLap c) ≤ (b.fringN c : Int)) :
    b.flashDb c v = b.setFchan c { b.fchan c with prod := (dbIndex v, dbLap v) } := by
  unfold Bench.flashDb
  exact if_neg (by simp [hidx, hlo, hhi])

theorem Bench.flashRingReset_spec (b : Bench) (c : Nat) (l : List Tlp) (y : Bench) (hy : y = (b.flashRingReset c).afterEvents l) :
    (y.fchan c).prod = (0, 1) ∧ (y.fchan c).stopped = false ∧ y.fringIdx c = 0 ∧ y.fringLap c = 1 ∧ y.sto.ops = b.sto.ops ∧ y.mem = b.mem := by
  subst hy
  unfold Bench.flashRingReset
  have hchan := Bench.fchan_setFchan_self b c { b.fchan c with prod := (0, 1), reread := false, stopped := false }
  generalize hx : b.setFchan c { b.fchan c with prod := (0, 1), reread := false, stopped := false } = x at hchan ⊢
  refine ⟨congrArg FlashChan.prod hchan, congrArg FlashChan.stopped hchan, ?_, ?_, ?_, ?_⟩
  · refine (Bench.afterEvents_fld _ l _).trans <|
      (Bench.fld_setFld_apart _ _ _ _ (by change 0 + 8 ≤ 32; decide) (.inr (.inr (by change 0 + 8 ≤ 8; decide)))).trans ?_
    exact Bench.fld_setFld_self x _ _ (by change 0 + 8 ≤ 32; decide)
  · exact (Bench.afterEvents_fld _ l _).trans (Bench.fld_setFld_self _ _ _ (by change 8 + 1 ≤ 32; decide))
  · rw [← hx]; rfl
  · rw [← hx]; rfl

/-- The entry is taken at the end of the queue, and the ring's position moves on. -/
theorem Bench.fetchOp_spec (b : Bench) (c : Nat) (e : List Byte) (l : List Tlp) (y : Bench) (hy : y = (b.fetchOp c e).afterEvents l) :
    y.mem = b.mem ∧
      (∃ o, y.sto.ops = b.sto.ops ++ [o] ∧ o.chan = c ∧ o.entry = e ∧ o.index = b.fringIdx c ∧ o.started = false ∧ o.status = none) ∧
      (b.fringIdx c + 1 < b.fringN c → b.fringIdx c < 255 → y.fringIdx c = b.fringIdx c + 1 ∧ y.fringLap c = b.fringLap c) ∧
      (b.fringIdx c + 1 = b.fringN c → y.fringIdx c = 0 ∧ y.fringLap c = 1 - b.fringLap c) := by
  have hlap : b.fringLap c < 2 := Nat.mod_lt _ (by change 0 < 2 ^ 1; decide)
  subst hy
  unfold Bench.fetchOp
  dsimp only
  generalize hx : Bench.setFchan _ c _ = x
  have hidx (i v : Nat) : ((((x.setFld (R.storage_FLASH_RING_STATUS_INDEX c) i).setFld (R.storage_FLASH_RING_STATUS_LAP c) v).afterEvents l).fringIdx c) =
      i % 2 ^ 8 := by
    refine (Bench.afterEvents_fld _ l _).trans ?_
    refine (Bench.fld_setFld_apart _ _ _ _ (by change 0 + 8 ≤ 32; decide) (.inr (.inr (by change 0 + 8 ≤ 8; decide)))).trans ?_
    exact Bench.fld_setFld_self x _ _ (by change 0 + 8 ≤ 32; decide)
  have hlap' (i v : Nat) : ((((x.setFld (R.storage_FLASH_RING_STATUS_INDEX c) i).setFld (R.storage_FLASH_RING_STATUS_LAP c) v).afterEvents l).fringLap c) =
      v % 2 ^ 1 :=
    (Bench.afterEvents_fld _ l _).trans (Bench.fld_setFld_self _ _ _ (by change 8 + 1 ≤ 32; decide))
  have hsize : x.fringN c = b.fringN c := by rw [← hx]; rfl
  have hold : x.fringLap c = b.fringLap c := by rw [← hx]; rfl
  refine ⟨?_, ?_, fun hlt hmax => ?_, fun hlast => ?_⟩
  · rw [← hx]; rfl
  · rw [← hx]; exact ⟨_, rfl, rfl, rfl, rfl, rfl, rfl⟩
  · rw [hidx, hlap', hsize, hold, if_neg hlt.ne, if_neg hlt.ne]
    omega
  · rw [hidx, hlap', hsize, hold, if_pos hlast, if_pos hlast]
    omega

theorem Bench.readEntry_of_match {b : Bench} {c : Nat} {again : Bool} (hwork : b.fringWork c = true) (hagain : (b.fchan c).reread = again)
    (hphase : feBits (b.fentry c) 60 31 1 = b.fringLap c) (hroom : b.dieRoom c (feDie (b.fentry c)) = true) :
    b.readEntry c again = b.fetchOp c (b.fentry c) := by
  unfold Bench.readEntry
  simp [hwork, hagain, hphase, hroom]

theorem Bench.readEntry_of_mismatch {b : Bench} {c : Nat} {again : Bool} (hwork : b.fringWork c = true) (hagain : (b.fchan c).reread = again)
    (hphase : feBits (b.fentry c) 60 31 1 ≠ b.fringLap c) :
    b.readEntry c again = if again then b.fringStop c else b.setFchan c { b.fchan c with reread := true } := by
  unfold Bench.readEntry
  simp [hwork, hagain, hphase]

/-! ## The statement -/

/-- Settles O47, clause by clause. -/
theorem flashChannelsAndRings : Obligations.FlashChannelsAndRings := by
  refine ⟨fun n c page planes blocks pages dies s ha hc hst hd => ?identify, fun n c s hl hc hst hdies => ?train, fun n c s hl hc hst => ?trainRefused,
    fun n c s hl hc hst hcw => ?trained, fun n c s hl hc hst => ?trainFailed, fun n c v k s hl hc hidx hk hlo hhi => ?db,
    fun n c v s hl hc hidx => ?dbBad, fun n c s hl hc => ?reset, fun n c s hl hc hwork hreread hphase hroom => ?fetch,
    fun n c s hl hc hwork hreread hphase => ?mismatch, fun n c s hl hc hwork hreread hphase => ?second,
    fun n c s hl hc hwork hreread hphase hroom => ?reread⟩
  case identify =>
    refine runs_onAwake rfl ha fun l => ?_
    rw [if_pos (by simp [hc, hst])]
    obtain ⟨hstate, hpage, hmem, hblocks⟩ := (s.dev.bench n).identified_spec page planes blocks pages hd
    generalize Bench.identified _ c page planes blocks pages dies = y at hstate hpage hmem hblocks
    exact ⟨hstate, hpage, hmem, hblocks⟩
  case train =>
    refine leaves_of_eq rfl hl ?_
    rw [if_pos hc]
    exact if_pos (by simp [hst, hdies])
  case trainRefused =>
    refine leaves_of_eq rfl hl ?_
    rw [if_pos hc]
    exact if_neg (by simp [hst])
  case trained =>
    refine leaves_of_eq rfl hl ?_
    rw [if_pos (by simp [hc, hst])]
    exact if_pos (by simp [Bench.cwPerPage_setCw, hcw])
  case trainFailed =>
    refine runs_onBench rfl hl fun l => ?_
    rw [if_pos (by simp [hc, hst])]
    exact (s.dev.bench n).trainFailed_spec c l _ (if_neg Bool.false_ne_true)
  case db =>
    subst hk
    refine leaves_of_eq rfl hl ?_
    rw [if_pos hc]
    exact Bench.flashDb_of_good hidx hlo hhi
  case dbBad =>
    refine runs_onBench rfl hl fun l => ?_
    rw [if_pos hc, Bench.flashDb_of_bad hidx]
    obtain ⟨hstop, herr, -, hmem⟩ := (s.dev.bench n).fringStop_spec c l _ rfl
    exact ⟨hstop, herr, hmem⟩
  case reset =>
    refine runs_onBench rfl hl fun l => ?_
    rw [if_pos hc]
    exact (s.dev.bench n).flashRingReset_spec c l _ rfl
  case fetch =>
    refine runs_onBench rfl hl fun l => ?_
    rw [if_pos hc, Bench.readEntry_of_match hwork hreread hphase hroom]
    exact (s.dev.bench n).fetchOp_spec c _ l _ rfl
  case mismatch =>
    refine leaves_of_eq rfl hl ?_
    rw [if_pos hc]
    exact Bench.readEntry_of_mismatch hwork hreread hphase
  case second =>
    refine runs_onBench rfl hl fun l => ?_
    rw [if_pos hc, Bench.readEntry_of_mismatch hwork hreread hphase, if_pos rfl]
    exact (s.dev.bench n).fringStop_spec c l _ rfl
  case reread =>
    refine leaves_of_eq rfl hl ?_
    rw [if_pos hc]
    exact Bench.readEntry_of_match hwork hreread hphase hroom

end Sys2Proof.Machine
end

section
/-! SUPPORT. Commands of a live bench and the hub, both given by equations. -/
namespace Sys2Proof.Machine

variable {c : Instr} {n : BenchId} {s : State}

/-- A command of a bench in any state and the hub, both given outright. -/
theorem leavesBoth_onBoth {f : Hub → Bench → Hub × Bench} {h : Hub} {b : Bench} (he : exec c s = s.onBoth n f)
    (hf : f s.dev.hub (s.dev.bench n) = (h, b)) : LeavesBoth c n s h b := by
  refine he.trans ?_
  unfold State.onBoth Device.run
  rw [hf]

/-- A command of a live bench and the hub, both given outright. -/
theorem leavesBoth_onLive {f : Hub → Bench → Hub × Bench} {h : Hub} {b : Bench} (he : exec c s = s.onLive n f)
    (hl : (s.dev.bench n).live = true) (hf : f s.dev.hub (s.dev.bench n) = (h, b)) : LeavesBoth c n s h b := by
  refine leavesBoth_onBoth (f := fun h b => if b.live then f h b else (h, b)) he ?_
  exact (if_pos hl).trans hf

/-- What leaves the hub but for a bench's events acts on the bench alone. -/
theorem runs_of_leavesBoth {b : Bench} {P : Bench → Prop} (h : LeavesBoth c n s s.dev.hub b) (hp : ∀ l, P (b.afterEvents l)) : Runs c n s P := by
  refine ⟨_, h, ⟨rfl, drainEvents_fw _ _ _, drainEvents_mem _ _ _, fun o ho => drainEvents_reg _ _ _ _ ho,
    fun m hm => Device.bench_run_ne _ _ hm⟩, rfl, ?_⟩
  dsimp only
  rw [Device.bench_run_self]
  exact hp _

theorem leaves_of_leavesBoth {b : Bench} (h : LeavesBoth c n s s.dev.hub b) : Leaves c n s b := runs_of_leavesBoth h fun l => ⟨l, rfl⟩

end Sys2Proof.Machine
end
section
/-! O46: haul commands (R389 to R407, R462). -/
namespace Sys2Proof.Machine

/-- A command of ZERO stages zero bytes. -/
theorem Bench.readRequest_of_zero {n : BenchId} {h : Hub} {ecc : Ecc} {k : HaulCmd} {b : Bench} (htabs : k.tabs = []) (hop : k.op = 2)
    (hroom : 0 < b.mayStage k.chan) :
    Bench.readRequest n h ecc k b = b.stage k.id k.nextChunk.1 (List.replicate k.nextChunk.2 0#8) 0 0 := by
  unfold Bench.readRequest
  simp [htabs, hop, hroom.ne']

/-- A chunk of a command with no checks that writes device memory. -/
theorem Bench.writeChunk_of_device {n : BenchId} {h : Hub} {k : HaulCmd} {x : Chunk} {l : List Byte} {b : Bench} (hbad : x.bad = 0)
    (hdata : x.data = some l) (hchan : 6 ≤ k.chan) (hdst : k.dstSpace = 0) (hcrc : k.crcEn = false) (hcsum : k.csumEn = false) :
    Bench.writeChunk n h [] k x b = (h, (Bench.scatter n [] (subPieces k.dst x.off l.length) l b).updCmd k.id (fun q =>
      { q with all := k.all, wr := q.wr + l.length, chunks := q.chunks.tail })) := by
  have hnew : k.newBuf = false := by simp [HaulCmd.newBuf, hdst]
  have hkeep : k.keep l = k := by simp [HaulCmd.keep, hcrc, hcsum]
  have htrailer : k.trailer = [] := by simp [HaulCmd.trailer, hcrc, hcsum]
  have hwrite : Bench.writeDst n h [] k x.off l false b = Bench.scatter n [] (subPieces k.dst x.off l.length) l b := by
    have hframe : k.frameIn = false := decide_eq_false (by omega)
    have hhost : k.dstHost = false := by simp [HaulCmd.dstHost, hdst]
    unfold Bench.writeDst
    simp [hframe, hhost, hnew]
  have hbuf : b.newBuffer k [] = (some k, b) := by
    unfold Bench.newBuffer
    simp [hnew]
  unfold Bench.writeChunk
  simp only [Ecc.unc_nil, Ecc.cor_nil, Bench.correctable_zero, Bool.false_eq_true, if_false, hbad, hdata, ne_eq, not_true_eq_false, hbuf,
    Option.getD_some, hkeep, hwrite, htrailer, List.isEmpty_nil, Bool.not_true, Bool.and_false, List.length_nil, ite_self, Nat.add_zero]

theorem Bench.finishCmd_of_done {b : Bench} {c st : Nat} {k : HaulCmd} (hk : (b.chanCmds c).head? = some k) (hst : b.doneStatus k = some st) :
    b.finishCmd c = ((((b.killReads k.id).endCmd k st).countHaul c).feedSends 16).feedHsubs := by
  unfold Bench.finishCmd
  rw [hk]
  dsimp only
  rw [hst]

theorem Bench.finishCmd_of_none {b : Bench} {c : Nat} (hk : (b.chanCmds c).head? = none) : b.finishCmd c = b := by
  unfold Bench.finishCmd
  rw [hk]

/-! ## The collector -/

/-- The only slot that is busy is drained next. -/
theorem find_only_slot {ready : Nat → Bool} {turn x : Nat} (hx : x < 24) (hready : ready x = true) (honly : ∀ y, y < 24 → ready y = true → y = x) :
    ((List.range 24).map (fun k => (turn + 1 + k) % 24)).find? ready = some x := by
  have hin : x ∈ (List.range 24).map (fun k => (turn + 1 + k) % 24) := by
    refine List.mem_map.2 ⟨(x + 23 * (turn + 1)) % 24, List.mem_range.2 (Nat.mod_lt _ (by decide)), ?_⟩
    omega
  cases h : ((List.range 24).map (fun k => (turn + 1 + k) % 24)).find? ready with
  | none => exact absurd hready (Bool.eq_false_iff.1 (List.find?_eq_none.1 h x hin |> Bool.eq_false_iff.2))
  | some y =>
    have hy := List.mem_of_find?_eq_some h
    obtain ⟨k, -, rfl⟩ := List.mem_map.1 hy
    rw [honly _ (Nat.mod_lt _ (by decide)) (List.find?_some h)]

/-- The collector drains the only completion of a ring at its head. -/
theorem Bench.collect_of_cpl {b : Bench} {c : Cpl} {rest : List Cpl} (hcpls : b.rings.cpls = c :: rest) (hout : c.out = false)
    (honly : ∀ x, x < 24 → b.slotBusy x = true → x = c.slot) (hslot : c.slot < 24) :
    b.collect = { b with haul := { b.haul with turn := c.slot }, rings := { b.rings with cpls := { c with out := true } :: rest } } := by
  have hbusy : b.slotBusy c.slot = true := by simp [Bench.slotBusy, hcpls, hout]
  unfold Bench.collect
  rw [find_only_slot hslot hbusy honly]
  simp [hcpls, hout]

/-- The collector drains the only command that has ended. -/
theorem Bench.collect_of_cmd {b : Bench} {c : HaulCmd} {rest : List HaulCmd} (hcpls : b.rings.cpls = []) (hcmds : b.haul.cmds = c :: rest)
    (hended : c.ended = true) (honly : ∀ x, x < 24 → b.slotBusy x = true → x = c.slot) (hslot : c.slot < 24) :
    b.collect = Bench.deliverCmd { b with haul := { b.haul with turn := c.slot } } c := by
  have hbusy : b.slotBusy c.slot = true := by simp [Bench.slotBusy, hcmds, hended]
  unfold Bench.collect
  rw [find_only_slot hslot hbusy honly]
  simp [hcpls, hcmds, hended]

/-- With the engine cluster quiet, what goes on is the stall watch, which may fall. -/
theorem Bench.pump_cases {b : Bench} (h : b.quiet) : b.pump = b ∨ b.pump = b.stallZero := by
  rw [Bench.pump_of_quiet b h]
  exact b.judgeStall_eq

/-- A delivered command of channel 6 leaves the queue, and its count is posted. -/
theorem Bench.deliverCmd_spec {b : Bench} {c : HaulCmd} {rest : List HaulCmd} (hcmds : b.haul.cmds = c :: rest) (hchan : c.chan = 6) (hq : b.quiet)
    (l : List Tlp) (y : Bench) (hy : y = (Bench.deliverCmd { b with haul := { b.haul with turn := c.slot } } c).pump.afterEvents l) :
    y.haul.turn = c.slot ∧ y.haul.cmds = rest.filter (fun k => k.id ≠ c.id) ∧ y.reg R.haul_HAUL_COUNT = BitVec.ofNat 32 c.wr ∧ y.mem = b.mem := by
  have hdeliver : ∃ tal seqs w, Bench.deliverCmd { b with haul := { b.haul with turn := c.slot } } c =
      ({ b with haul := { b.haul with turn := c.slot, cmds := rest.filter (fun k => k.id ≠ c.id) }, tal := tal, seqs := seqs }.setReg
        R.haul_HAUL_COUNT (BitVec.ofNat 32 c.wr)).setReg R.haul_HAUL_STATUS w := by
    have hrest : b.haul.cmds.filter (fun k => k.id ≠ c.id) = rest.filter (fun k => k.id ≠ c.id) := by rw [hcmds]; simp
    unfold Bench.deliverCmd
    rw [if_pos hchan]
    dsimp only
    rw [hrest]
    obtain ⟨tal, seqs, k, h⟩ := Bench.postStatus_cases (({ b with haul := { b.haul with turn := c.slot, cmds := rest.filter (fun k => k.id ≠ c.id) } }
      : Bench).setReg R.haul_HAUL_COUNT (BitVec.ofNat 32 c.wr)) R.haul_HAUL_STATUS (2 * c.status.getD 0) 16 16
    exact ⟨tal, seqs, _, h⟩
  obtain ⟨tal, seqs, w, hdeliver⟩ := hdeliver
  subst hy
  rw [hdeliver]
  generalize hx : Bench.setReg { b with haul := _, tal := tal, seqs := seqs } _ _ = x
  have hcount : (x.setReg R.haul_HAUL_STATUS w).reg R.haul_HAUL_COUNT = BitVec.ofNat 32 c.wr := by
    rw [Bench.reg_setReg_ne _ _ (by decide), ← hx]
    exact Bench.reg_setReg_self _ _ _
  have hquiet : (x.setReg R.haul_HAUL_STATUS w).quiet := by rw [← hx]; exact hq
  obtain h | h := Bench.pump_cases hquiet <;> rw [h, Bench.afterEvents_reg]
  · exact ⟨by rw [← hx]; rfl, by rw [← hx]; rfl, hcount, by rw [← hx]; rfl⟩
  · refine ⟨by rw [← hx]; rfl, by rw [← hx]; rfl, ?_, by rw [← hx]; rfl⟩
    exact (Bench.reg_setFld_ne _ _ _ _ (by decide)).trans ((Bench.reg_setFld_ne _ _ _ _ (by decide)).trans hcount)

/-! ## The statement -/

/-- Settles O46, clause by clause. -/
theorem haulCommands : Obligations.HaulCommands := by
  refine ⟨fun n s hl hroom => ?submit, fun n s hl hfull => ?submitFull, fun n c ecc k s hl hk => ?start, fun n c ecc s hl hk => ?startNone,
    fun n c ecc k s hl hk htabs hop hroom hturn => ?readZero, fun n c ecc s hl hturn => ?readNot, fun n c ecc k s hl hk hturn => ?read,
    fun n c k x l s hl hk hbad hdata hchan hdst hcrc hcsum hturn => ?write, fun n c ecc s hl hk => ?writeNone,
    fun n c st k s hl hk hst => ?done, fun n c s hl hk => ?doneNone, fun n c rest s hl hcpls hout honly hslot hq => ?exitCpl,
    fun n c rest s hl hcpls hcmds hended hchan honly hq => ?exitCmd⟩
  case submit => exact leaves_of_eq rfl hl (if_neg (not_le.2 hroom))
  case submitFull => exact leaves_of_eq rfl hl (if_pos hfull)
  case start => exact leaves_of_leavesBoth (leavesBoth_onLive rfl hl (by simp only [hk]))
  case startNone => exact leaves_of_leavesBoth (leavesBoth_onLive rfl hl (by simp only [hk]))
  case readZero =>
    refine leaves_of_leavesBoth (leavesBoth_onLive rfl hl ?_)
    simp only [hk]
    rw [if_pos hturn]
    exact congrArg (fun x : Bench => (s.dev.hub, x.countHaul c)) (Bench.readRequest_of_zero htabs hop hroom)
  case readNot =>
    refine leaves_of_leavesBoth (leavesBoth_onLive rfl hl ?_)
    dsimp only
    split
    · rw [if_neg hturn]
    · rfl
  case read => exact leaves_of_leavesBoth (leavesBoth_onLive rfl hl (by simp only [hk, if_pos hturn]))
  case write =>
    refine leaves_of_leavesBoth (leavesBoth_onLive rfl hl ?_)
    simp only [hk]
    rw [if_pos hturn, Bench.writeChunk_of_device hbad hdata hchan hdst hcrc hcsum]
  case writeNone => exact leaves_of_leavesBoth (leavesBoth_onLive rfl hl (by simp only [hk]))
  case done => exact leaves_of_eq rfl hl (congrArg Bench.pump (Bench.finishCmd_of_done hk hst))
  case doneNone => exact leaves_of_eq rfl hl (congrArg Bench.pump (Bench.finishCmd_of_none hk))
  case exitCpl =>
    refine runs_onBench rfl hl fun l => ?_
    rw [Bench.collect_of_cpl hcpls hout honly hslot]
    obtain h | h := Bench.pump_cases (b := { s.dev.bench n with
      haul := { (s.dev.bench n).haul with turn := c.slot }, rings := { (s.dev.bench n).rings with cpls := { c with out := true } :: rest } }) hq <;>
      rw [h] <;> exact ⟨rfl, rfl, rfl⟩
  case exitCmd =>
    have hslot : c.slot = 13 := by simp [HaulCmd.slot, hchan]
    rw [← hslot]
    refine runs_onBench rfl hl fun l => ?_
    rw [Bench.collect_of_cmd hcpls hcmds hended honly (by omega)]
    exact Bench.deliverCmd_spec hcmds hchan hq l _ rfl

end Sys2Proof.Machine
end

section
/-! O45: claims that drain and are reset (R363 to R365). -/
namespace Sys2Proof.Machine

/-! ## The claim of an index -/

/-- Changing the claim of an index changes the claim of that index alone. -/
theorem Bench.claim?_updClaim (b : Bench) (i j : Nat) (f : Claim → Claim) :
    (b.updClaim i f).claim? j = if j = i then (b.claim? i).map f else b.claim? j := by
  unfold Bench.claim? Bench.updClaim
  dsimp only
  induction b.rings.claims with
  | nil => simp
  | cons x t ih =>
    by_cases hx : x.1 = i
    · by_cases hj : j = i
      · simp [hx, hj]
      · have hne : ¬ i = j := fun h => hj h.symm
        simpa [hx, hj, hne] using ih
    · by_cases hj : x.1 = j
      · have hne : ¬ j = i := fun h => hx (hj.trans h)
        simp [hj, hne]
      · simpa [hx, hj] using ih

theorem Bench.claim?_of_claims {b b' : Bench} (h : b'.rings.claims = b.rings.claims) (i : Nat) : b'.claim? i = b.claim? i := by
  unfold Bench.claim?
  rw [h]

/-- Stopping rings changes memory alone, each ring's context after the other's. -/
theorem Bench.foldl_setRingState (l : List Nat) (b b' : Bench) (st : Nat) :
    l.foldl (fun b r => b.setRingState r st) { b with mem := b'.mem } =
      { b with mem := l.foldl (fun m r => (({ b with mem := m } : Bench).setRingState r st).mem) b'.mem } := by
  induction l generalizing b' with
  | nil => rfl
  | cons r t ih => exact ih (({ b with mem := b'.mem } : Bench).setRingState r st)

/-! ## Work that ends keeps the claims -/

namespace Bench.Handles

theorem cmdFail (b : Bench) (id status a : Nat) : b.Handles (b.cmdFail id status a) := of_eq rfl rfl rfl rfl rfl rfl rfl

theorem countCache (b : Bench) : b.Handles b.countCache := by
  unfold Bench.countCache
  exact (setFld b _ _).trans (ite _ (setFld _ _ _) (refl _))

theorem judgeHeld (b : Bench) : b.Handles b.judgeHeld := by
  unfold Bench.judgeHeld
  extract_lets now fresh src b1
  have held : b.Handles b1 := of_eq rfl rfl rfl rfl rfl rfl rfl
  exact held.trans (foldl (fun x _ => (setFld x _ _).trans (raise _ _)) fresh b1)

theorem returnRecv (b : Bench) (d : RecvDesc) (code : Nat) : b.Handles (b.returnRecv d code) := (spoilTick b code 0).trans (postCpl ..)

theorem returnRecvs (b : Bench) (c : Claim) : b.Handles (b.returnRecvs c) := by
  unfold Bench.returnRecvs
  extract_lets l src g
  have cached : b.Handles { b with rings := g } := withRings b g rfl
  have returned := foldl (f := fun (b : Bench) d => (b.setMbits (ringAddr d.ring) 192 16 (b.ringHeld d.ring - 1)).returnRecv d 0x9C)
    (fun x _ => (setMbits x _ _ _ _).trans (returnRecv ..)) l { b with rings := g }
  exact ite _ (refl b) (cached.trans (returned.trans (countCache _)))

theorem dropCpls (b : Bench) (owns : Nat → Bool) (rings : List Nat) : b.Handles (b.dropCpls owns rings) := by
  unfold Bench.dropCpls
  extract_lets k src b1
  have dropped : b.Handles b1 := of_eq rfl rfl rfl rfl rfl rfl rfl
  refine dropped.trans (foldl (fun x r => ?_) rings b1)
  exact ite _ (of_eq rfl rfl rfl rfl rfl rfl rfl) (refl x)

theorem dropBound (b : Bench) (owns : Nat → Bool) : b.Handles (b.dropBound owns) :=
  foldl (fun x _ => ite _ (discard x _ _ _) (refl x)) _ b

theorem endClaims (b : Bench) (cs : List Nat) (code : Nat) (freeTags : Bool) : b.Handles (b.endClaims cs code freeTags) := by
  unfold Bench.endClaims
  extract_lets l owns rings b1 mine b2 b3 b4 b5 src g b6
  have reads : b.Handles b2 := of_eq rfl rfl rfl rfl rfl rfl rfl
  have cmds : b2.Handles b3 := foldl (fun x _ => ite _ (cmdFail x _ _ _) (refl x)) _ _
  have sends : b3.Handles b4 := foldl (fun x _ => ite _ (spoilTick x _ _) (refl x)) _ _
  have bound : b4.Handles b5 := ite _ (dropBound b4 _) (refl b4)
  have cpls : b5.Handles b6 := ((withRings b5 g rfl).trans (dropCpls ..)).trans (countCache _)
  have stopped := foldl (f := fun b r => if (b.setRingState r 1).ringCpl r then b.setRingState r 1 else (b.setRingState r 1).setMbits (ringAddr r) 192 16 0)
    (fun x r => ite _ (setMbits x _ _ _ _) ((setMbits x _ _ _ _).trans (setMbits ..))) rings b6
  exact ((((reads.trans cmds).trans sends).trans bound).trans cpls).trans (stopped.trans (judgeHeld _))

end Bench.Handles

/-! ## Quiesce and reset -/

/-- A claim that is QUIESCED: its rings are STOPPED, and every other claim is as it was. -/
theorem claimQuiesced_spec {n : BenchId} {i : Nat} {h : Hub} {b : Bench} {c : Claim} (hc : b.claim? i = some c) :
    (claimQuiesced n i h b).2.claim? i = some { c with st := 3, resetting := false } ∧
      (claimQuiesced n i h b).2.mem = (c.rings.filter (fun r => b.ringKind r ≠ 0)).foldl
        (fun m r => (({ b with mem := m } : Bench).setRingState r 1).mem) b.mem ∧
      ∀ j, j ≠ i → (claimQuiesced n i h b).2.claim? j = b.claim? j := by
  have hstop := Bench.foldl_setRingState (c.rings.filter (fun r => b.ringKind r ≠ 0)) b b 1
  have heq : (claimQuiesced n i h b).2 =
      ((c.rings.filter (fun r => b.ringKind r ≠ 0)).foldl (fun b r => b.setRingState r 1) b).updClaim i
        (fun c => { c with st := 3, resetting := false }) := by
    unfold claimQuiesced
    rw [hc]
  rw [heq, hstop]
  refine ⟨?_, rfl, fun j hj => ?_⟩
  · rw [Bench.claim?_updClaim, if_pos rfl]
    exact congrArg (Option.map _) hc
  · rw [Bench.claim?_updClaim, if_neg hj]
    rfl

theorem resetClaim_spec {i : Nat} {h : Hub} {b : Bench} {c : Claim} (hc : b.claim? i = some c) (hst : c.st = 2) :
    (resetClaim i h b).2.claim? i = some { c with resetting := true, mustReset := c.rings.filter (fun r => b.ringKind r ≠ 0) } ∧
      ∀ j, j ≠ i → (resetClaim i h b).2.claim? j = b.claim? j := by
  have hclaims := Bench.claim?_of_claims (Bench.Handles.endClaims b [i] 0x9E false).claims
  unfold resetClaim
  rw [hc]
  dsimp only
  refine ⟨?_, fun j hj => ?_⟩
  · rw [Bench.claim?_updClaim, if_pos rfl, hclaims, hc]
    simp only [Option.map_some, hst]
    rfl
  · rw [Bench.claim?_updClaim, if_neg hj, hclaims]

/-! ## The statement -/

/-- Settles O45, clause by clause. -/
theorem claimsDrainAndReset : Obligations.ClaimsDrainAndReset := by
  refine ⟨fun n i c s hl hc hst hreset hdrained => ?drained, fun n i c s hl hc hst => ?drainedNot, fun n i c s hl hc hst hreset => ?limit,
    fun n i c s hl hc hst => ?limitNot, fun n i c s hl hc hreset => ?done⟩
  case drained =>
    refine runsBoth_onLive rfl hl fun l => ?_
    simp only [hc, hst, hreset, decide_true, Bool.not_false, Bool.and_self, if_true, hdrained]
    have hclaims := Bench.claim?_of_claims (Bench.Handles.returnRecvs (s.dev.bench n) c).claims
    obtain ⟨hself, -, hothers⟩ := claimQuiesced_spec (n := n) (h := s.dev.hub) ((hclaims i).trans hc)
    exact ⟨hself, fun j hj => (hothers j hj).trans (hclaims j)⟩
  case drainedNot => exact leavesBoth_onLive rfl hl (by simp only [hc, hst, decide_false, Bool.false_and, Bool.false_eq_true, if_false])
  case limit =>
    refine runsBoth_onLive rfl hl fun l => ?_
    simp only [hc]
    rw [if_pos (by simp [hst, hreset])]
    exact resetClaim_spec (h := s.dev.hub) hc hst
  case limitNot => exact leavesBoth_onLive rfl hl (by simp only [hc, hst, decide_false, Bool.false_and, Bool.false_eq_true, if_false])
  case done =>
    refine runsBoth_onLive rfl hl fun l => ?_
    simp only [hc, hreset, if_true]
    exact claimQuiesced_spec (n := n) (h := s.dev.hub) hc

end Sys2Proof.Machine
end

section
/-! O50: a command that lets no DRAM request issue still lets the engine cluster go on, which judges the stall watch. -/
namespace Sys2Proof.Machine

/-- STALL_STATUS of bench 0 after a command. -/
def stallAfter : Host.Outcome State Fault Refusal → Option Word
  | .next t => some ((t.dev.bench 0).reg R.engine_STALL_STATUS)
  | _ => none

/-- The device with a RUNNING bench 0 that has a thread, nothing waiting in its engine cluster, no DRAM request, and a stall watch that
still reads STALLED. -/
def stalledState : State :=
  { State.reset with dev := { State.reset.dev with
    benches := State.reset.dev.benches.set 0 ((benchAtWord 0 []).setReg R.engine_STALL_STATUS 1#32) } }

/-- The watch falls, for no thread is stalled. -/
theorem stallAfter_dramRequestIssue : stallAfter (exec (.dramRequestIssue 0 []) stalledState) = some 0#32 := by decide

/-- Refutes O50: with no request that may issue the command does not leave the bench as it was, since it judges the stall watch. -/
theorem not_dramStartAndRequests : ¬ Obligations.DramStartAndRequests := by
  unfold Obligations.DramStartAndRequests
  rintro ⟨-, -, -, -, -, hnone, -⟩
  obtain ⟨t, he, -, -, l, hb⟩ := hnone 0 [] stalledState (by decide) (by decide) ⟨by decide, by decide, by decide, by decide⟩
  have hkept : stallAfter (exec (.dramRequestIssue 0 []) stalledState) = some 1#32 := by
    simp only [he, stallAfter, hb, Bench.afterEvents_reg]
    decide
  rw [stallAfter_dramRequestIssue] at hkept
  exact absurd hkept (by decide)

end Sys2Proof.Machine
end

section
/-! SUPPORT. Fields of records in memory: a field keeps its value when other bytes of its record are written. -/
namespace Sys2Proof.Machine

theorem leBytes_length (n x : Nat) : (leBytes n x).length = n := by
  induction n generalizing x with
  | zero => rfl
  | succ k ih => simp [leBytes, ih]

theorem memBytes_congr {m m' : List Host.Cell} {a n : Nat} (h : ∀ i, i < n → memByte m' (a + i) = memByte m (a + i)) :
    memBytes m' a n = memBytes m a n := by
  induction n generalizing a with
  | zero => rfl
  | succ k ih =>
    have hrest : memBytes m' (a + 1) k = memBytes m (a + 1) k := ih fun i hi => by
      rw [show a + 1 + i = a + (i + 1) by omega]
      exact h (i + 1) (by omega)
    have hfirst : memByte m' a = memByte m a := h 0 (by omega)
    rw [memBytes, memBytes, hrest, hfirst]

/-- Bytes beside those that were written. -/
theorem memBytes_write_outside (l : List Byte) (m : List Host.Cell) (a x n : Nat) (h : x + n ≤ a ∨ a + l.length ≤ x) :
    memBytes (memWrite m a l) x n = memBytes m x n :=
  memBytes_congr fun i hi => memByte_write_outside l m a (x + i) (by omega)

/-- Bits `lo` to `lo + w - 1` of a record lie in other bytes than bits `lo'` to `lo' + w' - 1`. -/
def BytesApart (lo w lo' w' : Nat) : Prop := lo' / 8 + (lo' % 8 + w' + 7) / 8 ≤ lo / 8 ∨ lo / 8 + (lo % 8 + w + 7) / 8 ≤ lo' / 8

/-- A field keeps its value when a field in other bytes of its record is written. -/
theorem Bench.mbits_setMbits_apart (b : Bench) (base lo w v lo' w' : Nat) (h : BytesApart lo w lo' w') :
    (b.setMbits base lo w v).mbits base lo' w' = b.mbits base lo' w' := by
  unfold Bench.mbits Bench.setMbits Bench.le Bench.setLe Bench.bytes Bench.setBytes
  dsimp only
  rw [memBytes_write_outside]
  rw [leBytes_length]
  unfold BytesApart at h
  omega

theorem Bench.mbits_of_mem {b b' : Bench} (h : b'.mem = b.mem) (base lo w : Nat) : b'.mbits base lo w = b.mbits base lo w := by
  unfold Bench.mbits Bench.le Bench.bytes
  rw [h]

/-- A ring's device position moves on in its own bytes. -/
theorem Bench.mbits_devAdvance (b : Bench) (r k lo w : Nat) (h : BytesApart 160 16 lo w) (h' : BytesApart 176 1 lo w) :
    (b.devAdvance r k).mbits (ringAddr r) lo w = b.mbits (ringAddr r) lo w := by
  unfold Bench.devAdvance
  dsimp only
  split
  · rw [Bench.mbits_setMbits_apart _ _ _ _ _ _ _ h', Bench.mbits_setMbits_apart _ _ _ _ _ _ _ h]
  · rw [Bench.mbits_setMbits_apart _ _ _ _ _ _ _ h]

end Sys2Proof.Machine
end
section
/-! O44: ring fetches and completions (R360, R369 to R380). -/
namespace Sys2Proof.Machine

/-! ## Fetches -/

/-- What the fetcher changes beside its own queue: deficits, reads and TLPs; memory, claims and fetches are as they were. -/
structure Bench.CreditOnly (b b' : Bench) : Prop where
  mem : b'.mem = b.mem
  claims : b'.rings.claims = b.rings.claims
  fetches : b'.rings.fetches = b.rings.fetches

theorem Bench.creditOnly_foldl {α : Type} (l : List α) (i : α → Nat) (v : Bench → α → Int) (b : Bench) :
    b.CreditOnly (l.foldl (fun b x => b.setCredit (i x) (v b x)) b) := by
  induction l generalizing b with
  | nil => exact ⟨rfl, rfl, rfl⟩
  | cons x t ih =>
    obtain ⟨hmem, hclaims, hfetches⟩ := ih (b.setCredit (i x) (v b x))
    exact ⟨hmem, hclaims, hfetches⟩

theorem Bench.creditOnly_issue (h : Hub) (b : Bench) (c a n : Nat) (use : ReadFor) (retry : Bool) :
    b.CreditOnly (Bench.issue h b c a n use retry) := by
  unfold Bench.issue
  split
  · exact ⟨rfl, rfl, rfl⟩
  · exact ⟨rfl, rfl, rfl⟩

theorem Bench.judgeHeld_rings (b : Bench) :
    b.judgeHeld.rings.claims = b.rings.claims ∧ b.judgeHeld.rings.fetches = b.rings.fetches ∧ b.judgeHeld.rings.lastClaim = b.rings.lastClaim := by
  have hfold (l : List Nat) (x : Bench) : (l.foldl (fun b q => (b.setFld R.ring_BACKPRESSURE_CQ q).raise 37) x).rings = x.rings :=
    foldl_keeps (f := fun b q => (b.setFld R.ring_BACKPRESSURE_CQ q).raise 37) (P := fun y : Bench => y.rings = x.rings) (fun _ _ hy => hy) l rfl
  unfold Bench.judgeHeld
  dsimp only
  rw [hfold]
  exact ⟨rfl, rfl, rfl⟩

/-- The fetcher serves the first bid: its claim was the last served, and its fetch stands at the end of the queue. -/
theorem Bench.fetchNext_spec {h : Hub} {nvme : Bool} {b : Bench} {w : Bid} (hw : bestBid (Bench.bids h b nvme) = some w) :
    (Bench.fetchNext h nvme b).rings.lastClaim = w.claim ∧ (Bench.fetchNext h nvme b).rings.claims = b.rings.claims ∧
      (Bench.fetchNext h nvme b).rings.fetches = b.rings.fetches ++
        [{ ring := w.ring, count := w.cost / entrySize (b.ringKind w.ring), size := entrySize (b.ringKind w.ring), got := none, again := false
           waiting := false }] := by
  unfold Bench.fetchNext
  dsimp only
  rw [hw]
  dsimp only
  generalize hx : List.foldl _ b (Bench.bids h b nvme) = x
  have hcredit : b.CreditOnly x := hx ▸ Bench.creditOnly_foldl (Bench.bids h b nvme) Bid.claim _ b
  generalize Bench.ringBase _ w.ring + _ = a
  have hissue := Bench.creditOnly_issue h (x.spendCredit w.claim w.cost) w.claim a w.cost (.desc w.ring) true
  generalize Bench.issue h (x.spendCredit w.claim w.cost) w.claim a w.cost (.desc w.ring) true = y at hissue ⊢
  have hkind : (x.spendCredit w.claim w.cost).ringKind w.ring = b.ringKind w.ring :=
    Bench.mbits_of_mem (b := b) (b' := x.spendCredit w.claim w.cost) hcredit.mem _ _ _
  rw [hkind]
  exact ⟨rfl, hissue.claims.trans hcredit.claims, congrArg (· ++ _) (hissue.fetches.trans hcredit.fetches)⟩

theorem Bench.fetchNext_of_none {h : Hub} {nvme : Bool} {b : Bench} (hw : bestBid (Bench.bids h b nvme) = none) :
    Bench.fetchNext h nvme b = b := by
  unfold Bench.fetchNext
  dsimp only
  rw [hw]

theorem Bench.live_of_running {b : Bench} (h : b.power.st = .running) : b.live = true := by simp [Bench.live, h]

/-- The claim of a read that may be issued. -/
theorem Bench.claim_of_mayIssue {h : Hub} {b : Bench} {c n : Nat} (hi : Bench.mayIssue h b c n = true) : ∃ k, b.claim? c = some k := by
  unfold Bench.mayIssue at hi
  split at hi
  · exact absurd hi Bool.false_ne_true
  · next k hk => exact ⟨k, hk⟩

/-- What a refetch of ring `r` leaves: the read issued, its fetch no longer waiting, its bytes spent (R371). -/
def Bench.refetch (h : Hub) (b : Bench) (r : Nat) (f : Fetch) : Bench :=
  let i := b.ringClaim r
  let b := Bench.issue h b i (b.ringBase r + f.size * b.devIndex r) (f.count * f.size) (.desc r) true
  let fs := b.rings.fetches.map (fun (x : Fetch) => if x = f then { x with waiting := false } else x)
  { b with rings := { b.rings with fetches := fs } }.spendCredit i (f.count * f.size)

theorem Bench.creditOf_spendCredit (b : Bench) (i n : Nat) : (b.spendCredit i n).creditOf i = b.creditOf i - n :=
  sparseGet_set_self _ _ _ _

theorem Bench.refetch_spec {h : Hub} {b : Bench} {r : Nat} {f : Fetch} (hmay : Bench.mayIssue h b (b.ringClaim r) (f.count * f.size) = true) :
    (Bench.refetch h b r f).mem = b.mem ∧ (Bench.refetch h b r f).reads.length = b.reads.length + 1 ∧
      (Bench.refetch h b r f).rings.fetches = b.rings.fetches.map (fun x => if x = f then { x with waiting := false } else x) ∧
      (Bench.refetch h b r f).creditOf (b.ringClaim r) = b.creditOf (b.ringClaim r) - f.count * f.size := by
  obtain ⟨k, hk⟩ := Bench.claim_of_mayIssue hmay
  unfold Bench.refetch
  dsimp only
  rw [Bench.creditOf_spendCredit]
  unfold Bench.issue
  rw [hk]
  refine ⟨rfl, ?_, rfl, ?_⟩
  · exact List.length_append
  · push_cast
    rfl

/-! ## Completions -/

/-- The bytes of a ring's context that OWED and the device's position do not touch. -/
theorem Bench.mbits_cplTaken (b : Bench) (q lo w : Nat) (d : Int) (hown : BytesApart 224 16 lo w) :
    (b.addOwed q d).mbits (ringAddr q) lo w = b.mbits (ringAddr q) lo w := Bench.mbits_setMbits_apart _ _ _ _ _ _ _ hown

theorem Bench.hostWrite_mem (h : Hub) (b : Bench) (c : Claim) (a : Nat) (l : List Byte) (ep : Bool) (cmd : Option Nat) :
    (Bench.hostWrite h b c a l ep cmd).mem = b.mem ∧ (Bench.hostWrite h b c a l ep cmd).rings = b.rings := by
  unfold Bench.hostWrite
  split <;> exact ⟨rfl, rfl⟩

theorem Bench.devAdvance_rings (b : Bench) (r k : Nat) : (b.devAdvance r k).rings = b.rings := by
  unfold Bench.devAdvance
  dsimp only
  split <;> rfl

/-- A completion is written to a ring that is not armed. -/
theorem cqWrite_of_not_armed {n : BenchId} {h : Hub} {t : Bench} {q : Nat} {k : Claim} {words : List Nat}
    (hk : t.claim? (t.ringClaim q) = some k) (harmed : t.ringArmed q = false) :
    cqWrite n h t q words = (h, ((Bench.hostWrite h t k (t.ringBase q + entrySize (t.ringKind q) * t.devIndex q)
      (t.cqeBytes q words) false none).devAdvance q 1).setSince q (t.sinceArm q + 1)) := by
  unfold cqWrite
  rw [hk]
  dsimp only
  generalize t.ringBase q + _ = a
  obtain ⟨hmem, hrings⟩ := Bench.hostWrite_mem h t k a (t.cqeBytes q words) false none
  generalize Bench.hostWrite h t k a (t.cqeBytes q words) false none = x at hmem hrings ⊢
  have hsince : (x.devAdvance q 1).sinceArm q = t.sinceArm q := by
    unfold Bench.sinceArm
    rw [Bench.devAdvance_rings, hrings]
  have hkept : ((x.devAdvance q 1).setSince q (t.sinceArm q + 1)).ringArmed q = false := by
    rw [← harmed]
    have hbits : (x.devAdvance q 1).mbits (ringAddr q) 208 1 = t.mbits (ringAddr q) 208 1 :=
      (Bench.mbits_devAdvance x q 1 208 1 (by unfold BytesApart; decide) (by unfold BytesApart; decide)).trans (Bench.mbits_of_mem hmem _ _ _)
    exact congrArg (fun v : Nat => decide (v = 1)) hbits
  unfold cqJudge
  rw [hsince, hkept]
  rfl

/-- The oldest completion goes to its running ring, which has room. -/
theorem cplNext_of_room {n : BenchId} {h : Hub} {b : Bench} {c : Cpl} {rest : List Cpl} (hcpls : b.rings.cpls = c :: rest) (hout : c.out = true)
    (hcpl : b.ringCpl c.cq = true) (hst : b.ringState c.cq = 2) (hfree : 0 < b.ringFree c.cq) (hovf : b.ringOvf c.cq = 0) :
    cplNext n h b = cqWrite n h ((({ b with rings := { b.rings with cpls := rest } } : Bench).addOwed c.cq (-1)).tallyCmd 2 0
      (entrySize (b.ringKind c.cq))) c.cq c.words := by
  unfold cplNext
  simp [hcpls, hout, hcpl, hst, hfree, hovf]


/-! ## The obligation -/

section
variable {n : BenchId} {s : State}

/-- A fetch of a RUNNING bench. -/
theorem runs_fetch {c : Instr} {nvme : Bool} {w : Bid}
    (he : LeavesBoth c n s s.dev.hub (Bench.fetchNext s.dev.hub nvme (s.dev.bench n)).judgeHeld)
    (hw : bestBid (Bench.bids s.dev.hub (s.dev.bench n) nvme) = some w) :
    Runs c n s (fun b => b.rings.lastClaim = w.claim ∧ b.rings.claims = (s.dev.bench n).rings.claims ∧
      b.rings.fetches = (s.dev.bench n).rings.fetches ++
        [{ ring := w.ring, count := w.cost / entrySize ((s.dev.bench n).ringKind w.ring), size := entrySize ((s.dev.bench n).ringKind w.ring)
           got := none, again := false, waiting := false }]) := by
  refine runs_of_leavesBoth he fun l => ?_
  obtain ⟨hlast, hclaims, hfetches⟩ := Bench.fetchNext_spec hw
  generalize Bench.fetchNext s.dev.hub nvme (s.dev.bench n) = x at hlast hclaims hfetches ⊢
  obtain ⟨hjclaims, hjfetches, hjlast⟩ := x.judgeHeld_rings
  rw [Bench.afterEvents_rings]
  exact ⟨hjlast.trans hlast, hjclaims.trans hclaims, hjfetches.trans hfetches⟩

theorem leavesBoth_ringFetch (hrun : (s.dev.bench n).power.st = .running) :
    LeavesBoth (.ringFetch n) n s s.dev.hub (Bench.fetchNext s.dev.hub false (s.dev.bench n)).judgeHeld :=
  leavesBoth_onLive rfl (Bench.live_of_running hrun) (congrArg (Prod.mk _) (if_pos hrun))

theorem leavesBoth_nvmeSqFetch {w : Bid} (hrun : (s.dev.bench n).power.st = .running)
    (hw : bestBid (Bench.bids s.dev.hub (s.dev.bench n) true) = some w) :
    LeavesBoth (.nvmeSqFetch n) n s s.dev.hub (Bench.fetchNext s.dev.hub true (s.dev.bench n)).judgeHeld :=
  leavesBoth_onLive rfl (Bench.live_of_running hrun) (congrArg (Prod.mk _) (if_pos (by simp [hrun, hw])))

theorem leaves_descArrive {r : Nat} {f : Fetch} {l : List Byte} (hl : (s.dev.bench n).live = true)
    (hf : (s.dev.bench n).rings.fetches.find? (fun f => f.ring = r) = some f) (hgot : f.got = some l) :
    Leaves (.descArrive n r) n s (((((s.dev.bench n).descArrive f l).feedSends 16).judgeHeld).pump) :=
  leaves_of_eq rfl hl (by rw [hf]; dsimp only; rw [hgot])

/-- The read of a refetch is issued: a read more, one fetch no longer waiting, its bytes spent. -/
theorem runs_descRefetch {r : Nat} {f : Fetch} (hl : (s.dev.bench n).live = true)
    (hf : (s.dev.bench n).rings.fetches.find? (fun f => f.ring = r && f.waiting) = some f) (hfetchable : (s.dev.bench n).fetchable r = true)
    (hmay : Bench.mayIssue s.dev.hub (s.dev.bench n) ((s.dev.bench n).ringClaim r) (f.count * f.size) = true) :
    Runs (.descRefetch n r) n s (fun b => b.mem = (s.dev.bench n).mem ∧ b.reads.length = (s.dev.bench n).reads.length + 1 ∧
      b.rings.fetches = (s.dev.bench n).rings.fetches.map (fun x => if x = f then { x with waiting := false } else x) ∧
      b.creditOf ((s.dev.bench n).ringClaim r) = (s.dev.bench n).creditOf ((s.dev.bench n).ringClaim r) - f.count * f.size) := by
  have hleaves : LeavesBoth (.descRefetch n r) n s s.dev.hub (Bench.refetch s.dev.hub (s.dev.bench n) r f) := by
    refine leavesBoth_onLive rfl hl ?_
    dsimp only
    rw [hf]
    dsimp only
    rw [hfetchable, hmay]
    rfl
  refine runs_of_leavesBoth hleaves fun l => ?_
  obtain ⟨hmem, hreads, hfetches, hcredit⟩ := Bench.refetch_spec (f := f) hmay
  have hcreditOf (y : Bench) (i : Nat) : (y.afterEvents l).creditOf i = y.creditOf i := by unfold Bench.creditOf; rw [Bench.afterEvents_rings]
  exact ⟨(Bench.afterEvents_mem _ l).trans hmem, by rw [Bench.afterEvents_reads]; exact hreads, by rw [Bench.afterEvents_rings]; exact hfetches,
    (hcreditOf _ _).trans hcredit⟩

theorem leavesBoth_descRefetch_dropped {r : Nat} {f : Fetch} (hl : (s.dev.bench n).live = true)
    (hf : (s.dev.bench n).rings.fetches.find? (fun f => f.ring = r && f.waiting) = some f) (hfetchable : (s.dev.bench n).fetchable r = false) :
    LeavesBoth (.descRefetch n r) n s s.dev.hub ((s.dev.bench n).dropFetch f) :=
  leavesBoth_onLive rfl hl (by dsimp only; rw [hf]; dsimp only; rw [hfetchable]; rfl)

theorem leavesBoth_completionWrite {c : Cpl} {k : Claim} {t : Bench} {rest : List Cpl} (hl : (s.dev.bench n).live = true)
    (hcpls : (s.dev.bench n).rings.cpls = c :: rest) (hout : c.out = true) (hcpl : (s.dev.bench n).ringCpl c.cq = true)
    (hst : (s.dev.bench n).ringState c.cq = 2) (hfree : 0 < (s.dev.bench n).ringFree c.cq) (hovf : (s.dev.bench n).ringOvf c.cq = 0)
    (hk : (s.dev.bench n).claim? ((s.dev.bench n).ringClaim c.cq) = some k) (harmed : (s.dev.bench n).ringArmed c.cq = false)
    (ht : t = (({ (s.dev.bench n) with rings := { (s.dev.bench n).rings with cpls := rest } } : Bench).addOwed c.cq (-1)).tallyCmd 2 0
      (entrySize ((s.dev.bench n).ringKind c.cq))) :
    LeavesBoth (.completionWrite n) n s s.dev.hub
      ((((Bench.hostWrite s.dev.hub t k (t.ringBase c.cq + entrySize (t.ringKind c.cq) * t.devIndex c.cq)
        (t.cqeBytes c.cq c.words) false none).devAdvance c.cq 1).setSince c.cq (t.sinceArm c.cq + 1)).judgeHeld) := by
  have hbits (lo w : Nat) (h : BytesApart 224 16 lo w) :
      t.mbits (ringAddr c.cq) lo w = (s.dev.bench n).mbits (ringAddr c.cq) lo w := by
    rw [ht]
    exact Bench.mbits_cplTaken { (s.dev.bench n) with rings := { (s.dev.bench n).rings with cpls := rest } } c.cq lo w (-1) h
  have hclaim : t.ringClaim c.cq = (s.dev.bench n).ringClaim c.cq := hbits 74 8 (by unfold BytesApart; decide)
  have htk : t.claim? (t.ringClaim c.cq) = some k := by
    rw [hclaim, ← hk, ht]
    rfl
  have htarmed : t.ringArmed c.cq = false := by
    rw [← harmed]
    exact congrArg (fun v : Nat => decide (v = 1)) (hbits 208 1 (by unfold BytesApart; decide))
  refine leavesBoth_onLive rfl hl ?_
  dsimp only
  rw [cplNext_of_room hcpls hout hcpl hst hfree hovf, ← ht, cqWrite_of_not_armed htk htarmed]

theorem leavesBoth_cqIntTimer {q : Nat} {k : Claim} {b' : Bench} (hl : (s.dev.bench n).live = true) (hcpl : (s.dev.bench n).ringCpl q = true)
    (harmed : (s.dev.bench n).ringArmed q = true) (hsince : (s.dev.bench n).sinceArm q ≠ 0) (hheld : (s.dev.bench n).ringHeld q ≠ 0)
    (hk : (s.dev.bench n).claim? ((s.dev.bench n).ringClaim q) = some k) (hvec : (s.dev.bench n).ringVector q < s.dev.hub.tableSize k.fn)
    (hb' : b' = ((s.dev.bench n).setMbits (ringAddr q) 208 1 0).setSince q 0) :
    LeavesBoth (.cqIntTimer n q) n s (benchVector n s.dev.hub b' k.fn (b'.ringVector q)).1 (benchVector n s.dev.hub b' k.fn (b'.ringVector q)).2 := by
  have hbits (lo w : Nat) (h : BytesApart 208 1 lo w) :
      b'.mbits (ringAddr q) lo w = (s.dev.bench n).mbits (ringAddr q) lo w := by
    rw [hb']
    exact Bench.mbits_setMbits_apart (s.dev.bench n) _ _ _ _ _ _ h
  have hclaim : b'.ringClaim q = (s.dev.bench n).ringClaim q := hbits 74 8 (by unfold BytesApart; decide)
  have hvector : b'.ringVector q = (s.dev.bench n).ringVector q := hbits 96 11 (by unfold BytesApart; decide)
  have hk' : b'.claim? (b'.ringClaim q) = some k := by
    rw [hclaim, ← hk, hb']
    rfl
  refine leavesBoth_onLive rfl hl ?_
  rw [if_pos (by simp [hcpl, harmed, hsince, hheld])]
  unfold cqRaise
  rw [← hb']
  dsimp only
  rw [hk']
  dsimp only
  rw [hvector, if_neg (by omega)]

end

/-- Settles O44: each command is unfolded once; bytes of a ring's context that a step does not write keep its claim, vector and armed bit. -/
theorem ringFetchesAndCompletions : Obligations.RingFetchesAndCompletions := by
  refine ⟨fun n w s hrun hw => runs_fetch (leavesBoth_ringFetch hrun) hw, ?_,
    fun n w s hrun hw => runs_fetch (leavesBoth_nvmeSqFetch hrun hw) hw, fun n r f l s hl hf hgot => leaves_descArrive hl hf hgot, ?_,
    fun n r f s hl hf hfetchable hmay => runs_descRefetch hl hf hfetchable hmay,
    fun n r f s hl hf hfetchable => leaves_of_leavesBoth (leavesBoth_descRefetch_dropped hl hf hfetchable), ?_,
    fun n c k t rest s hl hcpls hout hcpl hst hfree hovf hk harmed ht =>
      leavesBoth_completionWrite hl hcpls hout hcpl hst hfree hovf hk harmed ht, ?_,
    fun n q k b' s hl hcpl harmed hsince hheld hk hvec hb' => leavesBoth_cqIntTimer hl hcpl harmed hsince hheld hk hvec hb'⟩
  · intro n s hrun hw
    have h := leavesBoth_ringFetch hrun
    rw [Bench.fetchNext_of_none hw] at h
    exact leaves_of_leavesBoth h
  · intro n r s hl hf
    exact leaves_of_eq rfl hl (by rw [hf])
  · intro n r s hl hf
    exact leaves_of_leavesBoth (leavesBoth_onLive rfl hl (by dsimp only; rw [hf]))
  · intro n s hl hcpls
    exact leavesBoth_onLive rfl hl (by simp [cplNext, hcpls])

end Sys2Proof.Machine
end

section
/-! O48: flash operations (R411 to R416). -/
namespace Sys2Proof.Machine

theorem leNat_leBytes (n v : Nat) : leNat (leBytes n v) = v % 256 ^ n := by
  induction n generalizing v with
  | zero => simp [leBytes, leNat, Nat.mod_one]
  | succ n ih =>
    rw [leBytes, leNat, ih, Nat.pow_succ', Nat.mod_mul]
    simp

theorem Bench.le_setLe_self (b : Bench) (a n v : Nat) : (b.setLe a n v).le a n = v % 256 ^ n := by
  unfold Bench.le Bench.setLe Bench.bytes Bench.setBytes
  dsimp only
  rw [← leNat_leBytes]
  have h := memBytes_write (leBytes n v) b.mem a
  rw [leBytes_length] at h
  rw [h]

/-- A bit that was put into a byte reads back. -/
theorem bit_putBits_byte {x k : Nat} (h : k < 8) : bit (putBits x k 1 1 % 256 ^ 1) k = true := by
  have hput := getBits_putBits_self x k 1 1
  generalize putBits x k 1 1 = y at hput ⊢
  unfold getBits at hput
  unfold bit
  interval_cases k <;> simp only [decide_eq_true_eq] <;> omega

/-- A retired block is marked, in its own byte. -/
theorem Bench.retired_retire (b : Bench) (c d k : Nat) : (b.retire c d k).retired c d k = true := by
  unfold Bench.retired Bench.retire
  rw [Bench.le_setLe_self]
  exact bit_putBits_byte (Nat.mod_lt _ (by decide))

theorem Bench.memKept_retire (b : Bench) (c d k : Nat) : MemKept (fun a => a = retiredAt c d k) b (b.retire c d k) :=
  fun a ha => memByte_write_outside _ _ _ a (by
    have hne : a ≠ retiredAt c d k := ha
    rw [leBytes_length]
    omega)

theorem Bench.spoilTick_kept (b : Bench) (code inst : Nat) : (b.spoilTick code inst).mem = b.mem ∧ (b.spoilTick code inst).sto = b.sto := by
  unfold Bench.spoilTick
  split <;> exact ⟨rfl, rfl⟩

/-- An operation that is over leaves memory and bus as they were. -/
theorem Bench.opOver_kept (b : Bench) (o o' : FlashOp) (st : Nat) : (b.opOver o o' st).mem = b.mem ∧ (b.opOver o o' st).sto.bus = b.sto.bus := by
  unfold Bench.opOver
  dsimp only
  generalize hx : (if st = 0 && o'.timeouts ≠ 0 then Bench.tick _ T.FLASH_DIE_RETRY_OK else _) = x
  have hkept : x.mem = b.mem ∧ x.sto.bus = b.sto.bus := by
    rw [← hx]
    split <;> exact ⟨rfl, rfl⟩
  obtain ⟨hmem, hsto⟩ := ((x.tick (T.FLASH_OPS o.chan)).count (T.FLASH_BYTES o.chan) o'.count).spoilTick_kept st 0
  exact ⟨hmem.trans hkept.1, (congrArg StorageSt.bus hsto).trans hkept.2⟩

/-! ## Starts -/

/-- What a die's next operation starts, when it passes the checks. -/
theorem Bench.startOp_of_pass {n : BenchId} {b : Bench} {c d op : Nat} {o : FlashOp} {ecc : Ecc} (ho : b.dieOp? c d = some o)
    (hs : o.started = false) (hc : b.opCheck c o.entry = 0) (hop : feOp o.entry = op) (h0 : op ≠ 0) (h10 : op ≤ 10) :
    b.startOp n c d op ecc =
      (if op = 9 then (b.retire c d (b.rowBlock c (feRow o.entry))).opOver o { o with started := true } 0
      else if op = 2 then b.startProgram n o ecc
      else (b.onBus c d op (if op = 5 || op = 6 || op = 7 then feFeature o.entry else feRow o.entry) (if op = 6 then feParams o.entry else [])
        (fePlanes o.entry)).putOp o { o with started := true, busy := true }) := by
  unfold Bench.startOp
  rw [ho]
  dsimp only
  rw [hop, if_neg (show ¬((decide (op = 0) || decide (10 < op)) = true) by simp; omega), if_neg (by simp [hs]), hc, if_neg (by simp)]

/-- A die's next operation that fails the checks is over. -/
theorem Bench.startOp_of_fail {n : BenchId} {b : Bench} {c d op : Nat} {o : FlashOp} {ecc : Ecc} (ho : b.dieOp? c d = some o)
    (hs : o.started = false) (hc : b.opCheck c o.entry ≠ 0) (hop : (if feOp o.entry = 0 || 10 < feOp o.entry then 1 else feOp o.entry) = op) :
    b.startOp n c d op ecc = b.opOver o o (b.opCheck c o.entry) := by
  unfold Bench.startOp
  rw [ho]
  dsimp only
  rw [hop, if_neg (by simp [hs]), if_pos hc]

/-- An operation of another kind is left alone. -/
theorem Bench.startOp_of_other {n : BenchId} {b : Bench} {c d op : Nat} {o : FlashOp} {ecc : Ecc} (ho : b.dieOp? c d = some o)
    (hop : (if feOp o.entry = 0 || 10 < feOp o.entry then 1 else feOp o.entry) ≠ op) : b.startOp n c d op ecc = b := by
  unfold Bench.startOp
  rw [ho]
  dsimp only
  rw [if_pos (Bool.or_eq_true_iff.2 (.inr (decide_eq_true hop)))]

/-! ## Codewords -/

/-- A codeword that a READ under way waits for. -/
structure FlashOp.Awaits (o : FlashOp) (cw : Nat) : Prop where
  read : feOp o.entry = 1
  idle : o.busy = false
  started : o.started = true
  named : cw ∈ cwNamed (feMask o.entry)
  fresh : cw ∉ o.good ∧ cw ∉ o.bad

/-- What the decode of an awaited codeword leads to. -/
theorem Bench.decoded_of_awaits {n : BenchId} {b : Bench} {o : FlashOp} {cw bits : Nat} {ok : Bool} {l : List Byte} {ecc : Ecc} (h : o.Awaits cw)
    {r : FlashOp × Option Nat × Bench} (hr : (if ok then b.cwGood n o cw bits l ecc else ({ o with bad := o.bad ++ [cw] }, none, b)) = r)
    (hnone : r.2.1 = none) :
    b.decoded n o cw ok bits l ecc =
      if r.1.good.length + r.1.bad.length = (cwNamed (feMask o.entry)).length then r.2.2.stepDone o r.1 else r.2.2.putOp o r.1 := by
  obtain ⟨hread, hidle, hstarted, hnamed, hgood, hbad⟩ := h
  unfold Bench.decoded
  dsimp only
  rw [if_neg (by simp [hread, hidle, hstarted, hnamed, hgood, hbad]), hr, hnone]

/-- A corrected codeword is one more that is good. -/
theorem Bench.cwGood_counts (b : Bench) (n : BenchId) (o : FlashOp) (cw bits : Nat) (l : List Byte) (ecc : Ecc) :
    (b.cwGood n o cw bits l ecc).1.good = o.good ++ [cw] ∧ (b.cwGood n o cw bits l ecc).1.bad = o.bad := by
  unfold Bench.cwGood
  dsimp only
  split
  · exact ⟨rfl, rfl⟩
  · generalize Bench.flashWrite b n o.chan _ _ ecc = r
    generalize Bench.flashWrite r.2 n o.chan _ _ ecc = q
    split
    · exact ⟨rfl, rfl⟩
    · split <;> exact ⟨rfl, rfl⟩

/-- A READ whose step has a codeword that could not be corrected climbs the ladder. -/
theorem Bench.stepDone_of_climb {b : Bench} {o o' : FlashOp} (hbad : o'.bad.isEmpty = false)
    (hstep : o'.step < b.fld (R.storage_FLASH_CTL_LADDER_LEN o.chan)) :
    b.stepDone o o' = ((b.setLevels o (o'.step + 1)).onBus o.chan (feDie o.entry) 1 (feRow o.entry) []).putOp o
      { o' with step := o'.step + 1, busy := true, bad := [] } := by
  unfold Bench.stepDone
  dsimp only
  rw [hbad, if_neg Bool.false_ne_true, if_pos hstep]

/-! ## Messages -/

/-- With the engine cluster quiet, a mark of a channel and what goes on change registers only. -/
theorem Bench.pump_chHwm_regsOnly {b : Bench} (hq : b.quiet) (k : Nat) : b.RegsOnly (b.chHwm k).pump := by
  have hmark := b.chHwm_regsOnly k
  have hquiet : (b.chHwm k).quiet := by
    unfold Bench.quiet
    rw [hmark.eng]
    exact hq
  rw [Bench.pump_of_quiet _ hquiet]
  exact hmark.trans (Bench.judgeStall_regsOnly _)

/-- A finished operation leaves its message. -/
theorem Bench.flashDone_spec {b : Bench} (hq : b.quiet) (ops : List FlashOp) (msg : List (List DWord)) (l : List Tlp) (y : Bench)
    (hy : y = (((({ b with sto := { b.sto with ops := ops } } : Bench).setChMsgs 5 msg).chHwm 5).pump).afterEvents l) :
    y.sto.ops = ops ∧ y.mem = b.mem ∧ y.chMsgs 5 = msg := by
  have hregs := Bench.pump_chHwm_regsOnly (b := ({ b with sto := { b.sto with ops := ops } } : Bench).setChMsgs 5 msg) hq 5
  obtain ⟨regs, h⟩ := hregs
  subst hy
  rw [h]
  exact ⟨rfl, rfl, sparseGet_set_self _ _ _ _⟩

/-! ## The statement -/

section
variable {n : BenchId} {c d : Nat} {o : FlashOp} {s : State} (hl : (s.dev.bench n).live = true)
include hl

theorem runs_flashRetire (ho : (s.dev.bench n).dieOp? c d = some o) (hs : o.started = false) (hc : (s.dev.bench n).opCheck c o.entry = 0)
    (hop : feOp o.entry = 9) :
    Runs (.flashRetire n c d) n s (fun b => b.retired c d ((s.dev.bench n).rowBlock c (feRow o.entry)) = true ∧
      b.sto.bus = (s.dev.bench n).sto.bus ∧ MemKept (fun a => a = retiredAt c d ((s.dev.bench n).rowBlock c (feRow o.entry))) (s.dev.bench n) b) := by
  refine runs_onBench rfl hl fun l => ?_
  rw [Bench.startOp_of_pass ho hs hc hop (by decide) (by decide), if_pos rfl]
  generalize (s.dev.bench n).rowBlock c (feRow o.entry) = k
  have hretired := (s.dev.bench n).retired_retire c d k
  have hkept := (s.dev.bench n).memKept_retire c d k
  have hbus : ((s.dev.bench n).retire c d k).sto.bus = (s.dev.bench n).sto.bus := rfl
  generalize (s.dev.bench n).retire c d k = x at hretired hkept hbus ⊢
  obtain ⟨hmem, hsto⟩ := x.opOver_kept o { o with started := true } 0
  generalize x.opOver o { o with started := true } 0 = y at hmem hsto ⊢
  have hmem' : (y.afterEvents l).mem = x.mem := (Bench.afterEvents_mem y l).trans hmem
  refine ⟨?_, (congrArg StorageSt.bus (Bench.afterEvents_sto y l)).trans (hsto.trans hbus), fun a ha => ?_⟩
  · rw [← hretired]
    unfold Bench.retired Bench.le Bench.bytes
    rw [hmem']
  · rw [hmem']
    exact hkept a ha

theorem leaves_dieReady {pass : Bool} {data : List Byte} {ecc : Ecc} {b : Bench} (ho : (s.dev.bench n).dieOp? c d = some o) (hbusy : o.busy = true)
    (h : (s.dev.bench n).dieReady n o pass data ecc = b) : Leaves (.dieReady n c d pass data ecc) n s b :=
  leaves_of_eq rfl hl (by rw [ho]; exact (if_pos hbusy).trans h)

theorem leaves_codewordDecoded {cw bits : Nat} {ok : Bool} {l : List Byte} {ecc : Ecc} {b : Bench} (ho : (s.dev.bench n).dieOp? c d = some o)
    (h : (s.dev.bench n).decoded n o cw ok bits l ecc = b) : Leaves (.codewordDecoded n c d cw ok bits l ecc) n s b :=
  leaves_of_eq rfl hl (by rw [ho]; exact h)

theorem leaves_dieOpTimeout {b : Bench} (ho : (s.dev.bench n).dieOp? c d = some o) (hbusy : o.busy = true)
    (h : (s.dev.bench n).dieTimeout o = b) : Leaves (.dieOpTimeout n c d) n s b :=
  leaves_of_eq rfl hl (by rw [ho]; exact (if_pos hbusy).trans h)

end

theorem Bench.dieTimeout_first {b : Bench} {o : FlashOp} (hop : feOp o.entry = 1) (ht : o.timeouts = 0)
    (hlate : (b.fchan o.chan).late.contains (feDie o.entry) = false) :
    b.dieTimeout o = ((b.onBus o.chan (feDie o.entry) 10 0 []).onBus o.chan (feDie o.entry) 1 (feRow o.entry) []).putOp o { o with timeouts := 1 } := by
  unfold Bench.dieTimeout
  dsimp only
  rw [if_neg (by simp [ht]; simpa using hlate), hop, ht]
  rfl

/-- Settles O48, clause by clause. -/
theorem flashOperations : Obligations.FlashOperations := by
  refine ⟨fun n c d o s hl ho hs hc => ?pass, fun n c d k ecc o s hl ho hs hc hk => ?fail, fun n c d o s hl ho h2 h10 => ?other,
    fun n c d o s hl ho _ _ hs hc hop => runs_flashRetire hl ho hs hc hop, fun n c d data ecc o s hl ho hbusy => ?ready,
    fun n c d data ecc p s hl ho => leaves_of_eq rfl hl (by rw [ho]), fun n c d cw bits l ecc o s hl ho hop hb hs hn hg hbad hmore => ?codeword,
    fun n c d cw bits l ecc o s hl ho hop hb hs hn hg hbad hlast hstep => ?last,
    fun n c d o s hl ho hbusy hop ht hlate => leaves_dieOpTimeout hl ho hbusy (Bench.dieTimeout_first hop ht hlate),
    fun n c d o s hl ho hbusy ht => leaves_dieOpTimeout hl ho hbusy (if_pos (by simp [ht])), fun n c d st o s hl ho hst hroom hq => ?done,
    fun n c d o s hl ho hno => ?doneNot⟩
  case pass =>
    refine ⟨fun h => ?_, fun h => ?_, fun h => ?_, fun h => ?_, fun h => ?_, fun h => ?_, fun h => ?_, fun h => ?_, fun h => ?_, fun h => ?_⟩
    all_goals exact leaves_of_eq rfl hl (Bench.startOp_of_pass ho hs hc h (by decide) (by decide))
  case fail =>
    subst hc
    refine ⟨fun h => ?_, fun h => ?_, fun h => ?_, fun h => ?_⟩
    all_goals exact leaves_of_eq rfl hl (Bench.startOp_of_fail ho hs hk (by grind))
  case other => exact leaves_of_eq rfl hl (Bench.startOp_of_other ho (by grind))
  case ready =>
    refine ⟨fun h => ?_, fun h => ?_, fun h hf => ?_, fun h hf => ?_, fun h hf => ?_, fun h => ?_, fun h => ?_⟩
    all_goals refine leaves_dieReady hl ho hbusy ?_
    all_goals simp [Bench.dieReady, *]
  case codeword =>
    have hawaits : o.Awaits cw := ⟨hop, hb, hs, hn, hg, hbad⟩
    refine ⟨leaves_codewordDecoded hl ho ?_, fun hnone => leaves_codewordDecoded hl ho ?_⟩
    · rw [Bench.decoded_of_awaits hawaits rfl rfl]
      exact if_neg (by simp; omega)
    · rw [Bench.decoded_of_awaits (r := (s.dev.bench n).cwGood n o cw bits l ecc) hawaits (if_pos rfl) hnone]
      obtain ⟨hgood, hbads⟩ := (s.dev.bench n).cwGood_counts n o cw bits l ecc
      exact if_neg (by simp [hgood, hbads]; omega)
  case last =>
    refine leaves_codewordDecoded hl ho ?_
    rw [Bench.decoded_of_awaits ⟨hop, hb, hs, hn, hg, hbad⟩ rfl rfl]
    refine (if_pos (by simp; omega)).trans ?_
    exact Bench.stepDone_of_climb (by simp) hstep
  case done =>
    refine runs_onBench rfl hl fun l => ?_
    rw [ho, hroom]
    dsimp only
    rw [if_pos rfl, hst]
    exact Bench.flashDone_spec hq _ _ l _ rfl
  case doneNot =>
    refine leaves_of_eq rfl hl ?_
    rw [ho]
    obtain hst | hroom := hno
    · dsimp only
      rw [hst, ite_self]
    · rw [hroom]
      rfl

end Sys2Proof.Machine
end

section
/-! O49: XTS slots, the NVMe controllers' pages, the flush (R417 to R427). -/
namespace Sys2Proof.Machine

/-! ## XTS slots -/

theorem Bench.xtsZero_keys (b : Bench) (k : Nat) :
    (b.xtsZero k).keys = memWrite b.keys (0x100000 + 64 * k) (List.replicate 64 0#8) := by
  unfold Bench.xtsZero
  generalize memWrite b.keys (0x100000 + 64 * k) (List.replicate 64 0#8) = keys
  rfl

/-- A slot that was zeroised: not loaded, not draining, its key's bytes 0, every other key byte as it was. -/
theorem Bench.xtsZero_spec (b : Bench) (k : Nat) (l : List Tlp) (y : Bench) (hy : y = (b.xtsZero k).afterEvents l) :
    y.fld (R.storage_XTS_NS_LOADED k) = 0 ∧ y.fld (R.storage_XTS_NS_DRAINING k) = 0 ∧
      (∀ i, i < 64 → memByte y.keys (0x100000 + 64 * k + i) = 0#8) ∧
      (∀ a, a < 0x100000 + 64 * k ∨ 0x100000 + 64 * k + 64 ≤ a → memByte y.keys a = memByte b.keys a) ∧ y.mem = b.mem := by
  subst hy
  have hkeys : ((b.xtsZero k).afterEvents l).keys = memWrite b.keys (0x100000 + 64 * k) (List.replicate 64 0#8)  :=
    (Bench.afterEvents_keys _ l).trans (b.xtsZero_keys k)
  have hlen : (List.replicate 64 (0#8 : Byte)).length = 64 := List.length_replicate
  refine ⟨(Bench.afterEvents_fld _ l _).trans ?_, (Bench.afterEvents_fld _ l _).trans ?_, fun i hi => ?_, fun a ha => ?_, Bench.afterEvents_mem _ l⟩
  · unfold Bench.xtsZero
    dsimp only
    rw [Bench.fld_setFld_apart _ _ _ _ (by change 1 + 1 ≤ 32; decide) (.inr (.inr (by change 1 + 1 ≤ 2; decide))),
      Bench.fld_setFld_self _ _ _ (by change 1 + 1 ≤ 32; decide)]
    rfl
  · unfold Bench.xtsZero
    dsimp only
    rw [Bench.fld_setFld_self _ _ _ (by change 2 + 1 ≤ 32; decide)]
    rfl
  · rw [hkeys, memByte_write_inside _ _ _ _ (hlen ▸ hi)]
    exact List.getElem_replicate _
  · rw [hkeys]
    exact memByte_write_outside _ _ _ a (hlen ▸ ha)

/-! ## Channel 4 -/

theorem Bench.feedStorage_of_empty (k : Nat) (b : Bench) (h : b.sto.msgs = []) : Bench.feedStorage k b = b := by
  cases k with
  | zero => rfl
  | succ k => rw [Bench.feedStorage, h]

/-- With no message waiting and room in channel 4, a message enters it at once. -/
theorem Bench.storageMsg_of_room {b : Bench} (m : List DWord) (h : b.sto.msgs = []) (hroom : (b.chMsgs 4).length < 256) :
    b.storageMsg m = (({ b with sto := { b.sto with msgs := [] } } : Bench).setChMsgs 4 (b.chMsgs 4 ++ [m])).chHwm 4 := by
  unfold Bench.storageMsg
  rw [h, List.nil_append, Bench.feedStorage]
  dsimp only
  refine (if_neg (not_le.2 hroom)).trans ?_
  obtain ⟨regs, hregs⟩ := (({ b with sto := { b.sto with msgs := [] } } : Bench).setChMsgs 4 (b.chMsgs 4 ++ [m])).chHwm_regsOnly 4
  refine Bench.feedStorage_of_empty _ _ ?_
  refine (congrArg (fun x : Bench => x.sto.msgs) hregs).trans ?_
  rfl

/-- A write of CC is kept, and its message stands in channel 4. -/
theorem Bench.ccWrite_spec {b : Bench} (k v : Nat) (h : b.sto.msgs = []) (hroom : (b.chMsgs 4).length < 256) (hq : b.quiet) (l : List Tlp)
    (y : Bench) (hy : y = (b.ccWrite k v).afterEvents l) :
    (y.npage k).cc = v ∧ y.mem = b.mem ∧
      y.chMsgs 4 = b.chMsgs 4 ++ [[storageWord 1 (b.fld (R.storage_NVME_CTRL_CLAIM k)) 0 0, BitVec.ofNat 64 v,
        BitVec.ofNat 64 (b.npage k).aqa, BitVec.ofNat 64 (b.npage k).asq, BitVec.ofNat 64 (b.npage k).acq, 0, 0, 0, 0, 0]] := by
  subst hy
  unfold Bench.ccWrite
  dsimp only
  rw [Bench.storageMsg_of_room (b := b.setNpage k { b.npage k with cc := v }) _ h hroom]
  obtain ⟨regs, hregs⟩ := Bench.pump_chHwm_regsOnly (b := ({ b.setNpage k { b.npage k with cc := v } with
    sto := { (b.setNpage k { b.npage k with cc := v }).sto with msgs := [] } } : Bench).setChMsgs 4 ((b.setNpage k { b.npage k with cc := v }).chMsgs 4 ++ [_])) hq 4
  rw [hregs]
  refine ⟨congrArg NvmePage.cc (sparseGet_set_self (fun _ => NvmePage.blank) b.sto.pages k _), rfl, ?_⟩
  exact sparseGet_set_self (fun _ => []) b.eng.chans 4 _

/-! ## Doorbells of a controller's page -/

/-- A doorbell that finds its ring takes the position. -/
theorem nvmeDoorbell_of_owned {bn : BenchId} {k y v : Nat} {cq : Bool} {h : Hub} {b : Bench} {c : Claim} {r : Nat}
    (hc : b.claim? (b.fld (R.storage_NVME_CTRL_CLAIM k)) = some c) (hr : r = c.ringBase + 2 * y + (if cq then 1 else 0)) (howns : c.owns r = true)
    (hkind : b.ringKind r = (if cq then 5 else 4)) (hen : bit (b.npage k).cc 0 = true) (hidx : v % 65536 < b.ringN r)
    (hmoved : cq = true → (v % 65536 + b.ringN r - b.hostIndex r) % b.ringN r ≤ (b.ringCount r).toNat) :
    nvmeDoorbell bn k y cq v h b = ((ringDoorbell bn h b r (v % 65536) (b.hostLap r) cq).1, (ringDoorbell bn h b r (v % 65536) (b.hostLap r) cq).2.judgeHeld) := by
  subst hr
  unfold nvmeDoorbell
  dsimp only
  rw [hc]
  dsimp only
  rw [if_neg (by simp [howns, hkind, hen]), if_neg]
  simp only [Bool.or_eq_true, decide_eq_true_eq, Bool.and_eq_true, not_or, not_and, not_le, not_lt]
  exact ⟨hidx, hmoved⟩

/-- A doorbell of a queue whose ring is of another kind is ignored and counted. -/
theorem nvmeDoorbell_of_kind {bn : BenchId} {k y v : Nat} {cq : Bool} {h : Hub} {b : Bench} {c : Claim} {r : Nat}
    (hc : b.claim? (b.fld (R.storage_NVME_CTRL_CLAIM k)) = some c) (hr : r = c.ringBase + 2 * y + (if cq then 1 else 0))
    (hkind : b.ringKind r ≠ (if cq then 5 else 4)) : nvmeDoorbell bn k y cq v h b = (h, b.tick T.NVME_DB_IGNORED) := by
  subst hr
  unfold nvmeDoorbell
  dsimp only
  rw [hc]
  dsimp only
  rw [if_pos (by simp [hkind])]

/-- The host's position of a submission ring: nothing is drained and nothing armed. -/
theorem ringDoorbell_of_sq {n : BenchId} {h : Hub} {b : Bench} {r idx lap : Nat} (hkind : b.ringKind r = 4) :
    ringDoorbell n h b r idx lap false = (h, (b.setMbits (ringAddr r) 128 16 idx).setMbits (ringAddr r) 144 1 lap) := by
  have hkept : ((b.setMbits (ringAddr r) 128 16 idx).setMbits (ringAddr r) 144 1 lap).ringKind r = 4 := by
    rw [← hkind]
    exact (Bench.mbits_setMbits_apart (b.setMbits (ringAddr r) 128 16 idx) _ _ _ _ _ _ (by unfold BytesApart; decide)).trans
      (Bench.mbits_setMbits_apart b _ _ _ _ _ _ (by unfold BytesApart; decide))
  unfold ringDoorbell
  dsimp only
  rw [if_neg]
  unfold Bench.ringCpl
  rw [hkept]
  decide

/-! ## The flush -/

/-- The end of a flush of an empty table: DONE, not RUNNING, both counts 0. -/
theorem Bench.flushDone_spec (b : Bench) (l : List Tlp) (y : Bench)
    (hy : y = (((((b.setFld R.storage_FLUSH_COUNT_PROGRAMMED 0).setFld R.storage_FLUSH_COUNT_SKIPPED 0).setFld R.storage_FLUSH_STATUS_RUNNING
      0).setFld R.storage_FLUSH_STATUS_DONE 1).mediaLog 8 0 0 0).afterEvents l) :
    y.fld R.storage_FLUSH_STATUS_RUNNING = 0 ∧ y.fld R.storage_FLUSH_STATUS_DONE = 1 ∧ y.fld R.storage_FLUSH_COUNT_PROGRAMMED = 0 ∧
      y.fld R.storage_FLUSH_COUNT_SKIPPED = 0 ∧ y.mem = b.mem := by
  subst hy
  have hrun : ((((b.setFld R.storage_FLUSH_COUNT_PROGRAMMED 0).setFld R.storage_FLUSH_COUNT_SKIPPED 0).setFld R.storage_FLUSH_STATUS_RUNNING
      0).setFld R.storage_FLUSH_STATUS_DONE 1).fld R.storage_FLUSH_STATUS_RUNNING = 0 := by
    rw [Bench.fld_setFld_apart _ _ _ _ (by decide) (.inr (by decide)), Bench.fld_setFld_self _ _ _ (by decide)]
    decide
  have hdone : ((((b.setFld R.storage_FLUSH_COUNT_PROGRAMMED 0).setFld R.storage_FLUSH_COUNT_SKIPPED 0).setFld R.storage_FLUSH_STATUS_RUNNING
      0).setFld R.storage_FLUSH_STATUS_DONE 1).fld R.storage_FLUSH_STATUS_DONE = 1 := by
    rw [Bench.fld_setFld_self _ _ _ (by decide)]
    decide
  have hprog : ((((b.setFld R.storage_FLUSH_COUNT_PROGRAMMED 0).setFld R.storage_FLUSH_COUNT_SKIPPED 0).setFld R.storage_FLUSH_STATUS_RUNNING
      0).setFld R.storage_FLUSH_STATUS_DONE 1).fld R.storage_FLUSH_COUNT_PROGRAMMED = 0 := by
    rw [Bench.fld_setFld_off _ _ _ _ (by decide), Bench.fld_setFld_off _ _ _ _ (by decide),
      Bench.fld_setFld_apart _ _ _ _ (by decide) (.inr (by decide)), Bench.fld_setFld_self _ _ _ (by decide)]
    decide
  have hskip : ((((b.setFld R.storage_FLUSH_COUNT_PROGRAMMED 0).setFld R.storage_FLUSH_COUNT_SKIPPED 0).setFld R.storage_FLUSH_STATUS_RUNNING
      0).setFld R.storage_FLUSH_STATUS_DONE 1).fld R.storage_FLUSH_COUNT_SKIPPED = 0 := by
    rw [Bench.fld_setFld_off _ _ _ _ (by decide), Bench.fld_setFld_off _ _ _ _ (by decide), Bench.fld_setFld_self _ _ _ (by decide)]
    decide
  have hmem : ((((b.setFld R.storage_FLUSH_COUNT_PROGRAMMED 0).setFld R.storage_FLUSH_COUNT_SKIPPED 0).setFld R.storage_FLUSH_STATUS_RUNNING
      0).setFld R.storage_FLUSH_STATUS_DONE 1).mem = b.mem := rfl
  generalize (((b.setFld R.storage_FLUSH_COUNT_PROGRAMMED 0).setFld R.storage_FLUSH_COUNT_SKIPPED 0).setFld R.storage_FLUSH_STATUS_RUNNING
      0).setFld R.storage_FLUSH_STATUS_DONE 1 = x at hrun hdone hprog hskip hmem ⊢
  obtain ⟨tal, log, seq, h, -⟩ := x.mediaLog_cases 8 0 0 0
  rw [h]
  exact ⟨hrun, hdone, hprog, hskip, hmem⟩

/-! ## The statement -/

/-- Settles O49, clause by clause. -/
theorem xtsSlotsAndNvmePages : Obligations.XtsSlotsAndNvmePages := by
  refine ⟨fun n k s hl hk hf => leaves_of_eq rfl hl ?enable, fun n k s hl hk hf => leaves_of_eq rfl hl ?refused,
    fun n k s hl hk => leaves_of_eq rfl hl (if_pos hk), fun n k s hl hk hf hops => runs_onBench rfl hl fun l => ?zeroised,
    fun n k off s hl hv => answers_of_eq rfl hl ?word, fun n k off s hl hv => answers_of_eq rfl hl ?noWord,
    fun n k v s hl hv hcc => leaves_of_leavesBoth (leavesBoth_onLive rfl hl ?aqa),
    fun n k v s hl hv hcc => leaves_of_leavesBoth (leavesBoth_onLive rfl hl ?aqaNot),
    fun n k v s hl hv hq hm hroom => runs_onBench rfl hl fun l => ?cc,
    fun n k y r v c s hl hv hy hc hr howns hkind hen hidx => leavesBoth_onLive rfl hl ?sq,
    fun n k y r v c s hl hv hy hc hr hkind => leaves_of_leavesBoth (leavesBoth_onLive rfl hl ?sqNot),
    fun n k y r v c s hl hv hy hc hr howns hkind hen hidx hmoved => leavesBoth_onLive rfl hl ?cq,
    fun n k y r v c s hl hv hy hc hr hkind => leaves_of_leavesBoth (leavesBoth_onLive rfl hl ?cqNot),
    fun n core t q r sqid v c s hl hcore ht hqr hrr hkq hkr hcl hcq hc hsq => leaves_of_eq rfl hl ?commit,
    fun n core t v s hl hcore ht hk => leaves_of_eq rfl hl ?commitNot, fun n s hl hf hlen => runs_onBench rfl hl fun l => ?flush,
    fun n ecc r s hl hf hr => leaves_of_eq rfl hl ?flushRun⟩
  case enable => exact (if_pos hk).trans ((if_pos rfl).trans (if_pos hf))
  case refused => exact (if_pos hk).trans ((if_pos rfl).trans (if_neg (by simp [hf])))
  case zeroised =>
    rw [if_pos (by simp [hk, hf, hops])]
    exact (s.dev.bench n).xtsZero_spec k l _ rfl
  case word => rw [if_pos hv]
  case noWord => rw [if_neg (by simp [hv])]
  case aqa =>
    refine (if_pos hv).trans ?_
    simp [nvmeWriteWord, hcc]
  case aqaNot =>
    refine (if_pos hv).trans ?_
    simp [nvmeWriteWord, hcc]
  case cc =>
    rw [if_pos hv]
    exact Bench.ccWrite_spec k v.toNat hm hroom hq l _ rfl
  case sq =>
    rw [if_pos (by simp [hv, hy]), nvmeDoorbell_of_owned (cq := false) hc hr howns hkind hen hidx (fun h => absurd h Bool.false_ne_true), ringDoorbell_of_sq hkind]
  case sqNot => rw [if_pos (by simp [hv, hy]), nvmeDoorbell_of_kind (cq := false) hc hr hkind]
  case cq => rw [if_pos (by simp [hv, hy]), nvmeDoorbell_of_owned (cq := true) hc hr howns hkind hen hidx (fun _ => hmoved)]
  case cqNot => rw [if_pos (by simp [hv, hy]), nvmeDoorbell_of_kind (cq := true) hc hr hkind]
  case commit =>
    refine (if_pos (by simp [hcore, ht])).trans ?_
    subst hsq
    unfold Bench.nvmeCommit
    dsimp only
    rw [← hqr, ← hrr, hc, if_neg (by simp [hkq, hkr, hcl, hcq])]
    rfl
  case commitNot =>
    refine (if_pos (by simp [hcore, ht])).trans ?_
    unfold Bench.nvmeCommit
    exact if_pos (by simp [hk])
  case flush =>
    rw [if_pos hf, hlen]
    exact (s.dev.bench n).flushDone_spec l _ rfl
  case flushRun =>
    subst hr
    exact if_pos hf

end Sys2Proof.Machine
end

section
/-! O43: host accesses in the BARs of a function (R334 to R340, R372). -/
namespace Sys2Proof.Machine

/-! ## The request's queue -/

theorem Hub.bufferEcc_zero (h : Hub) (key : Nat) (hdr : List Nat) : h.bufferEcc key 0 hdr = h := rfl

/-- A request that finds room enters its queue. -/
theorem Hub.inqEnter_of_room {h : Hub} {key len : Nat} {q : Option BenchId} {posted : Bool}
    (hroom : inqFull posted len (h.inqOf (h.inqKey key q)) = false) :
    h.inqEnter key q posted false len =
      (false, (h.inqPush (h.inqKey key q) posted len).inqMark key q posted (inqCount posted (h.inqOf (h.inqKey key q)) + 1)) := by
  unfold Hub.inqEnter
  dsimp only
  rw [if_neg Bool.false_ne_true, hroom, if_neg Bool.false_ne_true]

/-- A request that finds the hub's queue full, or is said to. -/
theorem Hub.inqEnter_of_full {h : Hub} {key len : Nat} {posted held : Bool}
    (hfull : held = true ∨ inqFull posted len (h.inqOf (h.inqKey key none)) = true) : h.inqEnter key none posted held len = (true, h) := by
  unfold Hub.inqEnter
  dsimp only
  split
  · rfl
  · next hheld =>
    obtain h' | h' := hfull
    · exact absurd h' hheld
    · rw [if_pos h']

/-! ## Reads and writes of a function, by its gate -/

section
variable {key bar off : Nat} {ecc : Ecc} {s : State}

theorem exec_hostMemRead_silent {size buf : Nat} {full : Bool} (hg : s.dev.hub.gate key = .silent) :
    exec (.hostMemRead key bar off size full buf ecc) s = .next { s with dev := { s.dev with answer := [] } } := by
  change execHostMemRead key bar off size full buf ecc s = _
  unfold execHostMemRead
  dsimp only
  rw [hg]

theorem exec_hostMemRead_unsupported {size : Nat} {full : Bool} (hg : s.dev.hub.gate key = .unsupported) :
    exec (.hostMemRead key bar off size full 0 ecc) s = .next { s with dev := { s.dev with
      hub := (if (s.dev.hub.inReset key || s.dev.hub.inD3 key) = true then s.dev.hub.logAer key aerUnsupported (tlpHeader 0 bar off size)
        else s.dev.hub).queueTlp (cplTlp key 1 [] false), answer := [1] } } := by
  change execHostMemRead key bar off size full 0 ecc s = _
  unfold execHostMemRead
  dsimp only
  rw [hg]
  rfl

/-- A served read that finds room is answered as its BAR gives. -/
theorem exec_hostMemRead_room {size : Nat} (hg : s.dev.hub.gate key = .served) {h' : Hub}
    (hroom : inqFull false 0 (s.dev.hub.inqOf (s.dev.hub.inqKey key (s.dev.hub.queueOf key bar off))) = false)
    (hh : h' = (s.dev.hub.inqPush (s.dev.hub.inqKey key (s.dev.hub.queueOf key bar off)) false 0).inqMark key (s.dev.hub.queueOf key bar off) false
      (inqCount false (s.dev.hub.inqOf (s.dev.hub.inqKey key (s.dev.hub.queueOf key bar off))) + 1)) :
    exec (.hostMemRead key bar off size false 0 ecc) s = .next { s with
      dev := Device.hostAnswer (s.dev.hub.queueOf key bar off) key (tlpHeader 0 bar off size)
        (({ s.dev with hub := h' } : Device).barRead key bar off size ecc) } := by
  have henter := Hub.inqEnter_of_room hroom
  rw [← hh] at henter
  change execHostMemRead key bar off size false 0 ecc s = _
  unfold execHostMemRead
  dsimp only
  rw [hg]
  simp only [Hub.bufferEcc_zero, henter] <;> rfl

/-- A served read that finds the hub's queue full answers Completer Abort. -/
theorem exec_hostMemRead_full {size : Nat} {full : Bool} (hg : s.dev.hub.gate key = .served) (hq : s.dev.hub.queueOf key bar off = none)
    (hfull : full = true ∨ inqFull false 0 (s.dev.hub.inqOf (s.dev.hub.inqKey key none)) = true) :
    exec (.hostMemRead key bar off size full 0 ecc) s = .next { s with
      dev := Device.hostAnswer none key (tlpHeader 0 bar off size) { st := 2, ep := false, data := [], dev := s.dev } } := by
  change execHostMemRead key bar off size full 0 ecc s = _
  unfold execHostMemRead
  dsimp only
  rw [hg]
  simp only [Hub.bufferEcc_zero, hq, Hub.inqEnter_of_full hfull] <;> rfl

theorem Device.hostWrite_silent {d : Device} {len buf : Nat} {p full : Bool} {f : Device → Device} (hg : d.hub.gate key = .silent) :
    d.hostWrite key bar off len p full buf f = d := by
  unfold Device.hostWrite
  dsimp only
  rw [hg]

theorem Device.hostWrite_unsupported {d : Device} {len : Nat} {p full : Bool} {f : Device → Device} (hg : d.hub.gate key = .unsupported) :
    d.hostWrite key bar off len p full 0 f = { d with hub := d.hub.tickLink T.WINDOW_WRITE_DROP key } := by
  unfold Device.hostWrite
  dsimp only
  rw [hg]
  rfl

/-- A served write that finds room does what its BAR gives, unless it is poisoned. -/
theorem Device.hostWrite_room {d : Device} {len : Nat} {p : Bool} {f : Device → Device} {q : Option BenchId} {h' : Hub}
    (hg : d.hub.gate key = .served) (hq : d.hub.queueOf key bar off = q) (hroom : inqFull true len (d.hub.inqOf (d.hub.inqKey key q)) = false)
    (hh : h' = (d.hub.inqPush (d.hub.inqKey key q) true len).inqMark key q true (inqCount true (d.hub.inqOf (d.hub.inqKey key q)) + 1)) :
    d.hostWrite key bar off len p false 0 f =
      if p then { d with hub := h'.logAer key aerPoison (tlpHeader 1 bar off len) } else f { d with hub := h' } := by
  have henter := Hub.inqEnter_of_room hroom
  rw [← hh] at henter
  unfold Device.hostWrite
  dsimp only
  rw [hg]
  simp only [Hub.bufferEcc_zero, hq, henter] <;> rfl

/-- A served write that finds the hub's queue full is dropped. -/
theorem Device.hostWrite_full {d : Device} {len : Nat} {p full : Bool} {f : Device → Device}
    (hg : d.hub.gate key = .served) (hq : d.hub.queueOf key bar off = none)
    (hfull : full = true ∨ inqFull true len (d.hub.inqOf (d.hub.inqKey key none)) = true) :
    d.hostWrite key bar off len p full 0 f =
      { d with hub := ((d.hub.tickLink T.HUB_INQ_DROP key).logAdvisory key aerAbort (tlpHeader 1 bar off len)).raise 661 } := by
  unfold Device.hostWrite
  dsimp only
  rw [hg]
  simp only [Hub.bufferEcc_zero, hq, Hub.inqEnter_of_full hfull] <;> rfl

/-! ## Pages -/

theorem Hub.queueOf_ctl_none {h : Hub} (hp : bit (h.ctlPage key off).1 0 = false) : h.queueOf key 0 off = none := by
  unfold Hub.queueOf
  dsimp only
  rw [hp]
  rfl

theorem Hub.queueOf_db {h : Hub} {v : Bool} (hp : bit (h.dbPage key off).1 0 = v) :
    h.queueOf key 1 off = if v then some (benchOf (getBits (h.dbPage key off).1 1 4)) else none := by
  unfold Hub.queueOf
  dsimp only
  rw [hp]
  rfl

/-- The marks of a queue do not reach an entry of a window table. -/
theorem Hub.winEntry_inqMark (h : Hub) (q : Option BenchId) (posted : Bool) (k : Nat) {j : Nat} (hj : j < 32) :
    (h.inqMark key q posted k).winEntry (dbEntryAt key j) = h.winEntry (dbEntryAt key j) := by
  cases q with
  | none => rfl
  | some n =>
    have hidx : fnIdx key < 2048 := Nat.mod_lt _ (by decide)
    have hn := n.isLt
    have hentry : 0x300000 + 0x100000 * fnPort key + 0x24000 ≤ dbEntryAt key j := by
      unfold dbEntryAt
      split <;> omega
    have hkept (f : Fld) (v o : Nat) (hf : f.off = 0x300100 + 0x100000 * fnPort key + 4 * (16 * (h.linkOf key % 2) + n.val))
        (ho : dbEntryAt key j ≤ o) : (h.setFld f v).reg o = h.reg o := Hub.reg_setFld_ne h f v _ (by omega)
    unfold Hub.inqMark Hub.winEntry
    cases posted <;> dsimp only <;> rw [hkept _ _ _ rfl (Nat.le_refl _), hkept _ _ _ rfl (Nat.le_add_right _ _)]

/-- A doorbell page stays what it is when a queue is marked. -/
theorem Hub.dbPage_inqMark (h : Hub) (q : Option BenchId) (posted : Bool) (k : Nat) :
    (h.inqMark key q posted k).dbPage key off = h.dbPage key off := by
  unfold Hub.dbPage
  dsimp only
  by_cases hj : (if fnVf key = true then 4 else 32) ≤ off / 4096
  · rw [if_pos hj, if_pos hj]
  · have hlt : off / 4096 < 32 := by
      split at hj <;> omega
    rw [if_neg hj, if_neg hj, Hub.winEntry_inqMark h q posted k hlt]

end

/-! ## What a BAR gives -/

section
variable {key off : Nat} {ecc : Ecc}

theorem Device.barRead_unmapped {d : Device} {size : Nat} (hp : bit (d.hub.ctlPage key off).1 0 = false) :
    d.barRead key 0 off size ecc = { st := 1, ep := false, data := [], dev := d } := by
  unfold Device.barRead
  dsimp only
  rw [hp]
  rfl

theorem Device.barRead_mapped {d : Device} {size : Nat} (hp : bit (d.hub.ctlPage key off).1 0 = true) (hsize : size ≤ 64) (hoff : off % 64 + size ≤ 64) :
    d.barRead key 0 off size ecc = d.ctlRead key (ctlAddr (d.hub.ctlPage key off).1 (d.hub.ctlPage key off).2) size ecc := by
  unfold Device.barRead
  dsimp only
  rw [hp, if_neg (by decide), if_neg (by simp [hsize, hoff])]
  rfl

theorem Device.barRead_db {d : Device} {size : Nat} (hp : bit (d.hub.dbPage key off).1 0 = true) :
    d.barRead key 1 off size ecc = { st := 0, ep := false, data := List.replicate size 0#8, dev := d } := by
  unfold Device.barRead
  dsimp only
  rw [hp, if_pos rfl]
  rfl

/-- A completion leaves every bench's memory as it was. -/
theorem Device.complete_mem (d : Device) (q : Option BenchId) (t : Tlp) (m : BenchId) : ((d.complete q t).bench m).mem = (d.bench m).mem := by
  cases q with
  | none => rfl
  | some n =>
    unfold Device.complete
    dsimp only
    split
    · by_cases hm : m = n
      · subst hm
        rw [Device.bench_run_self]
        exact Bench.afterEvents_mem _ _
      · rw [Device.bench_run_ne _ _ hm]
    · rfl

theorem Device.barWrite_unmapped {d : Device} {l : List Byte} (hp : bit (d.hub.ctlPage key off).1 0 = false) :
    d.barWrite key 0 off l ecc = { d with hub := (d.hub.tickLink T.WINDOW_WRITE_DROP key).logAdvisory key aerUnsupported (tlpHeader 1 0 off l.length) } := by
  unfold Device.barWrite
  dsimp only
  rw [hp]
  rfl

theorem Device.dbWindow_unmapped {d : Device} {size v : Nat} {pasid : Option Nat} (hp : bit (d.hub.dbPage key off).1 0 = false) :
    d.dbWindow key off size v pasid =
      { d with hub := (d.hub.tickLink T.WINDOW_WRITE_DROP key).logAdvisory key aerUnsupported (tlpHeader 1 1 off size) } := by
  unfold Device.dbWindow
  dsimp only
  rw [hp]
  rfl

/-- An aligned word of the MSI-X window is one piece. -/
theorem pieces_word (ho : off % 4 = 0) : pieces 4 off 4 = [(off, 4)] := by
  simp [pieces, ho]

theorem leNat_slice_word {v : Nat} (hv : v < 2 ^ 32) : leNat (slice (leBytes 4 v) 0 4) = v := by
  have hall : slice (leBytes 4 v) 0 4 = leBytes 4 v := by simp [slice, leBytes]
  rw [hall, leNat_leBytes]
  exact Nat.mod_eq_of_lt hv

/-- A word of the MSI-X window that is written. -/
theorem Device.barWrite_msix {d : Device} {v : Nat} (ho : off % 4 = 0) (hv : v < 2 ^ 32) :
    d.barWrite key 2 off (leBytes 4 v) ecc =
      { d with hub := if d.hub.msixBeyond key off = true then d.hub.tickLink T.MSIX_MISS key else d.hub.msixWrite key off v } := by
  have hoff : off / 4 * 4 = off := by omega
  unfold Device.barWrite
  simp only [leBytes_length, pieces_word ho, List.any_cons, List.any_nil, List.foldl_cons, List.foldl_nil, Nat.sub_self, leNat_slice_word hv, hoff,
    Nat.mod_eq_of_lt hv]
  by_cases hb : d.hub.msixBeyond key off = true
  · have hb' : (d.hub.tickLink T.MSIX_MISS key).msixBeyond key off = true := hb
    simp [hb, Hub.msixWrite, hb']
  · simp [hb]

end

section
variable {n : BenchId} {key off : Nat}

/-- The host's position of a send or receive ring: nothing is drained and nothing armed. -/
theorem ringDoorbell_of_data {h : Hub} {b : Bench} {r idx lap : Nat} {arm : Bool} (hkind : b.ringKind r = 1 ∨ b.ringKind r = 2) :
    ringDoorbell n h b r idx lap arm = (h, (b.setMbits (ringAddr r) 128 16 idx).setMbits (ringAddr r) 144 1 lap) := by
  have hkept : ((b.setMbits (ringAddr r) 128 16 idx).setMbits (ringAddr r) 144 1 lap).ringKind r = b.ringKind r :=
    (Bench.mbits_setMbits_apart (b.setMbits (ringAddr r) 128 16 idx) _ _ _ _ _ _ (by unfold BytesApart; decide)).trans
      (Bench.mbits_setMbits_apart b _ _ _ _ _ _ (by unfold BytesApart; decide))
  unfold ringDoorbell
  dsimp only
  rw [if_neg]
  unfold Bench.ringCpl
  rw [hkept]
  obtain h | h := hkind <;> simp [h]

/-- A doorbell of the claim's own function moves its ring. -/
theorem dbWrite_of_owned {base o v r : Nat} {h : Hub} {b : Bench} {c : Claim} (ho : o % 8 = 0) (hr : r = base + o / 8) (hv : v < 2 ^ 32)
    (hkind : b.ringKind r = 1 ∨ b.ringKind r = 2) (hc : b.claim? (b.ringClaim r) = some c) (hfn : c.fn = key) (howns : c.owns r = true)
    (hgood : b.badDoorbell r (dbIndex v) (dbLap v) = false) :
    dbWrite n key none base o 4 v h b =
      (h, ((b.setMbits (ringAddr r) 128 16 (dbIndex v)).setMbits (ringAddr r) 144 1 (dbLap v)).judgeHeld) := by
  have hnvme : (b.ringKind r = 0 || b.ringNvme r) = false := by
    unfold Bench.ringNvme
    obtain h | h := hkind <;> simp [h]
  subst hr
  unfold dbWrite
  dsimp only
  rw [if_neg (by simp [ho]), hnvme, if_neg Bool.false_ne_true, hc]
  dsimp only
  rw [if_neg (by simp [hfn, howns]), if_pos rfl, Nat.mod_eq_of_lt hv]
  unfold doorbell
  rw [hgood, if_neg Bool.false_ne_true, ringDoorbell_of_data hkind]

end

theorem Device.run_congr {d : Device} {n : BenchId} {f g : Hub → Bench → Hub × Bench} (h : f d.hub (d.bench n) = g d.hub (d.bench n)) :
    d.run n f = d.run n g := by
  unfold Device.run
  rw [h]

/-! ## The statement -/

/-- Settles O43, clause by clause: each access passes its gate and its queue, then its BAR. -/
theorem hostAccessesInBars : Obligations.HostAccessesInBars := by
  refine ⟨fun key bar off size buf full ecc s hg => exec_hostMemRead_silent hg, fun key bar off size full ecc s hg => exec_hostMemRead_unsupported hg,
    fun key off size ecc s hg hp hroom => ?unmapped, fun key bar off size full ecc s hg hq hfull => ?full, fun key off size ecc s hg hp hroom => ?zeros,
    fun key off size ecc s hg hroom => ?msix, fun key off size ecc s hg hp hq hroom hsize hoff => ?mapped,
    fun key bar off l p full ecc s hg => ?writeSilent, fun key bar off l p full ecc s hg => ?writeUnsupported,
    fun key off l ecc s hg hp hroom => ?writeUnmapped, fun key bar off l p full ecc s hg hq hfull => ?writeFull,
    fun key off l ecc s hg hq hroom => ?poisoned, fun key off v ecc s hg hroom ho hv => ?writeMsix,
    fun key off size v pasid s hg hp hroom => ?dbUnmapped,
    fun n key off v r c h' s hg hp hn hrun ho hr hv hkind hc hfn howns hgood hroom hh => ?db⟩
  case unmapped =>
    have hq := Hub.queueOf_ctl_none hp
    refine ⟨_, exec_hostMemRead_room (h' := s.dev.hub.inqPush (s.dev.hub.inqKey key none) false 0) hg (by rw [hq]; exact hroom) (by rw [hq]; rfl), ?_⟩
    rw [hq, Device.barRead_unmapped (d := { s.dev with hub := s.dev.hub.inqPush (s.dev.hub.inqKey key none) false 0 }) hp]
    exact ⟨⟨rfl, rfl, rfl⟩, rfl⟩
  case full => exact ⟨_, exec_hostMemRead_full hg hq hfull, ⟨rfl, rfl, rfl⟩, rfl⟩
  case zeros =>
    refine ⟨_, exec_hostMemRead_room hg hroom rfl, rfl, ?_, fun m => ?_⟩
    · rw [Device.barRead_db (by rw [Hub.dbPage_inqMark]; exact hp)]
      simp [Device.hostAnswer]
    · rw [Device.barRead_db (by rw [Hub.dbPage_inqMark]; exact hp)]
      exact Device.complete_mem _ _ _ m
  case msix =>
    refine ⟨_, exec_hostMemRead_room (h' := s.dev.hub.inqPush (s.dev.hub.inqKey key none) false 0) hg hroom rfl, rfl, rfl, ?_⟩
    change 0 :: List.map _ (List.map _ _) = _
    rw [List.map_map]
    exact congrArg (0 :: ·) (List.map_congr_left fun i _ => BitVec.toNat_ofNat _ _)
  case mapped =>
    rw [exec_hostMemRead_room (h' := s.dev.hub.inqPush (s.dev.hub.inqKey key none) false 0) hg (by rw [hq]; exact hroom) (by rw [hq]; rfl), hq,
      Device.barRead_mapped (d := { s.dev with hub := s.dev.hub.inqPush (s.dev.hub.inqKey key none) false 0 }) hp hsize hoff]
    rfl
  case writeSilent =>
    change Host.Outcome.next { s with dev := s.dev.hostWrite key bar off l.length p full 0 _ } = _
    rw [Device.hostWrite_silent hg]
  case writeUnsupported =>
    change Host.Outcome.next { s with dev := s.dev.hostWrite key bar off l.length p full 0 _ } = _
    rw [Device.hostWrite_unsupported hg]
  case writeUnmapped =>
    change Host.Outcome.next { s with dev := s.dev.hostWrite key 0 off l.length false false 0 _ } = _
    rw [Device.hostWrite_room (h' := s.dev.hub.inqPush (s.dev.hub.inqKey key none) true l.length) hg (Hub.queueOf_ctl_none hp) hroom rfl, if_neg Bool.false_ne_true,
      Device.barWrite_unmapped (d := { s.dev with hub := s.dev.hub.inqPush (s.dev.hub.inqKey key none) true l.length }) hp]
  case writeFull =>
    change Host.Outcome.next { s with dev := s.dev.hostWrite key bar off l.length p full 0 _ } = _
    rw [Device.hostWrite_full hg hq hfull]
  case poisoned =>
    change Host.Outcome.next { s with dev := s.dev.hostWrite key 0 off l.length true false 0 _ } = _
    rw [Device.hostWrite_room hg hq hroom rfl, if_pos rfl]
    rfl
  case writeMsix =>
    change Host.Outcome.next { s with dev := s.dev.hostWrite key 2 off (leBytes 4 v).length false false 0 _ } = _
    rw [leBytes_length, Device.hostWrite_room (h' := s.dev.hub.inqPush (s.dev.hub.inqKey key none) true 4) hg rfl hroom rfl, if_neg Bool.false_ne_true,
      Device.barWrite_msix (d := { s.dev with hub := s.dev.hub.inqPush (s.dev.hub.inqKey key none) true 4 }) ho hv]
    rfl
  case dbUnmapped =>
    change Host.Outcome.next { s with dev := s.dev.hostWrite key 1 off size false false 0 _ } = _
    rw [Device.hostWrite_room (h' := s.dev.hub.inqPush (s.dev.hub.inqKey key none) true size) hg (Hub.queueOf_db hp) hroom rfl, if_neg Bool.false_ne_true,
      Device.dbWindow_unmapped (d := { s.dev with hub := s.dev.hub.inqPush (s.dev.hub.inqKey key none) true size }) hp]
  case db =>
    change Host.Outcome.next { s with dev := s.dev.hostWrite key 1 off 4 false false 0 _ } = _
    have hq : s.dev.hub.queueOf key 1 off = some n := (Hub.queueOf_db hp).trans (by rw [if_pos rfl, ← hn])
    rw [Device.hostWrite_room hg hq hroom hh, if_neg Bool.false_ne_true]
    have hpage : h'.dbPage key off = s.dev.hub.dbPage key off := by
      rw [hh, Hub.dbPage_inqMark]
      rfl
    unfold Device.dbWindow
    dsimp only
    rw [hpage, hp, if_neg (by decide), ← hn]
    refine congrArg (fun d => Host.Outcome.next { s with dev := d }) (Device.run_congr ?_)
    refine (if_neg (not_not.2 hrun)).trans ?_
    exact dbWrite_of_owned ho hr hv hkind hc hfn howns hgood

end Sys2Proof.Machine
end

section
/-! O42: completions of the device's reads (R343 to R345). -/
namespace Sys2Proof.Machine

section
variable {n : BenchId} {key tag status : Nat} {data : List Byte} {ep : Bool} {h : Hub} {b : Bench} {r : HostRead}

/-- A completion for no read in flight. -/
theorem hostCompletion_of_none (hr : b.sentRead n key tag = none) :
    hostCompletion n key tag data status ep h b =
      ((h.tickLink T.UNEXPECTED_CPL key).logAdvisory key aerUnexpected (tlpHeader 2 status tag data.length), b) := by
  unfold hostCompletion
  dsimp only
  rw [hr]

/-- A completion for a read in flight that nothing has befallen: an error status fails it. -/
theorem hostCompletion_of_error (hr : b.sentRead n key tag = some r) (hq : r.quarantine = false) (hd : r.dead = false) (hs : status ≠ 0) :
    hostCompletion n key tag data status ep h b = (h.ryunerGot r.use none, (b.freeRead r).failRead r 0x93) := by
  unfold hostCompletion
  dsimp only
  rw [hr]
  dsimp only
  rw [hq, if_neg Bool.false_ne_true, if_pos hs, hd, if_neg Bool.false_ne_true]

/-- A poisoned one that brings the last bytes fails it. -/
theorem hostCompletion_of_poison (hr : b.sentRead n key tag = some r) (hq : r.quarantine = false) (hd : r.dead = false)
    (hfull : r.len ≤ r.got.length + data.length) :
    hostCompletion n key tag data 0 true h b =
      (((h.tickLink T.POISON_RX key).logAdvisory key aerPoison (tlpHeader 2 0 tag data.length)).ryunerGot r.use none,
        (b.freeRead r).failRead r 0x92) := by
  unfold hostCompletion
  dsimp only
  rw [hr]
  dsimp only
  rw [hq, hd, if_neg Bool.false_ne_true, if_neg (by decide), if_neg Bool.false_ne_true, if_pos rfl,
    if_pos (by rw [List.length_append]; exact hfull)]

/-- The last bytes of a read reach what asked for it. -/
theorem hostCompletion_of_full (hr : b.sentRead n key tag = some r) (hq : r.quarantine = false) (hd : r.dead = false)
    (hfull : r.len ≤ r.got.length + data.length) :
    hostCompletion n key tag data 0 false h b =
      ((if r.retried then h.tickLink T.HOST_RETRY_OK key else h).ryunerGot r.use (some ((r.got ++ data).take r.len)),
        (b.freeRead r).deliverRead n r ((r.got ++ data).take r.len)) := by
  unfold hostCompletion
  dsimp only
  rw [hr]
  dsimp only
  rw [hq, hd, if_neg Bool.false_ne_true, if_neg (by decide), if_neg Bool.false_ne_true, if_neg Bool.false_ne_true,
    if_pos (by rw [List.length_append]; exact hfull)]

/-- Bytes before the last are kept. -/
theorem hostCompletion_of_part (hr : b.sentRead n key tag = some r) (hq : r.quarantine = false) (hd : r.dead = false)
    (hpart : r.got.length + data.length < r.len) :
    hostCompletion n key tag data 0 false h b = (h, b.updRead r (fun x => { x with got := r.got ++ data })) := by
  unfold hostCompletion
  dsimp only
  rw [hr]
  dsimp only
  rw [hq, hd, if_neg Bool.false_ne_true, if_neg (by decide), if_neg Bool.false_ne_true, if_neg Bool.false_ne_true,
    if_neg (by rw [List.length_append]; omega)]

/-- A read that may be tried again is sent with a new tag. -/
theorem readTimeout_of_retry (hr : b.sentRead n key tag = some r) (hq : r.quarantine = false) (hd : r.dead = false) (hok : r.retryOk = true)
    (hfirst : r.retried = false) (hroom : b.reads.length < 1024) (htag : (b.freeTag (h.fn key).tag14 key (h.fn key).tagCount).isSome = true) :
    readTimeout n key tag h b = (h, (b.updRead r (fun x => { x with quarantine := true, dead := true })).sendRead h
      { r with got := [], retried := true, cto := 0 }) := by
  unfold readTimeout
  rw [hr]
  dsimp only
  rw [hq, hd, if_neg Bool.false_ne_true, if_neg Bool.false_ne_true, if_pos (by simp [hok, hfirst]), if_pos (by simp [hroom, htag])]

/-- Any other fails. -/
theorem readTimeout_of_fail (hr : b.sentRead n key tag = some r) (hq : r.quarantine = false) (hd : r.dead = false)
    (hno : (r.retryOk && !r.retried) = false) :
    readTimeout n key tag h b = (((h.tickLink T.CPL_TIMEOUT key).logAer key aerTimeout).ryunerGot r.use none,
      (b.updRead r (fun x => { x with quarantine := true, dead := true })).failRead r 0x91) := by
  unfold readTimeout
  rw [hr]
  dsimp only
  rw [hq, hd, hno, if_neg Bool.false_ne_true, if_neg Bool.false_ne_true, if_neg Bool.false_ne_true]

end

section
variable {n : BenchId} {key tag : Nat} {s : State} {h' : Hub} {b' : Bench} (hl : (s.dev.bench n).live = true)
include hl

theorem leavesBoth_hostCompletion {status : Nat} {data : List Byte} {ep : Bool}
    (he : hostCompletion n key tag data status ep s.dev.hub (s.dev.bench n) = (h', b')) :
    LeavesBoth (.hostCompletion n key tag data status ep) n s h' b'.judgeHeld.pump :=
  leavesBoth_onBoth rfl (by dsimp only; rw [he, if_pos hl])

theorem leavesBoth_readTimeout (he : readTimeout n key tag s.dev.hub (s.dev.bench n) = (h', b')) :
    LeavesBoth (.readTimeout n key tag) n s h' b'.judgeHeld :=
  leavesBoth_onBoth rfl (by dsimp only; rw [he, if_pos hl])

end

/-- Settles O42, by the cases of a completion and of a time-out. -/
theorem completionsOfDeviceReads : Obligations.CompletionsOfDeviceReads := by
  refine ⟨fun n key tag data r s hl hr hq hd hfull hfirst => leavesBoth_hostCompletion hl ?first,
    fun n key tag data r s hl hr hq hd hfull hagain => leavesBoth_hostCompletion hl ?again,
    fun n key tag data r s hl hr hq hd hpart => leavesBoth_hostCompletion hl (hostCompletion_of_part hr hq hd hpart),
    fun n key tag status data ep s hl hr => leavesBoth_hostCompletion hl (hostCompletion_of_none hr),
    fun n key tag data r s hl hr hq hd hfull => leavesBoth_hostCompletion hl (hostCompletion_of_poison hr hq hd hfull),
    fun n key tag status data ep r s hl hr hq hd hs => leavesBoth_hostCompletion hl (hostCompletion_of_error hr hq hd hs),
    fun n key tag r s hl hr hq hd hok hfirst hroom htag => leavesBoth_readTimeout hl (readTimeout_of_retry hr hq hd hok hfirst hroom htag),
    fun n key tag r s hl hr hq hd hno => leavesBoth_readTimeout hl (readTimeout_of_fail hr hq hd hno),
    fun n key tag s hl => leaves_of_leavesBoth (leavesBoth_onBoth rfl rfl)⟩
  case first => rw [hostCompletion_of_full hr hq hd hfull, hfirst, if_neg Bool.false_ne_true]
  case again => rw [hostCompletion_of_full hr hq hd hfull, hagain, if_pos rfl]

end Sys2Proof.Machine
end

section
/-! O40: configuration requests, readiness, the commit of a window table (R334, R338, R348, R542, R543). -/
namespace Sys2Proof.Machine

theorem fnPort_fnKey {p idx : Nat} {vf : Bool} (h : idx < 2048) : fnPort (fnKey p vf idx) = p := by
  unfold fnPort fnKey
  split <;> omega

theorem Hub.fn_setFn_self (h : Hub) (key : Nat) (f : FnSt) : (h.setFn key f).fn key = f := sparseGet_set_self _ _ _ _

/-! ## The status of a request -/

section
variable {h : Hub} {key : Nat}

theorem Hub.cfgStatus_down (hst : h.linkState (h.linkOf key) = 0 ∨ h.linkState (h.linkOf key) = 3) : h.cfgStatus key = none := by
  unfold Hub.cfgStatus
  exact if_pos (by simpa using hst)

theorem Hub.cfgStatus_retry (h0 : h.linkState (h.linkOf key) ≠ 0) (h3 : h.linkState (h.linkOf key) ≠ 3)
    (hr : h.ready (fnPort key) = false ∨ h.inReset key = true) : h.cfgStatus key = some 3 := by
  unfold Hub.cfgStatus
  dsimp only
  rw [if_neg (by simp [h0, h3])]
  exact if_pos (by simpa using hr)

theorem Hub.cfgStatus_ready (h0 : h.linkState (h.linkOf key) ≠ 0) (h3 : h.linkState (h.linkOf key) ≠ 3)
    (hr : h.ready (fnPort key) = true) (hf : h.inReset key = false) : h.cfgStatus key = if h.present key then some 0 else some 1 := by
  unfold Hub.cfgStatus
  dsimp only
  rw [if_neg (by simp [h0, h3]), if_neg (by simp [hr, hf])]
  cases h.present key <;> rfl

theorem Hub.cfgEnter_of_room (hroom : inqFull false 0 (h.inqOf (h.inqKey key none)) = false) :
    h.cfgEnter key = (false, h.inqPush (h.inqKey key none) false 0) := Hub.inqEnter_of_room hroom

theorem Hub.cfgEnter_of_full (hfull : inqFull false 0 (h.inqOf (h.inqKey key none)) = true) : h.cfgEnter key = (true, h) :=
  Hub.inqEnter_of_full (.inr hfull)

end

/-! ## Reads and writes -/

section
variable {key st v : Nat} {x : CfgField} {s : State}

theorem exec_configRead_room (hst : s.dev.hub.cfgStatus key = some st) (hroom : inqFull false 0 (s.dev.hub.inqOf (s.dev.hub.inqKey key none)) = false) :
    exec (.configRead key x) s = .next { s with dev := { s.dev with
      hub := (s.dev.hub.inqPush (s.dev.hub.inqKey key none) false 0).queueTlp
        (cplTlp key st (if st = 0 then leBytes 8 (if st = 0 then s.dev.hub.cfgValue key x else 0) else []) false)
      answer := [st, if st = 0 then s.dev.hub.cfgValue key x else 0] } } := by
  change execConfigRead key x s = _
  unfold execConfigRead
  rw [hst]
  dsimp only
  rw [Hub.cfgEnter_of_room hroom]
  rfl

theorem exec_configWrite_room (hst : s.dev.hub.cfgStatus key = some st) (hroom : inqFull false 0 (s.dev.hub.inqOf (s.dev.hub.inqKey key none)) = false)
    {d : Device} (hd : d = if st = 0 then
      ({ s.dev with hub := s.dev.hub.inqPush (s.dev.hub.inqKey key none) false 0 } : Device).cfgWrite key x v
      else { s.dev with hub := s.dev.hub.inqPush (s.dev.hub.inqKey key none) false 0 }) :
    exec (.configWrite key x v) s = .next { s with dev := { d with hub := d.hub.queueTlp (cplTlp key st [] false), answer := [st] } } := by
  subst hd
  change execConfigWrite key x v s = _
  unfold execConfigWrite
  rw [hst]
  dsimp only
  rw [Hub.cfgEnter_of_room hroom]
  rfl

theorem exec_configRead_full (hst : s.dev.hub.cfgStatus key = some st) (hfull : inqFull false 0 (s.dev.hub.inqOf (s.dev.hub.inqKey key none)) = true) :
    exec (.configRead key x) s = .next { s with dev := { s.dev with
      hub := (s.dev.hub.logAer key aerAbort).queueTlp (cplTlp key 2 [] false), answer := [2, 0] } } := by
  change execConfigRead key x s = _
  unfold execConfigRead
  rw [hst]
  dsimp only
  rw [Hub.cfgEnter_of_full hfull]
  rfl

theorem exec_configWrite_full (hst : s.dev.hub.cfgStatus key = some st) (hfull : inqFull false 0 (s.dev.hub.inqOf (s.dev.hub.inqKey key none)) = true) :
    exec (.configWrite key x v) s = .next { s with dev := { s.dev with
      hub := (s.dev.hub.logAer key aerAbort).queueTlp (cplTlp key 2 [] false), answer := [2] } } := by
  change execConfigWrite key x v s = _
  unfold execConfigWrite
  rw [hst]
  dsimp only
  rw [Hub.cfgEnter_of_full hfull]
  rfl

theorem exec_config_down (hst : s.dev.hub.cfgStatus key = none) :
    exec (.configRead key x) s = .next { s with dev := { s.dev with answer := [] } } ∧
      exec (.configWrite key x v) s = .next { s with dev := { s.dev with answer := [] } } := by
  constructor
  · change execConfigRead key x s = _
    unfold execConfigRead
    rw [hst]
  · change execConfigWrite key x v s = _
    unfold execConfigWrite
    rw [hst]

/-- In L0 a request has a status. -/
theorem Hub.cfgStatus_isSome {h : Hub} (h0 : h.linkState (h.linkOf key) ≠ 0) (h3 : h.linkState (h.linkOf key) ≠ 3) : ∃ st, h.cfgStatus key = some st := by
  unfold Hub.cfgStatus
  dsimp only
  rw [if_neg (by simp [h0, h3])]
  split
  · exact ⟨_, rfl⟩
  · split <;> exact ⟨_, rfl⟩

end

/-- A write of Max_Payload_Size to a function that has no pending vector, on a device without mailboxes. -/
theorem Device.cfgWrite_maxPayload {d : Device} {key v : Nat} (hpend : (d.hub.fn key).pend = []) (hmbx : d.hub.fw.mbx = []) :
    d.cfgWrite key .maxPayload v = { d with hub := (d.hub.setFn key { d.hub.fn key with mps := v % 8 }).setFn key { d.hub.fn key with mps := v % 8 } } := by
  have hfn := d.hub.fn_setFn_self key { d.hub.fn key with mps := v % 8 }
  have hsent : (d.hub.setFn key { d.hub.fn key with mps := v % 8 }).sendPending key =
      (d.hub.setFn key { d.hub.fn key with mps := v % 8 }).setFn key { d.hub.fn key with mps := v % 8 } := by
    unfold Hub.sendPending
    dsimp only
    rw [hfn]
    dsimp only
    rw [hpend]
    rfl
  have hflush : ((d.hub.setFn key { d.hub.fn key with mps := v % 8 }).setFn key { d.hub.fn key with mps := v % 8 }).adminFlushFn key =
      (d.hub.setFn key { d.hub.fn key with mps := v % 8 }).setFn key { d.hub.fn key with mps := v % 8 } := by
    unfold Hub.adminFlushFn
    change List.foldl _ _ (d.hub.fw.mbx.filter _) = _
    rw [hmbx]
    rfl
  have hfield : d.hub.hasField key .maxPayload = true := by
    unfold Hub.hasField
    simp [capOf, carries]
  unfold Device.cfgWrite
  rw [hfield]
  simp only [FnSt.cfgSet, Bool.and_not_self, Bool.not_true, Bool.false_eq_true, if_false, if_true]
  rw [hsent, hflush]

/-! ## The statement -/

/-- The commit of a window table by its check's result. -/
theorem leavesBoth_winCommit {p : HostPort} {idx : Nat} {vf : Bool} {n : BenchId} {s : State} {h' : Hub} (hidx : idx < 2048)
    (hup : s.dev.hub.up = true) (hn : n = benchOf (s.dev.hub.homeBench (fnKey p.val vf idx)))
    (hh : (if winCheck n (fnKey p.val vf idx) s.dev.hub (s.dev.bench n) = 0 then s.dev.hub.switchWin (fnKey p.val vf idx)
      else s.dev.hub.tick T.HUB_CFG_REFUSED).postStatus (R.ep_WIN_COMMIT_STATUS p.val)
        (2 * winCheck n (fnKey p.val vf idx) s.dev.hub (s.dev.bench n)) 16 16 T.HUB_COMMIT_STATUS_LOST = h') :
    LeavesBoth (.winCommit p idx vf) n s h' (s.dev.bench n) := by
  have he : exec (.winCommit p idx vf) s = s.onBoth n (fun h b => if h.up then winCommit n (fnKey p.val vf idx) h b else (h, b)) := by
    change execWinCommit p idx vf s = _
    unfold execWinCommit
    dsimp only
    rw [Nat.mod_eq_of_lt hidx, ← hn]
  refine leavesBoth_onBoth he ?_
  refine (if_pos hup).trans ?_
  unfold winCommit
  dsimp only
  rw [fnPort_fnKey hidx, hh]

/-- Settles O40: every request by its status and its queue; the rest by their commands' equations. -/
theorem configurationRequests : Obligations.ConfigurationRequests := by
  refine ⟨fun key x s h0 h3 hr hf hp hroom => ?read, fun key x s h0 h3 hr hf hp hroom => ?absent,
    fun key x s h0 h3 hr hroom => exec_configRead_room (Hub.cfgStatus_retry h0 h3 hr) hroom,
    fun key x v s h0 h3 hr hroom => exec_configWrite_room (Hub.cfgStatus_retry h0 h3 hr) hroom rfl,
    fun key v s h0 h3 hr hf hp hroom hpend hmbx => ?maxPayload, fun key x v s h0 h3 hfull => ?full,
    fun key x v s hst => exec_config_down (Hub.cfgStatus_down hst), fun p s hup => leavesHub_onHub rfl (if_pos hup),
    fun p s hr hperst hpor => leavesHub_onHub rfl (if_neg ?forced),
    fun p idx vf n s hidx hup hn hc => leavesBoth_winCommit hidx hup hn ?commit,
    fun p idx r vf n s hidx hup hn hc hr => leavesBoth_winCommit hidx hup hn ?refused⟩
  case read =>
    have hst : s.dev.hub.cfgStatus key = some 0 := by rw [Hub.cfgStatus_ready h0 h3 hr hf, if_pos hp]
    exact exec_configRead_room hst hroom
  case absent =>
    have hst : s.dev.hub.cfgStatus key = some 1 := by rw [Hub.cfgStatus_ready h0 h3 hr hf, if_neg (by simp [hp])]
    exact exec_configRead_room hst hroom
  case maxPayload =>
    have hst : s.dev.hub.cfgStatus key = some 0 := by rw [Hub.cfgStatus_ready h0 h3 hr hf, if_pos hp]
    refine (exec_configWrite_room hst hroom rfl).trans ?_
    rw [if_pos rfl, Device.cfgWrite_maxPayload (d := { s.dev with hub := s.dev.hub.inqPush (s.dev.hub.inqKey key none) false 0 }) hpend hmbx]
    rfl
  case full =>
    obtain ⟨st, hst⟩ := Hub.cfgStatus_isSome h0 h3
    exact ⟨exec_configRead_full hst hfull, exec_configWrite_full hst hfull⟩
  case forced => simp [hr, hpor] at hperst ⊢; exact hperst
  case commit => rw [hc, if_pos rfl]
  case refused => rw [hc, if_neg hr]

end Sys2Proof.Machine
end

section
/-! O39: the host windows of the wheel (R28 to R33, R332, R333). -/
namespace Sys2Proof.Machine

/-! ## What leaves and what waits -/

theorem dropFirst_filter {α : Type} (p : α → Bool) (l : List α) (k : Nat) : (dropFirst p k l).filter p = (l.filter p).drop k := by
  induction l generalizing k with
  | nil => cases k <;> rfl
  | cons x t ih =>
    cases k with
    | zero => rfl
    | succ k =>
      by_cases hx : p x = true
      · rw [dropFirst, if_pos hx, List.filter_cons_of_pos hx, ih, List.drop_succ_cons]
      · rw [dropFirst, if_neg hx, List.filter_cons_of_neg hx, List.filter_cons_of_neg hx, ih]

theorem sendFit_append (r : Room) (l : List Tlp) : (sendFit r l).1 ++ (sendFit r l).2 = l := by
  induction l generalizing r with
  | nil => rfl
  | cons t l ih =>
    unfold sendFit
    dsimp only
    split
    · rfl
    · exact congrArg (t :: ·) (ih _)

/-- A prefix of two lists, and what is left of each. -/
theorem prefix_append_drops {α : Type} {a b out rest : List α} (h : out ++ rest = a ++ b) :
    a ++ b = out ++ (a.drop (min out.length a.length) ++ b.drop (out.length - min out.length a.length)) := by
  obtain ⟨c, rfl, rfl⟩ | ⟨c, rfl, rfl⟩ := List.append_eq_append_iff.1 h
  · simp
  · simp

/-! ## A window -/

/-- A hub that differs in its links and free values only. -/
def Hub.LinksOnly (h h' : Hub) : Prop := ∃ links free, h' = { h with links := links, free := free }

theorem Hub.link_setLink_self (h : Hub) (l : Nat) (x : LinkSt) : (h.setLink l x).link l = x := sparseGet_set_self _ _ _ _

/-- The credits that came back change the link's record of them. -/
theorem Hub.creditsBack_linksOnly (h : Hub) (l : Nat) (n : BenchId) :
    h.LinksOnly (h.creditsBack l n) ∧ ((h.creditsBack l n).link l).borrower = (h.link l).borrower := by
  unfold Hub.creditsBack
  dsimp only
  split
  · exact ⟨⟨h.links, h.free, rfl⟩, rfl⟩
  · exact ⟨⟨_, _, rfl⟩, by rw [Hub.link_setLink_self]; rfl⟩

theorem Hub.creditsSpent_linksOnly (h : Hub) (l : Nat) (n : BenchId) (out : List Tlp) :
    h.LinksOnly (h.creditsSpent l n out) ∧ ((h.creditsSpent l n out).link l).borrower = (h.link l).borrower := by
  unfold Hub.creditsSpent
  dsimp only
  exact ⟨⟨_, _, rfl⟩, by rw [Hub.link_setLink_self]; rfl⟩

/-- Which TLPs a link carries is a matter of the hub's registers. -/
theorem Hub.carriesTlp_of_regs {h h' : Hub} (hregs : h'.regs = h.regs) (l : Nat) : h'.carriesTlp l = h.carriesTlp l := by
  have hsame : h'.carriesTlp l = ({ h with regs := h'.regs } : Hub).carriesTlp l := rfl
  rw [hsame, hregs]

/-- What bench `n` keeps when the first `own` of its TLPs for a link, `out` among others, have left in its window. -/
def Bench.afterWindow (h : Hub) (l own : Nat) (out : List Tlp) (b : Bench) : Bench :=
  { b.readsSent h out with tlps := dropFirst (h.carriesTlp l) own b.tlps }

/-- What a window leaves: the TLPs that fit are on the wire, the rest waits. -/
theorem Device.sendWindow_spec (d : Device) (l : Nat) (n : BenchId) {out : List Tlp} {own : Nat}
    (hout : out = (sendFit ((d.hub.creditsBack l n).windowRoom l n) (d.windowTlps l n)).1)
    (hown : own = min out.length ((d.bench n).tlps.filter (d.hub.carriesTlp l)).length) :
    ∃ h, d.sendWindow l n = { d with hub := h, benches := d.benches.set n.val ((d.bench n).afterWindow d.hub l own (out.take own)) } ∧
      h.wire = d.hub.wire ++ ((out.take own).map ((d.bench n).onWire n) ++ out.drop own).map (fun x => (l, x)) ∧
      h.tlps = dropFirst (fun (x : Nat × Tlp) => x.1 = n.val && d.hub.carriesTlp l x.2) (out.length - own) d.hub.tlps ∧
      h.regs = d.hub.regs ∧ h.fns = d.hub.fns ∧ h.fw = d.hub.fw ∧ (h.link l).borrower = (d.hub.link l).borrower := by
  obtain ⟨⟨links, free, hback⟩, hborrower⟩ := d.hub.creditsBack_linksOnly l n
  have hout' : out = (sendFit ((d.hub.creditsBack l n).windowRoom l n) (({ d with hub := d.hub.creditsBack l n } : Device).windowTlps l n)).1 := by
    rw [hout]
    refine congrArg (fun x => (sendFit _ x).1) ?_
    rw [hback]
    rfl
  have hcarries : (d.hub.creditsBack l n).carriesTlp l = d.hub.carriesTlp l := by
    rw [hback]
    rfl
  have hreads : Bench.readsSent (d.hub.creditsBack l n) = Bench.readsSent d.hub := by
    rw [hback]
    rfl
  have hbench : ({ hub := d.hub.creditsBack l n, benches := d.benches, answer := d.answer } : Device).bench n = d.bench n := rfl
  obtain ⟨⟨links', free', hspent⟩, hborrower'⟩ := (d.hub.creditsBack l n).creditsSpent_linksOnly l n out
  have hsame : ((d.hub.creditsBack l n).creditsSpent l n out).wire = d.hub.wire ∧ ((d.hub.creditsBack l n).creditsSpent l n out).tlps = d.hub.tlps ∧
      ((d.hub.creditsBack l n).creditsSpent l n out).regs = d.hub.regs ∧ ((d.hub.creditsBack l n).creditsSpent l n out).fns = d.hub.fns ∧
      ((d.hub.creditsBack l n).creditsSpent l n out).fw = d.hub.fw := by
    rw [hspent, hback]
    exact ⟨rfl, rfl, rfl, rfl, rfl⟩
  obtain ⟨hwire, htlps, hregs, hfns, hfw⟩ := hsame
  unfold Device.sendWindow
  simp only [← hout', hbench, hcarries, ← hown, hreads, hwire, htlps]
  exact ⟨_, rfl, rfl, rfl, hregs, hfns, hfw, hborrower'.trans hborrower⟩

/-- What waits for a window behind what has left in it. -/
theorem Device.windowTlps_sendWindow (d : Device) (l : Nat) (n : BenchId) {out : List Tlp}
    (hout : out = (sendFit ((d.hub.creditsBack l n).windowRoom l n) (d.windowTlps l n)).1) :
    d.windowTlps l n = out ++ (d.sendWindow l n).windowTlps l n := by
  obtain ⟨h, hd, -, htlps, hregs, -, -, -⟩ := d.sendWindow_spec l n hout rfl
  have hcarries : h.carriesTlp l = d.hub.carriesTlp l := Hub.carriesTlp_of_regs hregs l
  have hsplit := sendFit_append ((d.hub.creditsBack l n).windowRoom l n) (d.windowTlps l n)
  rw [← hout] at hsplit
  rw [hd]
  have happend := prefix_append_drops hsplit
  unfold Device.windowTlps at happend ⊢
  rw [Device.bench_set_self, hcarries, htlps, dropFirst_filter]
  unfold Bench.afterWindow
  dsimp only
  rw [dropFirst_filter, List.map_drop]
  simpa using happend

/-! ## A lent window -/

/-- Who borrowed last does not tell on the room of a window. -/
theorem Hub.windowRoom_borrower (h : Hub) (l k : Nat) (n : BenchId) :
    ((h.setLink l { h.link l with borrower := k }).creditsBack l n).windowRoom l n = (h.creditsBack l n).windowRoom l n := by
  have hspent : ((h.setLink l { h.link l with borrower := k }).link l).spentBy n.val = (h.link l).spentBy n.val := by
    rw [Hub.link_setLink_self]
    rfl
  unfold Hub.creditsBack
  rw [hspent]
  dsimp only
  split
  · unfold Hub.windowRoom
    rw [Hub.link_setLink_self]
    rfl
  · unfold Hub.windowRoom
    rw [Hub.link_setLink_self, Hub.link_setLink_self, Hub.link_setLink_self]
    rfl

theorem Bench.afterEvents_nil {b : Bench} (h : b.evq = []) : b.afterEvents [] = b := by
  cases b
  dsimp only at h
  subst h
  unfold Bench.afterEvents
  dsimp only
  rw [List.append_nil]

/-- A command of a bench that has no event to hand over. -/
theorem Device.run_of_no_events {d : Device} {n : BenchId} {f : Hub → Bench → Hub × Bench} {h : Hub} {b : Bench}
    (hf : f d.hub (d.bench n) = (h, b)) (hb : b.evq = []) : d.run n f = { d with hub := h, benches := d.benches.set n.val b } := by
  unfold Device.run
  rw [hf]
  dsimp only
  rw [hb, drainEvents, Bench.afterEvents_nil hb]

/-- The device with a window of bench `n` lent to bench `m`. -/
def Device.lent (d : Device) (l : Nat) (n m : BenchId) : Device :=
  { d with hub := d.hub.setLink l { d.hub.link l with borrower := m.val }
           benches := (d.benches.set n.val ((d.bench n).tick T.WHEEL_LENT)).set m.val ((d.bench m).tick T.WHEEL_BORROWED) }

theorem Device.lent_bench_borrower (d : Device) (l : Nat) (n m : BenchId) : (d.lent l n m).bench m = (d.bench m).tick T.WHEEL_BORROWED :=
  Device.bench_set_self ({ d with benches := d.benches.set n.val ((d.bench n).tick T.WHEEL_LENT) } : Device) _ _ _ _

theorem Device.lent_bench_ne (d : Device) (l : Nat) {n m j : BenchId} (h : j ≠ m) :
    (d.lent l n m).bench j = ({ d with benches := d.benches.set n.val ((d.bench n).tick T.WHEEL_LENT) } : Device).bench j :=
  Device.bench_set_ne ({ d with benches := d.benches.set n.val ((d.bench n).tick T.WHEEL_LENT) } : Device) _ _ _ h

theorem Device.borrower_ne {d : Device} {l : Nat} {n m : BenchId} (h : d.borrower l n = some m) : m ≠ n := by
  have hp := List.find?_some h
  simp only [Bool.and_eq_true, decide_eq_true_eq] at hp
  exact hp.1.1

/-- A window without TLPs goes to the next bound bench. -/
theorem Device.hostWindow_lent {d : Device} {l : Nat} {n m : BenchId} (hst : d.hub.linkState l = 2) (hempty : d.windowTlps l n = [])
    (hlend : (d.bench n).bound l = false ∨ d.hub.flag (R.pcr_BENCH_CTL_LEND_OK n.val) = true) (hb : d.borrower l n = some m)
    (hn : (d.bench n).evq = []) (hm : (d.bench m).evq = []) : d.hostWindow l n = (d.lent l n m).sendWindow l m := by
  have hne := Device.borrower_ne hb
  have hlent : d.run n (fun h b => (h, b.tick T.WHEEL_LENT)) = { d with benches := d.benches.set n.val ((d.bench n).tick T.WHEEL_LENT) } :=
    Device.run_of_no_events rfl hn
  have hbench : ({ d with benches := d.benches.set n.val ((d.bench n).tick T.WHEEL_LENT) } : Device).bench m = d.bench m :=
    Device.bench_set_ne d _ _ _ hne
  unfold Device.hostWindow
  rw [if_neg (by omega), if_neg (by omega), hempty, if_neg (by simp), if_neg (by obtain h | h := hlend <;> simp [h]), hb]
  dsimp only
  rw [hlent, Device.run_of_no_events (h := d.hub.setLink l { d.hub.link l with borrower := m.val }) (b := (d.bench m).tick T.WHEEL_BORROWED)
    (by rw [hbench]) hm]
  rfl

/-- A window that sends. -/
theorem Device.hostWindow_sends {d : Device} {l : Nat} {n : BenchId} (h : d.hub.linkState l = 1 ∨ d.hub.linkState l = 2 ∧ d.windowTlps l n ≠ []) :
    d.hostWindow l n = d.sendWindow l n := by
  unfold Device.hostWindow
  obtain h | ⟨h, hne⟩ := h
  · rw [if_pos h]
  · rw [if_neg (by omega), if_neg (by omega), if_pos (by simpa using hne)]

/-! ## The statement -/

theorem exec_hostWindowStart {p : HostPort} {k : Fin 2} {n : BenchId} {s : State} {d : Device} (h : s.dev.hostWindow (2 * p.val + k.val) n = d) :
    exec (.hostWindowStart p k n) s = .next { s with dev := d } := by
  subst h
  rfl

/-- Settles O39: a window is what leaves a prefix of the TLPs that wait; a lent one is the borrower's. -/
theorem hostWindows : Obligations.HostWindows := by
  refine ⟨fun p k n out own s hst hout hown => ?sends, fun p k n s hst hempty hbound hlend => ?idle,
    fun p k n m out own s hst hempty hlend hb hn hm hout hown => ?lent, fun p k n s hst => ?down⟩
  case sends =>
    obtain ⟨h, hd, hwire, -, hregs, hfns, hfw, -⟩ := s.dev.sendWindow_spec _ n hout hown
    have hwait := s.dev.windowTlps_sendWindow _ n hout
    have hbench : (s.dev.sendWindow (2 * p.val + k.val) n).bench n = (s.dev.bench n).afterWindow s.dev.hub (2 * p.val + k.val) own (out.take own) := by
      rw [hd, Device.bench_set_self]
    refine ⟨{ s with dev := s.dev.sendWindow (2 * p.val + k.val) n },
      exec_hostWindowStart (Device.hostWindow_sends hst), ⟨rfl, by rw [hd], fun m hm => ?_⟩, by rw [hd]; exact hwire,
      by rw [hd]; exact hregs, by rw [hd]; exact hfns, by rw [hd]; exact hfw, ?_, hwait⟩
    · dsimp only
      rw [hd]
      exact Device.bench_set_ne s.dev _ _ _ hm
    · dsimp only
      rw [hbench]
      rfl
  case idle =>
    refine exec_hostWindowStart (?_ : s.dev.hostWindow _ n = s.dev)
    unfold Device.hostWindow
    rw [if_neg (by omega), if_neg (by omega), hempty, if_neg (by simp), if_pos (by simp [hbound, hlend])]
  case lent =>
    have hne := Device.borrower_ne hb
    have hborrower := s.dev.lent_bench_borrower (2 * p.val + k.val) n m
    have htlps : (s.dev.lent (2 * p.val + k.val) n m).windowTlps (2 * p.val + k.val) m = s.dev.windowTlps (2 * p.val + k.val) m := by
      unfold Device.windowTlps
      rw [hborrower]
      rfl
    obtain ⟨h, hd, hwire, -, -, -, -, hlink⟩ := (s.dev.lent (2 * p.val + k.val) n m).sendWindow_spec (2 * p.val + k.val) m (out := out) (own := own)
      (by rw [htlps, hout]; exact congrArg (fun r => (sendFit r _).1) (s.dev.hub.windowRoom_borrower _ m.val m).symm)
      (by rw [hown, hborrower]; rfl)
    refine ⟨{ s with dev := (s.dev.lent (2 * p.val + k.val) n m).sendWindow (2 * p.val + k.val) m },
      exec_hostWindowStart (Device.hostWindow_lent hst hempty hlend hb hn hm), rfl, by rw [hd]; rfl, ?_, ?_, ?_, ?_,
      fun j hjn hjm => ?_⟩
    · dsimp only
      rw [hd]
      refine hwire.trans ?_
      rw [hborrower]
      rfl
    · dsimp only
      rw [hd]
      refine hlink.trans ?_
      unfold Device.lent
      dsimp only
      rw [Hub.link_setLink_self]
    · dsimp only
      rw [hd, Device.bench_set_ne _ _ _ _ hne.symm, Device.lent_bench_ne _ _ hne.symm]
      exact Device.bench_set_self s.dev _ _ _ _
    · dsimp only
      rw [hd, Device.bench_set_self, hborrower]
      exact Bench.tally_count_self (s.dev.bench m) T.WHEEL_BORROWED 1
    · dsimp only
      rw [hd, Device.bench_set_ne _ _ _ _ hjm, Device.lent_bench_ne _ _ hjm]
      exact Device.bench_set_ne s.dev _ _ _ hjn
  case down =>
    refine exec_hostWindowStart (?_ : s.dev.hostWindow _ n = s.dev)
    unfold Device.hostWindow
    rw [if_neg (by omega), if_pos (by omega)]

end Sys2Proof.Machine
end

section
/-! O38: the states of the host links. -/
namespace Sys2Proof.Machine

/-- The credits of link 0 that a command leaves as consumed. -/
def spentAfter (o : Host.Outcome State Fault Refusal) : Option (List (Nat × Credits)) :=
  match o with
  | .next t => some (t.dev.hub.link 0).spent
  | _ => none

/-- The device with link 0 in training, of whose credits bench 0 once consumed one. -/
def creditedState : State :=
  { State.reset with dev := { State.reset.dev with
    hub := State.reset.dev.hub.setLink 0 { LinkSt.idle with training := true, spent := [(0, { ph := 1, nph := 0, pd := 0 })] } } }

/-- Credits that a partner advertises anew are consumed by nobody. -/
theorem spentAfter_linkL0 : spentAfter (exec (.linkL0 0 0 true 1 1 0 0 0 0) creditedState) = some [] := by decide

/-- Refutes O38: a link that reaches L0 also forgets the credits that were consumed before, which the statement says it keeps. -/
theorem not_linkStates : ¬ Obligations.LinkStates := by
  unfold Obligations.LinkStates
  rintro ⟨-, -, -, -, hl0, -⟩
  obtain ⟨t, he, -, -, -, -, -, -, hlink, -, -⟩ := hl0 0 0 1 1 0 0 0 0 creditedState (by decide) (by decide) (by decide) (by decide)
  have hkept : spentAfter (exec (.linkL0 0 0 true 1 1 0 0 0 0) creditedState) = some [(0, { ph := 1, nph := 0, pd := 0 })] := by
    rw [he]
    exact congrArg (fun x : LinkSt => some x.spent) hlink
  rw [spentAfter_linkL0] at hkept
  exact absurd hkept (by decide)

end Sys2Proof.Machine
end

section
/-! O41: functions silenced and reset; PERST#. -/
namespace Sys2Proof.Machine

/-- The state of link 0 that a command leaves. -/
def linkAfter (o : Host.Outcome State Fault Refusal) : Option Nat :=
  match o with
  | .next t => some (t.dev.hub.linkState 0)
  | _ => none

/-- The device at reset, with PERST# high and an event of bench 0 waiting whose flag in FM_STATUS (R527) falls on STATE of link 0's
LINK_STATUS. -/
def strayEventState : State :=
  { State.reset with dev := { State.reset.dev with
    hub := { State.reset.dev.hub with fw := { State.reset.dev.hub.fw with perst := [] } }
    benches := State.reset.dev.benches.set 0 { State.reset.dev.bench 0 with evq := [32 * 0x3FFC4] } } }

/-- Its flag is set as the claims of the port are removed, after the links have been set DOWN. -/
theorem linkAfter_perstAssert : linkAfter (exec (.perstAssert 0) strayEventState) = some 1 := by decide

/-- Refutes O41: an event that waits in a bench, and whose number is none of the event list's, can set a bit of LINK_STATUS in that command. -/
theorem not_functionsSilencedAndReset : ¬ Obligations.FunctionsSilencedAndReset := by
  unfold Obligations.FunctionsSilencedAndReset
  rintro ⟨-, -, -, -, -, -, -, -, -, -, -, hperst, -⟩
  obtain ⟨t, he, -, -, -, hdown, -⟩ := hperst 0 strayEventState (by decide)
  have h : linkAfter (exec (.perstAssert 0) strayEventState) = some 0 := by
    rw [he]
    exact congrArg some hdown
  rw [linkAfter_perstAssert] at h
  exact absurd h (by decide)

end Sys2Proof.Machine
end

section
/-! O57: the sealing engine, among the security commands. -/
namespace Sys2Proof.Machine

/-- The count of unwraps that failed their check, after a command. -/
def authFailsAfter (o : Host.Outcome State Fault Refusal) : Option Nat :=
  match o with
  | .next t => some (t.dev.hub.tally T.UNWRAP_AUTH_FAIL)
  | _ => none

/-- The device with an unwrap in progress that has failed its check, while a blown lifecycle bit waits for the reset. -/
def pendingUnwrapState : State :=
  { State.reset with dev := { State.reset.dev with
    hub := State.reset.dev.hub.updFw (fun w =>
      { w with sealing := some { op := 2, result := 1, out := [], key := [] }, pendingLc := true }) } }

/-- With PENDING set the unwrap ends as NO_KEK (R496), and no failed check is counted. -/
theorem authFailsAfter_sealResult : authFailsAfter (exec .sealResult pendingUnwrapState) = some 0 := by decide

/-- Refutes O57: while PENDING is set an unwrap ends with RESULT 2, whatever result its checks gave. -/
theorem not_securityCommands : ¬ Obligations.SecurityCommands := by
  unfold Obligations.SecurityCommands
  rintro ⟨-, -, -, -, -, -, -, -, -, -, -, -, -, -, -, -, -, -, -, hresult, -⟩
  have hend := hresult { op := 2, result := 1, out := [], key := [] } pendingUnwrapState rfl (.inr (by decide))
  unfold LeavesHub at hend
  have hcount : authFailsAfter (exec .sealResult pendingUnwrapState) = some 1 := by
    rw [hend]
    decide
  rw [authFailsAfter_sealResult] at hcount
  exact absurd hcount (by decide)

end Sys2Proof.Machine
end

section
/-! O54: BENCH_STOP, among the Sceune commands of a bench. -/
namespace Sys2Proof.Machine

/-- A BENCH_STOP of bench 0, with a drain limit of 1 µs, that Ryuner has accepted from PF mailbox 0. -/
def stopCommand : Sceune :=
  { id := 0, mbx := 0, admin := false, cmdId := 0, opcode := 0x011, ops := [0, 1], asked := 0, parts := [], failed := false
    data := [], sqPos := (0, 0), begun := false, dead := false }

/-- Bench 0 RUNNING, its DRAM to be retained by its last stop though DRAM_RETAIN is 0 now. -/
def retainedState : State :=
  { State.reset with dev := { State.reset.dev with
    hub := { State.reset.dev.hub with fw := { State.reset.dev.hub.fw with
      por := false, hubUp := true, image := some { svn := 0, version := 0, measurement := 0 }, managers := [fnKey 0 false 0]
      cmds := [stopCommand] } }
    benches := State.reset.dev.benches.set 0 { State.reset.dev.bench 0 with
      power := { (State.reset.dev.bench 0).power with st := .running, retain := true } } } }

/-- Whether bench 0's DRAM is retained by its stop, after a command. -/
def retainAfter (o : Host.Outcome State Fault Refusal) : Option Bool :=
  match o with
  | .next t => some (t.dev.bench 0).power.retain
  | _ => none

/-- The stop fixes anew whether the DRAM is retained (R48). -/
theorem retainAfter_benchStop : retainAfter (exec (.benchStop 0 false) retainedState) = some false := by decide

/-- Ryuner comes to the command, and its general checks pass. -/
theorem taken_stopCommand : Taken retainedState 0 0x011 [] stopCommand := by
  refine ⟨by decide, by decide, rfl, fun r hr => ?_⟩
  obtain rfl := Option.some.inj hr.symm
  exact ⟨by decide, by decide⟩

/-- Refutes O54: BENCH_STOP of a RUNNING bench changes more of it than its state and the drain limit: it fixes RETAIN (R48). -/
theorem not_sceuneCommandsOfABench : ¬ Obligations.SceuneCommandsOfABench := by
  unfold Obligations.SceuneCommandsOfABench
  rintro ⟨-, -, -, -, -, hstop, -⟩
  have hgoes := hstop 0 stopCommand retainedState taken_stopCommand (by decide)
  unfold Goes at hgoes
  have hkept : retainAfter (exec (.benchStop 0 false) retainedState) = some true := by
    rw [hgoes]
    decide
  rw [retainAfter_benchStop] at hkept
  exact absurd hkept (by decide)

end Sys2Proof.Machine
end

section
/-! O56: tally snapshots, among the register accesses. -/
namespace Sys2Proof.Machine

/-- The device in reset, with bench 0 RUNNING. -/
def hubDownState : State :=
  { State.reset with dev := { State.reset.dev with
    benches := State.reset.dev.benches.set 0 { State.reset.dev.bench 0 with
      power := { (State.reset.dev.bench 0).power with st := .running } } } }

/-- The tally that the Foreman's snapshot pair of bench 0 selects, after a command. -/
def selectedAfter (o : Host.Outcome State Fault Refusal) : Option Word :=
  match o with
  | .next t => some ((t.dev.bench 0).reg (R.err_TALLY_SEL 8))
  | _ => none

/-- While the hub is down nothing is selected. -/
theorem selectedAfter_tallySnapshot : selectedAfter (exec (.tallySnapshot .foreman (some 0) 1#32 0#32) hubDownState) = some 0#32 := by
  decide

/-- Refutes O56: the clause on a snapshot of a live bench's tallies does not ask that the hub be up, and with the hub down no access is made. -/
theorem not_registerAccesses : ¬ Obligations.RegisterAccesses := by
  unfold Obligations.RegisterAccesses
  rintro ⟨-, -, -, -, -, -, -, -, hsnap, -⟩
  obtain ⟨t, he, -, -, l, hbench⟩ := hsnap 1#32 0#32 0 hubDownState (by decide)
  have hselected : selectedAfter (exec (.tallySnapshot .foreman (some 0) 1#32 0#32) hubDownState) = some 1#32 := by
    rw [he]
    change some ((t.dev.bench 0).reg (R.err_TALLY_SEL 8)) = some 1#32
    rw [hbench, Bench.afterEvents_reg]
    decide
  rw [selectedAfter_tallySnapshot] at hselected
  exact absurd hselected (by decide)

end Sys2Proof.Machine
end

section
/-! O53: the Sceune commands of the device as a whole (R486, R489, R490). -/
namespace Sys2Proof.Machine

section
variable {i : Instr} {s : State} {m op : Nat} {l : List Byte} {c : Sceune} {r : CmdRow} {d : Device} {code : Nat} {res : List Nat}

/-- A command on the hub that is taken ends with what its part answered. -/
theorem ends_of_hub {f : Sceune → Hub → Nat × List Nat × Hub} {h : Hub} (he : exec i s = s.onSceuneHub m op f) (ht : Taken s m op l c)
    (hr : cmdRow op = some r) (hf : f c s.dev.hub = (code, res, h)) : Ends i s c { s.dev with hub := h } code res :=
  ends_of_taken he ht hr (by simp only [Device.onHubCmd, hf])

/-- A command that may have to wait, and need not, ends with what its part answered. -/
theorem ends_of_held {hold : Sceune → Device → Bool} {f : Sceune → List Byte → Device → Ran}
    (he : exec i s = s.onSceuneHeld m op false hold f) (ht : Taken s m op l c) (hr : cmdRow op = some r) (hh : hold c s.dev = false)
    (hf : f c l s.dev = ⟨code, res, d, false⟩) : Ends i s c d code res := by
  unfold Ends
  rw [he, State.onSceuneHeld, sceune_of_taken ht hr hh, hf, if_neg Bool.false_ne_true]

/-- A command that has to wait changes nothing. -/
theorem idles_of_held {hold : Sceune → Device → Bool} {f : Sceune → List Byte → Device → Ran}
    (he : exec i s = s.onSceuneHeld m op false hold f) (ht : Taken s m op l c) (hr : cmdRow op = some r) (hh : hold c s.dev = true) :
    Idles i s := by
  obtain ⟨hry, hturn, hnew, hgeneral⟩ := ht
  obtain ⟨hcode, hdata⟩ := hgeneral r hr
  unfold Idles
  rw [he]
  cases haddr : r.haddr with
  | none =>
    simp only [State.onSceuneHeld, Device.sceune, hry, hturn, hr, hnew, hcode, haddr, hh, Bool.not_true, Bool.false_eq_true, if_false, if_true]
  | some k =>
    simp only [haddr, Option.isSome_some, if_true] at hdata
    simp only [State.onSceuneHeld, Device.sceune, hry, hturn, hr, hnew, hcode, haddr, hdata.1, hh, Bool.not_true, Bool.false_eq_true,
      if_false, if_true]

end

/-! ## The parts of the commands -/

/-- One tally is read. -/
theorem tallyReadCmd_one {c : Sceune} {d : Device} (h1 : c.w 1 = 0) (h2 : c.w 2 = 1) :
    tallyReadCmd c d = match d.tallyOf (c.w 0) with
      | some v => ⟨0, [v % 2 ^ 32, v / 2 ^ 32], d, false⟩
      | none => .refuse rcNotFound d := by
  have hlt : c.w 0 % 2 ^ 14 < 2 ^ 14 := by omega
  unfold tallyReadCmd
  simp only [h1, h2, List.range_one, List.map_cons, List.map_nil, hlt, if_true, Nat.add_zero, ne_eq, not_true_eq_false, if_false]
  cases d.tallyOf (c.w 0) <;> rfl

/-- A session of an engine in the mask closes. -/
theorem Device.dbgClose_of_bit {d : Device} {k : Nat} (hk : k < 15) (h : bit (d.hub.fld R.dbg_DBG_SESSION_ENGINE_MASK) k = true) :
    (d.dbgClose k).1 = 0 := by
  have hne : k ≠ 15 := by omega
  simp only [Device.dbgClose, hne, h, if_false, if_true]

/-- With no FULL session there is none to close. -/
theorem Device.dbgClose_of_closed {d : Device} (h : d.hub.flag R.dbg_DBG_SESSION_FULL = false) : (d.dbgClose 15).1 = 3 := by
  simp only [Device.dbgClose, h, if_true, Bool.false_eq_true, if_false]

/-- The part of KEY_LOAD by the RESULT of the sealing engine. -/
theorem Device.keyLoad_eq {c : Sceune} {l : List Byte} {d : Device} {kind i : Nat} {r : Nat × Device}
    (hkind : kind = getBits (c.w 1) 16 1) (hi : i = getBits (c.w 1) 0 14) (hr : r = d.sealFor c.bench kind i (slice l 0 (c.w 4))) :
    Device.keyLoad c l d = match r.1 with
      | 0 => .done (r.2.run c.bench (fun h b => (h, h.archive c.bench kind i (slice l 0 (c.w 4)) b)))
      | 1 => .refuse rcAuthFail { r.2 with hub := r.2.hub.raise 666 }
      | 4 => .refuse rcBadOperand r.2
      | _ => .refuse rcWrongState r.2 := by
  subst hkind hi hr
  rfl

/-- The part of a token that opens a FULL session. -/
theorem Device.debugOpenCmd_full {c : Sceune} {l : List Byte} {d : Device} {h' : Hub}
    (hh : h' = (List.range 40).foldl (fun h w => h.setReg (R.dbg_DBG_TOKEN w) (BitVec.ofNat 32 (leNat (slice (slice l 0 160) (4 * w) 4)))) d.hub)
    (ha : h'.dbgAnswers = true) (ht : tokType (slice l 0 160) = 2) (hl : getBits (c.w 0) 4 2 = 2) :
    Device.debugOpenCmd c l d = Device.dbgDone (({ d with hub := h' } : Device).dbgOpen (slice l 0 160)) := by
  subst hh
  simp only [Device.debugOpenCmd, ha, ht, hl, Bool.not_true, Bool.false_eq_true, if_false, ne_eq, not_true_eq_false, decide_false,
    Bool.false_and, Bool.or_false, OfNat.ofNat_ne_one]

/-- The last manager is not revoked. -/
theorem filter_ne_of_forall_eq {l : List Nat} {k : Nat} (h : ∀ x ∈ l, x = k) : l.filter (· ≠ k) = [] :=
  List.filter_eq_nil_iff.mpr (fun x hx => by simp [h x hx])

/-- A namespace whose key is among the names is there. -/
theorem any_key_of_mem {l : List (Nat × Bool × Nat)} {x : Nat × Bool × Nat} {key : Nat} (hx : x ∈ l) (hk : x.1 = key) :
    l.any (fun y => y.1 = key) = true := List.any_eq_true.mpr ⟨x, hx, decide_eq_true hk⟩

/-- A namespace whose key is not among the names is not there. -/
theorem any_key_of_forall_ne {l : List (Nat × Bool × Nat)} {key : Nat} (h : ∀ x ∈ l, x.1 ≠ key) : l.any (fun y => y.1 = key) = false :=
  List.any_eq_false.mpr (fun x hx => by simp [h x hx])

/-! ## The statement -/

/-- Settles O53: each command ends with what its part answers, by the row of its opcode. -/
theorem sceuneCommandsOfTheDevice : Obligations.SceuneCommandsOfTheDevice := by
  unfold Obligations.SceuneCommandsOfTheDevice
  refine ⟨?identify, ?notice, ?noNotice, ?adminCreate, ?adminExists, ?adminDestroy, ?managerGrant, ?managerLast, ?eventRoute, ?tally, ?noTally,
    ?debugOpen, ?debugNotFound, ?debugClose, ?attest, ?attestOpened, ?keyWaits, ?keyLoad, ?nsCreate, ?nsDelete, ?nsNotFound⟩
  case identify => exact fun m c s ht => ends_of_taken rfl ht rfl rfl
  case notice =>
    intro m c r t s ht hn
    exact ends_of_hub rfl ht rfl (by simp only [Hub.noticeGet, hn])
  case noNotice =>
    intro m c s ht hn
    exact ends_of_hub rfl ht rfl (by simp only [Hub.noticeGet, hn])
  case adminCreate =>
    intro m c s ht ha hv
    exact ends_of_hub rfl ht rfl (by
      simp only [Machine.adminCreate, ha, Option.isSome_none, Bool.false_eq_true, if_false, Nat.not_le.mpr hv])
  case adminExists =>
    intro m c a s ht ha
    exact ends_of_hub rfl ht rfl (by simp only [Machine.adminCreate, ha, Option.isSome_some, if_true])
  case adminDestroy =>
    intro m c a s ht hc ha
    exact ends_of_hub rfl ht rfl (by simp only [Machine.adminDestroy, hc, ha, Option.isNone_some, Bool.false_eq_true, if_false])
  case managerGrant =>
    rintro m key c s ht rfl hf hb hn
    exact ends_of_hub rfl ht rfl (by
      simp only [managerSet, hf, hb, Bool.not_true, Bool.false_eq_true, if_false, if_true, List.contains_iff_mem, hn] <;> rfl)
  case managerLast =>
    rintro m key c s ht rfl hf hb hl
    exact ends_of_hub rfl ht rfl (by
      simp only [managerSet, hf, hb, filter_ne_of_forall_eq hl, List.isEmpty_nil, Bool.not_true, Bool.false_eq_true, if_false, if_true])
  case eventRoute =>
    intro m c s ht he hr hf hv
    exact ends_of_hub rfl ht rfl (by
      simp only [Machine.eventRoute, hr, hf, Nat.not_le.mpr he, Nat.not_le.mpr hv, Bool.not_true, Bool.false_eq_true, decide_false,
        Bool.or_self, if_false])
  case tally =>
    intro m v c s ht h1 h2 hv
    exact ends_of_taken rfl ht rfl (by simp only [tallyReadCmd_one h1 h2, hv])
  case noTally =>
    intro m c s ht h1 h2 hv
    exact ends_of_taken rfl ht rfl (by simp only [tallyReadCmd_one h1 h2, hv, Ran.refuse])
  case debugOpen =>
    intro m c l h' s ht hh ha htok hl
    exact ends_of_taken rfl ht rfl ((Device.debugOpenCmd_full hh ha htok hl).trans rfl)
  case debugNotFound =>
    intro m c s ht hw hf
    exact ends_of_taken rfl ht rfl (by simp only [hw, Device.dbgDone, Device.dbgClose_of_closed hf, debugCode])
  case debugClose =>
    intro m k c s ht hw hk hb
    exact ends_of_taken rfl ht rfl (by simp only [hw, Device.dbgDone, Device.dbgClose_of_bit hk hb, debugCode, rcOk])
  case attest =>
    intro m c s ht ho hs
    exact ends_of_hub rfl ht rfl (by simp only [ho, hs, Bool.not_true, Bool.or_self, Bool.false_eq_true, if_false])
  case attestOpened =>
    intro m c s ht ho
    exact ends_of_hub rfl ht rfl (by simp only [ho, Bool.true_or, if_true])
  case keyWaits => exact fun m c l s ht hb => idles_of_held rfl ht rfl hb
  case keyLoad =>
    intro m kind i c l r s ht hsealing hkind hi hr
    have hidle : s.dev.hub.fw.sealing.isSome = false := by rw [hsealing]; rfl
    have hpart := Device.keyLoad_eq hkind hi hr
    refine ⟨fun h => ?_, fun h => ?_, fun h => ?_, fun h => ?_⟩
    · exact ends_of_held rfl ht rfl hidle (by rw [hpart, h]; rfl)
    · exact ends_of_held rfl ht rfl hidle (by rw [hpart, h]; rfl)
    · obtain h | h := h
      · exact ends_of_held rfl ht rfl hidle (by rw [hpart, h]; rfl)
      · exact ends_of_held rfl ht rfl hidle (by rw [hpart, h]; rfl)
    · exact ends_of_held rfl ht rfl hidle (by rw [hpart, h]; rfl)
  case nsCreate =>
    rintro m key c s ht hl hp rfl hn
    have hplace : (!bit (c.w 1) 6 && (decide (s.dev.hub.fw.part = .nf) || !(s.dev.bench c.bench).power.flashEn)) = false := by
      obtain h | ⟨h1, h2⟩ := hp
      · rw [h]; rfl
      · rw [decide_eq_false h1, h2, Bool.not_true, Bool.or_self, Bool.and_false]
    exact ends_of_taken rfl ht rfl (by
      simp only [hl, hplace, any_key_of_forall_ne hn, Bool.not_true, Bool.false_eq_true, if_false, Ran.done, Hub.updFw])
  case nsDelete =>
    rintro m key c x s ht rfl hx hk
    exact ends_of_taken rfl ht rfl (by
      simp only [any_key_of_mem hx hk, Bool.not_true, Bool.false_eq_true, if_false, Ran.done, Hub.updFw])
  case nsNotFound =>
    rintro m key c s ht rfl hn
    exact ends_of_taken rfl ht rfl (by
      simp only [any_key_of_forall_ne hn, Bool.not_false, if_true, Ran.refuse])

end Sys2Proof.Machine
end

section
/-! O55: the Sceune commands of claims, windows, rings and NVMe controllers (R338, R362, R363, R383, R419). -/
namespace Sys2Proof.Machine

section
variable {i : Instr} {s : State} {m op : Nat} {c : Sceune} {r : CmdRow} {n : BenchId} {f : Sceune → Hub → Bench → CmdOut}
  {code : Nat} {res : List Nat} {h : Hub} {b : Bench}

/-- A taken command whose part acts on its live bench ends with what the part answered. -/
theorem ends_of_live (he : exec i s = s.onSceune m op false (fun c _ d => d.onLiveCmd c.bench (f c))) (ht : Taken s m op [] c)
    (hn : n = c.bench) (hl : (s.dev.bench n).live = true) (hr : cmdRow op = some r)
    (hf : f c s.dev.hub (s.dev.bench n) = ⟨code, res, h, b, false⟩) : Ends i s c (s.dev.put n (h, b)) code res := by
  subst hn
  exact ends_of_taken he ht hr (Device.onLiveCmd_live hl hf)

/-- A taken command of two steps whose first step on its live bench goes on has begun. -/
theorem goes_of_live (he : exec i s = s.onSceune m op false (fun c _ d => if c.begun then .going d else d.onLiveCmd c.bench (f c)))
    (ht : Taken s m op [] c) (hn : n = c.bench) (hl : (s.dev.bench n).live = true) (hr : cmdRow op = some r)
    (hf : f c s.dev.hub (s.dev.bench n) = ⟨code, res, h, b, true⟩) : Goes i s c (s.dev.put n (h, b)) [] := by
  subst hn
  obtain ⟨-, -, hnew, -⟩ := id ht
  exact goes_of_taken he ht hr (by rw [hnew, if_neg Bool.false_ne_true]; exact Device.onLiveCmd_live hl hf)

/-- A taken command of two steps that its first step refuses ends. -/
theorem ends_of_first (he : exec i s = s.onSceune m op false (fun c _ d => if c.begun then .going d else d.onLiveCmd c.bench (f c)))
    (ht : Taken s m op [] c) (hn : n = c.bench) (hl : (s.dev.bench n).live = true) (hr : cmdRow op = some r)
    (hf : f c s.dev.hub (s.dev.bench n) = ⟨code, res, h, b, false⟩) : Ends i s c (s.dev.put n (h, b)) code res := by
  subst hn
  obtain ⟨-, -, hnew, -⟩ := id ht
  exact ends_of_taken he ht hr (by rw [hnew, if_neg Bool.false_ne_true]; exact Device.onLiveCmd_live hl hf)

end

/-! ## Claims -/

section
variable {n : BenchId} {i : Nat} {k : Claim} {h : Hub} {b : Bench}

/-- CLAIM_CREATE of a PF's claim that fits takes a free index. -/
theorem claimCreateCmd_of_fits {c : Sceune} (hst : b.power.st = .running) (ha : h.archives c.bench b = false)
    (hbad : Bench.claimBad h b c.ops = false) (hk : k = claimOf c.ops) (hp : h.pairTaken k.fn k.pasid = false)
    (hm : b.rings.claims.any (fun x => rangesMeet k.ringBase k.ringCount x.2.ringBase x.2.ringCount ||
      rangesMeet k.pageBase k.pages x.2.pageBase x.2.pages) = false)
    (hi : b.freeClaim = some i) (hf : fnVf k.fn = false) :
    claimCreateCmd c h b = ⟨0, [256 * c.bench.val + i],
      h.setMbx (16 + (256 * c.bench.val + i)) { Mailbox.reset true k.fn k.pasid with fn := k.fn },
      { b.spent with rings := { b.rings with claims := b.rings.claims ++ [(i, k)] } }, false⟩ := by
  subst hk
  simp only [claimCreateCmd, claimCreate, hst, ha, hbad, hp, hm, hi, hf, Bool.false_and, Bool.false_eq_true, ne_eq, not_true_eq_false,
    if_false]

/-- CLAIM_QUIESCE of an ACTIVE claim goes on. -/
theorem claimQuiesce_of_active {limit : Nat} (hc : b.claim? i = some k) (hst : k.st = 1) (hl : limit ≠ 0) :
    claimQuiesce i limit h b = ⟨0, [], h, (b.updClaim i (fun x => { x with st := 2, limit := limit })).judgeHeld, true⟩ := by
  simp only [claimQuiesce, hc, hl, hst, ne_eq, not_true_eq_false, if_false]

/-- Of any other claim it is refused. -/
theorem claimQuiesce_of_other {limit : Nat} (hc : b.claim? i = some k) (hst : k.st ≠ 1) (hl : limit ≠ 0) :
    claimQuiesce i limit h b = ⟨rcWrongState, [], h, b.tick T.CLAIM_CMD_REFUSED, false⟩ := by
  simp only [claimQuiesce, hc, hl, hst, ne_eq, not_false_eq_true, if_false, if_true, claimRefused, CmdOut.refuse]

/-- CLAIM_RESUME of a QUIESCED claim. -/
theorem claimResume_of_quiesced (hc : b.claim? i = some k) (hst : k.st = 3) :
    claimResume i h b = ⟨0, [], h, b.updClaim i (fun x => { x with st := 1 }), false⟩ := by
  simp only [claimResume, hc, hst, ne_eq, not_true_eq_false, if_false, CmdOut.done]

/-- Of any other claim it is refused. -/
theorem claimResume_of_other (hc : b.claim? i = some k) (hst : k.st ≠ 3) :
    claimResume i h b = ⟨rcWrongState, [], h, b.tick T.CLAIM_CMD_REFUSED, false⟩ := by
  simp only [claimResume, hc, hst, ne_eq, not_false_eq_true, if_true, claimRefused, CmdOut.refuse]

/-- CLAIM_RESET of a claim goes on. -/
theorem claimReset_of_claim (hc : b.claim? i = some k) :
    claimReset i h b = ⟨0, [], (resetClaim i h b).1, (resetClaim i h b).2, true⟩ := by
  simp only [claimReset, hc]

/-- CLAIM_REMOVE of a QUIESCED claim of a PF. -/
theorem claimRemove_of_quiesced {b' : Bench} (hc : b.claim? i = some k) (hst : k.st = 3) (hf : fnVf k.fn = false)
    (hb : b' = (k.rings.filter (fun r => b.ringKind r ≠ 0)).foldl Bench.freeRing b) :
    claimRemove n i h b = ⟨0, [], h.freeMbx (16 + 256 * n.val + i),
      { b' with rings := { b'.rings with claims := b'.rings.claims.filter (fun x => x.1 ≠ i) } }, false⟩ := by
  subst hb
  simp only [claimRemove, hc, hst, hf, ne_eq, not_true_eq_false, Bool.false_eq_true, if_false, CmdOut.done]

/-- Of any other claim it is refused. -/
theorem claimRemove_of_other (hc : b.claim? i = some k) (hst : k.st ≠ 3) :
    claimRemove n i h b = ⟨rcWrongState, [], h, b.tick T.CLAIM_CMD_REFUSED, false⟩ := by
  simp only [claimRemove, hc, hst, ne_eq, not_false_eq_true, if_true, claimRefused, CmdOut.refuse]

/-- CLAIM_SET_SHARE within its ranges. -/
theorem claimSetShare_of_ranges {t f : Nat} (hc : b.claim? i = some k) (ht1 : 1 ≤ t) (ht2 : t ≤ 1024) (hf1 : 1 ≤ f) (hf2 : f < 256) :
    claimSetShare i (t + 2 ^ 16 * f) h b = ⟨0, [], h, (b.updClaim i (fun x => { x with tagLimit := t, weight := f })).judgeHeld, false⟩ := by
  have htag : getBits (t + 2 ^ 16 * f) 0 11 = t := by unfold getBits; omega
  have hweight : getBits (t + 2 ^ 16 * f) 16 8 = f := by unfold getBits; omega
  have hlow : getBits (t + 2 ^ 16 * f) 11 5 = 0 := by unfold getBits; omega
  have hhigh : getBits (t + 2 ^ 16 * f) 24 8 = 0 := by unfold getBits; omega
  have ht : t ≠ 0 := by omega
  have hf : f ≠ 0 := by omega
  simp only [claimSetShare, hc, htag, hweight, hlow, hhigh, ht, hf, Nat.not_lt.mpr ht2, ne_eq, not_true_eq_false, decide_false, Bool.or_self,
    Bool.false_eq_true, if_false, CmdOut.done]

end

/-! ## Rings -/

section
variable {n : BenchId} {r i : Nat} {k : Claim} {h : Hub} {b : Bench}

/-- RING_CREATE of a send ring writes its context. -/
theorem ringCreate_of_send {ops : List Nat} (hr : r = getBits (ops.getD 0 0) 0 14) (ho : b.ringOwner r = some (i, k))
    (hfree : b.ringKind r = 0) (hbad : Bench.ringBad h b k ops = false) (hkind : getBits (ops.getD 0 0) 20 4 = 1) :
    ringCreate ops h b = ⟨0, [], h, b.setBytes (ringAddr r) ([ops.getD 1 0, ops.getD 2 0,
      1 + 2 ^ 4 * getBits (ops.getD 0 0) 24 4 + 2 ^ 8 + 2 ^ 10 * i + 2 ^ 18 * getBits (ops.getD 4 0) 16 12,
      getBits (ops.getD 3 0) 0 14 + 2 ^ 14 + 2 ^ 19 * getBits (ops.getD 3 0) 16 4, 2 ^ 16, 2 ^ 16, 0, 0].flatMap (leBytes 4)), false⟩ := by
  subst hr
  simp only [ringCreate, ho, hfree, hbad, hkind, ne_eq, not_true_eq_false, if_false, if_true, Bool.false_eq_true, OfNat.one_ne_ofNat,
    decide_false, Bool.or_self, Bool.false_and, Nat.add_zero, CmdOut.done]

/-- Of a ring that is not FREE it is refused. -/
theorem ringCreate_of_exists {ops : List Nat} (hr : r = getBits (ops.getD 0 0) 0 14) (ho : b.ringOwner r = some (i, k))
    (hused : b.ringKind r ≠ 0) : ringCreate ops h b = ⟨rcExists, [], h, b, false⟩ := by
  subst hr
  simp only [ringCreate, ho, hused, ne_eq, not_false_eq_true, if_true, CmdOut.refuse]

/-- A send or receive ring is no completion ring. -/
theorem ringCpl_of_work (hk : b.ringKind r = 1 ∨ b.ringKind r = 2) : b.ringCpl r = false := by
  unfold Bench.ringCpl
  obtain hk | hk := hk <;> rw [hk] <;> rfl

/-- A ring keeps its kind as it is started. -/
theorem ringKind_started (r i : Nat) (b : Bench) :
    (((b.setRingState r 2).setMbits (ringAddr r) 188 4 0).startedRing i r).ringKind r = b.ringKind r := by
  have hstate : ((b.setRingState r 2).setMbits (ringAddr r) 188 4 0).ringKind r = (b.setRingState r 2).ringKind r :=
    Bench.mbits_setMbits_apart _ _ _ _ _ _ _ (by unfold BytesApart; decide)
  have hkind : (b.setRingState r 2).ringKind r = b.ringKind r :=
    Bench.mbits_setMbits_apart _ _ _ _ _ _ _ (by unfold BytesApart; decide)
  exact (Bench.mbits_of_mem rfl _ _ _).trans (hstate.trans hkind)

/-- RING_START of a STOPPED send or receive ring of an ACTIVE claim. -/
theorem ringStart_of_stopped (ho : b.ringOwner r = some (i, k)) (hk : b.ringKind r = 1 ∨ b.ringKind r = 2) (hst : b.ringState r = 1)
    (hact : k.st = 1) (hm : h.masters k = true) (hreset : k.mustReset.contains r = false) :
    ringStart n r false h b = ⟨0, [], h, (((b.setRingState r 2).setMbits (ringAddr r) 188 4 0).startedRing i r).judgeHeld, false⟩ := by
  have hcpl : b.ringCpl r = false := ringCpl_of_work hk
  have hkind : b.ringKind r ≠ 0 := by omega
  have hcpl' : (((b.setRingState r 2).setMbits (ringAddr r) 188 4 0).startedRing i r).ringCpl r = false :=
    ringCpl_of_work (by rwa [ringKind_started])
  simp only [ringStart, ho, hcpl, hcpl', hkind, hst, hact, hm, hreset, ne_eq, not_true_eq_false, Bool.not_true, Bool.false_and, decide_false,
    Bool.or_self, Bool.false_eq_true, if_false, CmdOut.done, OfNat.one_ne_ofNat, one_ne_zero]

/-- Of a ring that runs it is refused. -/
theorem ringStart_of_running {reset : Bool} (ho : b.ringOwner r = some (i, k)) (hst : b.ringState r = 2) :
    ringStart n r reset h b = ⟨rcWrongState, [], h, b.tick T.RING_CMD_REFUSED, false⟩ := by
  simp only [ringStart, ho, hst, decide_true, Bool.or_true, Bool.true_or, if_true, ringRefused, CmdOut.refuse]

/-- RING_STOP of a RUNNING ring. -/
theorem ringStop_of_running (hk : b.ringKind r ≠ 0) (hst : b.ringState r = 2) :
    ringStop r h b = ⟨0, [], h, (b.setRingState r 1).judgeHeld, false⟩ := by
  simp only [ringStop, hk, hst, Nat.lt_irrefl, decide_false, Bool.or_self, Bool.false_eq_true, if_false, CmdOut.done]

/-- Of a STOPPED one it is refused. -/
theorem ringStop_of_stopped (hst : b.ringState r = 1) :
    ringStop r h b = ⟨rcWrongState, [], h, b.tick T.RING_CMD_REFUSED, false⟩ := by
  simp only [ringStop, hst, Nat.one_lt_ofNat, decide_true, Bool.or_true, if_true, ringRefused, CmdOut.refuse]

/-- RING_DESTROY of a STOPPED ring that is no completion ring. -/
theorem ringDestroy_of_stopped (hk : b.ringKind r ≠ 0) (hcpl : b.ringCpl r = false) (hst : b.ringState r = 1) :
    ringDestroy r h b = ⟨0, [], h, (b.freeRing r).judgeHeld, false⟩ := by
  simp only [ringDestroy, hk, hcpl, hst, Bool.false_and, decide_false, Bool.or_self, Bool.false_eq_true, if_false, CmdOut.done,
    OfNat.one_ne_ofNat]

/-- Of a ring that runs it is refused. -/
theorem ringDestroy_of_running (hst : b.ringState r = 2) :
    ringDestroy r h b = ⟨rcWrongState, [], h, b.tick T.RING_CMD_REFUSED, false⟩ := by
  simp only [ringDestroy, hst, decide_true, Bool.or_true, Bool.true_or, if_true, ringRefused, CmdOut.refuse]

/-- RING_SET_STEP of a send ring. -/
theorem ringSetStep_of_send {x : Nat} (h1 : 1 ≤ x) (h2 : x ≤ 19) (hk : b.ringKind r = 1) :
    ringSetStep r x h b = ⟨0, [], h, b.setMbits (ringAddr r) 110 5 x, false⟩ := by
  have hne : x ≠ 0 := by omega
  simp only [ringSetStep, hne, hk, Nat.not_lt.mpr h2, ne_eq, not_true_eq_false, decide_false, Bool.or_self, Bool.false_eq_true, if_false,
    CmdOut.done]

/-- Of any other it is refused. -/
theorem ringSetStep_of_other {x : Nat} (h1 : 1 ≤ x) (h2 : x ≤ 19) (hk : b.ringKind r ≠ 1) :
    ringSetStep r x h b = ⟨rcWrongState, [], h, b.tick T.RING_CMD_REFUSED, false⟩ := by
  have hne : x ≠ 0 := by omega
  simp only [ringSetStep, hne, hk, Nat.not_lt.mpr h2, ne_eq, not_false_eq_true, decide_false, Bool.or_self, Bool.false_eq_true, if_false,
    if_true, ringRefused, CmdOut.refuse]

/-- NVME_GRANT of a claim with an NVMe function and its page mapped takes a free controller. -/
theorem nvmeGrant_of_free {f j : Nat} (hc : b.claim? i = some k) (hf : h.pfOf k.fn = some f)
    (hclass : h.fld (R.ep_FN_CFG_CLASS (fnPort k.fn) f) = 1) (hpage : h.page0Mapped n k = true) (hctrl : b.ctrlOf i = none)
    (hj : b.anyOf ((List.range 64).filter (fun j => !b.flag (R.storage_NVME_CTRL_VALID j))) = some j) :
    nvmeGrant n i h b = ⟨0, [j], h, (b.spent.setReg (R.storage_NVME_CTRL j) (BitVec.ofNat 32 (i + 256))).setNpage j NvmePage.blank, false⟩ := by
  simp only [nvmeGrant, hc, hf, hclass, hpage, hctrl, hj, decide_true, Bool.not_true, Option.isSome_none, Bool.or_self, Bool.false_eq_true,
    if_false]

end

/-- WINDOW_SET of a control entry without COMMIT writes the shadow alone. -/
theorem windowSet_of_shadow {n : BenchId} {c : Sceune} {h : Hub} {b : Bench} {o : Nat} (hcommit : bit (c.w 0) 15 = false)
    (hdb : bit (c.w 0) 4 = false) (ho : o = ctlEntryAt (fnKey (getBits (c.w 0) 0 1) false (getBits (c.w 0) 1 3)) (getBits (c.w 0) 5 10)) :
    windowSet n c h b = ⟨0, [0], { h with
      shadow := sparseSet hubRegReset (sparseSet hubRegReset h.shadow o (BitVec.ofNat 32 (c.w 1))) (o + 4) (BitVec.ofNat 32 (c.w 2)) },
      b, false⟩ := by
  subst ho
  simp only [windowSet, hcommit, hdb, Bool.false_eq_true, if_false]

/-! ## The statement -/

/-- Settles O55: each command ends, or goes on, with what its part answers, by the state of its claim or ring. -/
theorem sceuneCommandsOfClaimsAndRings : Obligations.SceuneCommandsOfClaimsAndRings := by
  unfold Obligations.SceuneCommandsOfClaimsAndRings
  refine ⟨?create, ?quiesce, ?quiesceRefused, ?resume, ?resumeRefused, ?reset, ?resetOn, ?remove, ?removeRefused, ?share, ?window, ?ring,
    ?ringExists, ?start, ?startRefused, ?stop, ?stopRefused, ?destroy, ?destroyRefused, ?setStep, ?setStepRefused, ?grant, ?nvmeRemove,
    ?nvmeNotFound⟩
  case create =>
    intro m i k h' c n s ht hn hst ha hbad hk hp hm hi hf hh
    subst hn hh
    exact ends_of_live rfl ht rfl (Bench.live_of_running hst) rfl (claimCreateCmd_of_fits hst ha hbad hk hp hm hi hf)
  case quiesce => exact fun m k c n s ht hn hl hc hst hlim => goes_of_live rfl ht hn hl rfl (claimQuiesce_of_active hc hst hlim)
  case quiesceRefused => exact fun m k c n s ht hn hl hc hst hlim => ends_of_first rfl ht hn hl rfl (claimQuiesce_of_other hc hst hlim)
  case resume => exact fun m k c n s ht hn hl hc hst => ends_of_live rfl ht hn hl rfl (claimResume_of_quiesced hc hst)
  case resumeRefused => exact fun m k c n s ht hn hl hc hst => ends_of_live rfl ht hn hl rfl (claimResume_of_other hc hst)
  case reset => exact fun m k c n s ht hn hl hc => goes_of_live rfl ht hn hl rfl (claimReset_of_claim hc)
  case resetOn =>
    intro m c s ht
    obtain ⟨-, -, hbegun⟩ := id ht
    exact goes_of_resumed rfl ht rfl (by rw [hbegun, if_pos rfl]; rfl)
  case remove =>
    intro m k c b' n s ht hn hl hc hst hf hb
    subst hn
    exact ends_of_live rfl ht rfl hl rfl (claimRemove_of_quiesced hc hst hf hb)
  case removeRefused => exact fun m k c n s ht hn hl hc hst => ends_of_live rfl ht hn hl rfl (claimRemove_of_other hc hst)
  case share =>
    intro m t f k c n s ht hn hl hc hw ht1 ht2 hf1 hf2
    exact ends_of_live rfl ht hn hl rfl (by rw [hw]; exact claimSetShare_of_ranges hc ht1 ht2 hf1 hf2)
  case window =>
    intro m o c n s ht hn hcommit hdb ho
    subst hn
    exact ends_of_taken rfl ht rfl (by
      simp only [Device.onCmd, Device.put, Device.run, windowSet_of_shadow hcommit hdb ho, CmdOut.both])
  case ring => exact fun m r i k c n s ht hn hl hr ho hfree hbad hkind => ends_of_live rfl ht hn hl rfl (ringCreate_of_send hr ho hfree hbad hkind)
  case ringExists => exact fun m r i k c n s ht hn hl hr ho hused => ends_of_live rfl ht hn hl rfl (ringCreate_of_exists hr ho hused)
  case start =>
    intro m i k c n s ht hn hl ho hk hst hact hm hreset hbit
    subst hn
    exact ends_of_live rfl ht rfl hl rfl (by rw [hbit]; exact ringStart_of_stopped ho hk hst hact hm hreset)
  case startRefused => exact fun m i k c n s ht hn hl ho hst => ends_of_live rfl ht hn hl rfl (ringStart_of_running ho hst)
  case stop => exact fun m c n s ht hn hl hk hst => ends_of_live rfl ht hn hl rfl (ringStop_of_running hk hst)
  case stopRefused => exact fun m c n s ht hn hl hst => ends_of_live rfl ht hn hl rfl (ringStop_of_stopped hst)
  case destroy => exact fun m c n s ht hn hl hk hcpl hst => ends_of_live rfl ht hn hl rfl (ringDestroy_of_stopped hk hcpl hst)
  case destroyRefused => exact fun m c n s ht hn hl hst => ends_of_live rfl ht hn hl rfl (ringDestroy_of_running hst)
  case setStep => exact fun m c n s ht hn hl h1 h2 hk => ends_of_live rfl ht hn hl rfl (ringSetStep_of_send h1 h2 hk)
  case setStepRefused => exact fun m c n s ht hn hl h1 h2 hk => ends_of_live rfl ht hn hl rfl (ringSetStep_of_other h1 h2 hk)
  case grant =>
    intro m f j k c n s ht hn hl hc hf hclass hpage hctrl hj
    subst hn
    exact ends_of_live rfl ht rfl hl rfl (nvmeGrant_of_free hc hf hclass hpage hctrl hj)
  case nvmeRemove =>
    intro m j c n s ht hn hl hc
    subst hn
    exact ends_of_live rfl ht rfl hl rfl (by simp only [hc, CmdOut.done])
  case nvmeNotFound =>
    intro m c n s ht hn hl hc
    subst hn
    exact ends_of_live rfl ht rfl hl rfl (by simp only [hc, CmdOut.refuse])

end Sys2Proof.Machine
end

section
/-! Commands that act on every bench in turn: what each bench and the hub's registers are left as, and benches that are forced off
(R44, R426, R546). -/
namespace Sys2Proof.Machine

/-! ## Every bench in turn -/

/-- A bench acted on in a turn of the benches: what its act makes of it, whatever the hub was. -/
theorem Device.bench_foldl_run (f : BenchId → Hub → Bench → Hub × Bench) (n : BenchId) (l : List BenchId) (hl : l.Nodup) (hn : n ∈ l)
    (d : Device) : ∃ h e, (l.foldl (fun d n => d.run n (f n)) d).bench n = (f n h (d.bench n)).2.afterEvents e := by
  induction l generalizing d with
  | nil => cases hn
  | cons m t ih =>
    obtain ⟨hm, ht⟩ := List.nodup_cons.mp hl
    rw [List.foldl_cons]
    by_cases he : m = n
    · subst he
      have hkept : (t.foldl (fun d n => d.run n (f n)) (d.run m (f m))).bench m = (d.run m (f m)).bench m :=
        List.foldlRecOn (motive := fun x : Device => x.bench m = (d.run m (f m)).bench m) t _ rfl
          (fun x hx k hk => (Device.bench_run_ne x (f k) (fun (e : m = k) => hm (by rw [e]; exact hk))).trans hx)
      rw [hkept, Device.bench_run_self]
      exact ⟨_, _, rfl⟩
    · obtain ⟨h, e, h1⟩ := ih ht ((List.mem_cons.mp hn).resolve_left (fun e => he e.symm)) (d.run m (f m))
      rw [Device.bench_run_ne d (f m) (fun e => he e.symm)] at h1
      exact ⟨h, e, h1⟩

/-- Every bench after a turn of all benches. -/
theorem Device.bench_runAll (d : Device) (f : BenchId → Hub → Bench → Hub × Bench) (n : BenchId) :
    ∃ h e, (d.runAll f).bench n = (f n h (d.bench n)).2.afterEvents e :=
  Device.bench_foldl_run f n _ (List.nodup_finRange 16) (List.mem_finRange n) d

/-- A hub register below the interrupt unit's block keeps its value over a turn whose acts keep it. -/
theorem Device.reg_runAll {f : BenchId → Hub → Bench → Hub × Bench} {o : Nat} (ho : o < 0x200000)
    (hf : ∀ n h b, (f n h b).1.reg o = h.reg o) (d : Device) : (d.runAll f).hub.reg o = d.hub.reg o :=
  foldl_keeps (P := fun x : Device => x.hub.reg o = d.hub.reg o) (f := fun d n => d.run n (f n))
    (fun x n hx => by rw [Device.hub_run, drainEvents_reg _ _ _ _ ho, hf, hx]) _ rfl

/-- Of acts on the hub one after another, each on a register of its own, each register is as its own act left it; that act found it, and
the registers of no act, as they were at first. -/
theorem Hub.reg_foldl_apart {α : Type} {step : Hub → α → Hub} {r : α → Nat} (hstep : ∀ h a o, o ≠ r a → (step h a).reg o = h.reg o)
    (hr : ∀ a b, r a = r b → a = b) {a : α} (l : List α) (hl : l.Nodup) (ha : a ∈ l) (h : Hub) :
    ∃ g : Hub, (∀ o, (∀ b, o ≠ r b) → g.reg o = h.reg o) ∧ g.reg (r a) = h.reg (r a) ∧
      (l.foldl step h).reg (r a) = (step g a).reg (r a) := by
  induction l generalizing h with
  | nil => cases ha
  | cons b t ih =>
    obtain ⟨hb, ht⟩ := List.nodup_cons.mp hl
    rw [List.foldl_cons]
    by_cases he : a = b
    · subst he
      exact ⟨h, fun _ _ => rfl, rfl, List.foldlRecOn (motive := fun x : Hub => x.reg (r a) = (step h a).reg (r a)) t _ rfl
        (fun x hx k hk => (hstep x k _ (fun e => hb (by rw [hr a k e]; exact hk))).trans hx)⟩
    · obtain ⟨g, hother, hown, hend⟩ := ih ht ((List.mem_cons.mp ha).resolve_left he) (step h b)
      exact ⟨g, fun o ho => (hother o ho).trans (hstep h b o (ho b)), hown.trans (hstep h b _ (fun e => he (hr a b e))), hend⟩

/-! ## A bench that leaves for OFF or FAULT -/

/-- The claims of a bench go without a register of the hub. -/
theorem Hub.reg_claimLost (h : Hub) (n : BenchId) (i : Nat) (c : Claim) (o : Nat) : (h.claimLost n i c).reg o = h.reg o := by
  unfold Hub.claimLost
  dsimp only
  split
  · split
    · exact ((Hub.notice_keeps _ _ _ _).trans (Hub.dbToHost_keeps _ _ _)).reg o
    · rfl
  · rfl

theorem Hub.reg_claimsLost (h : Hub) (n : BenchId) (l : List (Nat × Claim)) (o : Nat) : (h.claimsLost n l).reg o = h.reg o :=
  foldl_keeps (P := fun x : Hub => x.reg o = h.reg o) (f := fun h (c : Nat × Claim) => h.claimLost n c.1 c.2)
    (fun x c hx => (Hub.reg_claimLost x n c.1 c.2 o).trans hx) l rfl

/-- A session ends in the debug access block alone. -/
theorem Hub.reg_endEngineSession (h : Hub) (n : BenchId) {o : Nat} (ho : o < 0x200000) : (h.endEngineSession n).reg o = h.reg o := by
  have hne : o ≠ R.dbg_DBG_SESSION_ENGINE_MASK.off := by
    have : (0x200000 : Nat) ≤ R.dbg_DBG_SESSION_ENGINE_MASK.off := by decide
    omega
  unfold Hub.endEngineSession
  dsimp only
  split
  · rw [Hub.raise_reg _ _ _ ho, Hub.reg_setFld_ne _ _ _ _ hne]
  · rfl

theorem Hub.reg_takeTlps (h : Hub) (n : BenchId) (drained : Bool) (l : List Tlp) (o : Nat) : (h.takeTlps n drained l).reg o = h.reg o := by
  unfold Hub.takeTlps
  refine foldl_keeps (P := fun x : Hub => x.reg o = h.reg o) (fun x t hx => ?_) l rfl
  split
  · exact hx
  · split
    · exact hx
    · split <;> exact hx

/-- A bench that leaves changes no register below the interrupt unit's block. -/
theorem reg_benchLeaves (n : BenchId) (s : BenchSt) (drained : Bool) (h : Hub) (b : Bench) {o : Nat} (ho : o < 0x200000) :
    (benchLeaves n s drained h b).1.reg o = h.reg o := by
  unfold benchLeaves
  dsimp only
  rw [Hub.reg_takeTlps, Hub.reg_endEngineSession _ _ ho, Hub.reg_claimsLost]

theorem Bench.emptied_power (b : Bench) (s : BenchSt) (retain : Bool) : (b.emptied s retain).power =
    { b.power with st := s, railsUp := false, pllsUp := false, cleared := false, drainCut := false, retain := false } := by
  unfold Bench.emptied
  dsimp only
  split
  · split <;> rfl
  · rfl

/-- A bench that leaves is in the state it leaves for. -/
theorem benchLeaves_st (n : BenchId) (s : BenchSt) (drained : Bool) (h : Hub) (b : Bench) : (benchLeaves n s drained h b).2.power.st = s := by
  unfold benchLeaves
  exact congrArg Power.st (Bench.emptied_power _ _ _)

/-- A bench that is forced off is OFF. -/
theorem benchForced_st (n : BenchId) (h : Hub) (b : Bench) : (benchForced n h b).2.power.st = .off := by
  unfold benchForced
  split
  next hoff => exact hoff
  next => exact benchLeaves_st n .off false _ b

/-- Of the registers below the interrupt unit's block, its BENCH_STATUS alone changes. -/
theorem reg_benchForced (n : BenchId) (h : Hub) (b : Bench) {o : Nat} (ho : o < 0x200000) (hne : o ≠ R.pcr_BENCH_STATUS n.val) :
    (benchForced n h b).1.reg o = h.reg o := by
  unfold benchForced
  split
  · rfl
  · rw [reg_benchLeaves _ _ _ _ _ ho]
    exact Hub.reg_setFld_ne _ _ _ _ hne

/-! ## Every bench off -/

/-- Every bench is OFF. -/
def Device.AllOff (d : Device) : Prop := ∀ n, (d.bench n).power.st = .off

theorem Device.allOff_forceAll (d : Device) : d.forceAll.AllOff := by
  intro n
  obtain ⟨h, e, hb⟩ := Device.bench_runAll d (fun n h b => benchForced n h b.flushUndone) n
  unfold Device.forceAll
  rw [hb, Bench.afterEvents_power]
  exact benchForced_st n h _

/-- A register of the power and clock block that is no BENCH_STATUS keeps its value as the benches are forced off. -/
theorem Device.reg_forceAll (d : Device) {o : Nat} (ho : o < 0x200000) (hne : ∀ n : BenchId, o ≠ R.pcr_BENCH_STATUS n.val) :
    d.forceAll.hub.reg o = d.hub.reg o :=
  Device.reg_runAll ho (fun n h _ => reg_benchForced n h _ ho (hne n)) d

theorem Device.fld_forceAll (d : Device) {f : Fld} (ho : f.off < 0x200000) (hne : ∀ n : BenchId, f.off ≠ R.pcr_BENCH_STATUS n.val) :
    d.forceAll.hub.fld f = d.hub.fld f := by
  unfold Hub.fld
  rw [Device.reg_forceAll d ho hne]

/-- A bench whose functions fall silent keeps its power. -/
theorem Bench.silence_power (b : Bench) (p : Nat → Bool) (code : Nat) (free all : Bool) : (b.silence p code free all).power = b.power := by
  unfold Bench.silence
  exact (Bench.Handles.endClaims b _ code free).power

/-- Acts that leave benches OFF that are OFF keep every bench OFF. -/
theorem Device.AllOff.runAll {d : Device} (hd : d.AllOff) {f : BenchId → Hub → Bench → Hub × Bench}
    (hf : ∀ n h b, b.power.st = .off → (f n h b).2.power.st = .off) : (d.runAll f).AllOff := by
  intro n
  obtain ⟨h, e, hb⟩ := Device.bench_runAll d f n
  rw [hb, Bench.afterEvents_power]
  exact hf n h _ (hd n)

/-- A change of the hub leaves the benches. -/
theorem Device.AllOff.withHub {d : Device} (hd : d.AllOff) (h : Hub) : ({ d with hub := h } : Device).AllOff := hd

theorem Device.AllOff.silence {d : Device} (hd : d.AllOff) (p : Nat → Bool) (code : Nat) (free all : Bool) :
    (d.silence p code free all).AllOff :=
  (hd.runAll (f := fun _ h b => (h, b.silence p code free all))
    (fun _ _ b hb => (congrArg Power.st (Bench.silence_power b p code free all)).trans hb)).withHub _

theorem Device.AllOff.linkDown {d : Device} (hd : d.AllOff) (l st : Nat) : (d.linkDown l st).AllOff :=
  (hd.silence (d.hub.onLink l) 0x94 true true).withHub _

theorem Device.AllOff.endSessions {d : Device} (hd : d.AllOff) : d.endSessions.AllOff := by
  unfold Device.endSessions
  dsimp only
  split
  · exact hd
  · refine (hd.withHub _).runAll (fun n h b hb => ?_)
    have hlive : b.live = false := by simp [Bench.live, hb]
    simp only [hlive, Bool.false_and, Bool.false_eq_true, if_false, hb]

theorem removeClaim_power (n : BenchId) (i : Nat) (h : Hub) (b : Bench) : (removeClaim n i h b).2.power = b.power := by
  unfold removeClaim
  split
  · rfl
  next c =>
    have hrings (l : List Nat) (x : Bench) : x.Handles (l.foldl (fun (b : Bench) r => b.setBytes (ringAddr r) (List.replicate 32 0#8)) x) :=
      .foldl (fun b r => .setBytes b _ _) l x
    exact (hrings _ _).power.trans (Bench.Handles.endClaims b [i] 0x94 true).power

theorem Device.AllOff.resetPort {d : Device} (hd : d.AllOff) (p : Nat) : (d.resetPort p).AllOff := by
  have hdown : Device.AllOff ([2 * p, 2 * p + 1].foldl (fun (d : Device) l => if d.hub.linkState l = 0 then d else d.linkDown l 0) d) := by
    refine foldl_keeps (P := Device.AllOff) (fun x l hx => ?_) _ hd
    split
    · exact hx
    · exact hx.linkDown l 0
  unfold Device.resetPort
  refine Device.AllOff.endSessions (Device.AllOff.withHub (Device.AllOff.runAll (Device.AllOff.withHub hdown _) (fun n h _ hb => ?_)) _)
  exact foldl_keeps (P := fun r : Hub × Bench => r.2.power.st = .off) (f := fun r (c : Nat × Claim) => removeClaim n c.1 r.1 r.2)
    (fun r c hr => (congrArg Power.st (removeClaim_power n c.1 r.1 r.2)).trans hr) _ hb

/-- A hub fault reset leaves every bench OFF. -/
theorem Device.allOff_hubFault (d : Device) (cause : Nat) : (d.hubFault cause).AllOff := by
  unfold Device.hubFault
  exact (((Device.allOff_forceAll _).resetPort 0).resetPort 1).withHub _

end Sys2Proof.Machine
end

section
/-! O9: temperatures, the thermal trip, and the leak of the error counters (R526, R570 to R573). -/
namespace Sys2Proof.Machine

/-! ## The sensors' readings -/

/-- One sensor's reading goes to TEMP, or VALID falls. -/
def Hub.putTemp (on : Nat → Bool) (temps : List (BitVec 12)) (h : Hub) (k : Nat) : Hub :=
  if on k then (h.setFld (R.pcr_TEMP_F k) (temps.getD k 0#12).toNat).setFld (R.pcr_TEMP_VALID k) 1
  else h.setFld (R.pcr_TEMP_VALID k) 0

theorem Device.putTemps_eq (d : Device) (temps : List (BitVec 12)) :
    d.putTemps temps = { d with hub := (List.range 17).foldl (Hub.putTemp d.sensorOn temps) d.hub } := rfl

section
variable (on : Nat → Bool) (temps : List (BitVec 12))

/-- A reading leaves every other register. -/
theorem Hub.reg_putTemp_ne (h : Hub) {k o : Nat} (ho : o ≠ R.pcr_TEMP k) : (h.putTemp on temps k).reg o = h.reg o := by
  unfold Hub.putTemp
  split
  · rw [Hub.reg_setFld_ne _ _ _ _ ho, Hub.reg_setFld_ne _ _ _ _ ho]
  · rw [Hub.reg_setFld_ne _ _ _ _ ho]

theorem Hub.reg_putTemps_ne (l : List Nat) (h : Hub) {o : Nat} (ho : ∀ k ∈ l, o ≠ R.pcr_TEMP k) :
    (l.foldl (Hub.putTemp on temps) h).reg o = h.reg o :=
  List.foldlRecOn (motive := fun x : Hub => x.reg o = h.reg o) l _ rfl (fun x hx k hk => (Hub.reg_putTemp_ne on temps x (ho k hk)).trans hx)

/-- A sensor's own register holds its reading. -/
theorem Hub.fld_putTemp (h : Hub) (k : Nat) :
    (on k = true → (h.putTemp on temps k).fld (R.pcr_TEMP_VALID k) = 1 ∧
      (h.putTemp on temps k).fld (R.pcr_TEMP_F k) = (temps.getD k 0#12).toNat) ∧
    (on k = false → (h.putTemp on temps k).fld (R.pcr_TEMP_VALID k) = 0) := by
  have hvalid : (R.pcr_TEMP_VALID k).lo + (R.pcr_TEMP_VALID k).w ≤ 32 := by simp [R.pcr_TEMP_VALID]
  have hread : (R.pcr_TEMP_F k).lo + (R.pcr_TEMP_F k).w ≤ 32 := by simp [R.pcr_TEMP_F]
  have hapart : (R.pcr_TEMP_VALID k).apart (R.pcr_TEMP_F k) := by simp [Fld.apart, R.pcr_TEMP_VALID, R.pcr_TEMP_F]
  unfold Hub.putTemp
  constructor <;> intro hon <;> simp only [hon, if_true, Bool.false_eq_true, if_false]
  · refine ⟨Hub.fld_setFld_self _ _ _ hvalid, ?_⟩
    rw [Hub.fld_setFld_apart _ _ _ _ hread hapart, Hub.fld_setFld_self _ _ _ hread]
    exact Nat.mod_eq_of_lt (BitVec.isLt _)
  · exact Hub.fld_setFld_self _ _ _ hvalid

/-- The fields of a sensor's register after all readings. -/
theorem Device.fld_putTemps (d : Device) {k : Nat} (hk : k < 17) {h : Hub}
    (hh : h.reg (R.pcr_TEMP k) = (d.putTemps temps).hub.reg (R.pcr_TEMP k)) :
    (d.sensorOn k = true → h.fld (R.pcr_TEMP_VALID k) = 1 ∧ h.fld (R.pcr_TEMP_F k) = (temps.getD k 0#12).toNat) ∧
    (d.sensorOn k = false → h.fld (R.pcr_TEMP_VALID k) = 0) := by
  obtain ⟨g, -, -, hg⟩ := Hub.reg_foldl_apart (r := R.pcr_TEMP) (fun h k o ho => Hub.reg_putTemp_ne d.sensorOn temps h ho)
    (fun i j e => by simp only [R.pcr_TEMP] at e; omega) (List.range 17) List.nodup_range (List.mem_range.mpr hk) d.hub
  have hown := Hub.fld_putTemp d.sensorOn temps g k
  have hsame : h.reg (R.pcr_TEMP k) = (g.putTemp d.sensorOn temps k).reg (R.pcr_TEMP k) := by rw [hh, Device.putTemps_eq]; exact hg
  unfold Hub.fld R.pcr_TEMP_VALID R.pcr_TEMP_F at hown ⊢
  rwa [hsame]

/-! ## A warning and a trip -/

/-- A warning changes THERM_STATUS alone of the power and clock block. -/
theorem Device.reg_thermWarn (d : Device) {o : Nat} (ho : o < 0x200000) (hne : o ≠ R.pcr_THERM_STATUS) :
    (d.thermWarn temps).hub.reg o = d.hub.reg o := by
  unfold Device.thermWarn
  dsimp only
  split
  · split
    · dsimp only
      rw [Hub.raise_reg _ _ _ ho]
      exact (Hub.reg_setFld_ne _ _ _ _ hne).trans (Hub.reg_setFld_ne _ _ _ _ hne)
    · rfl
  · split <;> rfl

/-- A warning leaves TRIPPED. -/
theorem Device.flag_thermWarn (d : Device) : (d.thermWarn temps).hub.flag R.pcr_THERM_STATUS_TRIPPED = d.hub.flag R.pcr_THERM_STATUS_TRIPPED := by
  have hfld : (d.thermWarn temps).hub.fld R.pcr_THERM_STATUS_TRIPPED = d.hub.fld R.pcr_THERM_STATUS_TRIPPED := by
    unfold Device.thermWarn
    dsimp only
    split
    · split
      · dsimp only
        unfold Hub.fld
        rw [Hub.raise_reg _ _ _ (by decide)]
        exact (Hub.fld_setFld_apart _ R.pcr_THERM_STATUS_SOURCE R.pcr_THERM_STATUS_TRIPPED _ (by decide) (by unfold Fld.apart; right; decide)).trans
          (Hub.fld_setFld_apart _ R.pcr_THERM_STATUS_WARN R.pcr_THERM_STATUS_TRIPPED _ (by decide) (by unfold Fld.apart; right; decide))
      · rfl
    · split <;> rfl
  unfold Hub.flag
  rw [hfld]

/-- A warning leaves the benches and the part. -/
theorem Device.thermWarn_kept (d : Device) : (d.thermWarn temps).benches = d.benches ∧ (d.thermWarn temps).hub.fw.part = d.hub.fw.part := by
  unfold Device.thermWarn
  dsimp only
  split
  · split
    · refine ⟨rfl, ?_⟩
      dsimp only
      rw [Hub.raise_fw]
      rfl
    · exact ⟨rfl, rfl⟩
  · split <;> exact ⟨rfl, rfl⟩

/-- The readings leave the part. -/
theorem Device.part_putTemps (d : Device) : (d.putTemps temps).hub.fw.part = d.hub.fw.part := by
  rw [Device.putTemps_eq]
  refine foldl_keeps (P := fun x : Hub => x.fw.part = d.hub.fw.part) (fun x k hx => ?_) _ rfl
  unfold Hub.putTemp
  split <;> exact hx

/-- Which sensors are hot hangs on the benches alone. -/
theorem Device.hot_congr {d e : Device} (h : e.benches = d.benches) (c : Nat) : e.hot temps c = d.hot temps c := by
  unfold Device.hot Device.sensorOn Device.bench
  rw [h]

/-- A trip, or its end, changes THERM_STATUS and the BENCH_STATUS words alone of the power and clock block. -/
theorem Device.reg_thermTrip (d : Device) {o : Nat} (ho : o < 0x200000) (hne : o ≠ R.pcr_THERM_STATUS)
    (hbench : ∀ n : BenchId, o ≠ R.pcr_BENCH_STATUS n.val) : (d.thermTrip temps).hub.reg o = d.hub.reg o := by
  unfold Device.thermTrip
  dsimp only
  split
  · split
    · exact Device.reg_forceAll d ho hbench
    · dsimp only
      rw [Hub.raise_reg _ _ _ ho]
      exact ((Hub.reg_setFld_ne _ _ _ _ hne).trans (Hub.reg_setFld_ne _ _ _ _ hne)).trans (Device.reg_forceAll d ho hbench)
  · split
    · exact Hub.reg_setFld_ne _ _ _ _ hne
    · rfl

/-- A trip. -/
theorem Device.thermTrip_of_hot (d : Device) (hoff : d.hub.flag R.pcr_THERM_STATUS_TRIPPED = false)
    (hot : d.hot temps (tripPoint d.hub.fw.part) ≠ []) :
    (d.thermTrip temps).hub.fw.thermTrip = true ∧ (d.thermTrip temps).hub.fld R.pcr_THERM_STATUS_TRIPPED = 1 ∧ (d.thermTrip temps).AllOff := by
  obtain ⟨k, t, hkt⟩ := List.exists_cons_of_ne_nil hot
  have htrip : d.thermTrip temps = { d.forceAll with hub := ((((d.forceAll.hub.setFld R.pcr_THERM_STATUS_TRIPPED 1).setFld
      R.pcr_THERM_STATUS_SOURCE k).updFw (fun w => { w with thermTrip := true })).tick T.THERMAL_TRIPS).raise 643 } := by
    unfold Device.thermTrip
    simp only [hkt, hoff, Bool.false_eq_true, if_false]
  rw [htrip]
  refine ⟨congrArg Firmware.thermTrip (Hub.raise_fw _ _), ?_, (Device.allOff_forceAll d).withHub _⟩
  unfold Hub.fld
  dsimp only
  rw [Hub.raise_reg _ _ _ (by decide)]
  exact (Hub.fld_setFld_apart _ R.pcr_THERM_STATUS_SOURCE R.pcr_THERM_STATUS_TRIPPED _ (by decide) (by unfold Fld.apart; right; decide)).trans
    (Hub.fld_setFld_self _ _ _ (by decide))

theorem exec_thermalSensorRead {s : State} (hup : s.dev.hub.up = true) :
    exec (.thermalSensorRead temps) s = .next { s with dev := ((s.dev.putTemps temps).thermWarn temps).thermTrip temps } :=
  congrArg (fun d : Device => (Host.Outcome.next { s with dev := d } : Host.Outcome State Fault Refusal)) (if_pos hup)

end

/-! ## The leak of the error counters -/

/-- On the pipeline's own count a leak is due at the multiples of the interval. -/
theorem leakDue_one (shift cyc : Nat) : leakDue 1 1 shift cyc = decide (cyc % 2 ^ shift = 0) := by
  have hpos : 0 < 2 ^ shift := Nat.two_pow_pos shift
  unfold leakDue
  rw [Nat.mul_one, Nat.mul_one, Nat.div_one, Nat.div_one]
  obtain _ | c := cyc
  · simp
  · have hdiv : c / 2 ^ shift < (c + 1) / 2 ^ shift ↔ (c + 1) % 2 ^ shift = 0 := by
      rw [Nat.succ_div]
      split <;> rename_i h
      · simp [Nat.mod_eq_zero_of_dvd h]
      · simpa using fun e => h (Nat.dvd_of_mod_eq_zero e)
    simp [hdiv]

/-- A counter of the pipeline's island. -/
theorem Bench.leakDue_pipeline (b : Bench) {k : Nat} (hk : k < 7) :
    b.leakDue k = decide (b.cyc % 2 ^ b.fld (R.err_CE_CFG_LEAK_SHIFT k) = 0) := by
  unfold Bench.leakDue Bench.islandClock
  simp only [hk, if_true, leakDue_one]
  simp [show k < 11 by omega]

/-- A leak that is due lowers the counter; one that is not does nothing. -/
theorem leaves_leakTick {n : BenchId} {s : State} (k : Nat) (hl : (s.dev.bench n).live = true) :
    Leaves (.leakTick (some n) k) n s ((s.dev.bench n).leak k) :=
  runs_onBench (f := fun b => b.leak k) rfl hl (fun l => ⟨l, rfl⟩)

/-! ## The statement -/

/-- Settles O9: the readings stay in TEMP over a warning and a trip, and a leak is due by its island's own count. -/
theorem thermalAndErrorCounters : Obligations.ThermalAndErrorCounters := by
  unfold Obligations.ThermalAndErrorCounters
  refine ⟨?readings, ?trip, ?due, ?notDue, ?anyDue, ?hub⟩
  case readings =>
    intro temps s hup
    refine ⟨_, exec_thermalSensorRead temps hup, rfl, fun k hk => ?_⟩
    have ho : R.pcr_TEMP k < 0x200000 := by simp only [R.pcr_TEMP]; omega
    have hne : R.pcr_TEMP k ≠ R.pcr_THERM_STATUS := by simp only [R.pcr_TEMP, R.pcr_THERM_STATUS]; omega
    have hbench (n : BenchId) : R.pcr_TEMP k ≠ R.pcr_BENCH_STATUS n.val := by simp only [R.pcr_TEMP, R.pcr_BENCH_STATUS]; omega
    exact Device.fld_putTemps temps s.dev hk
      ((Device.reg_thermTrip temps _ ho hne hbench).trans (Device.reg_thermWarn temps _ ho hne))
  case trip =>
    intro temps s hup hoff hhot
    obtain ⟨hbenches, hpart⟩ := Device.thermWarn_kept temps (s.dev.putTemps temps)
    have hflag : ((s.dev.putTemps temps).thermWarn temps).hub.flag R.pcr_THERM_STATUS_TRIPPED = false := by
      rw [Device.flag_thermWarn, ← hoff]
      unfold Hub.flag Hub.fld
      rw [Device.putTemps_eq, Hub.reg_putTemps_ne]
      intro k _
      simp only [R.pcr_THERM_STATUS_TRIPPED, R.pcr_THERM_STATUS, R.pcr_TEMP]
      omega
    have hstill : ((s.dev.putTemps temps).thermWarn temps).hot temps (tripPoint ((s.dev.putTemps temps).thermWarn temps).hub.fw.part) ≠ [] := by
      rw [hpart, Device.part_putTemps, Device.hot_congr temps hbenches]
      exact hhot
    obtain ⟨htrip, htripped, hall⟩ := Device.thermTrip_of_hot temps _ hflag hstill
    refine ⟨_, exec_thermalSensorRead temps hup, rfl, htrip, ?_, htripped, hall⟩
    unfold Hub.thermPin
    rw [htrip]
    rfl
  case due =>
    intro n k s hl hk hdue
    have h := leaves_leakTick k hl
    rwa [Bench.leak, Bench.leakDue_pipeline _ hk, decide_eq_true hdue, if_pos rfl] at h
  case notDue =>
    intro n k s hl hk hdue
    have h := leaves_leakTick k hl
    rwa [Bench.leak, Bench.leakDue_pipeline _ hk, decide_eq_false hdue, if_neg Bool.false_ne_true] at h
  case anyDue =>
    intro n k s hl hdue
    have h := leaves_leakTick k hl
    rwa [Bench.leak, if_pos hdue] at h
  case hub =>
    intro k s hup hdue
    exact leavesHub_onHub rfl (by simp only [Hub.leak, hup, hdue, Bool.and_self, if_true])

end Sys2Proof.Machine
end

section
/-! O8: the Foreman's reset and its watchdog (R547, R549, R550). -/
namespace Sys2Proof.Machine

/-! ## What a Foreman reset clears -/

/-- Mailboxes are cleared without a register, a tally or a byte of memory. -/
theorem Hub.clearMailboxes_kept (h : Hub) (p : Nat → Bool) :
    (h.clearMailboxes p).regs = h.regs ∧ (h.clearMailboxes p).tal = h.tal := by
  unfold Hub.clearMailboxes
  exact foldl_keeps (P := fun x : Hub => x.regs = h.regs ∧ x.tal = h.tal) (f := fun (h : Hub) (x : Nat × Mailbox) => h.clearMbx x.1)
    (fun x m hx => hx) _ ⟨rfl, rfl⟩

/-- The watchdog is off and FM_RESET recorded. -/
theorem Hub.fld_foremanCleared (h : Hub) :
    h.foremanCleared.fld R.pcr_RESET_CAUSE_FM_RESET = 1 ∧ h.foremanCleared.fld R.pcr_FM_WDOG_EN = 0 := by
  unfold Hub.foremanCleared
  constructor
  · exact Hub.fld_setFld_self _ R.pcr_RESET_CAUSE_FM_RESET 1 (by decide)
  · exact (Hub.fld_setFld_apart _ R.pcr_RESET_CAUSE_FM_RESET R.pcr_FM_WDOG_EN 1 (by decide) (.inl (by decide))).trans
      (Hub.fld_setFld_self _ R.pcr_FM_WDOG_EN 0 (by decide))

/-- The reset is counted once. -/
theorem Hub.tally_foremanCleared (h : Hub) :
    h.foremanCleared.tally T.FM_WDOG_RESETS = min tallyMax (h.tally T.FM_WDOG_RESETS + 1) := by
  have hkept : (h.clearMailboxes (fun _ => true)).tally T.FM_WDOG_RESETS = h.tally T.FM_WDOG_RESETS := by
    unfold Hub.tally
    rw [(Hub.clearMailboxes_kept h _).2]
  rw [← hkept]
  exact Hub.tally_count_self _ _ _

/-- An image that is started changes memory and the firmware's image alone. -/
theorem Hub.startImage_kept (h : Hub) (l : List Byte) :
    (h.startImage l).regs = h.regs ∧ (h.startImage l).tal = h.tal ∧
      (h.startImage l).fw = { h.fw with
        image := some { svn := leNat (slice l 6 1), version := leNat (slice l 8 4), measurement := imgMeas l } } := ⟨rfl, rfl, rfl⟩

/-- The device after a Foreman reset with a slot that matches, or with none. -/
theorem Device.foremanReset_of_match {d : Device} {l : List Byte} {b : Option (List Byte)}
    (h : d.hub.foremanCleared.slotMatches (some l) = true) :
    d.foremanReset (some l) b = { d with hub := d.hub.foremanCleared.startImage l } := if_pos h

theorem Device.foremanReset_of_none {d : Device} {a b : Option (List Byte)} (ha : d.hub.foremanCleared.slotMatches a = false)
    (hb : d.hub.foremanCleared.slotMatches b = false) :
    d.foremanReset a b = ({ d with hub := d.hub.foremanCleared } : Device).hubFault 4 := by
  simp only [Device.foremanReset, ha, hb, Bool.false_eq_true, if_false]

/-- The two commands that reset the Foreman. -/
theorem exec_resetsForeman {c : Instr} {a b : Option (List Byte)} {s : State} (hup : s.dev.hub.up = true)
    (hc : (c = .foremanReset a b ∧ s.dev.hub.flag R.dbg_DBG_SESSION_FULL = true) ∨
      (c = .fmWdogExpire a b ∧ s.dev.hub.flag R.pcr_FM_WDOG_EN = true ∧
        s.dev.hub.fld R.pcr_FM_WDOG_PERIOD * ticksPerMs ≤ s.dev.hub.fw.wdog)) :
    exec c s = .next { s with dev := s.dev.foremanReset a b } := by
  obtain ⟨rfl, hfull⟩ | ⟨rfl, hen, hlate⟩ := hc
  · simp only [exec, execForemanReset, hup, hfull, Bool.and_self, if_true]
  · simp only [exec, execFmWdogExpire, hup, hen, hlate, Bool.and_self, decide_true, if_true]

/-! ## The hub fault reset -/

/-- It holds the device and records its cause. -/
theorem Device.hubFault_hub (d : Device) {cause : Nat} (hc : cause < 16) :
    (d.hubFault cause).hub.fw.por = true ∧ (d.hubFault cause).hub.up = false ∧ (d.hubFault cause).hub.fld R.pcr_RESET_CAUSE_HUB_FAULT = 1 ∧
      (d.hubFault cause).hub.fld R.pcr_RESET_CAUSE_HUB_FAULT_CAUSE = cause := by
  unfold Device.hubFault
  dsimp only
  generalize ((d.runAll _).forceAll.resetPort 0).resetPort 1 = e
  unfold Hub.afterFault
  refine ⟨rfl, rfl, ?_, ?_⟩
  · exact (Hub.fld_setFld_apart _ R.pcr_RESET_CAUSE_HUB_FAULT_CAUSE R.pcr_RESET_CAUSE_HUB_FAULT _ (by decide) (.inr (by decide))).trans
      (Hub.fld_setFld_self _ R.pcr_RESET_CAUSE_HUB_FAULT 1 (by decide))
  · exact (Hub.fld_setFld_self _ R.pcr_RESET_CAUSE_HUB_FAULT_CAUSE _ (by decide)).trans (Nat.mod_eq_of_lt hc)

/-! ## A kick -/

/-- A kick sets the count to 0, whatever the other fields do; they lie in FM_WDOG. -/
theorem Hub.wdogWrite_kick (h : Hub) (v : Nat) : (h.wdogWrite (putBits v 17 1 1)).fw = { h.fw with wdog := 0 } ∧
    (h.wdogWrite (putBits v 17 1 1)).mem = h.mem ∧ ∀ o, o ≠ R.pcr_FM_WDOG → (h.wdogWrite (putBits v 17 1 1)).reg o = h.reg o := by
  have hkick : bit (putBits v 17 1 1) 17 = true := decide_eq_true (getBits_putBits_self v 17 1 1)
  generalize putBits v 17 1 1 = x at hkick ⊢
  unfold Hub.wdogWrite
  dsimp only
  rw [if_pos hkick]
  generalize hg : (if getBits x 0 16 = h.fld R.pcr_FM_WDOG_PERIOD then h
    else h.setIf (!h.flag R.pcr_FM_WDOG_EN && decide (getBits x 0 16 ≠ 0)) R.pcr_FM_WDOG_PERIOD (getBits x 0 16)) = g
  have hperiod : g.fw = h.fw ∧ g.mem = h.mem ∧ ∀ o, o ≠ R.pcr_FM_WDOG → g.reg o = h.reg o := by
    subst hg
    unfold Hub.setIf
    split
    · exact ⟨rfl, rfl, fun _ _ => rfl⟩
    · split
      · exact ⟨rfl, rfl, fun o ho => Hub.reg_setFld_ne _ _ _ _ ho⟩
      · exact ⟨rfl, rfl, fun _ _ => rfl⟩
  obtain ⟨hfw, hmem, hreg⟩ := hperiod
  rw [← hfw]
  split
  · exact ⟨rfl, hmem, fun o ho => (Hub.reg_setFld_ne g R.pcr_FM_WDOG_EN 1 _ ho).trans (hreg o ho)⟩
  · exact ⟨rfl, hmem, hreg⟩

/-! ## The statement -/

/-- Settles O8: a Foreman reset is a change of the hub, or a hub fault reset; before its period the watchdog does nothing. -/
theorem foremanAndItsWatchdog : Obligations.ForemanAndItsWatchdog := by
  unfold Obligations.ForemanAndItsWatchdog
  refine ⟨?reset, ?early, ?kick⟩
  case reset =>
    intro c l b s hup hc
    refine ⟨_, exec_resetsForeman hup hc, rfl, fun hmatch => ?_, fun ha hb => ?_⟩
    · obtain ⟨hreset, hen⟩ := Hub.fld_foremanCleared s.dev.hub
      rw [Device.foremanReset_of_match hmatch]
      exact ⟨⟨rfl, rfl, rfl⟩, rfl, rfl, hreset, hen, rfl, Hub.tally_foremanCleared s.dev.hub⟩
    · rw [Device.foremanReset_of_none ha hb]
      obtain ⟨hpor, -, -, hcause⟩ := Device.hubFault_hub { s.dev with hub := s.dev.hub.foremanCleared } (cause := 4) (by decide)
      exact ⟨hpor, hcause, Device.allOff_hubFault _ 4⟩
  case early =>
    intro a b s hearly
    refine ⟨s, ?_, ⟨rfl, rfl, rfl⟩, rfl⟩
    simp only [exec, execFmWdogExpire, Nat.not_le.mpr hearly, decide_false, Bool.and_false, Bool.false_eq_true, if_false]
  case kick =>
    intro v s hup
    exact runsHub_onHub rfl (by rw [if_pos hup]; exact Hub.wdogWrite_kick s.dev.hub v.toNat)

end Sys2Proof.Machine
end

section
/-! O7: power-on reset, its release, the boot, and the hub fault reset (R498, R499, R538 to R547). -/
namespace Sys2Proof.Machine

/-! ## Power-on reset -/

theorem Device.bench_porAssert (d : Device) (aux : Bool) (n : BenchId) : (d.porAssert aux).bench n = Bench.blank Power.off (d.bench n).free := by
  simp [Device.porAssert, Device.bench]

theorem Device.hub_porAssert (d : Device) (aux : Bool) : (d.porAssert aux).hub.fw.por = true ∧ (d.porAssert aux).hub.up = false ∧
    (d.porAssert aux).hub.mem = [] ∧ (d.porAssert aux).hub.fw.fuses = d.hub.fw.fuses := by
  unfold Device.porAssert
  dsimp only
  generalize (d.hub.fw.wakeArmed && aux) = a
  cases a <;> exact ⟨rfl, rfl, rfl, rfl⟩

/-! ## The crossings of the hub -/

/-- A crossing that trains leaves the firmware's state and memory. -/
theorem Hub.trainCrossing_kept (l : List (Fin 6)) (h : Hub) (k : Fin 6) :
    (h.trainCrossing l k).fw = h.fw ∧ (h.trainCrossing l k).mem = h.mem := by
  unfold Hub.trainCrossing
  split
  · exact ⟨rfl, rfl⟩
  · split
    · exact ⟨Hub.raise_fw _ _, Hub.raise_mem _ _⟩
    · exact ⟨rfl, rfl⟩

/-- Where none fails a crossing touches its own register alone. -/
theorem Hub.reg_trained_ne (h : Hub) (k : Fin 6) {o : Nat} (hne : o ≠ R.pcr_XING_LAT_HUB k.val) : (h.trainCrossing [] k).reg o = h.reg o := by
  unfold Hub.trainCrossing
  split
  · exact (Hub.reg_setFld_ne _ _ _ _ hne).trans (Hub.reg_setFld_ne _ _ _ _ hne)
  · exact (Hub.reg_setFld_ne _ _ _ _ hne).trans (Hub.reg_setFld_ne _ _ _ _ hne)

/-- A crossing that trains: FIXED at its latency, or UNLOCKED at it on an unlocked clock, its state as before. -/
theorem Hub.fld_trained (h : Hub) (k : Fin 6) :
    (h.trainCrossing [] k).fld (R.pcr_XING_LAT_HUB_LAT k.val) = hubXingLat k.val ∧
    (h.unlocked k.val = false → (h.trainCrossing [] k).fld (R.pcr_XING_LAT_HUB_XSTATE k.val) = 2) ∧
    (h.unlocked k.val = true → (h.trainCrossing [] k).fld (R.pcr_XING_LAT_HUB_UNLOCKED k.val) = 1 ∧
      (h.trainCrossing [] k).fld (R.pcr_XING_LAT_HUB_XSTATE k.val) = h.fld (R.pcr_XING_LAT_HUB_XSTATE k.val)) := by
  generalize hx : k.val = x
  have hlat : (R.pcr_XING_LAT_HUB_LAT x).lo + (R.pcr_XING_LAT_HUB_LAT x).w ≤ 32 := by simp [R.pcr_XING_LAT_HUB_LAT]
  have hstate : (R.pcr_XING_LAT_HUB_XSTATE x).lo + (R.pcr_XING_LAT_HUB_XSTATE x).w ≤ 32 := by simp [R.pcr_XING_LAT_HUB_XSTATE]
  have hunlocked : (R.pcr_XING_LAT_HUB_UNLOCKED x).lo + (R.pcr_XING_LAT_HUB_UNLOCKED x).w ≤ 32 := by simp [R.pcr_XING_LAT_HUB_UNLOCKED]
  have hls : (R.pcr_XING_LAT_HUB_LAT x).apart (R.pcr_XING_LAT_HUB_XSTATE x) := by
    simp [Fld.apart, R.pcr_XING_LAT_HUB_LAT, R.pcr_XING_LAT_HUB_XSTATE]
  have hlu : (R.pcr_XING_LAT_HUB_LAT x).apart (R.pcr_XING_LAT_HUB_UNLOCKED x) := by
    simp [Fld.apart, R.pcr_XING_LAT_HUB_LAT, R.pcr_XING_LAT_HUB_UNLOCKED]
  have hus : (R.pcr_XING_LAT_HUB_UNLOCKED x).apart (R.pcr_XING_LAT_HUB_XSTATE x) := by
    simp [Fld.apart, R.pcr_XING_LAT_HUB_UNLOCKED, R.pcr_XING_LAT_HUB_XSTATE]
  have hwidth : hubXingLat x % 2 ^ 8 = hubXingLat x := by
    unfold hubXingLat
    split <;> rfl
  have hset (g : Hub) : (g.setFld (R.pcr_XING_LAT_HUB_LAT x) (hubXingLat x)).fld (R.pcr_XING_LAT_HUB_LAT x) = hubXingLat x :=
    (Hub.fld_setFld_self _ _ _ hlat).trans hwidth
  unfold Hub.trainCrossing
  rw [hx]
  split
  next hu =>
    refine ⟨hset _, fun h0 => absurd (h0.symm.trans hu) Bool.false_ne_true, fun _ => ⟨?_, ?_⟩⟩
    · rw [Hub.fld_setFld_apart _ _ _ _ hunlocked hlu]
      exact Hub.fld_setFld_self _ _ _ hunlocked
    · rw [Hub.fld_setFld_apart _ _ _ _ hstate hls, Hub.fld_setFld_apart _ _ _ _ hstate hus]
  next hu =>
    refine ⟨hset _, fun _ => ?_, fun h1 => absurd h1 hu⟩
    exact (Hub.fld_setFld_apart _ _ _ _ hstate hls).trans (Hub.fld_setFld_self _ _ _ hstate)

/-- Clocks are unlocked by HUB_CLK_SRC. -/
theorem Hub.unlocked_congr {h g : Hub} (e : g.reg R.pcr_HUB_CLK_SRC = h.reg R.pcr_HUB_CLK_SRC) (k : Nat) : g.unlocked k = h.unlocked k := by
  have hfld (f : Fld) (hf : f.off = R.pcr_HUB_CLK_SRC) : g.flag f = h.flag f := by
    unfold Hub.flag Hub.fld
    rw [hf, e]
  unfold Hub.unlocked
  rw [hfld _ rfl, hfld _ rfl]

/-- The hub once its PLLs have locked and no crossing has failed. -/
structure Hub.Locked (h g : Hub) : Prop where
  fw : g.fw = { h.fw with hubUp := true }
  mem : g.mem = h.mem
  crossings : ∀ k, k < 6 → g.fld (R.pcr_XING_LAT_HUB_LAT k) = hubXingLat k ∧
    (g.unlocked k = false → g.fld (R.pcr_XING_LAT_HUB_XSTATE k) = 2) ∧ (g.unlocked k = true → g.flag (R.pcr_XING_LAT_HUB_UNLOCKED k) = true)

theorem Hub.lockTry_locked (h : Hub) (hx : h.crossFailed = false) : h.Locked (h.lockTry true []) := by
  have hclock : ((List.finRange 6).foldl (Hub.trainCrossing []) h).reg R.pcr_HUB_CLK_SRC = h.reg R.pcr_HUB_CLK_SRC :=
    foldl_keeps (P := fun x : Hub => x.reg R.pcr_HUB_CLK_SRC = h.reg R.pcr_HUB_CLK_SRC)
      (fun x k hx => (Hub.reg_trained_ne x k (by simp only [R.pcr_HUB_CLK_SRC, R.pcr_XING_LAT_HUB]; omega)).trans hx) _ rfl
  have hkept : ((List.finRange 6).foldl (Hub.trainCrossing []) h).fw = h.fw ∧ ((List.finRange 6).foldl (Hub.trainCrossing []) h).mem = h.mem :=
    foldl_keeps (P := fun x : Hub => x.fw = h.fw ∧ x.mem = h.mem)
      (fun x k hx => ⟨(Hub.trainCrossing_kept [] x k).1.trans hx.1, (Hub.trainCrossing_kept [] x k).2.trans hx.2⟩) _ ⟨rfl, rfl⟩
  have hcross (k : Fin 6) : ∃ g : Hub, (∀ j, g.unlocked j = h.unlocked j) ∧
      g.reg (R.pcr_XING_LAT_HUB k.val) = h.reg (R.pcr_XING_LAT_HUB k.val) ∧
      ((List.finRange 6).foldl (Hub.trainCrossing []) h).reg (R.pcr_XING_LAT_HUB k.val) =
        (g.trainCrossing [] k).reg (R.pcr_XING_LAT_HUB k.val) := by
    obtain ⟨g, hother, hown, hend⟩ := Hub.reg_foldl_apart (r := fun k : Fin 6 => R.pcr_XING_LAT_HUB k.val)
      (fun h k o ho => Hub.reg_trained_ne h k ho) (fun i j e => Fin.ext (by simp only [R.pcr_XING_LAT_HUB] at e; omega))
      (List.finRange 6) (List.nodup_finRange 6) (List.mem_finRange k) h
    exact ⟨g, Hub.unlocked_congr (hother _ (fun j => by simp only [R.pcr_HUB_CLK_SRC, R.pcr_XING_LAT_HUB]; omega)), hown, hend⟩
  unfold Hub.lockTry
  simp only [Bool.not_true, Bool.false_eq_true, if_false]
  generalize (List.finRange 6).foldl (Hub.trainCrossing []) h = t at hclock hkept hcross
  obtain ⟨hfw, hmem⟩ := hkept
  have hfld (k : Fin 6) : t.fld (R.pcr_XING_LAT_HUB_LAT k.val) = hubXingLat k.val ∧
      (t.unlocked k.val = false → t.fld (R.pcr_XING_LAT_HUB_XSTATE k.val) = 2) ∧
      (t.unlocked k.val = true → t.fld (R.pcr_XING_LAT_HUB_UNLOCKED k.val) = 1 ∧
        t.fld (R.pcr_XING_LAT_HUB_XSTATE k.val) = h.fld (R.pcr_XING_LAT_HUB_XSTATE k.val)) := by
    obtain ⟨g, hunlocked, hown, hend⟩ := hcross k
    have htrained := Hub.fld_trained g k
    rw [hunlocked, ← Hub.unlocked_congr hclock] at htrained
    unfold Hub.fld R.pcr_XING_LAT_HUB_LAT R.pcr_XING_LAT_HUB_XSTATE R.pcr_XING_LAT_HUB_UNLOCKED at htrained ⊢
    rwa [← hend, hown] at htrained
  have hok : t.crossFailed = false := by
    unfold Hub.crossFailed at hx ⊢
    rw [List.any_eq_false] at hx ⊢
    intro k hk
    obtain ⟨-, hfixed, hunlocked⟩ := hfld ⟨k, List.mem_range.mp hk⟩
    have hbefore := hx k hk
    cases hu : t.unlocked k with
    | false => simp [hfixed hu]
    | true => rwa [(hunlocked hu).2]
  refine ⟨?_, hmem, fun k hk => ?_⟩
  · simp only [Hub.updFw, hok, hfw, Bool.not_false]
  · obtain ⟨hlat, hfixed, hunlocked⟩ := hfld ⟨k, hk⟩
    exact ⟨hlat, hfixed, fun hu => by
      unfold Hub.flag
      exact decide_eq_true (by rw [show (t.updFw _).fld _ = 1 from (hunlocked hu).1]; decide)⟩

/-! ## The release -/

/-- The first PFs are enabled in the endpoints' blocks. -/
theorem Hub.reg_firstPfs (h : Hub) {o : Nat} (ho : o < 0x200000) : h.firstPfs.reg o = h.reg o := by
  unfold Hub.firstPfs
  exact foldl_keeps (P := fun x : Hub => x.reg o = h.reg o) (f := fun (h : Hub) k => h.setFld (R.ep_FN_CFG_ENABLE (fnPort k) (fnIdx k)) 1)
    (fun x k hx => (Hub.reg_setFld_ne _ _ _ _ (by simp only [R.ep_FN_CFG_ENABLE, R.ep_FN_CFG]; omega)).trans hx) _ rfl

theorem Hub.reg_restoreWake (h : Hub) {o : Nat} (ho : o < 0x200000) : h.restoreWake.reg o = h.reg o := by
  unfold Hub.restoreWake
  split
  · rw [Hub.reg_setFld_ne _ _ _ _ (by simp only [R.side_STATION_CTL_VALID, R.side_STATION_CTL]; omega),
      Hub.reg_setFld_ne _ _ _ _ (by simp only [R.side_STATION_ADDR_HI_ADDR_HI, R.side_STATION_ADDR_HI]; omega),
      Hub.reg_setReg_ne _ _ (by simp only [R.side_STATION_ADDR_LO]; omega)]
  · rfl

/-- The straps are sampled, but not after a fault. -/
def Hub.strapped (h : Hub) (x y : Bool) : Hub :=
  if h.fld R.pcr_RESET_CAUSE_HUB_FAULT_CAUSE ≠ 0 then h
  else (h.setFld R.pcr_STRAP_STATUS_PCIE_SPLIT_0 (if x then 1 else 0)).setFld R.pcr_STRAP_STATUS_PCIE_SPLIT_1 (if y then 1 else 0)

/-- The hold ends: the lifecycle state is read, and DEBUG_SEQ and WARN_C take their values. -/
def Hub.heldNoMore (h : Hub) : Hub :=
  let h := h.updFw (fun w => { w with por := false, power := .d0, wakeArmed := false, lc := w.fuses.state, pendingLc := false })
  let h := h.setReg R.dbg_DEBUG_SEQ ((Config.freeValue h.free).setWidth 32)
  let h : Hub := { h with free := h.free + 1 }
  h.setFld R.pcr_THERM_CTL_WARN_C (warnReset h.fw.part)

theorem Hub.porRelease_eq (h : Hub) (x y : Bool) :
    h.porRelease x y = (h.strapped x y).heldNoMore.restoreWake.clockSources.firstPfs := rfl

theorem Hub.strapped_fw (h : Hub) (x y : Bool) : (h.strapped x y).fw = h.fw := by
  unfold Hub.strapped
  split <;> rfl

theorem Hub.reg_strapped (h : Hub) (x y : Bool) {o : Nat} (ho : o ≠ R.pcr_STRAP_STATUS) : (h.strapped x y).reg o = h.reg o := by
  unfold Hub.strapped
  split
  · rfl
  · exact (Hub.reg_setFld_ne _ _ _ _ ho).trans (Hub.reg_setFld_ne _ _ _ _ ho)

theorem Hub.reg_heldNoMore (h : Hub) {o : Nat} (hseq : o ≠ R.dbg_DEBUG_SEQ) (hwarn : o ≠ R.pcr_THERM_CTL) : h.heldNoMore.reg o = h.reg o := by
  unfold Hub.heldNoMore
  exact (Hub.reg_setFld_ne _ _ _ _ hwarn).trans (Hub.reg_setReg_ne _ _ hseq)

/-- The release leaves the registers of the crossings. -/
theorem Hub.reg_porRelease (h : Hub) (x y : Bool) (k : Nat) (hk : k < 6) :
    (h.porRelease x y).reg (R.pcr_XING_LAT_HUB k) = h.reg (R.pcr_XING_LAT_HUB k) := by
  have ho : R.pcr_XING_LAT_HUB k < 0x200000 := by simp only [R.pcr_XING_LAT_HUB]; omega
  have hclock : R.pcr_XING_LAT_HUB k ≠ R.pcr_HUB_CLK_SRC := by simp only [R.pcr_XING_LAT_HUB, R.pcr_HUB_CLK_SRC]; omega
  have hwarn : R.pcr_XING_LAT_HUB k ≠ R.pcr_THERM_CTL := by simp only [R.pcr_XING_LAT_HUB, R.pcr_THERM_CTL]; omega
  have hseq : R.pcr_XING_LAT_HUB k ≠ R.dbg_DEBUG_SEQ := by simp only [R.pcr_XING_LAT_HUB, R.dbg_DEBUG_SEQ]; omega
  have hstrap : R.pcr_XING_LAT_HUB k ≠ R.pcr_STRAP_STATUS := by simp only [R.pcr_XING_LAT_HUB, R.pcr_STRAP_STATUS]; omega
  rw [Hub.porRelease_eq, Hub.reg_firstPfs _ ho]
  exact (Hub.reg_setReg_ne _ _ hclock).trans
    ((Hub.reg_restoreWake _ ho).trans ((Hub.reg_heldNoMore _ hseq hwarn).trans (Hub.reg_strapped h x y hstrap)))

theorem Hub.crossFailed_congr {h g : Hub} (e : ∀ k, k < 6 → g.reg (R.pcr_XING_LAT_HUB k) = h.reg (R.pcr_XING_LAT_HUB k)) :
    g.crossFailed = h.crossFailed := by
  have hfld (k : Nat) (hk : k ∈ List.range 6) : g.fld (R.pcr_XING_LAT_HUB_XSTATE k) = h.fld (R.pcr_XING_LAT_HUB_XSTATE k) := by
    unfold Hub.fld R.pcr_XING_LAT_HUB_XSTATE
    rw [e k (List.mem_range.mp hk)]
  unfold Hub.crossFailed
  rw [Bool.eq_iff_iff, List.any_eq_true, List.any_eq_true]
  constructor
  · rintro ⟨k, hk, hstate⟩
    exact ⟨k, hk, by rwa [hfld k hk] at hstate⟩
  · rintro ⟨k, hk, hstate⟩
    exact ⟨k, hk, by rwa [hfld k hk]⟩

/-- The release ends the hold, and leaves whether the hub is up. -/
theorem Hub.fw_porRelease (h : Hub) (x y : Bool) : (h.porRelease x y).fw.por = false ∧ (h.porRelease x y).fw.hubUp = h.fw.hubUp := by
  have hfirst (g : Hub) : g.firstPfs.fw.por = g.fw.por ∧ g.firstPfs.fw.hubUp = g.fw.hubUp := by
    unfold Hub.firstPfs
    exact foldl_keeps (P := fun z : Hub => z.fw.por = g.fw.por ∧ z.fw.hubUp = g.fw.hubUp)
      (f := fun (h : Hub) k => h.setFld (R.ep_FN_CFG_ENABLE (fnPort k) (fnIdx k)) 1) (fun _ _ hz => hz) _ ⟨rfl, rfl⟩
  have hwake (g : Hub) : g.restoreWake.fw = g.fw := by
    unfold Hub.restoreWake
    split <;> rfl
  have hclock (g : Hub) : g.clockSources.fw.por = g.fw.por ∧ g.clockSources.fw.hubUp = g.fw.hubUp := ⟨rfl, rfl⟩
  rw [Hub.porRelease_eq]
  obtain ⟨hpor, hup⟩ := hfirst (h.strapped x y).heldNoMore.restoreWake.clockSources
  obtain ⟨hpor', hup'⟩ := hclock (h.strapped x y).heldNoMore.restoreWake
  rw [hpor, hup, hpor', hup', hwake]
  refine ⟨rfl, ?_⟩
  rw [← Hub.strapped_fw h x y]
  rfl

/-! ## The boot -/

/-- A cause of a slot fits its field. -/
theorem Hub.slotCause_lt (h : Hub) (a : Option (List Byte)) : h.slotCause a % 2 ^ 3 = h.slotCause a := by
  refine Nat.mod_eq_of_lt ?_
  unfold Hub.slotCause
  split
  · decide
  · split_ifs <;> decide

/-- Ports that may train change their links alone. -/
theorem Hub.trainPort_kept (h : Hub) (p : Nat) : (h.trainPort p).regs = h.regs ∧ (h.trainPort p).fw = h.fw := by
  unfold Hub.trainPort
  split
  · refine foldl_keeps (P := fun x : Hub => x.regs = h.regs ∧ x.fw = h.fw) (fun x l hx => ?_) _ ⟨rfl, rfl⟩
    split
    · exact hx
    · exact hx
  · exact ⟨rfl, rfl⟩

/-- The hub that the image of a slot leaves as it starts. -/
theorem Hub.bootImage_spec (h : Hub) (l : List Byte) :
    (h.bootImage l).fw = { h.fw with
      image := some { svn := leNat (slice l 6 1), version := leNat (slice l 8 4), measurement := imgMeas l }, locked := true, secrets := true } ∧
    (h.bootImage l).fld R.pcr_RESET_CAUSE_IMAGE_OK = 1 ∧ (h.bootImage l).reg R.seal_BOOT_STATUS = h.reg R.seal_BOOT_STATUS := by
  have hmeas (g : Hub) (f : Nat → Word) :
      ((List.range 8).foldl (fun (h : Hub) w => h.setReg (R.pcr_BOOT_MEAS w) (f w)) g).fw = g.fw ∧
      ((List.range 8).foldl (fun (h : Hub) w => h.setReg (R.pcr_BOOT_MEAS w) (f w)) g).reg R.seal_BOOT_STATUS = g.reg R.seal_BOOT_STATUS := by
    refine List.foldlRecOn (motive := fun x : Hub => x.fw = g.fw ∧ x.reg R.seal_BOOT_STATUS = g.reg R.seal_BOOT_STATUS) _ _ ⟨rfl, rfl⟩
      (fun x hx w hw => ⟨hx.1, (Hub.reg_setReg_ne _ _ ?_).trans hx.2⟩)
    have := List.mem_range.mp hw
    simp only [R.seal_BOOT_STATUS, R.pcr_BOOT_MEAS]
    omega
  unfold Hub.bootImage
  dsimp only
  obtain ⟨hfw, hreg⟩ := hmeas ((h.startImage l).updFw (fun w => { w with locked := true, secrets := true }))
    (fun w => BitVec.ofNat 32 (leNat (slice (beBytes 32 (imgMeas l)) (4 * w) 4)))
  generalize (List.range 8).foldl _ _ = t at hfw hreg ⊢
  obtain ⟨hregs1, hfw1⟩ := ((t.setFld R.pcr_RESET_CAUSE_IMAGE_OK 1).trainPort 0).trainPort_kept 1
  obtain ⟨hregs0, hfw0⟩ := (t.setFld R.pcr_RESET_CAUSE_IMAGE_OK 1).trainPort_kept 0
  have hsame (o : Nat) : (((t.setFld R.pcr_RESET_CAUSE_IMAGE_OK 1).trainPort 0).trainPort 1).reg o =
      (t.setFld R.pcr_RESET_CAUSE_IMAGE_OK 1).reg o := by
    unfold Hub.reg
    rw [hregs1, hregs0]
  refine ⟨hfw1.trans (hfw0.trans hfw), ?_, (hsame _).trans ((Hub.reg_setFld_ne _ _ _ _ (by decide)).trans hreg)⟩
  unfold Hub.fld
  rw [hsame]
  exact Hub.fld_setFld_self t R.pcr_RESET_CAUSE_IMAGE_OK 1 (by decide)

/-- The fields of BOOT_STATUS as the boot leaves them. -/
theorem Hub.boot_spec (h : Hub) (a b : Option (List Byte)) :
    (h.slotCause a = 0 → h.boot a b = (h.setFld R.seal_BOOT_STATUS_A_CAUSE 0).bootImage (a.getD [])) ∧
    (h.slotCause a ≠ 0 → h.slotCause b = 0 → h.boot a b =
      (((h.setFld R.seal_BOOT_STATUS_A_CAUSE (h.slotCause a)).setFld R.seal_BOOT_STATUS_B_CAUSE 0).setFld
        R.seal_BOOT_STATUS_SLOT_B 1).bootImage (b.getD [])) ∧
    (h.slotCause a ≠ 0 → h.slotCause b ≠ 0 → h.boot a b =
      (h.setFld R.seal_BOOT_STATUS_A_CAUSE (h.slotCause a)).setFld R.seal_BOOT_STATUS_B_CAUSE (h.slotCause b)) := by
  unfold Hub.boot
  refine ⟨fun ha => ?_, fun ha hb => ?_, fun ha hb => ?_⟩
  · simp only [ha, if_true]
  · simp only [ha, hb, if_true, if_false]
  · simp only [ha, hb, if_false]

/-- A field of BOOT_STATUS survives the start of an image. -/
theorem Hub.fld_bootImage (h : Hub) (l : List Byte) {f : Fld} (hf : f.off = R.seal_BOOT_STATUS) : (h.bootImage l).fld f = h.fld f := by
  unfold Hub.fld
  rw [hf, (Hub.bootImage_spec h l).2.2]

/-! ## The statement -/

/-- Settles O7: the release trains the crossings, the boot starts the first good slot, and a fault reset forces every bench off. -/
theorem powerOnAndBoot : Obligations.PowerOnAndBoot := by
  unfold Obligations.PowerOnAndBoot
  refine ⟨?assert, ?release, ?unlocked, ?retry, ?boot, ?fault, ?pll⟩
  case assert =>
    intro aux s
    obtain ⟨hpor, hup, hmem, hfuses⟩ := Device.hub_porAssert s.dev aux
    exact ⟨_, rfl, rfl, hpor, hup, hmem, hfuses, fun n => Device.bench_porAssert s.dev aux n⟩
  case release =>
    intro x y s hpor hpwr hcross
    have hlock := Hub.lockTry_locked (s.dev.hub.porRelease x y)
      ((Hub.crossFailed_congr (fun k hk => Hub.reg_porRelease s.dev.hub x y k hk)).trans hcross)
    obtain ⟨hpor', -⟩ := Hub.fw_porRelease s.dev.hub x y
    refine runsHub_onHub rfl ?_
    rw [if_pos (by rw [hpor, hpwr]; rfl)]
    refine ⟨?_, ?_, hlock.crossings⟩
    · unfold Hub.up
      rw [hlock.fw, hpor']
      rfl
    · rw [hlock.fw]
      exact hpor'
  case unlocked =>
    intro x y l s hpor hpwr hup
    obtain ⟨hpor', hup'⟩ := Hub.fw_porRelease s.dev.hub x y
    refine runsHub_onHub rfl ?_
    rw [if_pos (by rw [hpor, hpwr]; rfl)]
    refine ⟨?_, hpor'⟩
    show (!(s.dev.hub.porRelease x y).fw.por && (s.dev.hub.porRelease x y).fw.hubUp) = false
    rw [hup', hup, Bool.and_false]
  case retry =>
    intro s hpor hup hcross
    have hlock := Hub.lockTry_locked s.dev.hub hcross
    refine runsHub_onHub rfl ?_
    rw [if_pos (by rw [hpor, hup, hcross]; rfl)]
    refine ⟨?_, hlock.mem, hlock.crossings⟩
    unfold Hub.up
    rw [hlock.fw, hpor]
    rfl
  case boot =>
    intro a b s hup hlocked
    refine runsHub_onHub rfl ?_
    rw [if_pos (by rw [hup, hlocked]; rfl)]
    obtain ⟨hA, hB, hnone⟩ := Hub.boot_spec s.dev.hub a b
    have hwidth (c : Option (List Byte)) := Hub.slotCause_lt s.dev.hub c
    refine ⟨fun l hl ha => ?_, fun l hl ha hb => ?_, fun ha hb => ?_⟩
    · subst hl
      rw [hA ha, Hub.fld_bootImage _ _ rfl]
      obtain ⟨hfw, hok, -⟩ := Hub.bootImage_spec (s.dev.hub.setFld R.seal_BOOT_STATUS_A_CAUSE 0) l
      exact ⟨congrArg Firmware.locked hfw, congrArg Firmware.secrets hfw, Hub.fld_setFld_self _ _ _ (by decide), hok,
        congrArg Firmware.image hfw⟩
    · subst hl
      rw [hB ha hb, Hub.fld_bootImage _ _ rfl, Hub.fld_bootImage _ _ rfl, Hub.fld_bootImage _ _ rfl]
      obtain ⟨hfw, hok, -⟩ := Hub.bootImage_spec (((s.dev.hub.setFld R.seal_BOOT_STATUS_A_CAUSE (s.dev.hub.slotCause a)).setFld
        R.seal_BOOT_STATUS_B_CAUSE 0).setFld R.seal_BOOT_STATUS_SLOT_B 1) l
      refine ⟨congrArg Firmware.locked hfw, ?_, ?_, Hub.fld_setFld_self _ _ _ (by decide), hok, congrArg Firmware.image hfw⟩
      · rw [Hub.fld_setFld_apart _ _ _ _ (by decide) (.inr (by decide)), Hub.fld_setFld_apart _ _ _ _ (by decide) (.inr (by decide)),
          Hub.fld_setFld_self _ _ _ (by decide)]
        exact hwidth a
      · rw [Hub.fld_setFld_apart _ _ _ _ (by decide) (.inr (by decide)), Hub.fld_setFld_self _ _ _ (by decide)]
        rfl
    · rw [hnone ha hb]
      refine ⟨rfl, ?_, (Hub.fld_setFld_self _ _ _ (by decide)).trans (hwidth b)⟩
      rw [Hub.fld_setFld_apart _ _ _ _ (by decide) (.inr (by decide)), Hub.fld_setFld_self _ _ _ (by decide)]
      exact hwidth a
  case fault =>
    intro cause s hpor h1 h3
    have hexec : exec (.hubFaultReset cause) s = .next { s with dev := s.dev.hubFault cause } := by
      have h0 : cause ≠ 0 := by omega
      simp only [exec, execHubFaultReset, hpor, h0, Nat.not_lt.mpr h3, decide_false, Bool.or_self, Bool.false_eq_true, if_false]
    obtain ⟨hpor', hup, hfault, hcause⟩ := Device.hubFault_hub s.dev (cause := cause) (by omega)
    exact ⟨_, hexec, rfl, hpor', hup, hfault, hcause, Device.allOff_hubFault s.dev cause⟩
  case pll =>
    intro s hup
    have hexec : exec (.pllUnlock none) s = .next { s with dev := s.dev.hubFault 1 } := by
      simp only [exec, execPllUnlock, hup, if_true]
    obtain ⟨hpor', -, -, hcause⟩ := Device.hubFault_hub s.dev (cause := 1) (by decide)
    exact ⟨_, hexec, rfl, hpor', hcause, Device.allOff_hubFault s.dev 1⟩

end Sys2Proof.Machine
end

section
/-! What a bench is left as when it fails or leaves (R44, R48), and O5: the steps of a start (R46). -/
namespace Sys2Proof.Machine

/-! ## A bench that fails -/

/-- Its packets and claims are gone and its registers read their reset words. -/
theorem Bench.emptied_spec (b : Bench) (s : BenchSt) (retain : Bool) : (b.emptied s retain).pkts = [] ∧ (b.emptied s retain).rings.claims = [] ∧
    (∀ o, (b.emptied s retain).reg o = benchRegReset o) ∧
    ∀ k, k ≠ T.DRAM_SR_ENTRIES → (b.emptied s retain).tally k = b.tally k := by
  unfold Bench.emptied
  dsimp only
  split
  · split
    · exact ⟨rfl, rfl, fun _ => rfl, fun k hk => Bench.tally_count_ne _ _ hk⟩
    · exact ⟨rfl, rfl, fun _ => rfl, fun _ _ => rfl⟩
  · exact ⟨rfl, rfl, fun _ => rfl, fun _ _ => rfl⟩

/-- A bench that leaves holds no packet and no claim, and its registers read their reset words. -/
theorem benchLeaves_spec (n : BenchId) (s : BenchSt) (drained : Bool) (h : Hub) (b : Bench) :
    (benchLeaves n s drained h b).2.pkts = [] ∧ (benchLeaves n s drained h b).2.rings.claims = [] ∧
      ∀ o, (benchLeaves n s drained h b).2.reg o = benchRegReset o := by
  unfold benchLeaves
  obtain ⟨hpkts, hclaims, hregs, -⟩ := Bench.emptied_spec (if drained then b else b.domainLost) s (if drained then b else b.domainLost).retains
  exact ⟨hpkts, hclaims, hregs⟩

/-- A failure of a bench that works, or starts: its cause flag is set, and it is in FAULT, with no packet, no claim and reset registers. -/
theorem benchFails_of_up {n : BenchId} {cause : Fld} {ev : Option Nat} {h : Hub} {b : Bench} (hup : b.up = true) (ho : cause.off < 0x200000)
    (hw : cause.w = 1) (hlo : cause.lo < 32) :
    (benchFails n cause ev h b).1.fld cause = 1 ∧ (benchFails n cause ev h b).2.power.st = .fault ∧
      (benchFails n cause ev h b).2.rings.claims = [] ∧ (benchFails n cause ev h b).2.pkts = [] ∧
      ∀ o, (benchFails n cause ev h b).2.reg o = benchRegReset o := by
  obtain ⟨hpkts, hclaims, hregs⟩ := benchLeaves_spec n .fault false (h.setFld cause 1) b
  have hst := benchLeaves_st n .fault false (h.setFld cause 1) b
  have hcause : (benchLeaves n .fault false (h.setFld cause 1) b).1.fld cause = 1 := by
    unfold Hub.fld
    rw [reg_benchLeaves _ _ _ _ _ ho]
    exact (Hub.fld_setFld_self h cause 1 (by omega)).trans (by rw [hw]; rfl)
  have heq : benchFails n cause ev h b = ((benchLeaves n .fault false (h.setFld cause 1) b).1, match ev with
      | some k => (benchLeaves n .fault false (h.setFld cause 1) b).2.raise k
      | none => (benchLeaves n .fault false (h.setFld cause 1) b).2) := by
    unfold benchFails
    unfold Bench.up Bench.live at hup
    cases hb : b.power.st <;> simp [hb] at hup ⊢ <;> rfl
  rw [heq]
  cases ev <;> exact ⟨hcause, hst, hclaims, hpkts, hregs⟩

/-- A bench that is OFF does not fail. -/
theorem benchFails_of_off {n : BenchId} {cause : Fld} {ev : Option Nat} {h : Hub} {b : Bench} (hoff : b.power.st = .off) :
    benchFails n cause ev h b = (h, b) := by
  unfold benchFails
  rw [hoff]

/-- What a command on a bench and the hub leaves, once both are given outright. -/
theorem runsBoth_of_leavesBoth {c : Instr} {n : BenchId} {s : State} {h : Hub} {b : Bench} {P : Hub → Bench → Prop} (hl : LeavesBoth c n s h b)
    (hp : ∀ l, P (drainEvents n h b.evq).1 (b.afterEvents l)) : RunsBoth c n s P :=
  runsBoth_onBoth (f := fun _ _ => (h, b)) hl hp

/-- The flags of a failure, read after its events have been handed over. -/
theorem runsBoth_benchFails {c : Instr} {n : BenchId} {s : State} {cause : Fld} {ev : Option Nat} {P : Hub → Bench → Prop}
    (he : exec c s = s.onBoth n (benchFails n cause ev)) (hup : (s.dev.bench n).up = true) (ho : cause.off < 0x200000)
    (hw : cause.w = 1) (hlo : cause.lo < 32)
    (hp : ∀ h b, h.fld cause = 1 → b.power.st = .fault → b.rings.claims = [] → b.pkts = [] → (∀ o, b.reg o = benchRegReset o) → P h b) :
    RunsBoth c n s P := by
  obtain ⟨hcause, hst, hclaims, hpkts, hregs⟩ := benchFails_of_up (ev := ev) (n := n) (h := s.dev.hub) hup ho hw hlo
  exact runsBoth_onBoth he fun l => hp _ _ ((drainEvents_fld _ _ _ _ ho).trans hcause) hst hclaims hpkts hregs

/-! ## Fields written one after another -/

/-- Fields of different registers, written one after another, each hold the value written. -/
theorem Bench.fld_foldl_setFld {f : Nat → Fld} {v : Nat → Nat} (hf : ∀ i j, (f i).off = (f j).off → i = j) (hwidth : ∀ k, (f k).lo + (f k).w ≤ 32)
    {k : Nat} (hv : v k % 2 ^ (f k).w = v k) (l : List Nat) (b : Bench) (hk : k ∈ l) :
    (l.foldl (fun b k => b.setFld (f k) (v k)) b).fld (f k) = v k := by
  have hkept (l : List Nat) (b : Bench) (h : b.fld (f k) = v k) : (l.foldl (fun b k => b.setFld (f k) (v k)) b).fld (f k) = v k :=
    foldl_keeps (P := fun x : Bench => x.fld (f k) = v k) (f := fun (b : Bench) k => b.setFld (f k) (v k)) (fun _ j hx => by
      by_cases hj : j = k
      · rw [hj, Bench.fld_setFld_self _ _ _ (hwidth k), hv]
      · rw [Bench.fld_setFld_off _ _ _ _ (fun e => hj (hf k j e).symm), hx]) l h
  induction l generalizing b with
  | nil => cases hk
  | cons j t ih =>
    rw [List.foldl_cons]
    obtain rfl | hk := List.mem_cons.mp hk
    · exact hkept t _ ((Bench.fld_setFld_self _ _ _ (hwidth k)).trans hv)
    · exact ih _ hk

theorem Bench.reg_foldl_setFld_ne {f : Nat → Fld} {v : Nat → Nat} (l : List Nat) (b : Bench) {o : Nat} (ho : ∀ k ∈ l, o ≠ (f k).off) :
    (l.foldl (fun b k => b.setFld (f k) (v k)) b).reg o = b.reg o :=
  List.foldlRecOn (motive := fun x : Bench => x.reg o = b.reg o) l _ rfl (fun _ hx k hk => (Bench.reg_setFld_ne _ _ _ _ (ho k hk)).trans hx)

theorem Bench.foldl_setFld_regsOnly {f : Nat → Fld} {v : Nat → Nat} (l : List Nat) (b : Bench) :
    b.RegsOnly (l.foldl (fun b k => b.setFld (f k) (v k)) b) := .foldl (fun b _ => .setFld b _ _) l b

/-! ## The clear -/

/-- A sparse map of which only the keys of a set are kept. -/
theorem sparseGet_filter {α : Type} (d : Nat → α) (p : Nat → Bool) (l : List (Nat × α)) (k : Nat) :
    sparseGet d (l.filter (fun c => p c.1)) k = if p k then sparseGet d l k else d k := by
  induction l with
  | nil => simp [sparseGet]
  | cons c t ih =>
    obtain ⟨a, x⟩ := c
    by_cases ha : p a = true
    · rw [List.filter_cons_of_pos (by exact ha)]
      by_cases hk : k = a
      · simp [sparseGet, hk, ha]
      · simp [sparseGet, hk, ih]
    · rw [List.filter_cons_of_neg (by exact ha), ih]
      by_cases hk : k = a
      · simp [hk, ha]
      · simp [sparseGet, hk]

/-- The DRAM of a cleared bench waits for its configuration. -/
def Bench.dramWaits (b : Bench) : Bench :=
  if b.power.dramEn then
    (b.setFld R.dram_DRAM_STATUS_STATE 1).setFld R.dram_DRAM_STATUS_RETAINED (if b.dram.retained then 1 else 0)
  else b

/-- The dies of a flash channel are identified over its bus. -/
def Bench.identifyDies (b : Bench) (c : Nat) : Bench := (List.range 4).foldl (fun b ce => b.onBus c (4 * ce) 10 0 []) b

/-- Its flash channels identify their dies. -/
def Bench.flashIdentifies (b : Bench) : Bench :=
  if b.power.flashEn then
    [0, 1].foldl (fun b c => (b.setFld (R.storage_FLASH_STATUS_STATE c) 1).identifyDies c) b
  else b

/-- A bench whose SRAMs and tables are cleared. -/
def Bench.memCleared (b : Bench) : Bench :=
  { b with power := { b.power with cleared := true }, mem := b.mem.filter (fun c => 0x8000000000 ≤ c.1) }

theorem Bench.dramWaits_regsOnly (b : Bench) : b.RegsOnly b.dramWaits := by
  unfold Bench.dramWaits
  split
  · exact (Bench.RegsOnly.setFld _ _ _).trans (.setFld _ _ _)
  · exact .refl b

/-- Traffic on a flash bus is no change of registers, memory or power. -/
theorem Bench.identifyDies_kept (b : Bench) (c : Nat) :
    (b.identifyDies c).power = b.power ∧ (b.identifyDies c).mem = b.mem ∧ (b.identifyDies c).regs = b.regs :=
  foldl_keeps (P := fun x : Bench => x.power = b.power ∧ x.mem = b.mem ∧ x.regs = b.regs)
    (f := fun (b : Bench) ce => b.onBus c (4 * ce) 10 0 []) (fun _ _ h => h) _ ⟨rfl, rfl, rfl⟩

theorem Bench.fld_identifyDies (b : Bench) (c : Nat) (f : Fld) : (b.identifyDies c).fld f = b.fld f := by
  unfold Bench.fld Bench.reg
  rw [(Bench.identifyDies_kept b c).2.2]

theorem Bench.flashIdentifies_kept (b : Bench) : b.flashIdentifies.power = b.power ∧ b.flashIdentifies.mem = b.mem ∧
    b.flashIdentifies.fld R.dram_DRAM_STATUS_STATE = b.fld R.dram_DRAM_STATUS_STATE := by
  unfold Bench.flashIdentifies
  split
  · refine foldl_keeps (P := fun x : Bench => x.power = b.power ∧ x.mem = b.mem ∧
      x.fld R.dram_DRAM_STATUS_STATE = b.fld R.dram_DRAM_STATUS_STATE) (fun x c hx => ?_) _ ⟨rfl, rfl, rfl⟩
    obtain ⟨hpower, hmem, hfld⟩ := hx
    obtain ⟨hpower', hmem', -⟩ := Bench.identifyDies_kept (x.setFld (R.storage_FLASH_STATUS_STATE c) 1) c
    refine ⟨hpower'.trans hpower, hmem'.trans hmem, ?_⟩
    rw [Bench.fld_identifyDies, Bench.fld_setFld_off, hfld]
    simp only [R.dram_DRAM_STATUS_STATE, R.dram_DRAM_STATUS, R.storage_FLASH_STATUS_STATE, R.storage_FLASH_STATUS]
    omega
  · exact ⟨rfl, rfl, rfl⟩

theorem Bench.fld_dramWaits (b : Bench) (h : b.power.dramEn = true) : b.dramWaits.fld R.dram_DRAM_STATUS_STATE = 1 := by
  unfold Bench.dramWaits
  rw [if_pos h, Bench.fld_setFld_apart _ _ _ _ (by decide) (.inr (by decide)), Bench.fld_setFld_self _ _ _ (by decide)]
  rfl

theorem Bench.fld_flashIdentifies (b : Bench) (h : b.power.flashEn = true) :
    b.flashIdentifies.fld (R.storage_FLASH_STATUS_STATE 0) = 1 ∧ b.flashIdentifies.fld (R.storage_FLASH_STATUS_STATE 1) = 1 := by
  unfold Bench.flashIdentifies
  rw [if_pos h, List.foldl_cons, List.foldl_cons, List.foldl_nil]
  constructor
  · rw [Bench.fld_identifyDies, Bench.fld_setFld_off _ _ _ _ (by decide), Bench.fld_identifyDies, Bench.fld_setFld_self _ _ _ (by decide)]
    rfl
  · rw [Bench.fld_identifyDies, Bench.fld_setFld_self _ _ _ (by decide)]
    rfl

/-- The memory of a cleared bench. -/
theorem Bench.memByte_memCleared (b : Bench) (a : Nat) :
    memByte b.memCleared.mem a = if a < 0x8000000000 then 0 else memByte b.mem a := by
  have hfilter := sparseGet_filter unwritten (fun k => decide (0x8000000000 ≤ k)) b.mem a
  unfold memByte Bench.memCleared
  refine hfilter.trans ?_
  by_cases h : a < 0x8000000000
  · rw [if_pos h, if_neg (by simpa using h)]
    rfl
  · rw [if_neg h, if_pos (by simpa using h)]

/-! ## RUNNING -/

theorem Bench.initFec_regsOnly (b : Bench) : b.RegsOnly b.initFec := .foldl (fun b _ => .setFld b _ _) _ b

/-- FEC_EN of port `p` as its bench enters RUNNING in a port mode. -/
def fecAtStart (mode p : Nat) : Nat := if p < portCount mode && mode ≠ 5 then 1 else 0

/-- The port mode stands while the fields are written. -/
theorem Bench.initFec_eq (b : Bench) :
    b.initFec = (List.range 4).foldl (fun x p => x.setFld (R.face_PORT_CTL_FEC_EN p) (fecAtStart b.power.portMode p)) b := by
  have hall (l : List Nat) (x : Bench) (hx : x.power = b.power) :
      l.foldl (fun b p => b.setFld (R.face_PORT_CTL_FEC_EN p) (fecAtStart b.power.portMode p)) x =
        l.foldl (fun x p => x.setFld (R.face_PORT_CTL_FEC_EN p) (fecAtStart b.power.portMode p)) x := by
    induction l generalizing x with
    | nil => rfl
    | cons p t ih =>
      rw [List.foldl_cons, List.foldl_cons, hx]
      exact ih _ hx
  exact hall (List.range 4) b rfl

theorem portCount_le (mode : Nat) : portCount mode ≤ 4 := by
  unfold portCount
  split <;> decide

/-- FEC_EN of each port. -/
theorem Bench.fld_initFec (b : Bench) {p : Nat} (hp : p < portCount b.power.portMode) :
    b.initFec.fld (R.face_PORT_CTL_FEC_EN p) = if b.power.portMode = 5 then 0 else 1 := by
  have hall := portCount_le b.power.portMode
  have hset := Bench.fld_foldl_setFld (f := R.face_PORT_CTL_FEC_EN) (k := p)
    (v := fecAtStart b.power.portMode)
    (fun i j e => by simp only [R.face_PORT_CTL_FEC_EN, R.face_PORT_CTL] at e; omega) (fun k => by simp [R.face_PORT_CTL_FEC_EN])
    (by unfold fecAtStart; split <;> rfl) (List.range 4) b (List.mem_range.mpr (by omega))
  rw [Bench.initFec_eq, hset, fecAtStart]
  by_cases h : b.power.portMode = 5
  · simp [h]
  · simp [h, hp]

/-! ## The crossings and the two failures of a start -/

/-- The PLLs are locked and every crossing of the bench trains. -/
def Bench.trainCrossings (b : Bench) : Bench :=
  (List.range 12).foldl (fun b k => b.setFld (R.bench_XING_LAT_XSTATE k) 1) { b with power := { b.power with pllsUp := true } }

theorem Bench.trainCrossings_regsOnly (b : Bench) :
    Bench.RegsOnly { b with power := { b.power with pllsUp := true } } b.trainCrossings := .foldl (fun b _ => .setFld b _ _) _ _

theorem Bench.fld_trainCrossings (b : Bench) {k : Nat} (hk : k < 12) : b.trainCrossings.fld (R.bench_XING_LAT_XSTATE k) = 1 :=
  Bench.fld_foldl_setFld (f := R.bench_XING_LAT_XSTATE) (v := fun _ => 1)
    (fun i j e => by simp only [R.bench_XING_LAT_XSTATE, R.bench_XING_LAT] at e; omega) (fun k => by simp [R.bench_XING_LAT_XSTATE]) rfl
    (List.range 12) _ (List.mem_range.mpr hk)

theorem Bench.reg_trainCrossings (b : Bench) {o : Nat} (ho : ¬ ∃ k, k < 12 ∧ o = R.bench_XING_LAT k) : b.trainCrossings.reg o = b.reg o :=
  Bench.reg_foldl_setFld_ne (f := R.bench_XING_LAT_XSTATE) (v := fun _ => 1) (List.range 12)
    { b with power := { b.power with pllsUp := true } } (fun k hk e => ho ⟨k, List.mem_range.mp hk, e⟩)

section
variable {n : BenchId} {s : State} (hst : (s.dev.bench n).power.st = .starting)
include hst

theorem leavesBoth_benchPllsLocked (hrails : (s.dev.bench n).power.railsUp = true) (hplls : (s.dev.bench n).power.pllsUp = false) :
    LeavesBoth (.benchPllsLocked n true) n s s.dev.hub (s.dev.bench n).trainCrossings :=
  leavesBoth_onBoth rfl ((if_pos (by simp [hst, hrails, hplls])).trans (if_pos rfl))

theorem leavesBoth_benchPllsLocked_not (hrails : (s.dev.bench n).power.railsUp = true) (hplls : (s.dev.bench n).power.pllsUp = false) :
    LeavesBoth (.benchPllsLocked n false) n s
      (benchFails n (R.pcr_BENCH_STATUS_PLL_UNLOCK n.val) (some 2) s.dev.hub (s.dev.bench n)).1
      (benchFails n (R.pcr_BENCH_STATUS_PLL_UNLOCK n.val) (some 2) s.dev.hub (s.dev.bench n)).2 :=
  leavesBoth_onBoth rfl ((if_pos (by simp [hst, hrails, hplls])).trans (if_neg Bool.false_ne_true))

theorem leavesBoth_crossingTrained_not {k : Nat} (hk : k < 12) (hx : (s.dev.bench n).fld (R.bench_XING_LAT_XSTATE k) = 1) :
    LeavesBoth (.crossingTrained n k false) n s
      (benchFails n (R.pcr_BENCH_STATUS_XING_FAIL n.val) (some 1) s.dev.hub (s.dev.bench n)).1
      ((benchFails n (R.pcr_BENCH_STATUS_XING_FAIL n.val) (some 1) s.dev.hub (s.dev.bench n)).2.setFld (R.bench_XING_LAT_XSTATE k) 3) :=
  leavesBoth_onBoth rfl ((if_pos (by simp [hst, hk, hx])).trans (if_neg Bool.false_ne_true))

/-- A bench that starts and fails is in FAULT with its cause flag set. -/
theorem benchFails_of_starting {cause : Fld} (ev : Option Nat) (ho : cause.off < 0x200000) (hw : cause.w = 1) (hlo : cause.lo < 32) :
    (benchFails n cause ev s.dev.hub (s.dev.bench n)).1.fld cause = 1 ∧
      (benchFails n cause ev s.dev.hub (s.dev.bench n)).2.power.st = .fault := by
  have hup : (s.dev.bench n).up = true := by simp [Bench.up, hst]
  obtain ⟨hcause, hfault, -⟩ := benchFails_of_up (n := n) (ev := ev) (h := s.dev.hub) hup ho hw hlo
  exact ⟨hcause, hfault⟩

end

/-- A crossing that does not train. -/
theorem runsBoth_crossingTrained_not {n : BenchId} {s : State} (hst : (s.dev.bench n).power.st = .starting) {k : Nat} (hk : k < 12)
    (hx : (s.dev.bench n).fld (R.bench_XING_LAT_XSTATE k) = 1) :
    RunsBoth (.crossingTrained n k false) n s (fun h b => h.fld (R.pcr_BENCH_STATUS_XING_FAIL n.val) = 1 ∧ b.power.st = .fault ∧
      b.fld (R.bench_XING_LAT_XSTATE k) = 3) := by
  have ho : (R.pcr_BENCH_STATUS_XING_FAIL n.val).off < 0x200000 := by simp only [R.pcr_BENCH_STATUS_XING_FAIL, R.pcr_BENCH_STATUS]; omega
  obtain ⟨hcause, hfault⟩ := benchFails_of_starting hst (some 1) ho rfl (by simp [R.pcr_BENCH_STATUS_XING_FAIL])
  have hleaves := leavesBoth_crossingTrained_not hst hk hx
  generalize benchFails n (R.pcr_BENCH_STATUS_XING_FAIL n.val) (some 1) s.dev.hub (s.dev.bench n) = r at hcause hfault hleaves
  have hfld := Bench.fld_setFld_self r.2 (R.bench_XING_LAT_XSTATE k) 3 (by simp [R.bench_XING_LAT_XSTATE])
  have hst' : (r.2.setFld (R.bench_XING_LAT_XSTATE k) 3).power.st = .fault := hfault
  generalize r.2.setFld (R.bench_XING_LAT_XSTATE k) 3 = x at hleaves hfld hst'
  exact runsBoth_of_leavesBoth hleaves fun l => ⟨(drainEvents_fld _ _ _ _ ho).trans hcause, hst', hfld⟩

/-- PLLs that do not lock. -/
theorem runsBoth_benchPllsLocked_not {n : BenchId} {s : State} (hst : (s.dev.bench n).power.st = .starting)
    (hrails : (s.dev.bench n).power.railsUp = true) (hplls : (s.dev.bench n).power.pllsUp = false) :
    RunsBoth (.benchPllsLocked n false) n s (fun h b => h.fld (R.pcr_BENCH_STATUS_PLL_UNLOCK n.val) = 1 ∧ b.power.st = .fault) := by
  have ho : (R.pcr_BENCH_STATUS_PLL_UNLOCK n.val).off < 0x200000 := by simp only [R.pcr_BENCH_STATUS_PLL_UNLOCK, R.pcr_BENCH_STATUS]; omega
  obtain ⟨hcause, hfault⟩ := benchFails_of_starting hst (some 2) ho rfl (by simp [R.pcr_BENCH_STATUS_PLL_UNLOCK])
  have hleaves := leavesBoth_benchPllsLocked_not hst hrails hplls
  generalize benchFails n (R.pcr_BENCH_STATUS_PLL_UNLOCK n.val) (some 2) s.dev.hub (s.dev.bench n) = r at hcause hfault hleaves
  exact runsBoth_of_leavesBoth hleaves fun l => ⟨(drainEvents_fld _ _ _ _ ho).trans hcause, hfault⟩

/-- A bench whose crossings train, as it stands after its events. -/
theorem runs_of_trains {n : BenchId} {c : Instr} {s : State} {b x : Bench} (hleaves : LeavesBoth c n s s.dev.hub x)
    (hpower : x.power = { b.power with pllsUp := true }) (hfld : ∀ k, k < 12 → x.fld (R.bench_XING_LAT_XSTATE k) = 1) (hmem : x.mem = b.mem)
    (htal : x.tal = b.tal) (hreg : RegsKept (fun o => ∃ k, k < 12 ∧ o = R.bench_XING_LAT k) b x) :
    Runs c n s (fun x => x.power = { b.power with pllsUp := true } ∧ (∀ k, k < 12 → x.fld (R.bench_XING_LAT_XSTATE k) = 1) ∧
      x.mem = b.mem ∧ x.tal = b.tal ∧ RegsKept (fun o => ∃ k, k < 12 ∧ o = R.bench_XING_LAT k) b x) :=
  runs_of_leavesBoth hleaves fun _ => ⟨hpower, hfld, hmem, htal, hreg⟩

/-- The registers that the locked PLLs write. -/
theorem runs_benchPllsLocked {n : BenchId} {s : State} (hst : (s.dev.bench n).power.st = .starting)
    (hrails : (s.dev.bench n).power.railsUp = true) (hplls : (s.dev.bench n).power.pllsUp = false) :
    Runs (.benchPllsLocked n true) n s (fun b => b.power = { (s.dev.bench n).power with pllsUp := true } ∧
      (∀ k, k < 12 → b.fld (R.bench_XING_LAT_XSTATE k) = 1) ∧ b.mem = (s.dev.bench n).mem ∧ b.tal = (s.dev.bench n).tal ∧
      RegsKept (fun o => ∃ k, k < 12 ∧ o = R.bench_XING_LAT k) (s.dev.bench n) b) := by
  have hregs := Bench.trainCrossings_regsOnly (s.dev.bench n)
  exact runs_of_trains (leavesBoth_benchPllsLocked hst hrails hplls) hregs.power (fun k hk => Bench.fld_trainCrossings _ hk) hregs.mem hregs.tal
    (fun o ho => Bench.reg_trainCrossings _ ho)

/-- What a cleared bench is, whatever it held. -/
def Bench.cleared (b : Bench) : Bench := b.memCleared.dramWaits.flashIdentifies

theorem Bench.cleared_spec (b : Bench) : b.cleared.power = { b.power with cleared := true } ∧
    (∀ a, memByte b.cleared.mem a = if a < 0x8000000000 then 0 else memByte b.mem a) ∧
    (b.power.dramEn = true → b.cleared.fld R.dram_DRAM_STATUS_STATE = 1) ∧
    (b.power.flashEn = true → b.cleared.fld (R.storage_FLASH_STATUS_STATE 0) = 1 ∧ b.cleared.fld (R.storage_FLASH_STATUS_STATE 1) = 1) := by
  have hdram := Bench.dramWaits_regsOnly b.memCleared
  obtain ⟨hpower, hmem, hstate⟩ := Bench.flashIdentifies_kept b.memCleared.dramWaits
  refine ⟨hpower.trans hdram.power, fun a => ?_, fun hen => hstate.trans (Bench.fld_dramWaits _ hen),
    fun hen => Bench.fld_flashIdentifies _ (by rw [hdram.power]; exact hen)⟩
  rw [Bench.cleared, hmem, hdram.mem, Bench.memByte_memCleared]

theorem leavesBoth_benchClearDone {n : BenchId} {s : State} (hst : (s.dev.bench n).power.st = .starting) (hx : (s.dev.bench n).crossed = true)
    (hc : (s.dev.bench n).power.cleared = false) : LeavesBoth (.benchClearDone n) n s s.dev.hub (s.dev.bench n).cleared :=
  leavesBoth_onBoth rfl (if_pos (by simp [hst, hx, hc]))

/-- A bench that runs. -/
def Bench.runs (b : Bench) : Bench := { b.initFec with cyc := 0, time := { b.time with sec := 0, ns := 0, frac := 0 } }.setSt .running

theorem leavesBoth_benchRunning {n : BenchId} {s : State} (hst : (s.dev.bench n).power.st = .starting)
    (hdone : (s.dev.bench n).startDone = true) : LeavesBoth (.benchRunning n) n s s.dev.hub (s.dev.bench n).runs :=
  leavesBoth_onBoth rfl (if_pos (by simp [hst, hdone]))

/-! ## The statement -/

/-- Settles O5: each step of a start is a change of its own bench, and a step that fails is a failure of the bench. -/
theorem stepsOfAStart : Obligations.StepsOfAStart := by
  unfold Obligations.StepsOfAStart
  refine ⟨?rails, ?plls, ?pllsFail, ?crossing, ?crossingFails, ?clear, ?running⟩
  case rails =>
    intro n s hst
    exact leaves_of_leavesBoth (leavesBoth_onBoth rfl (if_pos hst))
  case plls => exact fun n s => runs_benchPllsLocked
  case pllsFail => exact fun n s => runsBoth_benchPllsLocked_not
  case crossing =>
    intro n k s hst hk hx
    exact leaves_of_leavesBoth (leavesBoth_onBoth rfl ((if_pos (by simp [hst, hk, hx])).trans (if_pos rfl)))
  case crossingFails => exact fun n k s hst hk hx => runsBoth_crossingTrained_not hst hk hx
  case clear =>
    intro n s hst hx hc
    have hleaves := leavesBoth_benchClearDone hst hx hc
    have hspec := Bench.cleared_spec (s.dev.bench n)
    generalize (s.dev.bench n).cleared = x at hleaves hspec
    exact runs_of_leavesBoth hleaves fun l => hspec
  case running =>
    intro n s hst hdone
    have hleaves := leavesBoth_benchRunning hst hdone
    have hregs := Bench.initFec_regsOnly (s.dev.bench n)
    have hpower : (s.dev.bench n).runs.power = { (s.dev.bench n).power with st := .running } :=
      congrArg (fun p : Power => { p with st := .running }) hregs.power
    have hmem : (s.dev.bench n).runs.mem = (s.dev.bench n).mem := hregs.mem
    have hfec (p : Nat) (hp : p < portCount (s.dev.bench n).power.portMode) : (s.dev.bench n).runs.fld (R.face_PORT_CTL_FEC_EN p) =
        if (s.dev.bench n).power.portMode = 5 then 0 else 1 := Bench.fld_initFec _ hp
    have hcyc : (s.dev.bench n).runs.cyc = 0 ∧ (s.dev.bench n).runs.time.sec = 0 ∧ (s.dev.bench n).runs.time.ns = 0 ∧
        (s.dev.bench n).runs.time.frac = 0 := ⟨rfl, rfl, rfl, rfl⟩
    obtain ⟨hcyc, hsec, hns, hfrac⟩ := hcyc
    generalize (s.dev.bench n).runs = x at hleaves hpower hmem hfec hcyc hsec hns hfrac
    exact runs_of_leavesBoth hleaves fun l => ⟨hpower, hcyc, hsec, hns, hfrac, hmem, hfec⟩

end Sys2Proof.Machine
end

section
/-! Draining the flow queues (R47), and O6: the end of a drain and the failures of a bench (R44, R48, R53). -/
namespace Sys2Proof.Machine

/-! ## No packet in a flow queue -/

/-- No packet of the number stands in a flow queue. -/
def Bench.NotQueued (id : Nat) (b : Bench) : Prop := ∀ k ∈ b.pkts, k.id = id → ∀ q, k.loc ≠ .flow q

theorem Bench.NotQueued.of_handles {id : Nat} {b b' : Bench} (h : b.NotQueued id) (hb : b.Handles b') : b'.NotQueued id := by
  intro k hk hid q hq
  obtain ⟨j, hj, hjid, hjq⟩ := hb.flow k hk q hq
  exact h j hj (hjid.trans hid) q hjq

theorem Bench.notQueued_forget (b : Bench) (p : Pkt) : (b.forget p).NotQueued p.id := by
  unfold Bench.forget
  extract_lets b1 held b2
  have hmoved : b1.NotQueued p.id := by
    intro k hk hid q hq
    obtain ⟨j, -, rfl⟩ := List.mem_map.mp hk
    split at hq
    · cases hq
    next hj => rw [if_neg hj] at hid; exact hj hid
  exact hmoved.of_handles ((Bench.Handles.ite _ (.refl b1) (.retireJobs b1 _)).trans (.filterPkts b2 _))

/-- A packet that ends leaves its flow queue. -/
theorem Bench.notQueued_endPkt (b : Bench) (p : Pkt) (status : Nat) (ts : Stamp) (ecc : Ecc) : (b.endPkt p status ts ecc).NotQueued p.id := by
  unfold Bench.endPkt
  exact (Bench.notQueued_forget _ p).of_handles (.countQueues _)

theorem Bench.notQueued_discard (b : Bench) (p : Pkt) (code : Nat) (ecc : Ecc) : (b.discard p code ecc).NotQueued p.id := by
  unfold Bench.discard
  split
  · exact Bench.notQueued_endPkt b p code Stamp.none ecc
  · exact Bench.notQueued_endPkt _ p code Stamp.none ecc

/-- What draining the flow queues does for one packet. -/
def Bench.drainPkt (b : Bench) (p : Pkt) : Bench := match p.loc with | .flow _ => b.discard p 0x76 | _ => b

theorem Bench.Handles.drainPkt (b : Bench) (p : Pkt) : b.Handles (b.drainPkt p) := by
  unfold Bench.drainPkt
  split
  · exact .discard ..
  · exact .refl b

theorem Bench.drainQueues_eq (b : Bench) :
    b.drainQueues = b.pkts.foldl Bench.drainPkt { b with power := { b.power with drainCut := true } } := rfl

/-- Of a list of packets that have been drained, none that stood in a flow queue stands in one still. -/
theorem Bench.notQueued_foldl_drainPkt {p : Pkt} {q : Nat} (hq : p.loc = .flow q) (l : List Pkt) (b : Bench) (hp : p ∈ l) :
    (l.foldl Bench.drainPkt b).NotQueued p.id := by
  induction l generalizing b with
  | nil => cases hp
  | cons a t ih =>
    rw [List.foldl_cons]
    obtain rfl | hp := List.mem_cons.mp hp
    · have hdrained : (b.drainPkt p).NotQueued p.id := by
        unfold Bench.drainPkt
        rw [hq]
        exact Bench.notQueued_discard b p 0x76 []
      exact hdrained.of_handles (.foldl .drainPkt t _)
    · exact ih _ hp

theorem Bench.Handles.drainQueues (b : Bench) : Bench.Handles { b with power := { b.power with drainCut := true } } b.drainQueues :=
  .foldl .drainPkt _ _

/-- Once the flow queues are drained no packet stands in one. -/
theorem Bench.drainQueues_flow (b : Bench) {k : Pkt} (hk : k ∈ b.drainQueues.pkts) (q : Nat) : k.loc ≠ .flow q := by
  intro hq
  obtain ⟨j, hj, hid, hjq⟩ := (Bench.Handles.drainQueues b).flow k hk q hq
  exact Bench.notQueued_foldl_drainPkt hjq b.pkts _ hj k hk hid.symm q hq

/-! ## The statement -/

theorem onBoth_pllUnlock (n : BenchId) (s : State) :
    exec (.pllUnlock (some n)) s = s.onBoth n (benchFails n (R.pcr_BENCH_STATUS_PLL_UNLOCK n.val) (some 2)) := rfl

theorem onBoth_supplyFail (n : BenchId) (s : State) :
    exec (.supplyFail n) s = s.onBoth n (benchFails n (R.pcr_BENCH_STATUS_SUPPLY_FAIL n.val) none) := rfl

/-- A bench that is drained leaves with its tallies, but for the entries of self-refresh. -/
theorem tally_benchLeaves_drained (n : BenchId) (h : Hub) (b : Bench) {k : Nat} (hk : k ≠ T.DRAM_SR_ENTRIES) :
    (benchLeaves n .off true h b).2.tally k = b.tally k := by
  obtain ⟨-, -, -, htally⟩ := Bench.emptied_spec b .off b.retains
  unfold benchLeaves
  exact htally k hk

/-- Settles O6: the drain limit discards what is queued, and a bench that leaves or fails is emptied (R44, R47, R48, R53). -/
theorem drainAndFailure : Obligations.DrainAndFailure := by
  unfold Obligations.DrainAndFailure
  refine ⟨?limit, ?complete, ?supply, ?pll, ?off⟩
  case limit =>
    intro n s hst
    have hleaves : LeavesBoth (.drainLimitExpired n) n s s.dev.hub (s.dev.bench n).drainQueues :=
      leavesBoth_onBoth rfl (congrArg (Prod.mk s.dev.hub) ((if_pos (by simp [Bench.live, hst])).trans (if_pos hst)))
    have hpower := (Bench.Handles.drainQueues (s.dev.bench n)).power
    have hflow (k : Pkt) := Bench.drainQueues_flow (s.dev.bench n) (k := k)
    generalize (s.dev.bench n).drainQueues = x at hleaves hpower hflow
    exact runs_of_leavesBoth hleaves fun l => ⟨hpower, hflow⟩
  case complete =>
    intro n s hst hdrained
    have hleaves : LeavesBoth (.drainComplete n) n s (benchLeaves n .off true s.dev.hub (s.dev.bench n)).1
        (benchLeaves n .off true s.dev.hub (s.dev.bench n)).2 := leavesBoth_onBoth rfl (if_pos (by simp [hst, hdrained]))
    obtain ⟨-, hclaims, hregs⟩ := benchLeaves_spec n .off true s.dev.hub (s.dev.bench n)
    have hoff := benchLeaves_st n .off true s.dev.hub (s.dev.bench n)
    have htally (k : Nat) := tally_benchLeaves_drained n s.dev.hub (s.dev.bench n) (k := k)
    generalize benchLeaves n .off true s.dev.hub (s.dev.bench n) = r at hleaves hclaims hregs hoff htally
    exact runsBoth_of_leavesBoth hleaves fun l => ⟨hoff, hclaims, htally, hregs⟩
  case supply =>
    intro n s hup
    exact runsBoth_benchFails (onBoth_supplyFail n s) hup (by simp only [R.pcr_BENCH_STATUS_SUPPLY_FAIL, R.pcr_BENCH_STATUS]; omega) rfl
      (by simp [R.pcr_BENCH_STATUS_SUPPLY_FAIL]) fun _ _ hcause hst hclaims hpkts hregs => ⟨hcause, hst, hclaims, hpkts, hregs⟩
  case pll =>
    intro n s hup
    exact runsBoth_benchFails (onBoth_pllUnlock n s) hup (by simp only [R.pcr_BENCH_STATUS_PLL_UNLOCK, R.pcr_BENCH_STATUS]; omega) rfl
      (by simp [R.pcr_BENCH_STATUS_PLL_UNLOCK]) fun _ _ hcause hst hclaims hpkts hregs => ⟨hcause, hst, hclaims, hpkts, hregs⟩
  case off =>
    intro n s hoff
    exact ⟨leaves_of_leavesBoth (leavesBoth_onBoth (onBoth_supplyFail n s) (benchFails_of_off hoff)),
      leaves_of_leavesBoth (leavesBoth_onBoth (onBoth_pllUnlock n s) (benchFails_of_off hoff))⟩

end Sys2Proof.Machine
end

section
/-! SUPPORT. What the handling of packets writes: no register of the graph (R47, R67, R249 to R257). -/
namespace Sys2Proof.Machine

/-- The registers below the match tables read as before. -/
structure Bench.LowKept (b b' : Bench) : Prop where
  low : ∀ o, o < 0x30000 → b'.reg o = b.reg o

namespace Bench.LowKept

variable {b b' b'' : Bench}

theorem refl (b : Bench) : b.LowKept b := ⟨fun _ _ => rfl⟩

theorem trans (h : b.LowKept b') (h' : b'.LowKept b'') : b.LowKept b'' := ⟨fun o ho => (h'.low o ho).trans (h.low o ho)⟩

theorem of_regs (h : b'.regs = b.regs) : b.LowKept b' := ⟨fun o _ => by unfold Bench.reg; rw [h]⟩

theorem setFld (b : Bench) {f : Fld} (v : Nat) (hf : 0x30000 ≤ f.off) : b.LowKept (b.setFld f v) :=
  ⟨fun o ho => Bench.reg_setFld_ne _ _ _ _ (by omega)⟩

theorem setReg (b : Bench) {k : Nat} (v : Word) (hk : 0x30000 ≤ k) : b.LowKept (b.setReg k v) :=
  ⟨fun o ho => Bench.reg_setReg_ne b v (show o ≠ k by omega)⟩

theorem setLe (b : Bench) (a n v : Nat) : b.LowKept (b.setLe a n v) := of_regs rfl
theorem setMbits (b : Bench) (a lo w v : Nat) : b.LowKept (b.setMbits a lo w v) := of_regs rfl
theorem count (b : Bench) (k n : Nat) : b.LowKept (b.count k n) := of_regs rfl
theorem tick (b : Bench) (k : Nat) : b.LowKept (b.tick k) := of_regs rfl
theorem raise (b : Bench) (k : Nat) : b.LowKept (b.raise k) := of_regs rfl
theorem withTm (b : Bench) (x : TmSt) : b.LowKept { b with tm := x } := of_regs rfl
theorem withHop (b : Bench) (x : HopperSt) : b.LowKept { b with hop := x } := of_regs rfl
theorem withCi (b : Bench) (x : CipherSt) : b.LowKept { b with ci := x } := of_regs rfl
theorem withMt (b : Bench) (x : MatchSt) : b.LowKept { b with mt := x } := of_regs rfl
theorem withPkts (b : Bench) (l : List Pkt) : b.LowKept { b with pkts := l } := of_regs rfl
theorem setRec (b : Bench) (a st owner last refs gen nv : Nat) : b.LowKept (b.setRec a st owner last refs gen nv) := setLe ..
theorem judgeReqs (b : Bench) (p : Nat) : b.LowKept (b.judgeReqs p) := of_regs rfl
theorem sendDone (b : Bench) (slot : Nat) (d : SendDesc) (status : Nat) (ts : Stamp) : b.LowKept (b.sendDone slot d status ts) := of_regs rfl
theorem updPkt (b : Bench) (id : Nat) (f : Pkt → Pkt) : b.LowKept (b.updPkt id f) := withPkts ..
theorem updSharers (b : Bench) (id : Nat) (f : Pkt → Pkt) : b.LowKept (b.updSharers id f) := withPkts ..

theorem ite {x y : Bench} (c : Prop) [Decidable c] (hx : b.LowKept x) (hy : b.LowKept y) : b.LowKept (if c then x else y) := by
  split
  · exact hx
  · exact hy

theorem foldl {α : Type} {f : Bench → α → Bench} (hf : ∀ (b : Bench) a, b.LowKept (f b a)) (l : List α) (b : Bench) : b.LowKept (l.foldl f b) :=
  foldl_keeps (P := b.LowKept) (fun x a hx => hx.trans (hf x a)) l (refl b)

/-! ## The hopper (R246 to R257) -/

theorem correctable (b : Bench) (c k : Nat) : b.LowKept (b.correctable c k) := by
  have hcfg : 0x30000 ≤ R.err_CE_CFG c := by unfold R.err_CE_CFG; omega
  have hlevel : 0x30000 ≤ (R.err_CE_CFG_LEVEL c).off := hcfg
  have hover : 0x30000 ≤ (R.err_CE_CFG_OVERFLOW c).off := hcfg
  unfold Bench.correctable
  exact ite _ (refl b) ((count b _ _).trans (ite _ ((setFld _ _ hlevel).trans ((setFld _ _ hover).trans ((tick _ _).trans
    ((setFld _ _ (by decide)).trans (raise _ _))))) (setFld _ _ hlevel)))

theorem loseBuf (b : Bench) (a h : Nat) : b.LowKept (b.loseBuf a h) := by
  unfold Bench.loseBuf
  exact (withHop b _).trans ((tick _ _).trans ((setReg _ _ (by decide)).trans (raise _ _)))

theorem hopRefuse (b : Bench) (code op agent h : Nat) : b.LowKept (b.hopRefuse code op agent h) := by
  unfold Bench.hopRefuse
  exact (tick b _).trans ((ite _ (withHop _ _) ((withHop _ _).trans (tick _ _))).trans (raise _ _))

theorem setFree (b : Bench) (k v : Nat) : b.LowKept (b.setFree k v) := by
  have hpool : 0x30000 ≤ R.hopper_POOL_FREE k := by unfold R.hopper_POOL_FREE; omega
  have hfree : 0x30000 ≤ (R.hopper_POOL_FREE_FREE k).off := hpool
  have hlwm : 0x30000 ≤ (R.hopper_POOL_FREE_LWM k).off := hpool
  unfold Bench.setFree
  exact (setFld b v hfree).trans (.trans (ite _ (setFld _ _ hlwm) (refl _))
    (ite _ (refl _) (ite _ ((withHop _ _).trans (raise _ _)) (ite _ (withHop _ _) (refl _)))))

theorem freeBuf (b : Bench) (h : Nat) : b.LowKept (b.freeBuf h) := by
  unfold Bench.freeBuf
  exact ((setRec b _ 0 0 0 0 _ 0).trans (setLe _ _ 4 0)).trans (ite _ (refl _) ((setFree _ _ _).trans (tick _ _)))

theorem freeChain (b : Bench) (h : Nat) : b.LowKept (b.freeChain h) := by
  unfold Bench.freeChain
  exact (freeBuf b h).trans (ite _ (freeBuf _ _) (refl _))

theorem hopApply (b : Bench) (op h a arg refs : Nat) : b.LowKept (b.hopApply op h a arg refs) := by
  unfold Bench.hopApply
  exact ite _ (freeChain b h) (ite _ (ite _ (setRec ..) (ite _ (freeChain b h) (setRec ..)))
    (ite _ (ite _ (setRec ..) (setRec ..)) (setRec ..)))

theorem hopOp (b : Bench) (op agent h arg refs : Nat) (ecc : Ecc) : b.LowKept (b.hopOp op agent h arg refs ecc).2 := by
  unfold Bench.hopOp
  dsimp only
  rw [apply_ite Prod.snd, apply_ite Prod.snd]
  exact ite _ ((correctable b 5 _).trans ((foldl (fun b x => loseBuf b x h) _ _).trans (hopRefuse ..)))
    (ite _ ((correctable b 5 _).trans (hopApply ..)) ((correctable b 5 _).trans (hopRefuse ..)))

theorem endUse (b : Bench) (agent h : Nat) (ecc : Ecc) : b.LowKept (b.endUse agent h ecc) := by
  unfold Bench.endUse
  exact ite _ (hopOp ..) (ite _ (hopOp ..) (refl b))

/-! ## The queues (R213 to R225) -/

theorem addOcc (b : Bench) (p c : Nat) (d : Int) : b.LowKept (b.addOcc p c d) := by
  have hclass : 0x30000 ≤ (R.tm_CLASS_OCC_BYTES p c).off := by unfold R.tm_CLASS_OCC_BYTES R.tm_CLASS_OCC; dsimp only; omega
  have hport : 0x30000 ≤ (R.tm_PORT_OCC_BYTES p).off := by unfold R.tm_PORT_OCC_BYTES R.tm_PORT_OCC; dsimp only; omega
  have hhwm : 0x30000 ≤ (R.tm_PORT_HWM_BYTES p).off := by unfold R.tm_PORT_HWM_BYTES R.tm_PORT_HWM; dsimp only; omega
  unfold Bench.addOcc
  exact (setFld b _ hclass).trans ((setFld _ _ hport).trans (ite _ (setFld _ _ hhwm) (refl _)))

theorem dequeue (b : Bench) (p : Pkt) (l : Loc) : b.LowKept (b.dequeue p l) := by
  unfold Bench.dequeue
  split
  · dsimp only
    exact (withTm b _).trans ((updPkt ..).trans ((setMbits ..).trans ((setMbits ..).trans
      ((setMbits ..).trans ((addOcc ..).trans (judgeReqs ..))))))
  · exact updPkt ..

theorem unqueue (b : Bench) (p : Pkt) : b.LowKept (b.unqueue p) := by
  unfold Bench.unqueue
  exact (dequeue b p .gone).trans (withTm ..)

theorem countQueues (b : Bench) : b.LowKept b.countQueues := by
  unfold Bench.countQueues
  exact (setFld b _ (by decide)).trans ((setFld _ _ (by decide)).trans
    (.trans (ite _ (setFld _ _ (by decide)) (refl _)) (ite _ (setFld _ _ (by decide)) (refl _))))

/-! ## The end of a packet -/

theorem finish (b : Bench) (slot id status : Nat) (ts : Stamp) : b.LowKept (b.finish slot id status ts) := by
  unfold Bench.finish
  split
  · exact sendDone ..
  · exact refl b

theorem learnStatus (b : Bench) (id : Nat) (good : Bool) : b.LowKept (b.learnStatus id good) := by
  unfold Bench.learnStatus
  exact ite _ (withMt b _) ((withMt b _).trans ((setFld _ _ (by decide)).trans (count _ _ _)))

theorem countCipher (b : Bench) : b.LowKept b.countCipher := by
  have hqueue (i : Nat) : 0x30000 ≤ R.cipher_CIPHER_QUEUE i := by unfold R.cipher_CIPHER_QUEUE; omega
  have hocc (i : Nat) : 0x30000 ≤ (R.cipher_CIPHER_QUEUE_OCCUPANCY i).off := hqueue i
  have hhwm (i : Nat) : 0x30000 ≤ (R.cipher_CIPHER_QUEUE_HWM i).off := hqueue i
  exact foldl (fun b _ => (setFld b _ (hocc _)).trans (ite _ (setFld _ _ (hhwm _)) (refl _))) _ b

theorem retireJobs (b : Bench) (id : Nat) : b.LowKept (b.retireJobs id) := by
  unfold Bench.retireJobs
  extract_lets b1 b2
  have learnt : b.LowKept b1 := ite _ (learnStatus b _ _) (refl b)
  have retired : b1.LowKept b2 := updSharers b1 _ _
  exact (learnt.trans retired).trans ((withCi b2 _).trans (countCipher _))

theorem forget (b : Bench) (p : Pkt) : b.LowKept (b.forget p) := by
  unfold Bench.forget
  extract_lets b1 held b2
  have moved : b.LowKept b1 := updPkt b _ _
  have retired : b1.LowKept b2 := ite _ (refl b1) (retireJobs b1 _)
  exact (moved.trans retired).trans (withPkts b2 _)

theorem endPkt (b : Bench) (p : Pkt) (status : Nat) (ts : Stamp) (ecc : Ecc) : b.LowKept (b.endPkt p status ts ecc) := by
  unfold Bench.endPkt
  exact (unqueue b p).trans ((ite _ (refl _) (endUse _ _ _ _)).trans ((finish ..).trans ((forget _ _).trans (countQueues _))))

theorem spoilTick (b : Bench) (code inst : Nat) : b.LowKept (b.spoilTick code inst) := by
  unfold Bench.spoilTick
  split
  · exact tick b _
  · exact refl b

theorem discard (b : Bench) (p : Pkt) (code : Nat) (ecc : Ecc) : b.LowKept (b.discard p code ecc) := by
  unfold Bench.discard
  exact ite _ (endPkt ..) ((spoilTick b _ _).trans (endPkt ..))

theorem drainPkt (b : Bench) (p : Pkt) : b.LowKept (b.drainPkt p) := by
  unfold Bench.drainPkt
  split
  · exact discard ..
  · exact refl b

theorem drainQueues (b : Bench) : b.LowKept b.drainQueues :=
  .trans (b' := { b with power := { b.power with drainCut := true } }) (of_regs rfl) (foldl drainPkt _ _)

end Bench.LowKept

end Sys2Proof.Machine
end

section
/-! O4: BENCH_CTL (R44, R45, R47, R50, R544). -/
namespace Sys2Proof.Machine

/-! ## START and STOP in a written value -/

theorem bits_putBits_start (v : Nat) : bit (putBits v 0 2 1) 0 = true ∧ bit (putBits v 0 2 1) 1 = false := by
  unfold bit putBits
  constructor <;> simp <;> omega

theorem bits_putBits_stop (v : Nat) : bit (putBits v 0 2 2) 0 = false ∧ bit (putBits v 0 2 2) 1 = true := by
  unfold bit putBits
  constructor <;> simp <;> omega

theorem bit_putBits_low (v k x : Nat) (hk : 2 ≤ k) : bit (putBits v 0 2 x) k = bit v k := by
  have hbits : putBits v 0 2 x / 2 ^ k % 2 = v / 2 ^ k % 2 := getBits_putBits_low v k 1 x hk
  unfold bit
  rw [hbits]

/-! ## The fields of BENCH_CTL -/

/-- The fields that START fixes, as a write finds them on a bench that is OFF or in FAULT, and the others, whatever its state (R50). -/
theorem Hub.fld_benchCtlFields (h : Hub) (n : BenchId) (v : Nat) :
    (h.benchCtlFields n false v).fld (R.pcr_BENCH_CTL_PROFILE n.val) = getBits v 2 1 ∧
    (h.benchCtlFields n false v).fld (R.pcr_BENCH_CTL_PORT_MODE n.val) = getBits v 4 3 ∧
    (h.benchCtlFields n false v).fld (R.pcr_BENCH_CTL_HOST_LINK n.val) = getBits v 8 2 ∧
    (h.benchCtlFields n false v).fld (R.pcr_BENCH_CTL_DRAM_EN n.val) = getBits v 10 1 ∧
    (h.benchCtlFields n false v).fld (R.pcr_BENCH_CTL_FLASH_EN n.val) = getBits v 11 1 := by
  unfold Hub.benchCtlFields Hub.startField
  simp only [Bool.not_false, if_true]
  have hbits (lo w : Nat) : getBits v lo w % 2 ^ w = getBits v lo w := Nat.mod_eq_of_lt (getBits_lt v lo w)
  have hself (x : Hub) (lo w : Nat) (hw : lo + w ≤ 32) :
      (x.setFld ⟨R.pcr_BENCH_CTL n.val, lo, w⟩ (getBits v lo w)).fld ⟨R.pcr_BENCH_CTL n.val, lo, w⟩ = getBits v lo w :=
    (Hub.fld_setFld_self x _ _ hw).trans (hbits lo w)
  have hapart (x : Hub) (lo w lo' w' y : Nat) (hw : lo' + w' ≤ 32) (hlo : lo' + w' ≤ lo) :
      (x.setFld ⟨R.pcr_BENCH_CTL n.val, lo, w⟩ y).fld ⟨R.pcr_BENCH_CTL n.val, lo', w'⟩ = x.fld ⟨R.pcr_BENCH_CTL n.val, lo', w'⟩ :=
    Hub.fld_setFld_apart x _ _ _ hw (.inr (.inr hlo))
  refine ⟨?_, ?_, ?_, ?_, ?_⟩ <;>
    simp [hself, hapart, R.pcr_BENCH_CTL_PROFILE, R.pcr_BENCH_CTL_PORT_MODE, R.pcr_BENCH_CTL_HOST_LINK, R.pcr_BENCH_CTL_DRAM_EN,
      R.pcr_BENCH_CTL_FLASH_EN, R.pcr_BENCH_CTL_LEND_OK, R.pcr_BENCH_CTL_DRAM_RETAIN]

theorem Hub.flag_benchCtlFields_retain (h : Hub) (n : BenchId) (held : Bool) (v : Nat) :
    (h.benchCtlFields n held v).flag (R.pcr_BENCH_CTL_DRAM_RETAIN n.val) = bit v 13 := by
  unfold Hub.benchCtlFields
  dsimp only
  unfold Hub.flag
  rw [Hub.fld_setFld_self _ _ _ (by simp [R.pcr_BENCH_CTL_DRAM_RETAIN])]
  simp [R.pcr_BENCH_CTL_DRAM_RETAIN, getBits, bit]

theorem Hub.reg_startField (h : Hub) (held : Bool) (f : Fld) (v t : Nat) {o : Nat} (ho : o ≠ f.off) : (h.startField held f v t).reg o = h.reg o := by
  unfold Hub.startField
  split
  · exact Hub.reg_setFld_ne _ _ _ _ ho
  · split <;> rfl

/-- The fields stand in BENCH_CTL alone. -/
theorem Hub.reg_benchCtlFields (h : Hub) (n : BenchId) (held : Bool) (v : Nat) {o : Nat} (ho : o ≠ R.pcr_BENCH_CTL n.val) :
    (h.benchCtlFields n held v).reg o = h.reg o := by
  unfold Hub.benchCtlFields
  dsimp only
  rw [Hub.reg_setFld_ne _ _ _ _ ho, Hub.reg_setFld_ne _ _ _ _ ho, Hub.reg_setFld_ne _ _ _ _ ho, Hub.reg_setFld_ne _ _ _ _ ho,
    Hub.reg_startField _ _ _ _ _ ho, Hub.reg_startField _ _ _ _ _ ho, Hub.reg_startField _ _ _ _ _ ho]

/-! ## START -/

/-- The fault flags of a bench that starts out of FAULT are cleared. -/
def Hub.faultsCleared (h : Hub) (n : BenchId) (b : Bench) : Hub :=
  if b.power.st = .fault then benchFaultFlags.foldl (fun h k => h.setFld ⟨R.pcr_BENCH_STATUS n.val, k, 1⟩ 0) h else h

theorem Hub.faultsCleared_kept (h : Hub) (n : BenchId) (b : Bench) : (h.faultsCleared n b).fw = h.fw ∧ (h.faultsCleared n b).starts = h.starts ∧
    ∀ o, o ≠ R.pcr_BENCH_STATUS n.val → (h.faultsCleared n b).reg o = h.reg o := by
  unfold Hub.faultsCleared
  split
  · refine foldl_keeps (P := fun x : Hub => x.fw = h.fw ∧ x.starts = h.starts ∧ ∀ o, o ≠ R.pcr_BENCH_STATUS n.val → x.reg o = h.reg o)
      (f := fun (h : Hub) k => h.setFld ⟨R.pcr_BENCH_STATUS n.val, k, 1⟩ 0) (fun x k hx => ?_) _ ⟨rfl, rfl, fun _ _ => rfl⟩
    obtain ⟨hfw, hstarts, hreg⟩ := hx
    exact ⟨hfw, hstarts, fun o ho => (Hub.reg_setFld_ne _ _ _ _ ho).trans (hreg o ho)⟩
  · exact ⟨rfl, rfl, fun _ _ => rfl⟩

theorem Hub.fld_faultsCleared (h : Hub) (n : BenchId) (b : Bench) {f : Fld} (hf : f.off = R.pcr_BENCH_CTL n.val) :
    (h.faultsCleared n b).fld f = h.fld f := by
  unfold Hub.fld
  rw [(h.faultsCleared_kept n b).2.2 _ (by rw [hf, R.pcr_BENCH_CTL, R.pcr_BENCH_STATUS]; omega)]

theorem benchStart_valid {n : BenchId} {h : Hub} {b : Bench} (hst : b.power.st = .off ∨ b.power.st = .fault) (hv : h.startValid n = true) :
    benchStart n h b = (true, h.faultsCleared n b, ((h.faultsCleared n b).startedBench n b).raise 0) := by
  unfold benchStart Hub.faultsCleared
  obtain hst | hst := hst <;> simp only [hst, hv, if_true]

theorem benchStart_invalid {n : BenchId} {h : Hub} {b : Bench} (hst : b.power.st = .off ∨ b.power.st = .fault) (hv : h.startValid n = false) :
    benchStart n h b = (false, h.tick (T.BENCH_START_REFUSED n.val), b.raise 3) := by
  unfold benchStart
  obtain hst | hst := hst <;> simp only [hst, hv, Bool.false_eq_true, if_false]

theorem benchStart_ignored {n : BenchId} {h : Hub} {b : Bench} (hst : b.live = true ∨ b.power.st = .starting) :
    benchStart n h b = (false, h.tick (T.BENCH_CMD_IGNORED n.val), b) := by
  unfold benchStart
  unfold Bench.live at hst
  cases hb : b.power.st <;> simp [hb] at hst ⊢

/-- A bench that a valid START finds: its tallies are 0 and its registers read their reset words. -/
theorem Hub.startedBench_spec (h : Hub) (n : BenchId) (b : Bench) : (h.startedBench n b).power = {
      st := .starting, profile := h.fld (R.pcr_BENCH_CTL_PROFILE n.val), portMode := h.fld (R.pcr_BENCH_CTL_PORT_MODE n.val)
      hostLink := h.fld (R.pcr_BENCH_CTL_HOST_LINK n.val), dramEn := h.flag (R.pcr_BENCH_CTL_DRAM_EN n.val)
      flashEn := h.flag (R.pcr_BENCH_CTL_FLASH_EN n.val), railsUp := false, pllsUp := false, cleared := false
      drainCut := false, retain := false } ∧
    (h.startedBench n b).pkts = [] ∧ (∀ k, (h.startedBench n b).tally k = 0) ∧ ∀ o, (h.startedBench n b).reg o = benchRegReset o := by
  unfold Hub.startedBench
  dsimp only
  split
  · exact ⟨rfl, rfl, fun _ => rfl, fun _ => rfl⟩
  · exact ⟨rfl, rfl, fun _ => rfl, fun _ => rfl⟩

/-! ## A write of BENCH_CTL -/

section
variable {n : BenchId} {h : Hub} {b : Bench} {v : Nat}

/-- START alone. -/
theorem benchCtlLand_start (h0 : bit v 0 = true) (h1 : bit v 1 = false) :
    benchCtlLand n v h b = benchStart n (h.benchCtlFields n (!(b.power.st = .off || b.power.st = .fault)) v) b := by
  unfold benchCtlLand
  simp only [h0, h1, if_true, Bool.false_eq_true, if_false]

/-- STOP alone. -/
theorem benchCtlLand_stop (h0 : bit v 0 = false) (h1 : bit v 1 = true) :
    benchCtlLand n v h b = (false, benchStop n (h.benchCtlFields n (!(b.power.st = .off || b.power.st = .fault)) v) b) := by
  unfold benchCtlLand
  simp only [h0, h1, if_true, Bool.false_eq_true, if_false]

/-- A write that need not wait lands. -/
theorem benchCtlWrite_lands
    (hfree : bit v 0 = false ∨ (b.power.st ≠ .off ∧ b.power.st ≠ .fault) ∨ (h.switchBusy = false ∧ h.starts = [])) :
    benchCtlWrite n v h b = (if (benchCtlLand n v h b).1 then { (benchCtlLand n v h b).2.1 with switchBusy := true } else (benchCtlLand n v h b).2.1,
      (benchCtlLand n v h b).2.2) := by
  unfold benchCtlWrite
  refine if_neg ?_
  obtain h0 | ⟨hoff, hfault⟩ | ⟨hbusy, hstarts⟩ := hfree
  · simp [h0]
  · simp [hoff, hfault]
  · simp [hbusy, hstarts]

/-- A START that waits for a switch turn. -/
theorem benchCtlWrite_held (h0 : bit v 0 = true) (hst : b.power.st = .off ∨ b.power.st = .fault) (hbusy : h.switchBusy = true ∨ h.starts ≠ []) :
    benchCtlWrite n v h b = ({ h with starts := h.starts ++ [(n.val, v)] }, b) := by
  unfold benchCtlWrite
  refine if_pos ?_
  obtain hst | hst := hst <;> obtain hbusy | hbusy := hbusy <;> simp [h0, hst, hbusy]

end

theorem onBoth_benchCtlStart {n : BenchId} {v : Word} {s : State} {h : Hub} {b : Bench} (hup : s.dev.hub.up = true)
    (hw : benchCtlWrite n (putBits v.toNat 0 2 1) s.dev.hub (s.dev.bench n) = (h, b)) : LeavesBoth (.benchCtlStart n v) n s h b :=
  leavesBoth_onBoth rfl ((if_pos hup).trans hw)

theorem onBoth_benchCtlStop {n : BenchId} {v : Word} {s : State} {h : Hub} {b : Bench} (hup : s.dev.hub.up = true)
    (hw : benchCtlWrite n (putBits v.toNat 0 2 2) s.dev.hub (s.dev.bench n) = (h, b)) : LeavesBoth (.benchCtlStop n v) n s h b :=
  leavesBoth_onBoth rfl ((if_pos hup).trans hw)

/-! ## The drain -/

/-- What a drain that begins leaves: claims, and of registers all but two; no packet is touched unless the drain time is 0. -/
theorem Bench.startDrain_spec (b : Bench) (limit : Nat) : (b.startDrain limit).power.st = .draining ∧ (b.startDrain limit).power.retain = b.power.retain ∧
    (b.startDrain limit).flag R.graph_GRAPH_CTL_ARMED = false ∧ (b.startDrain limit).rings.claims = b.rings.claims ∧
    (limit ≠ 0 → (b.startDrain limit).pkts = b.pkts ∧ (b.startDrain limit).mem = b.mem ∧
      RegsKept (fun o => o = R.graph_GRAPH_CTL ∨ o = R.ring_BACKPRESSURE) b (b.startDrain limit)) ∧
    (limit = 0 → ∀ k ∈ (b.startDrain limit).pkts, ∀ q, k.loc ≠ .flow q) := by
  unfold Bench.startDrain
  extract_lets src b1 b2
  have hst : b2.power.st = .draining := rfl
  have hretain : b2.power.retain = b.power.retain := rfl
  have hclaims : b2.rings.claims = b.rings.claims := rfl
  have harmed : b2.fld R.graph_GRAPH_CTL_ARMED = 0 := Bench.fld_setFld_self b1 R.graph_GRAPH_CTL_ARMED 0 (by decide)
  have hregs : RegsKept (fun o => o = R.graph_GRAPH_CTL ∨ o = R.ring_BACKPRESSURE) b b2 := by
    intro o ho
    have hgraph : o ≠ R.graph_GRAPH_CTL_ARMED.off := fun e => ho (.inl e)
    have hring : o ≠ R.ring_BACKPRESSURE_ACTIVE.off := fun e => ho (.inr e)
    exact (Bench.reg_setFld_ne b1 _ _ _ hgraph).trans (Bench.reg_setFld_ne _ _ _ _ hring)
  have hpkts : b2.pkts = b.pkts := rfl
  have hmem : b2.mem = b.mem := rfl
  clear_value b2
  by_cases hl : limit = 0
  · rw [if_pos hl]
    have hdrain := Bench.Handles.drainQueues b2
    have hlow := (Bench.LowKept.drainQueues b2).low R.graph_GRAPH_CTL (by decide)
    refine ⟨?_, ?_, ?_, hdrain.claims.trans hclaims, fun h => absurd hl h, fun _ k hk q => Bench.drainQueues_flow b2 hk q⟩
    · rw [hdrain.power]; exact hst
    · rw [hdrain.power]; exact hretain
    · have hfld : b2.drainQueues.fld R.graph_GRAPH_CTL_ARMED = b2.fld R.graph_GRAPH_CTL_ARMED :=
        congrArg (fun w : Word => getBits w.toNat R.graph_GRAPH_CTL_ARMED.lo R.graph_GRAPH_CTL_ARMED.w) hlow
      unfold Bench.flag
      rw [hfld, harmed]
      rfl
  · rw [if_neg hl]
    refine ⟨hst, hretain, ?_, hclaims, fun _ => ⟨hpkts, hmem, hregs⟩, fun h => absurd h hl⟩
    unfold Bench.flag
    rw [harmed]
    rfl

/-! ## STOP -/

/-- A write with STOP alone lands at once, and closes no switch. -/
theorem benchCtlWrite_stop (n : BenchId) (v : Nat) (h : Hub) (b : Bench) : benchCtlWrite n (putBits v 0 2 2) h b =
    ((benchStop n (h.benchCtlFields n (!(b.power.st = .off || b.power.st = .fault)) (putBits v 0 2 2)) b).1,
      (benchStop n (h.benchCtlFields n (!(b.power.st = .off || b.power.st = .fault)) (putBits v 0 2 2)) b).2) := by
  obtain ⟨h0, h1⟩ := bits_putBits_stop v
  rw [benchCtlWrite_lands (.inl h0), benchCtlLand_stop h0 h1]
  rfl

section
variable {n : BenchId} {h : Hub} {b : Bench}

theorem benchStop_running (hst : b.power.st = .running) : benchStop n h b =
    (h, Bench.startDrain { b with power := { b.power with retain := h.flag (R.pcr_BENCH_CTL_DRAM_RETAIN n.val) } }
      (h.fld (R.pcr_BENCH_DRAIN_LIMIT_LIMIT_US n.val))) := by
  unfold benchStop
  simp only [hst]

theorem benchStop_ignored (hst : b.power.st = .off ∨ b.power.st = .draining) :
    benchStop n h b = (h.tick (T.BENCH_CMD_IGNORED n.val), b) := by
  unfold benchStop
  obtain hst | hst := hst <;> simp only [hst]

theorem benchStop_off (hst : b.power.st = .starting ∨ b.power.st = .fault) : benchStop n h b =
    benchLeaves n .off true h { b with power := { b.power with retain := h.flag (R.pcr_BENCH_CTL_DRAM_RETAIN n.val) } } := by
  unfold benchStop
  obtain hst | hst := hst <;> simp only [hst]

end

/-! ## The switch turn (R544) -/

/-- With no START held the switch is free. -/
theorem Device.switchTurn_nil {d : Device} (h : d.hub.starts = []) :
    d.switchTurn (d.hub.starts.length + 1) = { d with hub := { d.hub with switchBusy := false } } := by
  rw [h]
  unfold Device.switchTurn
  rw [h]
  rfl

/-- The bench of the one START that is held, as its turn leaves the device. -/
def Device.startLands (d : Device) (n : BenchId) (v : Nat) : Device :=
  ({ d with hub := { d.hub with starts := [] } } : Device).run n (fun h b => (benchCtlLand n v h b).2)

/-- The one START that is held lands and closes the switch. -/
theorem Device.switchTurn_one {d : Device} {n : BenchId} {v : Nat} (h : d.hub.starts = [(n.val, v)])
    (hclosed : (benchCtlLand n v { d.hub with starts := [] } (d.bench n)).1 = true) :
    d.switchTurn (d.hub.starts.length + 1) =
      { d.startLands n v with hub := { (d.startLands n v).hub with switchBusy := true } } := by
  have hn : benchOf n.val = n := by simp [benchOf, Fin.ext_iff]
  rw [h]
  unfold Device.switchTurn
  rw [h]
  simp only [lowestStart, List.erase_cons_head, hn]
  exact if_pos hclosed

/-! ## The statement -/

/-- Settles O4: START and STOP in every state of a bench, a START that waits, and the switch turn. -/
theorem benchControl : Obligations.BenchControl := by
  unfold Obligations.BenchControl
  refine ⟨?start, ?refused, ?ignored, ?held, ?drain, ?stopIgnored, ?stopOff, ?free, ?turn⟩
  case start =>
    intro n v s hup hst hbusy hstarts hv
    obtain ⟨h0, h1⟩ := bits_putBits_start v.toNat
    have hland := benchCtlLand_start (n := n) (h := s.dev.hub) (b := s.dev.bench n) h0 h1
    have hheld : (!((s.dev.bench n).power.st = .off || (s.dev.bench n).power.st = .fault) : Bool) = false := by
      obtain hst | hst := hst <;> simp [hst]
    rw [hheld] at hland
    have hfields := Hub.fld_benchCtlFields s.dev.hub n (putBits v.toNat 0 2 1)
    obtain ⟨hfw, -⟩ := Hub.benchCtlFields_keeps s.dev.hub n false (putBits v.toNat 0 2 1)
    generalize s.dev.hub.benchCtlFields n false (putBits v.toNat 0 2 1) = g at hv hland hfields hfw
    rw [benchStart_valid hst hv] at hland
    have hw := benchCtlWrite_lands (n := n) (v := putBits v.toNat 0 2 1) (b := s.dev.bench n) (h := s.dev.hub) (.inr (.inr ⟨hbusy, hstarts⟩))
    rw [hland] at hw
    have hleaves := onBoth_benchCtlStart hup (hw.trans (congrArg (fun x : Hub => (x, _)) (if_pos rfl)))
    obtain ⟨hfw', -⟩ := Hub.faultsCleared_kept g n (s.dev.bench n)
    have hctl {f : Fld} (hf : f.off = R.pcr_BENCH_CTL n.val) := Hub.fld_faultsCleared g n (s.dev.bench n) hf
    obtain ⟨hprofile, hmode, hlink, hdram, hflash⟩ := hfields
    rw [← hctl rfl] at hprofile hmode hlink hdram hflash
    generalize g.faultsCleared n (s.dev.bench n) = g' at hleaves hfw' hprofile hmode hlink hdram hflash
    obtain ⟨hpower, hpkts, htally, hregs⟩ := Hub.startedBench_spec g' n (s.dev.bench n)
    generalize g'.startedBench n (s.dev.bench n) = x at hleaves hpower hpkts htally hregs
    obtain ⟨y, hy⟩ := drainEvents_fw n (x.raise 0).evq { g' with switchBusy := true }
    refine runsBoth_of_leavesBoth hleaves fun l => ⟨(drainEvents_starts _ _ _).1, ⟨y, hy.trans ?_⟩, ?_⟩
    · rw [show ({ g' with switchBusy := true } : Hub).fw = s.dev.hub.fw from hfw'.trans hfw]
    · rw [Bench.afterEvents_power, show (x.raise 0).power = x.power from rfl, hpower, hprofile, hmode, hlink]
      unfold Hub.flag
      rw [hdram, hflash]
      rw [getBits_putBits_low _ _ _ _ (by decide), getBits_putBits_low _ _ _ _ (by decide), getBits_putBits_low _ _ _ _ (by decide),
        getBits_putBits_low _ _ _ _ (by decide), getBits_putBits_low _ _ _ _ (by decide)]
      exact ⟨rfl, rfl, rfl, rfl, by simp [getBits, bit], by simp [getBits, bit], rfl, hpkts, htally, hregs⟩
  case refused =>
    intro n v s hup hst hbusy hstarts hv
    obtain ⟨h0, h1⟩ := bits_putBits_start v.toNat
    have hland := benchCtlLand_start (n := n) (h := s.dev.hub) (b := s.dev.bench n) h0 h1
    have hheld : (!((s.dev.bench n).power.st = .off || (s.dev.bench n).power.st = .fault) : Bool) = false := by
      obtain hst | hst := hst <;> simp [hst]
    rw [hheld, benchStart_invalid hst hv] at hland
    have hw := benchCtlWrite_lands (n := n) (v := putBits v.toNat 0 2 1) (b := s.dev.bench n) (h := s.dev.hub) (.inr (.inr ⟨hbusy, hstarts⟩))
    rw [hland] at hw
    exact onBoth_benchCtlStart hup (hw.trans (congrArg (fun x : Hub => (x, _)) (if_neg Bool.false_ne_true)))
  case ignored =>
    intro n v s hup hst
    obtain ⟨h0, h1⟩ := bits_putBits_start v.toNat
    have hland := benchCtlLand_start (n := n) (h := s.dev.hub) (b := s.dev.bench n) h0 h1
    have hwork : (s.dev.bench n).power.st ≠ .off ∧ (s.dev.bench n).power.st ≠ .fault := by
      unfold Bench.live at hst
      constructor <;> intro e <;> simp [e] at hst
    have hheld : (!((s.dev.bench n).power.st = .off || (s.dev.bench n).power.st = .fault) : Bool) = true := by simp [hwork]
    rw [hheld, benchStart_ignored hst] at hland
    have hw := benchCtlWrite_lands (n := n) (v := putBits v.toNat 0 2 1) (b := s.dev.bench n) (h := s.dev.hub) (.inr (.inl hwork))
    rw [hland] at hw
    exact onBoth_benchCtlStart hup (hw.trans (congrArg (fun x : Hub => (x, _)) (if_neg Bool.false_ne_true)))
  case held =>
    intro n v s hup hst hbusy
    exact onBoth_benchCtlStart hup (benchCtlWrite_held (bits_putBits_start v.toNat).1 hst hbusy)
  case drain =>
    intro n v s hup hst
    have hleaves := onBoth_benchCtlStop hup (benchCtlWrite_stop n v.toNat s.dev.hub (s.dev.bench n))
    rw [benchStop_running hst] at hleaves
    obtain ⟨hfw, hmem, -⟩ := Hub.benchCtlFields_keeps s.dev.hub n
      (!((s.dev.bench n).power.st = .off || (s.dev.bench n).power.st = .fault)) (putBits v.toNat 0 2 2)
    have hretain := Hub.flag_benchCtlFields_retain s.dev.hub n
      (!((s.dev.bench n).power.st = .off || (s.dev.bench n).power.st = .fault)) (putBits v.toNat 0 2 2)
    have hlimit : (s.dev.hub.benchCtlFields n (!((s.dev.bench n).power.st = .off || (s.dev.bench n).power.st = .fault)) (putBits v.toNat 0 2 2)).fld
        (R.pcr_BENCH_DRAIN_LIMIT_LIMIT_US n.val) = s.dev.hub.fld (R.pcr_BENCH_DRAIN_LIMIT_LIMIT_US n.val) := by
      unfold Hub.fld
      rw [Hub.reg_benchCtlFields]
      simp only [R.pcr_BENCH_DRAIN_LIMIT_LIMIT_US, R.pcr_BENCH_DRAIN_LIMIT, R.pcr_BENCH_CTL]
      omega
    generalize s.dev.hub.benchCtlFields n (!((s.dev.bench n).power.st = .off || (s.dev.bench n).power.st = .fault)) (putBits v.toNat 0 2 2) = g
      at hleaves hfw hmem hretain hlimit
    rw [hretain, hlimit] at hleaves
    obtain ⟨hdrain, hretain', harmed, hclaims, hkept, hflow⟩ := Bench.startDrain_spec
      { s.dev.bench n with power := { (s.dev.bench n).power with retain := bit (putBits v.toNat 0 2 2) 13 } }
      (s.dev.hub.fld (R.pcr_BENCH_DRAIN_LIMIT_LIMIT_US n.val))
    generalize Bench.startDrain _ _ = x at hleaves hdrain hretain' harmed hclaims hkept hflow
    obtain ⟨y, hy⟩ := drainEvents_fw n x.evq g
    refine runsBoth_of_leavesBoth hleaves fun l => ⟨⟨y, by rw [hy, hfw]⟩, (drainEvents_mem ..).trans hmem, hdrain, ?_, harmed, hclaims, hkept, hflow⟩
    exact hretain'.trans (bit_putBits_low v.toNat 13 2 (by decide))
  case stopIgnored =>
    intro n v s hup hst
    have hleaves := onBoth_benchCtlStop hup (benchCtlWrite_stop n v.toNat s.dev.hub (s.dev.bench n))
    have hheld : (!((s.dev.bench n).power.st = .off || (s.dev.bench n).power.st = .fault) : Bool) = !((s.dev.bench n).power.st = .off) := by
      obtain hst | hst := hst <;> simp [hst]
    rw [hheld, benchStop_ignored hst] at hleaves
    exact hleaves
  case stopOff =>
    intro n v s hup hst
    have hleaves := onBoth_benchCtlStop hup (benchCtlWrite_stop n v.toNat s.dev.hub (s.dev.bench n))
    rw [benchStop_off hst] at hleaves
    generalize s.dev.hub.benchCtlFields n (!((s.dev.bench n).power.st = .off || (s.dev.bench n).power.st = .fault)) (putBits v.toNat 0 2 2) = g
      at hleaves
    generalize ({ s.dev.bench n with power := _ } : Bench) = k at hleaves
    obtain ⟨hpkts, -, hregs⟩ := benchLeaves_spec n .off true g k
    have hoff := benchLeaves_st n .off true g k
    generalize benchLeaves n .off true g k = r at hleaves hpkts hregs hoff
    exact runsBoth_of_leavesBoth hleaves fun l => ⟨hoff, hpkts, hregs⟩
  case free =>
    intro s hstarts
    exact congrArg (fun d : Device => (Host.Outcome.next { s with dev := d } : Host.Outcome State Fault Refusal)) (Device.switchTurn_nil hstarts)
  case turn =>
    intro n v s hstarts hst h0 h1 hv
    have hland := benchCtlLand_start (n := n) (h := { s.dev.hub with starts := [] }) (b := s.dev.bench n) h0 h1
    have hheld : (!((s.dev.bench n).power.st = .off || (s.dev.bench n).power.st = .fault) : Bool) = false := by simp [hst]
    rw [hheld] at hland
    obtain ⟨-, -, -, hstarts'⟩ := Hub.benchCtlFields_keeps { s.dev.hub with starts := [] } n false v
    have hv' : (Hub.benchCtlFields { s.dev.hub with starts := [] } n false v).startValid n = true := hv
    generalize Hub.benchCtlFields { s.dev.hub with starts := [] } n false v = g at hland hstarts' hv'
    rw [benchStart_valid (.inl hst) hv'] at hland
    have hturn := Device.switchTurn_one hstarts (congrArg Prod.fst hland)
    obtain ⟨-, hstarts'', -⟩ := Hub.faultsCleared_kept g n (s.dev.bench n)
    have hst' : (((g.faultsCleared n (s.dev.bench n)).startedBench n (s.dev.bench n)).raise 0).power.st = .starting :=
      congrArg (fun p : Power => p.st) (Hub.startedBench_spec (g.faultsCleared n (s.dev.bench n)) n (s.dev.bench n)).1
    have hlands : s.dev.startLands n v = ({ s.dev with hub := { s.dev.hub with starts := [] } } : Device).run n
        (fun _ _ => (g.faultsCleared n (s.dev.bench n), ((g.faultsCleared n (s.dev.bench n)).startedBench n (s.dev.bench n)).raise 0)) :=
      Device.run_congr (congrArg Prod.snd hland)
    generalize ((g.faultsCleared n (s.dev.bench n)).startedBench n (s.dev.bench n)).raise 0 = x at hst' hlands
    generalize s.dev.startLands n v = e at hturn hlands
    refine ⟨_, congrArg (fun d : Device => (Host.Outcome.next { s with dev := d } : Host.Outcome State Fault Refusal)) hturn, ?_, ?_, rfl, ?_⟩
    · refine ⟨rfl, ?_, fun m hm => ?_⟩
      · rw [hlands]; rfl
      · change e.bench m = s.dev.bench m
        rw [hlands, Device.bench_run_ne _ _ hm]
        rfl
    · change e.hub.starts = []
      rw [hlands, Device.hub_run, (drainEvents_starts _ _ _).2, hstarts'', hstarts']
    · change (e.bench n).power.st = .starting
      rw [hlands, Device.bench_run_self]
      exact hst'

end Sys2Proof.Machine
end

section
/-! SUPPORT. The mailboxes as the hub's state (R474 to R484): what interrupts, doorbells and notices leave as it was. -/
namespace Sys2Proof.Machine

/-! ## A mailbox written -/

@[simp] theorem Hub.mbx_setMbx_self (h : Hub) (m : Nat) (b : Mailbox) : (h.setMbx m b).mbx m = b := sparseGet_set_self _ _ _ _

theorem Hub.mbx_setMbx_ne (h : Hub) {m k : Nat} (b : Mailbox) (hk : k ≠ m) : (h.setMbx m b).mbx k = h.mbx k := sparseGet_set_ne _ _ _ hk

@[simp] theorem Hub.mbx_updMbx_self (h : Hub) (m : Nat) (f : Mailbox → Mailbox) : (h.updMbx m f).mbx m = f (h.mbx m) := Hub.mbx_setMbx_self ..

/-- Mailboxes are the firmware's state. -/
theorem Hub.mbx_congr {g h : Hub} (e : g.fw = h.fw) (m : Nat) : g.mbx m = h.mbx m := by unfold Hub.mbx; rw [e]

/-! ## Interrupts -/

theorem Hub.raiseVector_kept (h : Hub) (key vec : Nat) : (h.raiseVector key vec).fw = h.fw ∧ (h.raiseVector key vec).regs = h.regs ∧
    (h.raiseVector key vec).mem = h.mem ∧ (h.raiseVector key vec).tal = h.tal := by
  have hfw := Hub.interrupt_fw h none key vec
  have hregs := Hub.interrupt_regs h none key vec
  have hmem := Hub.interrupt_mem h none key vec
  have htal := Hub.interrupt_tal h none key vec
  unfold Hub.raiseVector
  split
  next g t heq =>
    rw [heq] at hfw hregs hmem htal
    exact ⟨hfw, hregs, hmem, htal⟩
  next g heq =>
    rw [heq] at hfw hregs hmem htal
    exact ⟨hfw, hregs, hmem, htal⟩

theorem Hub.mbxInterrupt_fw (h : Hub) (m : Nat) : (h.mbxInterrupt m).fw = h.fw := by
  unfold Hub.mbxInterrupt
  dsimp only
  split
  · exact (Hub.raiseVector_kept h _ _).1
  · rfl

/-- Raising DB_TO_HOST changes nothing else of the mailbox. -/
theorem Hub.mbx_dbToHost_self (h : Hub) (m v : Nat) : (h.dbToHost m v).mbx m = { h.mbx m with dbHost := Nat.lor (h.mbx m).dbHost v } := by
  unfold Hub.dbToHost
  dsimp only
  split
  · rw [Hub.mbx_congr (Hub.mbxInterrupt_fw _ _), Hub.mbx_setMbx_self]
  · rw [Hub.mbx_setMbx_self]

theorem Hub.mbx_dbToHost_ne (h : Hub) {m k : Nat} (v : Nat) (hk : k ≠ m) : (h.dbToHost m v).mbx k = h.mbx k := by
  unfold Hub.dbToHost
  dsimp only
  split
  · rw [Hub.mbx_congr (Hub.mbxInterrupt_fw _ _), Hub.mbx_setMbx_ne _ _ hk]
  · rw [Hub.mbx_setMbx_ne _ _ hk]

/-! ## The tallies of an event -/

theorem Hub.tally_raiseFm (h : Hub) (e : Nat) {k : Nat} (hk : k ≠ T.EVT_COUNT e) : (h.raiseFm e).tally k = h.tally k := by
  have htick : (h.tick (T.EVT_COUNT e)).tally k = h.tally k := Hub.tally_count_ne _ _ hk
  unfold Hub.raiseFm
  dsimp only
  split
  · exact htick
  · split
    · exact htick
    · exact htick

theorem Hub.tally_raiseEvent (h : Hub) (src : Option BenchId) (e : Nat) {k : Nat} (hcount : k ≠ T.EVT_COUNT e) (hmiss : k ≠ T.EVT_ROUTE_MISS) :
    (h.raiseEvent src e).1.tally k = h.tally k := by
  have hfm := Hub.tally_raiseFm h e hcount
  unfold Hub.raiseEvent
  dsimp only
  generalize h.raiseFm e = g at hfm
  split
  · exact hfm
  next key vec _ =>
    split
    · exact hfm
    · split
      · exact (Hub.tally_count_ne _ _ hmiss).trans hfm
      · have htal := Hub.interrupt_tal (g.setFld (hostFlag e) 1) src key vec
        unfold Hub.tally at hfm ⊢
        rw [htal]
        exact hfm

theorem Hub.tally_raise (h : Hub) (e : Nat) {k : Nat} (hcount : k ≠ T.EVT_COUNT e) (hmiss : k ≠ T.EVT_ROUTE_MISS) :
    (h.raise e).tally k = h.tally k := by
  have hevent := Hub.tally_raiseEvent h none e hcount hmiss
  unfold Hub.raise
  split
  next g t heq => rw [heq] at hevent; exact hevent
  next g heq => rw [heq] at hevent; exact hevent

/-! ## Notices leave the admin pairs -/

/-- Of the firmware's state the admin pair of each mailbox and the numbering of commands are as before. -/
structure Hub.PairsKept (h g : Hub) : Prop where
  pair : ∀ m, (g.mbx m).admin = (h.mbx m).admin
  cmdNo : g.fw.cmdNo = h.fw.cmdNo

namespace Hub.PairsKept

variable {h g k : Hub}

theorem refl (h : Hub) : h.PairsKept h := ⟨fun _ => rfl, rfl⟩
theorem trans (a : h.PairsKept g) (b : g.PairsKept k) : h.PairsKept k := ⟨fun m => (b.pair m).trans (a.pair m), b.cmdNo.trans a.cmdNo⟩
theorem of_fw (e : g.fw = h.fw) : h.PairsKept g := ⟨fun m => by rw [Hub.mbx_congr e], by rw [e]⟩

theorem setMbx (h : Hub) (m : Nat) (b : Mailbox) (hb : b.admin = (h.mbx m).admin) : h.PairsKept (h.setMbx m b) := by
  refine ⟨fun j => ?_, rfl⟩
  by_cases hj : j = m
  · rw [hj, Hub.mbx_setMbx_self, hb]
  · rw [Hub.mbx_setMbx_ne _ _ hj]

theorem dbToHost (h : Hub) (m v : Nat) : h.PairsKept (h.dbToHost m v) := by
  unfold Hub.dbToHost
  dsimp only
  split
  · exact .trans (setMbx h m _ (by rfl)) (of_fw (Hub.mbxInterrupt_fw _ _))
  · exact setMbx h m _ (by rfl)

theorem notice (h : Hub) (m kind subject : Nat) : h.PairsKept (h.notice m kind subject) := by
  unfold Hub.notice
  dsimp only
  split
  · exact refl h
  · split
    · exact .trans (setMbx h m _ (by rfl)) (of_fw rfl)
    · exact .trans (.trans (g := h.takeFree.2.takeFree.2) (of_fw rfl) (setMbx _ m _ (by rfl))) (dbToHost _ _ _)

theorem noticeManagers (h : Hub) (kind subject : Nat) : h.PairsKept (h.noticeManagers kind subject) :=
  foldl_keeps (P := h.PairsKept) (f := fun (h : Hub) k => h.notice (8 * fnPort k + fnIdx k) kind subject) (fun x _ hx => hx.trans (notice x ..)) _ (refl h)

theorem eventNotice (h : Hub) (n : BenchId) (k : Nat) : h.PairsKept (h.eventNotice n k) := by
  unfold Hub.eventNotice
  split
  · exact refl h
  · split
    · exact noticeManagers ..
    · exact .trans (g := h.takeFree.2) (of_fw rfl) (noticeManagers ..)
    · exact noticeManagers ..
    · exact refl h

/-- Handing a bench's events over changes no admin pair. -/
theorem drainEvents (n : BenchId) (l : List Nat) (h : Hub) : h.PairsKept (drainEvents n h l).1 := by
  induction l generalizing h with
  | nil => exact refl h
  | cons k t ih => exact ((of_fw (Hub.raiseEvent_fw h (some n) (eventNumber n k))).trans (eventNotice _ n k)).trans (ih _)

end Hub.PairsKept

end Sys2Proof.Machine
end

section
/-! O51: the mailboxes (R474 to R484). -/
namespace Sys2Proof.Machine

/-! ## Words in and out (R475 to R478) -/

/-- An access by the owner of a LIVE mailbox. -/
theorem Hub.mbxOwner_live {h : Hub} {m : Nat} (hl : h.mbxLive m = true) (f : Hub → Hub) : h.mbxOwner m f = f h := if_pos hl

/-- A read by the owner of a LIVE mailbox. -/
theorem onMbxRead_live {s : State} {m : Nat} (hl : s.dev.hub.mbxLive m = true) {f : Hub → Nat × Hub} {x : Nat} {h : Hub} (hf : f s.dev.hub = (x, h)) :
    s.onMbxRead m f = .next { s with dev := { s.dev with hub := h, answer := [x] } } := by
  unfold State.onMbxRead
  dsimp only
  rw [Hub.mbxOwner_live hl, if_pos hl, hf]

/-- A seventeenth word takes the place of the newest, and collides. -/
theorem Hub.mbxPush_full {h : Hub} {m v : Nat} (hfull : 16 ≤ (h.mbx m).inq.length) :
    ((h.mbxPush m v).mbx m).inq = (h.mbx m).inq.dropLast ++ [BitVec.ofNat 32 v] ∧ ((h.mbxPush m v).mbx m).collided = true ∧
      (h.mbxPush m v).tally T.MBX_COLLIDED = min tallyMax (h.tally T.MBX_COLLIDED + 1) ∧ (h.mbxPush m v).mem = h.mem := by
  unfold Hub.mbxPush
  dsimp only
  rw [if_neg (by omega), Hub.mbx_congr (Hub.raise_fw _ _), Hub.tick_mbx, Hub.mbx_setMbx_self, Hub.tally_raise _ _ (by decide) (by decide)]
  exact ⟨rfl, rfl, Hub.tally_count_self _ _ _, Hub.raise_mem _ _⟩

/-! ## Admin doorbells (R384, R484) -/

section
variable {h : Hub} {m : Nat} {a : AdminPair} (ha : (h.mbx m).admin = some a) (he : (h.mbx m).adminErr = false)
include ha he

/-- The host's position of the submission queue. -/
theorem Hub.adminSq_mbx (v : Nat) : (h.adminSq m v).mbx m =
    if a.sqBad (getBits v 0 16) (getBits v 16 1) then { h.mbx m with dbFm := Nat.lor (h.mbx m).dbFm (2 ^ 31), adminErr := true }
    else { h.mbx m with
      dbFm := Nat.lor (h.mbx m).dbFm (2 ^ 31), admin := some { a with sqHost := (getBits v 0 16, getBits v 16 1) } } := by
  unfold Hub.adminSq Hub.dbToFm
  dsimp only
  rw [Hub.mbx_updMbx_self, Hub.mbx_updMbx_self]
  simp only [ha, he, Bool.false_eq_true, if_false]
  rfl

/-- The host's position of the completion queue. -/
theorem Hub.adminCq_mbx (v : Nat) : (h.adminCq m v).mbx m =
    if a.cqBad (getBits v 0 16) (getBits v 16 1) then { h.mbx m with adminErr := true }
    else { h.mbx m with admin := some { a with cqHost := (getBits v 0 16, getBits v 16 1) } } := by
  unfold Hub.adminCq
  dsimp only
  rw [Hub.mbx_updMbx_self]
  simp only [ha, he, Bool.false_eq_true, if_false]

end

/-- Bit 31 is set in a value with which 2^31 was combined. -/
theorem bit_lor_31 (x : Nat) : bit (Nat.lor x (2 ^ 31)) 31 = true := by
  rw [bit_eq_testBit]
  exact (Nat.testBit_or x (2 ^ 31) 31).trans (by rw [Nat.testBit_two_pow_self, Bool.or_true])

/-! ## Ryuner takes a GO (R483) -/

/-- A mailbox whose DB_TO_FM lost the bits that have no use. -/
def Mailbox.dbUsed (b : Mailbox) : Mailbox := { b with dbFm := b.dbFm - 2 * (b.dbFm / 2 % 2 ^ 30) }

/-- The hub once the unused bits of DB_TO_FM are cleared and counted. -/
def Hub.dbUsed (h : Hub) (m : Nat) : Hub :=
  if (h.mbx m).dbFm / 2 % 2 ^ 30 = 0 then h else
    (h.count T.MBX_DB_UNUSED ((List.range 30).filter (bit ((h.mbx m).dbFm / 2 % 2 ^ 30))).length).updMbx m Mailbox.dbUsed

theorem Hub.dbUsed_spec (h : Hub) (m : Nat) : (h.dbUsed m).mbx m = (h.mbx m).dbUsed ∧ (h.dbUsed m).mem = h.mem ∧ (h.dbUsed m).regs = h.regs ∧
    (h.dbUsed m).fw.cmds = h.fw.cmds ∧ (h.dbUsed m).fw.cmdNo = h.fw.cmdNo := by
  unfold Hub.dbUsed
  split
  next hz =>
    refine ⟨?_, rfl, rfl, rfl, rfl⟩
    unfold Mailbox.dbUsed
    rw [hz]
    rfl
  · exact ⟨by rw [Hub.mbx_updMbx_self, Hub.count_mbx], rfl, rfl, rfl, rfl⟩

section
variable {h : Hub} {m : Nat} (hgo : bit (unmasked (h.mbx m).dbFm (h.mbx m).maskFm) 0 = true) (hbusy : (h.mbx m).busy = false)
include hgo hbusy

/-- A GO whose words fit the row of its command is accepted. -/
theorem Hub.mbxGo_accepted {w : Word} {l : List Word} {r : CmdRow} (hcol : (h.mbx m).collided = false) (hq : (h.mbx m).inq = w :: l)
    (hlen : l.length = getBits w.toNat 12 4) (hrow : cmdRow (getBits w.toNat 0 12) = some r) (hwords : getBits w.toNat 12 4 = r.words)
    (hrsvd : getBits w.toNat 24 8 = 0) :
    h.mbxGo m = (((((h.dbUsed m).updMbx m (fun b => { b with dbFm := b.dbFm - 1, busy := true })).count T.MBX_OUT_DISCARD (h.mbx m).outq.length).updMbx m
      (fun b => { b with inq := [], outq := [] })).accept (sceuneOfWords m false (0, 0) ((w :: l).map BitVec.toNat))) := by
  unfold Hub.mbxGo
  simp only [hgo, hbusy, hcol, hq, Bool.not_true, Bool.or_false, Bool.false_eq_true, if_false, List.map_cons, List.headD_cons, List.length_cons,
    List.length_map, hlen, hwords, hrsvd]
  have hop' : cmdRow (sceuneOfWords m false (0, 0) (w.toNat :: l.map BitVec.toNat)).opcode = some r := hrow
  rw [if_neg (by omega), hop']
  simp only [ne_eq, not_true_eq_false, if_false]
  rfl

/-- A GO after a collision is refused. -/
theorem Hub.mbxGo_collided (hcol : (h.mbx m).collided = true) :
    h.mbxGo m = ((h.dbUsed m).updMbx m (fun b => { b with dbFm := b.dbFm - 1, busy := true })).refuseGo m rcCollided := by
  unfold Hub.mbxGo
  simp only [hgo, hbusy, hcol, Bool.not_true, Bool.or_false, Bool.false_eq_true, if_false, if_true]
  rfl

end

/-- The command that Ryuner accepts is the last of those at work, and its mailbox is as it was. -/
theorem Hub.accept_spec (h : Hub) (c : Sceune) : (h.accept c).fw.cmds = h.fw.cmds ++ [{ c with id := h.fw.cmdNo }] ∧
    (∀ m, (h.accept c).mbx m = h.mbx m) ∧ (h.accept c).mem = h.mem ∧ (h.accept c).regs = h.regs := ⟨rfl, fun _ => rfl, rfl, rfl⟩

/-- The mailbox of a GO that is refused. -/
def Mailbox.refused (b : Mailbox) (code : Nat) : Mailbox := { b with
  busy := false, seq := (b.seq + 1) % 256, outq := b.outq ++ [], ack := some (BitVec.ofNat 32 (code + 2 ^ 16 + 2 ^ 24 * ((b.seq + 1) % 256)))
  dbHost := Nat.lor b.dbHost 1 }

/-- A command of a mailbox that ends with no result word. -/
theorem Hub.mbx_sceuneEnd (h : Hub) {c : Sceune} (code : Nat) (hdead : c.dead = false) (hadmin : c.admin = false) :
    (h.sceuneEnd c code [] 0).mbx c.mbx = (h.mbx c.mbx).refused code := by
  unfold Hub.sceuneEnd
  simp only [hdead, hadmin, Bool.false_eq_true, if_false, ne_eq, not_true_eq_false, Bool.false_and, decide_false, Hub.mbx_dbToHost_self,
    Hub.mbx_setMbx_self]
  rfl

theorem Hub.mbx_refuseGo (h : Hub) (m code : Nat) : (h.refuseGo m code).mbx m =
    { h.mbx m with inq := [], collided := if code = rcCollided then false else (h.mbx m).collided }.refused code := by
  unfold Hub.refuseGo
  exact (Hub.mbx_sceuneEnd _ (c := sceuneOfWords m false (0, 0) []) code rfl rfl).trans (congrArg (Mailbox.refused · code) (Hub.mbx_updMbx_self ..))

/-! ## Ryuner at an admin queue (R371, R484) -/

/-- A mailbox to whose admin queue Ryuner attends. -/
def Mailbox.attended (b : Mailbox) : Mailbox := { b with dbFm := b.dbFm % 2 ^ 31 }

/-- The device when Ryuner attends to an admin queue. -/
def Device.attend (d : Device) (m : Nat) : Device := d.runHub (fun h => h.updMbx m Mailbox.attended)

theorem Device.attend_mbx (d : Device) (m : Nat) : (d.attend m).hub.mbx m = (d.hub.mbx m).attended := Hub.mbx_updMbx_self ..

section
variable {d : Device} {m : Nat} {again : Bool} {a : AdminPair} (hry : d.hub.ryuner = true) (hm : m < 4112) (hl : d.hub.mbxLive m = true)
  (ha : (d.hub.mbx m).admin = some a) (he : (d.hub.mbx m).adminErr = false) (hmute : d.hub.mbxMute m = false) (hw : 0 < a.waiting)
  (hroom : a.unread + (d.hub.fw.cmds.filter (fun c => c.mbx = m && c.admin)).length + a.held.length < 2 ^ a.cqSize)
include hry hm hl ha he hmute hw hroom

/-- A pair that is sound, has an entry waiting and room for its completion: what Ryuner does turns on the entry. -/
theorem Device.adminCommand_ready : d.adminCommand m again = match a.entry with
    | .idle => if a.reread && !again then d.attend m else (d.attend m).adminAsk m a
    | .asked _ => d.attend m
    | .got ws => (d.attend m).runHub (fun h => h.adminTake m a ws)
    | .failed => (d.attend m).runHub (fun h => h.updMbx m (fun b => { b with admin := some { a with entry := .idle }, adminErr := true })) := by
  have hmbx := Device.attend_mbx d m
  have hmute' : (d.attend m).hub.mbxMute m = false := by
    unfold Hub.mbxMute
    rw [hmbx]
    exact hmute
  have hattend : d.runHub (fun h => h.updMbx m (fun b => { b with dbFm := b.dbFm % 2 ^ 31 })) = d.attend m := rfl
  have hpair : ((d.attend m).hub.mbx m).admin = some a := by rw [hmbx]; exact ha
  have hsound : ((d.attend m).hub.mbx m).adminErr = false := by rw [hmbx]; exact he
  have hroom' : a.unread + ((d.attend m).hub.fw.cmds.filter (fun c => c.mbx = m && c.admin)).length + a.held.length < 2 ^ a.cqSize := hroom
  unfold Device.adminCommand
  rw [if_neg (by simp [hry, hm, hl, mbxCount]), hattend]
  generalize d.attend m = e at hpair hsound hroom' hmute'
  dsimp only
  rw [hpair]
  dsimp only
  exact if_neg (by simp [hsound, hmute', hroom', Int.not_le.mpr hw])

end

/-- An entry with the right PHASE whose words fit the row of its command is accepted. -/
theorem Hub.adminTake_accepted {h : Hub} {m : Nat} {a : AdminPair} {w : Nat} {l : List Nat} {r : CmdRow}
    (hphase : getBits ((w :: l).getD 15 0) 31 1 = a.sqDev.2) (hrow : cmdRow (getBits w 0 12) = some r) (hwords : getBits w 12 4 = r.words)
    (hrsvd : getBits w 24 8 = 0) :
    h.adminTake m a (w :: l) =
      (h.updMbx m (fun b => { b with admin := some { a with sqDev := adminNext a.sqSize a.sqDev, reread := false, entry := .idle } })).accept
        (sceuneOfWords m true (adminNext a.sqSize a.sqDev) (w :: l)) := by
  have hop : cmdRow (sceuneOfWords m true (adminNext a.sqSize a.sqDev) (w :: l)).opcode = some r := hrow
  unfold Hub.adminTake
  dsimp only
  rw [if_neg (not_not.mpr hphase), hop]
  simp only [List.headD_cons, hwords, hrsvd, ne_eq, not_true_eq_false, if_false]

/-- An entry with the wrong PHASE is asked for again, and a second time stops the pair. -/
theorem Hub.adminTake_mismatched {h : Hub} {m : Nat} {a : AdminPair} {ws : List Nat} (hphase : getBits (ws.getD 15 0) 31 1 ≠ a.sqDev.2)
    (he : (h.mbx m).adminErr = false) : (h.adminTake m a ws).fw.cmds = h.fw.cmds ∧ (h.adminTake m a ws).mem = h.mem ∧
      ((h.adminTake m a ws).mbx m).adminErr = a.reread ∧ ((h.adminTake m a ws).mbx m).admin = some { a with entry := .idle, reread := true } := by
  unfold Hub.adminTake
  dsimp only
  rw [if_pos hphase]
  split
  next hr => exact ⟨rfl, rfl, by simp [hr], by simp [hr.symm]⟩
  next hr => exact ⟨rfl, rfl, by simp [he, Bool.eq_false_iff.mpr hr], by simp⟩

/-! ## The next entry is asked for (R343) -/

/-- Ryuner asks for the next entry in its caller's window. -/
theorem Device.adminAsk_spec {d : Device} {m : Nat} {a : AdminPair}
    (hroom : (d.bench (d.hub.readBench m)).roomToRead d.hub (d.hub.mbx m).fn 64 = true) :
    (d.adminAsk m a).answer = d.answer ∧ ((d.adminAsk m a).hub.mbx m).admin = some { a with entry := .asked d.hub.fw.cmdNo } ∧
      (d.adminAsk m a).hub.fw.cmdNo = d.hub.fw.cmdNo + 1 ∧
      ((d.adminAsk m a).bench (d.hub.readBench m)).reads.length = (d.bench (d.hub.readBench m)).reads.length + 1 ∧
      ∀ j, j ≠ d.hub.readBench m → (d.adminAsk m a).bench j = d.bench j := by
  let h : Hub := (d.hub.updFw (fun w => { w with cmdNo := w.cmdNo + 1 })).setMbx m
    { d.hub.mbx m with admin := some { a with entry := .asked d.hub.fw.cmdNo } }
  let b : Bench := (d.bench (d.hub.readBench m)).ryunerRead d.hub (d.hub.mbx m).fn (d.hub.mbx m).pasid (a.sqBase + 64 * a.sqDev.1) 64
    (.entry m d.hub.fw.cmdNo)
  have hrun : d.adminAsk m a = d.run (d.hub.readBench m) (fun _ _ => (h, b)) := Device.run_congr (if_pos hroom)
  have hpair : (h.mbx m).admin = some { a with entry := .asked d.hub.fw.cmdNo } :=
    congrArg Mailbox.admin (Hub.mbx_setMbx_self _ m _)
  have hno : h.fw.cmdNo = d.hub.fw.cmdNo + 1 := rfl
  have hreads : b.reads.length = (d.bench (d.hub.readBench m)).reads.length + 1 := List.length_append
  clear_value h b
  have hkept := Hub.PairsKept.drainEvents (d.hub.readBench m) b.evq h
  rw [hrun]
  refine ⟨rfl, (hkept.pair m).trans hpair, hkept.cmdNo.trans hno, ?_, fun j hj => Device.bench_run_ne _ _ hj⟩
  rw [Device.bench_run_self]
  exact hreads

/-! ## The statement -/

section
variable {s : State} {m : Nat} {again : Bool} {a : AdminPair} (hry : s.dev.hub.ryuner = true) (hm : m < 4112) (hl : s.dev.hub.mbxLive m = true)
  (ha : (s.dev.hub.mbx m).admin = some a) (he : (s.dev.hub.mbx m).adminErr = false) (hmute : s.dev.hub.mbxMute m = false) (hw : 0 < a.waiting)
  (hroom : a.unread + (s.dev.hub.fw.cmds.filter (fun c => c.mbx = m && c.admin)).length + a.held.length < 2 ^ a.cqSize)
include hry hm hl ha he hmute hw hroom

/-- An entry that has come. -/
theorem runsHub_adminCommand_got {ws : List Nat} (hentry : a.entry = .got ws) {P : Hub → Prop} (hp : P ((s.dev.attend m).hub.adminTake m a ws)) :
    RunsHub (.adminCommand m again) s P := by
  have hready := Device.adminCommand_ready (again := again) hry hm hl ha he hmute hw hroom
  rw [hentry] at hready
  exact ⟨_, congrArg (fun d : Device => (Host.Outcome.next { s with dev := d } : Host.Outcome State Fault Refusal)) hready, ⟨rfl, rfl, rfl⟩, hp⟩

end

/-- Settles O51: the registers of a mailbox, its doorbells, and how Ryuner takes a command from it or from its admin queue. -/
theorem mailboxes : Obligations.Mailboxes := by
  unfold Obligations.Mailboxes
  refine ⟨?push, ?pushFull, ?pushFree, ?pop, ?popEmpty, ?ack, ?ackEmpty, ?toFm, ?toHost, ?toHostRaise, ?sq, ?cq, ?go, ?goCollided, ?ask, ?take,
    ?mismatch, ?failed⟩
  case push =>
    intro m v s hl hlen
    refine leavesHub_onHub rfl ((Hub.mbxOwner_live hl _).trans ?_)
    unfold Hub.mbxPush
    dsimp only
    rw [if_pos hlen, BitVec.ofNat_toNat, BitVec.setWidth_eq]
  case pushFull =>
    intro m v s hl hlen
    refine runsHub_onHub rfl ?_
    have hspec := Hub.mbxPush_full (v := v.toNat) hlen
    rw [BitVec.ofNat_toNat, BitVec.setWidth_eq] at hspec
    rw [Hub.mbxOwner_live hl]
    exact hspec
  case pushFree =>
    intro m v s hl
    exact leavesHub_onHub rfl (if_neg (by simp [hl]))
  case pop =>
    intro m w l s hl hq
    exact onMbxRead_live hl (by unfold Hub.mbxPop; dsimp only; rw [hq])
  case popEmpty =>
    intro m s hl hq
    exact onMbxRead_live hl (by unfold Hub.mbxPop; dsimp only; rw [hq])
  case ack =>
    intro m w s hl hk
    exact onMbxRead_live hl (by unfold Hub.mbxAck; dsimp only; rw [hk])
  case ackEmpty =>
    intro m s hl hk
    exact onMbxRead_live hl (by unfold Hub.mbxAck; dsimp only; rw [hk])
  case toFm =>
    intro m v s hl
    refine leavesHub_onHub rfl ((Hub.mbxOwner_live hl _).trans ?_)
    unfold Hub.dbToFm Hub.updMbx
    rw [Nat.mod_eq_of_lt v.isLt]
  case toHost =>
    intro m v s hmask
    exact leavesHub_onHub rfl (if_neg (not_not.mpr hmask))
  case toHostRaise =>
    intro m v s hmask
    exact leavesHub_onHub rfl (if_pos hmask)
  case sq =>
    intro m v a s hl ha he
    refine runsHub_onHub rfl ?_
    rw [Hub.mbxOwner_live hl, Hub.adminSq_mbx ha he]
    refine ⟨?_, rfl, rfl, fun hbad => ?_, fun hbad => ?_⟩
    · split
      · exact bit_lor_31 _
      · exact bit_lor_31 _
    · rw [hbad]
      exact ⟨rfl, he⟩
    · rw [hbad]
      exact ⟨ha, rfl⟩
  case cq =>
    intro m v a s hl ha he
    refine runsHub_onHub rfl ?_
    rw [Hub.mbxOwner_live hl, Hub.adminCq_mbx ha he]
    refine ⟨rfl, rfl, fun hbad => ?_, fun hbad => ?_⟩
    · rw [hbad]
      exact ⟨rfl, he⟩
    · rw [hbad]
      exact ⟨ha, rfl⟩
  case go =>
    intro m w l r s hry hm hl hgo hbusy hcol hq hlen hrow hwords hrsvd
    refine runsHub_onHub rfl ?_
    rw [if_pos (by simp [hry, hm, hl, mbxCount]), Hub.mbxGo_accepted hgo hbusy hcol hq hlen hrow hwords hrsvd]
    obtain ⟨hmbx, hmem, hregs, hcmds, hno⟩ := Hub.dbUsed_spec s.dev.hub m
    generalize s.dev.hub.dbUsed m = g at hmbx hmem hregs hcmds hno
    rw [(Hub.accept_spec _ _).1, (Hub.accept_spec _ _).2.1, Hub.mbx_updMbx_self, Hub.count_mbx, Hub.mbx_updMbx_self, hmbx]
    refine ⟨?_, rfl, rfl, rfl, rfl, hmem, hregs⟩
    rw [← hcmds, ← hno]
    rfl
  case goCollided =>
    intro m s hry hm hl hgo hbusy hcol
    refine runsHub_onHub rfl ?_
    rw [if_pos (by simp [hry, hm, hl, mbxCount]), Hub.mbxGo_collided hgo hbusy hcol, Hub.mbx_refuseGo, Hub.mbx_updMbx_self,
      (Hub.dbUsed_spec s.dev.hub m).1]
    exact ⟨rfl, rfl, rfl, rfl⟩
  case ask =>
    intro m again a s hry hm hl ha he hmute hw hroom hentry hagain hread
    have hready := Device.adminCommand_ready (again := again) hry hm hl ha he hmute hw hroom
    have hask : (a.reread && !again) ≠ true := by obtain hr | hg := hagain <;> simp [*]
    rw [hentry] at hready
    have hbench : (s.dev.attend m).hub.readBench m = s.dev.hub.readBench m := by
      unfold Hub.readBench
      rw [Device.attend_mbx]
      rfl
    have hfn : ((s.dev.attend m).hub.mbx m).fn = (s.dev.hub.mbx m).fn := by rw [Device.attend_mbx]; rfl
    have hspec := Device.adminAsk_spec (d := s.dev.attend m) (m := m) (a := a) (by rw [hbench, hfn]; exact hread)
    rw [hbench] at hspec
    obtain ⟨hanswer, hpair, hno, hreads, hothers⟩ := hspec
    exact ⟨_, congrArg (fun d : Device => (Host.Outcome.next { s with dev := d } : Host.Outcome State Fault Refusal)) (hready.trans (if_neg hask)),
      rfl, hanswer, hpair, hno, hreads, hothers⟩
  case take =>
    intro m again a w l r s hry hm hl ha he hmute hw hroom hentry hphase hrow hwords hrsvd
    refine runsHub_adminCommand_got hry hm hl ha he hmute hw hroom hentry ?_
    rw [Hub.adminTake_accepted hphase hrow hwords hrsvd]
    exact ⟨rfl, by rw [(Hub.accept_spec _ _).2.1, Hub.mbx_updMbx_self], rfl⟩
  case mismatch =>
    intro m again a ws s hry hm hl ha he hmute hw hroom hentry hphase
    refine runsHub_adminCommand_got hry hm hl ha he hmute hw hroom hentry ?_
    exact Hub.adminTake_mismatched hphase (by rw [Device.attend_mbx]; exact he)
  case failed =>
    intro m again a s hry hm hl ha he hmute hw hroom hentry
    have hready := Device.adminCommand_ready (again := again) hry hm hl ha he hmute hw hroom
    rw [hentry] at hready
    refine ⟨_, congrArg (fun d : Device => (Host.Outcome.next { s with dev := d } : Host.Outcome State Fault Refusal)) hready, ⟨rfl, rfl, rfl⟩,
      rfl, rfl, ?_⟩
    change (Hub.mbx (Hub.updMbx (s.dev.attend m).hub m _) m).adminErr = true ∧ (Hub.mbx (Hub.updMbx (s.dev.attend m).hub m _) m).admin = _
    rw [Hub.mbx_updMbx_self]
    exact ⟨rfl, rfl⟩

end Sys2Proof.Machine
end

section
/-! O11: the side port (R60 to R76, R85) and the wake match (R86, R518). -/
namespace Sys2Proof.Machine

/-! ## An event of the hub, in the registers -/

/-- An event of the hub writes its two flags and no other register. -/
theorem Hub.reg_raise_flags (h : Hub) (e : Nat) {o : Nat} (hfm : o ≠ R.irq_FM_STATUS (e / 32)) (hhost : o ≠ R.irq_HOST_STATUS (e / 32)) :
    (h.raise e).reg o = h.reg o := by
  have hraiseFm : (h.raiseFm e).reg o = h.reg o := by
    unfold Hub.raiseFm
    dsimp only
    split
    · rfl
    · split
      · exact Hub.reg_setFld_ne _ _ _ _ hfm
      · exact Hub.reg_setFld_ne _ _ _ _ hfm
  have hevent : (h.raiseEvent none e).1.reg o = h.reg o := by
    unfold Hub.raiseEvent
    dsimp only
    split
    · exact hraiseFm
    next key vec _ =>
      split
      · exact hraiseFm
      · split
        · exact (Hub.reg_setFld_ne _ _ _ _ hhost).trans hraiseFm
        · have hregs := Hub.interrupt_regs ((h.raiseFm e).setFld (hostFlag e) 1) none key vec
          have hreg : (((h.raiseFm e).setFld (hostFlag e) 1).interrupt none key vec).1.reg o = ((h.raiseFm e).setFld (hostFlag e) 1).reg o := by
            unfold Hub.reg
            rw [hregs]
          exact (hreg.trans (Hub.reg_setFld_ne _ _ _ _ hhost)).trans hraiseFm
  unfold Hub.raise
  split
  next g t heq => rw [heq] at hevent; exact hevent
  next g heq => rw [heq] at hevent; exact hevent

/-- The side port's registers stand apart from the interrupt unit. -/
theorem Hub.fld_raise_side (h : Hub) {e : Nat} (he : e < 1024) {f : Fld} (hf : 0x600000 ≤ f.off) : (h.raise e).fld f = h.fld f := by
  unfold Hub.fld
  rw [Hub.reg_raise_flags]
  · unfold R.irq_FM_STATUS
    omega
  · unfold R.irq_HOST_STATUS
    omega

/-! ## The link of the side port (R61, R63, R85) -/

theorem Hub.sideState_fw (h : Hub) (st : Nat) : (h.sideState st).fw = h.fw := by
  unfold Hub.sideState
  dsimp only
  split
  · exact Hub.raise_fw _ _
  · rfl

theorem Hub.sideState_fld (h : Hub) (st : Nat) {f : Fld} (hf : 0x600000 ≤ f.off) : (h.sideState st).fld f =
    ((h.setFld R.side_PORT_STATUS_0_STATE st).setFld R.side_PORT_STATUS_0_LINK_CHANGED 1).fld f := by
  unfold Hub.sideState
  dsimp only
  split
  · exact Hub.fld_raise_side _ (by decide) hf
  · rfl

/-- A change of the link's state shows in STATE. -/
theorem Hub.sideSt_sideState (h : Hub) {st : Nat} (hst : st < 8) : (h.sideState st).sideSt = st := by
  unfold Hub.sideSt
  rw [Hub.sideState_fld _ _ (by decide), Hub.fld_setFld_apart _ _ _ _ (by decide) (.inr (.inr (by decide))), Hub.fld_setFld_self _ _ _ (by decide)]
  exact Nat.mod_eq_of_lt hst

/-- Of other fields it writes LINK_CHANGED alone. -/
theorem Hub.fld_sideState (h : Hub) (st : Nat) {f : Fld} (hf : 0x600000 ≤ f.off) (hw : f.lo + f.w ≤ 32) (hst : R.side_PORT_STATUS_0_STATE.apart f)
    (hch : R.side_PORT_STATUS_0_LINK_CHANGED.apart f) : (h.sideState st).fld f = h.fld f := by
  rw [Hub.sideState_fld _ _ hf, Hub.fld_setFld_apart _ _ _ _ hw hch, Hub.fld_setFld_apart _ _ _ _ hw hst]

theorem Hub.sidePort_sideState (h : Hub) (st : Nat) : (h.sideState st).sidePort = h.sidePort :=
  congrArg (fun w : Firmware => w.side.port) (Hub.sideState_fw h st)

/-- The link of a side port that leaves UP. -/
theorem Hub.sideLeaveUp_spec (h : Hub) {st : Nat} (hst : st < 8) : (h.sideLeaveUp st).sideSt = st ∧
    (h.sideLeaveUp st).fld R.side_PORT_STATUS_0_PAUSED = 0 ∧ (h.sideLeaveUp st).sidePort.retrain = decide (st = psTraining) ∧
    (h.sideLeaveUp st).fld R.side_LANE_STATUS_0_LOCKED = h.fld R.side_LANE_STATUS_0_LOCKED ∧
    (h.sideLeaveUp st).fld R.side_LANE_STATUS_0_SIGNAL = h.fld R.side_LANE_STATUS_0_SIGNAL := by
  unfold Hub.sideLeaveUp
  dsimp only
  refine ⟨Hub.sideSt_sideState _ hst, ?_, ?_, ?_, ?_⟩
  · rw [Hub.fld_sideState _ _ (by decide) (by decide) (.inr (.inl (by decide))) (.inr (.inr (by decide))), Hub.fld_setFld_self _ _ _ (by decide)]
    rfl
  · rw [Hub.sidePort_sideState]
    rfl
  · rw [Hub.fld_sideState _ _ (by decide) (by decide) (.inl (by decide)) (.inl (by decide)),
      Hub.fld_setFld_apart _ _ _ _ (by decide) (.inl (by decide))]
    rfl
  · rw [Hub.fld_sideState _ _ (by decide) (by decide) (.inl (by decide)) (.inl (by decide)),
      Hub.fld_setFld_apart _ _ _ _ (by decide) (.inl (by decide))]
    rfl

/-- The lane's registers are not the link's state. -/
theorem Hub.sideSt_setFld (h : Hub) {f : Fld} (v : Nat) (hf : f.off ≠ R.side_PORT_STATUS_0) : (h.setFld f v).sideSt = h.sideSt :=
  Hub.fld_setFld_apart h f _ v (by decide) (.inl hf)

/-- Energy on the lane of a port that waits for it. -/
theorem Hub.sideSignal_wait {h : Hub} (hst : h.sideSt = psWait) : h.sideSignal =
    ((h.setFld R.side_LANE_STATUS_0_SIGNAL 1).setSidePort { h.sidePort with fails := 0, retrain := false, an := 0 }).sideState psTraining := by
  unfold Hub.sideSignal
  exact if_pos ((Hub.sideSt_setFld h 1 (by decide)).trans hst)

/-- An attempt that succeeds. -/
theorem Hub.sideSucceeds_training {h : Hub} (hst : h.sideSt = psTraining) (han : h.sideNegotiates = false ∨ h.sidePort.an = 1) :
    h.sideSucceeds = Hub.sideState ((if h.sidePort.retrain then (h.setFld R.side_LANE_STATUS_0_LOCKED 1).tick (sideTally (T.LINK_RETRAIN_OK 0))
      else h.setFld R.side_LANE_STATUS_0_LOCKED 1).setSidePort { h.sidePort with fails := 0, retrain := false, faults := false }) psUp := by
  unfold Hub.sideSucceeds
  rw [if_pos (by obtain han | han := han <;> simp [hst, han])]
  dsimp only
  have hretrain : (h.setFld R.side_LANE_STATUS_0_LOCKED 1).sidePort.retrain = h.sidePort.retrain := rfl
  rw [hretrain]
  split
  · rfl
  · rfl

/-- An attempt that fails: the first, and a further one. -/
theorem Hub.sideFails_training {h : Hub} (hst : h.sideSt = psTraining) (han : h.sideNegotiates = false ∨ h.sidePort.an ≠ 2) :
    h.sideFails = if h.sidePort.fails = 0 then
      ((h.setFld R.side_PORT_STATUS_0_TRAIN_FAILED 1).setSidePort { h.sidePort with fails := 1, an := 0 }).tick (sideTally (T.TRAIN_RETRY 0))
    else (((h.setFld R.side_PORT_STATUS_0_TRAIN_FAILED 1).setSidePort { h.sidePort with fails := 0, retrain := false }).setFld
      R.side_LANE_STATUS_0_FAILED 1).sideState psFailed := by
  unfold Hub.sideFails
  exact if_pos (by obtain han | han := han <;> simp [hst, han])

/-! ## Frames of the side port (R65, R68, R73) -/

/-- A frame on the side port is counted. -/
def Hub.sideCounted (h : Hub) (bytes : List Byte) : Hub :=
  if decide (h.fld R.side_MAX_FRAME_0_BYTES < bytes.length) then
    ((h.tick (sideTally (T.RX_FRAMES 0))).count (sideTally (T.RX_BYTES 0)) bytes.length).tick (sideTally (T.RX_OVERSIZE 0))
  else (h.tick (sideTally (T.RX_FRAMES 0))).count (sideTally (T.RX_BYTES 0)) bytes.length

theorem Hub.sideCounted_spec (h : Hub) (bytes : List Byte) : (h.sideCounted bytes).fw = h.fw ∧ (h.sideCounted bytes).regs = h.regs ∧
    (h.sideCounted bytes).tally (sideTally (T.RX_FRAMES 0)) = min tallyMax (h.tally (sideTally (T.RX_FRAMES 0)) + 1) ∧
    (h.sideCounted bytes).tally (sideTally (tallyKey 1 2 0)) = h.tally (sideTally (tallyKey 1 2 0)) := by
  have hframes : ((h.tick (sideTally (T.RX_FRAMES 0))).count (sideTally (T.RX_BYTES 0)) bytes.length).tally (sideTally (T.RX_FRAMES 0)) =
      min tallyMax (h.tally (sideTally (T.RX_FRAMES 0)) + 1) :=
    (Hub.tally_count_ne _ _ (by decide)).trans (Hub.tally_count_self _ _ _)
  have hfcs : ((h.tick (sideTally (T.RX_FRAMES 0))).count (sideTally (T.RX_BYTES 0)) bytes.length).tally (sideTally (tallyKey 1 2 0)) =
      h.tally (sideTally (tallyKey 1 2 0)) := (Hub.tally_count_ne _ _ (by decide)).trans (Hub.tally_count_ne _ _ (by decide))
  unfold Hub.sideCounted
  split
  · exact ⟨rfl, rfl, (Hub.tally_count_ne _ _ (by decide)).trans hframes, (Hub.tally_count_ne _ _ (by decide)).trans hfcs⟩
  · exact ⟨rfl, rfl, hframes, hfcs⟩

/-- A frame with a bad FCS is spoiled under its code. -/
theorem Hub.sideFrame_bad (h : Hub) {bytes : List Byte} (hlen : 64 ≤ bytes.length) :
    h.sideFrame bytes .whole true = (h.sideCounted bytes).tick (sideTally (tallyKey 1 2 0)) := by
  have hcode : (if RxEnd.whole = RxEnd.aborted then 0x13 else rxCode (RxEnd.whole = RxEnd.badCode) bytes.length true) = 0x10 := by
    unfold rxCode
    simp [Nat.not_lt.mpr hlen]
  unfold Hub.sideFrame
  dsimp only
  rw [hcode]
  rfl

/-- A frame with no error that is not MAC control is delivered, as far as MAX_FRAME lets it be kept. -/
theorem Hub.sideFrame_good (h : Hub) {bytes : List Byte} (hlen : 64 ≤ bytes.length) (hmac : beNat (slice bytes 12 2) ≠ 0x8808) :
    h.sideFrame bytes .whole false = (h.sideCounted bytes).sideDeliver (bytes.take (h.fld R.side_MAX_FRAME_0_BYTES))
      (decide (h.fld R.side_MAX_FRAME_0_BYTES < bytes.length)) := by
  have hcode : (if RxEnd.whole = RxEnd.aborted then 0x13 else rxCode (RxEnd.whole = RxEnd.badCode) bytes.length false) = 0 := by
    unfold rxCode
    simp [Nat.not_lt.mpr hlen]
  unfold Hub.sideFrame
  dsimp only
  rw [hcode, if_neg (not_not.mpr rfl), if_neg hmac]
  rfl

/-- A frame to every station goes to the Foreman. -/
theorem Hub.sideDeliver_broadcast (h : Hub) {bytes : List Byte} (long : Bool) (hda : slice bytes 0 6 = List.replicate 6 0xFF#8)
    (hd0 : h.fw.power = .d0) :
    (h.sideDeliver bytes long).fw = { h.fw with side := { h.fw.side with rx := h.fw.side.rx ++ [(bytes, long)] } } ∧
      (h.sideDeliver bytes long).tally (sideTally (T.RX_FRAMES 0)) = h.tally (sideTally (T.RX_FRAMES 0)) ∧
      (h.sideDeliver bytes long).regs = h.regs := by
  unfold Hub.sideDeliver
  dsimp only
  rw [if_neg (by simp [hda])]
  cases h.sideHit (slice bytes 0 6) with
  | false =>
    rw [if_neg Bool.false_ne_true, if_pos hd0]
    exact ⟨rfl, rfl, rfl⟩
  | true =>
    rw [if_pos rfl, if_pos (show (h.tick (sideTally (T.STATION_HIT 0))).fw.power = .d0 from hd0)]
    exact ⟨rfl, Hub.tally_count_ne _ _ (by decide), rfl⟩

/-- With no loopback a frame reaches the receiver. -/
theorem Hub.sideArrive_plain {h : Hub} (hloop : h.fld R.side_LANE_CTL_0_LOOPBACK = 0) (bytes : List Byte) (how : RxEnd) (bad : Bool) :
    h.sideArrive bytes how bad = h.sideFrame bytes how bad := by
  unfold Hub.sideArrive
  simp only [hloop]

/-- With no loopback a frame leaves padded. -/
theorem Hub.sideSend_plain {h : Hub} (hloop : h.fld R.side_LANE_CTL_0_LOOPBACK = 0) (bytes : List Byte) : h.sideSend bytes =
    ((h.tick (sideTally (T.TX_FRAMES 0))).count (sideTally (T.TX_BYTES 0)) ((pad60 bytes).length + 4)).updFw (fun w =>
      { w with side := { w.side with out := w.side.out ++ [{ port := 0, bytes := pad60 bytes, badFcs := false, echo := false }] } }) := by
  unfold Hub.sideSend
  simp only [hloop]

/-! ## The wake match (R86, R518) -/

/-- On a device in D0 a match is told, and requests nothing else. -/
theorem Hub.wakeFrame_awake {h : Hub} {frame : List Byte} {k : Nat} (hk : h.wakeIndex frame = some k) (hup : h.up = true) (hd0 : h.fw.power = .d0) :
    h.wakeFrame frame = ((h.setFld R.side_WAKE_STATUS_INDEX k).setFld R.side_WAKE_STATUS_VALID 1).raise 651 := by
  have hd0' : (((h.setFld R.side_WAKE_STATUS_INDEX k).setFld R.side_WAKE_STATUS_VALID 1).raise 651).fw.power = .d0 := by
    rw [Hub.raise_fw]
    exact hd0
  unfold Hub.wakeFrame
  rw [hk]
  dsimp only
  rw [if_pos (by exact hup)]
  unfold Hub.requestWake
  rw [hd0']

/-! ## The statement -/

section
variable {c : Instr} {s : State} {g : Hub → Hub} (he : exec c s = s.onHub (fun h => if h.sideLive then g h else h)) (hl : s.dev.hub.sideLive = true)
include he hl

/-- A command of the side port while it has power. -/
theorem leavesHub_onPort {h : Hub} (hg : g s.dev.hub = h) : LeavesHub c s h := leavesHub_onHub he ((if_pos hl).trans hg)

theorem runsHub_onPort {P : Hub → Prop} (hp : P (g s.dev.hub)) : RunsHub c s P := runsHub_onHub he (by rw [if_pos hl]; exact hp)

end

/-- Settles O11: the side port's link, its frames and its pause, and the wake match. -/
theorem sidePortAndWake : Obligations.SidePortAndWake := by
  unfold Obligations.SidePortAndWake
  refine ⟨?good, ?bad, ?wake, ?noWake, ?signal, ?signalLoss, ?lockLoss, ?succeeds, ?fails, ?failsAgain, ?page, ?noPage, ?tx, ?txDown, ?request,
    ?again, ?mode, ?expired⟩
  case good =>
    intro bytes s hup hst hloop hlen hmax hmac hda hd0
    refine runsHub_onHub rfl ?_
    obtain ⟨hfw, hregs, hframes, -⟩ := Hub.sideCounted_spec s.dev.hub bytes
    rw [if_pos (by simp [hup, hst]), Hub.sideArrive_plain hloop, Hub.sideFrame_good _ hlen hmac, List.take_of_length_le hmax,
      decide_eq_false (Nat.not_lt.mpr hmax)]
    generalize s.dev.hub.sideCounted bytes = g at hfw hregs hframes
    obtain ⟨hfw', htally, hregs'⟩ := Hub.sideDeliver_broadcast g false hda (by rw [hfw]; exact hd0)
    exact ⟨by rw [hfw', hfw], htally.trans hframes, hregs'.trans hregs⟩
  case bad =>
    intro bytes s hup hst hloop hlen
    refine runsHub_onHub rfl ?_
    obtain ⟨hfw, hregs, hframes, hfcs⟩ := Hub.sideCounted_spec s.dev.hub bytes
    rw [if_pos (by simp [hup, hst]), Hub.sideArrive_plain hloop, Hub.sideFrame_bad _ hlen]
    generalize s.dev.hub.sideCounted bytes = g at hfw hregs hframes hfcs
    exact ⟨hfw, hregs, (Hub.tally_count_ne _ _ (by decide)).trans hframes, (Hub.tally_count_self _ _ _).trans (by rw [hfcs])⟩
  case wake =>
    intro frame k s hup hst hd0 hk
    refine runsHub_onHub rfl ?_
    have hlive : s.dev.hub.sideLive = true := by simp [Hub.sideLive, hd0, hup]
    rw [if_pos (by simp [hlive, hst]), Hub.wakeFrame_awake hk hup hd0]
    refine ⟨?_, ?_, Hub.raise_fw _ _, Hub.raise_mem _ _⟩
    · rw [Hub.fld_raise_side _ (by decide) (by decide), Hub.fld_setFld_apart _ _ _ _ (by decide) (.inr (.inr (by decide))),
        Hub.fld_setFld_self _ _ _ (by decide)]
      rfl
    · unfold Hub.flag
      rw [Hub.fld_raise_side _ (by decide) (by decide), Hub.fld_setFld_self _ _ _ (by decide)]
      rfl
  case noWake =>
    intro frame s hk
    refine leavesHub_onHub rfl ?_
    unfold Hub.wakeFrame
    rw [hk]
    exact ite_self _
  case signal =>
    intro p s hlive hst
    refine runsHub_onPort rfl hlive ?_
    rw [Hub.sideSignal_wait hst]
    refine ⟨Hub.sideSt_sideState _ (by decide), ?_, Hub.sidePort_sideState _ _⟩
    rw [Hub.fld_sideState _ _ (by decide) (by decide) (.inl (by decide)) (.inl (by decide))]
    exact Hub.fld_setFld_self s.dev.hub _ 1 (by decide)
  case signalLoss =>
    intro p s hlive hst
    refine runsHub_onPort rfl hlive ?_
    have hsig : ((s.dev.hub.setFld R.side_LANE_STATUS_0_SIGNAL 0).setFld R.side_LANE_STATUS_0_LOCKED 0).fld R.side_LANE_STATUS_0_SIGNAL = 0 := by
      rw [Hub.fld_setFld_apart _ _ _ _ (by decide) (.inr (.inr (by decide))), Hub.fld_setFld_self _ _ _ (by decide)]
      rfl
    have hlock : ((s.dev.hub.setFld R.side_LANE_STATUS_0_SIGNAL 0).setFld R.side_LANE_STATUS_0_LOCKED 0).fld R.side_LANE_STATUS_0_LOCKED = 0 := by
      rw [Hub.fld_setFld_self _ _ _ (by decide)]
      rfl
    unfold Hub.sideSignalLoss
    dsimp only
    rw [Hub.sideSt_setFld _ _ (by decide), Hub.sideSt_setFld _ _ (by decide)]
    generalize (s.dev.hub.setFld R.side_LANE_STATUS_0_SIGNAL 0).setFld R.side_LANE_STATUS_0_LOCKED 0 = g at hsig hlock
    obtain hst | hst := hst
    · rw [if_neg (by rw [hst]; decide), if_pos hst]
      refine ⟨Hub.sideSt_sideState _ (by decide), ?_, ?_⟩
      · rw [Hub.fld_sideState _ _ (by decide) (by decide) (.inl (by decide)) (.inl (by decide)), hsig]
      · rw [Hub.fld_sideState _ _ (by decide) (by decide) (.inl (by decide)) (.inl (by decide)), hlock]
    · rw [if_pos hst]
      obtain ⟨hwait, -, -, hlock', hsig'⟩ := Hub.sideLeaveUp_spec g (st := psWait) (by decide)
      exact ⟨hwait, hsig'.trans hsig, hlock'.trans hlock⟩
  case lockLoss =>
    intro p s hlive hst
    refine runsHub_onPort rfl hlive ?_
    unfold Hub.sideLockLoss
    rw [if_pos hst]
    obtain ⟨htrain, hpaused, hretrain, hlock, -⟩ := Hub.sideLeaveUp_spec (s.dev.hub.setFld R.side_LANE_STATUS_0_LOCKED 0) (st := psTraining) (by decide)
    exact ⟨htrain, hlock.trans (Hub.fld_setFld_self _ _ _ (by decide)), hpaused, hretrain⟩
  case succeeds =>
    intro p s hlive hst han
    refine runsHub_onPort rfl hlive ?_
    rw [Hub.sideSucceeds_training hst han]
    refine ⟨Hub.sideSt_sideState _ (by decide), ?_, Hub.sidePort_sideState _ _⟩
    rw [Hub.fld_sideState _ _ (by decide) (by decide) (.inl (by decide)) (.inl (by decide))]
    refine Eq.trans ?_ (Hub.fld_setFld_self s.dev.hub R.side_LANE_STATUS_0_LOCKED 1 (by decide))
    split
    · rfl
    · rfl
  case fails =>
    intro p s hlive hst han hfirst
    refine runsHub_onPort rfl hlive ?_
    rw [Hub.sideFails_training hst han, if_pos hfirst]
    refine ⟨(Hub.fld_setFld_apart s.dev.hub _ _ _ (by decide) (.inr (.inr (by decide)))).trans hst,
      Hub.fld_setFld_self s.dev.hub R.side_PORT_STATUS_0_TRAIN_FAILED 1 (by decide), rfl, Hub.tally_count_self _ _ _⟩
  case failsAgain =>
    intro p s hlive hst han hfirst
    refine runsHub_onPort rfl hlive ?_
    rw [Hub.sideFails_training hst han, if_neg hfirst]
    refine ⟨Hub.sideSt_sideState _ (by decide), ?_⟩
    rw [Hub.fld_sideState _ _ (by decide) (by decide) (.inl (by decide)) (.inl (by decide)), Hub.fld_setFld_self _ _ _ (by decide)]
    rfl
  case page =>
    intro p offered s hlive hst hneg hoff
    refine leavesHub_onPort rfl hlive ?_
    unfold Hub.sideAnPage
    rw [if_pos (by simp [hst, hneg]), if_pos (List.contains_iff_mem.mpr hoff)]
  case noPage =>
    intro p offered s hlive hst hneg hoff
    refine leavesHub_onPort rfl hlive ?_
    unfold Hub.sideAnPage
    rw [if_pos (by simp [hst, hneg]), if_neg (by rw [List.contains_iff_mem]; exact hoff)]
  case tx =>
    intro bytes p phase s hlive hst hpaused hloop
    refine runsHub_onHub rfl ?_
    rw [if_pos hlive, Hub.sideTx, if_neg (not_not.mpr hst), if_neg (by rw [hpaused]; exact Bool.false_ne_true), Hub.sideSend_plain hloop]
    exact ⟨rfl, rfl, (Hub.tally_count_ne _ _ (by decide)).trans (Hub.tally_count_self _ _ _)⟩
  case txDown =>
    intro bytes p phase s hlive hst
    exact leavesHub_onHub rfl ((if_pos hlive).trans (if_pos hst))
  case request =>
    intro p s hlive hst hmode hxoff hreqs
    refine leavesHub_onPort rfl hlive ?_
    have hreq : s.dev.hub.sideRequest = 256 := if_pos (by simp [hmode, hxoff])
    unfold Hub.sideRequestChange
    rw [hreq, hreqs]
    exact (if_neg (by decide)).trans ((if_pos hst).trans rfl)
  case again =>
    intro p s hlive hst hreqs hq
    exact leavesHub_onPort rfl hlive (if_pos (by simp [hst, hreqs, hq]))
  case mode =>
    intro p s hlive hmode hadv
    refine leavesHub_onPort rfl hlive ?_
    unfold Hub.sideModeChange
    dsimp only
    rw [if_neg hmode, if_neg (by simp [hadv])]
  case expired =>
    intro p s hlive
    exact leavesHub_onPort rfl hlive (if_pos rfl)

end Sys2Proof.Machine
end

section
/-! SUPPORT. The registers of a port (R58, R61, R90, R91): what a change of its link's state, of its lanes and of PORT_CTL leaves as it was. -/
namespace Sys2Proof.Machine

/-! ## Changes of a port alone -/

/-- The bench's power, memory, packets and sent frames are as they were, and every register but those of the port. -/
structure Bench.PortStep (p : Nat) (b b' : Bench) : Prop where
  power : b'.power = b.power
  mem : b'.mem = b.mem
  pkts : b'.pkts = b.pkts
  out : b'.out = b.out
  regs : RegsKept (fun o => o = R.face_PORT_CTL p ∨ o = R.face_PORT_STATUS p ∨ ∃ k ∈ b.lanes p, o = R.face_LANE_STATUS k) b b'

namespace Bench.PortStep

variable {p : Nat} {b b' b'' : Bench}

theorem portOnly (h : b.PortStep p b') : PortOnly p b b' := ⟨h.mem, h.pkts, h.out, h.regs⟩

theorem lanes (h : b.PortStep p b') : b'.lanes p = b.lanes p := by unfold Bench.lanes; rw [h.power]

theorem refl (b : Bench) : b.PortStep p b := ⟨rfl, rfl, rfl, rfl, fun _ _ => rfl⟩

theorem trans (h : b.PortStep p b') (h' : b'.PortStep p b'') : b.PortStep p b'' :=
  ⟨h'.power.trans h.power, h'.mem.trans h.mem, h'.pkts.trans h.pkts, h'.out.trans h.out,
    fun o ho => (h'.regs o (by rw [h.lanes]; exact ho)).trans (h.regs o ho)⟩

theorem setFld (b : Bench) {f : Fld} (v : Nat) (hf : f.off = R.face_PORT_CTL p ∨ f.off = R.face_PORT_STATUS p ∨ ∃ k ∈ b.lanes p, f.off = R.face_LANE_STATUS k) :
    b.PortStep p (b.setFld f v) := ⟨rfl, rfl, rfl, rfl, fun o ho => Bench.reg_setFld_ne _ _ _ _ (fun e => ho (by rw [e]; exact hf))⟩

theorem tick (b : Bench) (k : Nat) : b.PortStep p (b.tick k) := ⟨rfl, rfl, rfl, rfl, fun _ _ => rfl⟩
theorem raise (b : Bench) (k : Nat) : b.PortStep p (b.raise k) := ⟨rfl, rfl, rfl, rfl, fun _ _ => rfl⟩
theorem setPort (b : Bench) (x : PortSt) : b.PortStep p (b.setPort p x) := ⟨rfl, rfl, rfl, rfl, fun _ _ => rfl⟩

theorem ite {x y : Bench} (c : Prop) [Decidable c] (hx : b.PortStep p x) (hy : b.PortStep p y) : b.PortStep p (if c then x else y) := by
  split
  · exact hx
  · exact hy

theorem setPortSt (b : Bench) (st : Nat) : b.PortStep p (b.setPortSt p st) :=
  ((setFld b _ (.inr (.inl rfl))).trans (setFld _ _ (.inr (.inl rfl)))).trans (raise _ _)

theorem setLanes (b : Bench) {f : Nat → Fld} (v : Nat) (hf : ∀ k, (f k).off = R.face_LANE_STATUS k) : b.PortStep p (b.setLanes p f v) :=
  List.foldlRecOn (motive := fun x : Bench => b.PortStep p x) (b.lanes p) _ (refl b)
    (fun _ hx k hk => hx.trans (setFld _ _ (.inr (.inr ⟨k, by rw [hx.lanes]; exact hk, hf k⟩))))

end Bench.PortStep

theorem Bench.hasPort_congr {b b' : Bench} (h : b'.power = b.power) (p : Nat) : b'.hasPort p = b.hasPort p := by unfold Bench.hasPort; rw [h]

theorem Bench.hasPort_lt {b : Bench} {p : Nat} (h : b.hasPort p = true) : p < 4 :=
  Nat.lt_of_lt_of_le (of_decide_eq_true h) (portCount_le _)

theorem Bench.portSt_of_isUp {b : Bench} {p : Nat} (h : b.isUp p = true) : b.portSt p = psUp := by
  unfold Bench.isUp at h
  exact of_decide_eq_true (Bool.and_eq_true_iff.mp h).2

/-! ## Lanes -/

/-- A field of the lanes, written in each. -/
theorem Bench.fld_setLanes (b : Bench) (p : Nat) {f : Nat → Fld} {v : Nat} (hoff : ∀ k, (f k).off = R.face_LANE_STATUS k)
    (hw : ∀ k, (f k).lo + (f k).w ≤ 32) {k : Nat} (hv : v % 2 ^ (f k).w = v) (hk : k ∈ b.lanes p) : (b.setLanes p f v).fld (f k) = v :=
  Bench.fld_foldl_setFld (v := fun _ => v)
    (fun i j e => by rw [hoff, hoff] at e; unfold R.face_LANE_STATUS at e; omega) hw hv (b.lanes p) b hk

/-- Another field of the lanes is as it was. -/
theorem Bench.fld_setLanes_apart (b : Bench) (p : Nat) {f : Nat → Fld} {g : Fld} (v : Nat) (hg : g.lo + g.w ≤ 32) (hf : ∀ k, (f k).apart g) :
    (b.setLanes p f v).fld g = b.fld g :=
  foldl_keeps (P := fun x : Bench => x.fld g = b.fld g) (f := fun (b : Bench) k => b.setFld (f k) v)
    (fun _ k hx => (Bench.fld_setFld_apart _ _ _ _ hg (hf k)).trans hx) _ rfl

theorem Bench.reg_setLanes (b : Bench) (p : Nat) {f : Nat → Fld} (v : Nat) {o : Nat} (ho : ∀ k, o ≠ (f k).off) : (b.setLanes p f v).reg o = b.reg o :=
  Bench.reg_foldl_setFld_ne (v := fun _ => v) _ _ fun k _ => ho k

theorem Bench.setLanes_regsOnly (b : Bench) (p : Nat) (f : Nat → Fld) (v : Nat) : b.RegsOnly (b.setLanes p f v) := .foldl (fun b _ => .setFld b _ _) _ b

/-- Writing the lanes keeps the link's state. -/
theorem Bench.portSt_setLanes (b : Bench) {p : Nat} (hp : p < 4) {f : Nat → Fld} (v : Nat) (hoff : ∀ k, (f k).off = R.face_LANE_STATUS k) :
    (b.setLanes p f v).portSt p = b.portSt p :=
  Bench.fld_setLanes_apart b p v (Nat.le_of_ble_eq_true rfl) fun k => .inl (by
    rw [hoff]
    simp only [R.face_LANE_STATUS, R.face_PORT_STATUS_STATE, R.face_PORT_STATUS]
    omega)

/-- No lane carries a failed mark once the marks are cleared. -/
theorem Bench.laneFailed_setLanes (b : Bench) (p : Nat) : (b.setLanes p R.face_LANE_STATUS_FAILED 0).laneFailed p = false := by
  have hlanes : (b.setLanes p R.face_LANE_STATUS_FAILED 0).lanes p = b.lanes p := by
    unfold Bench.lanes
    rw [(b.setLanes_regsOnly p R.face_LANE_STATUS_FAILED 0).power]
  unfold Bench.laneFailed
  rw [hlanes, List.any_eq_false]
  intro k hk
  have hfld := Bench.fld_setLanes b p (f := R.face_LANE_STATUS_FAILED) (v := 0) (fun _ => rfl) (fun _ => Nat.le_of_ble_eq_true rfl) rfl hk
  unfold Bench.flag
  rw [hfld]
  decide

/-- Failed marks are registers of the lanes. -/
theorem Bench.laneFailed_congr {b b' : Bench} {p : Nat} (hpower : b'.power = b.power) (hreg : ∀ k, b'.reg (R.face_LANE_STATUS k) = b.reg (R.face_LANE_STATUS k)) :
    b'.laneFailed p = b.laneFailed p := by
  have hflag (k : Nat) : b'.flag (R.face_LANE_STATUS_FAILED k) = b.flag (R.face_LANE_STATUS_FAILED k) := by
    unfold Bench.flag Bench.fld
    rw [show (R.face_LANE_STATUS_FAILED k).off = R.face_LANE_STATUS k from rfl, hreg]
  unfold Bench.laneFailed Bench.lanes
  rw [hpower]
  simp only [hflag]

/-- A change of the link's state, in the other registers. -/
theorem Bench.reg_setPortSt (b : Bench) (p st : Nat) {o : Nat} (ho : o ≠ R.face_PORT_STATUS p) : (b.setPortSt p st).reg o = b.reg o := by
  have hstate : o ≠ (R.face_PORT_STATUS_STATE p).off := ho
  have hchanged : o ≠ (R.face_PORT_STATUS_LINK_CHANGED p).off := ho
  change ((b.setFld (R.face_PORT_STATUS_STATE p) st).setFld (R.face_PORT_STATUS_LINK_CHANGED p) 1).reg o = b.reg o
  rw [Bench.reg_setFld_ne _ _ _ _ hchanged, Bench.reg_setFld_ne _ _ _ _ hstate]

theorem Bench.fld_setPortSt_off (b : Bench) (p st : Nat) {f : Fld} (hf : f.off ≠ R.face_PORT_STATUS p) : (b.setPortSt p st).fld f = b.fld f := by
  unfold Bench.fld
  rw [Bench.reg_setPortSt _ _ _ hf]

theorem Bench.linkChanged_setPortSt (b : Bench) (p st : Nat) : (b.setPortSt p st).fld (R.face_PORT_STATUS_LINK_CHANGED p) = 1 := by
  rw [Bench.setPortSt, Bench.fld_raise, Bench.fld_setFld_self _ _ _ (Nat.le_of_ble_eq_true rfl)]
  rfl

theorem Bench.laneFailed_setPortSt (b : Bench) {p : Nat} (hp : p < 4) (st : Nat) : (b.setPortSt p st).laneFailed p = b.laneFailed p :=
  Bench.laneFailed_congr rfl fun k => Bench.reg_setPortSt _ _ _ (by simp only [R.face_LANE_STATUS, R.face_PORT_STATUS]; omega)

/-! ## PORT_CTL (R58, R90) -/

/-- From `b` to `c` a write of PORT_CTL has landed, with ENABLE `e`: the link's state, what the port keeps, the lanes' failed marks and the
rest of the bench are as they were, and refusals were counted at most. -/
structure Bench.CtlWritten (p e : Nat) (b c : Bench) : Prop where
  step : b.PortStep p c
  ports : c.ports = b.ports
  status : c.reg (R.face_PORT_STATUS p) = b.reg (R.face_PORT_STATUS p)
  enable : c.fld (R.face_PORT_CTL_ENABLE p) = e
  failed : c.laneFailed p = b.laneFailed p
  refused : b.tally T.CFG_REFUSED ≤ c.tally T.CFG_REFUSED ∨ tallyMax ≤ c.tally T.CFG_REFUSED

namespace Bench.CtlWritten

variable {p e : Nat} {b c : Bench}

theorem refl (b : Bench) : b.CtlWritten p (b.fld (R.face_PORT_CTL_ENABLE p)) b := ⟨.refl b, rfl, rfl, rfl, rfl, .inl le_rfl⟩

theorem port (h : b.CtlWritten p e c) (q : Nat) : c.port q = b.port q := by unfold Bench.port; rw [h.ports]

theorem portSt (h : b.CtlWritten p e c) : c.portSt p = b.portSt p := by
  unfold Bench.portSt Bench.fld
  rw [show (R.face_PORT_STATUS_STATE p).off = R.face_PORT_STATUS p from rfl, h.status]

theorem tick (h : b.CtlWritten p e c) (k : Nat) : b.CtlWritten p e (c.tick k) where
  step := h.step.trans (.tick c k)
  ports := h.ports
  status := h.status
  enable := h.enable
  failed := h.failed
  refused := by
    by_cases hk : T.CFG_REFUSED = k
    · rw [← hk, show (c.tick T.CFG_REFUSED).tally T.CFG_REFUSED = min tallyMax (c.tally T.CFG_REFUSED + 1) from Bench.tally_count_self _ _ _]
      obtain href | href := h.refused <;> omega
    · rw [show (c.tick k).tally T.CFG_REFUSED = c.tally T.CFG_REFUSED from Bench.tally_count_ne _ _ hk]
      exact h.refused

theorem ite {x y : Bench} (d : Prop) [Decidable d] (hx : b.CtlWritten p e x) (hy : b.CtlWritten p e y) : b.CtlWritten p e (if d then x else y) := by
  split
  · exact hx
  · exact hy

/-- Another field of PORT_CTL. -/
theorem setFld (h : b.CtlWritten p e c) {f : Fld} (v : Nat) (hf : f.off = R.face_PORT_CTL p) (hlo : 1 ≤ f.lo) : b.CtlWritten p e (c.setFld f v) where
  step := h.step.trans (.setFld c v (.inl hf))
  ports := h.ports
  status := (Bench.reg_setFld_ne _ _ _ _ (by rw [hf, R.face_PORT_CTL, R.face_PORT_STATUS]; omega)).trans h.status
  enable := (Bench.fld_setFld_apart _ _ _ _ (Nat.le_of_ble_eq_true rfl) (.inr (.inr (show 0 + 1 ≤ f.lo by omega)))).trans h.enable
  failed := (Bench.laneFailed_congr (b := c) (b' := c.setFld f v) rfl fun k => Bench.reg_setFld_ne _ _ _ _
    (by rw [hf, R.face_PORT_CTL, R.face_LANE_STATUS]; omega)).trans h.failed
  refused := h.refused

/-- ENABLE itself. -/
theorem setEnable (h : b.CtlWritten p e c) {v : Nat} (hv : v < 2) : b.CtlWritten p v (c.setFld (R.face_PORT_CTL_ENABLE p) v) where
  step := h.step.trans (.setFld c v (.inl rfl))
  ports := h.ports
  status := (Bench.reg_setFld_ne c (R.face_PORT_CTL_ENABLE p) v _
    (by simp only [R.face_PORT_CTL_ENABLE, R.face_PORT_CTL, R.face_PORT_STATUS]; omega)).trans h.status
  enable := (Bench.fld_setFld_self _ _ _ (Nat.le_of_ble_eq_true rfl)).trans (Nat.mod_eq_of_lt hv)
  failed := (Bench.laneFailed_congr (b := c) (b' := c.setFld (R.face_PORT_CTL_ENABLE p) v) rfl fun k => Bench.reg_setFld_ne c _ v _
    (by simp only [R.face_PORT_CTL_ENABLE, R.face_PORT_CTL, R.face_LANE_STATUS]; omega)).trans h.failed
  refused := h.refused

theorem rsvd (h : b.CtlWritten p e c) (o v : Nat) : b.CtlWritten p e (c.rsvd o v) := by
  unfold Bench.rsvd
  split
  · exact ite _ (h.tick _) h
  · exact h

/-- LANE_RESET of a port that has not failed, and that carries no failed marks while it is DISABLED. -/
theorem laneReset (h : b.CtlWritten p e c) (hp : p < 4) (hfailed : b.portSt p ≠ psFailed) (hmarks : b.portSt p = psDisabled → b.laneFailed p = false) :
    b.CtlWritten p e (c.laneReset p) := by
  unfold Bench.laneReset
  dsimp only
  rw [h.portSt, if_neg hfailed]
  split
  next hdis =>
    have hregs := c.setLanes_regsOnly p R.face_LANE_STATUS_FAILED 0
    refine ⟨h.step.trans (.setLanes c 0 fun _ => rfl), ?_, ?_, ?_, ?_, ?_⟩
    · obtain ⟨l, hl⟩ := hregs
      rw [hl]
      exact h.ports
    · refine (Bench.reg_setLanes c p 0 fun k => ?_).trans h.status
      simp only [R.face_LANE_STATUS_FAILED, R.face_LANE_STATUS, R.face_PORT_STATUS]
      omega
    · refine (Bench.fld_setLanes_apart c p 0 (Nat.le_of_ble_eq_true rfl) fun k => .inl ?_).trans h.enable
      simp only [R.face_LANE_STATUS_FAILED, R.face_LANE_STATUS, R.face_PORT_CTL_ENABLE, R.face_PORT_CTL]
      omega
    · rw [Bench.laneFailed_setLanes, hmarks hdis]
    · unfold Bench.tally
      rw [hregs.tal]
      exact h.refused
  · exact h.tick _

end Bench.CtlWritten

/-- What ENABLE, DISABLE and LANE_RESET do once the fields of PORT_CTL have landed. -/
def Bench.ctlActs (c : Bench) (p : Nat) (reset new old : Bool) : Bench :=
  let c := if reset then c.laneReset p else c
  if new && !old then c.portEnable p else if old && !new then c.portDisable p else c

/-- The fields of PORT_CTL that a write sets before ENABLE; each refused one keeps its value. -/
def Bench.ctlFields (b : Bench) (p v : Nat) : Bench :=
  let iface := getBits v 1 2
  let b := if iface = 3 || (iface = 1 && b.power.portMode = 5) then b.cfgRefused else b.setFld (R.face_PORT_CTL_IFACE p) iface
  let b := if fecOk b.power.portMode (getBits v 3 1) then b.setFld (R.face_PORT_CTL_FEC_EN p) (getBits v 3 1) else b.cfgRefused
  let b := b.setFld (R.face_PORT_CTL_AN_EN p) (getBits v 4 1)
  if getBits v 8 8 = 0 then b.cfgRefused else b.setFld (R.face_PORT_CTL_TRAIN_LIMIT p) (getBits v 8 8)

theorem Bench.CtlWritten.ctlFields {p e : Nat} {b c : Bench} (h : b.CtlWritten p e c) (v : Nat) : b.CtlWritten p e (c.ctlFields p v) := by
  unfold Bench.ctlFields
  extract_lets iface c1 c2 c3
  have h1 : b.CtlWritten p e c1 := .ite _ (h.tick _) (h.setFld _ rfl (Nat.le_of_ble_eq_true rfl))
  have h2 : b.CtlWritten p e c2 := .ite _ (h1.setFld _ rfl (Nat.le_of_ble_eq_true rfl)) (h1.tick _)
  have h3 : b.CtlWritten p e c3 := h2.setFld _ rfl (Nat.le_of_ble_eq_true rfl)
  exact .ite _ (h3.tick _) (h3.setFld _ rfl (Nat.le_of_ble_eq_true rfl))

theorem Bench.portCtlWrite_eq {b : Bench} {p : Nat} (hp : b.hasPort p = true) (v : Nat) : b.portCtlWrite p v =
    ((b.ctlFields p v).setFld (R.face_PORT_CTL_ENABLE p) (getBits v 0 1)).ctlActs p (bit v 5) (bit v 0)
      ((b.ctlFields p v).flag (R.face_PORT_CTL_ENABLE p)) :=
  if_neg (by rw [hp]; exact Bool.false_ne_true)

/-- A write of PORT_CTL: its fields, and what it starts. -/
theorem Bench.portCtlWrite_spec {b : Bench} {p : Nat} (hp : b.hasPort p = true) (v o w : Nat) :
    ∃ c, b.CtlWritten p (getBits v 0 1) c ∧
      (b.rsvd o w).portCtlWrite p v = c.ctlActs p (bit v 5) (bit v 0) (b.flag (R.face_PORT_CTL_ENABLE p)) := by
  have hfields := ((Bench.CtlWritten.refl (p := p) b).rsvd o w).ctlFields v
  have hp' : (b.rsvd o w).hasPort p = true := (Bench.hasPort_congr ((Bench.CtlWritten.refl (p := p) b).rsvd o w).step.power p).trans hp
  refine ⟨_, hfields.setEnable (getBits_lt v 0 1), (Bench.portCtlWrite_eq hp' v).trans ?_⟩
  unfold Bench.flag
  rw [hfields.enable]

end Sys2Proof.Machine
end

section
/-! O12: the link states of a bench's ports (R58 to R63, R90). -/
namespace Sys2Proof.Machine

/-! ## Bits of the value written -/

theorem bits_putBits_enable (v x : Nat) (hx : x < 2) :
    bit (putBits v 0 1 x) 0 = decide (x = 1) ∧ getBits (putBits v 0 1 x) 0 1 = x ∧ bit (putBits v 0 1 x) 5 = bit v 5 := by
  unfold bit getBits putBits
  refine ⟨?_, ?_, ?_⟩ <;> simp <;> omega

theorem bits_putBits_reset (v : Nat) : bit (putBits v 5 1 1) 5 = true ∧ bit (putBits v 5 1 1) 0 = bit v 0 := by
  unfold bit putBits
  constructor <;> simp <;> omega

/-! ## What a write of PORT_CTL starts -/

/-- A command of a bench whose result is given, and what holds of it whatever its events. -/
theorem runs_of_leaves {c : Instr} {n : BenchId} {s : State} {b : Bench} {Q : Bench → Prop} (h : Leaves c n s b)
    (hevents : ∀ x l, Q x → Q (Bench.afterEvents x l)) (hq : Q b) : Runs c n s Q := by
  obtain ⟨t, he, honly, hanswer, l, hb⟩ := h
  exact ⟨t, he, honly, hanswer, by rw [hb]; exact hevents b l hq⟩

section
variable {p e : Nat} {b c : Bench} (h : b.CtlWritten p e c)
include h

/-- LANE_RESET, where it leaves the port as it was. -/
theorem Bench.CtlWritten.afterReset (hp : p < 4) {reset : Bool} (hfailed : b.portSt p = psFailed → reset = false)
    (hmarks : reset = true → b.portSt p = psDisabled → b.laneFailed p = false) :
    ∃ d, b.CtlWritten p e d ∧ ∀ new old, c.ctlActs p reset new old = d.ctlActs p false new old := by
  cases reset with
  | false => exact ⟨c, h, fun _ _ => rfl⟩
  | true => exact ⟨c.laneReset p, h.laneReset hp (fun hf => absurd (hfailed hf) (by decide)) (hmarks rfl), fun _ _ => rfl⟩

/-- ENABLE of a DISABLED port. -/
theorem Bench.CtlWritten.enable_disabled (hst : b.portSt p = psDisabled) :
    c.ctlActs p false true false = c.setPortSt p (if b.laneFailed p then psFailed else psWait) := by
  have hact : c.portEnable p = c.setPortSt p (if c.laneFailed p then psFailed else psWait) := if_pos (h.portSt.trans hst)
  rw [← h.failed]
  exact hact

/-- ENABLE of a port that is not DISABLED. -/
theorem Bench.CtlWritten.enable_refused (hst : b.portSt p ≠ psDisabled) : c.ctlActs p false true false = c.cfgRefused := by
  have hact : c.portEnable p = c.cfgRefused := if_neg (by rw [h.portSt]; exact hst)
  exact hact

/-- DISABLE of a port that is neither DISABLED nor UP. -/
theorem Bench.CtlWritten.disable_down (hdis : b.portSt p ≠ psDisabled) (hup : b.portSt p ≠ psUp) :
    c.ctlActs p false false true = c.setPortSt p psDisabled := by
  have hact : c.portDisable p = c.setPortSt p psDisabled := by
    unfold Bench.portDisable
    dsimp only
    rw [h.portSt, if_neg hdis, if_neg hup]
  exact hact

/-- DISABLE of a port that is UP. -/
theorem Bench.CtlWritten.disable_up (hup : b.portSt p = psUp) : c.ctlActs p false false true =
    if (b.port p).txPid.isSome then c.setPort p { b.port p with disabling := true } else c.leaveUp p psDisabled := by
  have hact : c.portDisable p =
      if (b.port p).txPid.isSome then c.setPort p { b.port p with disabling := true } else c.leaveUp p psDisabled := by
    unfold Bench.portDisable
    dsimp only
    rw [h.portSt, hup, if_neg (by decide), if_pos rfl, h.port]
  exact hact

/-- LANE_RESET alone, of a port that has failed. -/
theorem Bench.CtlWritten.reset_failed (hst : b.portSt p = psFailed) (old : Bool) :
    c.ctlActs p true old old = (c.setLanes p R.face_LANE_STATUS_FAILED 0).setPortSt p psWait := by
  have hact : c.laneReset p = (c.setLanes p R.face_LANE_STATUS_FAILED 0).setPortSt p psWait := by
    unfold Bench.laneReset
    dsimp only
    rw [h.portSt, hst, if_neg (by decide), if_pos rfl]
  unfold Bench.ctlActs
  cases old <;> exact hact

/-- LANE_RESET alone, of a port that is DISABLED. -/
theorem Bench.CtlWritten.reset_disabled (hst : b.portSt p = psDisabled) (old : Bool) :
    c.ctlActs p true old old = c.setLanes p R.face_LANE_STATUS_FAILED 0 := by
  have hact : c.laneReset p = c.setLanes p R.face_LANE_STATUS_FAILED 0 := by
    unfold Bench.laneReset
    dsimp only
    rw [h.portSt, hst, if_pos rfl]
  unfold Bench.ctlActs
  cases old <;> exact hact

end

/-! ## The three commands -/

section
variable {n : BenchId} {p : Nat} {v : Word} {s : State} {b' : Bench} (hl : (s.dev.bench n).live = true) (hp : (s.dev.bench n).hasPort p = true)
include hl hp

/-- PORT_ENABLE of a port whose ENABLE is 0, with or without LANE_RESET. -/
theorem leaves_portEnable (hen : (s.dev.bench n).flag (R.face_PORT_CTL_ENABLE p) = false)
    (hfailed : (s.dev.bench n).portSt p = psFailed → bit v.toNat 5 = false)
    (hmarks : bit v.toNat 5 = true → (s.dev.bench n).portSt p = psDisabled → (s.dev.bench n).laneFailed p = false) :
    ∃ c, (s.dev.bench n).CtlWritten p 1 c ∧ Leaves (.portEnable n p v) n s (c.ctlActs p false true false) := by
  obtain ⟨hnew, hbit, hreset⟩ := bits_putBits_enable v.toNat 1 (by decide)
  obtain ⟨c, hc, heq⟩ := Bench.portCtlWrite_spec hp (putBits v.toNat 0 1 1) (R.face_PORT_CTL p) v.toNat
  rw [hnew, hreset, hen] at heq
  rw [hbit] at hc
  obtain ⟨d, hd, hacts⟩ := hc.afterReset (Bench.hasPort_lt hp) hfailed hmarks
  exact ⟨d, hd, leaves_of_eq rfl hl (heq.trans (hacts true false))⟩

/-- PORT_DISABLE of a port whose ENABLE is 1, with or without LANE_RESET. -/
theorem leaves_portDisable (hen : (s.dev.bench n).flag (R.face_PORT_CTL_ENABLE p) = true)
    (hfailed : (s.dev.bench n).portSt p = psFailed → bit v.toNat 5 = false) (hdis : (s.dev.bench n).portSt p ≠ psDisabled) :
    ∃ c, (s.dev.bench n).CtlWritten p 0 c ∧ Leaves (.portDisable n p v) n s (c.ctlActs p false false true) := by
  obtain ⟨hnew, hbit, hreset⟩ := bits_putBits_enable v.toNat 0 (by decide)
  obtain ⟨c, hc, heq⟩ := Bench.portCtlWrite_spec hp (putBits v.toNat 0 1 0) (R.face_PORT_CTL p) v.toNat
  rw [hnew, hreset, hen] at heq
  rw [hbit] at hc
  obtain ⟨d, hd, hacts⟩ := hc.afterReset (Bench.hasPort_lt hp) hfailed (fun _ h => absurd h hdis)
  exact ⟨d, hd, leaves_of_eq rfl hl (heq.trans (hacts false true))⟩

/-- LANE_RESET with ENABLE as it stands. -/
theorem leaves_laneReset (hen : bit v.toNat 0 = (s.dev.bench n).flag (R.face_PORT_CTL_ENABLE p)) :
    ∃ e c, (s.dev.bench n).CtlWritten p e c ∧ Leaves (.laneReset n p v) n s (c.ctlActs p true (bit v.toNat 0) (bit v.toNat 0)) := by
  obtain ⟨hreset, hnew⟩ := bits_putBits_reset v.toNat
  obtain ⟨c, hc, heq⟩ := Bench.portCtlWrite_spec hp (putBits v.toNat 5 1 1) (R.face_PORT_CTL p) v.toNat
  rw [hreset, hnew, ← hen] at heq
  exact ⟨_, c, hc, leaves_of_eq rfl hl heq⟩

end

/-! ## Training (R60 to R62) -/

section
variable {b : Bench} {p : Nat} (hp : b.hasPort p = true)
include hp

/-- Energy on the lanes of a port that waits for it. -/
theorem Bench.signalPresent_wait (hst : b.portSt p = psWait) : b.signalPresent p =
    ((b.setLanes p R.face_LANE_STATUS_SIGNAL 1).setPort p { b.port p with fails := 0, retrain := false, an := 0 }).setPortSt p psTraining := by
  have hwait : (b.setLanes p R.face_LANE_STATUS_SIGNAL 1).portSt p = psWait :=
    (Bench.portSt_setLanes b (Bench.hasPort_lt hp) 1 fun _ => rfl).trans hst
  unfold Bench.signalPresent
  dsimp only
  rw [if_pos hp, if_pos hwait, (b.setLanes_regsOnly p R.face_LANE_STATUS_SIGNAL 1).port]

/-- No energy on the lanes of a port that trains, or is UP. -/
theorem Bench.signalLoss_down (hst : b.portSt p = psTraining) : b.signalLoss p =
    ((b.setLanes p R.face_LANE_STATUS_SIGNAL 0).setLanes p R.face_LANE_STATUS_LOCKED 0).setPortSt p psWait := by
  have hlt := Bench.hasPort_lt hp
  have hst' : ((b.setLanes p R.face_LANE_STATUS_SIGNAL 0).setLanes p R.face_LANE_STATUS_LOCKED 0).portSt p = psTraining :=
    (Bench.portSt_setLanes _ hlt 0 fun _ => rfl).trans ((Bench.portSt_setLanes b hlt 0 fun _ => rfl).trans hst)
  unfold Bench.signalLoss
  dsimp only
  rw [if_pos hp, hst', if_neg (by decide), if_pos rfl]

theorem Bench.signalLoss_up (hst : b.portSt p = psUp) : b.signalLoss p =
    ((b.setLanes p R.face_LANE_STATUS_SIGNAL 0).setLanes p R.face_LANE_STATUS_LOCKED 0).leaveUp p psWait := by
  have hlt := Bench.hasPort_lt hp
  have hst' : ((b.setLanes p R.face_LANE_STATUS_SIGNAL 0).setLanes p R.face_LANE_STATUS_LOCKED 0).portSt p = psUp :=
    (Bench.portSt_setLanes _ hlt 0 fun _ => rfl).trans ((Bench.portSt_setLanes b hlt 0 fun _ => rfl).trans hst)
  unfold Bench.signalLoss
  dsimp only
  rw [if_pos hp, if_pos hst']

variable (hst : b.portSt p = psTraining)
include hst

/-- An attempt that reaches lock. -/
theorem Bench.attemptSucceeds_training (han : b.negotiates p = false ∨ (b.port p).an = 1) : b.attemptSucceeds p =
    (((if (b.port p).retrain then (b.setLanes p R.face_LANE_STATUS_LOCKED 1).tick (T.LINK_RETRAIN_OK p)
      else b.setLanes p R.face_LANE_STATUS_LOCKED 1).setFld (R.face_PORT_STATUS_CAL p) 0).setPort p
        { b.port p with fails := 0, retrain := false, faults := false }).setPortSt p psUp := by
  have hport := (b.setLanes_regsOnly p R.face_LANE_STATUS_LOCKED 1).port p
  unfold Bench.attemptSucceeds
  rw [if_pos (by obtain han | han := han <;> simp [hp, hst, han])]
  dsimp only
  generalize b.setLanes p R.face_LANE_STATUS_LOCKED 1 = x at hport
  rw [hport, ← hport]
  split
  · rfl
  · rfl

/-- An attempt that fails: the first, and a further one. -/
theorem Bench.attemptFails_training (han : b.negotiates p = false ∨ (b.port p).an ≠ 2) : b.attemptFails p =
    if (b.port p).fails = 0 then
      ((b.setFld (R.face_PORT_STATUS_TRAIN_FAILED p) 1).setPort p { b.port p with fails := 1, an := 0 }).tick (T.TRAIN_RETRY p)
    else (((((b.setFld (R.face_PORT_STATUS_TRAIN_FAILED p) 1).setPort p { b.port p with fails := 0, retrain := false }).setLanes p
      R.face_LANE_STATUS_FAILED 1).setPortSt p psFailed).raise 9) := by
  unfold Bench.attemptFails
  exact if_pos (by obtain han | han := han <;> simp [hp, hst, han])

/-- The partner's page. -/
theorem Bench.anPage_training (hneg : b.negotiates p = true) (offered : List Tech) : b.anPage p offered =
    if offered.contains (techOf b.power.portMode) then b.setPort p { b.port p with an := 1 }
    else (b.setPort p { b.port p with an := 2 }).tick (T.AN_NO_MATCH p) := by
  unfold Bench.anPage
  exact if_pos (by simp [hp, hst, hneg])

end

end Sys2Proof.Machine
end

section
/-! O12, the statement. -/
namespace Sys2Proof.Machine

/-- The lanes' registers are not the port's own. -/
theorem face_LANE_STATUS_ne_PORT_STATUS {p : Nat} (hp : p < 4) (k : Nat) : R.face_LANE_STATUS k ≠ R.face_PORT_STATUS p := by
  unfold R.face_LANE_STATUS R.face_PORT_STATUS
  omega

/-- The lanes of an attempt that reaches lock; a retrain is counted. -/
theorem Bench.locked_spec (b : Bench) (p : Nat) :
    b.PortStep p (if (b.port p).retrain then (b.setLanes p R.face_LANE_STATUS_LOCKED 1).tick (T.LINK_RETRAIN_OK p)
      else b.setLanes p R.face_LANE_STATUS_LOCKED 1) ∧
    (∀ k ∈ b.lanes p, (if (b.port p).retrain then (b.setLanes p R.face_LANE_STATUS_LOCKED 1).tick (T.LINK_RETRAIN_OK p)
      else b.setLanes p R.face_LANE_STATUS_LOCKED 1).fld (R.face_LANE_STATUS_LOCKED k) = 1) ∧
    (if (b.port p).retrain then (b.setLanes p R.face_LANE_STATUS_LOCKED 1).tick (T.LINK_RETRAIN_OK p)
      else b.setLanes p R.face_LANE_STATUS_LOCKED 1).tally (T.LINK_RETRAIN_OK p) =
        if (b.port p).retrain then min tallyMax (b.tally (T.LINK_RETRAIN_OK p) + 1) else b.tally (T.LINK_RETRAIN_OK p) := by
  have hstep := Bench.PortStep.setLanes (p := p) b (f := R.face_LANE_STATUS_LOCKED) 1 fun _ => rfl
  have hlocked (k : Nat) (hk : k ∈ b.lanes p) : (b.setLanes p R.face_LANE_STATUS_LOCKED 1).fld (R.face_LANE_STATUS_LOCKED k) = 1 :=
    Bench.fld_setLanes b p (fun _ => rfl) (fun _ => Nat.le_of_ble_eq_true rfl) rfl hk
  have htally : (b.setLanes p R.face_LANE_STATUS_LOCKED 1).tally (T.LINK_RETRAIN_OK p) = b.tally (T.LINK_RETRAIN_OK p) := by
    unfold Bench.tally
    rw [(b.setLanes_regsOnly p R.face_LANE_STATUS_LOCKED 1).tal]
  generalize b.setLanes p R.face_LANE_STATUS_LOCKED 1 = x at hstep hlocked htally
  by_cases hr : (b.port p).retrain = true
  · rw [if_pos hr, if_pos hr]
    exact ⟨hstep.trans (.tick x _), hlocked, (Bench.tally_count_self _ _ _).trans (by rw [htally])⟩
  · rw [if_neg hr, if_neg hr]
    exact ⟨hstep, hlocked, htally⟩

section
variable {n : BenchId} {p : Nat} {s : State} (hl : (s.dev.bench n).live = true) (hp : (s.dev.bench n).hasPort p = true)
include hl hp

/-- Energy on the lanes of a port that waits for it. -/
theorem runs_signalPresent (hst : (s.dev.bench n).portSt p = psWait) (hpwr : s.dev.hub.fw.pwrfail = false) :
    Runs (.signalPresent (.bench n) p) n s (fun b => b.portSt p = psTraining ∧ (b.port p).fails = 0 ∧ (b.port p).retrain = false ∧
      (∀ k ∈ (s.dev.bench n).lanes p, b.fld (R.face_LANE_STATUS_SIGNAL k) = 1) ∧ PortOnly p (s.dev.bench n) b) := by
  have hleaves : Leaves (.signalPresent (.bench n) p) n s _ :=
    leaves_of_eq rfl hl ((if_neg (by rw [hpwr]; exact Bool.false_ne_true)).trans (Bench.signalPresent_wait hp hst))
  have hport := Bench.port_setPort_self ((s.dev.bench n).setLanes p R.face_LANE_STATUS_SIGNAL 1) p
    { (s.dev.bench n).port p with fails := 0, retrain := false, an := 0 }
  refine runs_of_leaves hleaves (fun _ _ h => h) ⟨Bench.portSt_setPortSt _ _ (by decide), ?_, ?_, fun k hk => ?_,
    ((Bench.PortStep.setLanes (s.dev.bench n) 1 fun _ => rfl).trans ((Bench.PortStep.setPort _ _).trans (.setPortSt _ _))).portOnly⟩
  · rw [Bench.port_setPortSt, hport]
  · rw [Bench.port_setPortSt, hport]
  · rw [Bench.fld_setPortSt_off _ _ _ (face_LANE_STATUS_ne_PORT_STATUS (Bench.hasPort_lt hp) k)]
    exact Bench.fld_setLanes (s.dev.bench n) p (fun _ => rfl) (fun _ => Nat.le_of_ble_eq_true rfl) rfl hk

/-- No energy on the lanes of a port that trains. -/
theorem runs_signalLoss (hst : (s.dev.bench n).portSt p = psTraining) :
    Runs (.signalLoss (.bench n) p) n s (fun b => b.portSt p = psWait ∧
      (∀ k ∈ (s.dev.bench n).lanes p, b.fld (R.face_LANE_STATUS_SIGNAL k) = 0 ∧ b.fld (R.face_LANE_STATUS_LOCKED k) = 0) ∧ PortOnly p (s.dev.bench n) b) := by
  have hleaves : Leaves (.signalLoss (.bench n) p) n s _ := leaves_of_eq rfl hl (Bench.signalLoss_down hp hst)
  have hstep := Bench.PortStep.setLanes (p := p) (s.dev.bench n) (f := R.face_LANE_STATUS_SIGNAL) 0 fun _ => rfl
  have hlanes := hstep.lanes
  have hsignal (k : Nat) (hk : k ∈ (s.dev.bench n).lanes p) :
      ((s.dev.bench n).setLanes p R.face_LANE_STATUS_SIGNAL 0).fld (R.face_LANE_STATUS_SIGNAL k) = 0 :=
    Bench.fld_setLanes (s.dev.bench n) p (fun _ => rfl) (fun _ => Nat.le_of_ble_eq_true rfl) rfl hk
  generalize (s.dev.bench n).setLanes p R.face_LANE_STATUS_SIGNAL 0 = x at hleaves hstep hlanes hsignal
  refine runs_of_leaves hleaves (fun _ _ h => h) ⟨Bench.portSt_setPortSt _ _ (by decide), fun k hk => ⟨?_, ?_⟩,
    (hstep.trans ((Bench.PortStep.setLanes x 0 fun _ => rfl).trans (.setPortSt _ _))).portOnly⟩
  · rw [Bench.fld_setPortSt_off _ _ _ (face_LANE_STATUS_ne_PORT_STATUS (Bench.hasPort_lt hp) k),
      Bench.fld_setLanes_apart _ _ _ (Nat.le_of_ble_eq_true rfl) (fun _ => .inr (.inr (Nat.le_of_ble_eq_true rfl))), hsignal k hk]
  · rw [Bench.fld_setPortSt_off _ _ _ (face_LANE_STATUS_ne_PORT_STATUS (Bench.hasPort_lt hp) k)]
    exact Bench.fld_setLanes x p (fun _ => rfl) (fun _ => Nat.le_of_ble_eq_true rfl) rfl (by rw [hlanes]; exact hk)

/-- An attempt that reaches lock. -/
theorem runs_attemptSucceeds (hst : (s.dev.bench n).portSt p = psTraining)
    (han : (s.dev.bench n).negotiates p = false ∨ ((s.dev.bench n).port p).an = 1) :
    Runs (.attemptSucceeds (.bench n) p) n s (fun b => b.portSt p = psUp ∧ b.fld (R.face_PORT_STATUS_CAL p) = 0 ∧
      (b.port p).fails = 0 ∧ (b.port p).retrain = false ∧ (b.port p).faults = false ∧
      (∀ k ∈ (s.dev.bench n).lanes p, b.fld (R.face_LANE_STATUS_LOCKED k) = 1) ∧ PortOnly p (s.dev.bench n) b ∧
      b.tally (T.LINK_RETRAIN_OK p) =
        if ((s.dev.bench n).port p).retrain then min tallyMax ((s.dev.bench n).tally (T.LINK_RETRAIN_OK p) + 1) else (s.dev.bench n).tally (T.LINK_RETRAIN_OK p)) := by
  have hleaves : Leaves (.attemptSucceeds (.bench n) p) n s _ := leaves_of_eq rfl hl (Bench.attemptSucceeds_training hp hst han)
  obtain ⟨hstep, hlocked, htally⟩ := Bench.locked_spec (s.dev.bench n) p
  generalize (if ((s.dev.bench n).port p).retrain then ((s.dev.bench n).setLanes p R.face_LANE_STATUS_LOCKED 1).tick (T.LINK_RETRAIN_OK p)
    else (s.dev.bench n).setLanes p R.face_LANE_STATUS_LOCKED 1) = x at hleaves hstep hlocked htally
  have hport := Bench.port_setPort_self (x.setFld (R.face_PORT_STATUS_CAL p) 0) p
    { (s.dev.bench n).port p with fails := 0, retrain := false, faults := false }
  have hcal : (x.setFld (R.face_PORT_STATUS_CAL p) 0).fld (R.face_PORT_STATUS_CAL p) = 0 :=
    (Bench.fld_setFld_self _ _ _ (Nat.le_of_ble_eq_true rfl)).trans rfl
  refine runs_of_leaves hleaves (fun _ _ h => h) ⟨Bench.portSt_setPortSt _ _ (by decide), ?_, ?_, ?_, ?_, fun k hk => ?_,
    (hstep.trans ((Bench.PortStep.setFld x 0 (.inr (.inl rfl))).trans ((Bench.PortStep.setPort _ _).trans (.setPortSt _ _)))).portOnly, htally⟩
  · rw [Bench.fld_setPortSt _ _ _ (Nat.le_of_ble_eq_true rfl) (Nat.le_of_ble_eq_true rfl)]
    exact hcal
  · rw [Bench.port_setPortSt, hport]
  · rw [Bench.port_setPortSt, hport]
  · rw [Bench.port_setPortSt, hport]
  · rw [Bench.fld_setPortSt_off _ _ _ (face_LANE_STATUS_ne_PORT_STATUS (Bench.hasPort_lt hp) k)]
    exact (Bench.fld_setFld_off x (R.face_PORT_STATUS_CAL p) _ 0 (face_LANE_STATUS_ne_PORT_STATUS (Bench.hasPort_lt hp) k)).trans (hlocked k hk)

/-- A first attempt that fails. -/
theorem runs_attemptFails_first (hst : (s.dev.bench n).portSt p = psTraining)
    (hfirst : ((s.dev.bench n).port p).fails = 0) (han : (s.dev.bench n).negotiates p = false ∨ ((s.dev.bench n).port p).an ≠ 2) :
    Runs (.attemptFails (.bench n) p) n s (fun b => b.portSt p = psTraining ∧ (b.port p).fails = 1 ∧
      b.fld (R.face_PORT_STATUS_TRAIN_FAILED p) = 1 ∧ PortOnly p (s.dev.bench n) b ∧
      b.tally (T.TRAIN_RETRY p) = min tallyMax ((s.dev.bench n).tally (T.TRAIN_RETRY p) + 1)) := by
  have hleaves : Leaves (.attemptFails (.bench n) p) n s _ :=
    leaves_of_eq rfl hl ((Bench.attemptFails_training hp hst han).trans (if_pos hfirst))
  have hport := Bench.port_setPort_self ((s.dev.bench n).setFld (R.face_PORT_STATUS_TRAIN_FAILED p) 1) p
    { (s.dev.bench n).port p with fails := 1, an := 0 }
  refine runs_of_leaves hleaves (fun _ _ h => h) ⟨?_, congrArg PortSt.fails hport, ?_,
    ((Bench.PortStep.setFld (s.dev.bench n) 1 (.inr (.inl rfl))).trans ((Bench.PortStep.setPort _ _).trans (.tick _ _))).portOnly,
    Bench.tally_count_self _ _ _⟩
  · exact (Bench.fld_setFld_apart (s.dev.bench n) (R.face_PORT_STATUS_TRAIN_FAILED p) (R.face_PORT_STATUS_STATE p) 1 (Nat.le_of_ble_eq_true rfl)
      (.inr (.inr (Nat.le_of_ble_eq_true rfl)))).trans hst
  · exact (Bench.fld_setFld_self (s.dev.bench n) (R.face_PORT_STATUS_TRAIN_FAILED p) 1 (Nat.le_of_ble_eq_true rfl)).trans rfl

/-- A further attempt that fails. -/
theorem runs_attemptFails_further (hst : (s.dev.bench n).portSt p = psTraining)
    (hfirst : ((s.dev.bench n).port p).fails ≠ 0) (han : (s.dev.bench n).negotiates p = false ∨ ((s.dev.bench n).port p).an ≠ 2) :
    Runs (.attemptFails (.bench n) p) n s (fun b => b.portSt p = psFailed ∧ PortOnly p (s.dev.bench n) b ∧
      ∀ k ∈ (s.dev.bench n).lanes p, b.fld (R.face_LANE_STATUS_FAILED k) = 1) := by
  have hleaves : Leaves (.attemptFails (.bench n) p) n s _ :=
    leaves_of_eq rfl hl ((Bench.attemptFails_training hp hst han).trans (if_neg hfirst))
  have hstep : (s.dev.bench n).PortStep p (((s.dev.bench n).setFld (R.face_PORT_STATUS_TRAIN_FAILED p) 1).setPort p
      { (s.dev.bench n).port p with fails := 0, retrain := false }) :=
    (Bench.PortStep.setFld (s.dev.bench n) 1 (.inr (.inl rfl))).trans (.setPort _ _)
  generalize ((s.dev.bench n).setFld (R.face_PORT_STATUS_TRAIN_FAILED p) 1).setPort p
    { (s.dev.bench n).port p with fails := 0, retrain := false } = x at hleaves hstep
  have hstate := Bench.portSt_setPortSt (x.setLanes p R.face_LANE_STATUS_FAILED 1) p (st := psFailed) (by decide)
  have hfailed (k : Nat) (hk : k ∈ (s.dev.bench n).lanes p) :
      ((x.setLanes p R.face_LANE_STATUS_FAILED 1).setPortSt p psFailed).fld (R.face_LANE_STATUS_FAILED k) = 1 := by
    rw [Bench.fld_setPortSt_off _ _ _ (face_LANE_STATUS_ne_PORT_STATUS (Bench.hasPort_lt hp) k)]
    exact Bench.fld_setLanes x p (fun _ => rfl) (fun _ => Nat.le_of_ble_eq_true rfl) rfl (by rw [hstep.lanes]; exact hk)
  have hstep' := hstep.trans ((Bench.PortStep.setLanes x (f := R.face_LANE_STATUS_FAILED) 1 fun _ => rfl).trans (.setPortSt _ psFailed))
  generalize (x.setLanes p R.face_LANE_STATUS_FAILED 1).setPortSt p psFailed = y at hleaves hstate hfailed hstep'
  exact runs_of_leaves hleaves (fun _ _ h => h) ⟨hstate, (hstep'.trans (.raise y 9)).portOnly, hfailed⟩

end

/-- Settles O12: what a write of PORT_CTL starts, and how signal, lock, pages and attempts move the link. -/
theorem portLinkStates : Obligations.PortLinkStates := by
  unfold Obligations.PortLinkStates
  refine ⟨?enable, ?enableFailed, ?enableRefused, ?noPort, ?disable, ?disableFailed, ?disableWaits, ?disableUp, ?frameEnd, ?resetFailed,
    ?resetDisabled, ?signal, ?signalLoss, ?signalLossUp, ?lockLoss, ?succeeds, ?unmatched, ?fails, ?failsAgain, ?noMatch, ?page, ?noPage, ?cal⟩
  case enable =>
    intro n p v s hl hp hst hen hmarks
    obtain ⟨c, hc, hleaves⟩ := leaves_portEnable hl hp (v := v) hen (fun h => by rw [hst] at h; cases h) (fun _ _ => hmarks)
    rw [hc.enable_disabled hst, hmarks, if_neg Bool.false_ne_true] at hleaves
    refine runs_of_leaves hleaves (fun _ _ h => h) ⟨Bench.portSt_setPortSt _ _ (by decide), ?_, Bench.linkChanged_setPortSt _ _ _,
      (hc.step.trans (.setPortSt c _)).portOnly⟩
    rw [Bench.fld_setPortSt_off, hc.enable]
    simp only [R.face_PORT_CTL_ENABLE, R.face_PORT_CTL, R.face_PORT_STATUS]
    omega
  case enableFailed =>
    intro n p v s hl hp hst hen hmarks hv
    obtain ⟨c, hc, hleaves⟩ := leaves_portEnable hl hp (v := v) hen (fun _ => hv) (fun h => by rw [hv] at h; cases h)
    rw [hc.enable_disabled hst, hmarks, if_pos rfl] at hleaves
    refine runs_of_leaves hleaves (fun _ _ h => h) ⟨Bench.portSt_setPortSt _ _ (by decide), ?_, (hc.step.trans (.setPortSt c _)).portOnly⟩
    rw [Bench.fld_setPortSt_off, hc.enable]
    simp only [R.face_PORT_CTL_ENABLE, R.face_PORT_CTL, R.face_PORT_STATUS]
    omega
  case enableRefused =>
    intro n p v s hl hp hst hen hv
    obtain ⟨c, hc, hleaves⟩ := leaves_portEnable hl hp (v := v) hen (fun _ => hv) (fun h => by rw [hv] at h; cases h)
    rw [hc.enable_refused hst] at hleaves
    have htally : c.cfgRefused.tally T.CFG_REFUSED = min tallyMax (c.tally T.CFG_REFUSED + 1) := Bench.tally_count_self _ _ _
    have hrefused := hc.refused
    refine runs_of_leaves hleaves (fun _ _ h => h) ⟨hc.portSt, hc.enable, ?_, (hc.step.trans (.tick c _)).portOnly⟩
    rw [htally]
    omega
  case noPort =>
    intro n p v s hl hp
    have hrefused (v' : Nat) : ((s.dev.bench n).rsvd (R.face_PORT_CTL p) v.toNat).portCtlWrite p v' =
        ((s.dev.bench n).rsvd (R.face_PORT_CTL p) v.toNat).tick T.CFG_REFUSED := by
      have hpower := ((Bench.CtlWritten.refl (p := p) (s.dev.bench n)).rsvd (R.face_PORT_CTL p) v.toNat).step.power
      exact if_pos (by rw [Bench.hasPort_congr hpower, hp]; rfl)
    exact ⟨leaves_of_eq rfl hl (hrefused _), leaves_of_eq rfl hl (hrefused _), leaves_of_eq rfl hl (hrefused _)⟩
  case disable =>
    intro n p v s hl hp hen hst
    have hdown : (s.dev.bench n).portSt p ≠ psDisabled ∧ (s.dev.bench n).portSt p ≠ psUp ∧ (s.dev.bench n).portSt p ≠ psFailed := by
      obtain hst | hst := hst <;> rw [hst] <;> decide
    obtain ⟨hdis, hup, hfailed⟩ := hdown
    obtain ⟨c, hc, hleaves⟩ := leaves_portDisable hl hp (v := v) hen (fun h => absurd h hfailed) hdis
    rw [hc.disable_down hdis hup] at hleaves
    refine runs_of_leaves hleaves (fun _ _ h => h) ⟨Bench.portSt_setPortSt _ _ (by decide), ?_, Bench.linkChanged_setPortSt _ _ _,
      (hc.step.trans (.setPortSt c _)).portOnly⟩
    rw [Bench.fld_setPortSt_off, hc.enable]
    simp only [R.face_PORT_CTL_ENABLE, R.face_PORT_CTL, R.face_PORT_STATUS]
    omega
  case disableFailed =>
    intro n p v s hl hp hen hst hv
    have hdis : (s.dev.bench n).portSt p ≠ psDisabled := by rw [hst]; decide
    obtain ⟨c, hc, hleaves⟩ := leaves_portDisable hl hp (v := v) hen (fun _ => hv) hdis
    rw [hc.disable_down hdis (by rw [hst]; decide)] at hleaves
    exact runs_of_leaves hleaves (fun _ _ h => h) ⟨Bench.portSt_setPortSt _ _ (by decide),
      (Bench.laneFailed_setPortSt c (Bench.hasPort_lt hp) _).trans hc.failed, (hc.step.trans (.setPortSt c _)).portOnly⟩
  case disableWaits =>
    intro n p v s hl hup hen htx
    have hp := Bench.hasPort_of_isUp hup
    have hst := Bench.portSt_of_isUp hup
    obtain ⟨c, hc, hleaves⟩ := leaves_portDisable hl hp (v := v) hen (fun h => by rw [hst] at h; cases h) (by rw [hst]; decide)
    rw [hc.disable_up hst, if_pos htx] at hleaves
    refine runs_of_leaves hleaves (fun _ _ h => h) ⟨hc.portSt.trans hst, ?_, (hc.step.trans (.setPort c _)).portOnly⟩
    rw [Bench.port_setPort_self]
  case disableUp =>
    intro n p v s hl hup hen htx
    have hp := Bench.hasPort_of_isUp hup
    have hst := Bench.portSt_of_isUp hup
    obtain ⟨c, hc, hleaves⟩ := leaves_portDisable hl hp (v := v) hen (fun h => by rw [hst] at h; cases h) (by rw [hst]; decide)
    rw [hc.disable_up hst, htx, Option.isSome_none, if_neg Bool.false_ne_true] at hleaves
    obtain ⟨hstate, hport, -⟩ := c.leaveUp_port p (st := psDisabled) (by decide)
    obtain ⟨hrx, -⟩ := c.port_portEnded p
    refine runs_of_leaves hleaves (fun _ _ h => h) ⟨hstate.trans (ite_self _), ?_⟩
    rw [hport]
    exact hrx
  case frameEnd =>
    intro n p s hl hdis htx
    exact leaves_of_eq rfl hl (if_pos (by simp [hdis, htx]))
  case resetFailed =>
    intro n p v s hl hp hst hen
    obtain ⟨e, c, hc, hleaves⟩ := leaves_laneReset hl hp (v := v) hen
    rw [hc.reset_failed hst] at hleaves
    exact runs_of_leaves hleaves (fun _ _ h => h) ⟨Bench.portSt_setPortSt _ _ (by decide),
      (Bench.laneFailed_setPortSt _ (Bench.hasPort_lt hp) _).trans (Bench.laneFailed_setLanes c p),
      ((hc.step.trans (.setLanes c 0 fun _ => rfl)).trans (.setPortSt _ _)).portOnly⟩
  case resetDisabled =>
    intro n p v s hl hp hst hen
    obtain ⟨e, c, hc, hleaves⟩ := leaves_laneReset hl hp (v := v) hen
    rw [hc.reset_disabled hst] at hleaves
    exact runs_of_leaves hleaves (fun _ _ h => h) ⟨(Bench.portSt_setLanes c (Bench.hasPort_lt hp) 0 fun _ => rfl).trans (hc.portSt.trans hst),
      Bench.laneFailed_setLanes c p, (hc.step.trans (.setLanes c 0 fun _ => rfl)).portOnly⟩
  case signal => exact fun n p s hl hp hst hpwr => runs_signalPresent hl hp hst hpwr
  case signalLoss => exact fun n p s hl hp hst => runs_signalLoss hl hp hst
  case signalLossUp =>
    intro n p s hl hup
    exact leaves_of_eq rfl hl (Bench.signalLoss_up (Bench.hasPort_of_isUp hup) (Bench.portSt_of_isUp hup))
  case lockLoss =>
    intro n p s hl hup
    exact leaves_of_eq rfl hl (if_pos hup)
  case succeeds => exact fun n p s hl hp hst han => runs_attemptSucceeds hl hp hst han
  case unmatched =>
    intro n p s hl hneg han
    exact leaves_of_eq rfl hl (if_neg (by simp [hneg, han]))
  case fails => exact fun n p s hl hp hst hfirst han => runs_attemptFails_first hl hp hst hfirst han
  case failsAgain => exact fun n p s hl hp hst hfirst han => runs_attemptFails_further hl hp hst hfirst han
  case noMatch =>
    intro n p s hl hneg han
    exact leaves_of_eq rfl hl (if_neg (by simp [hneg, han]))
  case page =>
    intro n p offered s hl hp hst hneg hoff
    exact leaves_of_eq rfl hl ((Bench.anPage_training hp hst hneg offered).trans (if_pos (List.contains_iff_mem.mpr hoff)))
  case noPage =>
    intro n p offered s hl hp hst hneg hoff
    exact leaves_of_eq rfl hl ((Bench.anPage_training hp hst hneg offered).trans (if_neg (by rw [List.contains_iff_mem]; exact hoff)))
  case cal =>
    intro n p s hl hup hprofile
    exact leaves_of_eq rfl hl (if_pos (by simp [hup, hprofile]))

end Sys2Proof.Machine
end
